-- ==== Sys2Proof/Word.lean ====
section
/-!
DEFINITION. The words of the module: bytes, 32-bit words, 64-bit doublewords (R2).
-/
namespace Sys2Proof

abbrev Byte := BitVec 8
abbrev Word := BitVec 32
abbrev DWord := BitVec 64

end Sys2Proof
end

