-- ==== Sys2Proof/Syntax.lean ====
section
/-!
DEFINITION. The commands the module takes: one constructor of Instr per row of spec/opcode_table.json, in the
table's order, and the types of their operands. A core instruction carries every field of its word (R37 to R39), so
that each encoding check of R38 has a value to fail on. An event carries the unit it befalls and what arrives from
outside the module (assumption log 1, 10 and 11).
-/
namespace Sys2Proof

/-- A tract, T0 to T11 (R9). -/
abbrev Tract := Fin 12
/-- A logical parcel number within a tract (R13). -/
abbrev ParcelNo := Fin 1360
/-- A core of a parcel, c0 to c63. -/
abbrev CoreNo := Fin 64
/-- A link port, P0 to P15 (R11). -/
abbrev Port := Fin 16

/-- A parcel of the module. -/
structure ParcelId where
  tract  : Tract
  parcel : ParcelNo
  deriving DecidableEq, Repr

/-- A core of the module (CORE_ID, R29). -/
structure CoreId where
  tract  : Tract
  parcel : ParcelNo
  core   : CoreNo
  deriving DecidableEq, Repr

/-- The four host-visible engines of a tract, in the order of their numbers 0 to 3 (R17, "Command queues and chains"). -/
inductive Engine where
  | dispatcher
  | mover
  | transit
  | vector
  deriving DecidableEq, Repr

/-- Queue q = 4 * tract + engine. -/
structure QueueId where
  tract  : Tract
  engine : Engine
  deriving DecidableEq, Repr

/-- The guard of an instruction word, bits [25:22]: NEG and a predicate (R37). -/
structure Guard where
  neg  : Bool
  pred : BitVec 3
  deriving DecidableEq, Repr

/-- What every core instruction carries: the core that issues it, its guard, and whether the core read the word from
the commons in this issue (the instruction buffer may have let the word go, R56) rather than from its buffer. -/
structure Issue where
  core  : CoreId
  guard : Guard
  fetch : Bool
  deriving DecidableEq, Repr

/-- Format R, bits [21:7]. -/
structure FmtR where
  rd  : BitVec 5
  rs1 : BitVec 5
  rs2 : BitVec 5
  deriving DecidableEq, Repr

/-- Format I, bits [21:12] and IMM8. -/
structure FmtI where
  rd   : BitVec 5
  rs1  : BitVec 5
  imm8 : BitVec 8
  deriving DecidableEq, Repr

/-- Format I with an extension word (major 0x22). -/
structure FmtIX where
  rd    : BitVec 5
  rs1   : BitVec 5
  imm8  : BitVec 8
  imm32 : Word
  deriving DecidableEq, Repr

/-- Compares: format R, and format R with IMM32 (majors 0x03 and 0x23). -/
structure FmtC where
  rd  : BitVec 5
  rs1 : BitVec 5
  rs2 : BitVec 5
  ext : Option Word
  deriving DecidableEq, Repr

/-- Format R with an extension word (major 0x26). -/
structure FmtRX where
  rd    : BitVec 5
  rs1   : BitVec 5
  rs2   : BitVec 5
  imm32 : Word
  deriving DecidableEq, Repr

/-- Format M, and format M with IMM32 (majors 0x08, 0x09, 0x28, 0x29). -/
structure FmtM where
  rt    : BitVec 5
  ab    : BitVec 4
  space : BitVec 2
  off8  : BitVec 8
  ext   : Option Word
  deriving DecidableEq, Repr

/-- Format A (major 0x0A); for CAS the extension word (major 0x2A). -/
structure FmtA where
  rd    : BitVec 5
  ab    : BitVec 4
  space : BitVec 2
  size  : Bool
  rs    : BitVec 5
  deriving DecidableEq, Repr

/-- Format C (majors 0x0C and 0x2C). -/
structure FmtCpy where
  ad       : BitVec 4
  dspace   : BitVec 2
  as_      : BitVec 4
  sspace   : BitVec 2
  gl       : BitVec 5
  ac       : BitVec 3
  reserved : BitVec 2
  deriving DecidableEq, Repr

/-- Format N (major 0x0D). -/
structure FmtN where
  g        : BitVec 5
  ac       : BitVec 3
  reserved : BitVec 12
  deriving DecidableEq, Repr

/-- Format K (major 0x0E). -/
structure FmtK where
  g      : BitVec 5
  ab     : BitVec 4
  remote : Bool
  mark   : BitVec 10
  deriving DecidableEq, Repr

/-- Format T (major 0x0F). -/
structure FmtT where
  gd       : BitVec 5
  pd       : BitVec 3
  reserved : BitVec 12
  deriving DecidableEq, Repr

/-- Format Z (major 0x10). -/
structure FmtZ where
  g    : BitVec 5
  g2   : BitVec 5
  imm8 : BitVec 8
  deriving DecidableEq, Repr

/-- AMODE, base word bits [19:0] and the format bytes (R86). -/
structure FmtAmode where
  mode     : BitVec 3
  layout   : BitVec 3
  gang     : BitVec 2
  grow     : BitVec 2
  gcol     : BitVec 2
  ord6     : Bool
  reserved : BitVec 7
  fmts     : Word
  deriving DecidableEq, Repr

/-- AWLOAD, ASTREAM and ADRAIN, base word bits [19:0]: strip, two a-registers, a g-register, reserved bits (R86).
For ASTREAM a1 is AS and a2 AX; for ADRAIN AD and AP; for AWLOAD AW and AX. -/
structure FmtArr where
  strip    : BitVec 2
  a1       : BitVec 4
  a2       : BitVec 4
  g        : BitVec 5
  reserved : BitVec 5
  deriving DecidableEq, Repr

/-- ACLEAR, base word bits [19:0] (R86). -/
structure FmtAclear where
  strip    : BitVec 2
  sb       : BitVec 6
  cntM1    : BitVec 6
  krst     : Bool
  reserved : BitVec 5
  deriving DecidableEq, Repr

/-- ASTAT, base word bits [19:0] (R86). -/
structure FmtAstat where
  g        : BitVec 5
  clr      : Bool
  reserved : BitVec 14
  deriving DecidableEq, Repr

/-- What another module answers to one remote operation of an engine or a copy: a fabric status (R259), the bytes
of a read, and which 16-byte units are poisoned, counted from the first the read touches (R148). The environment supplies it (assumption
log 11). -/
structure NetReply where
  status : BitVec 4
  data   : List Byte
  poison : List Nat
  deriving DecidableEq, Repr

/-- A register access of the host: offset in BAR0, size in bytes, value written. -/
structure RegAccess where
  offset : Nat
  size   : Nat
  value  : Nat
  deriving DecidableEq, Repr

/-- What the host asks of the endpoint beside a write to BAR0 (R363, R364, R442): an access through a BAR2 aperture, with the offset in BAR2,
the bytes of a write or the length of a read, and for a write whether the TLP came poisoned; a read of the configuration header; a write of
the Resizable BAR control, which makes BAR2 2^(30 + size) bytes; and a read of BAR0. -/
inductive HostAccess where
  | read   (offset : Nat) (len : Nat)
  | write  (offset : Nat) (data : List Byte) (poisoned : Bool)
  | config (offset : Nat) (len : Nat)
  | resize (size : Nat)
  | bar    (offset : Nat) (len : Nat)
  deriving DecidableEq, Repr

/-- What the host's memory answers to a read of the module: the bytes, or a failure, or poisoned data. -/
inductive HostReply where
  | ok (data : List Byte)
  | failed
  | poisoned
  deriving DecidableEq, Repr

/-- The segment header of R235, as fields. status: what the owner that sends cutoffs has found (R197). -/
structure SegHdr where
  type   : Nat
  xk     : Nat
  layer  : Nat
  mb     : Nat
  smod   : Nat
  stract : Nat
  dmod   : Nat
  dtract : Nat
  expert : Nat
  count  : Nat
  mbase  : Nat
  novf   : Nat
  status : Nat
  cid    : Nat
  uoff   : Nat
  srank  : Nat
  deriving DecidableEq, Repr

/-- A row, record or run of 16-byte units a segment carries, with which of its 16-byte units are poisoned. -/
structure RowData where
  bytes  : List Byte
  poison : List Nat
  deriving DecidableEq, Repr

/-- A segment: a header followed by whole rows or whole data units (R235). -/
structure Segment where
  hdr  : SegHdr
  rows : List RowData
  deriving DecidableEq, Repr

/-- The frame header of R352. -/
structure FrameHdr where
  kind   : Nat
  reason : Nat
  table  : Nat
  pos    : Nat
  smod   : Nat
  sport  : Nat
  inst   : Nat
  step   : Nat
  len    : Nat
  dmod   : Nat
  deriving DecidableEq, Repr

/-- One flit as it arrives (R346, R348): whether each of its two codewords was correctable, and its 1,285 bytes. -/
structure Flit where
  fec0  : Bool
  fec1  : Bool
  bytes : List Byte
  deriving DecidableEq, Repr

/-- The payload fields of a CTRL flit (R349). -/
structure CtrlFlit where
  rxseq  : Nat
  crMem  : Nat
  crRsp  : Nat
  crMgmt : Nat
  retry  : List Nat
  deriving DecidableEq, Repr

/-- A PARAM message's body (R356). -/
structure ParamMsg where
  smod   : Nat
  sport  : Nat
  jobId  : Nat
  modNum : Nat
  flow6  : Bool
  epoch  : Nat
  crMem  : Nat
  crRsp  : Nat
  crMgmt : Nat
  mapsum : Nat
  deriving DecidableEq, Repr

/-- A memory message (R354), header fields and data bytes. -/
structure MemMsg where
  mt     : Nat
  op     : Nat
  flag   : Bool
  dord   : Bool
  posted : Bool
  w64    : Bool
  epoch  : Nat
  hop    : Nat
  status : Nat
  smod   : Nat
  stract : Nat
  tag    : Nat
  addr   : Nat
  opd    : Nat
  cmp    : Nat
  len    : Nat
  pmask  : Nat
  data   : List Byte
  deriving DecidableEq, Repr

/-- A boundary record as a module sends it up or the root sends it down (R253): done time, vote and closure result. -/
structure BoundaryMsg where
  smod    : Nat
  down    : Bool
  done    : Nat
  hasPlan : Bool
  planId  : Nat
  closure : Bool
  deriving DecidableEq, Repr

/-- The body of a TIMEXFER message (R356, R362). -/
structure TimeXfer where
  phase : Nat
  t1    : Nat
  t2    : Nat
  t3    : Nat
  t4    : Nat
  deriving DecidableEq, Repr

/-- A TIME frame of the ring (R359). -/
structure TimeFrame where
  hop    : Nat
  master : Nat
  mt     : Nat
  corr   : Nat
  valid  : Bool
  deriving DecidableEq, Repr

/-- A SIDE frame of the ring (R359). -/
structure SideFrame where
  dmod    : Nat
  smod    : Nat
  payload : List Byte
  deriving DecidableEq, Repr

/-- Who sends a request to a home agent: an entry of a request agent of this module, or the oldest request that a
link port has brought in from another module. -/
inductive HaSource where
  | tract (t : Tract) (tag : Nat)
  | link
  deriving DecidableEq, Repr

/-- Who sends a credit unit: another tract of the module, or a port die (R222). -/
inductive CreditSrc where
  | tract (t : Tract)
  | portDie (d : Fin 8)
  deriving DecidableEq, Repr

/-- What the fetch of a plan and its slot tables brings (R212, R480): the bytes, the byte offset of the first 64-byte unit
that could not be read, or a slot table number and the offset in it that could not be read. -/
inductive PlanFetch where
  | ok (plan : List Byte) (tables : List (List Byte))
  | planFailed (offset : Nat)
  | tableFailed (plan : List Byte) (table : Nat) (offset : Nat)
  deriving DecidableEq, Repr

/-- How a boot step ends (R391, R392): done, with the parcels that failed step 4 or 5, or the first failed check
of R399 in step 3. -/
inductive BootResult where
  | done
  | parcelsFailed (ps : List ParcelId)
  | imageFailed (check : Nat)
  deriving DecidableEq, Repr

/-- The straps sampled when RESET_N rises (R371, R374). -/
structure Straps where
  oscWait : BitVec 3
  refsel  : Bool
  deriving DecidableEq, Repr

/-- A supply rail (R466). -/
inductive Rail where
  | vcore (t : Tract)
  | vdd2 (t : Tract)
  | vpp
  | vportW
  | vportE
  | vctl
  | vaux
  | vio
  deriving DecidableEq, Repr

/-- A queue of error records (R416). -/
inductive CollectorId where
  | tract (t : Tract)
  | controlDie
  deriving DecidableEq, Repr

/-- What the patrol scrubber, or a read, finds in a word (R145, R147). -/
inductive EccFinding where
  | clean
  | corrected
  | uncorrectable
  deriving DecidableEq, Repr

/-- How a snapshot's writes end (R435, R436), with its duration in ms and the parcels that failed screening. -/
inductive SnapResult where
  | ok (ms : Nat) (screened : List ParcelId) (screenFails : List ParcelId)
  | failed (ms : Nat)
  deriving DecidableEq, Repr

/-- What a restore reads from its source (R434, R438): the manifest area and the regions, as many as the source gave; or nothing, where already the
read of the manifest failed. The end of a remap reads no image. -/
inductive RestoreImage where
  | image (manifest : List Byte) (regions : List (List Byte))
  | sourceFailed
  | remapDone
  deriving DecidableEq, Repr

/-- An SPDM request's content that the responder's answer depends on (R405, R406); journal: the flash takes a journal record that signing
needs (R408). p384, sha384: the algorithms the requester offers include these. -/
structure SpdmReq where
  journal : Bool
  version : Nat
  slot    : Nat
  block   : Nat
  signed  : Bool
  p384    : Bool
  sha384  : Bool
  session : Nat
  body    : List Byte
  deriving DecidableEq, Repr

/-- A debug unlock token (R409): its body and the two signatures, as bytes. -/
structure Token where
  body   : List Byte
  esig   : List Byte
  lsig   : List Byte
  deriving DecidableEq, Repr

/-- The commands, one constructor per row of spec/opcode_table.json, in its order. -/
inductive Instr where
  -- SCALAR, major 0x01 (R40)
  | add (i : Issue) (f : FmtR)
  | sub (i : Issue) (f : FmtR)
  | and (i : Issue) (f : FmtR)
  | or (i : Issue) (f : FmtR)
  | xor (i : Issue) (f : FmtR)
  | shl (i : Issue) (f : FmtR)
  | shr (i : Issue) (f : FmtR)
  | sra (i : Issue) (f : FmtR)
  | mul (i : Issue) (f : FmtR)
  | mulhu (i : Issue) (f : FmtR)
  | mulhs (i : Issue) (f : FmtR)
  | min (i : Issue) (f : FmtR)
  | max (i : Issue) (f : FmtR)
  | minu (i : Issue) (f : FmtR)
  | maxu (i : Issue) (f : FmtR)
  | clz (i : Issue) (f : FmtR)
  | popc (i : Issue) (f : FmtR)
  | extu (i : Issue) (f : FmtR)
  -- major 0x02
  | addi (i : Issue) (f : FmtI)
  | andi (i : Issue) (f : FmtI)
  | ori (i : Issue) (f : FmtI)
  | xori (i : Issue) (f : FmtI)
  | shli (i : Issue) (f : FmtI)
  | shri (i : Issue) (f : FmtI)
  | srai (i : Issue) (f : FmtI)
  | muli (i : Issue) (f : FmtI)
  -- major 0x22
  | addi32 (i : Issue) (f : FmtIX)
  | andi32 (i : Issue) (f : FmtIX)
  | ori32 (i : Issue) (f : FmtIX)
  | xori32 (i : Issue) (f : FmtIX)
  | muli32 (i : Issue) (f : FmtIX)
  | li (i : Issue) (f : FmtIX)
  -- majors 0x03 and 0x23
  | ceq (i : Issue) (f : FmtC)
  | cne (i : Issue) (f : FmtC)
  | clt (i : Issue) (f : FmtC)
  | cltu (i : Issue) (f : FmtC)
  | cge (i : Issue) (f : FmtC)
  | cgeu (i : Issue) (f : FmtC)
  | pand (i : Issue) (f : FmtR)
  | por (i : Issue) (f : FmtR)
  | pxor (i : Issue) (f : FmtR)
  | pnot (i : Issue) (f : FmtR)
  -- majors 0x04, 0x05
  | br (i : Issue) (off22 : BitVec 22)
  | call (i : Issue) (off22 : BitVec 22)
  -- major 0x06
  | aadd (i : Issue) (f : FmtR)
  | aaddu (i : Issue) (f : FmtR)
  | amov (i : Issue) (f : FmtR)
  | afromg (i : Issue) (f : FmtR)
  | alog (i : Issue) (f : FmtR)
  | ahig (i : Issue) (f : FmtR)
  | asethi (i : Issue) (f : FmtR)
  | ashl (i : Issue) (f : FmtR)
  | gets (i : Issue) (f : FmtR)
  | getsa (i : Issue) (f : FmtR)
  | puts (i : Issue) (f : FmtR)
  | jmp (i : Issue) (f : FmtR)
  -- major 0x26
  | aaddi (i : Issue) (f : FmtRX)
  | alo (i : Issue) (f : FmtRX)
  | ahi (i : Issue) (f : FmtRX)
  -- MEMORY (R42)
  | ldb (i : Issue) (f : FmtM)
  | ldbs (i : Issue) (f : FmtM)
  | ldh (i : Issue) (f : FmtM)
  | ldhs (i : Issue) (f : FmtM)
  | ldw (i : Issue) (f : FmtM)
  | lda (i : Issue) (f : FmtM)
  | ldq (i : Issue) (f : FmtM)
  | stb (i : Issue) (f : FmtM)
  | sth (i : Issue) (f : FmtM)
  | stw (i : Issue) (f : FmtM)
  | sta (i : Issue) (f : FmtM)
  | stq (i : Issue) (f : FmtM)
  -- atomics (R43)
  | atomAdd (i : Issue) (f : FmtA)
  | atomOr (i : Issue) (f : FmtA)
  | atomAnd (i : Issue) (f : FmtA)
  | atomXor (i : Issue) (f : FmtA)
  | atomMaxu (i : Issue) (f : FmtA)
  | atomMinu (i : Issue) (f : FmtA)
  | atomMax (i : Issue) (f : FmtA)
  | atomMin (i : Issue) (f : FmtA)
  | atomXchg (i : Issue) (f : FmtA)
  | cas (i : Issue) (f : FmtA) (ext : Word)
  -- COPY (R44 to R49)
  | cpy (i : Issue) (f : FmtCpy)
  | cpym (i : Issue) (f : FmtCpy) (ext : Word)
  | cset (i : Issue) (f : FmtN)
  | cget (i : Issue) (f : FmtN)
  | cwait (i : Issue) (f : FmtN)
  -- MARK (R50, R51)
  | madd (i : Issue) (f : FmtK)
  | msub (i : Issue) (f : FmtK)
  | mwait (i : Issue) (f : FmtK)
  | mbar (i : Issue) (f : FmtK)
  -- TILE (R53)
  | take (i : Issue) (f : FmtT)
  | steal (i : Issue) (f : FmtT)
  | done (i : Issue) (f : FmtT)
  -- CONTROL
  | sleep (i : Issue) (f : FmtZ)
  | halt (i : Issue) (f : FmtZ)
  | trap (i : Issue) (f : FmtZ)
  | fence (i : Issue) (f : FmtZ)
  -- ARRAY (R86 to R94)
  | amode (i : Issue) (f : FmtAmode)
  | awload (i : Issue) (f : FmtArr) (ext : Word)
  | astream (i : Issue) (f : FmtArr)
  | adrain (i : Issue) (f : FmtArr)
  | aclear (i : Issue) (f : FmtAclear)
  | astat (i : Issue) (f : FmtAstat)
  -- what happens at a core without an instruction of its own
  | arrayEntryComplete (c : CoreId)
  | loadResponse (c : CoreId) (k : Nat)
  | copyLanding (c : CoreId) (k : Nat) (net : List NetReply)
  | haltComplete (c : CoreId)
  | tileListOperation (c : CoreId)
  | watchdog (c : CoreId)
  | coreEnterSleep (c : CoreId)
  | coreEnterDeep (c : CoreId)
  | coreWake (c : CoreId)
  -- Mover (R157 to R160)
  | copy (t : Tract) (net : List NetReply)
  | fill (t : Tract) (net : List NetReply)
  | gather (t : Tract) (net : List NetReply)
  | scatter (t : Tract) (net : List NetReply)
  | transpose (t : Tract) (net : List NetReply)
  | skew (t : Tract) (net : List NetReply)
  | reblock (t : Tract) (net : List NetReply)
  | moverEntryComplete (t : Tract) (k : Nat)
  -- Dispatcher (R165, R181 to R186)
  | plotSet (t : Tract)
  | start (t : Tract)
  | dispatcherCoreStart (c : CoreId)
  | startTimeout (t : Tract)
  | tload (t : Tract) (net : List NetReply)
  | tmplSet (t : Tract) (net : List NetReply)
  | tclear (t : Tract)
  -- tile list unit
  | tilePush (p : ParcelId)
  | tileEntryWrite (p : ParcelId)
  | tileOverflow (p : ParcelId)
  -- routing
  | select (t : Tract)
  | rank (t : Tract)
  | rankComplete (layer : Nat) (mb : Nat)
  | rankPeerTimeout (t : Tract) (layer : Nat) (mb : Nat)
  | sort (t : Tract)
  | scanTreeTimeout (t : Tract)
  -- plans and the step boundary
  | planDb (value : Word)
  | planValidated (r : PlanFetch)
  | stepEnd
  | snapshotDone (r : SnapResult)
  | boundary (m : BoundaryMsg)
  | planVote
  | stepStart
  | boundaryTimeout
  -- exchanges and collectives
  | dispatch (t : Tract)
  | combine (t : Tract)
  | rscat (t : Tract)
  | agath (t : Tract)
  | bcast (t : Tract)
  | gnorm (t : Tract)
  | creditUnit (dst : Tract) (src : CreditSrc)
  | slotStage (p : Port) (inst : Nat)
  | slotFreeze (p : Port) (inst : Nat) (staged : Bool)
  | slotTransmit (p : Port) (inst : Nat)
  | contentFrame (p : Port) (h : FrameHdr) (segs : List Segment)
  | emptyFrame (p : Port) (h : FrameHdr)
  | sack (p : Port) (table : Nat) (inst : Nat) (step : Nat) (code : Nat)
  | slotAckTimeout (p : Port) (inst : Nat)
  | frameIncompleteTimeout (p : Port) (inst : Nat)
  | exchangeTimeout (t : Tract) (k : Nat)
  -- fabric
  | homeAgentRequest (t : Tract) (src : HaSource)
  | combiningEntryApply (t : Tract) (k : Nat)
  | fabricCompletion (t : Tract) (tag : Nat)
  | memoryMessage (p : Port) (m : MemMsg)
  | engineOperationTimeout (t : Tract) (tag : Nat)
  | epochAdvance
  | epochDrainEnd
  | fabStall (t : Tract)
  -- marks by the host, engine waits, stash
  | markHwr (p : ParcelId) (value : DWord)
  | markBcfgWrite (p : ParcelId) (b : Fin 32) (value : DWord)
  | engMarkWait (q : QueueId)
  | stashClaim (p : ParcelId) (src : Tract) (tag : Nat)
  | stashRst (p : ParcelId)
  | stashCfgWrite (t : Tract) (n : Fin 256) (value : DWord)
  -- Vector dispatcher and vector engine
  | vrun (t : Tract)
  | opt (t : Tract) (net : List NetReply)
  | vectorEntryComplete (t : Tract) (k : Nat)
  | vnop (p : ParcelId)
  | vadd (p : ParcelId)
  | vsub (p : ParcelId)
  | vmul (p : ParcelId)
  | vfma (p : ParcelId)
  | vaxpy (p : ParcelId)
  | vdiv (p : ParcelId)
  | vsqrt (p : ParcelId)
  | vmin (p : ParcelId)
  | vmax (p : ParcelId)
  | vcmp (p : ParcelId)
  | vcvt (p : ParcelId)
  | vexp (p : ParcelId)
  | vlog (p : ParcelId)
  | vtanh (p : ParcelId)
  | vrsqrt (p : ParcelId)
  | vdot (p : ParcelId)
  | vrmax (p : ParcelId)
  | vtree (p : ParcelId)
  | vfin (p : ParcelId)
  | vflg (p : ParcelId)
  -- links
  | linkDetect (p : Port)
  | linkUp (p : Port) (m : ParamMsg)
  | portDown (p : Port)
  | flitReceive (p : Port) (f : Flit)
  | ctrlFlit (p : Port) (f : CtrlFlit)
  | resendLimit (p : Port) (seq : Nat)
  | ackProgressTimeout (p : Port)
  | windowFullTimeout (p : Port)
  | flitSend (p : Port)
  | param (p : Port) (m : ParamMsg)
  | downreq (p : Port)
  | timexfer (p : Port) (m : TimeXfer)
  | abortNotice (smod : Nat) (seq : Nat)
  | linkCtlDown (p : Port)
  -- meridian ring
  | timeFrame (f : TimeFrame)
  | sideFrame (f : SideFrame)
  | masterTimeSend
  | timexferPeriod
  | holdover
  | timeLost
  -- host
  | hostApertureAccess (a : HostAccess)
  | flr
  | pcieLinkDown
  | perstN (high : Bool) (fast : Bool)
  | doorbell (q : QueueId) (tail : Word)
  | qRestart (q : QueueId) (action : BitVec 2)
  | sequencerTurn (t : Tract)
  | chainEntryFetch (q : QueueId) (slot : HostReply) (entry : HostReply)
  | cplFull (q : QueueId)
  -- job control
  | bind (modnum : BitVec 12)
  | arm
  | armValidated
  | release
  | releaseDrainTimeout
  | releaseScrubDone
  -- reset and boot
  | powerOn
  | resetNLow
  | resetNRise (s : Straps)
  | rstReq (key : BitVec 16)
  | lockstepMismatch
  | internalResetEnd
  | oscWaitEnd
  | pllLockRetry
  | bootPhaseDone (r : BootResult)
  | bootOverrun
  | arbCommit
  -- clocks and power
  | referenceLost
  | referenceRestored
  | clkobsCtlWrite (value : Word)
  | powerBudgetPlan
  | parcelEstimate (p : ParcelId) (count : Nat)
  | limiterWindow (t : Tract)
  | coefficientCorrection (p : ParcelId) (coeff : Nat)
  | junctionSample (t : Tract) (readings : List (Option Nat))
  | plotPwrWrite (t : Tract) (n : Fin 256) (value : Word)
  | avsCurrentRead (t : Tract) (amps : Nat)
  | pmbusPoll (r : Rail) (fault : Bool) (mv : Nat)
  | pmbAlertN (faults : List Rail)
  | regulatorTimeout (r : Rail)
  | railFault (r : Rail)
  | throttleN (high : Bool) (fast : Bool)
  | throtStuck
  | pathDelayReport (p : ParcelId) (slackPermille : Nat)
  -- DRAM upkeep
  | dramTempSample (t : Tract) (readings : List (Option Nat))
  | catchupEnd (t : Tract)
  | dramRefresh (p : ParcelId) (layer : Fin 3) (bank : Fin 16)
  | patrolScrub (p : ParcelId) (word : Nat) (found : EccFinding)
  | cmLayoutWrite (t : Tract) (value : Word)
  | replCtlWrite (i : Fin 16) (value : Word)
  | replicaRefill (t : Tract) (i : Fin 16) (line : Nat)
  | replicaWriteApplied (t : Tract) (tag : Nat)
  -- update and debug unlock
  | go
  | updateVerifyDone (failedCheck : Nat)
  | stagingWrite (offset : Nat) (data : List Byte)
  | unlock (tok : Token)
  | dbgNonceRead (offset : Nat) (size : Nat)
  -- SPDM
  | getVersion (r : SpdmReq)
  | getCapabilities (r : SpdmReq)
  | negotiateAlgorithms (r : SpdmReq)
  | getDigests (r : SpdmReq)
  | getCertificate (r : SpdmReq)
  | challenge (r : SpdmReq)
  | getMeasurements (r : SpdmReq)
  | keyExchange (r : SpdmReq)
  | finish (r : SpdmReq)
  | heartbeat (r : SpdmReq)
  | endSession (r : SpdmReq)
  -- error records, abort, restore
  | errorRecordForward (c : CollectorId)
  | evrCfgWrite (value : Word)
  | stepAbort
  | restore
  | restored (r : RestoreImage)
  | remap
  -- test access
  | testmuxSelWrite (value : Word)
  | idcode
  | samplePreload
  | extest
  | clamp
  | highz
  | privateInstruction (code : BitVec 8)
  | bypass
  | tapReset
  -- a host write to a register without a row of its own, and the table's later rows
  | registerWrite (a : RegAccess)
  | pcieLinkUp
  | newVoltageReported (t : Tract) (mv : Nat)
  | railRestored (r : Rail)
  | alertStuck
  | throttleNHoldEnd
  | perstNHoldEnd
  | screenDue
  deriving DecidableEq, Repr

end Sys2Proof
end

