-- ==== Sys2Proof/Decode.lean ====
section
/-!
DEFINITION. The command that the words of a core instruction spell (R37 to R39, R86), and the command a word of the opcode table spells:
spec/opcode_table.json gives no row any bits (every row's list of fields is empty), so no word of the table spells one.
-/
namespace Sys2Proof

/-- The command that a word spells by the table's bits: none, because no row of the table gives bits. -/
def decodeTableWord (_nbits _w : Nat) : Option Instr := none

/-- Bits [hi:lo] of an instruction word, as a field of n = hi + 1 - lo bits. -/
def wbits (w : Word) (lo n : Nat) : BitVec n := w.extractLsb' lo n

/-- The major opcode, bits [31:26] (R37). -/
def majorOf (w : Word) : Nat := (wbits w 26 6).toNat

/-- The bytes of the instruction that a base word begins: 8 from major opcode 0x20 on (R37). -/
def wordLen (w : Word) : Nat := if 0x20 ≤ majorOf w then 8 else 4

/-- The guard, bits [25:22] (R37). -/
def guardOf (w : Word) : Guard := { neg := w.getLsbD 25, pred := wbits w 22 3 }

/-- The formats of R38's table: R, I, M, A, C, N, K, T, Z. -/
def fmtROf (w : Word) : FmtR := { rd := wbits w 17 5, rs1 := wbits w 12 5, rs2 := wbits w 7 5 }
def fmtIOf (w : Word) : FmtI := { rd := wbits w 17 5, rs1 := wbits w 12 5, imm8 := wbits w 0 8 }
def fmtIXOf (w x : Word) : FmtIX := { rd := wbits w 17 5, rs1 := wbits w 12 5, imm8 := wbits w 0 8, imm32 := x }
def fmtCOf (w : Word) (x : Option Word) : FmtC := { rd := wbits w 17 5, rs1 := wbits w 12 5, rs2 := wbits w 7 5, ext := x }
def fmtRXOf (w x : Word) : FmtRX := { rd := wbits w 17 5, rs1 := wbits w 12 5, rs2 := wbits w 7 5, imm32 := x }
def fmtMOf (w : Word) (x : Option Word) : FmtM :=
  { rt := wbits w 17 5, ab := wbits w 13 4, space := wbits w 11 2, off8 := wbits w 0 8, ext := x }
def fmtAOf (w : Word) : FmtA :=
  { rd := wbits w 17 5, ab := wbits w 13 4, space := wbits w 11 2, size := w.getLsbD 10, rs := wbits w 5 5 }
def fmtCpyOf (w : Word) : FmtCpy :=
  { ad := wbits w 18 4, dspace := wbits w 16 2, as_ := wbits w 12 4, sspace := wbits w 10 2, gl := wbits w 5 5, ac := wbits w 2 3,
    reserved := wbits w 0 2 }
def fmtNOf (w : Word) : FmtN := { g := wbits w 17 5, ac := wbits w 14 3, reserved := wbits w 0 12 }
def fmtKOf (w : Word) : FmtK := { g := wbits w 17 5, ab := wbits w 13 4, remote := w.getLsbD 12, mark := wbits w 0 10 }
def fmtTOf (w : Word) : FmtT := { gd := wbits w 17 5, pd := wbits w 14 3, reserved := wbits w 0 12 }
def fmtZOf (w : Word) : FmtZ := { g := wbits w 17 5, g2 := wbits w 12 5, imm8 := wbits w 4 8 }

/-- The array formats of R86. -/
def fmtArrOf (w : Word) : FmtArr :=
  { strip := wbits w 18 2, a1 := wbits w 14 4, a2 := wbits w 10 4, g := wbits w 5 5, reserved := wbits w 0 5 }
def fmtAclearOf (w : Word) : FmtAclear :=
  { strip := wbits w 18 2, sb := wbits w 12 6, cntM1 := wbits w 6 6, krst := w.getLsbD 5, reserved := wbits w 0 5 }
def fmtAstatOf (w : Word) : FmtAstat := { g := wbits w 15 5, clr := w.getLsbD 14, reserved := wbits w 0 14 }
def fmtAmodeOf (w x : Word) : FmtAmode :=
  { mode := wbits w 17 3, layout := wbits w 14 3, gang := wbits w 12 2, grow := wbits w 10 2, gcol := wbits w 8 2, ord6 := w.getLsbD 7,
    reserved := wbits w 0 7, fmts := x }

/-- Major 0x01: FUNC in bits [6:0] (R40). -/
def decode01 (i : Issue) (w : Word) : Option Instr :=
  let f := fmtROf w
  match (wbits w 0 7).toNat with
  | 0x00 => some (.add i f) | 0x01 => some (.sub i f) | 0x02 => some (.and i f) | 0x03 => some (.or i f) | 0x04 => some (.xor i f)
  | 0x05 => some (.shl i f) | 0x06 => some (.shr i f) | 0x07 => some (.sra i f) | 0x08 => some (.mul i f) | 0x09 => some (.mulhu i f)
  | 0x0A => some (.mulhs i f) | 0x0B => some (.min i f) | 0x0C => some (.max i f) | 0x0D => some (.minu i f) | 0x0E => some (.maxu i f)
  | 0x0F => some (.clz i f) | 0x10 => some (.popc i f) | 0x11 => some (.extu i f)
  | _ => none

/-- Major 0x02: FUNC in bits [11:8] (R40). -/
def decode02 (i : Issue) (w : Word) : Option Instr :=
  let f := fmtIOf w
  match (wbits w 8 4).toNat with
  | 0x0 => some (.addi i f) | 0x1 => some (.andi i f) | 0x2 => some (.ori i f) | 0x3 => some (.xori i f) | 0x4 => some (.shli i f)
  | 0x5 => some (.shri i f) | 0x6 => some (.srai i f) | 0x7 => some (.muli i f)
  | _ => none

/-- Major 0x22: FUNC in bits [11:8] (R40). -/
def decode22 (i : Issue) (w x : Word) : Option Instr :=
  let f := fmtIXOf w x
  match (wbits w 8 4).toNat with
  | 0x0 => some (.addi32 i f) | 0x1 => some (.andi32 i f) | 0x2 => some (.ori32 i f) | 0x3 => some (.xori32 i f)
  | 0x7 => some (.muli32 i f) | 0x8 => some (.li i f)
  | _ => none

/-- The compares of majors 0x03 and 0x23: FUNC 0x00 to 0x05 in bits [6:0]. -/
def decodeCmp (i : Issue) (w : Word) (x : Option Word) : Option Instr :=
  let f := fmtCOf w x
  match (wbits w 0 7).toNat with
  | 0x00 => some (.ceq i f) | 0x01 => some (.cne i f) | 0x02 => some (.clt i f) | 0x03 => some (.cltu i f) | 0x04 => some (.cge i f)
  | 0x05 => some (.cgeu i f)
  | _ => none

/-- Major 0x03: compares and predicate logic. -/
def decode03 (i : Issue) (w : Word) : Option Instr :=
  let f := fmtROf w
  match (wbits w 0 7).toNat with
  | 0x08 => some (.pand i f) | 0x09 => some (.por i f) | 0x0A => some (.pxor i f) | 0x0B => some (.pnot i f)
  | _ => decodeCmp i w none

/-- Major 0x06: address operations, state registers, JMP. -/
def decode06 (i : Issue) (w : Word) : Option Instr :=
  let f := fmtROf w
  match (wbits w 0 7).toNat with
  | 0x00 => some (.aadd i f) | 0x01 => some (.aaddu i f) | 0x02 => some (.amov i f) | 0x03 => some (.afromg i f) | 0x04 => some (.alog i f)
  | 0x05 => some (.ahig i f) | 0x06 => some (.asethi i f) | 0x07 => some (.ashl i f) | 0x10 => some (.gets i f) | 0x11 => some (.getsa i f)
  | 0x12 => some (.puts i f) | 0x14 => some (.jmp i f)
  | _ => none

/-- Major 0x26. -/
def decode26 (i : Issue) (w x : Word) : Option Instr :=
  let f := fmtRXOf w x
  match (wbits w 0 7).toNat with
  | 0x00 => some (.aaddi i f) | 0x01 => some (.alo i f) | 0x02 => some (.ahi i f)
  | _ => none

/-- Loads, majors 0x08 and 0x28: SIZE in bits [10:8]. -/
def decodeLoad (i : Issue) (w : Word) (x : Option Word) : Option Instr :=
  let f := fmtMOf w x
  match (wbits w 8 3).toNat with
  | 0 => some (.ldb i f) | 1 => some (.ldbs i f) | 2 => some (.ldh i f) | 3 => some (.ldhs i f) | 4 => some (.ldw i f)
  | 5 => some (.lda i f) | 6 => some (.ldq i f)
  | _ => none

/-- Stores, majors 0x09 and 0x29. -/
def decodeStore (i : Issue) (w : Word) (x : Option Word) : Option Instr :=
  let f := fmtMOf w x
  match (wbits w 8 3).toNat with
  | 0 => some (.stb i f) | 2 => some (.sth i f) | 4 => some (.stw i f) | 5 => some (.sta i f) | 6 => some (.stq i f)
  | _ => none

/-- Atomics, major 0x0A: OP in bits [4:0] (R43). -/
def decodeAtom (i : Issue) (w : Word) : Option Instr :=
  let f := fmtAOf w
  match (wbits w 0 5).toNat with
  | 0 => some (.atomAdd i f) | 1 => some (.atomOr i f) | 2 => some (.atomAnd i f) | 3 => some (.atomXor i f) | 4 => some (.atomMaxu i f)
  | 5 => some (.atomMinu i f) | 6 => some (.atomMax i f) | 7 => some (.atomMin i f) | 8 => some (.atomXchg i f)
  | _ => none

/-- The classes of 2-bit OP fields: majors 0x0D, 0x0E, 0x0F. -/
def decode0D (i : Issue) (w : Word) : Option Instr :=
  let f := fmtNOf w
  match (wbits w 12 2).toNat with
  | 0 => some (.cset i f) | 1 => some (.cget i f) | 2 => some (.cwait i f)
  | _ => none
def decode0E (i : Issue) (w : Word) : Option Instr :=
  let f := fmtKOf w
  match (wbits w 10 2).toNat with
  | 0 => some (.madd i f) | 1 => some (.msub i f) | 2 => some (.mwait i f)
  | _ => some (.mbar i f)
def decode0F (i : Issue) (w : Word) : Option Instr :=
  let f := fmtTOf w
  match (wbits w 12 2).toNat with
  | 0 => some (.take i f) | 1 => some (.steal i f) | 2 => some (.done i f)
  | _ => none

/-- Major 0x10: OP in bits [3:0]. -/
def decode10 (i : Issue) (w : Word) : Option Instr :=
  let f := fmtZOf w
  match (wbits w 0 4).toNat with
  | 0 => some (.sleep i f) | 1 => some (.halt i f) | 2 => some (.trap i f) | 3 => some (.fence i f)
  | _ => none

/-- Majors 0x11 and 0x31: SUB in bits [21:20] (R86). -/
def decode11 (i : Issue) (w : Word) : Option Instr :=
  match (wbits w 20 2).toNat with
  | 0 => some (.astream i (fmtArrOf w)) | 1 => some (.adrain i (fmtArrOf w)) | 2 => some (.aclear i (fmtAclearOf w))
  | _ => some (.astat i (fmtAstatOf w))
def decode31 (i : Issue) (w x : Word) : Option Instr :=
  match (wbits w 20 2).toNat with
  | 0 => some (.amode i (fmtAmodeOf w x)) | 1 => some (.awload i (fmtArrOf w) x)
  | _ => none

/-- The instruction that base word w and extension word x spell, as the issue of a core; none for a reserved major opcode, FUNC, OP, SIZE or
SUB, and so for the all-zero word (R37 to R39). The fields that its operation must find 0 are its own check. -/
def decodeCore (i : Issue) (w x : Word) : Option Instr :=
  let i := { i with guard := guardOf w }
  match majorOf w with
  | 0x01 => decode01 i w
  | 0x02 => decode02 i w
  | 0x03 => decode03 i w
  | 0x04 => some (.br i (wbits w 0 22))
  | 0x05 => some (.call i (wbits w 0 22))
  | 0x06 => decode06 i w
  | 0x08 => decodeLoad i w none
  | 0x09 => decodeStore i w none
  | 0x0A => decodeAtom i w
  | 0x0C => some (.cpy i (fmtCpyOf w))
  | 0x0D => decode0D i w
  | 0x0E => decode0E i w
  | 0x0F => decode0F i w
  | 0x10 => decode10 i w
  | 0x11 => decode11 i w
  | 0x22 => decode22 i w x
  | 0x23 => decodeCmp i w (some x)
  | 0x26 => decode26 i w x
  | 0x28 => decodeLoad i w (some x)
  | 0x29 => decodeStore i w (some x)
  | 0x2A => if wbits w 0 5 = 0 then some (.cas i (fmtAOf w) x) else none
  | 0x2C => some (.cpym i (fmtCpyOf w) x)
  | 0x31 => decode31 i w x
  | _ => none

end Sys2Proof
end

