-- ==== Sys2Proof/Config.lean ====
section
/-!
DEFINITION. What the spec leaves open or names without its text, as constants without a body: nothing can evaluate
them, so a claim holds for every value of each (assumption log 5).
-/
namespace Sys2Proof

/-- A fresh value the spec does not fix, of 64 bits, for each value of the counter State.free (assumption log 5). -/
opaque Config.freeValue : Nat → DWord
/-- A fresh byte string the spec does not fix: byte i of string n (assumption log 5). -/
opaque Config.freeByte : Nat → Nat → Byte
/-- The hash of R255 over a line address or destination fields, as a number to choose a path or port by. -/
opaque Config.fabricHash : Nat → Nat
/-- VEXP of R112: a fixed function of the FP32 input bits. -/
opaque Config.vexp : Word → Word
/-- VLOG of R112. -/
opaque Config.vlog : Word → Word
/-- VTANH of R112. -/
opaque Config.vtanh : Word → Word
/-- VRSQRT of R112. -/
opaque Config.vrsqrt : Word → Word
/-- The audit generators of R425 and R426: whether draw n samples with probability 2^-rate. -/
opaque Config.auditSample : Nat → Nat → Bool
/-- SHA-384 of a byte string, as a 384-bit number (R398). -/
opaque Config.sha384 : List Byte → BitVec 384
/-- Whether a P-384 signature verifies: key hash, message, signature (R398). -/
opaque Config.ecdsaOk : BitVec 384 → List Byte → List Byte → Bool
/-- Whether an HSS/LMS signature verifies: key hash, message, signature (R398). -/
opaque Config.hssOk : BitVec 384 → List Byte → List Byte → Bool
/-- The unique device secret of the OTP, 256 bits (R396). -/
opaque Config.uds : BitVec 256
/-- The info strings of HKDF as the firmware has them: 0 the DeviceID key, 1 the HSS seed, 2 the Alias key (R403). -/
opaque Config.infoText : Nat → List Byte
/-- A string made different from those of a list, which it is already in firmware that keeps R403. -/
def Config.apartFrom (used : List (List Byte)) (x : List Byte) : List Byte := if used.contains x then used.flatten ++ x ++ [0] else x
/-- The info strings of HKDF, all distinct (R403). -/
def Config.hkdfInfo : Nat → List Byte
  | 0 => Config.infoText 0
  | 1 => Config.apartFrom [Config.infoText 0] (Config.infoText 1)
  | _ => Config.apartFrom [Config.infoText 0, Config.apartFrom [Config.infoText 0] (Config.infoText 1)] (Config.infoText 2)
/-- The CRC-32 of a record of the leaf journal with a bound, whose layout the spec does not give (R407). -/
opaque Config.journalCrc : Nat → BitVec 32
/-- The image in flash as delivered: its header and its body (R398). -/
opaque Config.flashHeader : List Byte
opaque Config.flashBody : List Byte
/-- The P-384 public key of a private key; a P-384 signature: private key, a fresh number, hash; an HSS signature: seed, leaf, hash (R403, R405). -/
opaque Config.ecdsaPub : List Byte → List Byte
opaque Config.ecdsaSign : List Byte → Nat → BitVec 384 → List Byte
opaque Config.hssSign : List Byte → Nat → BitVec 384 → List Byte
/-- What a debug unlock token's 256-byte body says, whose places the spec does not give: serial, nonce, level, key slot (R409). -/
opaque Config.tokenFields : List Byte → Nat × Nat × Nat × Nat
/-- Vurrama's root certificate (R405). -/
opaque Config.rootCert : List Byte
/-- The X.509 body of a DeviceID certificate, of a serial number, an ECDSA public key and an HSS public key; Vurrama's two signatures over a body; the
HSS public key of a seed (R404). -/
opaque Config.deviceBody : DWord → List Byte → List Byte → List Byte
opaque Config.vendorEcdsa : List Byte → List Byte
opaque Config.vendorHss : List Byte → List Byte
opaque Config.hssPub : List Byte → List Byte
/-- The X.509 body of an Alias certificate, of a public key and a manifest; and the certificate of a body and its two signatures (R404). -/
opaque Config.aliasBody : List Byte → List Byte → List Byte
opaque Config.x509 : List Byte → List Byte → List Byte → List Byte
/-- The body bytes of a boundary record (R253), which the spec lists by content and not by place: sender, done time, vote, closure. -/
opaque Config.boundaryBody : Nat → Nat → Nat → Nat → List Byte
/-- Fuses written at manufacture (R396): the serial number and the digests of the vendor's keys by slot. -/
opaque Config.serial : DWord
opaque Config.khashE : Nat → BitVec 384
opaque Config.khashL : Nat → BitVec 384
/-- The boot ROM's version, as measurement 1 reports it (R405). -/
opaque Config.romVersion : List Byte
/-- A parcel's estimate of its power in mW: its coefficient, CCLK step and rail in mV, which weigh the counters of 1 us (R383). -/
opaque Config.parcelPower : Nat → Nat → Nat → Nat → Nat
/-- Where in the ten reserved bytes of a management message's header the 4-bit hop count lies: its lowest bit (R256, R356). -/
opaque Config.mgmtHopAt : Fin 77
/-- The size of BAR2 before the host sizes it, as an exponent of 2 from 30 (R364). -/
opaque Config.bar2Log : Fin 7

end Sys2Proof
end

