-- ==== Sys2Proof/Machine/Bits.lean ====
section
/-!
DEFINITION. Bit fields, byte order and association maps: the helpers every unit uses (R2).
-/
namespace Sys2Proof.Machine

/-- Bits [hi:lo] of a natural number, as the field tables of the spec number them (R2). -/
def bitsOf (v hi lo : Nat) : Nat := (v / 2 ^ lo) % 2 ^ (hi + 1 - lo)

/-- Bit i of a natural number. -/
def bitOf (v i : Nat) : Bool := v / 2 ^ i % 2 == 1

/-- v with bits [hi:lo] replaced by the low bits of x. -/
def setBits (v hi lo x : Nat) : Nat :=
  v - bitsOf v hi lo * 2 ^ lo + (x % 2 ^ (hi + 1 - lo)) * 2 ^ lo

/-- 1 for true, 0 for false. -/
def b2n (b : Bool) : Nat := if b then 1 else 0

/-- The number a list of bytes spells, lowest byte first (little-endian, R2). -/
def leNat : List Byte → Nat
  | [] => 0
  | b :: bs => b.toNat + 256 * leNat bs

/-- The n low bytes of a number, lowest first (little-endian, R2). -/
def natLe : Nat → Nat → List Byte
  | 0, _ => []
  | n + 1, v => BitVec.ofNat 8 v :: natLe n (v / 256)

/-- n bytes of a list from position i, read as a little-endian number; bytes past the end read as 0. -/
def fieldAt (bs : List Byte) (i n : Nat) : Nat := leNat ((bs.drop i).take n)

/-- Bits [hi:lo] of the n-byte field at byte i of a record (R2). -/
def fieldBits (bs : List Byte) (i n hi lo : Nat) : Nat := bitsOf (fieldAt bs i n) hi lo

/-- a / b rounded up. -/
def ceilDiv (a b : Nat) : Nat := (a + b - 1) / b

/-- Concatenation of n blocks, block i given by f. -/
def tabulate {α : Type} (n : Nat) (f : Nat → α) : List α := (List.range n).map f

/-- The first index of a list at which a test holds, counted from 0; the list's length where none does. -/
def firstIdx {α : Type} (p : α → Bool) : List α → Nat
  | [] => 0
  | x :: xs => if p x then 0 else firstIdx p xs + 1

/-- The list without its i-th element. -/
def dropIdx {α : Type} : List α → Nat → List α
  | [], _ => []
  | _ :: xs, 0 => xs
  | x :: xs, n + 1 => x :: dropIdx xs n

/-- The list with its i-th element changed by f. -/
def modifyIdx {α : Type} (f : α → α) : List α → Nat → List α
  | [], _ => []
  | x :: xs, 0 => f x :: xs
  | x :: xs, n + 1 => x :: modifyIdx f xs n

/-- Removes the first element on which a test holds. -/
def dropFirst {α : Type} (p : α → Bool) : List α → List α
  | [] => []
  | x :: xs => if p x then xs else x :: dropFirst p xs

/-- A finite map as a list of pairs; the first pair of a key is the one that counts, and a key that is not
listed has the map's default. -/
abbrev AMap (κ υ : Type) := List (κ × υ)

/-- The value a map holds at a key, d where the key is not listed. -/
def AMap.get {κ υ : Type} [DecidableEq κ] (m : AMap κ υ) (k : κ) (d : υ) : υ :=
  match m with
  | [] => d
  | (k', v) :: rest => if k' = k then v else AMap.get rest k d

/-- The map with a key set to a value. -/
def AMap.put {κ υ : Type} [DecidableEq κ] (m : AMap κ υ) (k : κ) (v : υ) : AMap κ υ :=
  match m with
  | [] => [(k, v)]
  | (k', v') :: rest => if k' = k then (k, v) :: rest else (k', v') :: AMap.put rest k v

/-- The map without a key, which then has the default again. -/
def AMap.erase {κ υ : Type} [DecidableEq κ] (m : AMap κ υ) (k : κ) : AMap κ υ :=
  m.filter (fun q => q.1 ≠ k)

/-- Insertion into a strictly rising list of numbers, no repeats. -/
def insNat (x : Nat) : List Nat → List Nat
  | [] => [x]
  | y :: ys => if x < y then x :: y :: ys else if x = y then y :: ys else y :: insNat x ys

/-- Insertion sort by a test "comes before or equal". -/
def insertBy {α : Type} (le : α → α → Bool) (x : α) : List α → List α
  | [] => [x]
  | y :: ys => if le x y then x :: y :: ys else y :: insertBy le x ys

/-- The list in the order of le; equal elements keep their order. -/
def sortBy {α : Type} (le : α → α → Bool) : List α → List α
  | [] => []
  | x :: xs => insertBy le x (sortBy le xs)

/-- The list cut into pieces of n elements, the last may be shorter; fuel bounds the number of pieces. -/
def chunksOf {α : Type} (n : Nat) : Nat → List α → List (List α)
  | 0, _ => []
  | _, [] => []
  | fuel + 1, xs => xs.take n :: chunksOf n fuel (xs.drop n)

end Sys2Proof.Machine
end

