-- ==== Sys2Proof/Machine/StateCore.lean ====
section
/-!
DEFINITION. The state of memory, error records, cores with their arrays and copies, and parcels: plain data.
-/
namespace Sys2Proof.Machine

/-- Memory: bytes keyed by the low 52 bits of their global address (R149), an unlisted byte reads 0; and the check
state of the check units that are not sound (R133, R136, R145 to R148), each list strictly rising.
poison: base addresses of poisoned check units. ce, ue: base addresses of local store and slice check units that hold
a correctable or an uncorrectable error not yet read. par: commons bytes with a parity error. -/
structure Mem where
  bytes  : List (Nat × Byte)
  poison : List Nat
  ce     : List Nat
  ue     : List Nat
  par    : List Nat
  deriving DecidableEq, Repr

/-- The record classes of R415. -/
inductive RecClass where
  | stepDone | stepAbort | restored | snapDone | ageReplan | tileRetry | regLocked | regBadValue | jobBusy
  | planReject | planLate | planStale | boundaryTimeout | coreFault | coreParity | arrayPoison | lsRmwPoison
  | cmParity | cmRmwPoison | cmLayoutBusy | dramUe | dramRmwPoison | dramOvertemp | dramSensor | tileRehold
  | tileDoneBad | tileOverflow | tileParity | moverFault | dispFault | routeFault | transitFault | closureFault
  | slotMismatch | vecFault | chainFault | cplFull | engMarkWait | fabPosted | fabLinkLost | fabConserve | fabStall
  | replicaProtect | haProtect | markType | markParity | marksCleared | stashFull | optNonfinite | linkDown
  | meridianLost | hostWin | hostLost | clkLoss | pwrOver | thermLimit | vrFault | throtStuck | attLeafLow
  | fabricHw | logicCheck | auditMismatch | tileFailed | auditFail | parcelSuspect | parcelRetired | screenFail
  | screenDue | ageMargin | errLost | snapFail | restoreFail | armReject
  deriving DecidableEq, Repr

/-- The severities of R412 and R414. -/
inductive Severity where
  | info | error | step | repair
  deriving DecidableEq, Repr

/-- An error record (R412). detail: bytes 48 to 63. A parcel, core, port or queue that is not named is none. -/
structure ErrRec where
  cls    : RecClass
  sev    : Severity
  unit   : Nat
  module : Nat
  tract  : Nat
  parcel : Option Nat
  core   : Option Nat
  pqk    : Nat
  pq     : Nat
  count  : Nat
  seq    : Nat
  mtime  : Nat
  step   : Nat
  addr   : Nat
  mtlast : Nat
  detail : List Byte
  deriving DecidableEq, Repr

/-- A register a load, an atomic or an ASTAT writes. -/
inductive CReg where
  | g (n : BitVec 5)
  | a (n : BitVec 4)
  deriving DecidableEq, Repr

/-- One register a load result is written to: bytes lo to lo + len - 1 of the data, sign-extended or not. -/
structure LoadPart where
  reg  : CReg
  lo   : Nat
  len  : Nat
  sext : Bool
  deriving DecidableEq, Repr

/-- What comes back for a load or an atomic: fabric status (R259), data, and a bit for each 16-byte unit that is poisoned (R148, R354). -/
structure Response where
  status : Nat
  data   : List Byte
  poison : Nat
  deriving DecidableEq, Repr

/-- A load or an atomic with a return that is outstanding outside the local store (R26, R59). space: 1 CM, 2 SL, 3 GL.
gen: the number of the request agent entry of a GL access. atom: an atomic with a return (R43). stopped: the PC at which the program that
issued it stopped, once another program has started on the core (R60). -/
structure OutLoad where
  parts : List LoadPart
  space : Nat
  pc    : Nat
  addr  : Nat
  size  : Nat
  gen   : Option Nat
  resp  : Option Response
  atom  : Bool
  stopped : Option Nat
  deriving DecidableEq, Repr

/-- What a release waits for (R51): earlier global stores and atomics, by the numbers of their request agent entries, and
array queue entries, by theirs. -/
structure Needs where
  gens : List Nat
  arrs : List Nat
  deriving DecidableEq, Repr

/-- An operation on a mark (R282, R289). -/
inductive MarkOp where
  | add (v : Word)
  | sub (v : Word)
  | arrive (tag : BitVec 8) (wait : Bool)
  | wait (thr : Word)
  | barWait (tag : BitVec 8)
  deriving DecidableEq, Repr

/-- A posted MADD, MSUB or DONE addition to a mark of this module that waits for earlier work of its core (R51). -/
structure HeldRel where
  needs  : Needs
  parcel : ParcelId
  mark   : BitVec 10
  value  : Word
  deriving DecidableEq, Repr

/-- How far a copy has come: in flight; its stores for another module have left, and it awaits their answer; it awaits the answer to its mark
addition in another module (R49). err: it has met an error. -/
inductive CopyStage where
  | flight
  | stored (err : Bool)
  | marking (gen : Nat) (err : Bool)
  deriving DecidableEq, Repr

/-- A copy in flight (R44 to R49). Spaces as R30 codes them; src and dst are offsets, or global addresses in GL.
genS, genD: the request agent entries of the global ends. after: global stores it must follow (R36). -/
structure CopyJob where
  sspace : Nat
  src    : Nat
  dspace : Nat
  dst    : Nat
  len    : Nat
  ac     : BitVec 3
  mark   : Option (Bool × BitVec 10)
  genS   : Option Nat
  genD   : Option Nat
  after  : List Nat
  stage  : CopyStage
  deriving DecidableEq, Repr

/-- How far an MBAR has come: its release conditions are open, its arrival is held, it waits for its generation. -/
inductive BarStage where
  | releasing | held | counted
  deriving DecidableEq, Repr

/-- Why the instruction at PC does not proceed (R26, R301). agent: the request agent has fewer than need entries, resource 5 of R301. -/
inductive Wait where
  | resource (code : Nat)
  | agent (need : Nat)
  | operand (addr : Nat) (pc : Nat) (reg : Nat)
  | astat (pc : Nat)
  | arrayGang
  | mwait (mark : BitVec 10) (thr : Word)
  | mbar (mark : BitVec 10) (opd : Word) (st : BarStage) (needs : Needs)
  | remoteWait (gen : Nat) (addr : Nat) (opd : Word) (bar : Bool)
  | cwait (ac : BitVec 3) (target : BitVec 16)
  | sleep (dst : BitVec 5) (mask : Word) (thr : Word)
  | fence (mask : BitVec 8)
  | tile (steal : Bool) (gd : BitVec 5) (pd : BitVec 3)
  | halt
  deriving DecidableEq, Repr

inductive RunState where
  | running | halted | stopped
  deriving DecidableEq, Repr

/-- The power states of a core (R379). -/
inductive CorePwr where
  | run | sleep | deep
  deriving DecidableEq, Repr

/-- The array configuration AMODE sets (R86). -/
structure ArrCfg where
  mode   : BitVec 3
  layout : BitVec 3
  gang   : BitVec 2
  grow   : BitVec 2
  gcol   : BitVec 2
  ord6   : Bool
  fmts   : Word
  deriving DecidableEq, Repr

/-- A weight sequence (R90): nch chunks of kc positions, the last of kcl; next: the chunk consumed next. -/
structure WSeqShape where
  nch  : Nat
  kc   : Nat
  kcl  : Nat
  next : Nat
  deriving DecidableEq, Repr

/-- What the core's issue view holds of a strip (R94). last: kpos and KC of the chunk consumed last. -/
structure StripView where
  kpos : Nat
  seq  : Option WSeqShape
  last : Option (Nat × Nat)
  deriving DecidableEq, Repr

/-- The issue view: the configuration and strips that the queued entries will leave (R94). -/
structure ArrView where
  cfg    : Option ArrCfg
  strips : Vector StripView 4
  deriving DecidableEq, Repr

/-- An array element as read: its code, the code of its scale (127 where it has none), whether it was poisoned. -/
structure Elem where
  code  : Nat
  scale : Nat
  bad   : Bool
  deriving DecidableEq, Repr

/-- A weight chunk of one core: for each of its 8 columns the elements of its K positions in order. -/
abbrev WChunk := List (List Elem)

/-- A strip of a core's array: kpos, the sequence and its chunks as read, the chunk consumed last with its kpos. -/
structure Strip where
  kpos   : Nat
  seq    : Option WSeqShape
  chunks : List WChunk
  last   : Option (Nat × WChunk)
  deriving DecidableEq, Repr

/-- An exact number, as units of arithmetic hold one before rounding (R106, R107): NaN, an infinity, or
(-1)^neg * m * 2^e; m = 0 is a zero with a sign. -/
inductive Num where
  | nan
  | inf (neg : Bool)
  | fin (neg : Bool) (m : Nat) (e : Int)
  deriving DecidableEq, Repr

/-- An exact block register (R69, R71, R107). val: the exact sum of the finite terms, or the exact minimum or maximum, none
before the first term; pos: its position. nan: a term was NaN, first at nanPos; nanOpd: an operand was NaN; nv: a term was
invalid; posInf, negInf: infinite terms of an additive mode. -/
structure Block where
  blk    : Nat
  val    : Option Num
  pos    : Nat
  nan    : Bool
  nanPos : Nat
  nanOpd : Bool
  nv     : Bool
  posInf : Bool
  negInf : Bool
  deriving DecidableEq, Repr

/-- An accumulator slot (R69). acc: FP32 or INT32 bits; none: empty. -/
structure Slot where
  acc  : Option Word
  pos  : Word
  pend : Option Block
  bad  : Bool
  deriving DecidableEq, Repr

/-- An array instruction as it stands in the queue, its g operands read at issue. -/
inductive ArrOp where
  | amode (cfg : ArrCfg)
  | awload (strip : Fin 4) (aw ax rs : Nat) (nch kc kcl : Nat) (turn : Bool)
  | astream (strip : Fin 4) (as_ ax : Nat) (m sb : Nat) (turn reuse : Bool) (nch rs2 : Nat)
  | adrain (strip : Fin 4) (ad : Nat) (desc : List Byte) (sb cnt : Nat) (keep : Bool) (rs : Nat)
  | aclear (strip : Fin 4) (sb cnt : Nat) (krst : Bool)
  | astat (g : BitVec 5) (clr : Bool)
  deriving DecidableEq, Repr

structure ArrEntry where
  id : Nat
  pc : Nat
  op : ArrOp
  deriving DecidableEq, Repr

/-- The fault a broken gang leaves for a member's next instruction of R78. -/
inductive GangFault where
  | broken | mismatch
  deriving DecidableEq, Repr

/-- A core's array (R62 to R99). slots: keyed by 64 * column + slot. formed: the gang of the configuration has formed. -/
structure ArrState where
  cfg    : Option ArrCfg
  formed : Bool
  strips : Vector Strip 4
  slots  : AMap Nat Slot
  flags  : Vector (BitVec 4) 4
  fault  : Option GangFault
  queue  : List ArrEntry
  nextId : Nat
  view   : ArrView
  deriving DecidableEq, Repr

/-- A core (R26, R28, R29). -/
structure Core where
  g         : Vector Word 32
  a         : Vector DWord 16
  p         : Vector Bool 8
  pc        : BitVec 18
  ac        : Vector (BitVec 16) 8
  progBase  : BitVec 18
  progLimit : BitVec 18
  arg0      : DWord
  arg1      : DWord
  arriveSt  : BitVec 8
  run       : RunState
  pwr       : CorePwr
  land      : Bool
  arrive    : Bool
  ibuf      : List (Nat × Word)
  wait      : Option Wait
  loads     : List OutLoad
  rels      : List HeldRel
  copies    : List CopyJob
  steal     : BitVec 2
  tsig      : DWord
  arr       : ArrState
  deriving DecidableEq, Repr

/-- A tile list entry: its 16 bytes, and whether it carries a parity error or poison (R182). -/
structure TileEntry where
  bytes : BitVec 128
  bad   : Bool
  deriving DecidableEq, Repr

/-- A held record (R176). first: the core whose stop made this a re-run (R423); audit: the audit entry whose tile this run
belongs to (R425). -/
structure Held where
  desc  : BitVec 128
  first : Option CoreNo
  audit : Option Nat
  deriving DecidableEq, Repr

/-- An entry of the retry part of the retry queue (R423). -/
structure RetryEntry where
  desc  : BitVec 128
  first : CoreNo
  audit : Option Nat
  deriving DecidableEq, Repr

/-- An audit entry (R425): the descriptor, the runs that have ended with their signature, the cores that have taken a
copy, whether a copy waits to be taken. -/
structure AuditEntry where
  id    : Nat
  desc  : BitVec 128
  done  : List (CoreNo × DWord)
  taken : List CoreNo
  ready : Bool
  deriving DecidableEq, Repr

/-- Who waits on a mark beside a core of the parcel: a request agent entry of this module, or one of another module. -/
inductive RemoteSrc where
  | agent (t : Tract) (gen : Nat)
  | link (m : MemMsg) (p : Port)
  deriving DecidableEq, Repr

/-- An entry of the remote wait list, or beyond its 128 entries of the home agent (R294). order: its place in the order of arrival. -/
structure RemoteWait where
  src    : RemoteSrc
  mark   : BitVec 10
  op     : MarkOp
  order  : Nat
  deriving DecidableEq, Repr

/-- Where a held barrier arrival came from (R289). -/
inductive ArrSrc where
  | core (c : CoreNo)
  | remote (r : RemoteSrc)
  deriving DecidableEq, Repr

/-- A held barrier arrival (R289), in order of arrival; order: that of a remote wait among the parcel's (R294). -/
structure HeldArrival where
  mark : BitVec 10
  tag  : BitVec 8
  wait : Bool
  src  : ArrSrc
  order : Nat
  deriving DecidableEq, Repr

/-- What the health table and the monitors keep of a parcel (R427 to R432, R381, R383). spare: the parcel's number has moved
to the spare of its row (R13, R14). past: the transient failures and corrected local store errors of each of the last 24 hours of
operation that have ended, newest first. vofs: mV that margins and re-plans add to the nominal voltage (R428, R432). CYCLES is cycBase plus the CCLK cycles since tick cycSince (assumption log 2). -/
structure ParcelHealth where
  mstep    : Nat
  retired  : Bool
  tcnt     : Nat
  lsce     : Nat
  dramce   : Nat
  scrage   : Nat
  askip    : Nat
  spare    : Bool
  past     : List (Nat × Nat)
  vofs     : Nat
  step     : Nat
  cap      : Nat
  estimate : Nat
  coeff    : Nat
  slacks   : AMap Nat Nat
  raised   : AMap Nat Nat
  cycBase  : Nat
  cycSince : Nat
  deriving DecidableEq, Repr

/-- The vector engine of a parcel (R332 to R337): the entry whose program it runs, the descriptors still to run, whether a result came out
poisoned; flags: its flag group (R125), which outlives programs. -/
structure VecEngine where
  entry  : Option Nat
  list   : List (List Byte)
  bad    : Bool
  flags  : BitVec 4
  deriving DecidableEq, Repr

/-- The stash ledger of a parcel (R316 to R320): USED, HWM, and as masks the sets that have gone full and those whose refusal has been recorded in
this step. -/
structure Ledger where
  used : Nat
  hwm  : Nat
  full : Nat
  told : Nat
  deriving DecidableEq, Repr

/-- A parcel. tileLow: the lowest commons offset that the tile list region has had while entries were written to it; the MODEL's own
(assumption log 12). waitNo: remote waits that have arrived (R294). -/
structure Parcel where
  plot    : Option (BitVec 8)
  tiles   : List TileEntry
  tileLow : Nat
  moved   : Nat
  held    : AMap CoreNo Held
  retries : List RetryEntry
  audits  : List AuditEntry
  frozen  : List (BitVec 10)
  heldArr : List HeldArrival
  rwaits  : List RemoteWait
  waitNo  : Nat
  vec     : VecEngine
  health  : ParcelHealth
  stash   : Ledger
  hwrLow  : Word
  deriving DecidableEq, Repr

/-- A strip with nothing loaded. -/
def Strip.empty : Strip := { kpos := 0, seq := none, chunks := [], last := none }
def StripView.empty : StripView := { kpos := 0, seq := none, last := none }
def ArrView.empty : ArrView := { cfg := none, strips := Vector.replicate 4 StripView.empty }
/-- An empty slot (R69). -/
def Slot.empty : Slot := { acc := none, pos := 0, pend := none, bad := false }

/-- The array after reset and release: unconfigured, every slot empty (R98). -/
def ArrState.reset : ArrState :=
  { cfg := none, formed := false, strips := Vector.replicate 4 Strip.empty, slots := [],
    flags := Vector.replicate 4 0, fault := none, queue := [], nextId := 0, view := ArrView.empty }

/-- A core after reset: halted or never started, in SLEEP (R451), no tile held. g, a, PC, ac and the predicates other
than p0 are DESIGN CHOICE 0 (assumption log 6); the state registers are 0 (R29). -/
def Core.reset : Core :=
  { g := Vector.replicate 32 0, a := Vector.replicate 16 0, p := Vector.replicate 8 false, pc := 0,
    ac := Vector.replicate 8 0, progBase := 0, progLimit := 0, arg0 := 0, arg1 := 0, arriveSt := 0,
    run := .halted, pwr := .sleep, land := false, arrive := false, ibuf := [], wait := none, loads := [],
    rels := [], copies := [], steal := 0, tsig := 0, arr := ArrState.reset }

def VecEngine.reset : VecEngine :=
  { entry := none, list := [], bad := false, flags := 0 }

/-- PARCEL_OP resets to step 32, CAP 38 (R381); the health table is DESIGN CHOICE clean (assumption log 9). -/
def ParcelHealth.reset : ParcelHealth :=
  { mstep := 0, retired := false, tcnt := 0, lsce := 0, dramce := 0, scrage := 0, askip := 0, spare := false,
    past := [], vofs := 0, step := 32, cap := 38, estimate := 0, coeff := 0, slacks := [], raised := [], cycBase := 0, cycSince := 0 }

def Parcel.reset : Parcel :=
  { plot := none, tiles := [], tileLow := 0x3_F000, moved := 0, held := [], retries := [], audits := [], frozen := [], heldArr := [],
    rwaits := [], waitNo := 0, vec := VecEngine.reset, health := ParcelHealth.reset, stash := { used := 0, hwm := 0, full := 0, told := 0 }, hwrLow := 0 }

/-- Memory after boot: zero everywhere, every check sound (R134, R148). -/
def Mem.reset : Mem := { bytes := [], poison := [], ce := [], ue := [], par := [] }

/-- The canonical form of memory: addresses strictly rising, no byte 0 listed. -/
def Mem.sorted : List (Nat × Byte) → Bool
  | [] => true
  | [c] => c.2 != 0
  | c :: d :: rest => c.2 != 0 && decide (c.1 < d.1) && Mem.sorted (d :: rest)

/-- A strictly rising list of addresses. -/
def Mem.rising : List Nat → Bool
  | [] => true
  | [_] => true
  | a :: b :: rest => decide (a < b) && Mem.rising (b :: rest)

/-- Memory is in its canonical form. -/
def Mem.wf (m : Mem) : Bool :=
  Mem.sorted m.bytes && Mem.rising m.poison && Mem.rising m.ce && Mem.rising m.ue && Mem.rising m.par

end Sys2Proof.Machine
end

