-- ==== Sys2Proof/Machine/StateFab.lean ====
section
/-!
DEFINITION. The state of the memory-semantic fabric in a tract and of the module's error delivery and job: plain data.
-/
namespace Sys2Proof.Machine

/-- What a request asks of its home agent (R254). atom: the OP code of R43, 9 for CAS. signal: the mark addition of a chain entry
(R295). copyEnd: an end of a copy; engine: the reads, or the writes, that an entry of an engine makes through global addresses; each with the
runs of bytes it covers. -/
inductive FabOp where
  | load (len : Nat)
  | store (data : List Byte)
  | atom (op : Nat) (w64 : Bool) (opd : Nat) (cmp : Nat)
  | mark (op : MarkOp)
  | signal (v : Word)
  | copyEnd (runs : List (Nat × Nat)) (write : Bool)
  | engine (e : Engine) (id : Nat) (runs : List (Nat × Nat)) (write : Bool)
  deriving DecidableEq, Repr

/-- Who issued a request agent entry: a core, or a chain entry of an engine (R262). -/
inductive RaSrc where
  | core (c : CoreId)
  | engine (e : Engine)
  deriving DecidableEq, Repr

/-- How far a request is: held at the agent (R263, R276), to be sent to its home, sent to another module by the ports named, taken by its
home, answered. -/
inductive RaStage where
  | held
  | ready
  | away (ports : List Nat)
  | home
  | answered (r : Response)
  deriving DecidableEq, Repr

/-- A request agent entry (R254). gen: its number, never used again; tag: its place among the 4,096. preds: earlier stores and atomics of its source and class a flag waits for (R263);
arrs: array queue entries a mark operation waits for (R51); failed: one of them completed with an error (R274). stamp: its place in the order
of issue and arrival of the module's operations (R279). -/
structure RaEntry where
  tag    : Nat
  gen    : Nat
  src    : RaSrc
  cls    : Nat
  addr   : Nat
  op     : FabOp
  posted : Bool
  flag   : Bool
  preds  : List Nat
  arrs   : List Nat
  failed : Bool
  epoch  : Nat
  stage  : RaStage
  stamp  : Nat
  deriving DecidableEq, Repr

/-- A combining entry of a home agent (R268, R269): the word it combines at, its operation and width, the operand combined so far, and
the requests it answers when it is applied, in the order they joined. -/
structure CombEntry where
  id   : Nat
  addr : Nat
  orOp : Bool
  w64  : Bool
  opd  : Nat
  srcs : List RemoteSrc
  deriving DecidableEq, Repr

/-- A write of len bytes at a key of a replicated region that the home has applied and whose lines are still being invalidated in the
replicas; its answer (R153). -/
structure ReplWrite where
  src  : RemoteSrc
  key  : Nat
  len  : Nat
  resp : Response
  deriving DecidableEq, Repr

/-- A request another module has sent, waiting at its port for the home agent to accept it (R267). credit: it fills the receive buffer of its port,
which has not gone down since. -/
structure InReq where
  port  : Port
  msg   : MemMsg
  credit : Bool
  stamp : Nat
  deriving DecidableEq, Repr

/-- A tract's agents and collector. turns: requests its home agent has accepted (R279). -/
structure TractFab where
  ra       : List RaEntry
  nextGen  : Nat
  inbox    : List InReq
  turns    : Nat
  comb     : List CombEntry
  nextComb : Nat
  replW    : List ReplWrite
  replOk   : List (Nat × Nat)
  collector : List ErrRec
  lost     : Nat
  deriving DecidableEq, Repr

def TractFab.reset : TractFab :=
  { ra := [], nextGen := 0, inbox := [], turns := 0, comb := [], nextComb := 0, replW := [], replOk := [],
    collector := [], lost := 0 }

/-- The fabric at module level: route table in force, as the port mask of each module listed (R256), the epoch and whether an
advance is in progress (R275, R276). stamp: the operations issued and arrived so far. -/
structure Fabric where
  rtab      : AMap Nat Nat
  epoch     : Nat
  advancing : Bool
  stamp     : Nat
  deriving DecidableEq, Repr

/-- Module states (R21, R448). -/
inductive JobState where
  | reset | boot | ready | owned | armed | releasing
  deriving DecidableEq, Repr

/-- A mark wait of a chain entry that an engine holds at the head of its queue (R295): the mark's memory key and threshold;
met: it has been released (R284); told: its ENG_MARK_WAIT record was emitted. -/
structure EngWait where
  key : Nat
  thr : Word
  met : Bool
  told : Bool
  deriving DecidableEq, Repr

/-- Job control (R21, R22, R448). locked: the RWL fields are locked (R5). armedTime: 40 ns periods spent ARMED since bind (R437). skip: the
OPT_UNTOUCHED policy in effect, taken over at arming (R345). -/
structure Job where
  state     : JobState
  busy      : Bool
  locked    : Bool
  wasArmed  : Bool
  moduleId  : BitVec 12
  step      : DWord
  armedTime : Nat
  aborts    : Nat
  skip      : Bool
  deriving DecidableEq, Repr

/-- What aborts a step: a record of this module, known by its fields until it has its SEQ, or a notice of another module
(R420, R421). -/
inductive AbortCause where
  | record (r : ErrRec)
  | notice (module : Nat) (seq : Nat)
  deriving DecidableEq, Repr

/-- Error delivery at the control die (R416 to R419) and the abort of a step (R420). abort: what aborts the
running step, until STEP_ABORT carries it out. running: a step runs (R420). nextSeq: the SEQ given next; log: the written records by log index; logged: records written since power-on; ringCount:
those written to the host ring since EN was set. -/
structure Errs where
  cdQueue  : List ErrRec
  cdLost   : Nat
  nextSeq  : Nat
  log      : AMap Nat ErrRec
  logged   : Nat
  ringCount : Nat
  abort    : Option AbortCause
  running  : Bool
  deriving DecidableEq, Repr

end Sys2Proof.Machine
end

