-- ==== Sys2Proof/Machine/StateRegs.lean ====
section
/-!
DEFINITION. The registers of R456 to R459 by name, and the key of one: plain data.
-/
namespace Sys2Proof.Machine

/-- The registers of R456 to R459 and TESTMUX_SEL, by name. -/
inductive RegName where
  | modId | secId | jobCtl | jobStat | linkJob | rstReq | rstCause | bootStat | clkStat | clkobsCtl | pinStat
  | aoTime | secStat | updCtl | markMstat | optCtl | pwinSel | cwinSel | jobMap | planPtr | planDb | planStat
  | stepCfg | fabCtl | fabRtab | fabEpoch | replHome | replCtl | replRloc | linkCtl | linkStat | xsPort
  | merCtl | merStat | pwrCtl | pwrStat | tractPwr | errStat | evrBase | evrCfg | evrTail | evrHead | elogStat
  | relCtl | relStat | snapHost | snapBga | snapRsrc | snapCtl | snapStat | testmuxSel | winMap | dbgCtl
  | tractNflags | cmLayout | dramTherm | rtStat | engMwdog | easeCfg | optStat | clStat | clSend | clRecv
  | clNull | fabStat | fabCl | fabHcl | plotCfg | plotWdog | plotPwr | plotRel | stashCfg | tileTmpl | qBase
  | qCplbase | qCfg | qTail | qHead | qCplhead | qStat | qRestart | parcelNflags | tlStat | markStat
  | parcelOp | stashStat | stashFullset | parcelRel | markHwr | parcelSite | markBcfg
  deriving DecidableEq, Repr

/-- A register: its name; t: tract (or 0); p: parcel (or 0); i: its index (or 0). A queue register has t the tract and i
the engine. -/
structure RegKey where
  r : RegName
  t : Nat
  p : Nat
  i : Nat
  deriving DecidableEq, Repr

/-- The access codes of R3. -/
inductive Acc where
  | ro | rw | wo | w1c | rwl
  deriving DecidableEq, Repr

/-- A field of a register: bits [hi:lo], its access code, its reset value. -/
structure RegField where
  hi    : Nat
  lo    : Nat
  acc   : Acc
  reset : Nat
  deriving DecidableEq, Repr

/-- Which block holds a register. -/
inductive RegScope where
  | module | tract | queue | parcel
  deriving DecidableEq, Repr

/-- A row of the register index: name as the spec spells it, block, offset of index 0, width in bits, stride and number
of indices, fields that are not reserved. -/
structure RegRow where
  name   : String
  scope  : RegScope
  offset : Nat
  width  : Nat
  stride : Nat
  count  : Nat
  fields : List RegField
  deriving DecidableEq, Repr

end Sys2Proof.Machine
end

