-- ==== Sys2Proof/Machine/StateEng.lean ====
section
/-!
DEFINITION. The state of the command queues and of the sequencers that fetch them: plain data (R17, R18, R367 to R370, R478).
-/
namespace Sys2Proof.Machine

/-- A place in a queue: the slot, counted without wrapping, the entry's number in its chain, its address and address space;
next: its NEXT field as read; read: its header could be read. -/
structure QPoint where
  slot : Nat
  pos  : Nat
  addr : Nat
  nsp  : Bool
  next : Nat
  read : Bool
  deriving DecidableEq, Repr

/-- What stands at a place of the queue: an entry, a failed fetch, an invalid slot or header (R368, R370). -/
inductive QKind where
  | entry
  | fetchFailed
  | invalid
  deriving DecidableEq, Repr

/-- What an entry in progress has done and still awaits. status: its work is done with that status, and it awaits its completion. starting:
cores a START has still to start. await: cores, tracts or parcels still to answer, by number. waits: it has not started, and waits for another
entry to complete while later entries of its queue go on (R198, R234). -/
inductive EngWork where
  | none
  | waits
  | status (code : Nat)
  | starting (left : List CoreId)
  | await (left : List Nat)
  deriving DecidableEq, Repr

/-- An entry a queue has fetched and not completed. -/
structure QEntry where
  id      : Nat
  pt      : QPoint
  kind    : QKind
  bytes   : List Byte
  started : Bool
  work    : EngWork
  deriving DecidableEq, Repr

/-- A queue. tail, slot: counts without wrapping of the slots written and of the slot being fetched; chain: the entry to fetch next,
its address, its space, its number, none: a slot is to be read. records: completion records made; cplWait: those that wait for
room, with their IRQ (R369). fault: where the stop stands; last: the furthest entry started; skip: the entry now fetched is run again and
the fetch then goes on after that one (R478). hold: a restart that waits for BUSY. signals: marks signalled over the
fabric, by request agent entry (R368); sigWait: those that wait for a request agent entry, by address and value (R266). -/
structure QueueState where
  tail    : Nat
  slot    : Nat
  chain   : Option (Nat × Bool × Nat)
  entries : List QEntry
  nextId  : Nat
  records : Nat
  cplWait : List (List Byte × Bool)
  stopped : Bool
  cause   : Nat
  fault   : Option QPoint
  last    : Option QPoint
  skip    : Option QPoint
  hold    : Option (BitVec 2)
  signals : List (Nat × QPoint)
  sigWait : List (Nat × Word × QPoint)
  cplTold : Bool
  deriving DecidableEq, Repr

/-- A tract's sequencer (R17): the engine that had the last turn, and the engine whose turn it is; and the flag groups of the tract's Mover
converter and of its reduction units (R125). -/
structure Seqr where
  last  : Nat
  grant : Option Engine
  convFlags : BitVec 4
  redFlags  : BitVec 4
  deriving DecidableEq, Repr

/-- Where the host reads a half of 64 bits by itself (R395, R442): a register; eight bytes of the view of a core. -/
inductive HalfKey where
  | reg (k : RegKey)
  | core (c : CoreId) (off : Nat)
  deriving DecidableEq, Repr

/-- The PCIe endpoint (R364, R366, R394): its link is up, PERST_N holds it in reset, host writes discarded while it was down; bar2: the size
the host gave BAR2, 2^(30 + bar2), none: the size the function resets to; latched: the high halves of 64-bit registers whose low half the host
read last (R395, R442). -/
structure HostPort where
  up    : Bool
  held  : Bool
  lost  : Nat
  bar2  : Option (Fin 7)
  latched : List (HalfKey × Nat)
  deriving DecidableEq, Repr

def QueueState.reset : QueueState :=
  { tail := 0, slot := 0, chain := none, entries := [], nextId := 0, records := 0, cplWait := [], stopped := false, cause := 0,
    fault := none, last := none, skip := none, hold := none, signals := [], sigWait := [], cplTold := false }

/-- The next turn goes to engine 0. -/
def Seqr.reset : Seqr := { last := 3, grant := none, convFlags := 0, redFlags := 0 }

end Sys2Proof.Machine
end

