-- ==== Sys2Proof/Machine/StateLink.lean ====
section
/-!
DEFINITION. The state of the link ports and of the meridian ring: plain data (R346 to R362, R273).
-/
namespace Sys2Proof.Machine

/-- A sequenced flit sent and not acknowledged: how often it has been resent, and when last (R349, R350). -/
structure TxFlit where
  seq    : Nat
  vc     : Nat
  data   : List Byte
  resent : Nat
  last   : Nat
  deriving DecidableEq, Repr

/-- A message that waits at a port to be sent. stamp: its place in the order in which messages came to wait there; via: the port a relayed message
came by, whose receive buffer it fills until it leaves (R267, R355). -/
structure TxMsg where
  data  : List Byte
  stamp : Nat
  via   : Option Port
  deriving DecidableEq, Repr

/-- Credits of the three virtual channels that use them (R355). -/
structure Credits where
  mem  : Nat
  rsp  : Nat
  mgmt : Nat
  deriving DecidableEq, Repr

/-- A link port. param: the partner's last PARAM. failed: it has gone down, and memory traffic waits for an epoch advance; parked: with AUTO 0, and it stays down (R358). seq:
the next SEQ to send; retry: the retry buffer, oldest first; again: SEQs to resend. next: the SEQ expected; held: flits received past it;
rx: bytes of each VC's stream not yet a whole message. cur: bytes left of the message each VC is sending; tx: messages that wait, stamp: how many
have come to wait; turns: memory messages begun (R279). used, back: credits used, and returned by the partner, since link up; given: credits
returned to it. quiet: flit times since the last CTRL flit; rxseq: the RXSEQ of the last CTRL flit received. -/
structure LinkPort where
  param  : Option ParamMsg
  failed : Bool
  parked : Bool
  seq    : Nat
  retry  : List TxFlit
  again  : List Nat
  next   : Nat
  held   : List (Nat × Nat × List Byte)
  rx     : AMap Nat (List Byte)
  cur    : AMap Nat (List Byte)
  tx     : AMap Nat (List TxMsg)
  stamp  : Nat
  turns  : Nat
  used   : Credits
  back   : Credits
  given  : Credits
  quiet  : Nat
  rxseq  : Nat
  deriving DecidableEq, Repr

/-- A request this module has relayed and whose response has not come back: the ports it came by and left by (R256, R273). -/
structure Relayed where
  inPort  : Nat
  outPort : Nat
  msg     : MemMsg
  deriving DecidableEq, Repr

/-- The meridian (R359 to R362). agree: frames in a row that agree; master: the master the module keeps; t1 to t4: the TIMEXFER
exchange that runs. -/
structure Meridian where
  agree  : Nat
  master : Option Nat
  t1     : Nat
  t2     : Nat
  t3     : Nat
  t4     : Nat
  deriving DecidableEq, Repr

def Credits.none : Credits := { mem := 0, rsp := 0, mgmt := 0 }
def LinkPort.reset : LinkPort :=
  { param := .none, failed := false, parked := false, seq := 0, retry := [], again := [], next := 0, held := [], rx := [], cur := [], tx := [],
    stamp := 0, turns := 0, used := Credits.none, back := Credits.none, given := Credits.none, quiet := 0, rxseq := 0 }
def Meridian.reset : Meridian := { agree := 0, master := .none, t1 := 0, t2 := 0, t3 := 0, t4 := 0 }

end Sys2Proof.Machine
end

