-- ==== Sys2Proof/Machine/StateUp.lean ====
section
/-!
DEFINITION. The state of reset and boot, of power and temperature, of firmware, debug unlock and attestation, of restores and of the test
access port: plain data (R371 to R409, R438, R440, R471).
-/
namespace Sys2Proof.Machine

/-- What holds the module in RESET (R390): RESET_N low; the 1 ms after an internal cause; a thermal trip, which RESET_N must have been low
and risen to end. -/
inductive ResetHold where
  | pin | internal | trip
  deriving DecidableEq, Repr

/-- Reset and boot (R390 to R392, R374). pinLow: RESET_N is low; straps: as sampled last; tries: repeats of step 2. kept across resets:
pinLow, bad: rails that are not valid (R468), and trip. -/
structure Boot where
  hold    : ResetHold
  pinLow  : Bool
  tripped : Bool
  straps  : Option Straps
  tries   : Nat
  bad     : List Rail
  deriving DecidableEq, Repr

/-- Power and temperature of a tract (R383 to R389, R142 to R144). cut, dramCut: percent its budget is lowered for TJMAX and for TMAX,
with the AOCLK times of the last change. hot: at step 0 for TJMAX; dead: stopped by its rail. mv: the rail as
reported; amps: its current. budget: its budget in mW, of which BUDGET shows whole W. want: the step granted that waits for the rail. tj, tm: the hottest junction and DRAM readings, none before
the first sample since RESET_N rose. badSensors: the DRAM sensors that fail their self-check. coolAt: since when TMAX has been 3 degrees below the present level; exceeds: the limiter's estimate
exceeds the budget. pool: the easement pool in uW; lend: what each core in DEEP lends to it in uW, as last planned (R302, R382). -/
structure TractPower where
  cut     : Nat
  cutAt   : Nat
  dramCut : Nat
  dramAt  : Nat
  hot     : Bool
  dead    : Bool
  mv      : Nat
  amps    : Nat
  budget  : Nat
  want    : Option Nat
  tj      : Option Nat
  tm      : Option Nat
  badSensors : List Nat
  coolAt  : Option Nat
  exceeds : Bool
  pool    : Nat
  lend    : Nat
  deriving DecidableEq, Repr

/-- The slow inputs (R394). throttle: THROTTLE_N acts; throtFast, perstFast: held active after toggling too fast; perstLow: PERST_N is low;
alert: PMB_ALERT_N is active, alertDone: it is ignored until it goes high. -/
structure Pins where
  throttle  : Bool
  throtFast : Bool
  perstLow  : Bool
  perstFast : Bool
  alert     : Bool
  alertDone : Bool
  deriving DecidableEq, Repr

/-- A firmware image: its header of 4 KiB and its body (R398). -/
structure Image where
  header : List Byte
  body   : List Byte
  deriving DecidableEq, Repr

/-- A record of the leaf journal in flash: its bound J and its CRC-32; one that a failed write has left need not agree (R407). -/
structure JournalRec where
  bound : Nat
  crc   : BitVec 32
  deriving DecidableEq, Repr

/-- An SPDM connection (R405): the requests and responses since GET_VERSION, of which signatures cover the hash; the version negotiated, the algorithms negotiated, the sessions begun and those finished. -/
structure Spdm where
  heard    : List Byte
  version  : Option Nat
  caps     : Bool
  algos    : Bool
  begun    : List Nat
  sessions : List Nat
  nextSess : Nat
  deriving DecidableEq, Repr

/-- What the boot ROM passes to Milulo (R403): the DeviceID private key, the HSS seed and CDI. -/
structure DeviceKeys where
  device  : List Byte
  hssSeed : List Byte
  cdi     : List Byte
  deriving DecidableEq, Repr

/-- Fuses, flash and debug unlock (R396 to R409). udsLocked: UDS is locked against every reader; keys: what has been derived from it; aliasCert:
the Alias certificate of this boot (R397, R403, R404). flash: the image in flash, none where it is invalid; running: the one that runs. ltree: fuses of
LTREE burnt, lowest first; journal: the newest journal record; bound: the bound J that Milulo knows to be written; leaf: the next leaf. nonce: the nonce of the debug window, 32 bytes;
token: what has been written to the token buffer. recoveries: times recovery mode was entered since power-on. -/
structure Security where
  udsLocked  : Bool
  keys       : Option DeviceKeys
  aliasCert  : Option (List Byte)
  arb        : Nat
  krevoke    : Nat
  ltree      : Nat
  journal    : Option JournalRec
  bound      : Nat
  leaf       : Nat
  flash      : Option Image
  running    : Option Image
  staging    : List (Nat × Byte)
  nonce      : List Byte
  token      : List (Nat × Byte)
  recoveries : Nat
  spdm       : Spdm
  deriving DecidableEq, Repr

/-- A restore or a remap that runs (R438, R440). -/
inductive RestoreRun where
  | idle | restore | remap
  deriving DecidableEq, Repr

/-- The instruction of the test access port (R471): what it acts as. -/
inductive TapInstr where
  | idcode | samplePreload | extest | clamp | highz | bypass
  | private_ (code : BitVec 8)
  deriving DecidableEq, Repr

/-- What a regulator last reported: its voltage in mV, its current in A, its temperature in degrees (R388). -/
structure RailReading where
  mv   : Nat
  amps : Nat
  degC : Nat
  deriving DecidableEq, Repr

/-- The pins that the boundary-scan chain covers (R462, R472). -/
inductive Pin where
  | resetN | perstN | throttleN | refsel | refclkIn | pmbClk | pmbData | pmbAlertN | ready | thermtripN | clkobs | obsclk
  | oscWait (i : Fin 3) | avsClk (n : Fin 3) | avsMdata (n : Fin 3) | avsSdata (n : Fin 3) | obs (i : Fin 16)
  deriving DecidableEq, Repr

/-- Units of a tract with a check of their own (R410). -/
inductive Checked where
  | reduction | selector | sorter | scanTree | ledger | tally | mesh
  deriving DecidableEq, Repr

/-- Upkeep of the module. rails: what the regulators last reported. snapped: a snapshot has been taken since the
last reset (R437). cells: the levels that the boundary-scan cells captured, none at a pin
without drive; preload: what was shifted into them to drive, by the pin's place in a list of this model's. coastTicks: AOCLK periods spent coasting since the last reset (R375). hours: hours of operation; replanAt: the
hour of the last ageing re-plan (R432). tapDr: what the port's data register has captured. badSites: the failed site of each row that has one,
as manufacturing test found them (R13): tract, row and column, at most one of a row. vrFaults: the rails whose regulators report a fault or do
not answer (R389). badLanes, badChannels: lanes of vector engines and channels of Movers that compute wrong, and the bits of their results that
are inverted (R410, R426): a lane's site by tract, column and row, a channel's tract. badCores: cores with a structure whose parity or comparison fails, numbered as R413
does; badUnits: units of a tract whose check fails (R410). -/
structure Upkeep where
  boot       : Boot
  tracts     : AMap Tract TractPower
  pins       : Pins
  sec        : Security
  restore    : RestoreRun
  tap        : TapInstr
  tapDr      : Nat
  cells      : AMap Pin (Option Bool)
  preload    : Nat
  rails      : AMap Rail RailReading
  snapped    : Bool
  coastTicks : Nat
  hours      : Nat
  replanAt   : Nat
  badSites   : List (Nat × Nat × Nat)
  vrFaults   : List Rail
  badLanes   : List ((Nat × Nat × Nat) × Nat × Nat)
  badChannels : List (Nat × Nat × Nat)
  badCores   : List (CoreId × Nat)
  badUnits   : List (Tract × Checked)
  deriving DecidableEq, Repr

/-- RESET_N is low at power-on. -/
def Boot.reset : Boot := { hold := .pin, pinLow := true, tripped := false, straps := none, tries := 0, bad := [] }

/-- VCORE_Tn powers up at 0.75 V (R388). -/
def TractPower.reset : TractPower :=
  { cut := 0, cutAt := 0, dramCut := 0, dramAt := 0, hot := false, dead := false, mv := 750, amps := 0, budget := 0, want := none,
    tj := none, tm := none, badSensors := [], coolAt := none, exceeds := false, pool := 0, lend := 0 }

/-- The slow inputs inactive (DESIGN CHOICE, assumption log 22). -/
def Pins.reset : Pins :=
  { throttle := false, throtFast := false, perstLow := false, perstFast := false, alert := false, alertDone := false }

def Spdm.reset : Spdm := { heard := [], version := none, caps := false, algos := false, begun := [], sessions := [], nextSess := 1 }

/-- Fuses as manufactured, and the image in flash as delivered (DESIGN CHOICE, assumption log 9). -/
def Security.reset : Security :=
  { udsLocked := false, keys := none, aliasCert := none, arb := 0, krevoke := 0, ltree := 0, journal := none, bound := 0, leaf := 0
    flash := some { header := Config.flashHeader, body := Config.flashBody }
    running := none, staging := [],
    nonce := List.replicate 32 0, token := [], recoveries := 0, spdm := Spdm.reset }

/-- Every row has passed manufacturing test (DESIGN CHOICE, assumption log 9). -/
def Upkeep.reset : Upkeep :=
  { boot := Boot.reset, tracts := [], pins := Pins.reset, sec := Security.reset, restore := .idle, tap := .idcode, tapDr := 0x0120_05D3, cells := [], preload := 0, rails := [], snapped := false,
    coastTicks := 0,
    hours := 0, replanAt := 0, badSites := [], vrFaults := [], badLanes := [], badChannels := [], badCores := [], badUnits := [] }

end Sys2Proof.Machine
end

