-- ==== Sys2Proof/Machine/StateXfer.lean ====
section
/-!
DEFINITION. The state of plans and the step boundary, of routing, and of exchanges with their credit paths and slots: plain data
(R196 to R253).
-/
namespace Sys2Proof.Machine

/-- A plan with the slot tables its records name, by table number (R212, R214). -/
structure PlanImage where
  bytes  : List Byte
  tables : List (Nat × List Byte)
  deriving DecidableEq, Repr

/-- How far the step boundary has come (R215): a snapshot runs, the modules agree on tA, tA is known, they vote, the voted plan has
been applied, it stopped at a closure fault or a timeout. -/
inductive BndPhase where
  | none | snapshot | agree | agreed | vote | voted | broken
  deriving DecidableEq, Repr

/-- The step boundary of this module (R215 to R218, R253). own: the record it contributes to the exchange that runs; kids: what its
children in the tree have sent; ballot: the plan that was pending as the module voted (R216). -/
structure Boundary where
  phase : BndPhase
  own   : Option BoundaryMsg
  kids  : List BoundaryMsg
  done  : Nat
  tA    : Nat
  ballot : Option PlanImage
  deriving DecidableEq, Repr

/-- Plans (R212 to R218, R480). fetching: PLAN_PTR at the doorbell whose fetch runs. reused: the plan in force is a reused one
(R217). stepped: a step has started since arming. start: the meridian time S at which the step started; base: EMARK of each tract
as its step started (R215). -/
structure PlanState where
  fetching : Option Nat
  pending  : Option PlanImage
  inForce  : Option PlanImage
  reused   : Bool
  stepped  : Bool
  start    : Nat
  base     : List Word
  bnd      : Boundary
  deriving DecidableEq, Repr

/-- What names an exchange: its kind (R235), layer and micro-batch, or a collective's identifier. -/
structure XKey where
  xk    : Nat
  layer : Nat
  mb    : Nat
  cid   : Nat
  deriving DecidableEq, Repr

/-- A completed SORT's counts (R250). -/
structure SortRun where
  layer : Nat
  mb    : Nat
  bwd   : Bool
  dir   : Nat
  cnt   : Nat
  srP0  : Nat
  srNp  : Nat
  srOff : Nat
  deriving DecidableEq, Repr

/-- A base table entry (R237). -/
structure BaseEnt where
  expert : Nat
  smod   : Nat
  base   : Nat
  acnt   : Nat
  deriving DecidableEq, Repr

/-- A row group whose tile entries the engine has begun: parcel, expert, group, its rows, entries written, and the template as it was when the
engine began them (R179 to R181). -/
structure TileGroup where
  parcel : Nat
  expert : Nat
  group  : Nat
  rows   : Nat
  wrote  : Nat
  tmpl   : Nat
  deriving DecidableEq, Repr

/-- A RANK of a tract that runs (R196 to R198): its entry; keys: keys its buffer has received; full: more than KEYCAP came. -/
structure RankRun where
  layer  : Nat
  mb     : Nat
  entry  : Nat
  bytes  : List Byte
  keys   : Nat
  full   : Bool
  poison : Bool
  deriving DecidableEq, Repr

/-- The cutoffs of a layer and micro-batch as a module gathers them (R196, R197). ranked: its own owners have ranked; cuts: expert,
score and GTI of each cutoff; heard: tracts whose cutoffs have come; status: the fault the owners found, 0 for none. -/
structure CutRun where
  layer  : Nat
  mb     : Nat
  ranked : Bool
  cuts   : List (Nat × Nat × Nat)
  heard  : List (Nat × Nat)
  status : Nat
  deriving DecidableEq, Repr

/-- A SORT that awaits the counts of the other tracts (R203). -/
structure SortWait where
  layer : Nat
  mb    : Nat
  bwd   : Bool
  entry : Nat
  bytes : List Byte
  deriving DecidableEq, Repr

/-- A forward base table a tract holds: its entries, the SPREAD it was laid out with, whether the forward DISPATCH completed (R237,
R241). -/
structure BaseRun where
  layer  : Nat
  mb     : Nat
  size   : Nat
  spread : Nat
  done   : Bool
  deriving DecidableEq, Repr

/-- What a tract's Transit engine keeps between entries: the last 8 SORTs, its base tables, the layers and micro-batches with a
completed RANK and the keys it left. -/
structure TractXfer where
  sorts  : List SortRun
  bases  : List BaseRun
  ranked : List (Nat × Nat × Nat)
  ranks  : List RankRun
  waits  : List SortWait
  deriving DecidableEq, Repr

/-- A tract's part in an exchange that runs (R219 to R245). out: what it has still to send to other modules, in order. filled:
places filled, as (expert, position) or (parcel * 2^16 + row, choice). data: what a collective or a combine has received, as (rank
or place, offset, bytes with poison). heard: the module and tract of every peer heard of. want: items expected; got: rows landed;
nul: null rows. first: the slot instance its first period starts with, none: it sends nothing between modules. -/
structure Exch where
  tract  : Tract
  entry  : Nat
  key    : XKey
  bytes  : List Byte
  table  : Nat
  nper   : Nat
  first  : Nat
  out    : List Segment
  att    : Nat
  dlv    : Nat
  ovf    : Nat
  want   : Nat
  got    : Nat
  nul    : Nat
  filled : List (Nat × Nat)
  data   : List (Nat × Nat × List (Byte × Bool))
  bases  : List BaseEnt
  groups : List TileGroup
  heard  : List (Nat × Nat)
  poison : Bool
  halted : Bool
  deriving DecidableEq, Repr

/-- A segment on a credit path (R222): how many of its 512-byte units have still to land; flight: how many of these have been sent and hold a
credit; the port and slot instance that brought it. -/
structure XItem where
  seg    : Segment
  units  : Nat
  flight : Nat
  port   : Option (Nat × Nat)
  deriving DecidableEq, Repr

/-- How far a send instance has come (R227, R228): content staged, frozen whole, or transmitted and not yet acknowledged. -/
inductive SlotPhase where
  | staged | frozen | marker (miss : Bool) | sent
  deriving DecidableEq, Repr

/-- A send instance of a port: number, table and position; the tract it sends for, none for a relay; the exchange; its content. -/
structure SlotSend where
  inst  : Nat
  table : Nat
  pos   : Nat
  tract : Option Tract
  key   : XKey
  dmod  : Nat
  limit : Nat
  segs  : List Segment
  phase : SlotPhase
  deriving DecidableEq, Repr

/-- Content a port die holds to relay (R233). -/
structure RelayItem where
  dmod : Nat
  segs : List Segment
  deriving DecidableEq, Repr

/-- What a port remembers of its send instances (R473): whether the last freeze missed, the last content instance sent, whether its ACK came. -/
structure SlotSeen where
  missed : Bool
  last   : Option Nat
  acked  : Bool
  deriving DecidableEq, Repr

/-- Exchanges: those that run, oldest first; the credit paths; the send instances of the ports; the relay buffers of the port
dies; what the tracts keep; the cutoffs being gathered; the tracts that have started a part in an exchange of this step; what the ports remember of their last instances. -/
structure XferState where
  exch   : List Exch
  paths  : AMap (Tract × CreditSrc) (List XItem)
  sends  : AMap Port (List SlotSend)
  relays : AMap (Fin 8) (List RelayItem)
  tracts : AMap Tract TractXfer
  cuts   : List CutRun
  begun  : List (Tract × XKey)
  seen   : AMap Port SlotSeen
  deriving DecidableEq, Repr

def Boundary.reset : Boundary := { phase := .none, own := none, kids := [], done := 0, tA := 0, ballot := none }
def PlanState.reset : PlanState :=
  { fetching := none, pending := none, inForce := none, reused := false, stepped := false, start := 0, base := [],
    bnd := Boundary.reset }
def TractXfer.reset : TractXfer := { sorts := [], bases := [], ranked := [], ranks := [], waits := [] }
def XferState.reset : XferState := { exch := [], paths := [], sends := [], relays := [], tracts := [], cuts := [], begun := [], seen := [] }

end Sys2Proof.Machine
end

