-- ==== Sys2Proof/Machine/State.lean ====
section
/-!
DEFINITION. The state of the module as plain data, its faults and refusals, and the state after reset.
-/
namespace Sys2Proof.Machine

/-- What the module sends out of the package, in order of sending: writes to host memory, MSI-X vectors, completions of
host reads with the poisoned-TLP bit ep (R364), failures of host reads (Unsupported Request), messages on a port (assumption log 10, 11). -/
inductive OutMsg where
  | hostWrite (addr : Nat) (data : List Byte)
  | msix (v : Nat)
  | readData (data : List Byte) (ep : Bool)
  | readFail
  | retry
  | memory (p : Port) (m : MemMsg)
  | frame (p : Port) (h : FrameHdr) (segs : List Segment)
  | sack (p : Port) (table : Nat) (inst : Nat) (step : Nat) (code : Nat)
  | boundary (p : Port) (dst : Nat) (m : BoundaryMsg)
  | abortNotice (p : Port) (dst : Nat) (smod : Nat) (seq : Nat)
  | relayed (p : Port) (m : List Byte)
  | param (p : Port) (m : ParamMsg)
  | timexfer (p : Port) (m : TimeXfer)
  | downreq (p : Port)
  | flit (p : Port) (data : List Byte)
  | spdm (code : Nat) (body : List Byte)
  | debugData (data : List Byte)
  | ring (frame : List Byte)
  | avsWrite (bus sel mv : Nat)
  deriving DecidableEq, Repr

/-- The module. -/
structure State where
  pending : List Instr
  free    : Nat
  ticks   : Nat
  aoTime  : Nat
  mtime   : Nat
  mem     : Mem
  cores   : AMap CoreId Core
  parcels : AMap ParcelId Parcel
  fabs    : AMap Tract TractFab
  fabric  : Fabric
  engWaits : AMap QueueId EngWait
  queues  : AMap QueueId QueueState
  seqrs   : AMap Tract Seqr
  host    : HostPort
  regs    : AMap RegKey Nat
  job     : Job
  errs    : Errs
  plan    : PlanState
  xfer    : XferState
  links   : AMap Port LinkPort
  relayed : List Relayed
  meridian : Meridian
  up      : Upkeep
  out     : List OutMsg
  deriving DecidableEq, Repr

/-- The faults of the model. Every behaviour of the spec ends in a next state, so no meaning raises one. -/
inductive Fault where
  /-- Raised by no meaning; safe, because a machine that stops proves nothing it does not do. -/
  | none
  deriving DecidableEq, Repr

/-- The refusals of the model. -/
inductive Refusal where
  /-- A command whose meaning is not written yet, by its mnemonic; raised by exec's arm; safe. -/
  | notModelled (mnemonic : String)
  deriving DecidableEq, Repr

/-- No job; the module is in RESET with RESET_N low (R21, R448). -/
def Job.reset : Job :=
  { state := .reset, busy := false, locked := false, wasArmed := false, moduleId := 0, step := 0, armedTime := 0,
    aborts := 0, skip := false }

/-- Empty log and queues, as after power-on (R412, R418). -/
def Errs.reset : Errs :=
  { cdQueue := [], cdLost := 0, nextSeq := 0, log := [], logged := 0, ringCount := 0, abort := none, running := false }

/-- The machine right after power-on: RESET, every register at its reset value, no command waiting. -/
def State.reset : State :=
  { pending := [], free := 0, ticks := 0, aoTime := 0, mtime := 0, mem := Mem.reset, cores := [], parcels := [],
    fabs := [],
    fabric := { rtab := [], epoch := 0, advancing := false, stamp := 0 }, engWaits := [],
    queues := [], seqrs := [], host := { up := false, held := false, lost := 0, bar2 := none, latched := [] }, regs := [], job := Job.reset, errs := Errs.reset,
    plan := PlanState.reset, xfer := XferState.reset, links := [], relayed := [], meridian := Meridian.reset, up := Upkeep.reset, out := [] }

end Sys2Proof.Machine
end

