-- ==== Sys2Proof/Machine/Regs.lean ====
section
/-!
DEFINITION. The register index of R456 to R459 and the field tables of the chapters it names: width, place, access codes
and reset values of every register.
-/
namespace Sys2Proof.Machine

/-- A field of the index tables: bits [hi:lo], access code, reset value. -/
def fld (hi lo : Nat) (acc : Acc) (reset : Nat) : RegField := { hi := hi, lo := lo, acc := acc, reset := reset }

/-- The row of the register index for each register (R456 to R459). Bits no field covers are reserved: they read 0 and
ignore writes (R6). -/
def RegName.row : RegName → RegRow
  | .modId =>
    { name := "MOD_ID", scope := .module, offset := 0x0, width := 32, stride := 0, count := 1,
      fields := [fld 15 0 .ro 0x1200, fld 23 16 .ro 0xA0] }
  | .secId =>
    { name := "SEC_ID", scope := .module, offset := 0x8, width := 64, stride := 0, count := 1,
      fields := [fld 63 0 .ro 0] }
  | .jobCtl =>
    { name := "JOB_CTL", scope := .module, offset := 0x10, width := 32, stride := 0, count := 1,
      fields := [fld 0 0 .wo 0, fld 1 1 .wo 0, fld 2 2 .wo 0, fld 27 16 .wo 0] }
  | .jobStat =>
    { name := "JOB_STAT", scope := .module, offset := 0x18, width := 32, stride := 0, count := 1,
      fields := [fld 2 0 .ro 0, fld 3 3 .ro 0, fld 4 4 .w1c 0] }
  | .linkJob =>
    { name := "LINK_JOB", scope := .module, offset := 0x20, width := 64, stride := 0, count := 1,
      fields := [fld 63 0 .rwl 0] }
  | .rstReq =>
    { name := "RST_REQ", scope := .module, offset := 0x28, width := 32, stride := 0, count := 1,
      fields := [fld 15 0 .wo 0] }
  | .rstCause =>
    { name := "RST_CAUSE", scope := .module, offset := 0x30, width := 32, stride := 0, count := 1,
      fields := [fld 0 0 .w1c 1, fld 1 1 .w1c 0, fld 2 2 .w1c 0, fld 3 3 .w1c 0, fld 4 4 .w1c 0, fld 15 8
        .ro 0] }
  | .bootStat =>
    { name := "BOOT_STAT", scope := .module, offset := 0x38, width := 32, stride := 0, count := 1,
      fields := [fld 3 0 .ro 0, fld 4 4 .ro 0, fld 16 5 .ro 0, fld 27 17 .ro 0] }
  | .clkStat =>
    { name := "CLK_STAT", scope := .module, offset := 0x40, width := 32, stride := 0, count := 1,
      fields := [fld 2 0 .ro 7, fld 3 3 .ro 0, fld 4 4 .ro 0, fld 5 5 .w1c 0, fld 17 6 .ro 0, fld 18 18
        .ro 0] }
  | .clkobsCtl =>
    { name := "CLKOBS_CTL", scope := .module, offset := 0x48, width := 32, stride := 0, count := 1,
      fields := [fld 3 0 .rw 0, fld 7 4 .rw 0, fld 18 8 .rw 0, fld 22 19 .rw 0, fld 23 23 .rw 0, fld 27 24
        .ro 0] }
  | .pinStat =>
    { name := "PIN_STAT", scope := .module, offset := 0x50, width := 32, stride := 0, count := 1,
      fields := [fld 0 0 .w1c 0, fld 1 1 .w1c 0, fld 2 2 .w1c 0, fld 3 3 .w1c 0, fld 4 4 .w1c 0, fld 5 5
        .ro 0] }
  | .aoTime =>
    { name := "AO_TIME", scope := .module, offset := 0x58, width := 64, stride := 0, count := 1,
      fields := [fld 63 0 .ro 0] }
  | .secStat =>
    { name := "SEC_STAT", scope := .module, offset := 0x60, width := 32, stride := 0, count := 1,
      fields := [fld 7 0 .ro 0, fld 11 8 .ro 0, fld 12 12 .ro 0, fld 15 13 .ro 0, fld 18 16 .ro 0, fld 19
        19 .w1c 0, fld 20 20 .ro 0, fld 21 21 .ro 0] }
  | .updCtl =>
    { name := "UPD_CTL", scope := .module, offset := 0x68, width := 32, stride := 0, count := 1,
      fields := [fld 0 0 .wo 0, fld 1 1 .ro 0, fld 2 2 .w1c 0, fld 3 3 .w1c 0, fld 7 4 .ro 0] }
  | .markMstat =>
    { name := "MARK_MSTAT", scope := .module, offset := 0x70, width := 32, stride := 0, count := 1,
      fields := [fld 0 0 .w1c 0] }
  | .optCtl =>
    { name := "OPT_CTL", scope := .module, offset := 0x78, width := 32, stride := 0, count := 1,
      fields := [fld 0 0 .rwl 0] }
  | .pwinSel =>
    { name := "PWIN_SEL", scope := .module, offset := 0x80, width := 32, stride := 0, count := 1,
      fields := [fld 10 0 .rw 0, fld 14 11 .rw 0] }
  | .cwinSel =>
    { name := "CWIN_SEL", scope := .module, offset := 0x88, width := 32, stride := 0, count := 1,
      fields := [fld 10 0 .rw 0, fld 14 11 .rw 0, fld 20 15 .rw 0] }
  | .jobMap =>
    { name := "JOB_MAP", scope := .module, offset := 0x200, width := 64, stride := 8, count := 64,
      fields := [fld 63 0 .rwl 0] }
  | .planPtr =>
    { name := "PLAN_PTR", scope := .module, offset := 0x1000, width := 64, stride := 0, count := 1,
      fields := [fld 63 0 .rw 0] }
  | .planDb =>
    { name := "PLAN_DB", scope := .module, offset := 0x1008, width := 32, stride := 0, count := 1,
      fields := [fld 31 0 .wo 0] }
  | .planStat =>
    { name := "PLAN_STAT", scope := .module, offset := 0x1010, width := 32, stride := 0, count := 1,
      fields := [fld 1 0 .ro 0, fld 2 2 .w1c 0, fld 3 3 .w1c 0, fld 4 4 .w1c 0, fld 5 5 .w1c 0, fld 31 16
        .ro 0] }
  | .stepCfg =>
    { name := "STEP_CFG", scope := .module, offset := 0x1018, width := 64, stride := 0, count := 1,
      fields := [fld 9 0 .rwl 0x32, fld 23 10 .rwl 0xC8, fld 33 24 .rwl 0x3FE, fld 43 34 .rwl 0x3FF] }
  | .fabCtl =>
    { name := "FAB_CTL", scope := .module, offset := 0x2000, width := 32, stride := 0, count := 1,
      fields := [fld 1 0 .rwl 0, fld 3 2 .rwl 0, fld 5 4 .rwl 0, fld 7 6 .rwl 0, fld 9 8 .rwl 0, fld 10 10
        .rwl 0, fld 20 11 .rwl 0x64] }
  | .fabRtab =>
    { name := "FAB_RTAB", scope := .module, offset := 0x2008, width := 64, stride := 0, count := 1,
      fields := [fld 63 0 .rw 0] }
  | .fabEpoch =>
    { name := "FAB_EPOCH", scope := .module, offset := 0x2010, width := 32, stride := 0, count := 1,
      fields := [fld 7 0 .ro 0, fld 8 8 .wo 0, fld 9 9 .ro 0, fld 10 10 .w1c 0] }
  | .replHome =>
    { name := "REPL_HOME", scope := .module, offset := 0x2100, width := 64, stride := 8, count := 16,
      fields := [fld 63 0 .rwl 0] }
  | .replCtl =>
    { name := "REPL_CTL", scope := .module, offset := 0x2180, width := 32, stride := 8, count := 16,
      fields := [fld 0 0 .rwl 0, fld 25 1 .rwl 0] }
  | .replRloc =>
    { name := "REPL_RLOC", scope := .module, offset := 0x2200, width := 64, stride := 8, count := 16,
      fields := [fld 26 0 .rwl 0, fld 37 27 .rwl 0] }
  | .linkCtl =>
    { name := "LINK_CTL", scope := .module, offset := 0x3000, width := 32, stride := 8, count := 16,
      fields := [fld 0 0 .rw 0, fld 1 1 .rw 0, fld 2 2 .rw 1, fld 3 3 .wo 0] }
  | .linkStat =>
    { name := "LINK_STAT", scope := .module, offset := 0x3080, width := 64, stride := 8, count := 16,
      fields := [fld 2 0 .ro 0, fld 3 3 .w1c 0, fld 7 4 .ro 0, fld 19 8 .ro 0, fld 23 20 .ro 0, fld 47 32
        .ro 0, fld 63 48 .ro 0] }
  | .xsPort =>
    { name := "XS_PORT", scope := .module, offset := 0x3100, width := 64, stride := 8, count := 16,
      fields := [fld 15 0 .ro 0, fld 31 16 .ro 0, fld 47 32 .ro 0, fld 63 48 .ro 0] }
  | .merCtl =>
    { name := "MER_CTL", scope := .module, offset := 0x3180, width := 32, stride := 0, count := 1,
      fields := [fld 1 0 .rwl 0, fld 5 2 .rwl 0, fld 6 6 .rw 0, fld 22 7 .rw 0] }
  | .merStat =>
    { name := "MER_STAT", scope := .module, offset := 0x3188, width := 32, stride := 0, count := 1,
      fields := [fld 1 0 .ro 0, fld 2 2 .ro 0, fld 3 3 .w1c 0, fld 4 4 .w1c 0, fld 5 5 .w1c 0, fld 31 16
        .ro 0] }
  | .pwrCtl =>
    { name := "PWR_CTL", scope := .module, offset := 0x4000, width := 32, stride := 0, count := 1,
      fields := [fld 10 0 .rw 0x5DC, fld 21 11 .rw 0x258, fld 22 22 .rw 1] }
  | .pwrStat =>
    { name := "PWR_STAT", scope := .module, offset := 0x4008, width := 32, stride := 0, count := 1,
      fields := [fld 10 0 .ro 0, fld 11 11 .ro 0, fld 12 12 .ro 0, fld 13 13 .w1c 0] }
  | .tractPwr =>
    { name := "TRACT_PWR", scope := .module, offset := 0x4040, width := 64, stride := 8, count := 12,
      fields := [fld 10 0 .ro 0, fld 21 11 .ro 0, fld 32 22 .ro 0, fld 42 33 .ro 0x2EE, fld 48 43 .ro
        0x20, fld 56 49 .ro 0, fld 57 57 .w1c 0, fld 58 58 .w1c 0, fld 59 59 .w1c 0] }
  | .errStat =>
    { name := "ERR_STAT", scope := .module, offset := 0x5000, width := 32, stride := 0, count := 1,
      fields := [fld 0 0 .w1c 0, fld 1 1 .ro 0, fld 31 16 .ro 0] }
  | .evrBase =>
    { name := "EVR_BASE", scope := .module, offset := 0x5008, width := 64, stride := 0, count := 1,
      fields := [fld 63 0 .rw 0] }
  | .evrCfg =>
    { name := "EVR_CFG", scope := .module, offset := 0x5010, width := 32, stride := 0, count := 1,
      fields := [fld 4 0 .rw 8, fld 5 5 .rw 0] }
  | .evrTail =>
    { name := "EVR_TAIL", scope := .module, offset := 0x5018, width := 32, stride := 0, count := 1,
      fields := [fld 31 0 .ro 0] }
  | .evrHead =>
    { name := "EVR_HEAD", scope := .module, offset := 0x5020, width := 32, stride := 0, count := 1,
      fields := [fld 31 0 .rw 0] }
  | .elogStat =>
    { name := "ELOG_STAT", scope := .module, offset := 0x5028, width := 32, stride := 0, count := 1,
      fields := [fld 11 0 .ro 0, fld 31 12 .ro 0] }
  | .relCtl =>
    { name := "REL_CTL", scope := .module, offset := 0x5030, width := 32, stride := 0, count := 1,
      fields := [fld 4 0 .rw 0xA, fld 9 5 .rw 0xA, fld 14 10 .rw 0xA, fld 15 15 .rw 1, fld 16 16 .rw 1] }
  | .relStat =>
    { name := "REL_STAT", scope := .module, offset := 0x5038, width := 32, stride := 0, count := 1,
      fields := [fld 0 0 .ro 0, fld 1 1 .ro 0, fld 2 2 .ro 1] }
  | .snapHost =>
    { name := "SNAP_HOST", scope := .module, offset := 0x5040, width := 64, stride := 0, count := 1,
      fields := [fld 63 0 .rw 0] }
  | .snapBga =>
    { name := "SNAP_BGA", scope := .module, offset := 0x5048, width := 64, stride := 0, count := 1,
      fields := [fld 63 0 .rw 0] }
  | .snapRsrc =>
    { name := "SNAP_RSRC", scope := .module, offset := 0x5050, width := 64, stride := 0, count := 1,
      fields := [fld 63 0 .rw 0] }
  | .snapCtl =>
    { name := "SNAP_CTL", scope := .module, offset := 0x5058, width := 64, stride := 0, count := 1,
      fields := [fld 11 0 .rw 0, fld 12 12 .wo 0, fld 13 13 .rw 0, fld 14 14 .wo 0, fld 25 16 .rw 0x64,
        fld 47 32 .rw 0x18] }
  | .snapStat =>
    { name := "SNAP_STAT", scope := .module, offset := 0x5060, width := 64, stride := 0, count := 1,
      fields := [fld 1 0 .ro 0, fld 5 2 .ro 0, fld 31 16 .ro 0, fld 63 32 .ro 0] }
  | .testmuxSel =>
    { name := "TESTMUX_SEL", scope := .module, offset := 0x6000, width := 32, stride := 0, count := 1,
      fields := [fld 0 0 .rw 0, fld 4 1 .rw 0, fld 8 5 .rw 0, fld 19 9 .rw 0, fld 23 20 .rw 0, fld 27 24
        .rw 0] }
  | .winMap =>
    { name := "WIN_MAP", scope := .module, offset := 0x10000, width := 64, stride := 8, count := 1024,
      fields := [fld 51 0 .rw 0, fld 63 63 .rw 0] }
  | .dbgCtl =>
    { name := "DBG_CTL", scope := .module, offset := 0x141020, width := 32, stride := 0, count := 1,
      fields := [fld 0 0 .wo 0] }
  | .tractNflags =>
    { name := "TRACT_NFLAGS", scope := .tract, offset := 0x0, width := 32, stride := 0, count := 1,
      fields := [fld 3 0 .w1c 0, fld 7 4 .w1c 0, fld 11 8 .w1c 0, fld 15 12 .w1c 0] }
  | .cmLayout =>
    { name := "CM_LAYOUT", scope := .tract, offset := 0x8, width := 32, stride := 0, count := 1,
      fields := [fld 3 0 .rwl 2, fld 9 4 .rwl 8, fld 15 10 .rwl 8] }
  | .dramTherm =>
    { name := "DRAM_THERM", scope := .tract, offset := 0x10, width := 32, stride := 0, count := 1,
      fields := [fld 7 0 .ro 0x69, fld 9 8 .ro 2, fld 10 10 .ro 0, fld 11 11 .w1c 0, fld 12 12 .w1c 0] }
  | .rtStat =>
    { name := "RT_STAT", scope := .tract, offset := 0x18, width := 32, stride := 0, count := 1,
      fields := [fld 15 0 .ro 0] }
  | .engMwdog =>
    { name := "ENG_MWDOG", scope := .tract, offset := 0x20, width := 32, stride := 0, count := 1,
      fields := [fld 23 0 .rw 0x989680] }
  | .easeCfg =>
    { name := "EASE_CFG", scope := .tract, offset := 0x28, width := 32, stride := 0, count := 1,
      fields := [fld 15 0 .rw 0x14] }
  | .optStat =>
    { name := "OPT_STAT", scope := .tract, offset := 0x30, width := 32, stride := 0, count := 1,
      fields := [fld 0 0 .w1c 0, fld 31 16 .ro 0] }
  | .clStat =>
    { name := "CL_STAT", scope := .tract, offset := 0x38, width := 32, stride := 0, count := 1,
      fields := [fld 0 0 .w1c 0, fld 3 1 .ro 0, fld 13 4 .ro 0, fld 29 14 .ro 0] }
  | .clSend =>
    { name := "CL_SEND", scope := .tract, offset := 0x40, width := 64, stride := 0, count := 1,
      fields := [fld 31 0 .ro 0, fld 63 32 .ro 0] }
  | .clRecv =>
    { name := "CL_RECV", scope := .tract, offset := 0x48, width := 64, stride := 0, count := 1,
      fields := [fld 31 0 .ro 0, fld 63 32 .ro 0] }
  | .clNull =>
    { name := "CL_NULL", scope := .tract, offset := 0x50, width := 64, stride := 0, count := 1,
      fields := [fld 31 0 .ro 0, fld 63 32 .ro 0] }
  | .fabStat =>
    { name := "FAB_STAT", scope := .tract, offset := 0x58, width := 64, stride := 0, count := 1,
      fields := [fld 12 0 .ro 0, fld 28 16 .ro 0, fld 47 32 .ro 0, fld 48 48 .w1c 0, fld 49 49 .w1c 0] }
  | .fabCl =>
    { name := "FAB_CL", scope := .tract, offset := 0x60, width := 64, stride := 0, count := 1,
      fields := [fld 31 0 .ro 0, fld 63 32 .ro 0] }
  | .fabHcl =>
    { name := "FAB_HCL", scope := .tract, offset := 0x68, width := 64, stride := 0, count := 1,
      fields := [fld 31 0 .ro 0, fld 63 32 .ro 0] }
  | .plotCfg =>
    { name := "PLOT_CFG", scope := .tract, offset := 0x1000, width := 32, stride := 4, count := 256,
      fields := [fld 0 0 .ro 0, fld 2 1 .ro 0, fld 3 3 .ro 0, fld 11 4 .ro 0, fld 22 12 .ro 0] }
  | .plotWdog =>
    { name := "PLOT_WDOG", scope := .tract, offset := 0x1400, width := 32, stride := 4, count := 256,
      fields := [fld 23 0 .rw 0xF4240] }
  | .plotPwr =>
    { name := "PLOT_PWR", scope := .tract, offset := 0x1800, width := 32, stride := 4, count := 256,
      fields := [fld 0 0 .rw 1, fld 1 1 .rw 1, fld 2 2 .rw 1, fld 8 3 .rw 0x26] }
  | .plotRel =>
    { name := "PLOT_REL", scope := .tract, offset := 0x1C00, width := 32, stride := 4, count := 256,
      fields := [fld 0 0 .rw 0, fld 1 1 .rw 0] }
  | .stashCfg =>
    { name := "STASH_CFG", scope := .tract, offset := 0x2000, width := 64, stride := 8, count := 256,
      fields := [fld 0 0 .rwl 0, fld 4 1 .rwl 0, fld 22 8 .rwl 0, fld 46 32 .rwl 0] }
  | .tileTmpl =>
    { name := "TILE_TMPL", scope := .tract, offset := 0x4000, width := 128, stride := 16, count := 1024,
      fields := [fld 127 0 .ro 0] }
  | .qBase =>
    { name := "Q_BASE", scope := .queue, offset := 0x0, width := 64, stride := 0, count := 1,
      fields := [fld 63 0 .rwl 0] }
  | .qCplbase =>
    { name := "Q_CPLBASE", scope := .queue, offset := 0x8, width := 64, stride := 0, count := 1,
      fields := [fld 63 0 .rwl 0] }
  | .qCfg =>
    { name := "Q_CFG", scope := .queue, offset := 0x10, width := 32, stride := 0, count := 1,
      fields := [fld 4 0 .rwl 6, fld 9 5 .rwl 6, fld 10 10 .rw 0] }
  | .qTail =>
    { name := "Q_TAIL", scope := .queue, offset := 0x18, width := 32, stride := 0, count := 1,
      fields := [fld 31 0 .wo 0] }
  | .qHead =>
    { name := "Q_HEAD", scope := .queue, offset := 0x20, width := 32, stride := 0, count := 1,
      fields := [fld 31 0 .ro 0] }
  | .qCplhead =>
    { name := "Q_CPLHEAD", scope := .queue, offset := 0x28, width := 32, stride := 0, count := 1,
      fields := [fld 31 0 .rw 0] }
  | .qStat =>
    { name := "Q_STAT", scope := .queue, offset := 0x30, width := 32, stride := 0, count := 1,
      fields := [fld 0 0 .ro 0, fld 1 1 .ro 0, fld 5 2 .ro 0] }
  | .qRestart =>
    { name := "Q_RESTART", scope := .queue, offset := 0x38, width := 32, stride := 0, count := 1,
      fields := [fld 1 0 .wo 0] }
  | .parcelNflags =>
    { name := "PARCEL_NFLAGS", scope := .parcel, offset := 0x0, width := 32, stride := 0, count := 1,
      fields := [fld 3 0 .w1c 0, fld 7 4 .w1c 0] }
  | .tlStat =>
    { name := "TL_STAT", scope := .parcel, offset := 0x8, width := 32, stride := 0, count := 1,
      fields := [fld 13 0 .ro 0, fld 14 14 .w1c 0, fld 31 16 .ro 0] }
  | .markStat =>
    { name := "MARK_STAT", scope := .parcel, offset := 0x10, width := 32, stride := 0, count := 1,
      fields := [fld 6 0 .ro 0, fld 14 7 .ro 0, fld 15 15 .w1c 0, fld 16 16 .w1c 0] }
  | .parcelOp =>
    { name := "PARCEL_OP", scope := .parcel, offset := 0x18, width := 32, stride := 0, count := 1,
      fields := [fld 5 0 .ro 0x20, fld 11 6 .ro 0x26, fld 17 12 .ro 0, fld 24 18 .ro 0, fld 31 25 .ro 0] }
  | .stashStat =>
    { name := "STASH_STAT", scope := .parcel, offset := 0x20, width := 64, stride := 0, count := 1,
      fields := [fld 14 0 .ro 0, fld 29 15 .ro 0, fld 30 30 .w1c 0, fld 31 31 .wo 0] }
  | .stashFullset =>
    { name := "STASH_FULLSET", scope := .parcel, offset := 0x28, width := 64, stride := 0, count := 1,
      fields := [fld 63 0 .ro 0] }
  | .parcelRel =>
    { name := "PARCEL_REL", scope := .parcel, offset := 0x30, width := 64, stride := 0, count := 1,
      fields := [fld 1 0 .ro 0, fld 2 2 .ro 0, fld 7 4 .ro 0, fld 15 8 .ro 0, fld 31 16 .ro 0, fld 39 32
        .ro 0, fld 55 40 .ro 0] }
  | .markHwr =>
    { name := "MARK_HWR", scope := .parcel, offset := 0x38, width := 64, stride := 0, count := 1,
      fields := [fld 9 0 .wo 0, fld 10 10 .wo 0, fld 63 32 .wo 0] }
  | .parcelSite =>
    { name := "PARCEL_SITE", scope := .parcel, offset := 0x40, width := 32, stride := 0, count := 1,
      fields := [fld 5 0 .ro 0, fld 11 6 .ro 0] }
  | .markBcfg =>
    { name := "MARK_BCFG", scope := .parcel, offset := 0x100, width := 64, stride := 8, count := 32,
      fields := [fld 9 0 .rw 0, fld 10 10 .rw 0, fld 27 16 .rw 0] }

/-- Every register name, in the order of the index. -/
def RegName.all : List RegName :=
  [.modId, .secId, .jobCtl, .jobStat, .linkJob, .rstReq, .rstCause, .bootStat, .clkStat, .clkobsCtl,
   .pinStat, .aoTime, .secStat, .updCtl, .markMstat, .optCtl, .pwinSel, .cwinSel, .jobMap, .planPtr,
   .planDb, .planStat, .stepCfg, .fabCtl, .fabRtab, .fabEpoch, .replHome, .replCtl, .replRloc, .linkCtl,
   .linkStat, .xsPort, .merCtl, .merStat, .pwrCtl, .pwrStat, .tractPwr, .errStat, .evrBase, .evrCfg,
   .evrTail, .evrHead, .elogStat, .relCtl, .relStat, .snapHost, .snapBga, .snapRsrc, .snapCtl, .snapStat,
   .testmuxSel, .winMap, .dbgCtl, .tractNflags, .cmLayout, .dramTherm, .rtStat, .engMwdog, .easeCfg,
   .optStat, .clStat, .clSend, .clRecv, .clNull, .fabStat, .fabCl, .fabHcl, .plotCfg, .plotWdog, .plotPwr,
   .plotRel, .stashCfg, .tileTmpl, .qBase, .qCplbase, .qCfg, .qTail, .qHead, .qCplhead, .qStat, .qRestart,
   .parcelNflags, .tlStat, .markStat, .parcelOp, .stashStat, .stashFullset, .parcelRel, .markHwr,
   .parcelSite, .markBcfg]

/-- The reset value of a register as a whole (R456 to R459). -/
def RegRow.resetValue (r : RegRow) : Nat := (r.fields.map (fun f => f.reset * 2 ^ f.lo)).sum

/-- The reset value of a register. -/
def RegName.resetValue (n : RegName) : Nat := n.row.resetValue

/-- The stored value of a register; a register nothing has written holds its reset value. -/
def State.reg (s : State) (k : RegKey) : Nat := s.regs.get k k.r.resetValue

/-- Bits [hi:lo] of a register. -/
def State.regBits (s : State) (k : RegKey) (hi lo : Nat) : Nat := bitsOf (s.reg k) hi lo

/-- The state with a register set as hardware sets it. -/
def State.setReg (s : State) (k : RegKey) (v : Nat) : State := { s with regs := s.regs.put k v }

/-- The state with bits [hi:lo] of a register set as hardware sets them. -/
def State.setRegBits (s : State) (k : RegKey) (hi lo v : Nat) : State := s.setReg k (setBits (s.reg k) hi lo v)

/-- Sets one bit of a register (a W1C event, R4). -/
def State.raise (s : State) (k : RegKey) (b : Nat) : State := s.setRegBits k b b 1

/-- Adds n to the field [hi:lo] of a register, modulo its width. -/
def State.bumpReg (s : State) (k : RegKey) (hi lo n : Nat) : State := s.setRegBits k hi lo (s.regBits k hi lo + n)

/-- A module register. -/
def modReg (r : RegName) : RegKey := { r := r, t := 0, p := 0, i := 0 }
/-- A module register with an index. -/
def modRegI (r : RegName) (i : Nat) : RegKey := { r := r, t := 0, p := 0, i := i }
/-- A tract register. -/
def tractReg (r : RegName) (t : Tract) : RegKey := { r := r, t := t.val, p := 0, i := 0 }
/-- A tract register with an index, such as a plot's. -/
def tractRegI (r : RegName) (t : Tract) (i : Nat) : RegKey := { r := r, t := t.val, p := 0, i := i }
/-- A parcel register. -/
def parcelReg (r : RegName) (p : ParcelId) : RegKey := { r := r, t := p.tract.val, p := p.parcel.val, i := 0 }
/-- A parcel register with an index. -/
def parcelRegI (r : RegName) (p : ParcelId) (i : Nat) : RegKey :=
  { r := r, t := p.tract.val, p := p.parcel.val, i := i }
/-- The number of an engine (R17): queue q = 4 * tract + engine. -/
def engineNum : Engine → Nat
  | .dispatcher => 0
  | .mover => 1
  | .transit => 2
  | .vector => 3
/-- A queue register (R458). -/
def queueReg (r : RegName) (q : QueueId) : RegKey := { r := r, t := q.tract.val, p := 0, i := engineNum q.engine }

end Sys2Proof.Machine
end

