-- ==== Sys2Proof/Machine/Mem.lean ====
section
/-!
DEFINITION. Global addresses and their windows (R30, R149), and the operations on memory and its check units (R131 to R148).
-/
namespace Sys2Proof.Machine

/-- The windows of a parcel's offset space (R149); nowhere: outside every window. -/
inductive Window where
  | slice (off : Nat)
  | commons (off : Nat)
  | store (core : Nat) (off : Nat)
  | control (off : Nat)
  | nowhere
  deriving DecidableEq, Repr

/-- The window an offset within a parcel lies in (R149). -/
def windowOf (off : Nat) : Window :=
  if off < 0x480_0000 then .slice off
  else if 0x10_0000_0000 ≤ off && off < 0x10_0004_0000 then .commons (off - 0x10_0000_0000)
  else if 0x14_0000_0000 ≤ off && off < 0x14_0040_0000 then
    let o := off - 0x14_0000_0000
    if o % 0x1_0000 < 0x6000 then .store (o / 0x1_0000) (o % 0x1_0000) else .nowhere
  else if 0x1F_0000_0000 ≤ off && off < 0x1F_0001_0000 then .control (off - 0x1F_0000_0000)
  else .nowhere

/-- The memory key of an offset of a parcel: bits [51:0] of its global address (R149). -/
def keyOf (t p off : Nat) : Nat := t * 2 ^ 48 + p * 2 ^ 37 + off
/-- The key of a slice offset of a parcel. -/
def sliceKey (p : ParcelId) (off : Nat) : Nat := keyOf p.tract.val p.parcel.val off
/-- The key of a commons offset of a parcel. -/
def commonsKey (p : ParcelId) (off : Nat) : Nat := keyOf p.tract.val p.parcel.val (0x10_0000_0000 + off)
/-- The key of a local store offset of a core. -/
def storeKey (c : CoreId) (off : Nat) : Nat :=
  keyOf c.tract.val c.parcel.val (0x14_0000_0000 + c.core.val * 0x1_0000 + off)

/-- The fields of a global address (R149). -/
def gaModule (a : Nat) : Nat := bitsOf a 63 52
def gaTract (a : Nat) : Nat := bitsOf a 51 48
def gaParcel (a : Nat) : Nat := bitsOf a 47 37
def gaOffset (a : Nat) : Nat := bitsOf a 36 0

/-- A global address whose tract or parcel field names nothing (R31). -/
def gaBad (a : Nat) : Bool := gaTract a ≥ 12 || gaParcel a ≥ 1360

/-- The parcel a key or a global address names, where its fields name one. -/
def keyParcel (a : Nat) : Option ParcelId :=
  if ht : gaTract a < 12 then
    if hp : gaParcel a < 1360 then some { tract := ⟨gaTract a, ht⟩, parcel := ⟨gaParcel a, hp⟩ } else none
  else none

/-- Bytes of a check unit: 4 in a local store, 16 in the commons and the slice (R148). -/
def unitSize (a : Nat) : Nat :=
  match windowOf (gaOffset a) with
  | .store _ _ => 4
  | _ => 16

/-- The base of the check unit a byte lies in. -/
def unitBase (a : Nat) : Nat := a / unitSize a * unitSize a

/-- The bases of the check units a run of n bytes touches. -/
def unitsOf (a n : Nat) : List Nat :=
  if n = 0 then []
  else
    let u := unitSize a
    tabulate ((a + n - 1) / u - a / u + 1) (fun i => (a / u + i) * u)

/-- The byte listed at an address, 0 where none is (assumption log 9). -/
def byteAt : List (Nat × Byte) → Nat → Byte
  | [], _ => 0
  | (k, b) :: rest, a => if k = a then b else if a < k then 0 else byteAt rest a

/-- A byte set in a list in canonical form, which it keeps: a 0 is not listed. -/
def putByte : List (Nat × Byte) → Nat → Byte → List (Nat × Byte)
  | [], a, b => if b = 0 then [] else [(a, b)]
  | (k, v) :: rest, a, b =>
    if a < k then (if b = 0 then (k, v) :: rest else (a, b) :: (k, v) :: rest)
    else if a = k then (if b = 0 then rest else (a, b) :: rest)
    else (k, v) :: putByte rest a b

/-- A run of bytes set from an address upward. -/
def putBytes (cells : List (Nat × Byte)) (a : Nat) : List Byte → List (Nat × Byte)
  | [] => cells
  | b :: bs => putBytes (putByte cells a b) (a + 1) bs

/-- n bytes of memory from an address. -/
def Mem.read (m : Mem) (a n : Nat) : List Byte := tabulate n (fun i => byteAt m.bytes (a + i))

/-- Elements of a rising list outside the run of n from a. -/
def outside (a n : Nat) (l : List Nat) : List Nat := l.filter (fun x => x < a || a + n ≤ x)

/-- Elements of a list inside the run of n from a. -/
def inside (a n : Nat) (l : List Nat) : List Nat := l.filter (fun x => a ≤ x && x < a + n)

/-- Whether a check unit reads as poisoned: marked poisoned, uncorrectable, or holding a byte with a parity error. -/
def Mem.badUnit (m : Mem) (u : Nat) : Bool :=
  m.poison.contains u || m.ue.contains u || !(inside u (unitSize u) m.par).isEmpty

/-- Whether a read of n bytes meets poison (R134, R136, R147). -/
def Mem.badRange (m : Mem) (a n : Nat) : Bool := (unitsOf a n).any m.badUnit

/-- Whether a write of part of a check unit is discarded: the unit is poisoned, or reading it finds it uncorrectable. -/
def Mem.rejectsPart (m : Mem) (u : Nat) : Bool := m.poison.contains u || m.ue.contains u

/-- A write of bytes that lie in one check unit: a whole unit replaces its data and its checks, a part of a sound unit
replaces its bytes, a part of a poisoned unit is discarded (R133, R136, R147, R148). The flag: it was discarded. -/
def Mem.writePiece (m : Mem) (a : Nat) (bs : List Byte) : Mem × Bool :=
  let u := unitBase a
  let sz := unitSize a
  if bs.length = sz then
    ({ bytes := putBytes m.bytes a bs, poison := m.poison.erase u, ce := m.ce.erase u, ue := m.ue.erase u,
       par := outside a sz m.par }, false)
  else if m.rejectsPart u then
    ({ m with poison := insNat u m.poison, ue := m.ue.erase u }, true)
  else ({ m with bytes := putBytes m.bytes a bs, par := outside a bs.length m.par }, false)

/-- A run of bytes cut at the check units of size u. -/
def pieces (u : Nat) : Nat → Nat → List Byte → List (Nat × List Byte)
  | 0, _, _ => []
  | _, _, [] => []
  | fuel + 1, a, bs =>
    let n := u - a % u
    (a, bs.take n) :: pieces u fuel (a + n) (bs.drop n)

/-- The pieces of a write at an address. -/
def piecesAt (a : Nat) (bs : List Byte) : List (Nat × List Byte) := pieces (unitSize a) bs.length a bs

/-- A unit written poisoned: its check says poisoned, its stored data no longer counts (R148). -/
def Mem.poisonUnit (m : Mem) (u : Nat) : Mem :=
  { m with poison := insNat u m.poison, ce := m.ce.erase u, ue := m.ue.erase u, par := outside u (unitSize u) m.par }

/-- The units a run touches written poisoned. -/
def Mem.poisonRange (m : Mem) (a n : Nat) : Mem := (unitsOf a n).foldl Mem.poisonUnit m

/-- Memory with every byte and every check of the run from lo to hi - 1 reset to zero and sound. -/
def Mem.clear (m : Mem) (lo hi : Nat) : Mem :=
  { bytes := m.bytes.filter (fun c => c.1 < lo || hi ≤ c.1), poison := outside lo (hi - lo) m.poison,
    ce := outside lo (hi - lo) m.ce, ue := outside lo (hi - lo) m.ue, par := outside lo (hi - lo) m.par }

/-- The regions of the commons (R137), from a value of CM_LAYOUT. -/
def markBase : Nat := 0x3_F000
def tileBase (layout : Nat) : Nat := markBase - bitsOf layout 3 0 * 0x4000
def stagingBase (layout : Nat) : Nat := tileBase layout - bitsOf layout 9 4 * 0x1000
def vectorBase (layout : Nat) : Nat := stagingBase layout - bitsOf layout 15 10 * 0x1000

end Sys2Proof.Machine
end

