-- ==== Sys2Proof/Machine/ParcelRegs.lean ====
section
/-!
DEFINITION. The records of the state by their keys; and what a read of a parcel's control window shows: its registers, with the fields that show
other state (R149, R282, R294, R302, R319, R387, R429, R443, R450, R481).
-/
namespace Sys2Proof.Machine

/-- The parcel of a core. -/
def coreParcel (c : CoreId) : ParcelId := { tract := c.tract, parcel := c.parcel }
/-- A core of a parcel. -/
def parcelCore (p : ParcelId) (n : CoreNo) : CoreId := { tract := p.tract, parcel := p.parcel, core := n }

/-- A core's record; a core nothing has touched is as after reset. -/
def State.core (s : State) (c : CoreId) : Core := s.cores.get c Core.reset
def State.setCore (s : State) (c : CoreId) (v : Core) : State := { s with cores := s.cores.put c v }
def State.modCore (s : State) (c : CoreId) (f : Core → Core) : State := s.setCore c (f (s.core c))
/-- A parcel's record. -/
def State.parcel (s : State) (p : ParcelId) : Parcel := s.parcels.get p Parcel.reset
def State.setParcel (s : State) (p : ParcelId) (v : Parcel) : State := { s with parcels := s.parcels.put p v }
def State.modParcel (s : State) (p : ParcelId) (f : Parcel → Parcel) : State := s.setParcel p (f (s.parcel p))
/-- A tract's agents and collector. -/
def State.fab (s : State) (t : Tract) : TractFab := s.fabs.get t TractFab.reset
def State.setFab (s : State) (t : Tract) (v : TractFab) : State := { s with fabs := s.fabs.put t v }
def State.modFab (s : State) (t : Tract) (f : TractFab → TractFab) : State := s.setFab t (f (s.fab t))
def State.modHealth (s : State) (p : ParcelId) (f : ParcelHealth → ParcelHealth) : State :=
  s.modParcel p (fun v => { v with health := f v.health })

/-- The power state of a tract. -/
def State.tpwr (s : State) (t : Tract) : TractPower := s.up.tracts.get t TractPower.reset
def State.modTpwr (s : State) (t : Tract) (f : TractPower → TractPower) : State :=
  { s with up := { s.up with tracts := s.up.tracts.put t (f (s.tpwr t)) } }
/-- The parcels of a tract that the state lists. -/
def State.listedParcels (s : State) (t : Tract) : List ParcelId :=
  (s.parcels.filter (fun q => q.1.tract = t)).map (fun q => q.1)

/-- The failed site of a row, where manufacturing test found one; and the site of the row's spare, which is that one, or column 34 (R13). -/
def State.failedSite (s : State) (t y : Nat) : Option Nat :=
  (s.up.badSites.find? (fun f => f.1 == t && f.2.1 == y)).map (fun f => f.2.2)
def State.spareSite (s : State) (t y : Nat) : Nat := (s.failedSite t y).getD 34

/-- The nominal voltage in mV of a CCLK step, interpolated between the points of the table and rounded up (R384). -/
def nominalMv (step : Nat) : Nat :=
  if step ≤ 20 then 600 + 4 * step
  else if step ≤ 32 then 680 + ceilDiv (70 * (step - 20)) 12
  else [762, 773, 785, 797, 808, 820].getD (step - 33) 820

/-- The voltage in mV a parcel needs at a step (R384, R428). -/
def ParcelHealth.needMv (h : ParcelHealth) (step : Nat) : Nat := nominalMv step + h.vofs + h.raised.get step 0

/-- A field laid over a value. -/
def overlay (v : Nat) (fs : List (Nat × Nat × Nat)) : Nat := fs.foldl (fun v f => setBits v f.1 f.2.1 f.2.2) v

/-- Whether the PLLs coast (R375). -/
def State.coasting (s : State) : Bool := s.regBits (modReg .clkStat) 4 4 == 1

/-- The physical site of a parcel's number: column and row (R13, R14, R481). Numbers count the enabled sites of a row from the west; the row's
spare is not among them. -/
def State.site (s : State) (p : ParcelId) : Nat × Nat :=
  let y := p.parcel.val / 34
  let i := p.parcel.val % 34
  let x := s.spareSite p.tract.val y
  (if (s.parcel p).health.spare then x else if i < x then i else i + 1, y)

/-- The cores of a parcel that the state lists. -/
def State.coresOf (s : State) (p : ParcelId) : List CoreId :=
  (s.cores.filter (fun q => coreParcel q.1 = p)).map (fun q => q.1)

/-- Whether a home agent's answer goes to another module. -/
def RemoteSrc.far : RemoteSrc → Bool
  | .link _ _ => true
  | .agent _ _ => false

/-- The remote waits at a parcel, each with its place in their order of arrival and whether it is of another module. -/
def State.remoteWaits (s : State) (p : ParcelId) : List (Nat × Bool) :=
  (s.parcel p).rwaits.map (fun w => (w.order, w.src.far)) ++
    (s.parcel p).heldArr.filterMap (fun h => match h.src with
      | .remote r => if h.wait then some (h.order, r.far) else none
      | .core _ => none)

/-- LWAIT: cores that wait on a mark, of this parcel or another (R282). -/
def State.localWaits (s : State) (p : ParcelId) : Nat :=
  ((s.coresOf p).filter (fun c => match (s.core c).wait with
    | some (.mwait _ _) | some (.mbar _ _ _ _) | some (.remoteWait _ _ _ _) => true
    | some (.sleep _ mask _) => bitOf mask.toNat 3
    | _ => false)).length

/-- The CCLK step in effect (R375, R381, R389). -/
def State.stepNow (s : State) (p : ParcelId) : Nat := if s.coasting then 0 else (s.parcel p).health.step

/-- The target of VCORE_Tn in mV. -/
def State.railTarget (s : State) (t : Tract) : Nat := s.regBits (modRegI .tractPwr t.val) 42 33

/-- How far a parcel's LDO trims its supply below the rail, at most 50 mV (R387). -/
def State.trim (s : State) (p : ParcelId) : Nat := min 50 (s.railTarget p.tract - (s.parcel p).health.needMv (s.stepNow p))

/-- PARCEL_REL (R429). -/
def ParcelHealth.relBits (h : ParcelHealth) : List (Nat × Nat × Nat) :=
  [(1, 0, h.mstep), (2, 2, b2n h.retired), (7, 4, min 15 h.tcnt), (15, 8, min 255 h.lsce), (31, 16, h.dramce), (39, 32, h.scrage), (55, 40, h.askip)]

/-- The fields of a parcel register that show other state. -/
def State.parcelFields (s : State) (r : RegName) (p : ParcelId) : List (Nat × Nat × Nat) :=
  let v := s.parcel p
  match r with
  | .tlStat => [(13, 0, v.tiles.length), (31, 16, v.moved)]
  | .markStat => [(6, 0, s.localWaits p), (14, 7, min 128 (s.remoteWaits p).length)]
  | .parcelOp =>
    let run := ((s.coresOf p).filter (fun c => (s.core c).pwr = .run && (s.core c).run = .running)).length
    let deep := ((s.coresOf p).filter (fun c => (s.core c).pwr = .deep)).length
    [(5, 0, s.stepNow p), (11, 6, v.health.cap), (17, 12, s.trim p), (24, 18, run), (31, 25, deep)]
  | .stashStat => [(14, 0, v.stash.used), (29, 15, v.stash.hwm)]
  | .stashFullset => [(63, 0, v.stash.full)]
  | .parcelRel => v.health.relBits
  | .parcelSite => [(5, 0, (s.site p).1), (11, 6, (s.site p).2)]
  | _ => []

/-- The register of a scope that covers an offset, and its index. -/
def regAt (sc : RegScope) (off : Nat) : Option (RegName × Nat) :=
  RegName.all.findSome? (fun r =>
    let w := r.row
    let hit (i : Nat) : Bool := w.offset + i * w.stride ≤ off && off < w.offset + i * w.stride + w.width / 8
    if w.scope != sc then none
    else
      let i := if w.stride = 0 ∨ off < w.offset then 0 else (off - w.offset) / w.stride
      if i < w.count && hit i then some (r, i) else none)

/-- A byte of a parcel's control window: of its registers, or 0 (R317, R443, R450). -/
def State.windowByte (s : State) (p : ParcelId) (off : Nat) : Byte :=
  match regAt .parcel off with
  | some (r, i) =>
    let base := r.row.offset + i * r.row.stride
    BitVec.ofNat 8 (overlay (s.reg (parcelRegI r p i)) (s.parcelFields r p) / 2 ^ (8 * (off - base)))
  | none => 0

/-- What a load of n bytes of a control window returns. -/
def State.windowLoad (s : State) (p : ParcelId) (off n : Nat) : List Byte := tabulate n (fun i => s.windowByte p (off + i))

end Sys2Proof.Machine
end

