-- ==== Sys2Proof/Machine/Clock.lean ====
section
/-!
DEFINITION. The passing of time on AOCLK (R372, R395) and the CCLK step of a parcel (R372, R381).
-/
namespace Sys2Proof.Machine

/-- One AOCLK period of 40 ns passes: AO_TIME counts it, MTIME advances by 40 ns, the time ARMED is counted (R437), and so are the
periods since the last module reset for CYCLES (R395; DESIGN CHOICE, assumption log 2). -/
def State.tick (s : State) : State :=
  let s := { s with aoTime := (s.aoTime + 1) % 2 ^ 64, mtime := (s.mtime + 40) % 2 ^ 64 }
  let s := if s.job.state == .armed then { s with job := { s.job with armedTime := s.job.armedTime + 1 } } else s
  if s.coasting then { s with up := { s.up with coastTicks := s.up.coastTicks + 1 } } else { s with ticks := s.ticks + 1 }

end Sys2Proof.Machine
end

