-- ==== Sys2Proof/Machine/Flags.lean ====
section
/-!
DEFINITION. Numbers and the flags their rounding sets (R100 to R124): the formats of R102, exact arithmetic on them, rounding
to nearest with ties to even, conversion (R117, R118), block scales (R120).
-/
namespace Sys2Proof.Machine

/-- A group of sticky flags (R124): bit 0 OF, bit 1 UF, bit 2 NX, bit 3 NV. -/
abbrev FlagSet := BitVec 4

def flOf : FlagSet := 1
def flUf : FlagSet := 2
def flNx : FlagSet := 4
def flNv : FlagSet := 8

/-- A flag where a condition holds. -/
def flIf (b : Bool) (f : FlagSet) : FlagSet := if b then f else 0

/-- What the codes with every exponent bit 1 mean (R102): infinity and NaN as IEEE 754 has them, one NaN with every mantissa
bit 1, or ordinary numbers. -/
inductive TopCodes where
  | ieee | oneNan | numbers
  deriving DecidableEq, Repr

/-- A floating-point format (R102): bits of exponent and mantissa, bias, top codes. -/
structure FloatFmt where
  ew   : Nat
  mw   : Nat
  bias : Nat
  top  : TopCodes
  deriving DecidableEq, Repr

def fp32 : FloatFmt := { ew := 8, mw := 23, bias := 127, top := .ieee }
def bf16 : FloatFmt := { ew := 8, mw := 7, bias := 127, top := .ieee }
def fp16 : FloatFmt := { ew := 5, mw := 10, bias := 15, top := .ieee }
def e4m3 : FloatFmt := { ew := 4, mw := 3, bias := 7, top := .oneNan }
def e5m2 : FloatFmt := { ew := 5, mw := 2, bias := 15, top := .ieee }
def e2m3 : FloatFmt := { ew := 2, mw := 3, bias := 1, top := .numbers }
def e3m2 : FloatFmt := { ew := 3, mw := 2, bias := 3, top := .numbers }
def e2m1 : FloatFmt := { ew := 2, mw := 1, bias := 1, top := .numbers }

/-- Bits of a code of the format. -/
def FloatFmt.bits (f : FloatFmt) : Nat := 1 + f.ew + f.mw

/-- The magnitude code of infinity in an IEEE format. -/
def FloatFmt.infCode (f : FloatFmt) : Nat := (2 ^ f.ew - 1) * 2 ^ f.mw

/-- The magnitude code of the largest finite value (R102). -/
def FloatFmt.maxCode (f : FloatFmt) : Nat :=
  match f.top with
  | .ieee => f.infCode - 1
  | .oneNan => 2 ^ (f.ew + f.mw) - 2
  | .numbers => 2 ^ (f.ew + f.mw) - 1

/-- The canonical NaN of the format (R103); a format without NaN is never asked for one. -/
def FloatFmt.nanCode (f : FloatFmt) : Nat :=
  match f.top with
  | .ieee => f.infCode + 2 ^ (f.mw - 1)
  | .oneNan => 2 ^ (f.ew + f.mw) - 1
  | .numbers => 0

/-- The sign bit of a code, at its place. -/
def FloatFmt.signCode (f : FloatFmt) (neg : Bool) : Nat := b2n neg * 2 ^ (f.ew + f.mw)

/-- The exponent of the smallest subnormal. -/
def FloatFmt.minExp (f : FloatFmt) : Int := 1 - (f.bias : Int) - (f.mw : Int)

/-- The number a code stands for (R102). -/
def FloatFmt.decode (f : FloatFmt) (code : Nat) : Num :=
  let neg := bitOf code (f.ew + f.mw)
  let e := bitsOf code (f.ew + f.mw - 1) f.mw
  let m := code % 2 ^ f.mw
  let top := decide (e = 2 ^ f.ew - 1)
  if f.top == .ieee && top then (if m = 0 then .inf neg else .nan)
  else if f.top == .oneNan && top && m == 2 ^ f.mw - 1 then .nan
  else if e = 0 then .fin neg m f.minExp
  else .fin neg (2 ^ f.mw + m) (f.minExp + (e : Int) - 1)

/-- The value of an E8M0 scale, NaN for 0xFF (R102, R104). -/
def scaleNum (s : Nat) : Num := if s = 255 then .nan else .fin false 1 ((s : Int) - 127)

/-- The number an integer is. -/
def intNum (v : Int) : Num := .fin (decide (v < 0)) v.natAbs 0

/-- The quotient of a division by 2^d rounded to nearest, ties to even, and whether it was not exact. -/
def rneShift (m d : Nat) : Nat × Bool :=
  let q := m / 2 ^ d
  let r := m % 2 ^ d
  let up := decide (2 ^ d < 2 * r) || (decide (2 ^ d = 2 * r) && q % 2 == 1)
  (q + b2n up, r != 0)

/-- What rounding a finite magnitude to a format gives, the exponent range unbounded above (R117 step 3): the magnitude code
where it is in range, whether it overflows, is inexact, is tiny. -/
structure Rounded where
  code    : Nat
  big     : Bool
  inexact : Bool
  tiny    : Bool
  deriving DecidableEq, Repr

/-- Rounds m * 2^e to a format. The code of q units of 2^u is (u - minExp) * 2^mw + q, for subnormals too. -/
def FloatFmt.round (f : FloatFmt) (m : Nat) (e : Int) : Rounded :=
  if m = 0 then { code := 0, big := false, inexact := false, tiny := false }
  else
    let u : Int := max ((Nat.log2 m : Int) + e - (f.mw : Int)) f.minExp
    let (q, inexact) := if u ≤ e then (m * 2 ^ (e - u).toNat, false) else rneShift m (u - e).toNat
    let code := (u - f.minExp).toNat * 2 ^ f.mw + q
    { code := code, big := decide (f.maxCode < code), inexact := inexact, tiny := inexact && decide (code < 2 ^ f.mw) }

/-- The flags of a result that did not overflow (R124). -/
def Rounded.flags (r : Rounded) : FlagSet := flIf r.inexact flNx ||| flIf r.tiny flUf

/-- A number rounded to an IEEE format by RNE (R101): its code and flags. -/
def FloatFmt.encode (f : FloatFmt) (x : Num) : Nat × FlagSet :=
  match x with
  | .nan => (f.nanCode, 0)
  | .inf neg => (f.signCode neg + f.infCode, 0)
  | .fin neg m e =>
    let r := f.round m e
    if r.big then (f.signCode neg + f.infCode, flOf ||| flNx) else (f.signCode neg + r.code, r.flags)

/-- The negation of a number. -/
def Num.neg : Num → Num
  | .nan => .nan
  | .inf s => .inf (!s)
  | .fin s m e => .fin (!s) m e

/-- The magnitude of a number. -/
def Num.abs : Num → Num
  | .nan => .nan
  | .inf _ => .inf false
  | .fin _ m e => .fin false m e

def Num.isNan : Num → Bool
  | .nan => true
  | _ => false
def Num.isInf : Num → Bool
  | .inf _ => true
  | _ => false
def Num.isZero : Num → Bool
  | .fin _ m _ => m == 0
  | _ => false
/-- Whether the sign bit of a number that is not NaN is set. -/
def Num.sign : Num → Bool
  | .nan => false
  | .inf s => s
  | .fin s _ _ => s

/-- A finite magnitude with its sign, as an integer multiple of 2^e for an e no greater than its own. -/
def finUnits (neg : Bool) (m : Nat) (e lo : Int) : Int :=
  let v : Int := (m : Int) * 2 ^ (e - lo).toNat
  if neg then -v else v

/-- The exact sum of two numbers, and whether it is invalid; a zero sum is +0 unless both terms are -0 (R107, R108). -/
def Num.add (a b : Num) : Num × Bool :=
  match a, b with
  | .nan, _ | _, .nan => (.nan, false)
  | .inf s, .inf t => if s = t then (.inf s, false) else (.nan, true)
  | .inf s, _ => (.inf s, false)
  | _, .inf t => (.inf t, false)
  | .fin s m e, .fin t n f =>
    let lo := min e f
    let v := finUnits s m e lo + finUnits t n f lo
    if v = 0 then (.fin (s && t && m == 0 && n == 0) 0 0, false) else (.fin (decide (v < 0)) v.natAbs lo, false)

/-- The exact product of two numbers, and whether it is invalid (R107). -/
def Num.mul (a b : Num) : Num × Bool :=
  match a, b with
  | .nan, _ | _, .nan => (.nan, false)
  | .inf s, .inf t => (.inf (s != t), false)
  | .inf s, .fin t n _ => if n = 0 then (.nan, true) else (.inf (s != t), false)
  | .fin s m _, .inf t => if m = 0 then (.nan, true) else (.inf (s != t), false)
  | .fin s m e, .fin t n f => (.fin (s != t) (m * n) (e + f), false)

/-- The order of R115 without NaN: -inf < negative < -0 < +0 < positive < +inf. Whether a lies strictly below b. -/
def Num.below (a b : Num) : Bool :=
  match a, b with
  | .nan, _ | _, .nan => false
  | .inf s, .inf t => s && !t
  | .inf s, _ => s
  | _, .inf t => !t
  | .fin s m e, .fin t n f =>
    let lo := min e f
    let v := finUnits s m e lo
    let w := finUnits t n f lo
    decide (v < w) || (decide (v = w) && m == 0 && s && !t)

/-- IEEE 754-2019 minimum and maximum (R114): NaN yields NaN, -0 ranks below +0. -/
def Num.min2 (a b : Num) : Num := if a.isNan || b.isNan then .nan else if b.below a then b else a
def Num.max2 (a b : Num) : Num := if a.isNan || b.isNan then .nan else if a.below b then b else a

/-- A finite number rounded to an integer by RNE, and whether it was not exact (R118). -/
def roundInt (neg : Bool) (m : Nat) (e : Int) : Int × Bool :=
  let (q, x) := if 0 ≤ e then (m * 2 ^ e.toNat, false) else rneShift m (-e).toNat
  (if neg then -(q : Int) else q, x)

/-- A conversion into a two's complement integer of so many bits (R118): its code and flags. -/
def toIntCode (bits : Nat) (x : Num) : Nat × FlagSet :=
  let lim : Nat := 2 ^ (bits - 1)
  match x with
  | .nan => (0, flNv)
  | .inf neg => (if neg then lim else lim - 1, flOf)
  | .fin neg m e =>
    let (v, inexact) := roundInt neg m e
    if (lim : Int) ≤ v then (lim - 1, flOf ||| flNx)
    else if v < -(lim : Int) then (lim, flOf ||| flNx)
    else ((v % (2 ^ bits : Int)).toNat, flIf inexact flNx)

/-- A conversion to a floating-point format (R117), clip: CLIP is set. -/
def FloatFmt.convert (f : FloatFmt) (clip : Bool) (x : Num) : Nat × FlagSet :=
  match f.top, x with
  | .ieee, .fin neg m e =>
    let r := f.round m e
    if r.big && clip then (f.signCode neg + f.maxCode, flOf ||| flNx) else f.encode x
  | .ieee, _ => f.encode x
  | _, .nan => (f.nanCode, 0)
  | _, .inf neg => if clip then (f.signCode neg + f.maxCode, flOf) else (f.nanCode, flNv)
  | _, .fin neg m e =>
    let r := f.round m e
    if r.big then
      (if clip then (f.signCode neg + f.maxCode, flOf ||| flNx) else (f.nanCode, flOf ||| flNx ||| flNv))
    else (f.signCode neg + r.code, r.flags)

/-- An element of an MX block (R117, R120): it saturates, setting NX. x is the value divided by the block's scale. -/
def FloatFmt.element (f : FloatFmt) (x : Num) : Nat × FlagSet :=
  match x with
  | .fin neg m e =>
    let r := f.round m e
    if r.big then (f.signCode neg + f.maxCode, flNx) else (f.signCode neg + r.code, r.flags)
  | _ => (0, 0)

/-- The exponent of the largest normal of an element format (R120). -/
def FloatFmt.emax (f : FloatFmt) : Int :=
  match f.top with
  | .numbers => (2 ^ f.ew - 1 : Nat) - (f.bias : Int)
  | .oneNan => (2 ^ f.ew - 1 : Nat) - (f.bias : Int)
  | .ieee => (2 ^ f.ew - 2 : Nat) - (f.bias : Int)

/-- A number divided by 2^e, exactly. -/
def Num.scaleDown (x : Num) (e : Int) : Num :=
  match x with
  | .fin s m f => .fin s m (f - e)
  | y => y

/-- The scale code of a block and its flags (R120). -/
def mxScale (f : FloatFmt) (xs : List Num) : Nat × FlagSet :=
  if xs.any (fun x => x.isNan || x.isInf) then (255, flIf (xs.any Num.isInf) flOf)
  else
    let amax := xs.foldl (fun a x => a.max2 x.abs) (Num.fin false 0 0)
    let e0 : Int := match amax with
      | .fin _ m e => if m = 0 then -127 else (Nat.log2 m : Int) + e - f.emax
      | _ => -127
    ((max (min e0 127) (-127) + 127).toNat, flIf (decide (127 < e0)) flOf)

/-- The elements of a block under a scale code, and their flags (R120). -/
def mxElems (f : FloatFmt) (sc : Nat) (xs : List Num) : List Nat × FlagSet :=
  if sc = 255 then (xs.map (fun _ => 0), 0)
  else
    let qs := xs.map (fun x => f.element (x.scaleDown ((sc : Int) - 127)))
    (qs.map (fun q => q.1), qs.foldl (fun a q => a ||| q.2) 0)

/-- An FP32 word as a number. -/
def numOf (w : Word) : Num := fp32.decode w.toNat

/-- A number rounded to FP32. -/
def toFp32 (x : Num) : Word × FlagSet :=
  let (c, fl) := fp32.encode x
  (BitVec.ofNat 32 c, fl)

/-- A result that may be invalid, rounded to FP32 (R124). -/
def toFp32Nv (x : Num × Bool) : Word × FlagSet :=
  let (w, fl) := toFp32 x.1
  (w, fl ||| flIf x.2 flNv)

/-- FP32 addition, subtraction, multiplication and fused multiply-add, correctly rounded (R101, R112). -/
def fpAdd (a b : Word) : Word × FlagSet := toFp32Nv ((numOf a).add (numOf b))
def fpSub (a b : Word) : Word × FlagSet := toFp32Nv ((numOf a).add (numOf b).neg)
def fpMul (a b : Word) : Word × FlagSet := toFp32Nv ((numOf a).mul (numOf b))

/-- The exact a * b + c, and whether it is invalid: by the product, or by the sum where no operand is NaN. -/
def numFma (a b c : Num) : Num × Bool :=
  let (p, nv) := a.mul b
  let (s, nv') := p.add c
  (s, nv || nv')

def fpFma (a b c : Word) : Word × FlagSet :=
  if (numOf c).isNan || (numOf a).isNan || (numOf b).isNan then (BitVec.ofNat 32 fp32.nanCode, 0)
  else toFp32Nv (numFma (numOf a) (numOf b) (numOf c))

/-- The quotient of two finite numbers with enough bits and a sticky bit for one correct rounding. -/
def finDiv (s : Bool) (m : Nat) (e : Int) (n : Nat) (f : Int) : Num :=
  let k := 40 + Nat.log2 n
  let q := m * 2 ^ k / n
  .fin s (2 * q + b2n (m * 2 ^ k % n != 0)) (e - f - (k : Int) - 1)

/-- The quotient of two numbers, for one rounding, and whether it is invalid; a nonzero finite value by zero gives a signed infinity
(R112, R124). -/
def divNum (a b : Num) : Num × Bool :=
  match a, b with
  | .nan, _ | _, .nan => (.nan, false)
  | .inf _, .inf _ => (.nan, true)
  | .inf s, .fin t _ _ => (.inf (s != t), false)
  | .fin s _ _, .inf t => (.fin (s != t) 0 0, false)
  | .fin s m e, .fin t n f =>
    if n = 0 then (if m = 0 then (.nan, true) else (.inf (s != t), false)) else (finDiv (s != t) m e n f, false)

/-- FP32 division (R112). -/
def fpDiv (a b : Word) : Word × FlagSet := toFp32Nv (divNum (numOf a) (numOf b))

/-- The integer square root of a number below 4^bits. -/
def isqrt (bits n : Nat) : Nat :=
  (List.range bits).foldl (fun r i =>
    let t := r + 2 ^ (bits - 1 - i)
    if t * t ≤ n then t else r) 0

/-- The square root of a number, for one rounding, and whether it is invalid: of a negative value NaN, of a zero that zero (R112, R124). -/
def sqrtNum (a : Num) : Num × Bool :=
  match a with
  | .nan => (.nan, false)
  | .inf s => if s then (.nan, true) else (.inf false, false)
  | .fin s m e =>
    if m = 0 then (a, false)
    else if s then (.nan, true)
    else
      let sh : Nat := if e % 2 = 0 then 60 else 61
      let n := m * 2 ^ sh
      let r := isqrt 48 n
      (.fin false (2 * r + b2n (r * r != n)) ((e - (sh : Int)) / 2 - 1), false)

/-- FP32 square root (R112). -/
def fpSqrt (a : Word) : Word × FlagSet := toFp32Nv (sqrtNum (numOf a))

/-- FP32 minimum and maximum (R114), without flags. -/
def fpMin (a b : Word) : Word :=
  if (numOf a).isNan || (numOf b).isNan then BitVec.ofNat 32 fp32.nanCode
  else if (numOf b).below (numOf a) then b else a
def fpMax (a b : Word) : Word :=
  if (numOf a).isNan || (numOf b).isNan then BitVec.ofNat 32 fp32.nanCode
  else if (numOf a).below (numOf b) then b else a

/-- Quiet comparisons (R116): -0 equals +0, any comparison with NaN but not-equal is false. -/
def fpEq (a b : Word) : Bool :=
  !(numOf a).isNan && !(numOf b).isNan && (a == b || ((numOf a).isZero && (numOf b).isZero))
def fpLt (a b : Word) : Bool := (numOf a).below (numOf b) && !((numOf a).isZero && (numOf b).isZero)
def fpLe (a b : Word) : Bool := fpLt a b || fpEq a b

/-- An FP32 word rounded to BF16 or FP16, and widened back (R112). -/
def fpNarrow (f : FloatFmt) (a : Word) : Nat × FlagSet := f.convert false (numOf a)
def fpWiden (f : FloatFmt) (c : Nat) : Word := (toFp32 (f.decode c)).1

/-- The split-K tree of R109, by which the module's reductions add: pairs from the left, an odd last carried up. -/
def pairSums (add : Word → Word → Word × FlagSet) : List Word → List Word × FlagSet
  | a :: b :: rest =>
    let (s, f) := add a b
    let (t, g) := pairSums add rest
    (s :: t, f ||| g)
  | l => (l, 0)
def treeSum (add : Word → Word → Word × FlagSet) : Nat → List Word → Word × FlagSet
  | 0, l => (l.headD 0, 0)
  | n + 1, l =>
    match l with
    | [] => (0, 0)
    | [a] => (a, 0)
    | _ =>
      let (m, f) := pairSums add l
      let (r, g) := treeSum add n m
      (r, f ||| g)

end Sys2Proof.Machine
end

