-- ==== Sys2Proof/Machine/Wire.lean ====
section
/-!
DEFINITION. What a port carries, as bytes: flits with their CRC (R348), slot frames (R235, R352), memory messages (R354), management
messages (R356), CTRL flits (R349).
-/
namespace Sys2Proof.Machine

/-- A list cut or padded with zero bytes to n bytes. -/
def fit (n : Nat) (bs : List Byte) : List Byte := bs.take n ++ List.replicate (n - bs.length) 0

/-- The next multiple of 16. -/
def up16 (n : Nat) : Nat := ceilDiv n 16 * 16

/-- CRC-24 over one bit (R348): generator 0x864CFB, the highest bit first. -/
def crcBit (c : Nat) (b : Bool) : Nat :=
  let top := bitOf c 23 != b
  let c := c * 2 % 2 ^ 24
  if top then c ^^^ 0x864CFB else c

/-- CRC-24 over a byte, its highest bit first. -/
def crcByte (c : Nat) (b : Byte) : Nat := [7, 6, 5, 4, 3, 2, 1, 0].foldl (fun c i => crcBit c (bitOf b.toNat i)) c

/-- The CRC of a flit: over its bytes 0 to 1 and 5 to 1,284 (R348). -/
def flitCrc (bs : List Byte) : Nat := (bs.take 2 ++ bs.drop 5).foldl crcByte 0xB704CE

/-- A flit as its 1,285 bytes (R348). -/
def flitBytes (seq vc : Nat) (payload : List Byte) : List Byte :=
  let h := natLe 2 (seq % 4096 + vc * 4096)
  let body := fit 1280 payload
  h ++ natLe 3 ((h ++ body).foldl crcByte 0xB704CE) ++ body

/-- The segment header as bytes (R235). DESIGN CHOICE: the status that travels with the cutoffs (R197) lies in the reserved bytes 18 and 19,
which are 0 in every other segment (assumption log 56). -/
def segHdrBytes (h : SegHdr) : List Byte :=
  let coll := h.type == 3
  natLe 1 (h.type + h.xk * 16) ++ natLe 1 0 ++ natLe 2 (if coll then 0 else h.layer) ++ natLe 2 (if coll then 0 else h.mb) ++
    natLe 2 (h.smod + h.stract * 4096) ++ natLe 2 (h.dmod + h.dtract * 4096) ++ natLe 2 (if coll then h.cid else h.expert) ++
    natLe 2 h.count ++ natLe 2 (if coll then h.cid / 65536 else h.mbase) ++ natLe 2 (if coll then 0 else h.novf) ++ natLe 2 h.status ++
    natLe 4 h.uoff ++ natLe 4 h.srank ++ natLe 4 0

/-- A slot frame as bytes: the frame header and the content (R352). -/
def frameBytes (h : FrameHdr) (segs : List Segment) : List Byte :=
  natLe 1 h.kind ++ natLe 1 h.reason ++ natLe 2 h.table ++ natLe 2 h.pos ++ natLe 2 (h.smod + h.sport * 4096) ++ natLe 8 h.inst ++
    natLe 8 h.step ++ natLe 4 h.len ++ natLe 2 h.dmod ++ List.replicate 34 0 ++
    segs.flatMap (fun g => segHdrBytes g.hdr ++ g.rows.flatMap (fun r => r.bytes))

/-- A memory message as bytes (R354). -/
def memBytes (m : MemMsg) : List Byte :=
  let tail := if m.mt = 4 ∧ m.w64 then natLe 4 (m.cmp / 2 ^ 32) else natLe 1 (m.len - 1) ++ natLe 1 m.pmask ++ natLe 2 0
  natLe 1 (m.mt + m.op * 16) ++ natLe 1 (b2n m.flag + 2 * b2n m.dord + 4 * b2n m.posted + 8 * b2n m.w64) ++ natLe 1 m.epoch ++
    natLe 1 (m.hop + m.status * 16) ++ natLe 2 (m.smod + m.stract * 4096) ++ natLe 2 m.tag ++ natLe 8 m.addr ++ natLe 8 m.opd ++
    natLe 4 m.cmp ++ tail ++ (if m.mt = 2 ∨ m.mt = 8 then fit (up16 m.len) m.data else [])

/-- The VC a memory message travels on (R348): 1 for requests, 2 for responses. -/
def memVc (m : MemMsg) : Nat := if m.mt < 8 then 1 else 2

/-- A management message as bytes (R356). -/
def mgmtBytes (mtype smod sport dmod : Nat) (body : List Byte) : List Byte :=
  natLe 1 mtype ++ natLe 1 (body.length / 16) ++ natLe 2 (smod + sport * 4096) ++ natLe 2 dmod ++ List.replicate 10 0 ++ body

def paramBody (m : ParamMsg) : List Byte :=
  natLe 8 m.jobId ++ natLe 2 m.modNum ++ natLe 1 (b2n m.flow6) ++ natLe 1 m.epoch ++ natLe 2 m.crMem ++ natLe 2 m.crRsp ++
    natLe 2 m.crMgmt ++ natLe 8 m.mapsum ++ List.replicate 6 0

def sackBody (table inst step code : Nat) : List Byte :=
  natLe 2 table ++ natLe 2 0 ++ natLe 8 inst ++ natLe 8 step ++ natLe 1 code ++ List.replicate 11 0

def xferBody (m : TimeXfer) : List Byte := natLe 1 m.phase ++ List.replicate 7 0 ++ natLe 8 m.t1 ++ natLe 8 m.t2 ++ natLe 8 m.t3

/-- The body of a boundary record; that of an abort notice begins with 0xAB (R253, R421). -/
def boundaryBytes (m : BoundaryMsg) : List Byte :=
  fit 64 (Config.boundaryBody m.smod m.done (2 * m.planId + b2n m.hasPlan) (b2n m.closure + 2 * b2n m.down))
def noticeBytes (smod seq : Nat) : List Byte := fit 64 (0xAB :: (Config.boundaryBody smod seq 0 0).drop 1)

/-- The payload of a CTRL flit (R349). -/
def ctrlPayload (f : CtrlFlit) : List Byte :=
  natLe 2 (f.rxseq % 4096) ++ natLe 2 f.crMem ++ natLe 2 f.crRsp ++ natLe 2 f.crMgmt ++ natLe 1 f.retry.length ++ List.replicate 7 0 ++
    (f.retry.flatMap (natLe 2))

/-- A TIME frame of the ring as its 64 bytes (R359). -/
def timeFrameBytes (f : TimeFrame) : List Byte :=
  natLe 1 1 ++ natLe 1 f.hop ++ natLe 2 f.master ++ natLe 4 0 ++ natLe 8 f.mt ++ natLe 8 f.corr ++ List.replicate 40 0

/-- A SIDE frame of the ring as its 64 bytes (R359). -/
def sideFrameBytes (f : SideFrame) : List Byte :=
  natLe 1 2 ++ natLe 1 0 ++ natLe 2 (f.dmod % 4096) ++ natLe 2 (f.smod % 4096) ++ natLe 2 0 ++ fit 56 f.payload

/-- What goes out on a port as a message of one of its streams: the port, the VC and the bytes. own: this module; peer: the partner of
a port. -/
def OutMsg.onWire (own : Nat) (peer : Port → Nat) : OutMsg → Option (Port × Nat × List Byte)
  | .memory p m => some (p, memVc m, memBytes m)
  | .frame p h segs => some (p, 0, frameBytes h segs)
  | .sack p t i n c => some (p, 3, mgmtBytes 2 own p.val (peer p) (sackBody t i n c))
  | .boundary p d m => some (p, 3, mgmtBytes 3 own p.val d (boundaryBytes m))
  | .abortNotice p d a q => some (p, 3, mgmtBytes 3 own p.val d (noticeBytes a q))
  | .param p m => some (p, 3, mgmtBytes 1 own p.val (peer p) (paramBody m))
  | .timexfer p m => some (p, 3, mgmtBytes 4 own p.val (peer p) (xferBody m))
  | .relayed p m => some (p, 3, m)
  | .downreq p => some (p, 3, mgmtBytes 5 own p.val (peer p) [])
  | _ => none

/-- The bytes of the message at the head of a VC's stream, where its header is whole (R352, R354, R356): a zero kind is padding of 16
bytes; a frame takes whole flits. -/
def messageSize (vc : Nat) (bs : List Byte) : Option Nat :=
  if vc = 0 then
    if bs.length < 64 then none else some (1280 * (1 + ceilDiv (fieldAt bs 24 4 - 1216) 1280))
  else if bs.length < 16 then none
  else if fieldAt bs 0 1 = 0 then some 16
  else if vc = 3 then some (16 + 16 * fieldAt bs 1 1)
  else if bs.length < 32 then none
  else
    let mt := bitsOf (fieldAt bs 0 1) 3 0
    some (if mt = 2 ∨ mt = 8 then 32 + up16 (fieldAt bs 28 1 + 1) else 32)

end Sys2Proof.Machine
end

