-- ==== Sys2Proof/Machine/Ops.lean ====
section
/-!
DEFINITION. The named operations over the state that every unit uses: free values, the settings of a plot, error records and their queues (R412 to R419), memory accesses with their records
(R131 to R148), suspect parcels (R427, R428).
-/
namespace Sys2Proof.Machine

/-- The next free value and the state that has taken it (assumption log 5). -/
def State.freeVal (s : State) : DWord := Config.freeValue s.free
def State.takeFree (s : State) : State := { s with free := s.free + 1 }

/-- A link port. -/
def State.link (s : State) (p : Port) : LinkPort := s.links.get p LinkPort.reset
def State.modLink (s : State) (p : Port) (f : LinkPort → LinkPort) : State := { s with links := s.links.put p (f (s.link p)) }

/-- The module at the other end of a port, from its PARAM (R356). -/
def State.partner (s : State) (p : Port) : Nat := ((s.link p).param.map (fun m => m.smod)).getD 0

/-- Sends something out of the module; a message of a port joins the stream of its virtual channel (R348). via: the port it came by, where the
module relays it. -/
def State.sendFrom (s : State) (via : Option Port) (m : OutMsg) : State :=
  let s := { s with out := s.out ++ [m] }
  match m.onWire s.job.moduleId.toNat s.partner with
  | some (p, vc, bs) => s.modLink p (fun l => { l with
      tx := l.tx.put vc (l.tx.get vc [] ++ [{ data := bs, stamp := l.stamp, via := via }]), stamp := l.stamp + 1 })
  | none => s
def State.send (s : State) (m : OutMsg) : State := s.sendFrom none m

/-- Credits for n units of a VC go back to the partner of a port, by the next CTRL flit (R267, R355). -/
def State.giveUnits (s : State) (p : Port) (vc n : Nat) : State :=
  s.modLink p (fun l =>
    let g := l.given
    { l with given :=
        if vc = 3 then { g with mgmt := (g.mgmt + n) % 65536 }
        else if vc = 2 && s.regBits (modReg .fabCtl) 10 10 == 1 then { g with rsp := (g.rsp + n) % 65536 }
        else { g with mem := (g.mem + n) % 65536 } })

/-- Relayed messages of a VC leave the receive buffers of the ports they came by (R267, R355). -/
def State.leaveBuffers (s : State) (vc : Nat) (ms : List TxMsg) : State :=
  ms.foldl (fun s m => match m.via with
    | some p => s.giveUnits p vc (ceilDiv m.data.length 64)
    | none => s) s

/-- A per-plot register of a parcel: its plot's, or the reset value where it is in no plot (R163). -/
def State.plotReg (s : State) (p : ParcelId) (r : RegName) : Nat :=
  match (s.parcel p).plot with
  | some n => s.reg (tractRegI r p.tract n.toNat)
  | none => r.resetValue

/-- The queue class of a parcel's cores (R163, R164). -/
def State.queueClass (s : State) (p : ParcelId) : Nat :=
  match (s.parcel p).plot with
  | some n => s.regBits (tractRegI .plotCfg p.tract n.toNat) 2 1
  | none => 0

/-- Whether a queue class is in destination-order mode (R261). -/
def State.destOrder (s : State) (cls : Nat) : Bool := s.regBits (modReg .fabCtl) (2 * cls + 1) (2 * cls) == 1

/-- Whether module m is part of the job (R449): its bit of JOB_MAP, or the module's own number. -/
def State.inJob (s : State) (m : Nat) : Bool :=
  m == s.job.moduleId.toNat || bitOf (s.reg (modRegI .jobMap (m / 64))) (m % 64)

/-- The ports of a mask, lowest first. -/
def maskPorts (mask : Nat) : List Nat := (List.range 16).filter (fun p => bitOf mask p)

/-- The state of a link port, as LINK_STAT.STATE codes it: 5 is UP, 6 FOREIGN. -/
def State.portState (s : State) (p : Nat) : Nat := s.regBits (modRegI .linkStat p) 2 0

/-- Whether a port is UP: over no other does a message of the job arrive (R357). -/
def State.anyUp (s : State) : Bool := (List.range 16).any (fun p => s.portState p == 5)

/-- The port of a module's route entry: the lowest with FLOW6, else the one the hash picks; none for an entry of no port (R255, R279). -/
def State.routePort (s : State) (dmod : Nat) (hashIn : Nat) : Option Nat :=
  match maskPorts (s.fabric.rtab.get dmod 0) with
  | [] => none
  | p0 :: ps =>
    some (if s.regBits (modReg .fabCtl) 10 10 == 1 then p0 else (p0 :: ps).getD (Config.fabricHash hashIn % (ps.length + 1)) p0)

/-- Where an operation for another module goes (R255, R256, R273; after a failed link until an epoch advance, R358): a port, or the status it
completes with at once. -/
def State.route (s : State) (dmod : Nat) (hashIn : Nat) : Sum Nat Nat :=
  match s.routePort dmod hashIn with
  | none => .inr 4
  | some p =>
    let failed := if h : p < 16 then (s.link ⟨p, h⟩).failed else true
    if s.portState p == 6 then .inr 4 else if s.portState p == 5 && !failed then .inl p else .inr 5

/-- The port a management message for another module leaves by: its route entry's, where it is UP (R256, R356). -/
def State.mgmtPort (s : State) (dmod : Nat) : Option Port :=
  match s.routePort dmod dmod with
  | some p => if h : p < 16 then (if s.portState p == 5 then some ⟨p, h⟩ else none) else none
  | none => none

/-- The class codes of R415. -/
def RecClass.code : RecClass → Nat
  | .stepDone => 0x01 | .stepAbort => 0x02 | .restored => 0x03 | .snapDone => 0x04 | .ageReplan => 0x05
  | .tileRetry => 0x06 | .regLocked => 0x07 | .regBadValue => 0x08 | .jobBusy => 0x09 | .planReject => 0x0A
  | .planLate => 0x0B | .planStale => 0x0C | .boundaryTimeout => 0x0D | .coreFault => 0x0E | .coreParity => 0x0F
  | .arrayPoison => 0x10 | .lsRmwPoison => 0x11 | .cmParity => 0x12 | .cmRmwPoison => 0x13 | .cmLayoutBusy => 0x14
  | .dramUe => 0x15 | .dramRmwPoison => 0x16 | .dramOvertemp => 0x17 | .dramSensor => 0x18 | .tileRehold => 0x19
  | .tileDoneBad => 0x1A | .tileOverflow => 0x1B | .tileParity => 0x1C | .moverFault => 0x1D | .dispFault => 0x1E
  | .routeFault => 0x1F | .transitFault => 0x20 | .closureFault => 0x21 | .slotMismatch => 0x22 | .vecFault => 0x23
  | .chainFault => 0x24 | .cplFull => 0x25 | .engMarkWait => 0x26 | .fabPosted => 0x27 | .fabLinkLost => 0x28
  | .fabConserve => 0x29 | .fabStall => 0x2A | .replicaProtect => 0x2B | .haProtect => 0x2C | .markType => 0x2D
  | .markParity => 0x2E | .marksCleared => 0x2F | .stashFull => 0x30 | .optNonfinite => 0x31 | .linkDown => 0x32
  | .meridianLost => 0x33 | .hostWin => 0x34 | .hostLost => 0x35 | .clkLoss => 0x36 | .pwrOver => 0x37
  | .thermLimit => 0x38 | .vrFault => 0x39 | .throtStuck => 0x3A | .attLeafLow => 0x3B | .fabricHw => 0x3C
  | .logicCheck => 0x3D | .auditMismatch => 0x3E | .tileFailed => 0x3F | .auditFail => 0x40 | .parcelSuspect => 0x41
  | .parcelRetired => 0x42 | .screenFail => 0x43 | .screenDue => 0x44 | .ageMargin => 0x45 | .errLost => 0x46
  | .snapFail => 0x47 | .restoreFail => 0x48 | .armReject => 0x49

/-- The severity R415 gives a class. An "S or E" class takes STEP here, and its emitter lowers it where its rule does. -/
def RecClass.sev : RecClass → Severity
  | .stepDone | .stepAbort | .restored | .snapDone | .ageReplan | .tileRetry => .info
  | .boundaryTimeout | .coreFault | .coreParity | .tileOverflow | .tileParity | .routeFault | .transitFault
  | .closureFault | .vecFault | .fabConserve | .fabStall | .markType | .markParity | .meridianLost | .clkLoss
  | .thermLimit | .vrFault | .fabricHw | .logicCheck | .tileFailed | .auditFail | .parcelRetired | .screenFail
  | .restoreFail => .step
  | _ => .error

/-- The codes of the severities (R412), in rising order. -/
def Severity.code : Severity → Nat
  | .info => 0 | .error => 1 | .step => 2 | .repair => 3

/-- The 16 bytes of DETAIL from 32-bit words (R413): the bytes no word fills are 0. -/
def detailWords (ws : List Nat) : List Byte := (ws.flatMap (natLe 4) ++ List.replicate 16 0).take 16

/-- DETAIL from bytes. -/
def detailBytes (bs : List Nat) : List Byte := (bs.map (BitVec.ofNat 8) ++ List.replicate 16 0).take 16

/-- A record of a class as a unit emits it now: no parcel, core, port or queue named, no address, DETAIL 0 (R412, R413,
R479). The invalid tract is 15. -/
def State.record (s : State) (cls : RecClass) (unit : Nat) (tract : Nat) : ErrRec :=
  { cls := cls, sev := cls.sev, unit := unit, module := s.job.moduleId.toNat, tract := tract, parcel := none,
    core := none, pqk := 0, pq := 0, count := 1, seq := 0, mtime := s.mtime, step := s.job.step.toNat, addr := 0,
    mtlast := s.mtime, detail := List.replicate 16 0 }

/-- A record that names a parcel. -/
def State.recordP (s : State) (cls : RecClass) (unit : Nat) (p : ParcelId) : ErrRec :=
  { s.record cls unit p.tract.val with parcel := some p.parcel.val }

/-- A record of a home or request agent about an access: it names the address the access is aimed at, and the location's parcel where that is one
of its tract (R150, R154, R412; DEDUCED, assumption log 15). -/
def State.recordAt (s : State) (cls : RecClass) (unit : Nat) (t : Tract) (key : Nat) : ErrRec :=
  let r := match keyParcel key with
    | some p => if p.tract = t then s.recordP cls unit p else s.record cls unit t.val
    | none => s.record cls unit t.val
  { r with addr := s.job.moduleId.toNat * 2 ^ 52 + key }

/-- A record that names a core. -/
def State.recordC (s : State) (cls : RecClass) (unit : Nat) (c : CoreId) : ErrRec :=
  { s.recordP cls unit (coreParcel c) with core := some c.core.val }

/-- A record that names a queue (R479). -/
def State.recordQ (s : State) (cls : RecClass) (unit : Nat) (q : QueueId) : ErrRec :=
  { s.record cls unit q.tract.val with pqk := 2, pq := 4 * q.tract.val + engineNum q.engine }

/-- A record of the control die about no tract. -/
def State.recordM (s : State) (cls : RecClass) : ErrRec := s.record cls 15 15

/-- Whether two records are the same occurrence for merging (R416). -/
def ErrRec.sameAs (a b : ErrRec) : Bool :=
  a.cls == b.cls && a.unit == b.unit && a.module == b.module && a.tract == b.tract && a.parcel == b.parcel &&
    a.core == b.core

/-- A queued record with a later occurrence merged into it (R416). -/
def ErrRec.merge (old new : ErrRec) : ErrRec :=
  { old with
    count := min 65535 (old.count + new.count), mtlast := new.mtlast,
    sev := if old.sev.code < new.sev.code then new.sev else old.sev }

/-- Removes the last element a test holds of. -/
def dropLastSuch {α : Type} (p : α → Bool) (l : List α) : List α := (dropFirst p l.reverse).reverse

/-- Low severities, which R417 lets a STEP or REPAIR record displace. -/
def ErrRec.low (r : ErrRec) : Bool := r.sev.code < 2

/-- A record handed to a queue of cap records: merged, queued, displacing, or dropped; the flag says one was dropped
(R416, R417). -/
def enqueueRec (cap : Nat) (q : List ErrRec) (r : ErrRec) : List ErrRec × Bool :=
  if q.any (fun x => x.sameAs r) then
    (modifyIdx (fun x => x.merge r) q (firstIdx (fun x => x.sameAs r) q), false)
  else if q.length < cap then (q ++ [r], false)
  else if r.low then (q, true)
  else if q.any ErrRec.low then (dropLastSuch ErrRec.low q ++ [r], true)
  else (q, true)

/-- Counts a dropped record in ERR_STAT (R417). -/
def State.countLost (s : State) : State := (s.raise (modReg .errStat) 0).bumpReg (modReg .errStat) 31 16 1

/-- The control die's queue takes a record; one that joins the queue gets its SEQ (R416, R417). -/
def State.emitCd (s : State) (r : ErrRec) : State :=
  let (q, lost) := enqueueRec 256 s.errs.cdQueue { r with seq := s.errs.nextSeq % 2 ^ 32 }
  let joins := q.any (fun x => x.seq == s.errs.nextSeq % 2 ^ 32)
  let s := { s with errs := { s.errs with
    cdQueue := q, cdLost := s.errs.cdLost + b2n lost, nextSeq := s.errs.nextSeq + b2n joins } }
  if lost then s.countLost else s

/-- A tract's collector takes a record. -/
def State.emitTract (s : State) (t : Tract) (r : ErrRec) : State :=
  let (q, lost) := enqueueRec 64 (s.fab t).collector r
  let s := s.modFab t (fun f => { f with collector := q, lost := f.lost + b2n lost })
  if lost then s.countLost else s

/-- The abort a record of severity STEP or REPAIR starts while a step runs (R420). -/
def State.noteAbort (s : State) (r : ErrRec) : State :=
  if !r.low && s.job.state == .armed && s.errs.running && s.errs.abort.isNone then
    { s with errs := { s.errs with abort := some (.record r) } }
  else s

/-- A record joins the queue of its emitter: port dies, the control die and the power manager use the control die's queue, the others
their tract's collector (R416). -/
def State.queueRec (s : State) (r : ErrRec) : State :=
  if h : r.tract < 12 then
    if r.unit == 14 || r.unit == 15 || r.unit == 17 then s.emitCd r else s.emitTract ⟨r.tract, h⟩ r
  else s.emitCd r

/-- A restore or remap has failed (R439): SNAP_STAT and its record; NO_SPARE, 5, has severity REPAIR. -/
def State.restoreFail (s : State) (cause : Nat) (more : List Nat) : State :=
  let k := modReg .snapStat
  let s := (s.setRegBits k 1 0 3).setRegBits k 5 2 cause
  { s with up := { s.up with restore := .idle } }.queueRec
    { s.recordM .restoreFail with sev := if cause = 5 then .repair else .step, detail := detailWords (cause :: more) }

/-- A unit emits a record (R416); one of severity STEP or REPAIR stops a restore that runs (R439). -/
def State.emit (s : State) (r : ErrRec) : State :=
  let s := (s.noteAbort r).queueRec r
  if !r.low && s.up.restore == .restore then s.restoreFail 6 [] else s

/-- The unit that emits the record of a failed check. DESIGN CHOICE: the Transit engine for what it holds, the tile list unit for the ledger it keeps
beside (as STASH_FULL does), the request agent for the mesh (R410, R412, assumption log 63). -/
def Checked.unit : Checked → Nat
  | .ledger => 5
  | .mesh => 12
  | _ => 10

/-- A unit of a tract works: where its duplicate, residue or parity check fails, its record follows (R410). DESIGN CHOICE: what fails is the check, and
the result stands (assumption log 63). -/
def State.checkUnit (s : State) (t : Tract) (u : Checked) : State :=
  if s.up.badUnits.contains (t, u) then s.emit (s.record (if u = .mesh then .fabricHw else .logicCheck) u.unit t.val) else s

/-- A margin of 10 mV at every step; where that would take the target above 0.90 V, CAP falls by one step instead (R428). -/
def ParcelHealth.margin (h : ParcelHealth) : ParcelHealth :=
  if 900 < h.needMv h.cap + 10 then { h with cap := h.cap - 1 } else { h with vofs := h.vofs + 10 }

/-- A parcel is retired (R428). -/
def State.retire (s : State) (p : ParcelId) : State :=
  (s.modHealth p (fun h => { h with retired := true })).emit (s.recordP .parcelRetired 15 p)

/-- A parcel takes a suspect event: margin steps 1 to 3, then retirement (R427, R428). -/
def State.suspect (s : State) (p : ParcelId) : State :=
  let s := s.emit (s.recordP .parcelSuspect 15 p)
  if (s.parcel p).health.mstep < 3 then s.modHealth p (fun h => { h.margin with mstep := h.mstep + 1 })
  else s.retire p

/-- A transient failure of a parcel; the third within 24 hours is a suspect event (R423, R427). -/
def State.transient (s : State) (p : ParcelId) : State :=
  let s := s.modHealth p (fun h => { h with tcnt := h.tcnt + 1 })
  if (s.parcel p).health.tcnt == 3 then s.suspect p else s

/-- A corrected local store error; the 64th within 24 hours is a suspect event (R427). -/
def State.countLsce (s : State) (p : ParcelId) : State :=
  let s := s.modHealth p (fun h => { h with lsce := h.lsce + 1 })
  if (s.parcel p).health.lsce == 64 then s.suspect p else s

/-- CM_LAYOUT of a tract. -/
def State.layout (s : State) (t : Tract) : Nat := s.reg (tractReg .cmLayout t)

/-- Whether a commons offset is hardware-owned (R33, R137). -/
def State.cmOwned (s : State) (t : Tract) (off : Nat) : Bool := vectorBase (s.layout t) ≤ off

/-- Whether a commons offset of a parcel is in the tile list region as entries have used it: where an entry lies there the spec does not
give (assumption log 12). Bytes that no entry can have reached keep what they held (R138). -/
def State.cmTile (s : State) (p : ParcelId) (off : Nat) : Bool :=
  max (tileBase (s.layout p.tract)) (s.parcel p).tileLow ≤ off && off < markBase

/-- The byte a read returns: memory's, that of a register in a control window (R450), or a free value in the tile list region (assumption log 12). -/
def State.peekByte (s : State) (a : Nat) : Byte :=
  match windowOf (gaOffset a), keyParcel a with
  | .control off, some p => s.windowByte p off
  | .commons off, some p => if s.cmTile p off then Config.freeByte s.free a else byteAt s.mem.bytes a
  | _, _ => byteAt s.mem.bytes a

/-- n bytes as a read returns them. -/
def State.peek (s : State) (a n : Nat) : List Byte := tabulate n (fun i => s.peekByte (a + i))

/-- Whether a read of n bytes meets poison; an empty read meets nothing (R149). -/
def State.poisoned (s : State) (a n : Nat) : Bool := s.mem.badRange a n

/-- Which 16-byte units of a run are poisoned, as a mask with a bit for each unit the run touches (R148, R354). -/
def State.poisonMask (s : State) (a n : Nat) : Nat :=
  ((List.range (ceilDiv (a % 16 + n) 16)).map (fun i =>
    let lo := max a (a / 16 * 16 + 16 * i)
    if s.poisoned lo (min (a + n) (a / 16 * 16 + 16 * i + 16) - lo) then 2 ^ i else 0)).sum

/-- Whether an address lies on this module. -/
def State.isOwn (s : State) (ga : Nat) : Bool := gaModule ga == s.job.moduleId.toNat

/-- The DRAM layer of a slice offset (R139). -/
def dramLayer (off : Nat) : Nat := off / 0x180_0000

/-- The memory keys of an enabled replicated region: home base, length, and the replica's parcel and slice offset (R151). -/
structure ReplRegion where
  home   : Nat
  len    : Nat
  parcel : Nat
  off    : Nat

/-- The region i, where it is enabled (R151). -/
def State.replRegion (s : State) (i : Nat) : Option ReplRegion :=
  let ctl := s.reg (modRegI .replCtl i)
  if bitOf ctl 0 then
    let loc := s.reg (modRegI .replRloc i)
    some { home := s.reg (modRegI .replHome i) % 2 ^ 52, len := bitsOf ctl 25 1 * 128, parcel := bitsOf loc 37 27,
           off := bitsOf loc 26 0 }
  else none

/-- Whether a key of n bytes falls in the replica area of an enabled region: its location in every tract but the home's
(R151, R154). -/
def State.inReplica (s : State) (key n : Nat) : Bool :=
  (List.range 16).any fun i =>
    match s.replRegion i with
    | some r =>
      let lo := keyOf (gaTract key) r.parcel r.off
      gaTract key != gaTract r.home && decide (key < lo + r.len ∧ lo < key + n)
    | none => false

/-- The enabled region a key falls in. -/
def State.inRegion (s : State) (key : Nat) : Option (Nat × ReplRegion) :=
  (List.range 16).findSome? fun i =>
    match s.replRegion i with
    | some r => if r.home ≤ key && key < r.home + r.len then some (i, r) else none
    | none => none

/-- A replica line loses its validity. -/
def State.dropLine (s : State) (t : Tract) (l : Nat × Nat) : State :=
  s.modFab t (fun f => { f with replOk := f.replOk.filter (fun x => x != l) })

/-- The replica line a key is part of, in an enabled region's replica area of its tract (R151). -/
def State.replicaLine (s : State) (key : Nat) : Option (Nat × Nat) :=
  (List.range 16).findSome? fun i =>
    match s.replRegion i with
    | some r =>
      let lo := keyOf (gaTract key) r.parcel r.off
      if gaTract key != gaTract r.home && lo ≤ key && key < lo + r.len then some (i, (key - lo) / 128) else none
    | none => none

/-- The record of an uncorrectable slice word; one of a replica says so, and its line loses its validity (R154, R413). -/
def State.dramUe (s : State) (p : ParcelId) (u : Nat) : State :=
  let line := s.replicaLine u
  let s := match line with
    | some l => s.dropLine p.tract l
    | none => s
  s.emit { s.recordP .dramUe 4 p with
    addr := s.job.moduleId.toNat * 2 ^ 52 + u, detail := detailBytes [b2n line.isSome, dramLayer (gaOffset u)] }

/-- What a read does to one check unit: a correctable error is corrected and counted, an uncorrectable one becomes poison
with its record, a commons parity error is recorded (R133, R136, R145, R147). -/
def State.touchUnit (s : State) (u : Nat) : State :=
  match windowOf (gaOffset u), keyParcel u with
  | .store _ _, some p =>
    let s := if s.mem.ce.contains u then { s with mem := { s.mem with ce := s.mem.ce.erase u } }.countLsce p else s
    if s.mem.ue.contains u then { s with mem := s.mem.poisonUnit u } else s
  | .slice _, some p =>
    let s :=
      if s.mem.ce.contains u then
        { s with mem := { s.mem with ce := s.mem.ce.erase u } }.modHealth p
          (fun h => { h with dramce := (h.dramce + 1) % 65536 })
      else s
    if s.mem.ue.contains u then { s with mem := s.mem.poisonUnit u }.dramUe p u else s
  | .commons off, some p =>
    if !(inside u 16 s.mem.par).isEmpty && off < tileBase (s.layout p.tract) then
      s.emit (s.recordP .cmParity 3 p)
    else s
  | _, _ => s

/-- What a read of n bytes does to memory and its records; the free value of a tile region byte is used up. -/
def State.touch (s : State) (a n : Nat) : State := ((unitsOf a n).foldl State.touchUnit s).takeFree

/-- The record of a partial write that was discarded (R133, R136, R147); no rule names an address for it (R413). -/
def State.rmwRecord (s : State) (a : Nat) : State :=
  match keyParcel a with
  | none => s
  | some p =>
    match windowOf (gaOffset a) with
    | .store n _ => s.emit { s.recordP .lsRmwPoison 2 p with core := some n }
    | .commons _ => s.emit (s.recordP .cmRmwPoison 3 p)
    | .slice _ => s.emit (s.recordP .dramRmwPoison 4 p)
    | _ => s

/-- The read of a write that covers a part of a check unit of a local store or a slice: it corrects and counts as any read does (R133, R140,
R145, R147). The commons writes single bytes (R136). -/
def State.touchPart (s : State) (a n : Nat) : State :=
  match windowOf (gaOffset a) with
  | .commons _ => s
  | _ => if n = unitSize a then s else s.touchUnit (unitBase a)

/-- One piece of a write, with its record where it is discarded. -/
def State.storePiece (s : State) (q : Nat × List Byte) : State :=
  let s := s.touchPart q.1 q.2.length
  let (m, lost) := s.mem.writePiece q.1 q.2
  let s := { s with mem := m }
  if lost then s.rmwRecord q.1 else s

/-- Whether a write of bytes at a key loses a piece in a poisoned check unit that it covers in part (R148). -/
def State.storeLost (s : State) (a : Nat) (bs : List Byte) : Bool := (piecesAt a bs).any (fun q => (s.mem.writePiece q.1 q.2).2)

/-- A write of bytes at a key, judged check unit by check unit (R148). -/
def State.store (s : State) (a : Nat) (bs : List Byte) : State := (piecesAt a bs).foldl State.storePiece s

/-- A write of n poisoned bytes: the units it touches are written poisoned (R134, R148). -/
def State.storePoison (s : State) (a n : Nat) : State := { s with mem := s.mem.poisonRange a n }

/-- Writes data, poisoned or not. -/
def State.storeMaybe (s : State) (a : Nat) (bs : List Byte) (bad : Bool) : State :=
  if bad then s.storePoison a bs.length else s.store a bs

/-- The global address of a key on this module. -/
def State.globalOf (s : State) (key : Nat) : Nat := s.job.moduleId.toNat * 2 ^ 52 + key

/-- Where a register lies: its BAR0 offset (R441, R456 to R458), or for a parcel register its global address (R450, R459). -/
def State.regPlace (s : State) (k : RegKey) : Nat :=
  let o := k.r.row.offset + k.i * k.r.row.stride
  match k.r.row.scope with
  | .module => o
  | .tract => 0x100_0000 + k.t * 0x10_0000 + o
  | .queue => 0x100_0000 + k.t * 0x10_0000 + 0xF_0000 + k.i * 0x1000 + k.r.row.offset
  | .parcel => s.globalOf (keyOf k.t k.p (0x1F_0000_0000 + o))

/-- The value written and the size of the access, in DETAIL (R413). size: 1 to 8 bytes, or 12 for the four bytes of a register's high half. -/
def valueDetail (value size : Nat) : List Byte :=
  natLe 8 (if size = 12 then value / 2 ^ 32 else value % 2 ^ (8 * size)) ++ natLe 1 (if size = 12 then 4 else size) ++ List.replicate 7 0

/-- The record of a register write that is refused (R7, R413, R474, R479). -/
def State.regRecord (s : State) (cls : RecClass) (k : RegKey) (value size : Nat) : ErrRec :=
  let r := match k.r.row.scope with
    | .module => s.recordM cls
    | .tract => s.record cls 15 k.t
    | .queue => { s.record cls 15 k.t with pqk := 2, pq := 4 * k.t + k.i }
    | .parcel => { s.record cls 15 k.t with parcel := some k.p }
  { r with addr := s.regPlace k, detail := valueDetail value size }

/-- A register write discarded for a reserved encoding (R7). -/
def State.badValue (s : State) (k : RegKey) (value size : Nat) : State := s.emit (s.regRecord .regBadValue k value size)

/-- Whether the RWL fields are locked (R5). -/
def State.rwlLocked (s : State) : Bool := s.job.locked

/-- The value that results in a register of RW, RWL and RO fields from a write (R3, R4, R474): and whether a locked field would have
changed. -/
def State.writeResult (s : State) (k : RegKey) (v : Nat) : Nat × Bool :=
  k.r.row.fields.foldl (fun acc f =>
    let x := bitsOf v f.hi f.lo
    let old := bitsOf (s.reg k) f.hi f.lo
    match f.acc with
    | .rw => (setBits acc.1 f.hi f.lo x, acc.2)
    | .rwl => if s.rwlLocked then (acc.1, acc.2 || x != old) else (setBits acc.1 f.hi f.lo x, acc.2)
    | .w1c => (setBits acc.1 f.hi f.lo (old - (old &&& x)), acc.2)
    | _ => acc) (s.reg k, false)

/-- A write to a register: a locked field that would change keeps its value and its record is logged; a result that check refuses is
discarded whole with its record (R7, R474); else it takes effect. -/
def State.regWrite (s : State) (k : RegKey) (v size : Nat) (check : Nat → Bool) : State :=
  let (r, locked) := s.writeResult k v
  let s := if locked then s.emit (s.regRecord .regLocked k v size) else s
  if check r then s.setReg k r else s.badValue k v size

/-- Module states in which ports train and BAR0 serves everything: READY and later (R357, R447). -/
def JobState.trains : JobState → Bool
  | .reset | .boot => false
  | _ => true

/-- Whether a rail has stopped a tract, which is then dead to the fabric (R271, R389). -/
def State.dead (s : State) (t : Nat) : Bool := s.up.tracts.any (fun q => q.1.val == t && q.2.dead)

/-- Whether a global address lies in a dead tract of this module. -/
def State.deadAt (s : State) (ga : Nat) : Bool := gaModule ga == s.job.moduleId.toNat && s.dead (gaTract ga)

/-- Whether a tract's block answers: its PLL is locked and no rail has stopped it (R446). -/
def State.tractServed (s : State) (t : Nat) : Bool := s.regBits (modReg .clkStat) (6 + t) (6 + t) == 1 && !s.dead t

/-- A host access that is refused or discarded: bar, offset, whether a write, its size, whether a poisoned TLP (R364, R413, R443). -/
def State.hostWin (s : State) (bar off : Nat) (write : Bool) (size : Nat) (bad : Bool) : State :=
  s.emit { s.recordM .hostWin with addr := off, detail := detailBytes [bar, b2n write, size, b2n bad] }

/-- The offset in BAR0 at which the host reaches a register; a parcel's lie in PWIN (R441, R450). -/
def State.barOffset (s : State) (k : RegKey) : Nat :=
  match k.r.row.scope with
  | .parcel => 0x18_0000 + k.r.row.offset + k.i * k.r.row.stride
  | _ => s.regPlace k

/-- A host write to a register: without effect before READY, refused where its tract does not answer (R446, R447). -/
def State.atReg (s : State) (k : RegKey) (size : Nat) (act : State → State) : State :=
  if !s.job.state.trains then s
  else if k.r.row.scope != .module && !s.tractServed k.t then s.hostWin 0 (s.barOffset k) true size false
  else act s

end Sys2Proof.Machine
end

