-- ==== Sys2Proof/Machine/CoreOps.lean ====
section
/-!
DEFINITION. A core's registers, its exceptions and the break of a gang, and issuing an instruction: the checks and stalls
of R26, R34, R37, R38 and R476 before an instruction takes effect.
-/
namespace Sys2Proof.Machine

/-- The outcome every meaning has: a next state. -/
abbrev Result := Host.Outcome State Fault Refusal

/-- g0 reads as 0 (Architectural registers of a core, R26). -/
def Core.getG (k : Core) (n : BitVec 5) : Word := if n = 0 then 0 else k.g[n.toNat]'(n.isLt)
/-- A write to g0 is discarded. -/
def Core.setG (k : Core) (n : BitVec 5) (v : Word) : Core :=
  if n = 0 then k else { k with g := k.g.set n.toNat v n.isLt }
def Core.getA (k : Core) (n : BitVec 4) : DWord := k.a[n.toNat]'(n.isLt)
def Core.setA (k : Core) (n : BitVec 4) (v : DWord) : Core := { k with a := k.a.set n.toNat v n.isLt }
/-- p0 reads as 1. -/
def Core.getP (k : Core) (n : BitVec 3) : Bool := if n = 0 then true else k.p[n.toNat]'(n.isLt)
/-- A write to p0 is discarded. -/
def Core.setP (k : Core) (n : BitVec 3) (v : Bool) : Core :=
  if n = 0 then k else { k with p := k.p.set n.toNat v n.isLt }
def Core.getAc (k : Core) (n : BitVec 3) : BitVec 16 := k.ac[n.toNat]'(n.isLt)
def Core.setAc (k : Core) (n : BitVec 3) (v : BitVec 16) : Core := { k with ac := k.ac.set n.toNat v n.isLt }

/-- A load or an ASTAT that is still to write a register no longer does so once a later instruction has written it (R26,
R93, assumption log 13). -/
def Core.supersede (k : Core) (r : CReg) : Core :=
  { k with
    loads := k.loads.map (fun l => { l with parts := l.parts.filter (fun q => q.reg ≠ r) })
    arr := { k.arr with queue := k.arr.queue.map (fun e =>
      match e.op with
      | .astat g clr => if r = .g g then { e with op := .astat 0 clr } else e
      | _ => e) } }

/-- An instruction writes a g-register. -/
def Core.putG (k : Core) (n : BitVec 5) (v : Word) : Core := (k.supersede (.g n)).setG n v
/-- An instruction writes an a-register. -/
def Core.putA (k : Core) (n : BitVec 4) (v : DWord) : Core := (k.supersede (.a n)).setA n v

/-- The instruction at PC is done; the next one lies n bytes on. -/
def Core.retire (k : Core) (n : Nat) : Core := { k with pc := k.pc + BitVec.ofNat 18 n, wait := none }

/-- The size g of a gang from the GANG field: 1, 2 or 4 (R86). -/
def gangSize (g : BitVec 2) : Nat := if g = 1 then 2 else if g = 2 then 4 else 1

/-- The members of the gang a core belongs to, in order of gang row and column (R75). -/
def gangMembers (c : CoreId) (g : Nat) : List CoreId :=
  let r0 := c.core.val / 8 / g * g
  let c0 := c.core.val % 8 / g * g
  (List.range (g * g)).filterMap fun i =>
    let n := (r0 + i / g) * 8 + (c0 + i % g)
    if h : n < 64 then some { c with core := ⟨n, h⟩ } else none

/-- The sticky flags as ASTAT returns them: four bits for each strip (R93). -/
def ArrState.flagWord (a : ArrState) : Nat :=
  (List.range 4).foldl (fun w i => w + ((a.flags[i]?).getD 0).toNat * 16 ^ i) 0

/-- What a break leaves of a member (R78): queued instructions discarded, a pending ASTAT answered with bit 31, the array
unconfigured, the fault kept for a later instruction. An ASTAT with CLR that a break answers clears nothing: whether it does the spec does not
say (DESIGN CHOICE, assumption log 23). -/
def Core.breakArray (k : Core) (f : GangFault) : Core :=
  let k := k.arr.queue.foldl (fun k e =>
    match e.op with
    | .astat g _ => k.setG g (BitVec.ofNat 32 (2 ^ 31 + k.arr.flagWord))
    | _ => k) k
  { k with arr := { ArrState.reset with fault := some f, flags := k.arr.flags, nextId := k.arr.nextId } }

/-- The cause codes of core exceptions; coreParity, a failed check of a core's own structures, has a class of its own and no code (R58, R410, R413). -/
inductive Cause where
  | illegal | fetchFault | align | spaceRange | spaceProtect | gaddr | poison | remoteErr | copyBad | markBad
  | plotNone | array | watchdog | trap | lsEcc | fetchParity | coreParity
  deriving DecidableEq, Repr

def Cause.code : Cause → Nat
  | .illegal => 0x01 | .fetchFault => 0x02 | .align => 0x03 | .spaceRange => 0x04 | .spaceProtect => 0x05
  | .gaddr => 0x06 | .poison => 0x07 | .remoteErr => 0x08 | .copyBad => 0x09 | .markBad => 0x0A | .plotNone => 0x0B
  | .array => 0x0C | .watchdog => 0x0D | .trap => 0x0E | .lsEcc => 0x0F | .fetchParity => 0x10
  | .coreParity => 0

/-- What an exception record carries beside its cause (R413). -/
structure ExcInfo where
  cause : Cause
  sub   : Nat := 0
  code  : Nat := 0
  addr  : Nat := 0
  w2    : Nat := 0
  w3    : Nat := 0
  deriving DecidableEq, Repr

/-- The CORE_FAULT record of a core at a PC, or the CORE_PARITY record, which names the structure alone (R58, R413). -/
def State.faultRecord (s : State) (c : CoreId) (pc : Nat) (i : ExcInfo) : ErrRec :=
  if i.cause = .coreParity then { s.recordC .coreParity 0 c with detail := detailBytes [0, i.sub] }
  else { s.recordC .coreFault 0 c with
    addr := i.addr
    detail := (detailBytes [i.cause.code, i.sub, i.code, 0]).take 4 ++ natLe 4 pc ++ natLe 4 i.w2 ++ natLe 4 i.w3 }

/-- Stops whose held tile a plot with RETRY re-runs (R423). -/
def Cause.retryable : Cause → Bool
  | .lsEcc | .fetchParity | .coreParity => true
  | _ => false

/-- What a stop on a re-runnable cause does with the tile its core holds in a plot with RETRY = 1 (R423): the record is
moved to the retry queue; a second stop of the same tile fails it. -/
def State.retryHeld (s : State) (c : CoreId) : State :=
  let p := coreParcel c
  match (s.parcel p).held.find? (fun q => q.1 = c.core) with
  | none => s
  | some (_, h) =>
    let s := s.modParcel p (fun v => { v with held := v.held.erase c.core })
    match h.first with
    | some _ => (s.emit (s.recordC .tileFailed 5 c)).suspect p
    | none =>
      s.modParcel p (fun v => { v with retries := v.retries ++ [{ desc := h.desc, first := c.core, audit := h.audit }] })

/-- Whether a core holds a tile (R176). -/
def State.holds (s : State) (c : CoreId) : Bool := (s.parcel (coreParcel c)).held.any (fun q => q.1 = c.core)

/-- A core stops: the record is emitted and the core stops, in SLEEP; what it has handed off goes on (R58 to R61, R423). -/
def State.stopOn (s : State) (c : CoreId) (pc : Nat) (i : ExcInfo) : State :=
  let re := i.cause.retryable && s.holds c && bitOf (s.plotReg (coreParcel c) .plotRel) 0
  let r := s.faultRecord c pc i
  let s := s.emit (if re then { r with sev := .error } else r)
  let s := s.modCore c (fun k => { k with run := .stopped, wait := none, pwr := .sleep })
  if re then s.retryHeld c else s

/-- Whether a wait is that of an instruction at which R78 raises the fault of a broken gang. -/
def Wait.raisesGang : Wait → Bool
  | .resource r => r == 1
  | .arrayGang => true
  | .fence mask => mask.getLsbD 3
  | .mbar _ _ _ _ => true
  | .remoteWait _ _ _ bar => bar
  | .halt => true
  | _ => false

/-- The fault a broken gang has left stops its core, and is spent (R78, R94). -/
def State.gangStop (s : State) (c : CoreId) (f : GangFault) : State :=
  let s := s.modCore c (fun k => { k with arr := { k.arr with fault := none } })
  s.stopOn c (s.core c).pc.toNat { cause := .array, sub := match f with
    | .broken => 0x08
    | .mismatch => 0x09 }

/-- The members ms of a gang break: their arrays return to the unconfigured state, and the fault is raised at once at a member
that stalls on an instruction of R78's list. -/
def State.breakMembers (s : State) (ms : List CoreId) (f : GangFault) : State :=
  let s := ms.foldl (fun s m => s.modCore m (fun k => k.breakArray f)) s
  ms.foldl (fun s m =>
    match (s.core m).wait with
    | some w => if w.raisesGang && (s.core m).run == .running then s.gangStop m f else s
    | none => s) s

/-- A formed gang breaks; the fault is GANG_MISMATCH where the members disagreed, GANG_BROKEN otherwise (R78). -/
def State.breakGang (s : State) (c : CoreId) (f : GangFault) : State :=
  match (s.core c).arr.cfg with
  | some cfg =>
    if (s.core c).arr.formed && gangSize cfg.gang > 1 then s.breakMembers (gangMembers c (gangSize cfg.gang)) f else s
  | none => s

/-- A core stops on an exception, and its gang breaks (R58, R78). -/
def State.exception (s : State) (c : CoreId) (pc : Nat) (i : ExcInfo) : State := (s.stopOn c pc i).breakGang c .broken

/-- A precise exception at the instruction at PC. -/
def State.raiseAt (s : State) (c : CoreId) (i : ExcInfo) : State := s.exception c (s.core c).pc.toNat i

/-- A deferred exception: the first of a core stops it, and its record carries the PC of the first instruction not
issued; a later one only adds its record (R59, R60). -/
def State.deferred (s : State) (c : CoreId) (pc : Nat) (i : ExcInfo) : State :=
  let i := { i with w2 := (s.core c).pc.toNat }
  if (s.core c).run == .running then s.exception c pc i else s.emit (s.faultRecord c pc i)

/-- Goes on with act unless a broken gang has left a fault (R78). -/
def State.orGangFault (s : State) (c : CoreId) (act : State → State) : State :=
  match (s.core c).arr.fault with
  | some f => s.gangStop c f
  | none => act s

/-- The registers that a load still outstanding will write. -/
def Core.loadOf (k : Core) (r : CReg) : Option OutLoad := k.loads.find? (fun l => l.parts.any (fun q => q.reg = r))

/-- The ASTAT still queued whose result a register awaits (R93). -/
def Core.astatOf (k : Core) (r : CReg) : Option ArrEntry :=
  k.arr.queue.find? fun e =>
    match e.op, r with
    | .astat g _, .g n => g = n && g ≠ 0
    | _, _ => false

/-- Whether an ASTAT is queued, which local store loads and copies wait for (R36, R93). -/
def Core.astatQueued (k : Core) : Option ArrEntry :=
  k.arr.queue.find? fun e =>
    match e.op with
    | .astat _ _ => true
    | _ => false

/-- The number of the register a stall names (R301). -/
def CReg.num : CReg → Nat
  | .g n => n.toNat
  | .a n => n.toNat

/-- The stall of an instruction that reads a register not yet written (R26). -/
def Core.operandWait (k : Core) : List CReg → Option Wait
  | [] => none
  | r :: rs =>
    match k.loadOf r with
    | some l => some (.operand l.addr l.pc r.num)
    | none =>
      match k.astatOf r with
      | some e => some (.astat e.pc)
      | none => k.operandWait rs

/-- Whether a wait lets the instruction at PC be issued again: only a stall on a resource, an operand or a gang (R26). -/
def Wait.reissues : Wait → Bool
  | .resource _ | .agent _ | .operand _ _ _ | .astat _ | .arrayGang => true
  | _ => false

/-- Whether the guard lets the instruction execute (R37). -/
def Core.guardOk (k : Core) (g : Guard) : Bool := k.getP g.pred != g.neg

/-- The guard 0b1000 is reserved (R37). -/
def guardBad (g : Guard) : Bool := g.neg && g.pred == 0

/-- The commons offsets of the words of an instruction of n bytes at PC. -/
def wordOffsets (pc n : Nat) : List Nat := if n = 8 then [pc, pc + 4] else [pc]

/-- The words the issue reads from the commons: those the buffer does not hold, or all of them where it let them go. -/
def Core.fetchedWords (k : Core) (i : Issue) (n : Nat) : List Nat :=
  (wordOffsets k.pc.toNat n).filter (fun o => i.fetch || !k.ibuf.any (fun q => q.1 = o))

/-- Whether a commons offset lies in the program region (R34). -/
def Core.inProgram (k : Core) (off : Nat) : Bool := k.progBase.toNat ≤ off && off < k.progLimit.toNat

/-- The word at a commons offset as an issue sees it: the buffer's, or the commons' where the buffer does not hold it or let it go (R56). -/
def State.wordAt (s : State) (i : Issue) (o : Nat) : Word :=
  match (if i.fetch then none else (s.core i.core).ibuf.find? (fun q => q.1 = o)) with
  | some q => q.2
  | none => BitVec.ofNat 32 (leNat (s.peek (commonsKey (coreParcel i.core) o) 4))

/-- The buffer after an issue: the words read join it, and the oldest leave beyond 512 words (R56). -/
def State.noteFetch (s : State) (i : Issue) (n : Nat) : State :=
  let k := s.core i.core
  let new := (k.fetchedWords i n).filter k.inProgram
  let all := k.ibuf.filter (fun q => !new.contains q.1) ++ new.map (fun o => (o, s.wordAt i o))
  s.modCore i.core (fun k => { k with ibuf := all.drop (all.length - 512) })

/-- Whether a core may issue: it runs, in RUN, and the instruction at PC is not one that waits. -/
def Core.mayIssue (k : Core) : Bool :=
  k.run == .running && k.pwr == .run &&
    match k.wait with
    | none => true
    | some w => w.reissues

/-- What becomes of an instruction before its own meaning runs. -/
inductive Issued where
  | idle
  | raise (c : Cause)
  | skip
  | stall (w : Wait)
  | go
  deriving DecidableEq, Repr

/-- Whether a word read from the commons meets a parity error or poison. -/
def State.fetchBad (s : State) (i : Issue) (n : Nat) : Bool :=
  let k := s.core i.core
  (k.fetchedWords i n).any (fun o => k.inProgram o && s.poisoned (commonsKey (coreParcel i.core) o) 4)

/-- The first structure of a core, of a list, whose check fails (R410). -/
def State.coreBad (s : State) (c : CoreId) (of : List Nat) : Option Nat := of.find? (fun n => s.up.badCores.contains (c, n))

/-- The checks of an issue: those of the register file, the instruction buffer and the ALU, on which no rule sets an order to the others
(DESIGN CHOICE, assumption log 63); then in the order of R476: fetch parity, program region, encoding; then the guard, then the operands
still awaited (R26, R34, R37, R38). n: bytes of the instruction; bad: an encoding check fails. A core of a retired parcel
or of a tract that a rail has stopped runs nothing (R389, R428). -/
def State.issueCheck (s : State) (i : Issue) (n : Nat) (bad : Bool) (reads : List CReg) : Issued :=
  let k := s.core i.core
  if !k.mayIssue || (s.parcel (coreParcel i.core)).health.retired || s.dead i.core.tract.val then .idle
  else if (s.coreBad i.core [0, 1, 4]).isSome then .raise .coreParity
  else if s.fetchBad i n then .raise .fetchParity
  else if !((wordOffsets k.pc.toNat n).all k.inProgram) then .raise .fetchFault
  else if bad || guardBad i.guard then .raise .illegal
  else if !k.guardOk i.guard then .skip
  else
    match k.operandWait reads with
    | some w => .stall w
    | none => .go

/-- Issues an instruction: its checks, then its own effect act on the state whose buffer holds its words. -/
def State.issue (s : State) (i : Issue) (n : Nat) (bad : Bool) (reads : List CReg) (act : State → State) : State :=
  match s.issueCheck i n bad reads with
  | .idle => s
  | .raise c =>
    let k := s.core i.core
    let s := (k.fetchedWords i n).foldl
      (fun s o => if k.inProgram o then s.touch (commonsKey (coreParcel i.core) o) 4 else s) s
    s.raiseAt i.core { cause := c, sub := if c = .coreParity then (s.coreBad i.core [0, 1, 4]).getD 0 else 0 }
  | .skip => (s.noteFetch i n).modCore i.core (fun k => k.retire n)
  | .stall w => (s.noteFetch i n).modCore i.core (fun k => { k with wait := some w })
  | .go => act (s.noteFetch i n)

/-- Whether the words at a core's PC spell an instruction (R37 to R39). -/
def State.spells (s : State) (i : Issue) (ins : Instr) : Bool :=
  let pc := (s.core i.core).pc.toNat
  decodeCore i (s.wordAt i pc) (s.wordAt i (pc + 4)) == some ins

/-- A row of a core instruction takes effect where the words at the core's PC spell it. Words that spell nothing raise ILLEGAL, whatever the
row (R38); words that spell another instruction leave the row without effect (assumption log 1). FETCH_PARITY and FETCH_FAULT of the base word
come first (R476). -/
def State.asSpelled (s : State) (i : Issue) (ins : Instr) (act : Result) : Result :=
  let k := s.core i.core
  let pc := k.pc.toNat
  let w := s.wordAt i pc
  if s.spells i ins || s.fetchBad i 4 || !k.inProgram pc then act
  else if (decodeCore i w (s.wordAt i (pc + 4))).isNone then .next (s.issue i (wordLen w) true [] id)
  else .next s

/-- An instruction whose effect is on its core's registers alone, after which the next one lies n bytes on. -/
def State.issueRegs (s : State) (i : Issue) (n : Nat) (bad : Bool) (reads : List CReg) (f : Core → Core) : State :=
  s.issue i n bad reads (fun s => s.modCore i.core (fun k => (f k).retire n))

/-- The instruction at PC stalls. -/
def State.stallAt (s : State) (c : CoreId) (w : Wait) : State := s.modCore c (fun k => { k with wait := some w })

end Sys2Proof.Machine
end

