-- ==== Sys2Proof/Machine/Marks.lean ====
section
/-!
DEFINITION. The mark unit of a parcel (R281 to R297): updates, waiters, barrier generations, frozen marks; and what a core
that waits does when what it waits for comes about (R51, R54, R56, R283).
-/
namespace Sys2Proof.Machine

/-- The memory key of mark n of a parcel (R281). -/
def markKey (p : ParcelId) (n : BitVec 10) : Nat := commonsKey p (markBase + 4 * n.toNat)

/-- The current word of a mark. -/
def State.markWord (s : State) (p : ParcelId) (n : BitVec 10) : Word :=
  BitVec.ofNat 32 (leNat (s.mem.read (markKey p n) 4))

/-- Has a counting mark of value v reached n, in the modular window (R283). -/
def reached (v n : Word) : Bool := (v - n).toNat < 2 ^ 31

/-- The participants of the enabled MARK_BCFG entry that names a mark, which makes it a barrier mark (R281, R286). -/
def State.barrierN (s : State) (p : ParcelId) (n : BitVec 10) : Option Nat :=
  (List.range 32).findSome? fun b =>
    let v := s.reg (parcelRegI .markBcfg p b)
    if bitOf v 10 && bitsOf v 9 0 == n.toNat then some (bitsOf v 27 16) else none

/-- Whether reading a mark's word meets a parity error, or the poison of its 16-byte unit (R297). -/
def State.markDamaged (s : State) (p : ParcelId) (n : BitVec 10) : Bool :=
  s.mem.poison.contains (unitBase (markKey p n)) || !(inside (markKey p n) 4 s.mem.par).isEmpty

/-- A discarded update of a frozen mark (R297). -/
def State.markParity (s : State) (p : ParcelId) (n : BitVec 10) : State :=
  (s.raise (parcelReg .markStat p) 15).emit
    { s.recordP .markParity 6 p with detail := detailWords [n.toNat] }

/-- The parcel's mark unit freezes a mark. -/
def State.freeze (s : State) (p : ParcelId) (n : BitVec 10) : State :=
  (s.modParcel p (fun v => { v with frozen := if v.frozen.contains n then v.frozen else v.frozen ++ [n] })).markParity p n

/-- Writes a mark's word. -/
def State.putMark (s : State) (p : ParcelId) (n : BitVec 10) (w : Word) : State :=
  { s with mem := { s.mem with bytes := putBytes s.mem.bytes (markKey p n) (natLe 4 w.toNat) } }

/-- The response message to a request (R354): its data, unless the request is posted, and the mask of its poisoned units. -/
def rspMsg (m : MemMsg) (r : Response) : MemMsg :=
  let data := if m.posted then [] else r.data
  { m with mt := if data.isEmpty then 9 else 8, op := 0, status := r.status, hop := 0, data := data,
           len := data.length, pmask := if data.isEmpty then 0 else r.poison % 256 }

/-- The address bits a message's port is picked by (R255). -/
def msgHash (m : MemMsg) : Nat := if m.dord then m.addr / 2 ^ 37 else m.addr / 128

/-- A response leaves for the module that issued its request, by the rule of R255 applied from here; where the route table has no port that is
up for it, by the port the request came by (DESIGN CHOICE, assumption log 47). via: the port the response came by, where this module relays it. -/
def State.sendResponseFrom (s : State) (via : Option Port) (p : Port) (m : MemMsg) : State :=
  match s.route m.smod (msgHash m) with
  | .inl o => s.sendFrom via (.memory (if h : o < 16 then ⟨o, h⟩ else p) m)
  | .inr _ => s.sendFrom via (.memory p m)
def State.sendResponse (s : State) (p : Port) (m : MemMsg) : State := s.sendResponseFrom none p m

/-- The answer of a home agent or a mark unit reaches the request agent of this module, or leaves for another module (R255, R258). -/
def State.answer (s : State) (src : RemoteSrc) (r : Response) : State :=
  match src with
  | .agent t gen =>
    s.modFab t (fun f => { f with ra := f.ra.map (fun e => if e.gen = gen then { e with stage := .answered r } else e) })
  | .link m p => s.sendResponse p (rspMsg m r)

/-- An answer without data. -/
def okResponse : Response := { status := 0, data := [], poison := 0 }
def statusResponse (st : Nat) : Response := { status := st, data := [], poison := 0 }

/-- Which conditions of a SLEEP hold: TILE, LAND, ARRIVE, MARK, as the mask has them enabled (R54); a frozen or damaged mark releases no one
(R297). -/
def State.sleepHolds (s : State) (c : CoreId) (mask thr : Word) : Word :=
  let k := s.core c
  let v := s.parcel (coreParcel c)
  let tile := !v.tiles.isEmpty || v.retries.any (fun r => r.first ≠ c.core) ||
    v.audits.any (fun e => e.ready && !e.taken.contains c.core)
  let m : BitVec 10 := mask.extractLsb' 16 10
  let mark := reached (s.markWord (coreParcel c) m) thr && !(v.frozen.contains m || s.markDamaged (coreParcel c) m)
  mask &&& BitVec.ofNat 32 (b2n tile + 2 * b2n k.land + 4 * b2n k.arrive + 8 * b2n mark)

/-- SLEEP returns: it writes the conditions that held and clears the latches (R54). -/
def Core.sleepReturn (k : Core) (dst : BitVec 5) (held : Word) : Core :=
  ({ k.putG dst held with land := false, arrive := false }).retire 4

/-- A core in SLEEP returns as soon as an enabled condition holds (R54). -/
def State.sleepCheck (s : State) (c : CoreId) : State :=
  match (s.core c).wait with
  | some (.sleep dst mask thr) =>
    let held := s.sleepHolds c mask thr
    if held.extractLsb' 0 4 = 0 then s else s.modCore c (fun k => k.sleepReturn dst (held &&& 0xF))
  | _ => s

/-- The Transit engine has landed data of the parcel: each of its cores latches LAND, and a SLEEP that waits for it returns (R54). DEDUCED: the
cores that the state lists; one that nothing has touched is halted, and a START clears its latches (assumption log 65). -/
def State.noteLand (s : State) (p : ParcelId) : State :=
  (s.coresOf p).foldl (fun s c => (s.modCore c (fun k => { k with land := true })).sleepCheck c) s

/-- The cores of a tract in DEEP that lend their credit to the pool: those whose plots permit it (R302, R381). -/
def State.lenders (s : State) (t : Tract) : Nat :=
  ((s.listedParcels t).map (fun p =>
    if bitOf (s.plotReg p .plotPwr) 0 && bitOf (s.plotReg p .plotPwr) 1 then
      ((s.coresOf p).filter (fun c => (s.core c).pwr = .deep)).length else 0)).sum

/-- A wake from DEEP takes the core's credit back from the pool before the core resumes (R302, R385). -/
def State.reclaim (s : State) (t : Tract) : State :=
  let w := s.tpwr t
  let pool := min w.pool (s.lenders t * w.lend)
  if pool = w.pool then s
  else (s.modTpwr t (fun w => { w with pool := pool })).setRegBits (modRegI .tractPwr t.val) 32 22 (min 2047 (pool / 1000000))

/-- Whether generation t has released: the barrier's generation has passed it by 1 to 128 (R291). -/
def generationOut (w : Word) (t : BitVec 8) : Bool :=
  let d := (w.setWidth 8 - t).toNat
  decide (1 ≤ d ∧ d ≤ 128)

/-- Whether a wait on a mark is met by its word. One for a generation stays where the mark is no longer a barrier's (R293). -/
def waitMet (w : Word) (barrier : Bool) : MarkOp → Bool
  | .wait thr => reached w thr
  | .barWait t => barrier && generationOut w t
  | _ => false

/-- A core that waits on a mark is released by the mark's word w (R284, R291); one that waits for a generation stays where the mark is no longer
a barrier's (R293). -/
def Core.markRelease (k : Core) (n : BitVec 10) (w : Word) (barrier : Bool) : Core :=
  match k.wait with
  | some (.mwait m thr) => if m = n && reached w thr then k.retire 4 else k
  | some (.mbar m opd .counted _) => if m = n && barrier && generationOut w (opd.setWidth 8) then k.retire 4 else k
  | _ => k

/-- After an update the mark unit releases every waiter whose condition holds: cores, remote waits, chain entries (R284). -/
def State.releaseWaiters (s : State) (p : ParcelId) (n : BitVec 10) : State :=
  let w := s.markWord p n
  let bar := (s.barrierN p n).isSome
  let s := (s.coresOf p).foldl (fun s c =>
    let s := s.modCore c (fun k => k.markRelease n w bar)
    match (s.core c).wait with
    | some (.sleep _ mask _) =>
      if bitOf mask.toNat 3 && mask.extractLsb' 16 10 = n then s.sleepCheck c else s
    | _ => s) s
  let out := (s.parcel p).rwaits.filter (fun r => r.mark = n && waitMet w bar r.op)
  let s := s.modParcel p (fun v => { v with rwaits := v.rwaits.filter (fun r => !(r.mark = n && waitMet w bar r.op)) })
  let s := out.foldl (fun s r => s.answer r.src okResponse) s
  { s with engWaits := s.engWaits.map (fun q => (q.1,
      if q.2.key = markKey p n && reached w q.2.thr then { q.2 with met := true } else q.2)) }

/-- One update of a counting mark, or its discard where the mark is frozen or its word is damaged (R282, R284, R297). -/
def State.markUpdate (s : State) (p : ParcelId) (n : BitVec 10) (f : Word → Word) : State :=
  if (s.parcel p).frozen.contains n || s.markDamaged p n then s.freeze p n
  else (s.putMark p n (f (s.markWord p n))).releaseWaiters p n

/-- A unit's addition aimed at a barrier mark of a parcel is discarded (R292); no rule names an address for its record (R413). -/
def State.typeError (s : State) (p : ParcelId) : State := (s.raise (parcelReg .markStat p) 16).emit (s.recordP .markType 6 p)

/-- An addition to a mark by a copy's landing, a DONE, a chain entry, the step boundary or the host (R281, R292). -/
def State.markAdd (s : State) (p : ParcelId) (n : BitVec 10) (v : Word) : State :=
  if (s.barrierN p n).isSome then s.typeError p else s.markUpdate p n (fun w => w + v)

/-- The fields of a barrier word (R287). -/
def barArrived (w : Word) : Nat := bitsOf w.toNat 19 8
def barAhead (w : Word) : Nat := bitsOf w.toNat 31 20
def barWord (gen : BitVec 8) (arrived ahead : Nat) : Word :=
  BitVec.ofNat 32 (gen.toNat + (arrived % 4096) * 2 ^ 8 + (ahead % 4096) * 2 ^ 20)

/-- What the mark unit does with an arrival (R289). -/
inductive Arrival where
  | counted (w : Word)
  | held
  | refused
  deriving DecidableEq, Repr

/-- The handling of an arrival by d = (TAG - GEN) mod 256 (R289). -/
def arrival (w : Word) (n : Nat) (tag : BitVec 8) : Arrival :=
  let gen : BitVec 8 := w.setWidth 8
  match (tag - gen).toNat with
  | 0 => .counted (barWord gen (barArrived w + 1) (barAhead w))
  | 1 => if barAhead w < n then .counted (barWord gen (barArrived w) (barAhead w + 1)) else .held
  | 2 => .held
  | _ => .refused

/-- The release of the generation that is full, and of the next where it is full too (R290): GEN rises by one, ARRIVED takes
AHEAD, AHEAD becomes 0, as one update each. -/
def State.barRelease (s : State) (p : ParcelId) (n : BitVec 10) (parts : Nat) : Nat → State × Bool
  | 0 => (s, false)
  | fuel + 1 =>
    let w := s.markWord p n
    if barArrived w = parts then
      let s := (s.putMark p n (barWord (w.setWidth 8 + 1) (barAhead w) 0)).releaseWaiters p n
      ((s.barRelease p n parts fuel).1, true)
    else (s, false)

/-- An arrival of a core or a remote source has been counted: an ARRIVE is done, an ARRIVE_WAIT waits for its generation. -/
def State.arrivalCounted (s : State) (p : ParcelId) (h : HeldArrival) : State :=
  let w := s.markWord p h.mark
  match h.src with
  | .core c =>
    s.modCore (parcelCore p c) (fun k =>
      match k.wait with
      | some (.mbar m opd _ nd) =>
        if m ≠ h.mark then k
        else if h.wait && !generationOut w h.tag then { k with wait := some (.mbar m opd .counted nd) }
        else k.retire 4
      | _ => k)
  | .remote r =>
    if h.wait && !generationOut w h.tag then
      s.modParcel p (fun v => { v with
        rwaits := v.rwaits ++ [{ src := r, mark := h.mark, op := .barWait h.tag, order := h.order }] })
    else s.answer r okResponse

/-- An arrival that R289 refuses: MARK_BAD at the issuing core, PROTECT for a remote source (R292, R294, R296). -/
def State.arrivalRefused (s : State) (p : ParcelId) (h : HeldArrival) : State :=
  match h.src with
  | .core c => s.raiseAt (parcelCore p c) { cause := .markBad, addr := s.globalOf (markKey p h.mark) }
  | .remote r => s.answer r (statusResponse 2)

/-- Re-evaluates the held arrivals of a mark in order, and the releases that follow, until nothing more fits (R289, R290). -/
def State.barSettle (s : State) (p : ParcelId) (n : BitVec 10) (parts : Nat) : Nat → State
  | 0 => s
  | fuel + 1 =>
    let s := (s.barRelease p n parts 3).1
    match (s.parcel p).heldArr.find? (fun h => h.mark = n && arrival (s.markWord p n) parts h.tag ≠ .held) with
    | none => s
    | some h =>
      let s' := s.modParcel p (fun v => { v with heldArr := dropFirst (fun x => x == h) v.heldArr })
      match arrival (s.markWord p n) parts h.tag with
      | .counted w => ((s'.putMark p n w).arrivalCounted p h).barSettle p n parts fuel
      | .refused => (s'.arrivalRefused p h).barSettle p n parts fuel
      | .held => s

/-- An arrival reaches the mark unit (R289 to R292). A frozen or damaged mark discards it, and nothing is released (R297). -/
def State.arrive (s : State) (p : ParcelId) (h : HeldArrival) : State :=
  match s.barrierN p h.mark with
  | none => s.arrivalRefused p h
  | some parts =>
    if (s.parcel p).frozen.contains h.mark || s.markDamaged p h.mark then s.freeze p h.mark
    else
      match arrival (s.markWord p h.mark) parts h.tag with
      | .refused => s.arrivalRefused p h
      | .held =>
        let s := s.modParcel p (fun v => { v with heldArr := v.heldArr ++ [h] })
        match h.src with
        | .core c =>
          s.modCore (parcelCore p c) (fun k =>
            match k.wait with
            | some (.mbar m opd _ nd) => { k with wait := some (.mbar m opd .held nd) }
            | _ => k)
        | _ => s
      | .counted w =>
        let s := (s.putMark p h.mark w).arrivalCounted p h
        s.barSettle p h.mark parts ((s.parcel p).heldArr.length + 2)

/-- The KIND of an MBAR operand (R288). -/
def barKind (opd : Word) : BitVec 2 := opd.extractLsb' 8 2

/-- An MBAR whose release conditions are met acts on its mark (R289, R291); one whose mark is no longer a barrier's raises MARK_BAD, as it would
have at issue (R50, R292). -/
def State.mbarAct (s : State) (c : CoreId) (n : BitVec 10) (opd : Word) (nd : Needs) : State :=
  let p := coreParcel c
  let s := s.modCore c (fun k => { k with wait := some (.mbar n opd .counted nd) })
  if (s.barrierN p n).isNone then s.raiseAt c { cause := .markBad, addr := s.globalOf (markKey p n) }
  else if barKind opd = 2 then
    if generationOut (s.markWord p n) (opd.setWidth 8) && !((s.parcel p).frozen.contains n || s.markDamaged p n) then
      s.modCore c (fun k => k.retire 4)
    else s
  else s.arrive p { mark := n, tag := opd.setWidth 8, wait := barKind opd = 0, src := .core c.core, order := 0 }

/-- Whether what a release waits for is still open: an entry of the request agent not completed, an array entry still in
the queue (R51). -/
def State.needsOpen (s : State) (c : CoreId) (nd : Needs) : Bool :=
  nd.gens.any (fun g => (s.fab c.tract).ra.any (fun e => e.gen = g)) ||
    nd.arrs.any (fun a => (s.core c).arr.queue.any (fun e => e.id = a))

/-- Stores and atomics of a core still open at the request agent (R26, R57). -/
def State.storesOpen (s : State) (c : CoreId) : Nat :=
  ((s.fab c.tract).ra.filter (fun e =>
    e.src == .core c && match e.op with
      | .store _ | .atom _ _ _ _ => true
      | _ => false)).length

/-- The bits of a FENCE mask whose conditions are still open (R56). -/
def State.fenceOpen (s : State) (c : CoreId) (mask : BitVec 8) : Nat :=
  let k := s.core c
  let loads (sp : Nat) : Bool := k.loads.any (fun l => l.space == sp)
  let bit (i : Nat) (b : Bool) : Nat := if bitOf mask.toNat i && b then 2 ^ i else 0
  bit 0 (loads 1) + bit 1 (loads 2) + bit 2 (loads 3 || s.storesOpen c != 0) + bit 3 (!k.arr.queue.isEmpty) +
    bit 4 (!k.copies.isEmpty)

/-- CWAIT's condition: the counter has reached or passed its target, within 2^15 (R47). -/
def counterReached (ac target : BitVec 16) : Bool := (ac - target).toNat < 2 ^ 15

/-- A FENCE whose conditions hold is done; with IF it invalidates the buffer (R56). -/
def Core.fenceDone (k : Core) (mask : BitVec 8) : Core :=
  let k := k.retire 4
  if bitOf mask.toNat 5 then { k with ibuf := [] } else k

/-- Performs the release additions of a core whose conditions hold (R51). -/
def State.settleRels (s : State) (c : CoreId) : List HeldRel → State
  | [] => s
  | r :: rs =>
    let s :=
      if s.needsOpen c r.needs then s
      else (s.modCore c (fun k => { k with rels := dropFirst (fun x => x == r) k.rels })).markAdd r.parcel r.mark r.value
    s.settleRels c rs

/-- Lets a core go on with what its events allow: release additions, then the instruction it waits at (R47, R51, R54, R56). -/
def State.settle (s : State) (c : CoreId) : State :=
  let s := s.settleRels c (s.core c).rels
  match (s.core c).wait with
  | some (.mbar n opd .releasing nd) => if s.needsOpen c nd then s else s.mbarAct c n opd nd
  | some (.cwait ac target) =>
    if counterReached ((s.core c).getAc ac) target then s.modCore c (fun k => k.retire 4) else s
  | some (.fence mask) => if s.fenceOpen c mask = 0 then s.modCore c (fun k => k.fenceDone mask) else s
  | some (.sleep _ _ _) => s.sleepCheck c
  | _ => s

end Sys2Proof.Machine
end

