-- ==== Sys2Proof/Machine/Agent.lean ====
section
/-!
DEFINITION. The request agent of a tract (R254 to R266, R274 to R276): entries, what holds them, the route to another
module; atomics (R43); replica areas (R151, R154).
-/
namespace Sys2Proof.Machine

/-- A two's complement number from its bits. -/
def toSigned (bits v : Nat) : Int := if v < 2 ^ (bits - 1) then (v : Int) else (v : Int) - 2 ^ bits

/-- The new value of a location of the given width under an atomic (R43). OP 9 is CAS. -/
def atomNew (op : Nat) (w64 : Bool) (m opd cmp : Nat) : Nat :=
  let bits := if w64 then 64 else 32
  match op with
  | 0 => (m + opd) % 2 ^ bits
  | 1 => m ||| opd
  | 2 => m &&& opd
  | 3 => m ^^^ opd
  | 4 => max m opd
  | 5 => min m opd
  | 6 => if toSigned bits m < toSigned bits opd then opd else m
  | 7 => if toSigned bits opd < toSigned bits m then opd else m
  | 8 => opd
  | _ => if m = cmp then opd else m

/-- Bytes an atomic covers. -/
def atomSize (w64 : Bool) : Nat := if w64 then 8 else 4

/-- The lines of an enabled region that a run of n bytes at a key of its home covers, as (region, line) pairs (R151). -/
def State.regionLines (s : State) (key n : Nat) : List (Nat × Nat) :=
  if n = 0 then []
  else
    (List.range 16).flatMap fun i =>
      match s.replRegion i with
      | some r =>
        if key < r.home + r.len && r.home < key + n then
          let lo := (max key r.home - r.home) / 128
          let hi := (min (key + n) (r.home + r.len) - 1 - r.home) / 128
          tabulate (hi + 1 - lo) (fun j => (i, lo + j))
        else []
      | none => []

/-- The replica lines of a written run become invalid in every tract (R153). -/
def State.staleLines (s : State) (key n : Nat) : State :=
  match s.regionLines key n with
  | [] => s
  | ls => { s with fabs := s.fabs.map (fun q => (q.1, { q.2 with replOk := q.2.replOk.filter (fun l => !ls.contains l) })) }

/-- The request agent's record of a write to a replica area (R154); no rule names an address for it (R413). -/
def State.replicaRecord (s : State) (t : Tract) (key : Nat) : State := s.emit (s.recordAt .replicaProtect 12 t key)

/-- The record of a home agent that refuses a store or an atomic aimed at a hardware-owned region or a control window (R150); no rule names an address for it (R413). -/
def State.haProtect (s : State) (t : Tract) (key : Nat) : State := s.emit (s.recordAt .haProtect 13 t key)

/-- Entries of cores, and those of an engine beyond its own 256, use the 3,072 shared entries (R266). -/
def State.raShared (s : State) (t : Tract) : Nat :=
  let ra := (s.fab t).ra
  let eng (e : Engine) : Nat := (ra.filter (fun x => x.src == .engine e)).length - 256
  (ra.filter (fun x => match x.src with
    | .core _ => true
    | _ => false)).length + eng .dispatcher + eng .mover + eng .transit + eng .vector

/-- Whether the request agent has no entry for a core (R26, R266), or fewer than n. -/
def State.raFull (s : State) (t : Tract) : Bool := decide (3072 ≤ s.raShared t)
def State.raShort (s : State) (t : Tract) (n : Nat) : Bool := decide (3072 < s.raShared t + n)

/-- Whether the request agent has n entries for an engine: of its own 256, or of the shared ones (R266). -/
def State.engRoom (s : State) (t : Tract) (e : Engine) (n : Nat) : Bool :=
  let own := ((s.fab t).ra.filter (fun x => x.src == .engine e)).length
  decide (s.raShared t + (own + n - max own 256) ≤ 3072)

/-- The runs of a copy's or an engine's operation, and whether it writes them. -/
def FabOp.runs : FabOp → List (Nat × Nat)
  | .copyEnd rs _ | .engine _ _ rs _ => rs
  | _ => []
def FabOp.isData : FabOp → Bool
  | .copyEnd _ _ | .engine _ _ _ _ => true
  | _ => false
def FabOp.writesData : FabOp → Bool
  | .copyEnd _ w | .engine _ _ _ w => w
  | _ => false

/-- The 128-byte lines a run of bytes touches, each with the part of the run in it. -/
def lineRuns (ga n : Nat) : List (Nat × Nat) :=
  if n = 0 then []
  else tabulate ((ga + n - 1) / 128 - ga / 128 + 1) (fun i =>
    let lo := max ga ((ga / 128 + i) * 128)
    (lo, min (ga + n) ((ga / 128 + i + 1) * 128) - lo))

/-- The parts of runs that lie on other modules, line by line. -/
def State.foreignLines (s : State) (rs : List (Nat × Nat)) : List (Nat × Nat) :=
  (rs.filter (fun q => !s.isOwn q.1)).flatMap (fun q => lineRuns q.1 q.2)

/-- The entries of a source that are stores or atomics, which a later flag of it waits for (R263). -/
def State.storeGens (s : State) (t : Tract) (src : RaSrc) : List Nat :=
  ((s.fab t).ra.filter (fun e => e.src == src && match e.op with
    | .store _ | .atom _ _ _ _ => true
    | _ => false)).map (fun e => e.gen)

/-- What an operation of a core must wait for at the agent (R51, R263, R265): a flag of a flag-store class waits for the
core's earlier stores and atomics, and so does a mark operation with release semantics in both modes, which waits for the
core's earlier array entries too. -/
def State.raNeeds (s : State) (c : CoreId) (cls : Nat) (op : FabOp) : Needs :=
  match op with
  | .mark (.wait _) =>
    if s.destOrder cls then { gens := [], arrs := [] } else { gens := s.storeGens c.tract (.core c), arrs := [] }
  | .mark _ => { gens := s.storeGens c.tract (.core c), arrs := (s.core c).arr.queue.map (fun e => e.id) }
  | .atom _ _ _ _ =>
    if s.destOrder cls then { gens := [], arrs := [] }
    else { gens := s.storeGens c.tract (.core c), arrs := [] }
  | _ => { gens := [], arrs := [] }

/-- Whether an operation is a flag (R263, R294): an atomic or a mark operation in a flag-store class. -/
def State.isFlag (s : State) (cls : Nat) (op : FabOp) : Bool :=
  !s.destOrder cls && match op with
    | .atom _ _ _ _ | .mark _ => true
    | _ => false

/-- The bits the hash of R255 takes: the 128-byte line, or the target's module, tract and parcel in a destination-order
class. -/
def State.hashBits (s : State) (cls addr : Nat) : Nat :=
  if s.destOrder cls then addr / 2 ^ 37 else addr / 128

/-- The request message of an entry (R354). -/
def State.reqMsg (s : State) (t : Tract) (e : RaEntry) : MemMsg :=
  let base : MemMsg :=
    { mt := 1, op := 0, flag := e.flag, dord := s.destOrder e.cls, posted := e.posted, w64 := false,
      epoch := s.fabric.epoch, hop := 0, status := 0, smod := s.job.moduleId.toNat, stract := t.val,
      tag := e.tag + 4096 * (e.gen % 16), addr := e.addr, opd := 0, cmp := 0, len := 0, pmask := 0, data := [] }
  match e.op with
  | .load n => { base with len := n }
  | .store d => { base with mt := 2, len := d.length, data := d }
  | .atom op w64 opd cmp =>
    if op = 9 then { base with mt := 4, w64 := w64, opd := opd, cmp := cmp, len := atomSize w64 }
    else { base with mt := 3, op := op, w64 := w64, opd := opd, len := atomSize w64 }
  | .mark (.add v) => { base with mt := 5, op := 0, opd := v.toNat }
  | .mark (.sub v) => { base with mt := 5, op := 1, opd := v.toNat }
  | .mark (.wait thr) => { base with mt := 5, op := 2, opd := thr.toNat }
  | .mark (.arrive tag w) => { base with mt := 5, op := 3, opd := tag.toNat + (if w then 0 else 256) }
  | .mark (.barWait tag) => { base with mt := 5, op := 3, opd := tag.toNat + 512 }
  | .signal v => { base with mt := 5, op := 0, opd := v.toNat }
  | .copyEnd _ _ | .engine _ _ _ _ => base

/-- The message of an entry for a part of a line: a load, or a store of its bytes with the mask of the poisoned units (R148, R354). -/
def State.lineMsg (s : State) (t : Tract) (e : RaEntry) (a n : Nat) (data : Option (List Byte × Nat)) : MemMsg :=
  let base := { s.reqMsg t e with addr := a, len := n }
  match data with
  | none => base
  | some d => { base with mt := 2, data := d.1, pmask := d.2 % 256 }

/-- Whether an operation has a part for another module. -/
def State.raForeign (s : State) (e : RaEntry) : Bool :=
  if e.op.isData then e.op.runs.any (fun q => q.2 != 0 && !s.isOwn q.1) else !s.isOwn e.addr

/-- Whether an operation is ordered after an earlier one of the same source and class: both reach one 128-byte line or, in a destination-order
class, one target parcel (R262, R264). The ends of copies and the operations of engines hold nothing up themselves: a copy lands in any order
(R45, R46). -/
def State.raAfter (s : State) (x e : RaEntry) : Bool :=
  let unit : Nat := if s.destOrder e.cls then 2 ^ 37 else 128
  x.gen < e.gen && x.src == e.src && x.cls == e.cls && !x.op.isData &&
    if e.op.isData then
      e.op.runs.any (fun q => q.2 != 0 && q.1 / unit ≤ x.addr / unit && x.addr / unit ≤ (q.1 + q.2 - 1) / unit)
    else x.addr / unit == e.addr / unit

/-- Whether an operation it must follow is still held: what goes to another module leaves in issue order (R262, R264). -/
def State.raBehind (s : State) (t : Tract) (e : RaEntry) : Bool :=
  s.raForeign e && (s.fab t).ra.any (fun x => x.stage == .held && s.raAfter x e)

/-- Whether an operation it must follow has yet to take effect at a home agent of the module (R262). For a load that a replica would serve, one
whose replicas are still being invalidated has not taken effect. -/
def State.haBlocked (s : State) (t : Tract) (e : RaEntry) (replica : Bool) : Bool :=
  (s.fab t).ra.any (fun x => (x.stage == .held || x.stage == .ready || (replica && x.stage == .home)) && s.raAfter x e)

/-- Whether an entry is still held: a predecessor or an array entry of its core is open, or it goes to another module while
an epoch advance runs, or behind one that is held (R51, R262 to R264, R276). -/
def State.raHeld (s : State) (t : Tract) (e : RaEntry) : Bool :=
  e.preds.any (fun g => (s.fab t).ra.any (fun x => x.gen = g)) ||
    (match e.src with
      | .core c => e.arrs.any (fun a => (s.core c).arr.queue.any (fun x => x.id = a))
      | _ => false) ||
    (s.raForeign e && s.fabric.advancing) || s.raBehind t e

/-- Replaces the entry of a number. -/
def State.setEntry (s : State) (t : Tract) (gen : Nat) (f : RaEntry → RaEntry) : State :=
  s.modFab t (fun v => { v with ra := v.ra.map (fun e => if e.gen = gen then f e else e) })

/-- A message for another module leaves on the port of its route entry (R255). -/
def State.sendRouted (s : State) (m : MemMsg) : State :=
  match s.route (gaModule m.addr) (msgHash m) with
  | .inl p => if h : p < 16 then s.send (.memory ⟨p, h⟩ m) else s
  | .inr _ => s

/-- Where a line goes: a port, or a status (R31, R256). -/
def State.lineRoute (s : State) (cls a : Nat) : Sum Nat Nat :=
  if !s.inJob (gaModule a) then .inr 4 else s.route (gaModule a) (s.hashBits cls a)

/-- The operation of a copy's end or of an engine goes on: with every line for another module routed, its loads leave, and its stores leave with
their data; what lies on this module awaits its home agents. -/
def State.raSendData (s : State) (t : Tract) (e : RaEntry) : State :=
  let lines := s.foreignLines e.op.runs
  let ways := lines.map (fun q => s.lineRoute e.cls q.1)
  match ways.findSome? (fun w => match w with
    | .inr st => some st
    | .inl _ => none) with
  | some st => s.setEntry t e.gen (fun e => { e with stage := .answered (statusResponse st) })
  | none =>
    if lines.isEmpty then s.setEntry t e.gen (fun e => { e with stage := .ready })
    else
      let ports := (ways.filterMap (fun w => match w with
        | .inl p => some p
        | .inr _ => none)).eraseDups
      let s := s.setEntry t e.gen (fun e => { e with stage := .away ports, epoch := s.fabric.epoch })
      if e.op.writesData then s else lines.foldl (fun s q => s.sendRouted (s.lineMsg t e q.1 q.2 none)) s

/-- An entry that is no longer held goes on (R31, R154, R256, R274): DEP, NOMOD, REPLICA_PROTECT or LINK are decided here, an
operation for another module leaves on its port, one for this module awaits its home agent. -/
def State.raSend (s : State) (t : Tract) (e : RaEntry) : State :=
  let done (st : Nat) (s : State) : State := s.setEntry t e.gen (fun e => { e with stage := .answered (statusResponse st) })
  let writes : Nat := match e.op with
    | .store d => d.length
    | .atom _ w64 _ _ => atomSize w64
    | _ => 0
  if e.op.isData then s.raSendData t e
  else if e.flag && e.failed then done 7 s
  else if s.isOwn e.addr then
    if writes ≠ 0 && s.inReplica (e.addr % 2 ^ 52) writes then done 3 (s.replicaRecord t (e.addr % 2 ^ 52))
    else s.setEntry t e.gen (fun e => { e with stage := .ready })
  else
    match s.lineRoute e.cls e.addr with
    | .inr st => done st s
    | .inl p =>
      let s := s.setEntry t e.gen (fun e => { e with stage := .away [p], epoch := s.fabric.epoch })
      s.sendRouted (s.reqMsg t e)

/-- Lets every entry of a tract's agent that is no longer held go on. -/
def State.raPump (s : State) (t : Tract) : State :=
  (s.fab t).ra.foldl (fun s e =>
    match e.stage with
    | .held => if s.raHeld t e then s else s.raSend t e
    | _ => s) s

/-- The lowest place of the agent that is free. -/
def freeTag (ra : List RaEntry) : Nat := ((List.range 4096).find? (fun n => ra.all (fun e => e.tag ≠ n))).getD 0

/-- An operation enters the request agent, counted in FAB_CL.ISSUED (R254, R277), and goes on where nothing holds it. -/
def State.raIssue (s : State) (t : Tract) (src : RaSrc) (cls addr : Nat) (op : FabOp) (posted : Bool) (nd : Needs) :
    State × Nat :=
  let f := s.fab t
  let e : RaEntry :=
    { tag := freeTag f.ra, gen := f.nextGen, src := src, cls := cls, addr := addr, op := op, posted := posted,
      flag := s.isFlag cls op, preds := nd.gens, arrs := nd.arrs, failed := false, epoch := s.fabric.epoch,
      stage := .held, stamp := s.fabric.stamp }
  let s := { s with fabric := { s.fabric with stamp := s.fabric.stamp + 1 } }
  let s := s.setFab t { f with ra := f.ra ++ [e], nextGen := f.nextGen + 1 }
  let s := s.bumpReg (tractReg .fabCl t) 31 0 1
  let s := if s.isOwn e.addr && (keyParcel (e.addr % 2 ^ 52)).any (fun p => p.tract = t) then s else s.checkUnit t .mesh
  (if s.raHeld t e then s else s.raSend t e, e.gen)

/-- An operation completes at its request agent (R258, R260, R274, R277): its entry is freed, FAB_CL.DONE and, for a status
other than OK, ERRS count it; entries that wait for it note a failure. -/
def State.raFinish (s : State) (t : Tract) (gen status : Nat) : State :=
  let s := s.modFab t (fun f => { f with
    ra := (f.ra.filter (fun e => e.gen ≠ gen)).map (fun e =>
      if status ≠ 0 && e.preds.contains gen then { e with failed := true } else e) })
  let s := s.bumpReg (tractReg .fabCl t) 63 32 1
  let s := if status = 0 then s else s.bumpReg (tractReg .fabStat t) 47 32 1
  if status = 5 then s.raise (tractReg .fabStat t) 48 else s

/-- A home agent accepts a request (R277). RETIRED is what a read computes: ACCEPTED less the entries in use. -/
def State.homeCount (s : State) (t : Tract) : State :=
  (s.modFab t (fun f => { f with turns := f.turns + 1 })).bumpReg (tractReg .fabHcl t) 31 0 1

/-- The tract whose home agent serves an entry: a copy's end, and one operation of an engine's entry, lie in one tract (assumption log 48). -/
def RaEntry.homeTract (e : RaEntry) : Option Tract :=
  let a := match e.op.runs with
    | q :: _ => q.1
    | [] => e.addr
  if h : gaTract a < 12 then some ⟨gaTract a, h⟩ else none

/-- Held arrivals of remote sources at a parcel, of ARRIVE_WAIT or of ARRIVE (R289). -/
def State.heldRemote (s : State) (p : ParcelId) (wait far : Bool) : Nat :=
  ((s.parcel p).heldArr.filter (fun h => h.wait == wait && match h.src with
    | .remote r => r.far == far
    | .core _ => false)).length

/-- Remote waits that the full list of a parcel has no entry for, and which keep theirs of the home agent: all but the 128 that arrived first
(R294). -/
def State.waitsBeyond (s : State) (p : ParcelId) (far : Bool) : Nat :=
  let ws := s.remoteWaits p
  (ws.filter (fun w => w.2 == far && 128 ≤ (ws.filter (fun x => x.1 < w.1)).length)).length

/-- Entries of a tract's home agent in use, for requests of this module or of others (R266, R277, R294): merged atomics not applied, writes
whose replicas are being invalidated, copies' ends and engines' operations, arrivals held without a wait, remote waits beyond a list. -/
def State.homeUse (s : State) (t : Tract) (far : Bool) : Nat :=
  ((s.fab t).comb.map (fun c => (c.srcs.filter (fun x => x.far == far)).length)).sum +
    ((s.fab t).replW.filter (fun w => w.src.far == far)).length +
    ((s.listedParcels t).map (fun p =>
      s.heldRemote p false far + s.waitsBeyond p far)).sum +
    (if far then 0 else (s.fabs.map (fun q =>
      (q.2.ra.filter (fun e => e.op.isData && e.stage == .home && e.homeTract == some t)).length)).sum)

/-- Whether a home agent has entries for n requests (R266). With FLOW6 an entry is also the room for its response (R279). -/
def State.homeRoomFor (s : State) (t : Tract) (far : Bool) (n : Nat) : Bool := decide (s.homeUse t far + n ≤ 2048)
def State.homeRoom (s : State) (t : Tract) (far : Bool) : Bool := s.homeRoomFor t far 1

/-- Whether nothing but the turns of the home agents keeps a copy from landing: it has not begun to, the stores and atomics it follows have
completed, no end of it is held, blocked or in a dead tract (R36, R262, R271, R276). -/
def State.copyFree (s : State) (c : CoreId) (j : CopyJob) : Bool :=
  let ends := (s.fab c.tract).ra.filter (fun e => some e.gen == j.genS || some e.gen == j.genD)
  j.stage == .flight && !s.needsOpen c { gens := j.after, arrs := [] } && !s.dead c.tract.val &&
    !(j.sspace = 3 && s.deadAt j.src) && !(j.dspace = 3 && s.deadAt j.dst) &&
    ends.all (fun e => e.stage != .held && !(e.stage == .ready && s.haBlocked c.tract e false))

/-- Whether an entry of tract st waits for the home agent of tract t: the end of a copy does as soon as the copy can land. -/
def State.awaitsHome (s : State) (t st : Tract) (e : RaEntry) : Bool :=
  e.stage == .ready && e.homeTract == some t && !s.haBlocked st e false &&
    (!e.op.isData || match e.src with
      | .core c => (s.core c).copies.any (fun j => (j.genS == some e.gen || j.genD == some e.gen) && s.copyFree c j)
      | .engine _ => false)

/-- Whether an operation with a stamp is the oldest that waits for a home agent. -/
def State.haOldest (s : State) (t : Tract) (stamp : Nat) : Bool :=
  s.fabs.all (fun q => q.2.ra.all (fun e => !s.awaitsHome t q.1 e || stamp ≤ e.stamp)) && (s.fab t).inbox.all (fun m => stamp ≤ m.stamp)

/-- FLOW6 of the module. -/
def State.flow6 (s : State) : Bool := s.regBits (modReg .fabCtl) 10 10 == 1

/-- Whether a home agent may accept n operations in a row now, the first with the stamp: it has entries for them (R266), and with FLOW6 every
eighth turn is the oldest's (R279). -/
def State.haMayFor (s : State) (t : Tract) (stamp : Nat) (far : Bool) (n : Nat) : Bool :=
  s.homeRoomFor t far n && (!s.flow6 || s.haOldest t stamp || (List.range n).all (fun i => ((s.fab t).turns + i) % 8 != 7))
def State.haMay (s : State) (t : Tract) (stamp : Nat) (far : Bool) : Bool := s.haMayFor t stamp far 1

/-- An end of a copy or an operation of an engine that lies on this module is accepted by its home agent (R254, R277). -/
def State.homeTake (s : State) (t : Tract) (gen : Nat) : State :=
  match (s.fab t).ra.find? (fun e => e.gen = gen && e.op.isData && e.stage == .ready) with
  | none => s
  | some e =>
    match e.homeTract with
    | some h => (s.setEntry t gen (fun e => { e with stage := .home })).homeCount h
    | none => s

/-- Whether the home agents that the ends of a copy lie at may accept them now, one after the other (R266, R279). -/
def State.endsMay (s : State) (c : CoreId) (j : CopyJob) : Bool :=
  let ends := (s.fab c.tract).ra.filter (fun e => (some e.gen == j.genS || some e.gen == j.genD) && e.stage == .ready)
  ends.all (fun e => match e.homeTract with
    | some h => s.haMayFor h ((ends.map (fun x => x.stamp)).foldl min e.stamp) false ((ends.filter (fun x => x.homeTract == some h)).length)
    | none => true)

/-- Credits for a memory message go back to the partner of the port it came by (R267, R355). -/
def State.giveCredit (s : State) (p : Port) (m : MemMsg) : State := s.giveUnits p (memVc m) (ceilDiv (memBytes m).length 64)

/-- Requests of links leave the receive buffers of their ports: accepted, or dropped (R267). -/
def State.leaveInbox (s : State) (ms : List InReq) : State :=
  ms.foldl (fun s m => if m.credit then s.giveCredit m.port m.msg else s) s

/-- A combining entry is applied in one turn; then every merged source receives its completion (R269). -/
def State.applyComb (s : State) (t : Tract) (c : CombEntry) : State :=
  let s := s.modFab t (fun f => { f with comb := f.comb.filter (fun x => x.id ≠ c.id) })
  let key := c.addr % 2 ^ 52
  let n := atomSize c.w64
  let s := s.touch key n
  let s := s.store key (natLe n (atomNew (b2n c.orOp) c.w64 (leNat (s.peek key n)) c.opd 0))
  c.srcs.foldl (fun s src => s.answer src okResponse) s

/-- The combining entries of a line other than the one an atomic matches are closed and applied first (R269). -/
def State.closeLine (s : State) (t : Tract) (addr : Nat) (keep : CombEntry → Bool) : State :=
  ((s.fab t).comb.filter (fun c => c.addr / 128 = addr / 128 && !keep c)).foldl (fun s c => s.applyComb t c) s

/-- A read or a write of a run of bytes takes its turn at the home: combining entries of its lines are closed and applied first (R268, R269). -/
def State.closeRun (s : State) (key n : Nat) : State :=
  if h : gaTract key < 12 then
    let t : Tract := ⟨gaTract key, h⟩
    ((s.fab t).comb.filter (fun c => n ≠ 0 && key / 128 ≤ c.addr % 2 ^ 52 / 128 && c.addr % 2 ^ 52 / 128 ≤ (key + n - 1) / 128)).foldl
      (fun s c => s.applyComb t c) s
  else s

/-- Where a tract's replica holds a byte: the byte lies in a region whose home is another tract, and its line is valid there (R152). -/
def State.replicaAt (s : State) (t : Tract) (key : Nat) : Option Nat :=
  match s.inRegion key with
  | some (i, r) =>
    if gaTract r.home ≠ t.val && (s.fab t).replOk.contains (i, (key - r.home) / 128) then some (keyOf t.val r.parcel (r.off + (key - r.home)))
    else none
  | none => none

/-- Where a read of a byte by a tract finds it: in the tract's replica, where that is sound; else at home (R152, R154). -/
def State.viaReplica (s : State) (t : Tract) (key : Nat) : Nat :=
  match s.replicaAt t key with
  | some at_ => if s.mem.badUnit (unitBase at_) then key else at_
  | none => key

/-- What such a read does to the check units it meets: a replica line found uncorrectable loses its validity, with its record, and the read goes
home (R154). -/
def State.touchVia (s : State) (t : Tract) (key n : Nat) : State :=
  if (s.regionLines key n).isEmpty then s.touch key n
  else (lineRuns key n).foldl (fun s q => match s.replicaAt t q.1 with
    | none => s.touch q.1 q.2
    | some at_ => if s.poisoned at_ q.2 then (s.touch at_ q.2).touch q.1 q.2 else s.touch at_ q.2) s

/-- Stores of a run of bytes leave for another module, line by line (R148, R255, R354). -/
def State.sendStores (s : State) (t : Tract) (e : RaEntry) (ga : Nat) (bs : List (Byte × Bool)) : State :=
  (lineRuns ga bs.length).foldl (fun s q =>
    let part := (bs.drop (q.1 - ga)).take q.2
    let mask := ((List.range 9).map (fun i =>
      if part.zipIdx.any (fun x => x.1.2 && (q.1 % 16 + x.2) / 16 == i) then 2 ^ i else 0)).sum
    s.sendRouted (s.lineMsg t e q.1 q.2 (some (part.map (fun x => x.1), mask)))) s

/-- The record of a posted operation, or of a remote end of a copy, that completes with an error (R48, R260). -/
def State.postedRecord (s : State) (t : Tract) (src : Option CoreId) (addr status : Nat) : State :=
  let r := match src with
    | some c => s.recordC .fabPosted 12 c
    | none => s.record .fabPosted 12 t.val
  s.emit { r with addr := addr, detail := detailWords [status] }

/-- A core's operation enters its tract's request agent. -/
def State.coreIssue (s : State) (c : CoreId) (addr : Nat) (op : FabOp) (posted : Bool) : State × Nat :=
  let cls := s.queueClass (coreParcel c)
  s.raIssue c.tract (.core c) cls addr op posted (s.raNeeds c cls op)

end Sys2Proof.Machine
end

