-- ==== Sys2Proof/Machine/Operands.lean ====
section
/-!
DEFINITION. The operand forms of core instructions: which fields a format must hold 0 in (R38), the addresses of the memory
formats (R30, R31, R42, R50), and the checks of an access in the order of R476.
-/
namespace Sys2Proof.Machine

/-- A 5-bit slot that names an a-register uses its low four bits; the high one is reserved (R38). -/
def slotA (r : BitVec 5) : BitVec 4 := r.setWidth 4
def slotABad (r : BitVec 5) : Bool := 16 ≤ r.toNat
/-- A 5-bit slot that names a predicate or a counter uses its low three bits. -/
def slotP (r : BitVec 5) : BitVec 3 := r.setWidth 3
def slotPBad (r : BitVec 5) : Bool := 8 ≤ r.toNat
/-- A first register of four: 4, 8, ... 28 (R42, R53). -/
def quadBad (r : BitVec 5) : Bool := r.toNat % 4 != 0 || r.toNat == 0
/-- A first register of a pair must be even (R43). -/
def oddReg (r : BitVec 5) : Bool := r.toNat % 2 == 1

/-- Sign extension of an immediate to 32 and to 64 bits. -/
def sext32 {n : Nat} (v : BitVec n) : Word := v.signExtend 32
def sext64 {n : Nat} (v : BitVec n) : DWord := v.signExtend 64

/-- Bytes of an instruction word of format M, with or without its extension word. -/
def extLen (ext : Option Word) : Nat := if ext.isSome then 8 else 4

/-- The offset a format M access names: base plus OFF8 times the size, or base plus IMM32 in bytes (MEMORY class, R42). -/
def fmtMOffset (k : Core) (f : FmtM) (size : Nat) : Nat :=
  match f.ext with
  | none => (k.getA f.ab + sext64 f.off8 * BitVec.ofNat 64 size).toNat
  | some imm => (k.getA f.ab + sext64 imm).toNat

/-- In the extended forms OFF8 is 0 (MEMORY class). -/
def fmtMBad (f : FmtM) : Bool := f.ext.isSome && f.off8 != 0

/-- The size of a local space in bytes (R30). -/
def spaceSize (space : BitVec 2) : Nat := if space = 0 then 0x6000 else if space = 1 then 0x4_0000 else 0x480_0000

/-- The memory key of an offset in a core's LS, CM or SL (R30, R149). -/
def spaceKey (c : CoreId) (space : BitVec 2) (off : Nat) : Nat :=
  if space = 0 then storeKey c off
  else if space = 1 then commonsKey (coreParcel c) off
  else sliceKey (coreParcel c) off

/-- The global address an access in a space names; 0 where it names none. -/
def State.spaceAddr (s : State) (c : CoreId) (space : BitVec 2) (off : Nat) : Nat :=
  if space = 3 then off else if off < spaceSize space then s.globalOf (spaceKey c space off) else 0

/-- The checks of an access of n bytes in the order of R476: ALIGN, GADDR, SPACE_RANGE, SPACE_PROTECT (R31, R33, R42). -/
def State.accessFault (s : State) (c : CoreId) (space : BitVec 2) (off n : Nat) (write : Bool) : Option ExcInfo :=
  let exc (k : Cause) : Option ExcInfo := some { cause := k, addr := s.spaceAddr c space off }
  if off % n ≠ 0 then exc .align
  else if space = 3 then (if gaBad off then exc .gaddr else none)
  else if spaceSize space < off + n then exc .spaceRange
  else if write && space == 1 && s.cmOwned c.tract off then exc .spaceProtect
  else none

/-- Loads of a core that are outstanding outside the local store (R26). -/
def Core.loadsOpen (k : Core) : Nat := (k.loads.filter (fun l => !l.atom)).length

/-- Stores and atomics of a core that are outstanding outside the local store: those at the request agent, and atomics of the commons and the
slice whose return is awaited (R26, R43). -/
def State.storesUse (s : State) (c : CoreId) : Nat :=
  s.storesOpen c + ((s.core c).loads.filter (fun l => l.atom && l.gen.isNone)).length

/-- The stall of a load outside the local store (R26). -/
def State.loadStall (s : State) (c : CoreId) (space : BitVec 2) : Option Wait :=
  let k := s.core c
  if space = 0 then k.astatQueued.map (fun e => .astat e.pc)
  else if 8 ≤ k.loadsOpen then some (.resource 3)
  else if space = 3 && s.raFull c.tract then some (.agent 1)
  else none

/-- The stall of a store or an atomic (R26): 16 outstanding outside the local store, or no request agent entry. -/
def State.storeStall (s : State) (c : CoreId) (space : BitVec 2) : Option Wait :=
  if space = 0 then none
  else if 16 ≤ s.storesUse c then some (.resource 4)
  else if space = 3 && s.raFull c.tract then some (.agent 1)
  else none

/-- CRC-64/ECMA-182: polynomial 0x42F0E1EBA9EA3693, initial value 0, most significant bit first (R424). -/
def crc64Bit (r : DWord) (b : Bool) : DWord :=
  let top := r.msb != b
  let r := r <<< 1
  if top then r ^^^ 0x42F0E1EBA9EA3693 else r
def crc64Byte (r : DWord) (x : Byte) : DWord :=
  (List.range 8).foldl (fun r i => crc64Bit r (x.getLsbD (7 - i))) r
def crc64 (bs : List Byte) : DWord := bs.foldl crc64Byte 0

/-- What one 16-byte unit of a write adds to TSIG: the CRC of its global address, its byte mask and its 16 bytes (R424;
assumption log 14 for the order of the bytes). -/
def unitSig (addr : Nat) (bs : List Byte) : DWord :=
  let lo := addr % 16
  let mask := (2 ^ bs.length - 1) * 2 ^ lo
  crc64 (natLe 8 (addr - lo) ++ natLe 2 mask ++
    (List.replicate lo 0 ++ bs ++ List.replicate (16 - lo - bs.length) 0).take 16)

/-- Whether a global address lies in a core's own local store, which global space names too (R32). -/
def State.ownStore (s : State) (c : CoreId) (ga : Nat) : Bool :=
  s.isOwn ga && keyParcel ga == some (coreParcel c) && match windowOf (gaOffset ga) with
    | .store n _ => n == c.core.val
    | _ => false

/-- What a write outside the core's own local store adds to TSIG, while the core holds a tile (R424). -/
def State.sign (s : State) (c : CoreId) (addr : Nat) (bs : List Byte) : State :=
  if s.holds c then
    s.modCore c (fun k => { k with
      tsig := ((pieces 16 bs.length addr bs).filter (fun q => !s.ownStore c q.1)).foldl (fun t q => t + unitSig q.1 q.2) k.tsig })
  else s

end Sys2Proof.Machine
end

