-- ==== Sys2Proof/Machine/MarkIns.lean ====
section
/-!
DEFINITION. The MARK class (R50 to R52, R288, R292, R294): MADD, MSUB, MWAIT and MBAR, local and remote.
-/
namespace Sys2Proof.Machine

/-- AB must be 0 for a local mark, MARK for a remote one (R50). -/
def fmtKBad (f : FmtK) : Bool := if f.remote then f.mark != 0 else f.ab != 0

/-- The registers a MARK instruction reads. -/
def fmtKReads (f : FmtK) : List CReg := if f.remote then [.g f.g, .a f.ab] else [.g f.g]

/-- The checks of a remote mark's address in the order of R476: ALIGN, GADDR (R50). -/
def remoteMarkFault (addr : Nat) : Option ExcInfo :=
  if addr % 4 ≠ 0 then some { cause := .align, addr := addr }
  else if gaBad addr then some { cause := .gaddr, addr := addr }
  else none

/-- The type check of a local mark: a counting instruction on a barrier mark, or an MBAR on a counting one (R50). -/
def State.markTypeFault (s : State) (c : CoreId) (n : BitVec 10) (bar : Bool) : Option ExcInfo :=
  if (s.barrierN (coreParcel c) n).isSome == bar then none
  else some { cause := .markBad, addr := s.globalOf (markKey (coreParcel c) n) }

/-- What a core's earlier work leaves open for a release (R51). -/
def State.releaseNeeds (s : State) (c : CoreId) : Needs :=
  { gens := s.storeGens c.tract (.core c), arrs := (s.core c).arr.queue.map (fun e => e.id) }

/-- A remote mark operation enters the request agent, or stalls where it has no entry (R26, R294); next: what the core does. -/
def State.remoteMark (s : State) (c : CoreId) (addr : Nat) (op : MarkOp) (posted : Bool) (next : Nat → Core → Core) :
    State :=
  match remoteMarkFault addr with
  | some e => s.raiseAt c e
  | none =>
    s.orGangFault c fun s =>
      if s.raFull c.tract then s.stallAt c (.agent 1)
      else
        let (s, gen) := s.coreIssue c addr (.mark op) posted
        s.modCore c (next gen)

/-- MADD and MSUB: the addition takes effect once earlier work is visible; the core does not wait (R51). -/
def State.markAddAct (s : State) (c : CoreId) (f : FmtK) (sub : Bool) : State :=
  let k := s.core c
  let v := k.getG f.g
  if f.remote then
    s.remoteMark c (k.getA f.ab).toNat (if sub then .sub v else .add v) true (fun _ k => k.retire 4)
  else
    match s.markTypeFault c f.mark false with
    | some e => s.raiseAt c e
    | none =>
      s.orGangFault c fun s =>
        let r : HeldRel :=
          { needs := s.releaseNeeds c, parcel := coreParcel c, mark := f.mark, value := if sub then -v else v }
        (s.modCore c (fun k => Core.retire { k with rels := k.rels ++ [r] } 4)).settle c

def execMadd (i : Issue) (f : FmtK) (s : State) : Result :=
  s.asSpelled i (.madd i f) <|
  .next (s.issue i 4 (fmtKBad f) (fmtKReads f) (fun s => s.markAddAct i.core f false))
def execMsub (i : Issue) (f : FmtK) (s : State) : Result :=
  s.asSpelled i (.msub i f) <|
  .next (s.issue i 4 (fmtKBad f) (fmtKReads f) (fun s => s.markAddAct i.core f true))

/-- MWAIT: done at once where the mark has reached the threshold, else the core waits (R283). A frozen or damaged mark
releases no one (R297). -/
def State.mwaitAct (s : State) (c : CoreId) (f : FmtK) : State :=
  let k := s.core c
  let p := coreParcel c
  let thr := k.getG f.g
  if f.remote then
    let addr := (k.getA f.ab).toNat
    match remoteMarkFault addr with
    | some e => s.raiseAt c e
    | none =>
      if s.raFull c.tract then s.stallAt c (.agent 1)
      else
        let (s, gen) := s.coreIssue c addr (.mark (.wait thr)) false
        s.modCore c (fun k => { k with wait := some (.remoteWait gen addr thr false) })
  else
    match s.markTypeFault c f.mark false with
    | some e => s.raiseAt c e
    | none =>
      if reached (s.markWord p f.mark) thr && !((s.parcel p).frozen.contains f.mark || s.markDamaged p f.mark) then
        s.modCore c (fun k => k.retire 4)
      else s.stallAt c (.mwait f.mark thr)

def execMwait (i : Issue) (f : FmtK) (s : State) : Result :=
  s.asSpelled i (.mwait i f) <|
  .next (s.issue i 4 (fmtKBad f) (fmtKReads f) (fun s => s.mwaitAct i.core f))

/-- KIND 0b11 or a reserved bit of the operand (R288, R292). -/
def barOperandBad (opd : Word) : Bool := barKind opd == 3 || 2 ^ 10 ≤ opd.toNat

/-- MBAR: its arrival or wait acts on the mark once earlier work is visible; the core waits until then and, but for ARRIVE,
until its generation has released (R51, R288 to R291, R294). -/
def State.mbarIssue (s : State) (c : CoreId) (f : FmtK) : State :=
  let k := s.core c
  let opd := k.getG f.g
  let tag : BitVec 8 := opd.setWidth 8
  let addr := if f.remote then (k.getA f.ab).toNat else s.globalOf (markKey (coreParcel c) f.mark)
  if barOperandBad opd then s.raiseAt c { cause := .markBad, addr := addr }
  else if f.remote then
    let op : MarkOp := if barKind opd = 2 then .barWait tag else .arrive tag (barKind opd = 0)
    s.remoteMark c addr op (barKind opd = 1)
      (fun gen k => if barKind opd = 1 then k.retire 4 else { k with wait := some (.remoteWait gen addr opd true) })
  else
    match s.markTypeFault c f.mark true with
    | some e => s.raiseAt c e
    | none =>
      s.orGangFault c fun s =>
        (s.stallAt c (.mbar f.mark opd .releasing (s.releaseNeeds c))).settle c

def execMbar (i : Issue) (f : FmtK) (s : State) : Result :=
  s.asSpelled i (.mbar i f) <|
  .next (s.issue i 4 (fmtKBad f) (fmtKReads f) (fun s => s.mbarIssue i.core f))

end Sys2Proof.Machine
end

