-- ==== Sys2Proof/Machine/ArrayView.lean ====
section
/-!
DEFINITION. The cell array's instructions as they issue (R69 to R94): configuration, strips, operand layouts (R88), the checks
against the issue view in the order of R94, and the queue of 8 entries.
-/
namespace Sys2Proof.Machine

/-- The columns of strip i under a layout: its west column and its width (R73). -/
def stripCols (layout i : Nat) : Option (Nat × Nat) :=
  match layout, i with
  | 0, 0 => some (0, 8)
  | 1, 0 => some (0, 4) | 1, 1 => some (4, 4)
  | 2, 0 => some (0, 4) | 2, 1 => some (4, 2) | 2, 2 => some (6, 2)
  | 3, 0 => some (0, 2) | 3, 1 => some (2, 2) | 3, 2 => some (4, 4)
  | 4, 0 => some (0, 2) | 4, 1 => some (2, 2) | 4, 2 => some (4, 2) | 4, 3 => some (6, 2)
  | _, _ => none

/-- The format byte of a strip, and its fields (R86). -/
def ArrCfg.fmtByte (g : ArrCfg) (i : Nat) : Nat := bitsOf g.fmts.toNat (8 * i + 7) (8 * i)
def ArrCfg.fmt (g : ArrCfg) (i : Nat) : Nat := bitsOf (g.fmtByte i) 3 0
def ArrCfg.svar (g : ArrCfg) (i : Nat) : Bool := bitOf (g.fmtByte i) 4
def ArrCfg.wvar (g : ArrCfg) (i : Nat) : Bool := bitOf (g.fmtByte i) 5
def ArrCfg.wide (g : ArrCfg) (i : Nat) : Bool := bitOf (g.fmtByte i) 6
def ArrCfg.cols (g : ArrCfg) (i : Nat) : Option (Nat × Nat) := stripCols g.layout.toNat i
/-- The size of the gang, 1, 2 or 4. -/
def ArrCfg.size (g : ArrCfg) : Nat := gangSize g.gang

/-- MXFP8, MXFP6 and MXFP4. -/
def fmtIsMx (f : Nat) : Bool := f == 4 || f == 5 || f == 6
/-- Formats with two element encodings. -/
def fmtHasVar (f : Nat) : Bool := f == 3 || f == 4 || f == 5

/-- The element format of a format code and encoding; INT8 has none (R86, R102). -/
def elemFmt (f : Nat) (var : Bool) : FloatFmt :=
  match f with
  | 0 => fp32
  | 1 => bf16
  | 2 => fp16
  | 5 => if var then e3m2 else e2m3
  | 6 => e2m1
  | _ => if var then e5m2 else e4m3

/-- Bits of an element as stored (R105). -/
def elemBits (f : Nat) : Nat :=
  match f with
  | 0 => 32
  | 1 | 2 => 16
  | 5 => 6
  | 6 => 4
  | _ => 8

/-- Bytes of a skewed stream word (R63). -/
def wordBytes (f : Nat) : Nat := if f = 0 then 32 else if f = 1 ∨ f = 2 then 16 else 8

/-- Strips of the layout that are defined. -/
def ArrCfg.strips (g : ArrCfg) : List Nat := (List.range 4).filter (fun i => (g.cols i).isSome)

/-- Elements of a K position row per cell: 2 for MXFP4 where every strip is MXFP4 (R64, R65). -/
def ArrCfg.perCell (g : ArrCfg) (i : Nat) : Nat :=
  if g.strips.all (fun j => g.fmt j == 6) && g.fmt i == 6 then 2 else 1

/-- The K positions the array can hold at once (R70). -/
def ArrCfg.kw (g : ArrCfg) (i : Nat) : Nat := 8 * g.perCell i * g.size

/-- The number of slots a strip may use (R72, R92). -/
def ArrCfg.slotLimit (g : ArrCfg) (i : Nat) : Nat := if g.wide i then 16 else 64

/-- AMODE's reserved values and rules (R71, R75, R86, R94). -/
def amodeBad (c : CoreNo) (g : ArrCfg) : Bool :=
  6 ≤ g.mode.toNat || 5 ≤ g.layout.toNat || g.gang == 3 ||
    (g.size != 1 && g.layout != 0) || g.grow.toNat != c.val / 8 % g.size || g.gcol.toNat != c.val % 8 % g.size ||
    (List.range 4).any (fun i =>
      match g.cols i with
      | none => g.fmtByte i != 0
      | some _ => 8 ≤ g.fmt i || bitOf (g.fmtByte i) 7 || ((g.svar i || g.wvar i) && !fmtHasVar (g.fmt i))) ||
    (g.ord6 && (g.mode != 0 || g.strips.any (fun i => 4 ≤ g.fmt i)))

/-- AMODE's need of WIDE (R72). -/
def amodeWide (g : ArrCfg) : Bool :=
  g.strips.any (fun i =>
    !g.wide i && (g.fmt i == 0 || g.fmt i == 1 || (fmtIsMx (g.fmt i) && g.mode != 0)))

/-- A run of bytes of the local store. -/
abbrev Region := Nat × Nat

/-- Whether a run lies in the local store (R94). -/
def Region.inStore (r : Region) : Bool := r.1 + r.2 ≤ 0x6000

/-- An instruction's reading of weights or stream (R88). rs: the source row stride. -/
structure Source where
  addr  : Nat
  scale : Nat
  rs    : Nat
  turn  : Bool
  m     : Nat
  kc    : Nat
  deriving DecidableEq, Repr

/-- The K positions of a chunk of n that a member in gang row gr holds (R76). -/
def memberK (g : ArrCfg) (i gr n : Nat) : List Nat :=
  let e := 8 * g.perCell i
  (List.range n).filter (fun k => e * gr ≤ k && k < e * (gr + 1))

/-- Where the weight of K position k of chunk c and column n of a member lies: a row's address and the element's place in it
(R88). DESIGN CHOICE: in a gang the index of a K row in a member's own operands (weights, a turned stream, turned scales) counts from the
chunk's first K position, not from the member's own first row; the spec does not say which (assumption log 23). -/
def Source.weight (w : Source) (c k n : Nat) : Nat × Nat :=
  if w.turn then (w.addr + n * w.rs, c * w.kc + k) else (w.addr + (c * w.kc + k) * w.rs, n)

/-- Where its scale lies; i: the block, counted from the first the instruction touches (R80, R88). -/
def Source.weightScale (w : Source) (c k n i : Nat) : Nat :=
  if w.turn then w.scale + c * w.kc + k else w.scale + 8 * i + n

/-- Where the stream element of row m at K position k of chunk c lies (R63, R65, R88). -/
def Source.stream (w : Source) (g : ArrCfg) (i c k m : Nat) : Nat × Nat :=
  if w.turn then (w.addr + (c * w.kc + k) * w.rs, m)
  else
    let e := g.perCell i
    let k' := k % (8 * e)
    let r := k' / e
    let word := w.addr + (c * (w.m + 7) + m + r) * wordBytes (g.fmt i)
    (word, if g.fmt i = 6 then 2 * r + k' % e else r)

/-- Where its scale lies (R88). -/
def Source.streamScale (w : Source) (c k m i : Nat) : Nat :=
  if w.turn then w.scale + 2 * (c * w.kc + k) + m / 32 else w.scale + 64 * i + m

/-- Bytes that n elements of a row take (R105). -/
def rowBytes (f n : Nat) : Nat := ceilDiv (n * elemBits f) 8

/-- The chunks an AWLOAD or ASTREAM deals with: number within the instruction, kpos, K positions. -/
structure ChunkRef where
  c    : Nat
  kpos : Nat
  n    : Nat
  deriving DecidableEq, Repr

/-- The chunks of a sequence from chunk first, n of them, the first at kpos (R70, R90). -/
def chunkRefs (q : WSeqShape) (kpos first n : Nat) : List ChunkRef :=
  (List.range n).map (fun c =>
    { c := c, kpos := (kpos + c * q.kc) % 2 ^ 32, n := if first + c + 1 = q.nch then q.kcl else q.kc })

/-- Whether a chunk keeps to its datum block (R70). -/
def ChunkRef.ok (r : ChunkRef) : Bool := r.kpos % 32 + r.n ≤ 32 || (r.kpos % 32 == 0 && r.n == 64)

/-- The block of a K position, counted from the first block of the instruction (R88). -/
def ChunkRef.block (r : ChunkRef) (first k : Nat) : Nat := (r.kpos + k) / 32 - first / 32

/-- The local store an AWLOAD reads for a member, width columns wide (R88). -/
def weightRegions (g : ArrCfg) (i gr width : Nat) (w : Source) (kpos : Nat) (cs : List ChunkRef) : List Region :=
  cs.flatMap (fun r =>
    (memberK g i gr r.n).flatMap (fun k =>
      let rows :=
        if w.turn then
          (List.range width).map (fun n =>
            let bit := (w.weight r.c k n).2 * elemBits (g.fmt i)
            ((w.weight r.c k n).1 + bit / 8, (bit % 8 + elemBits (g.fmt i) + 7) / 8))
        else [((w.weight r.c k 0).1, rowBytes (g.fmt i) width)]
      let scales :=
        if fmtIsMx (g.fmt i) then
          [(w.weightScale r.c k 0 (r.block kpos k), if w.turn then 1 else width)]
        else []
      rows ++ scales))

/-- The local store an ASTREAM reads for a west member (R63, R88). -/
def streamRegions (g : ArrCfg) (i gr : Nat) (w : Source) (kpos : Nat) (cs : List ChunkRef) : List Region :=
  cs.flatMap (fun r =>
    let ks := memberK g i gr r.n
    let rows :=
      if w.turn then ks.map (fun k => ((w.stream g i r.c k 0).1, rowBytes (g.fmt i) w.m))
      else if ks.isEmpty then []
      else [(w.addr + r.c * (w.m + 7) * wordBytes (g.fmt i), (w.m + 7) * wordBytes (g.fmt i))]
    let scales :=
      if !fmtIsMx (g.fmt i) then []
      else if w.turn then ks.map (fun k => (w.streamScale r.c k 0 0, (w.m + 31) / 32))
      else ks.map (fun k => (w.streamScale r.c k 0 (r.block kpos k), w.m))
    rows ++ scales)

/-- Whether an operand's addresses and stride are multiples of 4 (R88); a scale address counts for MX formats only. -/
def Source.aligned (w : Source) (mx stride : Bool) : Bool :=
  w.addr % 4 == 0 && (!mx || w.scale % 4 == 0) && (!stride || w.rs % 4 == 0)

/-- A drain descriptor's fields (R83). -/
structure DrainDesc where
  scale : Nat
  ofmt  : Nat
  ovar  : Bool
  bias  : Bool
  clip  : Bool
  raw   : Bool
  mx    : Bool
  mxdir : Bool
  lo    : Nat
  hi    : Nat
  baddr : Nat
  saddr : Nat
  rsv   : Bool
  deriving DecidableEq, Repr

def drainDesc (bs : List Byte) : DrainDesc :=
  let w := fieldAt bs 4 4
  { scale := fieldAt bs 0 4, ofmt := bitsOf w 3 0, ovar := bitOf w 4, bias := bitOf w 5, clip := bitOf w 6,
    raw := bitOf w 7, mx := bitOf w 8, mxdir := bitOf w 9, lo := fieldAt bs 8 4, hi := fieldAt bs 12 4,
    baddr := fieldAt bs 16 4, saddr := fieldAt bs 20 4, rsv := bitsOf w 31 10 != 0 || fieldAt bs 24 8 != 0 }

/-- The FP32 code of 1.0. -/
def oneCode : Nat := 0x3F80_0000

/-- A breach of R83, R84, R85 or R118 (DRAIN_BAD). The CNT that MXDIR 1 asks for is asked of an MX drain alone: without MX there are no blocks
along the slots (DEDUCED, assumption log 23). -/
def drainBad (g : ArrCfg) (i cnt : Nat) (d : DrainDesc) : Bool :=
  let cmp := g.mode == 5
  let lo := fp32.decode d.lo
  let hi := fp32.decode d.hi
  d.rsv || 9 ≤ d.ofmt || (d.ovar && !fmtHasVar d.ofmt) || d.mx != fmtIsMx d.ofmt ||
    (d.clip && (lo.isNan || hi.isNan || hi.below lo && !(lo.isZero && hi.isZero))) ||
    (d.mx && !d.mxdir && g.size == 1 && g.layout != 0) ||
    (d.mx && d.mxdir && cnt != 32 && cnt != 64) ||
    (if cmp then !d.raw || d.scale != oneCode || d.ofmt != 0 || d.ovar || d.bias || d.clip || d.mx || d.mxdir else d.raw) ||
    (d.ofmt == 8 && (g.fmt i != 7 || d.scale != oneCode || d.bias || d.clip || d.mx))

/-- Column groups an output row gathers on one core (R84). The slots it gathers outside SB to SB + CNT - 1 are read as a fold leaves them, and stay
untouched (R91). -/
def gatherGroups (g : ArrCfg) (d : DrainDesc) : Nat := if d.mx && !d.mxdir then 4 / g.size else 1

/-- Elements of an output row that a core writes (R82, R84, R85). -/
def drainRow (g : ArrCfg) (width : Nat) (d : DrainDesc) : Nat := width * gatherGroups g d

/-- Bytes of an output row. -/
def drainRowBytes (g : ArrCfg) (width : Nat) (d : DrainDesc) : Nat :=
  let n := drainRow g width d
  if d.raw then 8 * n else if d.ofmt = 8 then 4 * n else rowBytes d.ofmt n

/-- The local store a drain writes, and its bias vector (R82 to R84). -/
def drainRegions (g : ArrCfg) (width ad rs cnt : Nat) (d : DrainDesc) : List Region :=
  (List.range cnt).map (fun m => (ad + m * rs, drainRowBytes g width d)) ++
    (if d.bias then [(d.baddr, 4 * drainRow g width d)] else []) ++
    (if d.mx then
      (if d.mxdir then (List.range (cnt / 32)).map (fun j => (d.saddr + 8 * j, width)) else [(d.saddr, cnt)])
    else [])

/-- The sub-causes of an array fault (R94). -/
inductive ArrFault where
  | modeBad | stripAbsent | slotRange | kcross | lsRange | noWeights | drainBad | wideReq | operandBad | unconfigured
  deriving DecidableEq, Repr

def ArrFault.code : ArrFault → Nat
  | .modeBad => 0x01 | .stripAbsent => 0x02 | .slotRange => 0x03 | .kcross => 0x04 | .lsRange => 0x05
  | .noWeights => 0x06 | .drainBad => 0x07 | .wideReq => 0x0A | .operandBad => 0x0B | .unconfigured => 0x0C

/-- An array fault is precise (R94). -/
def State.arrFault (s : State) (c : CoreId) (f : ArrFault) : State := s.raiseAt c { cause := .array, sub := f.code }

/-- Whether every member of a core's gang has an entry in its queue. -/
def State.gangHeads (s : State) (c : CoreId) (g : ArrCfg) : Bool :=
  (gangMembers c g.size).all (fun m => !(s.core m).arr.queue.isEmpty)

/-- The array queue takes an instruction and leaves the view v; where it is full, the core stalls, on the gang where a member's
part is missing (R26, R78). -/
def State.arrEnqueue (s : State) (c : CoreId) (op : ArrOp) (n : Nat) (v : ArrView) (f : Core → Core) : State :=
  let k := s.core c
  if 8 ≤ k.arr.queue.length then
    let lone := match k.arr.cfg with
      | some g => g.size != 1 && !s.gangHeads c g
      | none => false
    s.stallAt c (if lone then .arrayGang else .resource 1)
  else
    s.modCore c (fun k =>
      let e : ArrEntry := { id := k.arr.nextId, pc := k.pc.toNat, op := op }
      Core.retire { f k with arr := { (f k).arr with queue := (f k).arr.queue ++ [e], nextId := k.arr.nextId + 1, view := v } } n)

/-- An array instruction other than AMODE: UNCONFIGURED, the fault a broken gang left, then act on the view (R78, R94). The break leaves the
array unconfigured, so the first such instruction breaks both rules: its one record carries UNCONFIGURED, the first in the order of R94, and the
fault of the break is spent with it (assumption log 23). -/
def State.orUnconfigured (s : State) (c : CoreId) (act : ArrCfg → ArrView → State → State) : State :=
  match (s.core c).arr.view.cfg with
  | none => (s.modCore c (fun k => { k with arr := { k.arr with fault := none } })).arrFault c .unconfigured
  | some g => s.orGangFault c (act g (s.core c).arr.view)

/-- An instruction that names a strip: STRIP_ABSENT, then act on its west column and width (R74). -/
def State.orAbsent (s : State) (c : CoreId) (g : ArrCfg) (i : Fin 4) (act : Nat → Nat → State → State) : State :=
  match g.cols i.val with
  | none => s.arrFault c .stripAbsent
  | some (lo, w) => act lo w s

/-- The strip i of the view with v in its place. -/
def ArrView.setStrip (v : ArrView) (i : Fin 4) (x : StripView) : ArrView := { v with strips := v.strips.set i x }

/-- A 2-bit strip field as an index. -/
def stripIdx (b : BitVec 2) : Fin 4 := b.toFin

/-- AMODE (R86, R89): it replaces the configuration of the view, with every strip as after a clear. -/
def execAmode (i : Issue) (f : FmtAmode) (s : State) : Result :=
  s.asSpelled i (.amode i f) <|
  .next (s.issue i 8 (f.reserved != 0) [] (fun s => s.orGangFault i.core (fun s =>
    let g : ArrCfg :=
      { mode := f.mode, layout := f.layout, gang := f.gang, grow := f.grow, gcol := f.gcol, ord6 := f.ord6, fmts := f.fmts }
    if amodeBad i.core.core g then s.arrFault i.core .modeBad
    else if amodeWide g then s.arrFault i.core .wideReq
    else
      s.arrEnqueue i.core (.amode g) 8 { ArrView.empty with cfg := some g } id)))

/-- AWLOAD (R87, R90): the sequence of the view's strip is replaced. -/
def State.awloadAct (s : State) (c : CoreId) (f : FmtArr) (ext : Word) : State :=
  s.orUnconfigured c (fun g v s =>
    s.orAbsent c g (stripIdx f.strip) (fun _ w s =>
      let k := s.core c
      let i := (stripIdx f.strip).val
      let rs := (k.getG f.g).toNat
      let turn := bitOf ext.toNat 20
      let q : WSeqShape :=
        { nch := bitsOf ext.toNat 7 0 + 1, kc := bitsOf ext.toNat 13 8 + 1, kcl := bitsOf ext.toNat 19 14 + 1, next := 0 }
      let kpos := (v.strips[stripIdx f.strip]).kpos
      let cs := chunkRefs q kpos 0 q.nch
      let src : Source :=
        { addr := (k.getA f.a1).toNat, scale := (k.getA f.a2).toNat, rs := rs, turn := turn, m := 0, kc := q.kc }
      let mx := fmtIsMx (g.fmt i)
      if 65536 ≤ rs then s.arrFault c .operandBad
      else if turn && mx && !g.wide i then s.arrFault c .wideReq
      else if g.kw i < q.kc || g.kw i < q.kcl || !cs.all ChunkRef.ok then s.arrFault c .kcross
      else if !src.aligned mx true || !(weightRegions g i g.grow.toNat w src kpos cs).all Region.inStore then
        s.arrFault c .lsRange
      else
        s.arrEnqueue c (.awload (stripIdx f.strip) src.addr src.scale rs q.nch q.kc q.kcl turn) 8
          (v.setStrip (stripIdx f.strip) { (v.strips[stripIdx f.strip]) with seq := some q }) id))

def execAwload (i : Issue) (f : FmtArr) (ext : Word) (s : State) : Result :=
  s.asSpelled i (.awload i f ext) <|
  .next (s.issue i 8 (f.reserved != 0 || 2 ^ 21 ≤ ext.toNat) [.a f.a1, .a f.a2, .g f.g] (fun s => s.awloadAct i.core f ext))

/-- What an ASTREAM consumes: the chunks and the strip of the view afterwards; none: NO_WEIGHTS (R90). With REUSE the chunk last
consumed, in its own place, and nothing advances. -/
def StripView.consume (x : StripView) (reuse : Bool) (nch : Nat) : Option (List ChunkRef × Nat × StripView) :=
  if reuse then x.last.map (fun l => ([{ c := 0, kpos := l.1, n := l.2 }], l.2, x))
  else
    match x.seq with
    | none => none
    | some q =>
      if q.nch < q.next + nch then none
      else
        let cs := chunkRefs q x.kpos q.next nch
        let kpos := (x.kpos + (cs.map (fun r => r.n)).sum) % 2 ^ 32
        some (cs, q.kc, { kpos := kpos, seq := some { q with next := q.next + nch },
                          last := cs.getLast?.map (fun r => (r.kpos, r.n)) })

/-- ASTREAM (R87, R90). g(g+1) is read only with TURN, so its outstanding load is looked at only then. -/
def State.astreamAct (s : State) (c : CoreId) (f : FmtArr) : State :=
  s.orUnconfigured c (fun g v s =>
    s.orAbsent c g (stripIdx f.strip) (fun _ _ s =>
      let k := s.core c
      let i := (stripIdx f.strip).val
      let w1 := (k.getG f.g).toNat
      let m := bitsOf w1 6 0
      let sb := bitsOf w1 12 7
      let turn := bitOf w1 13
      let reuse := bitOf w1 14
      let rs2 := (k.getG (f.g + 1)).toNat
      let mx := fmtIsMx (g.fmt i)
      match (if turn then k.operandWait [.g (f.g + 1)] else none) with
      | some w => s.stallAt c w
      | none =>
        if m = 0 || 64 < m || bitOf w1 15 || bitsOf w1 31 24 != 0 || (turn && 65536 ≤ rs2) then s.arrFault c .operandBad
        else if g.slotLimit i < sb + m then s.arrFault c .slotRange
        else if turn && mx && !g.wide i then s.arrFault c .wideReq
        else
          match (v.strips[stripIdx f.strip]).consume reuse (bitsOf w1 23 16 + 1) with
          | none => s.arrFault c .noWeights
          | some (cs, kc, x) =>
            let src : Source :=
              { addr := (k.getA f.a1).toNat, scale := (k.getA f.a2).toNat, rs := rs2, turn := turn, m := m, kc := kc }
            let kpos := (cs.head?.map (fun r => r.kpos)).getD 0
            if g.gcol = 0 && (!src.aligned mx turn || !(streamRegions g i g.grow.toNat src kpos cs).all Region.inStore) then
              s.arrFault c .lsRange
            else
              s.arrEnqueue c
                (.astream (stripIdx f.strip) src.addr src.scale m sb turn reuse (bitsOf w1 23 16 + 1)
                  (if turn then rs2 else 0)) 4 (v.setStrip (stripIdx f.strip) x) id))

def execAstream (i : Issue) (f : FmtArr) (s : State) : Result :=
  s.asSpelled i (.astream i f) <|
  .next (s.issue i 4 (f.reserved != 0 || oddReg f.g) [.a f.a1, .a f.a2, .g f.g] (fun s => s.astreamAct i.core f))

/-- ADRAIN (R83 to R87, R91, R94): its descriptor is read at issue; a member that is not at the bottom of its gang reads and writes
nothing (R76). -/
def State.adrainAct (s : State) (c : CoreId) (f : FmtArr) : State :=
  s.orUnconfigured c (fun g v s =>
    s.orAbsent c g (stripIdx f.strip) (fun _ w s =>
      let k := s.core c
      let i := (stripIdx f.strip).val
      let w1 := (k.getG f.g).toNat
      let sb := bitsOf w1 5 0
      let cnt := bitsOf w1 12 6
      let rs := bitsOf w1 31 16
      let ad := (k.getA f.a1).toNat
      let ap := (k.getA f.a2).toNat
      let bottom := decide (g.grow.toNat + 1 = g.size)
      let apOk := ap % 32 = 0 && ap + 32 ≤ 0x6000
      let bs := if bottom && apOk then s.peek (storeKey c ap) 32 else List.replicate 32 0
      let poison := bottom && apOk && s.poisoned (storeKey c ap) 32
      let d := drainDesc bs
      let s1 := if bottom && apOk then s.touch (storeKey c ap) 32 else s
      let enqueue (s : State) : State :=
        s.arrEnqueue c (.adrain (stripIdx f.strip) ad bs sb cnt (bitOf w1 13) rs) 4 v id
      if cnt = 0 || 64 < cnt || bitsOf w1 15 14 != 0 then s.arrFault c .operandBad
      else if g.slotLimit i < sb + cnt then s.arrFault c .slotRange
      else if !bottom then enqueue s
      else if apOk && !poison && g.slotLimit i < sb + cnt * gatherGroups g d then s1.arrFault c .slotRange
      else if !apOk || ad % 4 ≠ 0 || rs % 4 ≠ 0 then s.arrFault c .lsRange
      else if poison then s1.raiseAt c { cause := .lsEcc, addr := s.globalOf (storeKey c ap) }
      else if drainBad g i cnt d then s1.arrFault c .drainBad
      else if (d.bias && d.baddr % 4 != 0) || !(drainRegions g w ad rs cnt d).all Region.inStore then
        s1.arrFault c .lsRange
      else enqueue s1))

def execAdrain (i : Issue) (f : FmtArr) (s : State) : Result :=
  s.asSpelled i (.adrain i f) <|
  .next (s.issue i 4 (f.reserved != 0) [.a f.a1, .a f.a2, .g f.g] (fun s => s.adrainAct i.core f))

/-- ACLEAR (R92). -/
def State.aclearAct (s : State) (c : CoreId) (f : FmtAclear) : State :=
  s.orUnconfigured c (fun g v s =>
    s.orAbsent c g (stripIdx f.strip) (fun _ _ s =>
      let cnt := f.cntM1.toNat + 1
      if g.slotLimit (stripIdx f.strip).val < f.sb.toNat + cnt then s.arrFault c .slotRange
      else
        s.arrEnqueue c (.aclear (stripIdx f.strip) f.sb.toNat cnt f.krst) 4
          (if f.krst then v.setStrip (stripIdx f.strip) StripView.empty else v) id))

def execAclear (i : Issue) (f : FmtAclear) (s : State) : Result :=
  s.asSpelled i (.aclear i f) <|
  .next (s.issue i 4 (f.reserved != 0) [] (fun s => s.aclearAct i.core f))

/-- ASTAT (R93): its register awaits the result; an earlier load or ASTAT no longer writes it. -/
def execAstat (i : Issue) (f : FmtAstat) (s : State) : Result :=
  s.asSpelled i (.astat i f) <|
  .next (s.issue i 4 (f.reserved != 0) [] (fun s =>
    s.orUnconfigured i.core (fun _ v s => s.arrEnqueue i.core (.astat f.g f.clr) 4 v (fun k => k.supersede (.g f.g)))))

end Sys2Proof.Machine
end

