-- ==== Sys2Proof/Machine/ArrayRun.lean ====
section
/-!
DEFINITION. What the cell array does with a queued instruction (R67 to R98): terms, block registers and folds in the datum
order, drains, gangs; ARRAY_ENTRY_COMPLETE.
-/
namespace Sys2Proof.Machine

/-- An element as the array reads it: its code, its scale's code, and whether either came poisoned (R88, R97). -/
def State.readElem (s : State) (c : CoreId) (bits : Nat) (row idx : Nat) (scale : Option Nat) : Elem :=
  let bit := idx * bits
  let off := row + bit / 8
  let n := (bit % 8 + bits + 7) / 8
  { code := leNat (s.mem.read (storeKey c off) n) / 2 ^ (bit % 8) % 2 ^ bits
    scale := match scale with
      | some a => (byteAt s.mem.bytes (storeKey c a)).toNat
      | none => 127
    bad := s.poisoned (storeKey c off) n || match scale with
      | some a => s.poisoned (storeKey c a) 1
      | none => false }

/-- The value of an element (R102, R104): an INT8 integer, or its code's number times its own scale. -/
def elemNum (f : Nat) (var : Bool) (e : Elem) : Num :=
  if f = 7 then intNum (toSigned 8 e.code)
  else if fmtIsMx f then (((elemFmt f var).decode e.code).mul (scaleNum e.scale)).1
  else (elemFmt f var).decode e.code

/-- The term of a mode (R67), and whether it is invalid (R107). -/
def modeTerm (mode : Nat) (a w : Num) : Num × Bool :=
  match mode with
  | 0 => a.mul w
  | 1 => let (d, nv) := a.add w.neg; (d.abs, nv)
  | 2 => let (d, nv) := a.add w.neg; ((d.mul d).1, nv)
  | _ => a.add w

/-- An empty exact register tagged with a block (R69, R71). -/
def Block.empty (blk : Nat) : Block :=
  { blk := blk, val := none, pos := 0, nan := false, nanPos := 0, nanOpd := false, nv := false, posInf := false,
    negInf := false }

/-- A term joins the exact register; among equal maxima of CMPMAX the lower position wins (R67, R68, R107, R108). -/
def Block.addTerm (b : Block) (mode : Nat) (a w : Num) (pos : Nat) : Block :=
  let (t, nv) := modeTerm mode a w
  let b := { b with nanOpd := b.nanOpd || a.isNan || w.isNan, nv := b.nv || nv }
  match t with
  | .nan => if b.nan then b else { b with nan := true, nanPos := pos }
  | t =>
    if mode < 3 then
      match t with
      | .inf true => { b with negInf := true }
      | .inf false => { b with posInf := true }
      | t => { b with val := some (match b.val with
          | none => t
          | some v => (v.add t).1) }
    else
      match b.val with
      | none => { b with val := some t, pos := pos }
      | some v =>
        if (if mode = 3 then t.below v else v.below t) || (mode = 5 && !t.below v && pos < b.pos) then { b with val := some t, pos := pos } else b

/-- The value of a block register, its position, and the flags of its special terms (R68, R107). -/
def Block.value (b : Block) : Num × Nat × FlagSet :=
  let fl := flIf b.nv flNv
  if b.nan then (.nan, b.nanPos, fl)
  else if b.posInf && b.negInf then (.nan, 0, fl ||| flIf (!b.nanOpd) flNv)
  else if b.posInf then (.inf false, 0, fl)
  else if b.negInf then (.inf true, 0, fl)
  else (b.val.getD (.fin false 0 0), b.pos, fl)

/-- An accumulator as a number: INT32 in INT8 format, else FP32. -/
def accNum (int : Bool) (w : Word) : Num := if int then intNum w.toInt else numOf w

/-- A number as an accumulator (R71, R106). -/
def accWord (int : Bool) (x : Num) : Word × FlagSet :=
  if int then let (c, fl) := toIntCode 32 x; (BitVec.ofNat 32 c, fl) else toFp32 x

/-- The fold of the pending block into the accumulator (R68, R71, R106). -/
def Slot.fold (sl : Slot) (mode : Nat) (int : Bool) : Slot × FlagSet :=
  match sl.pend with
  | none => (sl, 0)
  | some b =>
    let (x, pos, fl) := b.value
    let (v, fl1) := accWord int x
    let out : Word × Word × FlagSet :=
      match sl.acc with
      | none => (v, BitVec.ofNat 32 pos, 0)
      | some a =>
        let na := accNum int a
        let nv := accNum int v
        if mode < 3 then
          let (r, f) := accWord int (na.add nv).1
          (r, sl.pos, f ||| flIf (na.add nv).2 flNv)
        else if na.isNan then (a, sl.pos, 0)
        else if nv.isNan || (if mode = 3 then nv.below na else na.below nv) || (mode = 5 && !nv.below na && pos < sl.pos.toNat) then
          (v, BitVec.ofNat 32 pos, 0)
        else (a, sl.pos, 0)
    ({ sl with acc := some out.1, pos := out.2.1, pend := none }, fl ||| fl1 ||| out.2.2)

/-- A term of the global K position pos reaches a slot: a fold first where its block is another (R71); or one fused
multiply-add in BX-600 order mode (R111). -/
def Slot.term (sl : Slot) (g : ArrCfg) (int : Bool) (a w : Num) (pos : Nat) : Slot × FlagSet :=
  if g.ord6 then
    let c := accNum false (sl.acc.getD 0)
    if a.isNan || w.isNan || c.isNan then ({ sl with acc := some (BitVec.ofNat 32 fp32.nanCode) }, 0)
    else
      let (r, f) := toFp32Nv (numFma a w c)
      ({ sl with acc := some r }, f)
  else
    let (sl, fl) := match sl.pend with
      | some b => if b.blk = pos / 32 then (sl, 0) else sl.fold g.mode.toNat int
      | none => (sl, 0)
    let b := sl.pend.getD (Block.empty (pos / 32))
    ({ sl with pend := some (b.addTerm g.mode.toNat a w pos) }, fl)

/-- A stream row meets a column: terms in rising K position; a poisoned element poisons the slot (R97), whose value then no
longer counts. -/
def Slot.row (sl : Slot) (g : ArrCfg) (i : Nat) : List (Elem × Elem × Nat) → Slot × FlagSet
  | [] => (sl, 0)
  | (a, w, pos) :: rest =>
    if sl.bad || a.bad || w.bad then ({ sl with bad := true }, 0)
    else
      let (sl1, f) := sl.term g (g.fmt i == 7) (elemNum (g.fmt i) (g.svar i) a) (elemNum (g.fmt i) (g.wvar i) w) pos
      let (sl2, f') := sl1.row g i rest
      (sl2, f ||| f')

/-- A slot of a column of a core's bank (R69). -/
def Core.slot (k : Core) (col n : Nat) : Slot := k.arr.slots.get (64 * col + n) Slot.empty
def Core.setSlot (k : Core) (col n : Nat) (v : Slot) : Core :=
  { k with arr := { k.arr with slots := k.arr.slots.put (64 * col + n) v } }
def Core.emptySlot (k : Core) (col n : Nat) : Core :=
  { k with arr := { k.arr with slots := k.arr.slots.erase (64 * col + n) } }

/-- Flags of folds and drains set a strip's group and the aggregates of the parcel and the tract (R125). -/
def State.arrFlags (s : State) (c : CoreId) (i : Fin 4) (fl : FlagSet) : State :=
  let s := s.modCore c (fun k => { k with arr := { k.arr with flags := k.arr.flags.set i ((k.arr.flags[i]) ||| fl) } })
  let pn := parcelReg .parcelNflags (coreParcel c)
  let tn := tractReg .tractNflags c.tract
  (s.setReg pn (s.reg pn ||| fl.toNat)).setReg tn (s.reg tn ||| fl.toNat)

/-- The record of poison that reaches slots: the strip, then the slots as a mask (R97). -/
def State.arrPoison (s : State) (c : CoreId) (i : Fin 4) (mask : Nat) : State :=
  if mask = 0 then s
  else s.emit { s.recordC .arrayPoison 1 c with
    detail := detailWords [i.val, mask % 2 ^ 32, mask / 2 ^ 32] }

/-- What reading regions of a core's local store does (R133). -/
def State.touchRegions (s : State) (c : CoreId) (rs : List Region) : State :=
  rs.foldl (fun s r => s.touch (storeKey c r.1) r.2) s

/-- The entry at the head of a core's queue. -/
def State.arrHead (s : State) (c : CoreId) : Option ArrOp := (s.core c).arr.queue.head?.map (fun e => e.op)

/-- The head of a core's queue completes and leaves it. -/
def Core.popArr (k : Core) : Core := { k with arr := { k.arr with queue := k.arr.queue.drop 1 } }

/-- AMODE's effect on one array (R89): flags stay. -/
def Core.configure (k : Core) (g : ArrCfg) : Core :=
  { k with arr := { k.arr with cfg := some g, formed := true, strips := Vector.replicate 4 Strip.empty, slots := [] } }

/-- AWLOAD's effect for one core (R90): the sequence's chunks are read, the earlier sequence is discarded. -/
def State.runAwload (s : State) (c : CoreId) (g : ArrCfg) (i : Fin 4) (src : Source) (q : WSeqShape) : State :=
  let w := ((g.cols i.val).map (fun x => x.2)).getD 0
  let st := (s.core c).arr.strips[i]
  let cs := chunkRefs q st.kpos 0 q.nch
  let mx := fmtIsMx (g.fmt i.val)
  let chunks : List WChunk := cs.map (fun r =>
    (List.range w).map (fun n =>
      (memberK g i.val g.grow.toNat r.n).map (fun k =>
        let (row, idx) := src.weight r.c k n
        s.readElem c (elemBits (g.fmt i.val)) row idx
          (if mx then some (src.weightScale r.c k n (r.block st.kpos k)) else none))))
  let s1 := s.touchRegions c (weightRegions g i.val g.grow.toNat w src st.kpos cs)
  s1.modCore c (fun k => { k with arr := { k.arr with
    strips := k.arr.strips.set i { st with seq := some q, chunks := chunks } } })

/-- What an ASTREAM consumes of a strip: the chunk references, the chunks of this core, and the strip afterwards. -/
def Strip.consume (x : Strip) (reuse : Bool) (nch : Nat) : List ChunkRef × List WChunk × Strip :=
  if reuse then
    match x.last with
    | some (kpos, ch) => ([{ c := 0, kpos := kpos, n := 0 }], [ch], x)
    | none => ([], [], x)
  else
    match x.seq with
    | none => ([], [], x)
    | some q =>
      let cs := chunkRefs q x.kpos q.next nch
      let ws := (x.chunks.drop q.next).take nch
      (cs, ws, { x with
        kpos := (x.kpos + (cs.map (fun r => r.n)).sum) % 2 ^ 32
        seq := some { q with next := q.next + nch }
        last := match cs.getLast?, ws.getLast? with
          | some r, some ch => some (r.kpos, ch)
          | _, _ => x.last })

/-- The operands of an ASTREAM at one member. -/
def streamSource (op : Option ArrOp) (kc : Nat) : Source :=
  match op with
  | some (.astream _ a x m _ turn _ _ rs2) => { addr := a, scale := x, rs := rs2, turn := turn, m := m, kc := kc }
  | _ => { addr := 0, scale := 0, rs := 0, turn := false, m := 0, kc := kc }

/-- The stream elements of row m for one chunk, in rising K position: each west member of the gang reads its own rows (R76). -/
def State.streamRow (s : State) (west : List CoreId) (g : ArrCfg) (i : Nat) (kc first : Nat) (r : ChunkRef) (m : Nat) :
    List Elem :=
  (List.range west.length).flatMap (fun gr =>
    match west[gr]? with
    | none => []
    | some c =>
      let src := streamSource (s.arrHead c) kc
      (memberK g i gr r.n).map (fun k =>
        let (row, idx) := src.stream g i r.c k m
        s.readElem c (elemBits (g.fmt i)) row idx
          (if fmtIsMx (g.fmt i) then some (src.streamScale r.c k m (r.block first k)) else none)))

/-- One chunk streamed through one column of a bottom member's bank: rows 0 to m - 1 into slots sb to sb + m - 1. Returns the
bank, the flags, and the mask of slots poisoned. -/
def streamColumn (g : ArrCfg) (i : Nat) (sb col kpos : Nat) (rows : List (List Elem)) (ws : List Elem) (k : Core) :
    Core × FlagSet × Nat :=
  (List.range rows.length).foldl (fun acc m =>
    let (k, fl, mask) := acc
    let terms := ((rows.getD m []).zip ws).zipIdx.map (fun q => (q.1.1, q.1.2, (kpos + q.2) % 2 ^ 32))
    let sl := k.slot col (sb + m)
    let (sl', f) := sl.row g i terms
    (k.setSlot col (sb + m) sl', fl ||| f, if sl'.bad && !sl.bad then mask ||| 2 ^ (sb + m) else mask)) (k, 0, 0)

/-- ASTREAM's effect on a whole gang, or on one core (R74, R76, R90). ms: its members in order of row and column. -/
def State.runAstream (s : State) (ms : List CoreId) (g : ArrCfg) (i : Fin 4) (m sb : Nat) (reuse : Bool) (nch : Nat) : State :=
  let gz := g.size
  let (lo, w) := (g.cols i.val).getD (0, 0)
  let west := (List.range gz).filterMap (fun r => ms[r * gz]?)
  let bottom := (List.range gz).filterMap (fun c => ms[(gz - 1) * gz + c]?)
  let use (c : CoreId) : List ChunkRef × List WChunk × Strip := ((s.core c).arr.strips[i]).consume reuse nch
  let kc := match ms.head?.bind (fun c => ((s.core c).arr.strips[i]).seq) with
    | some q => q.kc
    | none => 0
  let refs := match ms.head? with
    | some c => (use c).1
    | none => []
  -- the weights of a column of gang column gc for chunk j, over the gang's rows
  let weights (gc j n : Nat) : List Elem :=
    (List.range gz).flatMap (fun r =>
      match ms[r * gz + gc]? with
      | some c => (((use c).2.1).getD j []).getD n []
      | none => [])
  let refs := (List.range refs.length).map (fun j =>
    let r := refs.getD j { c := 0, kpos := 0, n := 0 }
    { r with n := (weights 0 j 0).length })
  let first := (refs.head?.map (fun r => r.kpos)).getD 0
  let rows (r : ChunkRef) : List (List Elem) :=
    (List.range m).map (fun mm => s.streamRow west g i.val kc first r mm)
  let s1 := (List.range west.length).foldl (fun s gr =>
    match west[gr]? with
    | some c => s.touchRegions c (streamRegions g i.val gr (streamSource (s.arrHead c) kc) first refs)
    | none => s) s
  let s2 := (List.range bottom.length).foldl (fun s gc =>
    match bottom[gc]? with
    | none => s
    | some c =>
      let (k, fl, mask) := (List.range refs.length).foldl (fun (acc : Core × FlagSet × Nat) j =>
        let r := refs.getD j { c := 0, kpos := 0, n := 0 }
        (List.range w).foldl (fun (acc : Core × FlagSet × Nat) n =>
          let (k, fl, mask) := acc
          let (k', f, mask') := streamColumn g i.val sb (lo + n) r.kpos (rows r) (weights gc j n) k
          (k', fl ||| f, mask ||| mask')) acc) (s.core c, 0, 0)
      ((s.setCore c k).arrFlags c i fl).arrPoison c i mask) s1
  ms.foldl (fun s c =>
    s.modCore c (fun k => { k with arr := { k.arr with
      strips := k.arr.strips.set i (((k.arr.strips[i]).consume reuse nch).2.2) } })) s2

/-- What an empty slot drains as (R67). -/
def emptyDrain (mode : Nat) : Num :=
  if mode < 3 then .fin false 0 0 else .inf (decide (3 < mode))

/-- A drained element before conversion: its value, its position, whether it is poisoned, whether its bias was. -/
structure DrainElem where
  x       : Num
  fl      : FlagSet
  raw     : Nat
  bad     : Bool
  biasBad : Bool
  slot    : Nat

/-- The output stage's t for a folded slot (R82, R119), clipped (R114). bias: the entry, where it is added. -/
def drainValue (g : ArrCfg) (i : Nat) (d : DrainDesc) (sl : Slot) (bias : Option (Nat × Bool)) (slot : Nat) : DrainElem :=
  let int := g.fmt i == 7
  let v := match sl.acc with
    | some w => accNum int w
    | none => emptyDrain g.mode.toNat
  let pos := match sl.acc with
    | some _ => sl.pos.toNat
    | none => 0xFFFF_FFFF
  let bad := sl.bad || (bias.map (fun b => b.2)).getD false
  let sc := fp32.decode d.scale
  let (p, nv) := v.mul sc
  let (t, nv') := match bias with
    | some b => p.add (fp32.decode b.1)
    | none => (p, false)
  let quiet := v.isNan || sc.isNan || (bias.map (fun b => (fp32.decode b.1).isNan)).getD false
  let t := if d.clip then (t.min2 (fp32.decode d.hi)).max2 (fp32.decode d.lo) else t
  { x := t, fl := flIf (!quiet && (nv || nv')) flNv, raw := (toFp32 v).1.toNat + pos * 2 ^ 32, bad := bad,
    biasBad := (bias.map (fun b => b.2)).getD false, slot := slot }

/-- A drained element converted outside MX (R85, R117, R118): code and flags. -/
def DrainElem.convert (e : DrainElem) (d : DrainDesc) : Nat × FlagSet :=
  if d.raw then (e.raw, 0)
  else if d.ofmt = 8 then toIntCode 32 e.x
  else if d.ofmt = 7 then let (c, f) := toIntCode 8 e.x; (c, f ||| e.fl)
  else let (c, f) := (elemFmt d.ofmt d.ovar).convert d.clip e.x; (c, f ||| e.fl)

/-- Bits of an output element. -/
def drainBits (d : DrainDesc) : Nat := if d.raw then 64 else if d.ofmt = 8 then 32 else elemBits d.ofmt

/-- An output row: its codes with whether each is poisoned. -/
abbrev DrainRow := List (Nat × Bool)

/-- Writes an output row at a local store offset: codes packed as R105 packs them, words of poisoned elements poisoned (R97). -/
def State.writeDrainRow (s : State) (c : CoreId) (bits off : Nat) (row : DrainRow) : State :=
  let v := (row.zipIdx.map (fun q => q.1.1 * 2 ^ (bits * q.2))).sum
  let s := s.store (storeKey c off) (natLe (ceilDiv (bits * row.length) 8) v)
  row.zipIdx.foldl (fun s q =>
    if q.1.2 then
      s.storePoison (storeKey c (off + bits * q.2 / 8)) ((bits * q.2 % 8 + bits + 7) / 8)
    else s) s

/-- The values a core drains: for each output row its elements, groups gathered (R82, R84). -/
def State.drainElems (s : State) (c : CoreId) (g : ArrCfg) (i lo w sb cnt : Nat) (d : DrainDesc) : List (List DrainElem) :=
  let groups := gatherGroups g d
  (List.range cnt).map (fun m =>
    (List.range groups).flatMap (fun j =>
      (List.range w).map (fun n =>
        let slot := sb + m + j * cnt
        let b := d.baddr + 4 * (8 * j + n)
        drainValue g i d ((s.core c).slot (lo + n) slot)
          (if d.bias then some (leNat (s.mem.read (storeKey c b) 4), s.poisoned (storeKey c b) 4) else none) slot)))

/-- Folds every pending value of the drained slots of a core (R71), with the flags. -/
def foldSlots (g : ArrCfg) (i lo w sb n : Nat) (k : Core) : Core × FlagSet :=
  (List.range w).foldl (fun acc x =>
    (List.range n).foldl (fun acc m =>
      let (k, fl) := acc
      let sl := k.slot (lo + x) (sb + m)
      let (sl', f) := if sl.bad then (sl, 0) else sl.fold g.mode.toNat (g.fmt i == 7)
      (if sl.pend.isSome then k.setSlot (lo + x) (sb + m) sl' else k, fl ||| f)) acc) (k, 0)

/-- The converted rows and scales of a core's drain: rows, scales by local store offset, flags. all: for each output row, the
elements of the whole block across the gang (R84). In a gang with MXDIR 0 each bottom member that shares a block writes the block's scale, at its
own MXSADDR + m, and the overflow of that scale is set in each one's strip group: which of them does either the spec does not say (DESIGN CHOICE,
assumption log 23). -/
def convertDrain (d : DrainDesc) (own all : List (List DrainElem)) : List DrainRow × List (Nat × Nat × Bool) × FlagSet :=
  let f := elemFmt d.ofmt d.ovar
  let orFl (l : List FlagSet) : FlagSet := l.foldl (fun a b => a ||| b) 0
  if !d.mx then
    (own.map (fun r => r.map (fun e => ((if e.bad then 0 else (e.convert d).1), e.bad))), [],
      orFl (own.flatMap (fun r => r.map (fun e => if e.bad then 0 else (e.convert d).2))))
  else
    -- one block: the elements it gathers, those of this core among them, and the offset of its scale
    let block (whole mine : List DrainElem) (off : Nat) : DrainRow × (Nat × Nat × Bool) × FlagSet :=
      if whole.any (fun e => e.bad) then (mine.map (fun _ => (0, true)), (off, 0, true), 0)
      else
        let (sc, f1) := mxScale f (whole.map (fun e => e.x))
        let (cs, f2) := mxElems f sc (mine.map (fun e => e.x))
        (cs.map (fun c => (c, false)), (off, sc, false), orFl (mine.map (fun e => e.fl)) ||| f1 ||| f2)
    if !d.mxdir then
      let bs := (List.range own.length).map (fun m => block (all.getD m []) (own.getD m []) (d.saddr + m))
      (bs.map (fun b => b.1), bs.map (fun b => b.2.1), orFl (bs.map (fun b => b.2.2)))
    else
      let w := (own.headD []).length
      let dummy : DrainElem := { x := .nan, fl := 0, raw := 0, bad := false, biasBad := false, slot := 0 }
      let col (n j : Nat) : List DrainElem := (List.range 32).map (fun m => (own.getD (32 * j + m) []).getD n dummy)
      let bs := (List.range w).map (fun n => (List.range (own.length / 32)).map (fun j =>
        block (col n j) (col n j) (d.saddr + 8 * j + n)))
      ((List.range own.length).map (fun m => (List.range w).map (fun n =>
        (((bs.getD n []).map (fun b => b.1)).getD (m / 32) []).getD (m % 32) (0, false))),
        bs.flatMap (fun b => b.map (fun x => x.2.1)), orFl (bs.flatMap (fun b => b.map (fun x => x.2.2))))

/-- ADRAIN's effect on the bottom members of a gang, or on one core (R76, R82 to R85, R91, R97): the values come from every slot gathered, folded;
the slots SB to SB + CNT - 1 keep that fold, or are emptied without KEEP. -/
def State.runAdrain (s : State) (bottom : List CoreId) (g : ArrCfg) (i : Fin 4) : State :=
  let (lo, w) := (g.cols i.val).getD (0, 0)
  let opOf (s : State) (c : CoreId) : Nat × DrainDesc × Nat × Nat × Bool × Nat :=
    match s.arrHead c with
    | some (.adrain _ ad desc sb cnt keep rs) => (ad, drainDesc desc, sb, cnt, keep, rs)
    | _ => (0, drainDesc [], 0, 0, true, 0)
  -- every pending value is folded first
  let s1 := bottom.foldl (fun s c =>
    let (_, d, sb, cnt, _, _) := opOf s c
    let (_, fl) := foldSlots g i.val lo w sb (cnt * gatherGroups g d) (s.core c)
    (s.setCore c (foldSlots g i.val lo w sb cnt (s.core c)).1).arrFlags c i fl) s
  let elems (c : CoreId) : List (List DrainElem) :=
    let (_, d, sb, cnt, _, _) := opOf s1 c
    (s1.modCore c (fun k => (foldSlots g i.val lo w sb (cnt * gatherGroups g d) k).1)).drainElems c g i.val lo w sb cnt d
  let whole (m : Nat) : List DrainElem := bottom.flatMap (fun c => (elems c).getD m [])
  bottom.foldl (fun s c =>
    let (ad, d, sb, cnt, keep, rs) := opOf s c
    let own := elems c
    let (rows, scales, fl) := convertDrain d own ((List.range cnt).map whole)
    let s := if d.bias then s.touch (storeKey c d.baddr) (4 * drainRow g w d) else s
    let s := rows.zipIdx.foldl (fun s q => s.writeDrainRow c (drainBits d) (ad + q.2 * rs) q.1) s
    let s := scales.foldl (fun s q => s.storeMaybe (storeKey c q.1) [BitVec.ofNat 8 q.2.1] q.2.2) s
    let s := s.arrFlags c i fl
    let s := s.arrPoison c i ((own.flatMap id).foldl (fun a e => if e.biasBad then a ||| 2 ^ e.slot else a) 0)
    if keep then s
    else s.modCore c (fun k =>
      (List.range w).foldl (fun k x =>
        (List.range cnt).foldl (fun k m => k.emptySlot (lo + x) (sb + m)) k) k)) s1

/-- ACLEAR's effect on one core (R92). -/
def Core.clearSlots (k : Core) (g : ArrCfg) (i : Fin 4) (sb cnt : Nat) (krst : Bool) : Core :=
  let (lo, w) := (g.cols i.val).getD (0, 0)
  let k := (List.range w).foldl (fun k x =>
    (List.range cnt).foldl (fun k m => k.emptySlot (lo + x) (sb + m)) k) k
  if krst then { k with arr := { k.arr with strips := k.arr.strips.set i Strip.empty } } else k

/-- ASTAT's effect on one core (R93): the flags reach the register, and are cleared with CLR. -/
def Core.statResult (k : Core) (g : BitVec 5) (clr : Bool) : Core :=
  let k := k.setG g (BitVec.ofNat 32 k.arr.flagWord)
  if clr then { k with arr := { k.arr with flags := Vector.replicate 4 0 } } else k

/-- Whether two members' entries are the same part of a gang instruction (R76). DESIGN CHOICE: the AMODEs by which the members of a formed gang
leave it must agree in MODE, formats, ORD6 and GANG as those that form one must (R75), and break the gang where they do not; the spec does not say
(assumption log 23). -/
def ArrOp.agrees : ArrOp → ArrOp → Bool
  | .amode a, .amode b => a.mode == b.mode && a.fmts == b.fmts && a.ord6 == b.ord6 && a.gang == b.gang
  | .awload i _ _ _ n k l t, .awload i' _ _ _ n' k' l' t' => i == i' && n == n' && k == k' && l == l' && t == t'
  | .astream i _ _ m b t r n _, .astream i' _ _ m' b' t' r' n' _ =>
    i == i' && m == m' && b == b' && t == t' && r == r' && (r || n == n')
  | .adrain i _ _ b n k r, .adrain i' _ _ b' n' k' r' => i == i' && b == b' && n == n' && k == k' && r == r'
  | .aclear i b n k, .aclear i' b' n' k' => i == i' && b == b' && n == n' && k == k'
  | .astat _ _, .astat _ _ => true
  | _, _ => false

def ArrOp.isAmode : ArrOp → Bool
  | .amode _ => true
  | _ => false

/-- The effect of an entry that every member of ms has at the head of its queue; ms in order of gang row and column. -/
def State.runArr (s : State) (ms : List CoreId) (g : ArrCfg) (op : ArrOp) : State :=
  let bottom := (List.range g.size).filterMap (fun c => ms[(g.size - 1) * g.size + c]?)
  let each (f : CoreId → ArrOp → State → State) : State :=
    ms.foldl (fun s c => match s.arrHead c with
      | some o => f c o s
      | none => s) s
  match op with
  | .amode _ => each (fun c o s => match o with
      | .amode g => s.modCore c (fun k => k.configure g)
      | _ => s)
  | .awload _ _ _ _ _ _ _ _ => each (fun c o s => match o with
      | .awload i aw ax rs nch kc kcl turn =>
        s.runAwload c ((s.core c).arr.cfg.getD g) i
          { addr := aw, scale := ax, rs := rs, turn := turn, m := 0, kc := kc }
          { nch := nch, kc := kc, kcl := kcl, next := 0 }
      | _ => s)
  | .astream i _ _ m sb _ reuse nch _ => s.runAstream ms g i m sb reuse nch
  | .adrain i _ _ _ _ _ _ => s.runAdrain bottom g i
  | .aclear i sb cnt krst => each (fun c _ s => s.modCore c (fun k => k.clearSlots g i sb cnt krst))
  | .astat _ _ => each (fun c o s => match o with
      | .astat r clr => s.modCore c (fun k => k.statResult r clr)
      | _ => s)

/-- The cores whose entries complete together with a core's: its gang once formed, and for an AMODE the gang it forms (R75, R76). -/
def arrTeam (c : CoreId) (k : Core) (op : ArrOp) : List CoreId :=
  let now := match k.arr.cfg with
    | some g => if k.arr.formed then g.size else 1
    | none => 1
  match op with
  | .amode g => gangMembers c (max now g.size)
  | _ => gangMembers c now

/-- ARRAY_ENTRY_COMPLETE: members whose array queue or gang link fails its parity stop (R410). Else the oldest entry of a core's array queue completes, together with its gang's (R76, R89, R95). While a
member's part is missing nothing completes (R78). -/
def execArrayEntryComplete (c : CoreId) (s : State) : Result :=
  .next <| if s.dead c.tract.val then s else
    match s.arrHead c with
    | none => s
    | some op =>
      let ms := arrTeam c (s.core c) op
      let formed := match (s.core c).arr.cfg with
        | some g => (s.core c).arr.formed && g.size != 1
        | none => false
      let heads := ms.map s.arrHead
      let faults := ms.filterMap (fun m => (s.coreBad m (if ms.length = 1 then [2] else [2, 3])).map (fun n => (m, n)))
      if heads.any Option.isNone then s
      else if !faults.isEmpty then
        (faults.foldl (fun (s : State) (f : CoreId × Nat) =>
          s.deferred f.1 (s.core f.1).pc.toNat { cause := .coreParity, sub := f.2 }) s).raPump c.tract
      else if heads.all (fun o => (o.map (fun x => op.agrees x)).getD false) then
        let g := match op with
          | .amode g => g
          | _ => (s.core c).arr.cfg.getD { mode := 0, layout := 0, gang := 0, grow := 0, gcol := 0, ord6 := false, fmts := 0 }
        let s := s.runArr ms g op
        let s := ms.foldl (fun s m => s.modCore m Core.popArr) s
        (ms.foldl State.settle s).raPump c.tract
      else if formed || heads.all (fun o => match o, op with
          | some (.amode a), .amode b => a.gang == b.gang
          | _, _ => false) then
        (s.breakMembers ms .mismatch).raPump c.tract
      else s

end Sys2Proof.Machine
end

