-- ==== Sys2Proof/Machine/Memory.lean ====
section
/-!
DEFINITION. The MEMORY class (R30 to R33, R35, R42, R43): loads, stores and atomics. A commons or slice access reads or
writes memory when it issues; a load's data reaches its register with LOAD_RESPONSE (assumption log 3). A global access
enters the request agent.
-/
namespace Sys2Proof.Machine

/-- A piece of load data as a register value: zero- or sign-extended. -/
def partValue (q : LoadPart) (data : List Byte) : Nat :=
  let v := fieldAt data q.lo q.len
  if q.sext && bitOf v (8 * q.len - 1) then v + (2 ^ 64 - 2 ^ (8 * q.len)) else v

/-- Load data written to its registers; a write to g0 is discarded. -/
def Core.writeParts (k : Core) (parts : List LoadPart) (data : List Byte) : Core :=
  parts.foldl (fun k q =>
    match q.reg with
    | .g n => k.setG n (BitVec.ofNat 32 (partValue q data))
    | .a n => k.setA n (BitVec.ofNat 64 (partValue q data))) k

/-- A load takes effect at issue (R42): in the local store its data comes at once, and a poisoned word raises LS_ECC
(R134); elsewhere the load becomes outstanding. -/
def State.loadAct (s : State) (c : CoreId) (space : BitVec 2) (off size n : Nat) (parts : List LoadPart) : State :=
  match s.accessFault c space off size false with
  | some e => s.raiseAt c e
  | none =>
    match s.loadStall c space with
    | some w => s.stallAt c w
    | none =>
      let pc := (s.core c).pc.toNat
      let addr := s.spaceAddr c space off
      let outstanding (s : State) (gen : Option Nat) (r : Option Response) : State :=
        s.modCore c (fun k =>
          let k := parts.foldl (fun k q => k.supersede q.reg) k
          let l : OutLoad :=
            { parts := parts, space := space.toNat, pc := pc, addr := addr, size := size, gen := gen, resp := r, atom := false,
              stopped := none }
          Core.retire { k with loads := k.loads ++ [l] } n)
      if space = 0 then
        let key := storeKey c off
        let data := s.peek key size
        if s.poisoned key size then (s.touch key size).raiseAt c { cause := .lsEcc, addr := addr }
        else (s.touch key size).modCore c (fun k =>
          (((parts.foldl (fun k q => k.supersede q.reg) k)).writeParts parts data).retire n)
      else if space = 3 then
        let (s, gen) := s.coreIssue c off (.load size) false
        outstanding s (some gen) none
      else
        let key := spaceKey c space off
        let r : Response := { status := 0, data := s.peek key size, poison := s.poisonMask key size }
        outstanding (s.touch key size) none (some r)

/-- A load of format M. -/
def loadM (i : Issue) (f : FmtM) (size : Nat) (bad : Bool) (parts : List LoadPart) (s : State) : Result :=
  .next (s.issue i (extLen f.ext) (bad || fmtMBad f) [.a f.ab] (fun s =>
    s.loadAct i.core f.space (fmtMOffset (s.core i.core) f size) size (extLen f.ext) parts))

/-- A load into one g-register. -/
def loadG (i : Issue) (f : FmtM) (size : Nat) (sext : Bool) (s : State) : Result :=
  loadM i f size false [{ reg := .g f.rt, lo := 0, len := size, sext := sext }] s

def execLdb (i : Issue) (f : FmtM) (s : State) : Result :=
  s.asSpelled i (.ldb i f) <|
  loadG i f 1 false s
def execLdbs (i : Issue) (f : FmtM) (s : State) : Result :=
  s.asSpelled i (.ldbs i f) <|
  loadG i f 1 true s
def execLdh (i : Issue) (f : FmtM) (s : State) : Result :=
  s.asSpelled i (.ldh i f) <|
  loadG i f 2 false s
def execLdhs (i : Issue) (f : FmtM) (s : State) : Result :=
  s.asSpelled i (.ldhs i f) <|
  loadG i f 2 true s
def execLdw (i : Issue) (f : FmtM) (s : State) : Result :=
  s.asSpelled i (.ldw i f) <|
  loadG i f 4 false s
/-- a(rt[3:0]); rt[4] must be 0. -/
def execLda (i : Issue) (f : FmtM) (s : State) : Result :=
  s.asSpelled i (.lda i f) <|
  loadM i f 8 (slotABad f.rt) [{ reg := .a (slotA f.rt), lo := 0, len := 8, sext := false }] s

/-- The four registers of a 16-byte access: g(r) to g(r+3). -/
def quadParts (r : BitVec 5) : List LoadPart :=
  tabulate 4 (fun j => { reg := .g (r + BitVec.ofNat 5 j), lo := 4 * j, len := 4, sext := false })

def execLdq (i : Issue) (f : FmtM) (s : State) : Result :=
  s.asSpelled i (.ldq i f) <|
  loadM i f 16 (quadBad f.rt) (quadParts f.rt) s

/-- A store takes effect at issue: its unit counts in TSIG (R424), the local store, commons or slice is written, a write to
a replica area is discarded with its record (R154); a global store enters the request agent (R42). -/
def State.storeAct (s : State) (c : CoreId) (space : BitVec 2) (off n : Nat) (data : List Byte) : State :=
  match s.accessFault c space off data.length true with
  | some e => s.raiseAt c e
  | none =>
    match s.storeStall c space with
    | some w => s.stallAt c w
    | none =>
      let s := if space = 0 then s else s.sign c (s.spaceAddr c space off) data
      let key := spaceKey c space off
      let s :=
        if space = 3 then (s.coreIssue c off (.store data) true).1
        else if space == 2 && s.inReplica key data.length then s.replicaRecord c.tract key
        else if space == 2 then (s.store key data).staleLines key data.length
        else s.store key data
      s.modCore c (fun k => k.retire n)

/-- A store of format M, its data read from the core. -/
def storeM (i : Issue) (f : FmtM) (size : Nat) (bad : Bool) (reads : List CReg) (data : Core → Nat) (s : State) : Result :=
  .next (s.issue i (extLen f.ext) (bad || fmtMBad f) (.a f.ab :: reads) (fun s =>
    s.storeAct i.core f.space (fmtMOffset (s.core i.core) f size) (extLen f.ext) (natLe size (data (s.core i.core)))))

/-- A store of the low bytes of a g-register. -/
def storeG (i : Issue) (f : FmtM) (size : Nat) (s : State) : Result :=
  storeM i f size false [.g f.rt] (fun k => (k.getG f.rt).toNat) s

def execStb (i : Issue) (f : FmtM) (s : State) : Result :=
  s.asSpelled i (.stb i f) <|
  storeG i f 1 s
def execSth (i : Issue) (f : FmtM) (s : State) : Result :=
  s.asSpelled i (.sth i f) <|
  storeG i f 2 s
def execStw (i : Issue) (f : FmtM) (s : State) : Result :=
  s.asSpelled i (.stw i f) <|
  storeG i f 4 s
def execSta (i : Issue) (f : FmtM) (s : State) : Result :=
  s.asSpelled i (.sta i f) <|
  storeM i f 8 (slotABad f.rt) [.a (slotA f.rt)] (fun k => (k.getA (slotA f.rt)).toNat) s

/-- g(r) to g(r+3) as a 128-bit number, g(r) lowest. -/
def Core.quad (k : Core) (r : BitVec 5) : Nat :=
  (k.getG r).toNat + (k.getG (r + 1)).toNat * 2 ^ 32 + (k.getG (r + 2)).toNat * 2 ^ 64 + (k.getG (r + 3)).toNat * 2 ^ 96

/-- The registers of a quad. -/
def quadRegs (r : BitVec 5) : List CReg := [.g r, .g (r + 1), .g (r + 2), .g (r + 3)]

def execStq (i : Issue) (f : FmtM) (s : State) : Result :=
  s.asSpelled i (.stq i f) <|
  storeM i f 16 (quadBad f.rt) (quadRegs f.rt) (fun k => k.quad f.rt) s

/-- The operand of an atomic: a register, or a pair with the low half first (R43). -/
def Core.atomOperand (k : Core) (w64 : Bool) (r : BitVec 5) : Nat :=
  if w64 then (k.getG r).toNat + (k.getG (r + 1)).toNat * 2 ^ 32 else (k.getG r).toNat
def atomRegs (w64 : Bool) (r : BitVec 5) : List CReg := if w64 then [.g r, .g (r + 1)] else [.g r]
def atomParts (w64 : Bool) (r : BitVec 5) : List LoadPart :=
  if w64 then [{ reg := .g r, lo := 0, len := 4, sext := false }, { reg := .g (r + 1), lo := 4, len := 4, sext := false }]
  else [{ reg := .g r, lo := 0, len := 4, sext := false }]

/-- An atomic takes effect (R43): with rd = g0 it is posted and counts as a store; else the old value comes back as a load
does. In the commons and the slice it is applied at issue. -/
def State.atomAct (s : State) (c : CoreId) (f : FmtA) (op n : Nat) (opd cmp : Nat) : State :=
  let off := ((s.core c).getA f.ab).toNat
  let size := atomSize f.size
  let posted := f.rd == 0
  match s.accessFault c f.space off size true with
  | some e => s.raiseAt c e
  | none =>
    match s.storeStall c f.space with
    | some w => s.stallAt c w
    | none =>
      let pc := (s.core c).pc.toNat
      let addr := s.spaceAddr c f.space off
      let back (s : State) (gen : Option Nat) (r : Option Response) : State :=
        if posted then s.modCore c (fun k => k.retire n)
        else s.modCore c (fun k =>
          let k := (atomParts f.size f.rd).foldl (fun k q => k.supersede q.reg) k
          let l : OutLoad :=
            { parts := atomParts f.size f.rd, space := f.space.toNat, pc := pc, addr := addr, size := size, gen := gen,
              resp := r, atom := true, stopped := none }
          Core.retire { k with loads := k.loads ++ [l] } n)
      if f.space = 3 then
        let (s, gen) := s.coreIssue c off (.atom op f.size opd cmp) posted
        back s (some gen) none
      else
        let key := spaceKey c f.space off
        let old := s.peek key size
        let bad := s.poisonMask key size
        if f.space == 2 && s.inReplica key size then back (s.replicaRecord c.tract key) none (some (statusResponse 3))
        else
          let s := (s.touch key size).store key (natLe size (atomNew op f.size (leNat old) opd cmp))
          back (if f.space = 2 then s.staleLines key size else s) none (some { status := 0, data := old, poison := bad })

/-- An atomic in LS is ILLEGAL; a 64-bit one needs even registers (R43). -/
def atomBad (f : FmtA) : Bool := f.space == 0 || (f.size && (oddReg f.rd || oddReg f.rs))

/-- A 32-bit word atomic of major 0x0A. -/
def atomic (i : Issue) (f : FmtA) (op : Nat) (s : State) : Result :=
  .next (s.issue i 4 (atomBad f) (.a f.ab :: atomRegs f.size f.rs) (fun s =>
    s.atomAct i.core f op 4 ((s.core i.core).atomOperand f.size f.rs) 0))

def execAtomAdd (i : Issue) (f : FmtA) (s : State) : Result :=
  s.asSpelled i (.atomAdd i f) <|
  atomic i f 0 s
def execAtomOr (i : Issue) (f : FmtA) (s : State) : Result :=
  s.asSpelled i (.atomOr i f) <|
  atomic i f 1 s
def execAtomAnd (i : Issue) (f : FmtA) (s : State) : Result :=
  s.asSpelled i (.atomAnd i f) <|
  atomic i f 2 s
def execAtomXor (i : Issue) (f : FmtA) (s : State) : Result :=
  s.asSpelled i (.atomXor i f) <|
  atomic i f 3 s
def execAtomMaxu (i : Issue) (f : FmtA) (s : State) : Result :=
  s.asSpelled i (.atomMaxu i f) <|
  atomic i f 4 s
def execAtomMinu (i : Issue) (f : FmtA) (s : State) : Result :=
  s.asSpelled i (.atomMinu i f) <|
  atomic i f 5 s
def execAtomMax (i : Issue) (f : FmtA) (s : State) : Result :=
  s.asSpelled i (.atomMax i f) <|
  atomic i f 6 s
def execAtomMin (i : Issue) (f : FmtA) (s : State) : Result :=
  s.asSpelled i (.atomMin i f) <|
  atomic i f 7 s
def execAtomXchg (i : Issue) (f : FmtA) (s : State) : Result :=
  s.asSpelled i (.atomXchg i f) <|
  atomic i f 8 s

/-- CAS: the compare register in bits [4:0] of the extension word, bits [31:5] reserved; a pair for 64 bits (R43). -/
def execCas (i : Issue) (f : FmtA) (ext : Word) (s : State) : Result :=
  s.asSpelled i (.cas i f ext) <|
  let rc : BitVec 5 := ext.setWidth 5
  .next (s.issue i 8 (atomBad f || ext.toNat ≥ 32 || (f.size && oddReg rc))
    (.a f.ab :: (atomRegs f.size f.rs ++ atomRegs f.size rc)) (fun s =>
      s.atomAct i.core f 9 8 ((s.core i.core).atomOperand f.size f.rs) ((s.core i.core).atomOperand f.size rc)))

end Sys2Proof.Machine
end

