-- ==== Sys2Proof/Machine/Tiles.lean ====
section
/-!
DEFINITION. The TILE class and the tile list unit (R53, R166 to R177, R182, R423 to R425): TAKE, STEAL, DONE, list operations,
push, held records, retry and audit entries.
-/
namespace Sys2Proof.Machine

/-- The fields of a tile descriptor (R166). -/
def tdNoSteal (d : BitVec 128) : Bool := d.getLsbD 24
def tdHome (d : BitVec 128) : Nat := bitsOf d.toNat 106 96
def tdDm (d : BitVec 128) : Bool := d.getLsbD 107
def tdDmark (d : BitVec 128) : BitVec 10 := d.extractLsb' 112 10

/-- A descriptor is valid when every field lies in its range and no reserved bit is set (R166). -/
def tdValid (d : BitVec 128) : Bool :=
  let v := d.toNat
  let bg := bitsOf v 63 56
  bitsOf v 31 26 == 0 && bitsOf v 55 48 != 0 && bitsOf v 87 80 != 0 && (bg != 0 || bitsOf v 95 88 == 0) &&
    tdHome d < 1360 && bitsOf v 111 108 == 0 && bitsOf v 127 122 == 0

/-- The capacity of a tract's tile lists (R169). -/
def State.tileCap (s : State) (t : Tract) : Nat := bitsOf (s.layout t) 3 0 * 1024

/-- Free entries of a parcel's list; a retired parcel's list accepts nothing (R169, R428). -/
def State.tileFree (s : State) (p : ParcelId) : Nat :=
  if (s.parcel p).health.retired then 0 else s.tileCap p.tract - (s.parcel p).tiles.length

/-- Lets every core of a parcel that sleeps look at its conditions again (R54). -/
def State.wakeSleepers (s : State) (p : ParcelId) : State := (s.coresOf p).foldl State.sleepCheck s

/-- Entries appended at the tail of a parcel's list, in order (R169). -/
def State.tileAppend (s : State) (p : ParcelId) (es : List TileEntry) : State :=
  (s.modParcel p (fun v =>
    { v with tiles := v.tiles ++ es, tileLow := if es.isEmpty then v.tileLow else min v.tileLow (tileBase (s.layout p.tract)) })).wakeSleepers p

/-- The record of an entry removed for a parity error or poison (R182). -/
def State.tileParity (s : State) (p : ParcelId) : State :=
  (s.raise (parcelReg .tlStat p) 14).emit (s.recordP .tileParity 5 p)

/-- n such records. -/
def State.tileParities (s : State) (p : ParcelId) : Nat → State
  | 0 => s
  | n + 1 => (s.tileParity p).tileParities p n

/-- Removes the head of a list, and the damaged entries before it, which are not delivered (R169, R182). -/
def takeHead : List TileEntry → Nat → Option TileEntry × List TileEntry × Nat
  | [], n => (none, [], n)
  | e :: es, n => if e.bad then takeHead es (n + 1) else (some e, es, n)

/-- The parcel at a physical site, where one is enabled there and not retired (R13, R14, R171). -/
def State.parcelAt (s : State) (t : Tract) (x y : Nat) : Option ParcelId :=
  let ok (p : ParcelId) : Bool := s.site p == (x, y) && !(s.parcel p).health.retired
  (List.range 34).findSome? fun i =>
    if (x = s.spareSite t.val y || i = x || i + 1 = x) && y < 40 then
      match keyParcel (keyOf t.val (34 * y + i) 0) with
      | some p => if ok p then some p else none
      | none => none
    else none

/-- The eligible neighbour in a direction: north 0, east 1, south 2, west 3; in the same plot (R171, R172). -/
def State.neighbour (s : State) (p : ParcelId) (dir : Nat) : Option ParcelId :=
  let (x, y) := s.site p
  let at_ : Option ParcelId := match dir with
    | 0 => if y = 0 then none else s.parcelAt p.tract x (y - 1)
    | 1 => if x = 34 then none else s.parcelAt p.tract (x + 1) y
    | 2 => s.parcelAt p.tract x (y + 1)
    | _ => if x = 0 then none else s.parcelAt p.tract (x - 1) y
  match at_ with
  | some q => if (s.parcel q).plot.isSome && (s.parcel q).plot == (s.parcel p).plot then some q else none
  | none => none

/-- The length of the stealable tail: the run of entries at the tail with NOSTEAL = 0 (R172). -/
def stealTail (l : List TileEntry) : Nat := firstIdx (fun e => tdNoSteal e.bytes) l.reverse

/-- The plot configuration of a parcel (R164). -/
def State.plotCfg (s : State) (p : ParcelId) : Nat := s.plotReg p .plotCfg

/-- A core's held record is set; a record already held is replaced with its error record (R176), TSIG starts at 0 (R424). -/
def State.setHeld (s : State) (c : CoreId) (h : Held) : State :=
  let s := if s.holds c then s.emit (s.recordC .tileRehold 5 c) else s
  let s := s.modParcel (coreParcel c) (fun v => { v with held := v.held.put c.core h })
  s.modCore c (fun k => { k with tsig := 0 })

/-- Whether draw k from now samples at a rate: with probability 2^-rate, 31 never (R425, R426). -/
def State.auditDraw (s : State) (rate k : Nat) : Bool := rate != 31 && (rate == 0 || Config.auditSample (s.free + k) rate)

/-- A plot's sampling of a returned entry: an audit copy is placed, or the sample is skipped for lack of an entry (R425). -/
def State.auditTake (s : State) (c : CoreId) (d : BitVec 128) : State × Option Nat :=
  let p := coreParcel c
  if !bitOf (s.plotReg p .plotRel) 1 then (s, none)
  else if !s.auditDraw (s.regBits (modReg .relCtl) 4 0) 0 then (s.takeFree, none)
  else if 64 ≤ (s.parcel p).audits.length then
    ((s.takeFree).modHealth p (fun h => { h with askip := (h.askip + 1) % 65536 }), none)
  else
    let id := firstIdx (fun n => (s.parcel p).audits.all (fun e => e.id ≠ n)) (List.range 64)
    let e : AuditEntry := { id := id, desc := d, done := [], taken := [c.core], ready := true }
    ((s.takeFree).modParcel p (fun v => { v with audits := v.audits ++ [e] }), some id)

/-- An entry returned to a core: its 16 bytes in g(gd) to g(gd+3), pd = 1, the held record set (R53, R176). -/
def State.tileReturn (s : State) (c : CoreId) (gd : BitVec 5) (pd : BitVec 3) (h : Held) : State :=
  let s := s.setHeld c h
  s.modCore c (fun k =>
    let k := (List.range 4).foldl (fun k j =>
      k.putG (gd + BitVec.ofNat 5 j) (h.desc.extractLsb' (32 * j) 32)) k
    (k.setP pd true).retire 4)

/-- No entry: pd = 0, the registers unchanged (R53). -/
def State.tileNone (s : State) (c : CoreId) (pd : BitVec 3) : State :=
  s.modCore c (fun k => (k.setP pd false).retire 4)

/-- An entry of the retry queue that a core may take: a retry entry of another core first, then an audit copy of a tile it
has not run (R423, R425). -/
def State.takeRetry (s : State) (c : CoreId) : Option (Held × State) :=
  let p := coreParcel c
  match (s.parcel p).retries.find? (fun r => r.first ≠ c.core) with
  | some r =>
    some ({ desc := r.desc, first := some r.first, audit := r.audit },
      s.modParcel p (fun v => { v with
        retries := dropFirst (fun x => x == r) v.retries
        audits := v.audits.map (fun e => if r.audit = some e.id then { e with taken := e.taken ++ [c.core] } else e) }))
  | none =>
    match (s.parcel p).audits.find? (fun e => e.ready && !e.taken.contains c.core) with
    | some e =>
      some ({ desc := e.desc, first := none, audit := some e.id },
        s.modParcel p (fun v => { v with audits := v.audits.map (fun x =>
          if x.id = e.id then { x with taken := x.taken ++ [c.core], ready := false } else x) }))
    | none => none

/-- TAKE's list operation (R169, R170, R182, R423). -/
def State.takeOp (s : State) (c : CoreId) (gd : BitVec 5) (pd : BitVec 3) : State :=
  match s.takeRetry c with
  | some (h, s) => s.tileReturn c gd pd h
  | none =>
    let p := coreParcel c
    let (e, rest, n) := takeHead (s.parcel p).tiles 0
    let s := (s.modParcel p (fun v => { v with tiles := rest })).tileParities p n
    match e with
    | none => s.tileNone c pd
    | some e =>
      let (s, a) := s.auditTake c e.bytes
      s.tileReturn c gd pd { desc := e.bytes, first := none, audit := a }

/-- Moves h entries from the tail of a victim's list; the damaged ones among them are dropped (R172, R182). -/
def State.moveTail (s : State) (v : ParcelId) (h : Nat) : State × List TileEntry :=
  let l := (s.parcel v).tiles
  let es := l.drop (l.length - h)
  let good := es.filter (fun e => !e.bad)
  let s := s.modParcel v (fun q => { q with tiles := l.take (l.length - h), moved := (q.moved + good.length) % 65536 })
  (s.tileParities v (es.length - good.length), good)

/-- STEAL's list operation: the eligible directions in cyclic order from the pointer, the first victim that yields an entry
(R171 to R173). n counts the directions still to try. -/
def State.stealOp (s : State) (c : CoreId) (gd : BitVec 5) (pd : BitVec 3) (dir : BitVec 2) : Nat → State
  | 0 => (s.modCore c (fun k => { k with steal := k.steal + 1 })).tileNone c pd
  | n + 1 =>
    let p := coreParcel c
    match s.neighbour p dir.toNat with
    | none => s.stealOp c gd pd (dir + 1) n
    | some v =>
      let len := stealTail (s.parcel v).tiles
      if len = 0 then s.stealOp c gd pd (dir + 1) n
      else
        let h := min (ceilDiv len 2) (s.tileFree p + 1)
        let (s, es) := s.moveTail v h
        match es with
        | [] => s.stealOp c gd pd (dir + 1) n
        | e :: rest =>
          let s := s.modCore c (fun k => { k with steal := dir })
          let (s, a) := s.auditTake c e.bytes
          (s.tileReturn c gd pd { desc := e.bytes, first := none, audit := a }).tileAppend p rest

/-- The class's fields: gd 4, 8, ... 28; the reserved bits 0. -/
def fmtTBad (f : FmtT) : Bool := quadBad f.gd || f.reserved != 0

/-- A TILE instruction outside any plot raises PLOT_NONE (R53). -/
def State.orPlotNone (s : State) (c : CoreId) (act : State → State) : State :=
  if (s.parcel (coreParcel c)).plot.isNone then s.raiseAt c { cause := .plotNone } else act s

def execTake (i : Issue) (f : FmtT) (s : State) : Result :=
  s.asSpelled i (.take i f) <|
  .next (s.issue i 4 (fmtTBad f) [] (fun s =>
    s.orPlotNone i.core (fun s => s.stallAt i.core (.tile false f.gd f.pd))))
/-- STEAL on a plot whose STEAL bit is 0 returns pd = 0 at once (R171). -/
def execSteal (i : Issue) (f : FmtT) (s : State) : Result :=
  s.asSpelled i (.steal i f) <|
  .next (s.issue i 4 (fmtTBad f) [] (fun s =>
    s.orPlotNone i.core (fun s =>
      if bitOf (s.plotCfg (coreParcel i.core)) 3 then s.stallAt i.core (.tile true f.gd f.pd)
      else s.tileNone i.core f.pd)))

/-- TILE_LIST_OPERATION: the tile list unit performs the list operation of a core's TAKE or STEAL (R170). -/
def execTileListOperation (c : CoreId) (s : State) : Result :=
  .next <|
    match (s.core c).wait with
    | some (.tile steal gd pd) =>
      if steal then s.stealOp c gd pd (s.core c).steal 4 else s.takeOp c gd pd
    | _ => s

/-- DONE's addition to DMARK of the home parcel, held until the core's earlier work is visible (R51, R177). -/
def State.doneMark (s : State) (c : CoreId) (d : BitVec 128) : State :=
  if tdDm d then
    match keyParcel (keyOf c.tract.val (tdHome d) 0) with
    | some p =>
      let r : HeldRel := { needs := s.releaseNeeds c, parcel := p, mark := tdDmark d, value := 1 }
      s.modCore c (fun k => { k with rels := k.rels ++ [r] })
    | none => s
  else s

/-- The runs of a sampled tile that have reached DONE are compared: two equal signatures release DMARK, two that differ call
for a third run, a third either outvotes one or fails the tile (R425). -/
def State.auditDone (s : State) (c : CoreId) (e : AuditEntry) : State :=
  let p := coreParcel c
  let runs := e.done ++ [(c.core, (s.core c).tsig)]
  let drop (s : State) : State :=
    s.modParcel p (fun v => { v with audits := v.audits.filter (fun x => x.id ≠ e.id) })
  let keep (ready : Bool) (s : State) : State :=
    s.modParcel p (fun v => { v with audits := v.audits.map (fun x =>
      if x.id = e.id then { x with done := runs, ready := ready } else x) })
  let outvoted (n : CoreNo) (s : State) : State :=
    ((drop s).emit (s.recordC .auditMismatch 5 (parcelCore p n))).transient p
  match runs with
  | [(_, a), (_, b)] => if a = b then (drop s).doneMark c e.desc else (keep true s).wakeSleepers p
  | [(n1, a), (n2, b), (_, t)] =>
    if t = a then (outvoted n2 s).doneMark c e.desc
    else if t = b then (outvoted n1 s).doneMark c e.desc
    else ((drop s).emit (s.recordC .tileFailed 5 c)).suspect p
  | _ => keep e.ready s

/-- DONE with a matching record: a re-run is reported (R423), the mark is added to or the audit goes on, the record is
cleared (R177, R425). -/
def State.doneMatch (s : State) (c : CoreId) (h : Held) : State :=
  let p := coreParcel c
  let s := match h.first with
    | some first => (s.emit (s.recordC .tileRetry 5 (parcelCore p first))).transient p
    | none => s
  let s := match h.audit.bind (fun a => (s.parcel p).audits.find? (fun e => e.id = a)) with
    | some e => s.auditDone c e
    | none => s.doneMark c h.desc
  s.modParcel p (fun v => { v with held := v.held.erase c.core })

/-- DONE: its four registers against the held record (R177). pd is not used. -/
def execDone (i : Issue) (f : FmtT) (s : State) : Result :=
  s.asSpelled i (.done i f) <|
  .next (s.issue i 4 (fmtTBad f || f.pd != 0) (quadRegs f.gd) (fun s =>
    s.orPlotNone i.core (fun s => s.orGangFault i.core (fun s =>
      let c := i.core
      let d : BitVec 128 := BitVec.ofNat 128 ((s.core c).quad f.gd)
      let s := match (s.parcel (coreParcel c)).held.find? (fun q => q.1 = c.core) with
        | some (_, h) => if h.desc = d then s.doneMatch c h else s.emit (s.recordC .tileDoneBad 5 c)
        | none => s.emit (s.recordC .tileDoneBad 5 c)
      (s.modCore c (fun k => k.retire 4)).settle c))))

/-- Whether a core of a parcel executes a SLEEP whose mask has TILE set (R174). -/
def State.sleepsForTile (s : State) (p : ParcelId) : Bool :=
  (s.coresOf p).any fun c => match (s.core c).wait with
    | some (.sleep _ mask _) => mask.getLsbD 0
    | _ => false

/-- TILE_PUSH: a parcel's tile list unit pushes from its tail to the first idle neighbour, where the conditions of R174 hold. -/
def execTilePush (p : ParcelId) (s : State) : Result :=
  .next <|
    let cfg := s.plotCfg p
    let len := stealTail (s.parcel p).tiles
    if !bitOf cfg 3 || bitsOf cfg 11 4 = 0 || len < bitsOf cfg 11 4 then s
    else
      match (List.range 4).findSome? (fun d =>
        match s.neighbour p d with
        | some q => if (s.parcel q).tiles.isEmpty && s.sleepsForTile q then some q else none
        | none => none) with
      | none => s
      | some q =>
        let (s, es) := s.moveTail p (min (ceilDiv len 2) (s.tileFree q))
        s.tileAppend q es

end Sys2Proof.Machine
end

