-- ==== Sys2Proof/Machine/Control.lean ====
section
/-!
DEFINITION. The CONTROL class (R54 to R57): SLEEP, HALT, TRAP and FENCE, and the end of a HALT.
-/
namespace Sys2Proof.Machine

/-- The reserved bits [15:4] and [31:26] of a SLEEP mask, or no condition enabled (R54). -/
def sleepMaskBad (mask : Word) : Bool :=
  bitsOf mask.toNat 15 4 != 0 || bitsOf mask.toNat 31 26 != 0 || bitsOf mask.toNat 3 0 == 0

/-- SLEEP waits for an enabled condition, or returns at once where one holds (R54). Its mask decides whether g(g2+1) is
read, so that register's own outstanding load is looked at with the mask. -/
def State.sleepAct (s : State) (c : CoreId) (f : FmtZ) : State :=
  let k := s.core c
  let mask := k.getG f.g2
  let mark := mask.getLsbD 3
  if sleepMaskBad mask || (mark && f.g2 == 31) then s.raiseAt c { cause := .illegal }
  else if mark && (s.barrierN (coreParcel c) (mask.extractLsb' 16 10)).isSome then
    s.raiseAt c { cause := .markBad, addr := s.globalOf (markKey (coreParcel c) (mask.extractLsb' 16 10)) }
  else
    match (if mark then k.operandWait [.g (f.g2 + 1)] else none) with
    | some w => s.stallAt c w
    | none => (s.stallAt c (.sleep f.g mask (k.getG (f.g2 + 1)))).sleepCheck c

def execSleep (i : Issue) (f : FmtZ) (s : State) : Result :=
  s.asSpelled i (.sleep i f) <|
  .next (s.issue i 4 (f.imm8 != 0) [.g f.g2] (fun s => s.sleepAct i.core f))

/-- HALT waits for copies, stores and atomics, and the array queue; HALT_COMPLETE ends it (R57). -/
def execHalt (i : Issue) (f : FmtZ) (s : State) : Result :=
  s.asSpelled i (.halt i f) <|
  .next (s.issue i 4 (f.g != 0 || f.g2 != 0 || f.imm8 != 0) [] (fun s =>
    s.orGangFault i.core (fun s => s.stallAt i.core .halt)))

/-- TRAP stops the core with a record that carries the code. -/
def execTrap (i : Issue) (f : FmtZ) (s : State) : Result :=
  s.asSpelled i (.trap i f) <|
  .next (s.issue i 4 (f.g != 0 || f.g2 != 0) [] (fun s =>
    s.raiseAt i.core { cause := .trap, code := f.imm8.toNat }))

/-- FENCE waits until the masked conditions hold; bits [7:6] are reserved; mask 0 is a NOP (R56). -/
def execFence (i : Issue) (f : FmtZ) (s : State) : Result :=
  s.asSpelled i (.fence i f) <|
  .next (s.issue i 4 (f.g != 0 || f.g2 != 0 || 64 ≤ f.imm8.toNat) [] (fun s =>
    let act (s : State) : State := (s.stallAt i.core (.fence f.imm8)).settle i.core
    if f.imm8.getLsbD 3 then s.orGangFault i.core act else act s))

/-- Whether what a HALT waits for is done (R57): copies landed, stores and atomics applied, array queue and release additions
drained. -/
def State.haltReady (s : State) (c : CoreId) : Bool :=
  let k := s.core c
  k.copies.isEmpty && s.storesOpen c == 0 && k.arr.queue.isEmpty && k.rels.isEmpty

/-- HALT_COMPLETE: the core's work has drained; it stops, halted, in SLEEP, its registers kept; its gang breaks (R57, R78). -/
def execHaltComplete (c : CoreId) (s : State) : Result :=
  .next <|
    match (s.core c).wait with
    | some .halt =>
      if s.haltReady c then
        (s.modCore c (fun k => { k with run := .halted, pwr := .sleep, wait := none })).breakGang c .broken
      else s
    | _ => s

end Sys2Proof.Machine
end

