-- ==== Sys2Proof/Machine/CopyUnit.lean ====
section
/-!
DEFINITION. The COPY class (R44 to R49): CPY, CPYM, the arrival counters, and the landing of a copy.
-/
namespace Sys2Proof.Machine

/-- The check of one end of a copy in a local space (R31, R33, R44). -/
def State.copyRange (s : State) (c : CoreId) (space : BitVec 2) (off len : Nat) (write : Bool) : Option ExcInfo :=
  let addr := s.spaceAddr c space off
  if space = 3 then none
  else if spaceSize space < off + len then some { cause := .spaceRange, addr := addr }
  else if write && space == 1 && s.cmOwned c.tract (off + len - 1) then some { cause := .spaceProtect, addr := addr }
  else none

/-- The checks of a copy in the order of R476: COPY_BAD, GADDR, SPACE_RANGE, SPACE_PROTECT (R44). -/
def State.copyFault (s : State) (c : CoreId) (f : FmtCpy) (src dst len : Nat) : Option ExcInfo :=
  if len % 4 ≠ 0 || len < 4 || 1048576 < len || src % 4 ≠ 0 || dst % 4 ≠ 0 then some { cause := .copyBad }
  else if f.sspace = 3 && gaBad src then some { cause := .gaddr, addr := src }
  else if f.dspace = 3 && gaBad dst then some { cause := .gaddr, addr := dst }
  else
    match s.copyRange c f.sspace src len false, s.copyRange c f.dspace dst len true with
    | some e, some e' => if e.cause = .spaceProtect then some e' else some e
    | some e, none => some e
    | none, e' => e'

/-- The stall of a copy (R26, R36, R93). -/
def State.copyStall (s : State) (c : CoreId) (f : FmtCpy) : Option Wait :=
  let k := s.core c
  match (if f.sspace = 0 || f.dspace = 0 then k.astatQueued else none) with
  | some e => some (.astat e.pc)
  | none =>
    let n := b2n (f.sspace == 3) + b2n (f.dspace == 3)
    if 32 ≤ k.copies.length then some (.resource 2)
    else if n ≠ 0 && s.raShort c.tract n then some (.agent n)
    else none

/-- A global end of a copy enters the request agent (R254). -/
def State.copyEnd (s : State) (c : CoreId) (space : BitVec 2) (addr len : Nat) (write : Bool) : State × Option Nat :=
  if space = 3 then
    let (s, g) := s.coreIssue c addr (.copyEnd [(addr, len)] write) false
    (s, some g)
  else (s, none)

/-- A copy starts (R44, R36): it is in flight until it lands. -/
def State.copyAct (s : State) (c : CoreId) (f : FmtCpy) (mark : Option (Bool × BitVec 10)) (n : Nat) : State :=
  let k := s.core c
  let src := (k.getA f.as_).toNat
  let dst := (k.getA f.ad).toNat
  let len := (k.getG f.gl).toNat
  match s.copyFault c f src dst len with
  | some e => s.raiseAt c e
  | none =>
    match s.copyStall c f with
    | some w => s.stallAt c w
    | none =>
      let after := if f.sspace = 3 then s.storeGens c.tract (.core c) else []
      let (s, gs) := s.copyEnd c f.sspace src len false
      let (s, gd) := s.copyEnd c f.dspace dst len true
      let job : CopyJob :=
        { sspace := f.sspace.toNat, src := src, dspace := f.dspace.toNat, dst := dst, len := len, ac := f.ac,
          mark := mark, genS := gs, genD := gd, after := after, stage := .flight }
      s.modCore c (fun k => Core.retire { k with copies := k.copies ++ [job] } n)

/-- The registers a copy reads. -/
def copyReads (f : FmtCpy) : List CReg := [.a f.as_, .a f.ad, .g f.gl]

def execCpy (i : Issue) (f : FmtCpy) (s : State) : Result :=
  s.asSpelled i (.cpy i f) <|
  .next (s.issue i 4 (f.reserved != 0) (copyReads f) (fun s => s.copyAct i.core f none 4))

/-- CPYM: the mark in bits [9:0] and REMOTE in bit 10 of the extension word; REMOTE needs a global destination (R49). -/
def execCpym (i : Issue) (f : FmtCpy) (ext : Word) (s : State) : Result :=
  s.asSpelled i (.cpym i f ext) <|
  let remote := ext.getLsbD 10
  .next (s.issue i 8 (f.reserved != 0 || 2 ^ 11 ≤ ext.toNat || (remote && f.dspace != 3)) (copyReads f)
    (fun s => s.copyAct i.core f (some (remote, ext.setWidth 10)) 8))

/-- CSET takes effect at issue; later landings add to it (R47). A counter that it changes sets the ARRIVE latch (R54). -/
def execCset (i : Issue) (f : FmtN) (s : State) : Result :=
  s.asSpelled i (.cset i f) <|
  .next (s.issueRegs i 4 (f.reserved != 0) [.g f.g] (fun k =>
    let v : BitVec 16 := (k.getG f.g).setWidth 16
    { k.setAc f.ac v with arrive := k.arrive || k.getAc f.ac != v }))
def execCget (i : Issue) (f : FmtN) (s : State) : Result :=
  s.asSpelled i (.cget i f) <|
  .next (s.issueRegs i 4 (f.reserved != 0) [] (fun k => k.putG f.g ((k.getAc f.ac).setWidth 32)))
/-- CWAIT waits until its counter has reached its target (R47). -/
def execCwait (i : Issue) (f : FmtN) (s : State) : Result :=
  s.asSpelled i (.cwait i f) <|
  .next (s.issue i 4 (f.reserved != 0) [.g f.g] (fun s =>
    (s.stallAt i.core (.cwait f.ac (((s.core i.core).getG f.g).setWidth 16))).settle i.core))

/-- The status a window gives an access of n bytes at a key of this module (R149, R150, R259): ADDR outside every window or
across its end, PROTECT where the window does not permit it. A read of a control window shows its registers, and zero bytes of the claim block (R317, R450). -/
def State.windowStatus (s : State) (key n : Nat) (write : Bool) : Nat :=
  if gaBad key then 1
  else
    match windowOf (gaOffset key), windowOf (gaOffset key + n - 1) with
    | .slice _, .slice _ => 0
    | .commons _, .commons hi =>
      match keyParcel key with
      | some p => if write && s.cmOwned p.tract hi then 2 else 0
      | none => 1
    | .store c _, .store c' _ => if c = c' then 0 else 1
    | .control _, .control _ => if write then 2 else 0
    | _, _ => 1

/-- What the source of a copy gives: a status, its bytes, and which bytes of it come poisoned. -/
structure CopyData where
  status : Nat
  data   : List Byte
  bad    : Nat → Nat → Bool

/-- The status an end of a copy was given when its request agent routed it, where it was (R256). -/
def State.entryStatus (s : State) (t : Tract) (gen : Option Nat) : Nat :=
  match gen with
  | none => 0
  | some g =>
    match (s.fab t).ra.find? (fun e => e.gen = g) with
    | some e => match e.stage with
      | .answered r => r.status
      | _ => 0
    | none => 0

/-- The status an end of a copy in another module comes back with: the one its entry has been given, else what that module answers; none while it
has not answered. -/
def State.awayStatus (s : State) (t : Tract) (gen : Option Nat) (net : Option NetReply) : Option Nat :=
  if s.entryStatus t gen ≠ 0 then some (s.entryStatus t gen) else net.map (fun r => r.status.toNat)

/-- Reads the source of a copy. A global source in a replicated region is read from the replica of the core's tract (R152); one on another module
is what that module answers. -/
def State.copyRead (s : State) (c : CoreId) (j : CopyJob) (net : Option NetReply) : CopyData :=
  let fail (st : Nat) : CopyData := { status := st, data := List.replicate j.len 0, bad := fun _ _ => true }
  let own (key : Nat) : CopyData :=
    { status := 0, data := s.peek key j.len, bad := fun i n => s.poisoned (key + i) n }
  let via (key : Nat) : CopyData :=
    if (s.regionLines key j.len).isEmpty then own key
    else
      { status := 0, data := tabulate j.len (fun i => s.peekByte (s.viaReplica c.tract (key + i)))
        bad := fun i n => (List.range n).any (fun k => s.mem.badUnit (unitBase (s.viaReplica c.tract (key + i + k)))) }
  if j.sspace ≠ 3 then own (spaceKey c (BitVec.ofNat 2 j.sspace) j.src)
  else if s.entryStatus c.tract j.genS ≠ 0 then fail (s.entryStatus c.tract j.genS)
  else if gaModule j.src = s.job.moduleId.toNat then
    let st := s.windowStatus (j.src % 2 ^ 52) j.len false
    if st ≠ 0 then fail st else via (j.src % 2 ^ 52)
  else
    match net with
    | some r =>
      if r.status ≠ 0 then fail r.status.toNat
      else { status := 0, data := (r.data ++ List.replicate j.len 0).take j.len, 
             bad := fun i n => r.poison.any (fun u => (j.src % 16 + i) / 16 ≤ u && u ≤ (j.src % 16 + i + n - 1) / 16) }
    | none => fail 5

/-- Writes the bytes of a copy to a key, 16-byte unit by unit: a unit that receives a poisoned byte is written poisoned
(R48, R134, R148). i: the place of the bytes in the copy. -/
def State.copyUnits (s : State) (d : CopyData) (i : Nat) : List (Nat × List Byte) → State
  | [] => s
  | (a, bs) :: rest =>
    let s := if d.bad i bs.length then s.storePoison (a / 16 * 16) 16 else s.store a bs
    s.copyUnits d (i + bs.length) rest

/-- Whether a copy's write at a key loses a piece: a partial write to a poisoned check unit is refused (R48, R133, R136, R147). -/
def State.copyLost (s : State) (d : CopyData) (i : Nat) : List (Nat × List Byte) → Bool
  | [] => false
  | (a, bs) :: rest => (!d.bad i bs.length && s.storeLost a bs) || s.copyLost d (i + bs.length) rest

/-- The memory key of a copy's destination, where it lies on this module. -/
def State.copyKey (s : State) (c : CoreId) (j : CopyJob) : Option Nat :=
  if j.dspace ≠ 3 then some (spaceKey c (BitVec.ofNat 2 j.dspace) j.dst)
  else if gaModule j.dst = s.job.moduleId.toNat then some (j.dst % 2 ^ 52)
  else none

/-- Writes the destination of a copy; the status is that of its remote end or of a replica area (R48, R154). For another module its stores
leave. -/
def State.copyWrite (s : State) (c : CoreId) (j : CopyJob) (d : CopyData) : State × Nat :=
  let own (key : Nat) : State × Nat :=
    if s.inReplica key j.len then (s.replicaRecord c.tract key, 3)
    else ((s.copyUnits d 0 (pieces 16 d.data.length key d.data)).staleLines key j.len, 0)
  if j.dspace ≠ 3 then own (spaceKey c (BitVec.ofNat 2 j.dspace) j.dst)
  else if s.entryStatus c.tract j.genD ≠ 0 then (s, s.entryStatus c.tract j.genD)
  else if gaModule j.dst = s.job.moduleId.toNat then
    let st := s.windowStatus (j.dst % 2 ^ 52) j.len true
    if st = 2 then
      ((match keyParcel (j.dst % 2 ^ 52) with
        | some p => s.haProtect p.tract (j.dst % 2 ^ 52)
        | none => s), 2)
    else if st ≠ 0 then (s, st) else own (j.dst % 2 ^ 52)
  else
    (match (s.fab c.tract).ra.find? (fun e => some e.gen == j.genD) with
      | some e => s.sendStores c.tract e j.dst (d.data.zipIdx.map (fun q => (q.1, d.bad q.2 1)))
      | none => s, 0)

/-- Whether stores of an entry still wait at a port to be sent (R354). -/
def State.dataUnsent (s : State) (t : Tract) (e : RaEntry) : Bool :=
  let m := s.reqMsg t e
  s.links.any (fun q => (q.2.tx.get 1 []).any (fun x =>
    fieldAt x.data 0 1 == 2 && fieldAt x.data 4 2 == m.smod + m.stract * 4096 && fieldAt x.data 6 2 == m.tag))

/-- A global end of a copy completes: its entry is freed, its status recorded where it is not OK (R48, R260). -/
def State.copyEndDone (s : State) (c : CoreId) (gen : Option Nat) (addr status : Nat) : State :=
  match gen with
  | none => s
  | some g =>
    let s := if status = 0 then s else s.postedRecord c.tract (some c) addr status
    s.raFinish c.tract g status

/-- The mark addition of a CPYM landing (R49): its own parcel's mark, or the mark of the destination's parcel. One of another module goes there as
a posted operation, whose number is answered. -/
def State.copyMark (s : State) (c : CoreId) (j : CopyJob) : State × Option Nat :=
  match j.mark with
  | none => (s, none)
  | some (false, n) => (s.markAdd (coreParcel c) n 1, none)
  | some (true, n) =>
    if gaModule j.dst = s.job.moduleId.toNat then
      match keyParcel j.dst with
      | some p => (s.markAdd p n 1, none)
      | none => (s, none)
    else
      let addr := j.dst / 2 ^ 37 * 2 ^ 37 + 0x10_0000_0000 + markBase + 4 * n.toNat
      let (s, g) := s.raIssue c.tract (.core c) (s.queueClass (coreParcel c)) addr (.mark (.add 1)) true { gens := [], arrs := [] }
      (s, some g)

/-- A landing is counted: the counter, its ERR bit, the ARRIVE latch (R45, R47, R48, R54). -/
def Core.countLanding (k : Core) (ac : BitVec 3) (err : Bool) : Core :=
  let k := k.setAc ac (k.getAc ac + 1)
  { k with arrive := true
           arriveSt := if err then k.arriveSt ||| (1 <<< ac.toNat) else k.arriveSt }

/-- Copy n of a core goes on to another stage. -/
def State.setStage (s : State) (c : CoreId) (n : Nat) (g : CopyStage) : State :=
  s.modCore c (fun k => { k with copies := modifyIdx (fun j => { j with stage := g }) k.copies n })

/-- A copy lands: its counter counts it (R45, R47), and the core goes on. -/
def State.copyCount (s : State) (c : CoreId) (n : Nat) (j : CopyJob) (err : Bool) : State :=
  let s := s.modCore c (fun k => { k with copies := dropIdx k.copies n })
  ((s.modCore c (fun k => k.countLanding j.ac err)).raPump c.tract).settle c

/-- The bytes of a copy are visible at the destination: its global destination completes, then the mark of a CPYM is added (R49), and the copy
lands. A mark of another module is awaited first. -/
def State.copyEnds (s : State) (c : CoreId) (n : Nat) (j : CopyJob) (st : Nat) (err : Bool) : State :=
  match (s.copyEndDone c j.genD j.dst st).copyMark c j with
  | (s, none) => s.copyCount c n j (err || st != 0)
  | (s, some g) => (s.setStage c n (.marking g (err || st != 0))).raPump c.tract

/-- A copy reads its source and writes its destination: combining entries of the lines it reads and writes come first (R268); TSIG takes each unit
as it is read (R424); a copy that meets an error goes on all the same (R48). Stores for another module leave, and their answer is awaited. -/
def State.copyMove (s : State) (c : CoreId) (n : Nat) (j : CopyJob) (net : Option NetReply) : State :=
  let take (s : State) (g : Option Nat) : State := match g with
    | some g => s.homeTake c.tract g
    | none => s
  let close (s : State) (space addr : Nat) : State :=
    if space = 3 && s.isOwn addr then s.closeRun (addr % 2 ^ 52) j.len else s
  let s := close (close (take (take s j.genS) j.genD) j.sspace j.src) j.dspace j.dst
  let d := s.copyRead c j net
  let s1 := if j.sspace ≠ 3 then s.touch (spaceKey c (BitVec.ofNat 2 j.sspace) j.src) j.len
    else if gaModule j.src = s.job.moduleId.toNat && d.status = 0 then s.touchVia c.tract (j.src % 2 ^ 52) j.len else s
  let s1 := if j.dspace = 0 then s1
    else s1.sign c (s1.spaceAddr c (BitVec.ofNat 2 j.dspace) j.dst) d.data
  let (s2, st) := s1.copyWrite c j d
  let lost := match s1.copyKey c j with
    | some key => st == 0 && s1.copyLost d 0 (pieces 16 d.data.length key d.data)
    | none => false
  let err := d.status != 0 || lost || d.bad 0 j.len
  let s3 := s2.copyEndDone c j.genS j.src d.status
  if st = 0 && j.dspace = 3 && !s.isOwn j.dst then (s3.setStage c n (.stored err)).raPump c.tract else s3.copyEnds c n j st err

/-- COPY_LANDING: copy k of a core goes on, unless an earlier store of the core to its source space is still open (R36, R45), an operation it
must follow at an end has not been served (R262, R264), or an end lies in a dead tract (R271), or is held (R276), or its home agent does not take
it now (R266, R279), or another module has not answered its loads. A copy to another module lands once that module has answered its stores, and
its mark addition, where it has one there (R45, R49). net: the first answer is that of its loads, or of its stores. -/
def execCopyLanding (c : CoreId) (n : Nat) (net : List NetReply) (s : State) : Result :=
  .next <|
    match (s.core c).copies[n]? with
    | none => s
    | some j =>
      match j.stage with
      | .flight =>
        let srcAway := decide (j.sspace = 3) && !s.isOwn j.src
        if !s.copyFree c j || !s.endsMay c j || (srcAway && (s.awayStatus c.tract j.genS net.head?).isNone) then s
        else s.copyMove c n j net.head?
      | .stored err =>
        let waits := (s.fab c.tract).ra.any (fun e => some e.gen == j.genD && s.dataUnsent c.tract e)
        (match s.awayStatus c.tract j.genD net.head? with
          | some st => if waits && s.entryStatus c.tract j.genD = 0 then s else s.copyEnds c n j st err
          | none => s)
      | .marking g err => if (s.fab c.tract).ra.any (fun e => e.gen = g) then s else s.copyCount c n j err

end Sys2Proof.Machine
end

