-- ==== Sys2Proof/Machine/EngOps.lean ====
section
/-!
DEFINITION. What the entries of the Mover, the Dispatcher and the Vector dispatcher do through global addresses, as operations of the request
agent (R254, R266, R271 to R273, R276, R277): of all an entry reads, and of all it writes, the part in one tract of one module is one operation
(assumption log 48).
-/
namespace Sys2Proof.Machine

/-- Whether an agent entry is an operation of an engine's entry. -/
def RaEntry.ofEngine (x : RaEntry) (g : Engine) (id : Nat) : Bool :=
  match x.op with
  | .engine g' id' _ _ => g' == g && id' == id
  | _ => false

/-- The module and the tract of an address. -/
def targetOf (ga : Nat) : Nat := ga / 2 ^ 48

/-- The operations of an engine's entry that are outstanding; the one that reads or writes at an address. -/
def State.engEntries (s : State) (t : Tract) (g : Engine) (id : Nat) : List RaEntry := (s.fab t).ra.filter (fun x => x.ofEngine g id)
def State.engEntry (s : State) (t : Tract) (g : Engine) (id : Nat) (write : Bool) (ga : Nat) : Option RaEntry :=
  (s.engEntries t g id).find? (fun x => x.op.writesData == write && targetOf x.addr == targetOf ga)

/-- The runs that cover bytes; those of one target, for each target. -/
def solid (rs : List (Nat × Nat)) : List (Nat × Nat) := rs.filter (fun q => q.2 != 0)
def byTarget (rs : List (Nat × Nat)) : List (List (Nat × Nat)) :=
  ((solid rs).map (fun q => targetOf q.1)).eraseDups.map (fun x => (solid rs).filter (fun q => targetOf q.1 == x))

/-- Whether an engine's operations may be made now: the agent has entries for them (R266), no epoch advance holds them (R276), and each home agent
of this module takes those that lie there, one after the other (R266, R279). -/
def State.engMay (s : State) (t : Tract) (g : Engine) (reads writes : List (Nat × Nat)) : Bool :=
  let ops := byTarget reads ++ byTarget writes
  let at_ := ops.filterMap (fun r => r.head?.map (fun q => q.1))
  s.engRoom t g ops.length && (!s.fabric.advancing || at_.all s.isOwn) &&
    at_.all (fun a => !s.isOwn a || (if h : gaTract a < 12 then
      s.haMayFor ⟨gaTract a, h⟩ s.fabric.stamp false ((at_.filter (fun b => targetOf b == targetOf a)).length) else true))

/-- One operation enters the agent; what lies on this module is accepted by its home agent, and takes its turn there. -/
def State.engOne (s : State) (t : Tract) (g : Engine) (id : Nat) (write : Bool) (rs : List (Nat × Nat)) : State :=
  match rs with
  | [] => s
  | q :: rest =>
    let (s, gen) := s.raIssue t (.engine g) (s.regBits (modReg .fabCtl) 9 8) q.1 (.engine g id (q :: rest) write) false { gens := [], arrs := [] }
    let s := s.homeTake t gen
    (q :: rest).foldl (fun s r => if s.isOwn r.1 then s.closeRun (r.1 % 2 ^ 52) r.2 else s) s

/-- The operations of an entry enter the agent, one for each target of its reads and of its writes. -/
def State.engIssue (s : State) (t : Tract) (g : Engine) (id : Nat) (rs : List (Nat × Nat)) (write : Bool) : State :=
  (byTarget rs).foldl (fun s r => s.engOne t g id write r) s
def State.engEnter (s : State) (t : Tract) (g : Engine) (id : Nat) (reads writes : List (Nat × Nat)) : State :=
  (s.engIssue t g id reads false).engIssue t g id writes true

/-- Whether every operation of an entry could be routed (R256). -/
def State.engRouted (s : State) (t : Tract) (g : Engine) (id : Nat) : Bool :=
  (s.engEntries t g id).all (fun x => match x.stage with
    | .answered r => r.status == 0
    | _ => true)

/-- An operation of an entry that another module has answered with an error status, or not within ENG_TMO: TIMEOUT, 8 (R272). -/
def State.engAnswered (s : State) (t : Tract) (g : Engine) (id : Nat) (write : Bool) (ga : Nat) (reply : Option NetReply) : State :=
  match (reply.map (fun r => r.status.toNat)).getD 8, s.engEntry t g id write ga with
  | 0, _ => s
  | st, some x => match x.stage with
    | .away _ => s.setEntry t x.gen (fun x => { x with stage := .answered (statusResponse st) })
    | _ => s
  | _, none => s

/-- What other modules answer to the reads of an entry, run by run. -/
def State.engReplies (s : State) (t : Tract) (g : Engine) (id : Nat) (rs : List (Nat × Nat)) (net : List NetReply) : State :=
  ((solid rs).filter (fun q => !s.isOwn q.1)).zipIdx.foldl (fun s q => s.engAnswered t g id false q.1.1 net[q.2]?) s

/-- The status an operation completes with. -/
def RaEntry.outcome (x : RaEntry) : Nat :=
  match x.stage with
  | .answered r => r.status
  | _ => 0

/-- Whether an operation has not come to its end: it awaits a home agent of a dead tract, which answers nothing (R271), or its stores wait at a
port. -/
def State.engOpen (s : State) (t : Tract) (x : RaEntry) : Bool :=
  match x.stage with
  | .answered _ => false
  | _ => x.op.runs.any (fun q => s.deadAt q.1) || s.dataUnsent t x

/-- Operations complete at their agent (R258, R277), and the worst that came of them: 0, or an error status. -/
def State.engFinish (s : State) (t : Tract) (xs : List RaEntry) : State × Nat :=
  ((xs.foldl (fun s x => s.raFinish t x.gen x.outcome) s).raPump t, ((xs.map RaEntry.outcome).find? (fun n => n != 0)).getD 0)

/-- Every operation of an entry completes. -/
def State.engClose (s : State) (t : Tract) (g : Engine) (id : Nat) : State × Nat := s.engFinish t (s.engEntries t g id)

end Sys2Proof.Machine
end

