-- ==== Sys2Proof/Machine/Queues.lean ====
section
/-!
DEFINITION. Command queues and chains (R17 to R20, R292, R295, R367 to R370, R478): the sequencer's turns, the fetch of slots and
entries, the start and completion of entries, completion records, stops and restarts.
-/
namespace Sys2Proof.Machine

/-- A queue's record. -/
def State.queue (s : State) (q : QueueId) : QueueState := s.queues.get q QueueState.reset
def State.setQueue (s : State) (q : QueueId) (v : QueueState) : State := { s with queues := s.queues.put q v }
def State.modQueue (s : State) (q : QueueId) (f : QueueState → QueueState) : State := s.setQueue q (f (s.queue q))

/-- The number of a queue (R17). -/
def queueNum (q : QueueId) : Nat := 4 * q.tract.val + engineNum q.engine

/-- The queue of a tract's engine. -/
def engQueue (t : Tract) (e : Engine) : QueueId := { tract := t, engine := e }

/-- A write to host memory: with the link down it is discarded and counted (R366). -/
def State.hostWrite (s : State) (addr : Nat) (data : List Byte) : State :=
  if s.host.up && !s.host.held then s.send (.hostWrite addr data) else { s with host := { s.host with lost := s.host.lost + 1 } }

/-- An MSI-X vector is signalled (R366). -/
def State.msix (s : State) (v : Nat) : State := if s.host.up && !s.host.held then s.send (.msix v) else s

/-- The fields of an entry header (R367). -/
def QEntry.sga (e : QEntry) : Nat := fieldAt e.bytes 8 8
def QEntry.sval (e : QEntry) : Nat := fieldAt e.bytes 16 4
def QEntry.wparcel (e : QEntry) : Nat := fieldBits e.bytes 20 2 10 0
def QEntry.wmark (e : QEntry) : BitVec 10 := BitVec.ofNat 10 (fieldAt e.bytes 22 2)
def QEntry.wen (e : QEntry) : Bool := bitOf (fieldAt e.bytes 22 2) 10
def QEntry.cpl (e : QEntry) : Bool := bitOf (fieldAt e.bytes 22 2) 11
def QEntry.irq (e : QEntry) : Bool := bitOf (fieldAt e.bytes 22 2) 12
def QEntry.wval (e : QEntry) : Word := BitVec.ofNat 32 (fieldAt e.bytes 24 4)
def QEntry.tag (e : QEntry) : Nat := fieldAt e.bytes 28 2

/-- A 64-bit slot or NEXT field is valid unless a reserved bit of [6:1] is set, or it names address 0 (R367, R370). -/
def linkBad (v : Nat) : Bool := bitsOf v 6 1 != 0 || v / 128 == 0
/-- A NEXT field may also end the chain (R367). -/
def nextBad (v : Nat) : Bool := v != 0 && linkBad v

/-- Whether an entry's header is invalid (R6, R367, R370). -/
def headerBad (q : QueueId) (bs : List Byte) : Bool :=
  let w := fieldAt bs 22 2
  nextBad (fieldAt bs 0 8) || bitsOf (fieldAt bs 20 2) 15 11 != 0 || (bitOf w 10 && 1360 ≤ fieldBits bs 20 2 10 0) ||
    bitOf w 15 || bitsOf w 14 13 != engineNum q.engine || fieldAt bs 30 2 != 0

/-- Q_HEAD: while the queue is stopped at a fault, that chain's slot; else the slot of the oldest entry still held, or the slot
being fetched (R370). -/
def QueueState.head (v : QueueState) : Nat :=
  match v.fault with
  | some p => if v.stopped then p.slot else v.slot
  | none =>
    match v.entries with
    | e :: _ => min e.pt.slot v.slot
    | [] => v.slot

/-- Whether an entry that has not started waits for another to complete, while later entries of its queue go on (R198, R234). -/
def QEntry.waiting (e : QEntry) : Bool := !e.started && e.work == .waits

/-- Entries in progress. -/
def QueueState.busy (v : QueueState) : Bool := v.entries.any (fun e => e.started)

/-- The record of a chain fault (R370, R413). -/
def State.chainFault (s : State) (q : QueueId) (cause slot third addr : Nat) : State :=
  s.emit { s.recordQ .chainFault 16 q with addr := addr, detail := detailWords [cause, slot % 2 ^ 32, third] }

/-- Writes a completion record, or keeps it until the ring has room (R369). -/
def State.putCpl (s : State) (q : QueueId) (rec_ : List Byte) (irq : Bool) : State :=
  let c := (s.queue q).records
  let clog := s.regBits (queueReg .qCfg q) 9 5
  let chead := s.reg (queueReg .qCplhead q)
  if !(s.queue q).cplWait.isEmpty || 2 ^ clog ≤ (c + 2 ^ 32 - chead) % 2 ^ 32 then
    s.modQueue q (fun v => { v with cplWait := v.cplWait ++ [(rec_, irq)] })
  else
    let ph := b2n ((c / 2 ^ clog) % 2 == 0)
    let bs := rec_.take 2 ++ [BitVec.ofNat 8 (queueNum q + ph * 128)] ++ rec_.drop 3
    let s := s.modQueue q (fun v => { v with records := v.records + 1 })
    let s := s.hostWrite (s.reg (queueReg .qCplbase q) + 16 * (c % 2 ^ clog)) bs
    if irq then s.msix (queueNum q) else s

/-- The bytes of a completion record; the queue number and PHASE are set when it is written. -/
def State.cplBytes (s : State) (tag status slot : Nat) : List Byte :=
  natLe 2 tag ++ [0] ++ natLe 1 status ++ natLe 4 slot ++ natLe 8 s.mtime

/-- Completion records that waited for room are written in order (R369). -/
def State.drainCpl (s : State) (q : QueueId) : State :=
  let l := (s.queue q).cplWait
  l.foldl (fun s r => s.putCpl q r.1 r.2) (s.modQueue q (fun v => { v with cplWait := [], cplTold := false }))

/-- A queue stops at a place (R370): entries not started are dropped, to be fetched again, but for those the engine has passed over. -/
def State.stopQueue (s : State) (q : QueueId) (cause : Nat) (pt : QPoint) : State :=
  if (s.queue q).stopped then s
  else
    let s := s.modQueue q (fun v => { v with
      stopped := true, cause := cause, fault := some pt, entries := v.entries.filter (fun e => e.started || e.waiting)
      chain := none, slot := pt.slot })
    { s with engWaits := s.engWaits.erase q }.msix (queueNum q)

/-- A stop for a failed fetch or an invalid slot or header: record, completion record, stop (R292, R368 to R370). -/
def State.stopAtHead (s : State) (q : QueueId) (e : QEntry) (cause : Nat) (barrier : Bool) : State :=
  let s := if barrier then s else s.chainFault q cause e.pt.slot 0 e.pt.addr
  let tag := if e.kind == .fetchFailed || !e.pt.read then 0 else e.tag
  -- IRQ is the entry's own, where its header could be read; the stop signals the vector itself (R366)
  let s := s.putCpl q (s.cplBytes tag (if cause = 1 then 0xFE else 0xFF) e.pt.slot) (e.kind != .fetchFailed && e.pt.read && e.irq)
  s.stopQueue q cause e.pt

/-- The first entry of a queue neither started nor passed over. -/
def QueueState.headEntry (v : QueueState) : Option QEntry := v.entries.find? (fun e => !(e.started || e.waiting))

/-- The parcel of the mark an entry waits on. -/
def QEntry.waitParcel (e : QEntry) (t : Tract) : Option ParcelId :=
  if h : e.wparcel < 1360 then some { tract := t, parcel := ⟨e.wparcel, h⟩ } else none

/-- What stands at the head of a queue takes effect: a failed fetch stops it, a wait begins and is evaluated at once, a wait that
names a barrier mark stops it (R283, R284, R292, R295, R370). -/
def State.armHead (s : State) (q : QueueId) : State :=
  if (s.queue q).stopped then s
  else
    match (s.queue q).headEntry with
    | none => s
    | some e =>
      match e.kind with
      | .fetchFailed => s.stopAtHead q e 1 false
      | .invalid => s.stopAtHead q e 2 false
      | .entry =>
        if !e.wen || s.engWaits.any (fun w => w.1 = q) then s
        else
          match e.waitParcel q.tract with
          | none => s
          | some p =>
            if (s.barrierN p e.wmark).isSome then (s.typeError p).stopAtHead q e 2 true
            else
              let now := reached (s.markWord p e.wmark) e.wval &&
                !((s.parcel p).frozen.contains e.wmark || s.markDamaged p e.wmark)
              { s with engWaits := s.engWaits.put q { key := markKey p e.wmark, thr := e.wval, met := now, told := false } }

/-- Whether the entry at the head of a queue still waits on its mark. -/
def State.headWaits (s : State) (q : QueueId) : Bool :=
  match s.engWaits.find? (fun w => w.1 = q) with
  | some w => !w.2.met
  | none => false

/-- Engines fetch and start entries while a job is bound and no abort is under way (Module states, R22, R420). -/
def State.enginesRun (s : State) : Bool :=
  (s.job.state == .owned || s.job.state == .armed) && s.errs.abort.isNone

/-- Whether the next thing a queue fetches lies in host memory. -/
def QueueState.fetchesHost (v : QueueState) : Bool :=
  match v.chain with
  | some (_, nsp, _) => !nsp
  | none => true

/-- Whether a queue has something to fetch and may fetch it (R17, R295, R366, R368, R370): at most 16 entries ahead, none past a
failed one. -/
def State.canFetch (s : State) (q : QueueId) : Bool :=
  let v := s.queue q
  s.enginesRun && !s.dead q.tract.val && s.regBits (queueReg .qCfg q) 10 10 == 1 && !v.stopped && v.cplWait.isEmpty &&
    (v.chain.isSome || v.slot != v.tail) && decide ((v.entries.filter (fun e => !(e.started || e.waiting))).length < 16) &&
    v.entries.all (fun e => e.kind == .entry) && !s.headWaits q && (!v.fetchesHost || (s.host.up && !s.host.held))

/-- The engines in round-robin order from the one after e (R17). -/
def engineOf (n : Nat) : Engine :=
  match n % 4 with
  | 0 => .dispatcher
  | 1 => .mover
  | 2 => .transit
  | _ => .vector
def turnOrder (last : Nat) : List Engine := (List.range 4).map (fun i => engineOf (last + 1 + i))

/-- Signals of a queue that wait for room at the request agent go on, oldest first (R266). -/
def State.sigPump (s : State) (q : QueueId) : State :=
  match (s.queue q).sigWait with
  | [] => s
  | (a, v, pt) :: rest =>
    if !s.engRoom q.tract q.engine 1 then s
    else
      let (s, gen) := s.raIssue q.tract (.engine q.engine) (s.regBits (modReg .fabCtl) 9 8) a (.signal v) true { gens := [], arrs := [] }
      s.modQueue q (fun v => { v with signals := v.signals ++ [(gen, pt)], sigWait := rest })

/-- SEQUENCER_TURN: signals that wait go on; the turn goes to the next engine that can fetch; an engine without work, or stalled on a mark,
gives it up. -/
def execSequencerTurn (t : Tract) (s : State) : Result :=
  .next <|
    let s := [Engine.dispatcher, .mover, .transit, .vector].foldl (fun s e => s.sigPump (engQueue t e)) s
    let v := s.seqrs.get t Seqr.reset
    match (turnOrder v.last).find? (fun e => s.canFetch (engQueue t e)) with
    | some e => { s with seqrs := s.seqrs.put t { v with last := engineNum e, grant := some e } }
    | none => { s with seqrs := s.seqrs.put t { v with grant := none } }

/-- What a read of 128 bytes of the module returns to an engine: none where it fails or brings poison (R368). -/
def State.engineRead (s : State) (ga n : Nat) : Option (List Byte) :=
  let key := ga % 2 ^ 52
  if gaModule ga ≠ s.job.moduleId.toNat || s.deadAt ga || s.windowStatus key n false ≠ 0 || s.poisoned key n then none
  else some (s.peek key n)

/-- What that read does to the check units it meets (R136, R145). -/
def State.engineTouch (s : State) (ga n : Nat) : State :=
  let key := ga % 2 ^ 52
  if gaModule ga ≠ s.job.moduleId.toNat || s.deadAt ga || s.windowStatus key n false ≠ 0 then s else s.touch key n

/-- The bytes a host read returns whole and sound. -/
def replyBytes (r : HostReply) (n : Nat) : Option (List Byte) :=
  match r with
  | .ok d => if d.length = n then some d else none
  | _ => none

/-- Whether a place comes before another in queue order. -/
def QPoint.before (a b : QPoint) : Bool := a.slot < b.slot || (a.slot == b.slot && a.pos < b.pos)

/-- The fetch goes on after a place: with what its NEXT names, or with the next slot where NEXT ends the chain, was not read or is not valid
(R368, R478). -/
def QueueState.after (v : QueueState) (pt : QPoint) : QueueState :=
  if pt.read && !linkBad pt.next then { v with slot := pt.slot, chain := some (pt.next / 128 * 128, bitOf pt.next 0, pt.pos + 1) }
  else { v with slot := pt.slot + 1, chain := none }

/-- What stands at a place joins the queue. -/
def QueueState.append (v : QueueState) (pt : QPoint) (kind : QKind) (bytes : List Byte) : QueueState :=
  { v with entries := v.entries ++ [{ id := v.nextId, pt := pt, kind := kind, bytes := bytes, started := false, work := .none }]
           nextId := v.nextId + 1 }

/-- An entry in the module's memory is read through its global address as an operation of the request agent, which completes at once (R254, R368).
An address that no window of a live tract holds makes none. -/
def State.fetchRead (s : State) (q : QueueId) (addr : Nat) : State :=
  if !s.isOwn addr || gaBad addr || s.deadAt addr then s
  else
    let id := (s.queue q).nextId
    ((s.engIssue q.tract q.engine id [(addr, 128)] false).engClose q.tract q.engine id).1.engineTouch addr 128

/-- Whether that operation may be made now (R266, R279); an engine waits for it. -/
def State.fetchMay (s : State) (q : QueueId) (addr : Nat) (nsp : Bool) : Bool :=
  !nsp || !s.isOwn addr || gaBad addr || s.deadAt addr || s.engMay q.tract q.engine [(addr, 128)] []

/-- The fetch of the entry at an address (R367, R368, R370): a chain of more than 65,536 entries is a header fault. The fetch then goes on
after the entry, or, where the entry is run again, after the last that had started (R478). -/
def State.fetchEntry (s : State) (q : QueueId) (addr : Nat) (nsp : Bool) (pos : Nat) (reply : HostReply) : State :=
  let v := s.queue q
  let pt : QPoint := { slot := v.slot, pos := pos, addr := addr, nsp := nsp, next := 0, read := false }
  let s := if nsp then s.fetchRead q addr else s
  let read := if nsp then s.engineRead addr 128 else replyBytes reply 128
  s.modQueue q (fun v =>
    match read with
    | none => { v.append pt .fetchFailed [] with skip := none }
    | some bs =>
      let pt := { pt with next := fieldAt bs 0 8, read := true }
      if headerBad q bs || 65536 ≤ pos then { v.append pt .invalid bs with skip := none }
      else { (v.append pt .entry bs).after (v.skip.getD pt) with skip := none })

/-- CHAIN_ENTRY_FETCH: with its turn, an engine fetches the next slot where a chain is to begin, and the next entry of the chain
(R17, R368). slot and entry: what the host answers to the reads of its memory. Where the request agent or a home agent has no entry for the read,
the engine gives up its turn. -/
def execChainEntryFetch (q : QueueId) (slot entry : HostReply) (s : State) : Result :=
  .next <|
    let sq := s.seqrs.get q.tract Seqr.reset
    if sq.grant ≠ some q.engine || !s.canFetch q then s
    else
      let s := { s with seqrs := s.seqrs.put q.tract { sq with grant := none } }
      let v := s.queue q
      let s :=
        match v.chain with
        | some (addr, nsp, pos) => if s.fetchMay q addr nsp then s.fetchEntry q addr nsp pos entry else s
        | none =>
          let pt : QPoint := { slot := v.slot, pos := 0, addr := 0, nsp := false, next := 0, read := false }
          match replyBytes slot 16 with
          | none => s.modQueue q (fun v => v.append pt .fetchFailed [])
          | some bs =>
            let l := fieldAt bs 0 8
            if linkBad l || fieldAt bs 8 8 ≠ 0 then s.modQueue q (fun v => v.append pt .invalid [])
            else if s.fetchMay q (l / 128 * 128) (bitOf l 0) && (bitOf l 0 || (s.host.up && !s.host.held)) then
              s.fetchEntry q (l / 128 * 128) (bitOf l 0) 0 entry
            else s
      s.armHead q

/-- A write of Q_TAIL (R370). -/
def State.qTailPut (s : State) (q : QueueId) (tail : Nat) : State :=
  let v := s.queue q
  let ahead := (tail % 2 ^ 32 + 2 ^ 32 - v.tail % 2 ^ 32) % 2 ^ 32
  let qlog := s.regBits (queueReg .qCfg q) 4 0
  let far := 2 ^ qlog < (tail % 2 ^ 32 + 2 ^ 32 - v.head % 2 ^ 32) % 2 ^ 32
  if 2 ^ 31 ≤ ahead || far then
    let s := s.chainFault q 5 v.head (tail % 2 ^ 32) 0
    if v.stopped then s
    else (s.modQueue q (fun v => { v with stopped := true, cause := 5, fault := none })).msix (queueNum q)
  else s.modQueue q (fun v => { v with tail := v.tail + ahead })

/-- DOORBELL: a Q_TAIL write sets the tail count, or is discarded and stops the queue (R370). -/
def execDoorbell (q : QueueId) (tail : Word) (s : State) : Result :=
  .next (s.atReg (queueReg .qTail q) 4 (fun s => s.qTailPut q tail.toNat))

/-- A restart of a stopped queue that has no entry in progress (R478). Entries that had started are not run again, but for the one at the
fault under ACTION 2; after an abort (cause 0) nothing is skipped. ACTION 1 acts as ACTION 0 where the faulting entry's NEXT was not read or is not
valid. -/
def QueueState.restart (v : QueueState) (action : BitVec 2) : QueueState :=
  let w := { v with stopped := false, cause := 0, fault := none, hold := none }
  match v.fault with
  | none => w
  | some pt =>
    let rerun := v.cause == 0
    -- the furthest entry started, where it lies past the fault
    let past := if rerun then none else v.last.filter pt.before
    let w := if rerun then { w with last := none, skip := none } else { w with skip := none }
    let next :=
      let w := { w with entries := w.entries.filter (fun e => e.pt.slot ≠ pt.slot) }
      match past.filter (fun l => pt.slot < l.slot) with
      | some l => w.after l
      | none => { w with slot := pt.slot + 1, chain := none }
    match action.toNat with
    | 0 => next
    | 1 => if pt.read && !linkBad pt.next then w.after (past.getD pt) else next
    | _ => { w with slot := pt.slot, chain := if pt.addr = 0 then none else some (pt.addr, pt.nsp, pt.pos), skip := past }

/-- A write of Q_RESTART: ACTION 0b11 is reserved; a queue that is not stopped ignores it; while BUSY it is held (R7, R478). -/
def State.qRestartPut (s : State) (q : QueueId) (v size : Nat) : State :=
  let action : BitVec 2 := BitVec.ofNat 2 v
  if action = 3 then s.badValue (queueReg .qRestart q) v size
  else if !(s.queue q).stopped then s
  else if (s.queue q).busy then s.modQueue q (fun v => { v with hold := some action })
  else s.modQueue q (fun v => v.restart action)

/-- Q_RESTART (R478). -/
def execQRestart (q : QueueId) (action : BitVec 2) (s : State) : Result :=
  .next (s.atReg (queueReg .qRestart q) 4 (fun s => s.qRestartPut q action.toNat 4))

/-- The unit number of an engine (R412). -/
def engineUnit : Engine → Nat
  | .dispatcher => 9
  | .mover => 8
  | .transit => 10
  | .vector => 11

/-- CPL_FULL: the completion ring has had no room for 100 ms; one record (R369). -/
def execCplFull (q : QueueId) (s : State) : Result :=
  .next <|
    let v := s.queue q
    if v.cplWait.isEmpty || v.cplTold then s
    else
      (s.emit (s.recordQ .cplFull (engineUnit q.engine) q)).modQueue q (fun v => { v with cplTold := true })

/-- ENG_MARK_WAIT: an engine's wait on a mark has exceeded LIMIT; one record, and the entry keeps waiting (R295). -/
def execEngMarkWait (q : QueueId) (s : State) : Result :=
  .next <|
    match s.engWaits.find? (fun w => w.1 = q) with
    | some (_, w) =>
      if w.met || w.told then s
      else
        { s with engWaits := s.engWaits.put q { w with told := true } }.emit (s.recordQ .engMarkWait (engineUnit q.engine) q)
    | none => s

/-- Whether an engine may start entries of a queue, but for the mark its head entry waits on (R20, R22, R369, R370). -/
def State.mayStart (s : State) (q : QueueId) : Bool :=
  let v := s.queue q
  s.enginesRun && !s.dead q.tract.val && !v.stopped && v.cplWait.isEmpty && v.sigWait.isEmpty

/-- An entry the engine may start now: the first not started, its mark reached, completion records not waiting (R18, R295, R369). -/
def State.startable (s : State) (q : QueueId) : Option QEntry :=
  if !s.mayStart q || s.headWaits q then none
  else
    match (s.queue q).headEntry with
    | some e => if e.kind == .entry then some e else none
    | none => none

/-- The engine leaves the head entry of a queue behind: it starts, or is passed over and waits (R198, R234). -/
def State.leaveEntry (s : State) (q : QueueId) (e : QEntry) (f : QEntry → QEntry) : State :=
  let s := s.modQueue q (fun v => { v with
    entries := v.entries.map (fun x => if x.id = e.id then f x else x)
    last := match v.last with
      | some l => some (if l.before e.pt then e.pt else l)
      | none => some e.pt })
  { s with engWaits := s.engWaits.erase q }.armHead q

/-- An entry starts. -/
def State.startEntry (s : State) (q : QueueId) (e : QEntry) : State := s.leaveEntry q e (fun x => { x with started := true })

/-- An entry that has been passed over starts. -/
def State.startPassed (s : State) (q : QueueId) (e : QEntry) : State :=
  s.modQueue q (fun v => { v with entries := v.entries.map (fun x => if x.id = e.id then { x with started := true } else x) })

/-- Sets what an entry in progress has done. -/
def State.setWork (s : State) (q : QueueId) (id : Nat) (w : EngWork) : State :=
  s.modQueue q (fun v => { v with entries := v.entries.map (fun x => if x.id = id then { x with work := w } else x) })

/-- The status a mark addition over the fabric completes with (R149, R259, R294): none of the memory is reached where it is not OK. -/
def State.markStatus (_s : State) (addr : Nat) : Nat :=
  let key := addr % 2 ^ 52
  if gaBad addr then 1
  else
    match windowOf (gaOffset key) with
    | .commons off => if markBase ≤ off && off % 4 = 0 then 0 else 2
    | .nowhere => 1
    | _ => 2

/-- The mark an address of this module names. -/
def addrMark (addr : Nat) : BitVec 10 := BitVec.ofNat 10 ((gaOffset addr - 0x10_0000_0000 - markBase) / 4)

/-- A chain entry signals its mark (R295, R368): a mark of the module at once, one of another module through the request agent. -/
def State.signal (s : State) (q : QueueId) (e : QEntry) : State :=
  if e.sga = 0 then s
  else
    let fail (st : Nat) : State := (s.chainFault q 4 e.pt.slot st e.sga).stopQueue q 4 e.pt
    if s.isOwn e.sga then
      match s.markStatus e.sga, keyParcel e.sga with
      | 0, some p => s.markAdd p (addrMark e.sga) (BitVec.ofNat 32 e.sval)
      | 0, none => fail 1
      | st, _ => fail st
    else (s.modQueue q (fun v => { v with sigWait := v.sigWait ++ [(e.sga, BitVec.ofNat 32 e.sval, e.pt)] })).sigPump q

/-- The error record class of an engine's faults (R20, R413). -/
def engineFault : Engine → RecClass
  | .dispatcher => .dispFault
  | .mover => .moverFault
  | .transit => .transitFault
  | .vector => .vecFault

/-- An entry leaves its queue (R20, R295, R369, R370): without a fault it signals its mark; a completion record is written where CPL is
set or it faults; a fault emits its record and stops the queue. A restart held until BUSY clears then takes effect. -/
def State.completeWith (s : State) (q : QueueId) (e : QEntry) (status : Nat) (fault : Option ErrRec) : State :=
  let s := s.modQueue q (fun v => { v with entries := v.entries.filter (fun x => x.id ≠ e.id) })
  let s := match fault with
    | some r => s.emit r
    | none => s.signal q e
  let s := if e.cpl || fault.isSome then s.putCpl q (s.cplBytes e.tag status e.pt.slot) e.irq else s
  let s := if fault.isSome then s.stopQueue q 3 e.pt else s
  let v := s.queue q
  match v.hold with
  | some a => if v.stopped && !v.busy then s.modQueue q (fun v => v.restart a) else s
  | none => s.armHead q

/-- An entry completes; the record of a fault carries the status and the slot (R413). -/
def State.completeEntry (s : State) (q : QueueId) (e : QEntry) (status : Nat) (fault : Option ErrRec) : State :=
  s.completeWith q e status (fault.map (fun r =>
    { r with detail := (natLe 4 status).take 1 ++ [0, 0, 0] ++ natLe 4 e.pt.slot ++ r.detail.drop 8 }))

/-- Completion with an engine's own fault record, or without. -/
def State.finishEntry (s : State) (q : QueueId) (e : QEntry) (status : Nat) (isFault : Bool) : State :=
  s.completeEntry q e status (if isFault then some (s.recordQ (engineFault q.engine) (engineUnit q.engine) q) else none)

end Sys2Proof.Machine
end

