-- ==== Sys2Proof/Machine/Dispatcher.lean ====
section
/-!
DEFINITION. The Dispatcher (R28, R163 to R165, R178, R181, R183 to R187): plots, program starts, tile lists and templates.
-/
namespace Sys2Proof.Machine

/-- Bits [hi:lo] of a chain entry's body, counted from byte 32. -/
def QEntry.body (e : QEntry) (hi lo : Nat) : Nat := bitsOf (leNat (e.bytes.drop 32)) hi lo

/-- Whether every bit of the body outside the fields named is 0 (R6, R183). -/
def QEntry.bodyClean (e : QEntry) (used : List (Nat × Nat)) : Bool :=
  used.foldl (fun v f => setBits v f.1 f.2 0) (leNat (e.bytes.drop 32)) == 0

/-- The OP of a Dispatcher entry (R183). -/
def QEntry.dispOp (e : QEntry) : Nat := e.body 3 0

/-- The statuses of R186. -/
inductive DispStatus where
  | ok | badOp | plotBusy | progRange | listFull | badHome | addr | startTimeout | plotEmpty
  deriving DecidableEq, Repr

def DispStatus.code : DispStatus → Nat
  | .ok => 0 | .badOp => 1 | .plotBusy => 2 | .progRange => 3 | .listFull => 4 | .badHome => 5 | .addr => 6
  | .startTimeout => 7 | .plotEmpty => 8

/-- A Dispatcher entry completes; every status but OK is a fault (R186). -/
def State.dispDone (s : State) (t : Tract) (e : QEntry) (st : DispStatus) : State :=
  s.finishEntry (engQueue t .dispatcher) e st.code (st != .ok)

/-- Starts the Dispatcher's next entry where it has one of the kind named; an entry of reserved OP completes with BAD_OP
(R183, R186). may: what the entry reads may be asked for now. -/
def State.dispStart (s : State) (t : Tract) (op : Nat) (act : State → QEntry → State) (may : QEntry → Bool := fun _ => true) : State :=
  match s.startable (engQueue t .dispatcher) with
  | none => s
  | some e =>
    if e.dispOp = op then if !may e then s else act (s.startEntry (engQueue t .dispatcher) e) e
    else if 5 ≤ e.dispOp then (s.startEntry (engQueue t .dispatcher) e).dispDone t e .badOp
    else s

/-- The parcels of a plot, in rising logical number (R184). -/
def State.plotParcels (s : State) (t : Tract) (n : BitVec 8) : List ParcelId :=
  (List.range 1360).filterMap fun i =>
    match keyParcel (keyOf t.val i 0) with
    | some p => if (s.parcel p).plot == some n then some p else none
    | none => none

/-- A run of parcels of a tract. -/
def parcelRange (t : Tract) (p0 np : Nat) : List ParcelId :=
  (List.range np).filterMap (fun i => keyParcel (keyOf t.val (p0 + i) 0))

/-- Whether a parcel may change its plot: no core runs, its list is empty, no core holds a tile (R165). -/
def State.parcelIdle (s : State) (p : ParcelId) : Bool :=
  (s.coresOf p).all (fun c => (s.core c).run != .running) && (s.parcel p).tiles.isEmpty && (s.parcel p).held.isEmpty

/-- NPARCEL and VALID of a plot follow its membership (R164). -/
def State.countPlot (s : State) (t : Tract) (n : BitVec 8) : State :=
  let k := tractRegI .plotCfg t n.toNat
  let c := (s.plotParcels t n).length
  (s.setRegBits k 22 12 c).setRegBits k 0 0 (b2n (c != 0))

/-- The ledger of a parcel resets (R319). -/
def State.ledgerReset (s : State) (p : ParcelId) : State :=
  s.modParcel p (fun v => { v with stash := { v.stash with used := 0, full := 0 } })

/-- A parcel joins a plot, or none; its ledger resets where it moves (R165, R319). -/
def State.movePlot (s : State) (p : ParcelId) (n : Option (BitVec 8)) : State :=
  if (s.parcel p).plot == n then s
  else
    let old := (s.parcel p).plot
    let s := (s.modParcel p (fun v => { v with plot := n })).ledgerReset p
    match old with
    | some m => s.countPlot p.tract m
    | none => s

/-- The effect of PLOT_SET (R165, R183). -/
def State.plotSetAct (s : State) (t : Tract) (e : QEntry) : State :=
  let none_ := e.body 12 12 == 1
  let n : BitVec 8 := BitVec.ofNat 8 (e.body 11 4)
  let p0 := e.body 42 32
  let np := e.body 53 43
  let bad := !e.bodyClean [(11, 0), (12, 12), (53, 32), (74, 64)] || np = 0 || 1360 < p0 + np ||
    (none_ && (e.body 11 4 != 0 || e.body 74 64 != 0))
  let ps := parcelRange t p0 np
  if bad then s.dispDone t e .badOp
  else if !ps.all s.parcelIdle then s.dispDone t e .plotBusy
  else
    let s := ps.foldl (fun s p => s.movePlot p (if none_ then none else some n)) s
    let s :=
      if none_ then s
      else
        let k := tractRegI .plotCfg t n.toNat
        ((s.setRegBits k 2 1 (e.body 65 64)).setRegBits k 3 3 (e.body 66 66)).setRegBits k 11 4 (e.body 74 67)
          |>.countPlot t n
    s.dispDone t e .ok

/-- PLOT_SET: membership and configuration of a plot (R165). -/
def execPlotSet (t : Tract) (s : State) : Result := .next (s.dispStart t 0 (fun s e => s.plotSetAct t e))

/-- Whether a plot has no parcel (PLOT_EMPTY). -/
def State.plotEmpty (s : State) (t : Tract) (n : Nat) : Bool := s.regBits (tractRegI .plotCfg t n) 0 0 == 0

/-- A program starts on a core (R28, R54, R172): registers, counters, latches, buffer and steal pointer are set; what the last program awaited
no longer reaches a register (R60), and its gang breaks (R78). -/
def State.programStart (s : State) (c : CoreId) (e : QEntry) : State :=
  let s := s.modCore c (fun k => { k with
    g := Vector.replicate 32 0, a := Vector.replicate 16 0, p := Vector.replicate 8 false, ac := Vector.replicate 8 0
    pc := BitVec.ofNat 18 (e.body 113 96), progBase := BitVec.ofNat 18 (e.body 145 128)
    progLimit := BitVec.ofNat 18 (e.body 177 160), arg0 := BitVec.ofNat 64 (e.body 319 256)
    arg1 := BitVec.ofNat 64 (e.body 383 320), run := .running, pwr := .run, ibuf := [], wait := none, land := false, arrive := false
    loads := k.loads.map (fun l => { l with parts := [], stopped := some (l.stopped.getD k.pc.toNat) })
    steal := BitVec.ofNat 2 c.core.val
    arr := { k.arr with queue := k.arr.queue.map (fun x => match x.op with
      | .astat _ clr => { x with op := .astat 0 clr }
      | _ => x) } })
  (s.reclaim c.tract).breakGang c .broken

/-- The effect of START (R185): the cores it selects are started one by one, by DISPATCHER_CORE_START. -/
def State.startAct (s : State) (t : Tract) (e : QEntry) : State :=
  let n := e.body 11 4
  let pb := e.body 145 128
  let pl := e.body 177 160
  let en := e.body 113 96
  let lim := vectorBase (s.layout t)
  let bad := !e.bodyClean [(11, 0), (113, 96), (145, 128), (177, 160), (255, 192), (319, 256), (383, 320)] || en % 4 != 0
  if bad then s.dispDone t e .badOp
  else if pl ≤ pb || lim < pl || lim ≤ en then s.dispDone t e .progRange
  else if s.plotEmpty t n then s.dispDone t e .plotEmpty
  else
    let cs := (s.plotParcels t (BitVec.ofNat 8 n)).flatMap (fun p =>
      (List.finRange 64).filterMap (fun c => if e.body (192 + c.val) (192 + c.val) == 1 then some (parcelCore p c) else none))
    if cs.isEmpty then s.dispDone t e .ok else s.setWork (engQueue t .dispatcher) e.id (.starting cs)

/-- START: starts a program on the selected cores of a plot (R185). -/
def execStart (t : Tract) (s : State) : Result := .next (s.dispStart t 1 (fun s e => s.startAct t e))

/-- The cores a START still has to start. -/
def QEntry.starting (e : QEntry) : List CoreId :=
  match e.work with
  | .starting l => l
  | _ => []

/-- DISPATCHER_CORE_START: a selected core that has halted or stopped is started; the last one completes the entry (R28, R185). -/
def execDispatcherCoreStart (c : CoreId) (s : State) : Result :=
  .next <|
    let q := engQueue c.tract .dispatcher
    match (s.queue q).entries.find? (fun e => e.starting.contains c) with
    | none => s
    | some e =>
      if (s.core c).run == .running || !s.enginesRun then s
      else
        let left := e.starting.filter (fun x => x ≠ c)
        let s := s.programStart c e
        if left.isEmpty then s.dispDone c.tract e .ok else s.setWork q e.id (.starting left)

/-- START_TIMEOUT: a selected core has not become free within 1 s (R185). -/
def execStartTimeout (t : Tract) (s : State) : Result :=
  .next <|
    match (s.queue (engQueue t .dispatcher)).entries.find? (fun e => !e.starting.isEmpty) with
    | some e => s.dispDone t e .startTimeout
    | none => s

/-- What the Dispatcher reads at a global address, in this module or, as the answer of that module, in another of the job; none: an error status,
or poison (R186, R272). -/
def State.engineFetch (s : State) (ga n : Nat) (net : List NetReply) : Option (List Byte) :=
  if gaBad ga then none
  else if s.isOwn ga then s.engineRead ga n
  else
    match net with
    | r :: _ => if r.status = 0 && r.poison.isEmpty && r.data.length = n then some r.data else none
    | [] => none

/-- The Dispatcher reads the records of an entry, as an operation of its request agent (R254); with what it read, or none, it goes on. A read of a
dead tract stays outstanding until it times out (R271, R272). -/
def State.dispRead (s : State) (t : Tract) (e : QEntry) (src n : Nat) (net : List NetReply) (act : State → Option (List Byte) → State) : State :=
  if gaBad src then act s none
  else
    let s := s.engEnter t .dispatcher e.id [(src, n)] []
    let routed := s.engRouted t .dispatcher e.id
    if routed && s.deadAt src then s
    else
      let read := if routed then s.engineFetch src n net else none
      let s := s.engineTouch src n
      let s := s.engReplies t .dispatcher e.id [(src, n)] net
      act (s.engClose t .dispatcher e.id).1 read

/-- Whether the Dispatcher's read may be made now. -/
def State.dispMay (s : State) (t : Tract) (src n : Nat) : Bool := gaBad src || s.engMay t .dispatcher [(src, n)] []

/-- The 16-byte records of a run of bytes. -/
def records16 (bs : List Byte) : List (BitVec 128) :=
  (chunksOf 16 bs.length bs).map (fun b => BitVec.ofNat 128 (leNat b))

/-- The effect of TLOAD (R184, R186). -/
def State.tloadAct (s : State) (t : Tract) (e : QEntry) (net : List NetReply) : State :=
  let n : BitVec 8 := BitVec.ofNat 8 (e.body 11 4)
  let deal := e.body 13 13 == 1
  let src := e.body 447 384
  let cnt := e.body 479 448
  let bad := !e.bodyClean [(11, 0), (13, 13), (447, 384), (479, 448)] || cnt = 0 || 65536 < cnt || src % 16 != 0
  if bad then s.dispDone t e .badOp
  else if s.plotEmpty t n.toNat then s.dispDone t e .plotEmpty
  else
    s.dispRead t e src (16 * cnt) net fun s read =>
    match read with
    | none => s.dispDone t e .addr
    | some bs =>
      let ds := records16 bs
      let ps := s.plotParcels t n
      let target (i : Nat) (d : BitVec 128) : Option ParcelId :=
        if deal then ps[i % ps.length]? else ps.find? (fun p => p.parcel.val = tdHome d)
      let plan : List (Option ParcelId × BitVec 128) := ds.zipIdx.map (fun q => (target q.2 q.1, q.1))
      if !ds.all tdValid then s.dispDone t e .badOp
      else if plan.any (fun q => q.1.isNone) then s.dispDone t e .badHome
      else if ps.any (fun p => decide (s.tileFree p < (plan.filter (fun q => q.1 = some p)).length)) then
        s.dispDone t e .listFull
      else
        let s := ps.foldl (fun s p =>
          let es := (plan.filter (fun q => q.1 = some p)).map (fun q => ({ bytes := q.2, bad := false } : TileEntry))
          if es.isEmpty then s else s.tileAppend p es) s
        s.dispDone t e .ok

/-- TLOAD: appends descriptors to the lists of a plot (R184). -/
def execTload (t : Tract) (net : List NetReply) (s : State) : Result :=
  .next (s.dispStart t 2 (fun s e => s.tloadAct t e net) (fun e => s.dispMay t (e.body 447 384) (16 * e.body 479 448)))

/-- The fields of a tile template (R178). -/
def tmNct (v : Nat) : Nat := bitsOf v 11 0 + 1
def tmNcolg (v : Nat) : Nat := bitsOf v 23 16
def tmMaxrows (v : Nat) : Nat := bitsOf v 31 24
def tmPhase (v : Nat) : Nat := bitsOf v 39 32
def tmBg (v : Nat) : Nat := bitsOf v 47 40
def tmNkg (v : Nat) : Nat := bitsOf v 55 48
def tmNoSteal (v : Nat) : Bool := bitOf v 56
def tmDmark (v : Nat) : Nat := bitsOf v 73 64
def tmDm (v : Nat) : Bool := bitOf v 74

/-- A template is valid when each field lies in its range (R178, R181). -/
def tmValid (v : Nat) : Bool :=
  bitsOf v 15 12 == 0 && bitsOf v 63 57 == 0 && bitsOf v 127 75 == 0 && tmNcolg v != 0 &&
    decide (tmNct v * tmNcolg v ≤ 65536) && tmMaxrows v != 0 && tmNkg v != 0 && (tmBg v != 0 || tmNkg v == 1)

/-- The effect of TMPL_SET (R181, R186). -/
def State.tmplSetAct (s : State) (t : Tract) (e : QEntry) (net : List NetReply) : State :=
  let src := e.body 447 384
  let cnt := e.body 479 448
  let i0 := e.body 105 96
  let bad := !e.bodyClean [(3, 0), (105, 96), (447, 384), (479, 448)] || cnt = 0 || 1024 < i0 + cnt || src % 16 != 0
  if bad then s.dispDone t e .badOp
  else
    s.dispRead t e src (16 * cnt) net fun s read =>
    match read with
    | none => s.dispDone t e .addr
    | some bs =>
      let ts := (records16 bs).map (fun d => d.toNat)
      if !ts.all tmValid then s.dispDone t e .badOp
      else (ts.zipIdx.foldl (fun s q => s.setReg (tractRegI .tileTmpl t (i0 + q.2)) q.1) s).dispDone t e .ok

/-- TMPL_SET: loads tile templates (R178, R181). -/
def execTmplSet (t : Tract) (net : List NetReply) (s : State) : Result :=
  .next (s.dispStart t 3 (fun s e => s.tmplSetAct t e net) (fun e => s.dispMay t (e.body 447 384) (16 * e.body 479 448)))

/-- TCLEAR: discards every entry of the plot's lists (R183). -/
def execTclear (t : Tract) (s : State) : Result :=
  .next (s.dispStart t 4 (fun s e =>
    let n := e.body 11 4
    if !e.bodyClean [(11, 0)] then s.dispDone t e .badOp
    else if s.plotEmpty t n then s.dispDone t e .plotEmpty
    else
      ((s.plotParcels t (BitVec.ofNat 8 n)).foldl (fun s p => s.modParcel p (fun v => { v with tiles := [] })) s).dispDone t e
        .ok))

end Sys2Proof.Machine
end

