-- ==== Sys2Proof/Machine/EngData.lean ====
section
/-!
DEFINITION. What the engines of a tract share: bytes that carry poison (R148), reads and writes through global addresses in this
module or, as another module answers, in that one (R149, R154, R272), elements packed in rows (R105).
-/
namespace Sys2Proof.Machine

/-- A byte on an engine's path, and whether it comes from a poisoned unit (R148). -/
abbrev MByte := Byte × Bool

/-- Bytes that are sound. -/
def sound (bs : List Byte) : List MByte := bs.map (fun b => (b, false))

/-- The data of a run of bytes. -/
def mdata (bs : List MByte) : List Byte := bs.map (fun b => b.1)

/-- Whether a run carries poison. -/
def mbad (bs : List MByte) : Bool := bs.any (fun b => b.2)

/-- A byte of memory as an engine's path carries it. -/
def State.mbyte (s : State) (key : Nat) : MByte := (s.peekByte key, s.mem.badUnit (unitBase key))

/-- A run of memory as an engine's path carries it. -/
def State.mread (s : State) (key n : Nat) : List MByte := tabulate n (fun i => s.mbyte (key + i))

/-- What a run of n bytes at an address meets before any access (R149, R160): 0 permitted, 1 ADDR, 2 PROTECT. A window of
another module is judged by its kind alone. -/
def State.reach (s : State) (ga n : Nat) (write : Bool) : Nat :=
  if n = 0 then 0
  else if gaBad ga then 1
  else if s.isOwn ga then
    match s.windowStatus (ga % 2 ^ 52) n write with
    | 0 => if write && s.inReplica (ga % 2 ^ 52) n then 2 else 0
    | st => st
  else if !s.inJob (gaModule ga) then 1
  else
    match windowOf (gaOffset ga), windowOf (gaOffset ga + n - 1) with
    | .slice _, .slice _ => 0
    | .commons _, .commons _ => 0
    | .store c _, .store c' _ => if c = c' then 0 else 1
    | .control _, .control _ => if write then 2 else 0
    | _, _ => 1

/-- What an engine of tract t reading a run of this module does to its check units. -/
def State.touchAt (s : State) (t : Tract) (ga n : Nat) : State := if s.isOwn ga then s.touchVia t (ga % 2 ^ 52) n else s

/-- What another module answers to one read of n bytes at an address: its bytes, or nothing where it answers an error or not at all; and the
answers left. -/
def netRead (ga n : Nat) (net : List NetReply) : Option (List MByte) × List NetReply :=
  match net with
  | [] => (none, [])
  | r :: rest =>
    (if r.status = 0 ∧ r.data.length = n then
      some (r.data.zipIdx.map (fun q => (q.1, r.poison.contains ((ga % 16 + q.2) / 16)))) else none, rest)

/-- A run of this module as an engine of tract t reads it: where it lies in a replicated region, from the replica of its tract (R152). -/
def State.mreadVia (s : State) (t : Tract) (key n : Nat) : List MByte :=
  if (s.regionLines key n).isEmpty then s.mread key n else tabulate n (fun i => s.mbyte (s.viaReplica t (key + i)))

/-- A read of n bytes at an address that reach permits, by the engine of an entry; none where its operation could not be routed, or ends in an
error status: one of a dead tract ends in TIMEOUT (R256, R271, R272). -/
def State.engRead (s : State) (t : Tract) (ga n : Nat) (net : List NetReply) : Option (List MByte) × List NetReply :=
  if n = 0 then (some [], net) else if s.deadAt ga then (none, net)
  else if s.isOwn ga then (some (s.mreadVia t (ga % 2 ^ 52) n), net) else netRead ga n net

/-- One 16-byte piece of an engine's write: a unit that receives a poisoned byte is written poisoned (R148). -/
def State.mstorePiece (s : State) (q : Nat × List MByte) : State :=
  if mbad q.2 then s.storePoison (q.1 / 16 * 16) 16 else s.store q.1 (mdata q.2)

/-- A run of bytes cut at 16-byte units. -/
def mpieces : Nat → Nat → List MByte → List (Nat × List MByte)
  | 0, _, _ => []
  | _, _, [] => []
  | fuel + 1, a, bs =>
    let n := 16 - a % 16
    (a, bs.take n) :: mpieces fuel (a + n) (bs.drop n)

/-- A run written to memory, 16-byte unit by unit; the replica lines it makes stale become invalid (R153). -/
def State.mstore (s : State) (key : Nat) (bs : List MByte) : State :=
  ((mpieces bs.length key bs).foldl State.mstorePiece s).staleLines key bs.length

/-- A write at an address that reach permits, by an entry of an engine; the flag: it completed without an error status. Stores for another
module leave with the entry's operation of its request agent (R254). -/
def State.engWrite (s : State) (t : Tract) (g : Engine) (id : Nat) (ga : Nat) (bs : List MByte) (net : List NetReply) :
    State × Bool × List NetReply :=
  if bs.isEmpty then (s, true, net)
  else if s.deadAt ga then (s, false, net)
  else if s.isOwn ga then (s.mstore (ga % 2 ^ 52) bs, true, net)
  else
    match s.engEntry t g id true ga with
    | some e =>
      if e.outcome ≠ 0 then (s, false, net.drop 1)
      else
        ((s.sendStores t e ga bs).engAnswered t g id true ga net.head?, (net.head?.map (fun r => decide (r.status = 0))).getD false, net.drop 1)
    | none => (s, false, net.drop 1)

/-- Element i of a row of elements of so many bits, and whether a byte it lies in is poisoned (R105). -/
def rowElem (bits : Nat) (row : List MByte) (i : Nat) : Nat × Bool :=
  let lo := i * bits
  let n := (lo % 8 + bits + 7) / 8
  let part := (row.drop (lo / 8)).take n
  (leNat (mdata part) / 2 ^ (lo % 8) % 2 ^ bits, mbad part)

/-- Elements packed into a row, padded with zero bits to so many bytes (R105). -/
def packElems (bits bytes : Nat) (es : List (Nat × Bool)) : List MByte :=
  let v := (es.zipIdx.map (fun q => q.1.1 % 2 ^ bits * 2 ^ (bits * q.2))).sum
  let hit (j : Nat) : Bool := es.zipIdx.any (fun q => q.1.2 && bits * q.2 < 8 * (j + 1) && 8 * j < bits * (q.2 + 1))
  (natLe bytes v).zipIdx.map (fun q => (q.1, hit q.2))

/-- Sets flags in a 4-bit group of a tract's TRACT_NFLAGS (R125). -/
def State.tractFlags (s : State) (t : Tract) (group : Nat) (fl : FlagSet) : State :=
  let k := tractReg .tractNflags t
  s.setRegBits k (4 * group + 3) (4 * group) (s.regBits k (4 * group + 3) (4 * group) ||| fl.toNat)

/-- Sets flags of the tract's Mover converter, in its own group and in TRACT_NFLAGS (R125). -/
def State.convFlags (s : State) (t : Tract) (fl : FlagSet) : State :=
  let v := s.seqrs.get t Seqr.reset
  { s with seqrs := s.seqrs.put t { v with convFlags := v.convFlags ||| fl } }.tractFlags t 2 fl

/-- Sets flags of the tract's reduction units, in their own group and in TRACT_NFLAGS (R125). -/
def State.redFlags (s : State) (t : Tract) (fl : FlagSet) : State :=
  let v := s.seqrs.get t Seqr.reset
  { s with seqrs := s.seqrs.put t { v with redFlags := v.redFlags ||| fl } }.tractFlags t 3 fl

end Sys2Proof.Machine
end

