-- ==== Sys2Proof/Machine/Plan.lean ====
section
/-!
DEFINITION. Step plans, cadastre entries and slot tables (R200, R201, R212, R213, R225, R226, R480): their fields and a plan's
validation.
-/
namespace Sys2Proof.Machine

/-- The fields of a plan's header (R212). -/
def PlanImage.magic (p : PlanImage) : Nat := fieldAt p.bytes 0 4
def PlanImage.version (p : PlanImage) : Nat := fieldAt p.bytes 4 2
def PlanImage.snap (p : PlanImage) : Nat := fieldBits p.bytes 6 2 1 0
def PlanImage.step (p : PlanImage) : Nat := fieldAt p.bytes 8 8
def PlanImage.planId (p : PlanImage) : Nat := fieldAt p.bytes 16 8
def PlanImage.length (p : PlanImage) : Nat := fieldAt p.bytes 24 4
def PlanImage.nlayer (p : PlanImage) : Nat := fieldAt p.bytes 28 2
def PlanImage.ntensor (p : PlanImage) : Nat := fieldAt p.bytes 30 2
def PlanImage.ncad (p : PlanImage) : Nat := fieldAt p.bytes 32 2
def PlanImage.nslot (p : PlanImage) : Nat := fieldAt p.bytes 34 2
def PlanImage.layerOfs (p : PlanImage) : Nat := fieldAt p.bytes 40 4
def PlanImage.cadOfs (p : PlanImage) : Nat := fieldAt p.bytes 44 4
def PlanImage.slotOfs (p : PlanImage) : Nat := fieldAt p.bytes 48 4
def PlanImage.tensorOfs (p : PlanImage) : Nat := fieldAt p.bytes 52 4
def PlanImage.tallyHost (p : PlanImage) : Nat := fieldAt p.bytes 56 8

/-- A layer record (R212); pos: its byte offset in the plan. -/
structure LayerRec where
  pos       : Nat
  layer     : Nat
  e         : Nat
  k         : Nat
  seg       : Nat
  cadGa     : Nat
  tallyGa   : Nat
  cutGa     : Nat
  keyOff    : Nat
  kparcel   : Nat
  keyCap    : Nat
  rowb      : Nat
  payb      : Nat
  deriving DecidableEq, Repr

/-- The layer record at a byte offset. -/
def parseLayer (bs : List Byte) (o : Nat) : LayerRec :=
  { pos := o, layer := fieldBits bs o 2 9 0, e := fieldAt bs (o + 2) 2 + 1, k := fieldBits bs (o + 4) 1 4 0,
    seg := fieldBits bs (o + 6) 2 11 0 + 1, cadGa := fieldAt bs (o + 8) 8, tallyGa := fieldAt bs (o + 16) 8,
    cutGa := fieldAt bs (o + 24) 8, keyOff := fieldAt bs (o + 32) 4, kparcel := fieldBits bs (o + 36) 2 10 0,
    keyCap := fieldAt bs (o + 40) 4, rowb := 32 * fieldAt bs (o + 44) 2, payb := 4 * fieldAt bs (o + 46) 2 }

/-- The layer records of a plan, in record order. -/
def PlanImage.layers (p : PlanImage) : List LayerRec :=
  (List.range p.nlayer).map (fun i => parseLayer p.bytes (p.layerOfs + 64 * i))

/-- The layer record of a layer in a plan. -/
def PlanImage.layerOf (p : PlanImage) (n : Nat) : Option LayerRec := p.layers.find? (fun l => l.layer = n)

/-- The layer record of a layer in the plan in force. -/
def State.layerRec (s : State) (n : Nat) : Option LayerRec := s.plan.inForce.bind (fun p => p.layerOf n)

/-- A slot table of the plan in force. -/
def State.slotTable (s : State) (n : Nat) : Option (List Byte) :=
  s.plan.inForce.bind (fun p => (p.tables.find? (fun q => q.1 = n)).map (fun q => q.2))

/-- A tensor record (R212). -/
structure TensorRec where
  kind     : Nat
  snapt    : Bool
  shard    : Bool
  ga       : Nat
  rows     : Nat
  rowbytes : Nat
  scaleGa  : Nat
  deriving DecidableEq, Repr

/-- Scale bytes of a tensor: MX kinds have a byte for 32 elements, two elements a byte for kind 0b001 (R434, R122). -/
def TensorRec.scaleBytes (r : TensorRec) : Nat :=
  if r.kind < 4 then r.rows * ceilDiv (r.rowbytes * if r.kind = 1 then 2 else 1) 32 else 0

/-- The tensor records of a plan. -/
def PlanImage.tensors (p : PlanImage) : List TensorRec :=
  (List.range p.ntensor).map (fun i =>
    let o := p.tensorOfs + 32 * i
    { kind := fieldBits p.bytes (o + 2) 1 2 0, snapt := fieldBits p.bytes (o + 3) 1 0 0 == 1,
      shard := fieldBits p.bytes (o + 3) 1 1 1 == 1, ga := fieldAt p.bytes (o + 8) 8, rows := fieldAt p.bytes (o + 16) 4,
      rowbytes := fieldAt p.bytes (o + 20) 4, scaleGa := fieldAt p.bytes (o + 24) 8 })

/-- A cadastre entry's fields (R200). -/
structure Cad where
  module : Nat
  tract  : Nat
  plot   : Nat
  valid  : Bool
  tmpl   : Nat
  cap    : Nat
  land   : Nat
  rsv    : Bool
  deriving DecidableEq, Repr

def cadEntry (bs : List Byte) : Cad :=
  { module := fieldBits bs 0 2 11 0, tract := fieldBits bs 0 2 15 12, plot := fieldAt bs 2 1, valid := fieldBits bs 3 1 0 0 == 1,
    tmpl := fieldBits bs 4 2 9 0, cap := fieldAt bs 6 2, land := 128 * fieldBits bs 8 4 19 0,
    rsv := fieldBits bs 3 1 7 1 != 0 || fieldBits bs 4 2 15 10 != 0 || fieldBits bs 8 4 31 20 != 0 || fieldAt bs 12 4 != 0 }

/-- Whether an entry breaks a rule of R201 beside VALID. -/
def State.cadBreaks (s : State) (c : Cad) : Bool :=
  !s.inJob c.module || 12 ≤ c.tract || c.cap == 0 || 0x480_0000 ≤ c.land || c.rsv

/-- The cadastre entry of an expert where it can be read whole and sound. -/
def State.cadRead (s : State) (l : LayerRec) (e : Nat) : Option Cad := (s.engineRead (l.cadGa + 16 * e) 16).map cadEntry

/-- The valid cadastre entry of an expert (R201). -/
def State.cadOf (s : State) (l : LayerRec) (e : Nat) : Option Cad :=
  match s.cadRead l e with
  | some c => if c.valid && !s.cadBreaks c then some c else none
  | none => none

/-- What reading the entries of some experts does to the check units of a layer's cadastre (R136, R145, R147, R201). -/
def State.touchCad (s : State) (l : LayerRec) (es : List Nat) : State := es.foldl (fun s e => s.engineTouch (l.cadGa + 16 * e) 16) s

/-- The first item that fails, by its offset: each item with the test that it fails. -/
def firstFail : List (Bool × Nat) → Option Nat
  | [] => none
  | (b, o) :: rest => if b then some o else firstFail rest

/-- Item 1 of the validation (R213). -/
def PlanImage.check1 (p : PlanImage) : Option Nat :=
  firstFail [(p.magic != 0x4E41_4C50, 0), (p.version != 1, 4), (fieldBits p.bytes 6 2 15 2 != 0, 6),
    (p.length < 64 || 2 ^ 24 < p.length, 24), (fieldAt p.bytes 36 4 != 0, 36)]

/-- The sections of a plan: the header field that places it, its offset, its length in bytes. -/
def PlanImage.sections (p : PlanImage) : List (Nat × Nat × Nat) :=
  [(40, p.layerOfs, 64 * p.nlayer), (44, p.cadOfs, 32 * p.ncad), (48, p.slotOfs, 16 * p.nslot),
   (52, p.tensorOfs, 32 * p.ntensor)]

/-- Whether two sections that hold something share a byte. -/
def sectionsMeet (a b : Nat × Nat × Nat) : Bool :=
  decide (0 < a.2.2 ∧ 0 < b.2.2 ∧ a.2.1 < b.2.1 + b.2.2 ∧ b.2.1 < a.2.1 + a.2.2)

/-- Item 3: the other header fields, the bounds of the sections and their overlap (R213). -/
def PlanImage.check3 (p : PlanImage) (current : Nat) : Option Nat :=
  let secs := p.sections
  firstFail ([(p.snap == 3, 6), (current + 1 < p.step, 8), (1024 < p.nlayer, 28), (4096 < p.ntensor, 30), (4096 < p.ncad, 32),
      (256 < p.nslot, 34)] ++
    secs.zipIdx.map (fun q =>
      let (f, o, n) := q.1
      (o % 16 != 0 || (n != 0 && (o < 64 || p.length < o + n)) || (secs.take q.2).any (fun x => sectionsMeet x q.1), f)))

/-- Whether a run lies in one window of this module (R213). -/
def State.inWindow (s : State) (ga n : Nat) : Bool := s.isOwn ga && s.reach ga n false == 0

/-- A layer record's own fields. -/
def State.layerFail (s : State) (p : PlanImage) (i : Nat) : Option Nat :=
  let o := p.layerOfs + 64 * i
  let b := fieldBits p.bytes
  let l := parseLayer p.bytes o
  match firstFail [
      (b o 2 15 10 != 0 || (p.layers.take i).any (fun x => x.layer == l.layer), o),
      (l.k == 0 || 16 < l.k || b (o + 4) 1 7 5 != 0 || l.e < l.k, o + 4), (fieldAt p.bytes (o + 5) 1 != 0, o + 5),
      (b (o + 6) 2 15 12 != 0 || 4096 < ceilDiv l.e l.seg, o + 6), (!s.inWindow l.cadGa (16 * l.e), o + 8),
      (!s.inWindow l.tallyGa (16 * l.e), o + 16), (!s.inWindow l.cutGa (8 * l.e), o + 24),
      (0x480_0000 < l.keyOff + 16 * l.keyCap, o + 32), (1360 ≤ l.kparcel || b (o + 36) 2 15 11 != 0, o + 36),
      (fieldAt p.bytes (o + 38) 2 != 0, o + 38), (l.rowb == 0 || 65536 < l.rowb, o + 44), (l.rowb < l.payb + 16, o + 46),
      (fieldAt p.bytes (o + 48) 16 != 0, o + 48)] with
  | some f => some f
  | none =>
    if (List.range l.e).any (fun e => match s.cadRead l e with
        | none => true
        | some c => c.valid && s.cadBreaks c) then some o
    else none

/-- A cadastre change record. -/
def State.changeFail (s : State) (p : PlanImage) (i : Nat) : Option Nat :=
  let o := p.cadOfs + 32 * i
  let c := cadEntry (p.bytes.drop (o + 16))
  match p.layerOf (fieldAt p.bytes o 2) with
  | none => some o
  | some l =>
    firstFail [(l.e ≤ fieldAt p.bytes (o + 2) 2, o + 2), (fieldAt p.bytes (o + 4) 12 != 0, o + 4), (c.valid && s.cadBreaks c, o)]

/-- The number, length and bus address of slot table record i. -/
def PlanImage.slotRec (p : PlanImage) (i : Nat) : Nat × Nat × Nat :=
  let o := p.slotOfs + 16 * i
  (fieldAt p.bytes o 2, fieldAt p.bytes (o + 4) 4, fieldAt p.bytes (o + 8) 8)

/-- A slot table record: its number, and the length of all tables up to it. -/
def PlanImage.slotFail (p : PlanImage) (i : Nat) : Option Nat :=
  let o := p.slotOfs + 16 * i
  let n := (p.slotRec i).1
  let total := ((List.range (i + 1)).map (fun j => (p.slotRec j).2.1)).sum
  firstFail [(255 < n || (List.range i).any (fun j => (p.slotRec j).1 == n), o), (fieldAt p.bytes (o + 2) 2 != 0, o + 2),
    (2 ^ 25 < total, o + 4)]

/-- A tensor record; one of a snapshot step lies in slice windows of this module, its scales too (R213, R434). -/
def State.tensorFail (s : State) (p : PlanImage) (i : Nat) : Option Nat :=
  let o := p.tensorOfs + 32 * i
  let f := fieldAt p.bytes
  let inSlice (ga n : Nat) : Bool := s.isOwn ga && s.reach ga n false == 0 && (match windowOf (gaOffset ga) with
    | .slice _ => true
    | _ => false)
  let kept := bitsOf (f (o + 3) 1) 1 0 != 0
  let scales := ((p.tensors[i]?).map TensorRec.scaleBytes).getD 0
  firstFail [((List.range i).any (fun j => f (p.tensorOfs + 32 * j) 2 == f o 2), o),
    (bitsOf (f (o + 2) 1) 2 0 == 7 || bitsOf (f (o + 2) 1) 7 3 != 0, o + 2), (bitsOf (f (o + 3) 1) 7 2 != 0, o + 3),
    (f (o + 4) 4 != 0, o + 4),
    (p.snap != 0 && kept && !inSlice (f (o + 8) 8) (f (o + 16) 4 * f (o + 20) 4), o + 8),
    (p.snap != 0 && kept && scales != 0 && !inSlice (f (o + 24) 8) scales, o + 24)]

/-- The first failure over the records 0 to n - 1 of a section. -/
def firstRecord (n : Nat) (f : Nat → Option Nat) : Option Nat := (List.range n).findSome? f

/-- The cadastre tables that item 4 reads: those of the layer records up to the first that fails (R213). -/
def State.touchPlan (s : State) (p : PlanImage) : State :=
  let n := (firstIdx (fun i => (s.layerFail p i).isSome) (List.range p.nlayer)) + 1
  (p.layers.take n).foldl (fun s l => if s.inWindow l.cadGa (16 * l.e) then s.touchCad l (List.range l.e) else s) s

/-- Item 4 (R213). -/
def State.check4 (s : State) (p : PlanImage) : Option Nat :=
  firstRecord p.nlayer (s.layerFail p) <|> firstRecord p.ncad (s.changeFail p) <|> firstRecord p.nslot p.slotFail <|>
    firstRecord p.ntensor (s.tensorFail p)

/-- A slot table entry's fields (R225). -/
structure SlotEnt where
  slot   : Nat
  port   : Nat
  recv   : Bool
  relay  : Bool
  stract : Nat
  peer   : Nat
  pport  : Nat
  dmod   : Nat
  limit  : Nat
  deriving DecidableEq, Repr

def slotEnt (bs : List Byte) (o : Nat) : SlotEnt :=
  let f := fieldBits bs
  { slot := f o 2 11 0, port := f o 2 15 12, recv := f (o + 2) 1 0 0 == 1, relay := f (o + 2) 1 1 1 == 1,
    stract := f (o + 3) 1 3 0, peer := f (o + 4) 2 11 0, pport := f (o + 4) 2 15 12, dmod := f (o + 6) 2 11 0,
    limit := fieldAt bs (o + 8) 4 }

def tableNslot (bs : List Byte) : Nat := fieldAt bs 2 2
def tableNent (bs : List Byte) : Nat := fieldAt bs 4 4
/-- The entries of a slot table. -/
def tableEnts (bs : List Byte) : List SlotEnt := (List.range (tableNent bs)).map (fun i => slotEnt bs (16 + 16 * i))

/-- The first breach of R225 or R226 in a table, by its offset in the table. -/
def State.tableFail (s : State) (number len : Nat) (bs : List Byte) : Option Nat :=
  let own := s.job.moduleId.toNat
  let es := tableEnts bs
  firstFail [(fieldAt bs 0 2 != number, 0), (tableNslot bs == 0 || 4096 < tableNslot bs, 2),
      (tableNent bs == 0 || 65536 < tableNent bs || 16 + 16 * tableNent bs != len, 4), (fieldAt bs 8 8 != 0, 8)] <|>
    firstRecord (tableNent bs) (fun i =>
      let o := 16 + 16 * i
      let e := slotEnt bs o
      let other (m : Nat) : Bool := s.inJob m && m != own
      firstFail [
        (tableNslot bs ≤ e.slot || (es.take i).any (fun x => x.recv == e.recv && x.slot == e.slot && x.port == e.port), o),
        (fieldBits bs (o + 2) 1 7 2 != 0, o + 2),
        (fieldBits bs (o + 3) 1 7 4 != 0 || (if e.recv || e.relay then e.stract != 0 else 12 ≤ e.stract), o + 3),
        (!other e.peer, o + 4),
        (fieldBits bs (o + 6) 2 15 12 != 0 || (if e.recv && !e.relay then e.dmod != own else !other e.dmod), o + 6),
        (if e.recv then e.limit != 0 else e.limit < 32 || 393216 < e.limit || e.limit % 32 != 0, o + 8),
        (fieldAt bs (o + 12) 4 != 0, o + 12)])

/-- How a plan's validation ends (R213). -/
inductive PlanVerdict where
  | valid
  | rejected (offset : Nat) (table : Option Nat)
  | late
  deriving DecidableEq, Repr

/-- Items 1 to 4 (R213). -/
def State.planVerdict (s : State) (p : PlanImage) : PlanVerdict :=
  match p.check1 with
  | some o => .rejected o none
  | none =>
    if p.step ≤ s.job.step.toNat then .late
    else
      match p.check3 s.job.step.toNat <|> s.check4 p with
      | some o => .rejected o none
      | none => .valid

/-- Item 5: the slot tables in the order of their records. -/
def State.tablesVerdict (s : State) (p : PlanImage) : PlanVerdict :=
  match (List.range p.nslot).findSome? (fun i =>
      let (n, len, _) := p.slotRec i
      (s.tableFail n len ((p.tables[i]?).map (fun q => q.2) |>.getD [])).map (fun o => (o, n))) with
  | some (o, n) => .rejected o (some n)
  | none => .valid

/-- A plan is rejected: REJECT and its record (R213, R413). -/
def State.planReject (s : State) (off table state : Nat) : State :=
  (s.raise (modReg .planStat) 3).emit
    { s.recordM .planReject with detail := natLe 4 off ++ natLe 2 table ++ natLe 1 state ++ List.replicate 9 0 }

/-- What validation reads of memory before it ends. -/
def State.touchChecked (s : State) (p : PlanImage) : State :=
  if p.check1.isSome || p.step ≤ s.job.step.toNat || (p.check3 s.job.step.toNat).isSome then s else s.touchPlan p

/-- A verdict takes effect: the pending plan is replaced, or kept (R213). -/
def State.planDecide (s : State) (p : PlanImage) (v : PlanVerdict) : State :=
  match v with
  | .valid => { s with plan := { s.plan with pending := some p } }
  | .late => (s.raise (modReg .planStat) 4).emit (s.recordM .planLate)
  | .rejected o t => s.planReject o (t.getD 0xFFFF) 0

/-- A plan with its slot tables by the numbers of its records. -/
def planImage (bytes : List Byte) (tables : List (List Byte)) : PlanImage :=
  let p : PlanImage := { bytes := bytes, tables := [] }
  { p with tables := tables.zipIdx.map (fun q => ((p.slotRec q.2).1, q.1)) }

/-- The codes of the module states (JOB_STAT.STATE). -/
def JobState.code : JobState → Nat
  | .reset => 0 | .boot => 1 | .ready => 2 | .owned => 3 | .armed => 4 | .releasing => 5

/-- A write of PLAN_DB starts the fetch and validation of the plan at PLAN_PTR, abandoning one that runs; in other states than OWNED and
ARMED it is ignored with its record (R212, R480). -/
def State.planDbPut (s : State) : State :=
  if s.job.state == .owned || s.job.state == .armed then
    { s with plan := { s.plan with fetching := some (s.reg (modReg .planPtr)) } }
  else
    s.emit { s.recordM .planReject with
      detail := natLe 4 0xFFFF_FFFF ++ natLe 2 0xFFFF ++ natLe 1 s.job.state.code ++ List.replicate 9 0 }

/-- PLAN_DB (R480). -/
def execPlanDb (_value : Word) (s : State) : Result := .next (s.atReg (modReg .planDb) 4 State.planDbPut)

/-- PLAN_VALIDATED: the fetch that runs has ended; the plan becomes pending, is rejected, or is late (R213, R480). -/
def execPlanValidated (r : PlanFetch) (s : State) : Result :=
  .next <|
    match s.plan.fetching with
    | none => s
    | some ptr =>
      let s := { s with plan := { s.plan with fetching := none } }
      if ptr % 64 ≠ 0 then s.planReject 0 0xFFFF 0
      else
        match r with
        | .planFailed o => s.planReject o 0xFFFF 0
        | .tableFailed bs t o =>
          let p := planImage bs []
          match s.planVerdict p with
          | .valid => (s.touchChecked p).planReject o t 0
          | v => (s.touchChecked p).planDecide p v
        | .ok bs ts =>
          let p := planImage bs ts
          match s.planVerdict p with
          | .valid => (s.touchChecked p).planDecide p (s.tablesVerdict p)
          | v => (s.touchChecked p).planDecide p v

end Sys2Proof.Machine
end

