-- ==== Sys2Proof/Machine/Route.lean ====
section
/-!
DEFINITION. Routing entries (R188 to R210): SELECT, RANK with its key exchange and cutoffs, SORT with its scan tree, tallies.
-/
namespace Sys2Proof.Machine

/-- A routing entry's fields (R207). -/
structure RouteEntry where
  op : Nat
  layer : Nat
  plot : Nat
  bwd : Bool
  empty : Bool
  mb : Nat
  ntok : Nat
  tbase : Nat
  scoreOff : Nat
  sstride : Nat
  candOff : Nat
  cstride : Nat
  selOff : Nat
  gateOff : Nat
  actOff : Nat
  astride : Nat
  srP0 : Nat
  srNp : Nat
  srOff : Nat
  srRows : Nat
  dirGa : Nat
  dirCap : Nat
  stabKey : Nat
  stabCut : Nat
  deriving DecidableEq, Repr

def routeEntry (bs : List Byte) : RouteEntry :=
  let f := fieldAt bs
  let w := f 32 4
  { op := bitsOf w 3 0, layer := bitsOf w 13 4, plot := bitsOf w 21 14, bwd := bitOf w 22, empty := bitOf w 23, mb := f 36 2,
    ntok := f 40 4, tbase := f 44 4, scoreOff := f 48 4, sstride := f 52 4, candOff := f 56 4, cstride := f 60 4,
    selOff := f 64 4, gateOff := f 68 4, actOff := f 72 4, astride := f 76 4, srP0 := bitsOf (f 80 2) 10 0,
    srNp := bitsOf (f 82 2) 10 0, srOff := f 84 4, srRows := f 88 4, dirGa := f 92 8, dirCap := f 100 4, stabKey := f 104 2,
    stabCut := f 106 2 }

/-- The body bits an operation uses, counted from byte 32 (R207). -/
def routeUsed (op : Nat) : List (Nat × Nat) :=
  [(21, 0), (95, 64), (287, 256)] ++
    match op with
    | 0 => [(255, 96)]
    | 1 => [(23, 23), (47, 32), (319, 288), (607, 576)]
    | _ => [(23, 22), (47, 32), (394, 320), (410, 400), (575, 416)]

/-- The slice's size in bytes (R138). -/
def sliceSize : Nat := 0x480_0000

/-- Bytes of a selection record (R194). -/
def selBytes (k : Nat) : Nat := 16 * ceilDiv (8 + 8 * k) 16

/-- Segments of the expert axis (R190). -/
def LayerRec.nseg (l : LayerRec) : Nat := ceilDiv l.e l.seg

/-- BAD_OP of a routing entry (R207, R209), but for LAYER. -/
def State.routeBad (s : State) (t : Tract) (e : QEntry) : Bool :=
  let r := routeEntry e.bytes
  !e.bodyClean (routeUsed r.op) || r.ntok == 0 || 65536 < r.ntok ||
    [r.scoreOff, r.candOff, r.selOff, r.gateOff, r.actOff, r.astride, r.srOff].any (fun v => v % 16 != 0) ||
    r.cstride % 8 != 0 || r.sstride % 4 != 0 || ((r.op == 0 || !r.empty) && s.plotEmpty t r.plot) ||
    (r.op == 1 && (255 < r.stabKey || 255 < r.stabCut)) || (r.op == 2 && (r.srNp == 0 || 1360 < r.srNp || 1360 < r.srP0 + r.srNp))

/-- Whether rows of n bytes at a stride leave the slice; what covers no byte does not (R149). -/
def pastSlice (off stride cnt n : Nat) : Bool := cnt != 0 && n != 0 && decide (sliceSize < off + (cnt - 1) * stride + n)

/-- The tokens of each parcel whose records an entry reads: none with EMPTY, which SELECT does not have. -/
def RouteEntry.tokens (r : RouteEntry) : Nat := if r.op ≠ 0 ∧ r.empty then 0 else r.ntok

/-- ADDR of a routing entry (R209). -/
def State.routeAddr (s : State) (t : Tract) (r : RouteEntry) (l : LayerRec) : Bool :=
  pastSlice r.selOff (selBytes l.k) r.tokens (selBytes l.k) ||
    match r.op with
    | 0 => pastSlice r.scoreOff r.sstride r.tokens (4 * l.e) || pastSlice r.candOff r.cstride r.tokens (8 * l.nseg)
    | 1 => pastSlice r.gateOff 64 r.tokens 64
    | _ => pastSlice r.actOff r.astride r.tokens l.payb || pastSlice r.srOff l.rowb (ceilDiv r.srRows r.srNp) l.rowb ||
        r.dirCap != 0 && (!s.isOwn r.dirGa || gaTract r.dirGa != t.val || s.reach r.dirGa (16 * r.dirCap) true != 0)

/-- A routing entry completes; statuses 0x01 to 0x09 are faults (R209). -/
def State.routeDone (s : State) (t : Tract) (id st : Nat) : State :=
  let q := engQueue t .transit
  match (s.queue q).entries.find? (fun e => e.id = id) with
  | none => s
  | some e =>
    s.completeEntry q e st (if 1 ≤ st ∧ st ≤ 9 then some (s.recordQ .routeFault 10 q) else none)

/-- The checks of a routing entry as it starts, then act. -/
def State.routeStart (s : State) (t : Tract) (e : QEntry) (act : State → RouteEntry → LayerRec → State) : State :=
  let r := routeEntry e.bytes
  if s.routeBad t e then s.routeDone t e.id 1
  else
    match s.layerRec r.layer with
    | none => s.routeDone t e.id 1
    | some l => if s.routeAddr t r l then s.routeDone t e.id 2 else act s r l

/-- The OP of a Transit entry (R207, R219). -/
def QEntry.xop (e : QEntry) : Nat := bitsOf (fieldAt e.bytes 32 4) 3 0

/-- The Transit entry that a command of operation op acts on: the first with that operation that was passed over and no longer has to wait, or
the next of the queue where it has the operation, or a reserved one (R198, R234). The flag: it is the next of the queue. blocked: an entry has to
wait. -/
def State.xferEntry (s : State) (t : Tract) (op : Nat) (blocked : QEntry → Bool) : Option (QEntry × Bool) :=
  let q := engQueue t .transit
  match (s.queue q).entries.find? (fun e => s.mayStart q && e.waiting && e.xop = op && !blocked e) with
  | some e => some (e, false)
  | none =>
    match s.startable q with
    | some e => if e.xop = op || 9 ≤ e.xop then some (e, true) else none
    | none => none

/-- Begins the work of such an entry; a reserved OP completes with BAD_OP. blocked: it has to wait, and does not start (DEDUCED: R198 says so of a
RANK; the model takes an entry that waits under R234 alike, assumption log 70). -/
def State.xferStart (s : State) (t : Tract) (op : Nat) (blocked : State → QEntry → Bool) (act : State → QEntry → State) : State :=
  let q := engQueue t .transit
  match s.xferEntry t op (blocked s) with
  | none => s
  | some (e, isNew) =>
    if e.xop ≠ op then
      let s := s.startEntry q e
      s.completeEntry q e 1 (some (s.recordQ .transitFault 10 q))
    else if blocked s e then s.leaveEntry q e (fun x => { x with work := .waits })
    else
      let s := if isNew then s.startEntry q e else s.startPassed q e
      act (s.setWork q e.id (.await [])) e

/-- An FP32 score ranks strictly below another (R115). -/
def rankBelow (a b : Word) : Bool :=
  if (numOf a).isNan then false else if (numOf b).isNan then true else (numOf a).below (numOf b)

/-- The best n of a list of scored items, equal scores in list order (R191). -/
def bestOf (n : Nat) (xs : List (Nat × Word)) : List (Nat × Word) := (sortBy (fun a b => !rankBelow a.2 b.2) xs).take n

/-- FP32 -infinity. -/
def minusInf : Word := 0xFF80_0000

/-- A word of the slice of a parcel, and whether it comes poisoned. -/
def State.sliceWord (s : State) (p : ParcelId) (off : Nat) : Word × Bool :=
  (BitVec.ofNat 32 (leNat (s.peek (sliceKey p off) 4)), s.poisoned (sliceKey p off) 4)

/-- What the selector finds for a token: its choices as (expert, score), whether it is a NaN token, whether it met poison, and the segments whose
scores it read (R191, R208). -/
structure Selected where
  picks  : List (Nat × Word)
  nan    : Bool
  poison : Bool
  seen   : List Nat
  deriving DecidableEq, Repr

def State.selectToken (s : State) (p : ParcelId) (r : RouteEntry) (l : LayerRec) (i : Nat) : Selected :=
  let cands := (List.range l.nseg).map (fun j => (j, s.sliceWord p (r.candOff + i * r.cstride + 8 * j)))
  let seen := bestOf (min l.k l.nseg) (cands.map (fun c => (c.1, c.2.1)))
  let experts := seen.flatMap (fun g => (List.range (min l.seg (l.e - g.1 * l.seg))).map (fun x => g.1 * l.seg + x))
  let es := sortBy (fun a b => decide (a ≤ b)) experts
  let scores := es.map (fun e => (e, s.sliceWord p (r.scoreOff + i * r.sstride + 4 * e)))
  let bad := cands.any (fun c => c.2.2) || scores.any (fun c => c.2.2)
  let nan := bad || cands.any (fun c => (numOf c.2.1).isNan) ||
    scores.any (fun c => (numOf c.2.1).isNan || c.2.1 == 0x7F80_0000)
  { picks := (bestOf (min l.k l.e) (scores.map (fun c => (c.1, c.2.1)))).filter (fun c => c.2 != minusInf), nan := nan, poison := bad,
    seen := seen.map (fun g => g.1) }

/-- A choice of a selection record (R194). -/
def choiceBytes (expert flags : Nat) (score : Word) : List Byte :=
  natLe 2 expert ++ natLe 1 flags ++ natLe 1 0 ++ natLe 4 score.toNat

/-- The selection record of a token (R194). -/
def selRecord (k gti : Nat) (x : Selected) : List Byte :=
  let picks := if x.nan then [] else x.picks
  let none_ := choiceBytes 0 1 minusInf
  let cs := picks.map (fun c => choiceBytes c.1 0 c.2) ++ List.replicate (k - picks.length) none_
  let bs := natLe 4 gti ++ natLe 1 (picks.length + 32 * b2n x.nan) ++ natLe 3 0 ++ cs.flatten
  bs ++ List.replicate (selBytes k - bs.length) 0

/-- A write of the Transit engine to the slice of a parcel of its tract; to a replica area it is discarded (R154). -/
def State.xstore (s : State) (p : ParcelId) (off : Nat) (bs : List MByte) : State :=
  let key := sliceKey p off
  if s.inReplica key bs.length then s.replicaRecord p.tract key else s.mstore key bs

/-- Data from another tract or module land in the slice of a parcel, whose cores latch LAND (R54). -/
def State.xland (s : State) (p : ParcelId) (off : Nat) (bs : List MByte) : State := (s.xstore p off bs).noteLand p

/-- What a routing entry's reads do to the check units of a run of the slice. -/
def State.touchSlice (s : State) (p : ParcelId) (off n : Nat) : State := s.touch (sliceKey p off) n

/-- What the selector's reads for a token do: its candidates, and the scores of the segments it looked at (R147, R191). -/
def State.touchToken (s : State) (p : ParcelId) (r : RouteEntry) (l : LayerRec) (i : Nat) (x : Selected) : State :=
  x.seen.foldl (fun s g => s.touchSlice p (r.scoreOff + i * r.sstride + 4 * (g * l.seg)) (4 * min l.seg (l.e - g * l.seg)))
    (s.touchSlice p (r.candOff + i * r.cstride) (8 * l.nseg))

/-- The effect of SELECT (R188 to R194). -/
def State.selectAct (s : State) (t : Tract) (e : QEntry) (r : RouteEntry) (l : LayerRec) : State :=
  let s := s.checkUnit t .selector
  let ps := s.plotParcels t (BitVec.ofNat 8 r.plot)
  let toks := ps.zipIdx.flatMap (fun q => (List.range r.ntok).map (fun i => (q.1, q.2 * r.ntok + i, i)))
  let res := toks.map (fun q => (q, s.selectToken q.1 r l q.2.2))
  let s := res.foldl (fun s x => s.touchToken x.1.1 r l x.1.2.2 x.2) s
  let s := res.foldl (fun s x =>
    s.xstore x.1.1 (r.selOff + x.1.2.2 * selBytes l.k) (sound (selRecord l.k ((r.tbase + x.1.2.1) % 2 ^ 32) x.2))) s
  let s := s.bumpReg (tractReg .rtStat t) 15 0 (res.filter (fun x => x.2.nan)).length
  s.routeDone t e.id (if res.any (fun x => x.2.poison) then 10 else 0)

/-- SELECT: top-k selection writes selection records (R191, R194). -/
def execSelect (t : Tract) (s : State) : Result :=
  .next (s.xferStart t 0 (fun _ _ => false) (fun s e => s.routeStart t e (fun s r l => s.selectAct t e r l)))

/-- A choice as read from a selection record: its index, expert, flags, score. -/
structure Choice where
  c      : Nat
  expert : Nat
  flags  : Nat
  score  : Word
  deriving DecidableEq, Repr

def Choice.isNone (x : Choice) : Bool := bitOf x.flags 0
def Choice.acc (x : Choice) : Bool := bitOf x.flags 1
def Choice.sovf (x : Choice) : Bool := bitOf x.flags 3

/-- A token of an entry: parcel, row, GTI and the choices of its record; bad: its record is poisoned (R208). -/
structure Token where
  parcel  : ParcelId
  row     : Nat
  gti     : Nat
  choices : List Choice
  bad     : Bool
  deriving DecidableEq, Repr

/-- A token's selection record. -/
def State.readToken (s : State) (p : ParcelId) (selOff k row : Nat) : Token :=
  let off := selOff + row * selBytes k
  let bs := s.peek (sliceKey p off) (selBytes k)
  let cs := (List.range k).map (fun c =>
    let o := 8 + 8 * c
    ({ c := c, expert := fieldAt bs o 2, flags := fieldAt bs (o + 2) 1, score := BitVec.ofNat 32 (fieldAt bs (o + 4) 4) } : Choice))
  { parcel := p, row := row, gti := fieldAt bs 0 4, choices := cs.filter (fun c => !c.isNone)
    bad := s.poisoned (sliceKey p off) (selBytes k) }

/-- The tokens of an entry in the order of R203: parcels in rising number, rows in order; none where EMPTY is set. -/
def State.tokensOf (s : State) (t : Tract) (plot selOff k ntok : Nat) (empty : Bool) : List Token :=
  if empty then []
  else
    (s.plotParcels t (BitVec.ofNat 8 plot)).flatMap (fun p => (List.range ntok).map (fun i => s.readToken p selOff k i))

/-- What the reads of an entry's selection records do to their check units (R147). -/
def State.touchTokens (s : State) (t : Tract) (plot selOff k ntok : Nat) (empty : Bool) : State :=
  if empty then s
  else (s.plotParcels t (BitVec.ofNat 8 plot)).foldl (fun s p =>
    (List.range ntok).foldl (fun s i => s.touchSlice p (selOff + i * selBytes k) (selBytes k)) s) s

/-- The tracts of the module. -/
def allTracts : List Tract := List.finRange 12

/-- The modules of the job in rising number. -/
def State.jobModules (s : State) : List Nat := (List.range 4096).filter s.inJob

/-- Whether the job has another module. -/
def State.jobIsLarge (s : State) : Bool := s.jobModules.any (fun m => m != s.job.moduleId.toNat)

def State.txfer (s : State) (t : Tract) : TractXfer := s.xfer.tracts.get t TractXfer.reset
def State.modTxfer (s : State) (t : Tract) (f : TractXfer → TractXfer) : State :=
  { s with xfer := { s.xfer with tracts := s.xfer.tracts.put t (f (s.txfer t)) } }

/-- A segment's bytes (R235). -/
def segSize (g : Segment) : Nat := 32 + (g.rows.map (fun r => r.bytes.length)).sum

/-- A row's bytes as an engine's path carries them. -/
def rowBytesOf (r : RowData) : List MByte := r.bytes.zipIdx.map (fun q => (q.1, r.poison.contains (q.2 / 16)))
/-- A run of an engine's path as a row. -/
def rowOf (bs : List MByte) : RowData :=
  { bytes := mdata bs
    poison := (List.range (ceilDiv bs.length 16)).filter (fun i => mbad ((bs.drop (16 * i)).take 16)) }

/-- The exchanges of a tract under a key. -/
def State.exchOf (s : State) (t : Tract) (k : XKey) : Option Exch := s.xfer.exch.find? (fun x => x.tract = t && x.key = k)

/-- The key of the exchange a segment belongs to. -/
def segKey (g : Segment) : XKey :=
  if g.hdr.xk = 4 then { xk := 4, layer := 0, mb := 0, cid := g.hdr.cid }
  else { xk := g.hdr.xk, layer := g.hdr.layer, mb := g.hdr.mb, cid := 0 }

/-- The credits a receiving tract reserves for a sender, and those of its receive buffer of 256 KiB that it pools (R222). -/
def creditReserve : CreditSrc → Nat
  | .tract _ => 16
  | .portDie _ => 8
def creditPool : Nat := 512 - (16 * 11 + 8 * 8)

/-- The credits a path's units hold. -/
def inFlight (l : List XItem) : Nat := (l.map (fun i => i.flight)).sum

/-- The pooled credits of a tract that units hold. -/
def State.poolUsed (s : State) (dst : Tract) : Nat :=
  (s.xfer.paths.map (fun (q : (Tract × CreditSrc) × List XItem) =>
    if q.1.1 = dst then inFlight q.2 - creditReserve q.1.2 else 0)).sum

/-- n credits go to the units of a path that wait, the oldest first; a segment whose exchange has stopped sending gets none (R180). -/
def sendUnits (stopped : XItem → Bool) : List XItem → Nat → List XItem
  | [], _ => []
  | i :: rest, n =>
    let m := if stopped i then 0 else min n (i.units - i.flight)
    { i with flight := i.flight + m } :: sendUnits stopped rest (n - m)

/-- Whether the exchange a segment comes from no longer sends: a tract's whose tile entries have overflowed (R180). -/
def State.stoppedItem (s : State) (src : CreditSrc) (i : XItem) : Bool :=
  match src with
  | .tract u => ((s.exchOf u (segKey i.seg)).map (fun x => x.halted)).getD false
  | .portDie _ => false

/-- The senders of units for a tract send as many as there are credits for: each its reserve, then of the pool (R222). -/
def State.grantCredits (s : State) (dst : Tract) : State :=
  (s.xfer.paths.filter (fun q => q.1.1 = dst)).foldl (fun s q =>
    let n := (creditReserve q.1.2 - inFlight q.2) + (creditPool - s.poolUsed dst)
    { s with xfer := { s.xfer with paths := s.xfer.paths.put q.1 (sendUnits (s.stoppedItem q.1.2) q.2 n) } }) s

/-- Puts a segment for another tract of the module, or one a port die has brought, on its credit path (R222). -/
def State.pushPath (s : State) (dst : Tract) (src : CreditSrc) (g : Segment) (port : Option (Nat × Nat)) : State :=
  let l := s.xfer.paths.get (dst, src) []
  let s : State := { s with xfer := { s.xfer with
    paths := s.xfer.paths.put (dst, src) (l ++ [{ seg := g, units := max 1 (ceilDiv (segSize g) 512), flight := 0, port := port }]) } }
  s.grantCredits dst
def State.setExch (s : State) (x : Exch) : State :=
  { s with xfer := { s.xfer with
    exch := s.xfer.exch.map (fun y => if y.tract = x.tract && y.key = x.key then x else y) } }
def State.dropExch (s : State) (t : Tract) (k : XKey) : State :=
  { s with xfer := { s.xfer with exch := s.xfer.exch.filter (fun y => !(y.tract = t && y.key = k)) } }

/-- An exchange of a tract that has sent and received nothing. -/
def newExch (t : Tract) (entry : Nat) (k : XKey) (bs : List Byte) (table : Nat) : Exch :=
  { tract := t, entry := entry, key := k, bytes := bs, table := table, nper := 0, first := 0, out := [], att := 0, dlv := 0,
    ovf := 0, want := 0, got := 0, nul := 0, filled := [], data := [], bases := [], groups := [], heard := [], poison := false,
    halted := false }

/-- The meridian time of instance n of the current step (R224). -/
def State.instTime (s : State) (n : Nat) : Nat := s.plan.start + n * 1024

/-- The fields of a collective entry (R250). -/
structure CollEntry where
  op    : Nat
  ibf16 : Bool
  obf16 : Bool
  stab  : Nat
  root  : Nat
  tmask : Nat
  gsize : Nat
  grpGa : Nat
  srcGa : Nat
  dstGa : Nat
  n     : Nat
  cid   : Nat
  deriving DecidableEq, Repr

def collEntry (bs : List Byte) : CollEntry :=
  let f := fieldAt bs
  let w := f 32 4
  { op := bitsOf w 3 0, ibf16 := bitOf w 4, obf16 := bitOf w 5, stab := f 36 2, root := f 38 2, tmask := bitsOf (f 40 4) 11 0,
    gsize := f 44 4, grpGa := f 48 8, srcGa := f 56 8, dstGa := f 64 8, n := f 72 4, cid := f 76 4 }

/-- The selected tracts of a collective, in rising number. -/
def CollEntry.tracts (c : CollEntry) : List Nat := (List.range 12).filter (fun t => bitOf c.tmask t)

/-- The group table's modules in rank order (R248). DESIGN CHOICE: bits [15:12] of an entry, to which R248 gives no meaning, are not looked at
(assumption log 57). -/
def State.groupOf (s : State) (c : CollEntry) : List Nat :=
  (List.range c.gsize).map (fun i => fieldBits (s.peek ((c.grpGa + 2 * i) % 2 ^ 52) 2) 0 2 11 0)

/-- Whether an exchange goes between modules (R234). -/
def State.exchLarge (s : State) (x : Exch) : Bool :=
  if x.key.xk = 4 then (s.groupOf (collEntry x.bytes)).any (fun m => m != s.job.moduleId.toNat) else s.jobIsLarge

/-- Whether an exchange other than that of key k uses a slot table (R234). -/
def State.tableInUse (s : State) (k : XKey) (table : Nat) : Bool :=
  s.xfer.exch.any (fun y => y.table = table && y.key != k && s.exchLarge y)

/-- Whether an entry has to wait (R234): its exchange still runs on the tract; or it goes between modules and no step has started, or
its slot table is in use. -/
def State.xferBlocked (s : State) (t : Tract) (k : XKey) (table : Nat) (large : Bool) : Bool :=
  (s.exchOf t k).isSome || (large && (!s.plan.stepped || s.tableInUse k table))

/-- The instance with which an exchange begins: the first period of its table that starts at least 2 us from now (R231). -/
def State.firstInst (s : State) (table : Nat) : Nat :=
  match s.slotTable table with
  | none => 0
  | some b => ceilDiv (s.mtime + 2000 - s.plan.start) (tableNslot b * 1024) * tableNslot b

/-- Whether a table has a send entry from a tract to a module (R232). -/
def tableSends (b : List Byte) (t : Tract) (dmod : Nat) : Bool :=
  (tableEnts b).any (fun e => !e.recv && !e.relay && e.stract = t.val && e.dmod = dmod)

def keyX (layer mb : Nat) : XKey := { xk := 5, layer := layer, mb := mb, cid := 0 }
def cutX (layer mb : Nat) : XKey := { xk := 6, layer := layer, mb := mb, cid := 0 }

/-- A key of RANK (R196). -/
structure RankKey where
  expert : Nat
  smod   : Nat
  score  : Word
  gti    : Nat
  deriving DecidableEq, Repr

def RankKey.bytes (k : RankKey) : List Byte :=
  natLe 2 k.expert ++ natLe 2 k.smod ++ natLe 4 k.score.toNat ++ natLe 4 k.gti ++ natLe 4 0
def rankKey (bs : List Byte) : RankKey :=
  { expert := fieldAt bs 0 2, smod := fieldBits bs 2 2 11 0, score := BitVec.ofNat 32 (fieldAt bs 4 4), gti := fieldAt bs 8 4 }

/-- Whether key a ranks at or above a cutoff (R195). -/
def atOrAbove (score : Word) (gti : Nat) (cut : Word × Nat) : Bool :=
  rankBelow cut.1 score || (!rankBelow score cut.1 && decide (gti ≤ cut.2))

/-- The parcel of a tract's key buffer (R197). -/
def LayerRec.keyPlace (l : LayerRec) (t : Tract) : Option ParcelId := keyParcel (keyOf t.val l.kparcel 0)

/-- Keys reach their owner tract's buffer (R197). -/
def State.takeKeys (s : State) (t : Tract) (layer mb : Nat) (ks : List (List Byte)) : State :=
  match s.layerRec layer with
  | none => s
  | some l =>
    match l.keyPlace t, (s.txfer t).ranks.find? (fun r => r.layer = layer && r.mb = mb) with
    | some p, some r =>
      let room := l.keyCap - r.keys
      let s := (ks.take room).zipIdx.foldl (fun s q => s.xland p (l.keyOff + 16 * (r.keys + q.2)) (sound q.1)) s
      s.modTxfer t (fun v => { v with ranks := v.ranks.map (fun x =>
        if x.layer = layer && x.mb = mb then
          { x with keys := min l.keyCap (x.keys + ks.length), full := x.full || decide (room < ks.length) }
        else x) })
    | _, _ => s

/-- The header of a segment of rows (R235, R236). -/
def segHdr (s : State) (type : Nat) (k : XKey) (t : Tract) (dmod dtract : Nat) : SegHdr :=
  { type := type, xk := k.xk, layer := k.layer, mb := k.mb, smod := s.job.moduleId.toNat, stract := t.val, dmod := dmod,
    dtract := dtract, expert := k.cid % 65536, count := 0, mbase := k.cid / 65536, novf := 0, status := 0, cid := k.cid, uoff := 0, srank := 0 }

/-- Segments of whole rows for one destination, at most 65,535 rows each. -/
def rowSegs (h : SegHdr) (rows : List RowData) : List Segment :=
  (chunksOf 65535 rows.length rows).map (fun rs => { hdr := { h with count := rs.length }, rows := rs })

/-- Sends a tract's segments: to another tract of the module on its credit path, to another module through the exchange. Those for
the tract itself are left to the caller. -/
def State.sendSegs (s : State) (t : Tract) (k : XKey) (gs : List Segment) : State :=
  gs.foldl (fun s g =>
    if g.hdr.dmod = s.job.moduleId.toNat then
      (if h : g.hdr.dtract < 12 then s.pushPath ⟨g.hdr.dtract, h⟩ (.tract t) g none else s)
    else
      match s.exchOf t k with
      | some x => s.setExch { x with out := x.out ++ [g] }
      | none => s) s

/-- The experts of a layer that the choices of tokens name, whose cadastre entries are read (R201). -/
def choiceExperts (l : LayerRec) (toks : List Token) : List Nat :=
  ((toks.filter (fun x => !x.bad)).flatMap (fun x => (x.choices.filter (fun c => c.expert < l.e)).map (fun c => c.expert))).dedup

/-- RANK's keys with their owners, or the choice whose cadastre entry is not valid (R196, R201). -/
def State.rankKeys (s : State) (l : LayerRec) (toks : List Token) : Option (List (Cad × RankKey)) :=
  let all := (toks.filter (fun x => !x.bad)).flatMap (fun x => x.choices.map (fun c =>
    (if c.expert < l.e then s.cadOf l c.expert else none,
      ({ expert := c.expert, smod := s.job.moduleId.toNat, score := c.score, gti := x.gti } : RankKey))))
  if all.any (fun q => q.1.isNone) then none else some (all.filterMap (fun q => q.1.map (fun c => (c, q.2))))

/-- The effect of RANK as it starts: the tract sends its keys to their owners (R196). -/
def State.rankAct (s : State) (t : Tract) (e : QEntry) (r : RouteEntry) (l : LayerRec) : State :=
  let toks := s.tokensOf t r.plot r.selOff l.k r.ntok r.empty
  let keys := s.rankKeys l toks
  let s := (s.touchTokens t r.plot r.selOff l.k r.ntok r.empty).touchCad l (choiceExperts l toks)
  match keys with
  | none => s.routeDone t e.id 3
  | some ks =>
    let s := s.checkUnit t .sorter
    let s := s.modTxfer t (fun v => { v with ranks := v.ranks ++
      [{ layer := r.layer, mb := r.mb, entry := e.id, bytes := e.bytes, keys := 0, full := false,
         poison := toks.any (fun x => x.bad) }] })
    let k := keyX r.layer r.mb
    let s := { s with xfer := { s.xfer with exch := s.xfer.exch ++
      [{ newExch t e.id k e.bytes r.stabKey with first := s.firstInst r.stabKey }] } }
    let dests := (ks.map (fun q => (q.1.module, q.1.tract))).dedup
    dests.foldl (fun s d =>
      let mine := (ks.filter (fun q => (q.1.module, q.1.tract) = d)).map (fun q => q.2.bytes)
      if d.1 = s.job.moduleId.toNat ∧ d.2 = t.val then s.takeKeys t r.layer r.mb mine
      else s.sendSegs t k (rowSegs (segHdr s 1 k t d.1 d.2) (mine.map (fun b => { bytes := b, poison := [] })))) s

/-- RANK: capacity ranking starts on a tract; one RANK per layer runs at a time (R196, R198), and between modules none before the
first step has started, nor while another exchange uses STAB_KEY (R234). -/
def execRank (t : Tract) (s : State) : Result :=
  .next (s.xferStart t 1
    (fun s e =>
      let r := routeEntry e.bytes
      s.xferBlocked t (keyX r.layer r.mb) r.stabKey s.jobIsLarge ||
        (s.txfer t).ranks.any (fun x => x.layer = r.layer) ||
        allTracts.any (fun u => (s.txfer u).ranks.any (fun x => x.layer = r.layer && x.mb != r.mb)))
    (fun s e => s.routeStart t e (fun s r l => s.rankAct t e r l)))

/-- The keys an owner tract holds. -/
def State.heldKeys (s : State) (t : Tract) (l : LayerRec) (n : Nat) : List RankKey :=
  match l.keyPlace t with
  | some p => (List.range n).map (fun i => rankKey (s.peek (sliceKey p (l.keyOff + 16 * i)) 16))
  | none => []

/-- The cutoff of an expert with capacity c (R196). -/
def cutoff (c : Nat) (ks : List RankKey) : Word × Nat :=
  if ks.length ≤ c then (minusInf, 0xFFFF_FFFF)
  else
    let rs := sortBy (fun (a b : RankKey) => atOrAbove a.score a.gti (b.score, b.gti)) ks
    match rs[c - 1]? with
    | some k => (k.score, k.gti)
    | none => (minusInf, 0xFFFF_FFFF)

/-- The experts of a layer that a tract of this module owns, with their entries, in rising number. -/
def State.ownedExperts (s : State) (l : LayerRec) (t : Tract) : List (Nat × Cad) :=
  (List.range l.e).filterMap (fun e => match s.cadOf l e with
    | some c => if c.module = s.job.moduleId.toNat && c.tract == t.val then some (e, c) else none
    | none => none)

/-- The tracts that own an expert of a layer, and so send cutoffs. -/
def State.owners (s : State) (l : LayerRec) : List (Nat × Nat) :=
  ((List.range l.e).filterMap (fun e => (s.cadOf l e).map (fun c => (c.module, c.tract)))).dedup

/-- The RANK of a tract for a layer and micro-batch. -/
def State.rankOf (s : State) (t : Tract) (layer mb : Nat) : Option RankRun :=
  (s.txfer t).ranks.find? (fun r => r.layer = layer && r.mb = mb)

/-- Whether an exchange has nothing on the module's credit paths, in its tracts' send lists or unacknowledged (R245). -/
def State.exchQuiet (s : State) (k : XKey) : Bool :=
  s.xfer.paths.all (fun q => q.2.all (fun i => !(i.seg.hdr.xk = k.xk && i.seg.hdr.layer = k.layer && i.seg.hdr.mb = k.mb))) &&
    s.xfer.exch.all (fun x => x.key != k || x.out.isEmpty) && s.xfer.sends.all (fun q => q.2.all (fun w => w.key != k || w.segs.isEmpty))

/-- The status the owners of this module find (R197). -/
def State.rankFault (s : State) (l : LayerRec) (mb : Nat) : Nat :=
  let rs := allTracts.filterMap (fun t => (s.rankOf t l.layer mb).map (fun r => (t, r)))
  if rs.any (fun q => q.2.full) then 4
  else if rs.any (fun q =>
      let ks := s.heldKeys q.1 l q.2.keys
      ks.zipIdx.any (fun a => (ks.take a.2).any (fun b => b.expert == a.1.expert && b.gti == a.1.gti))) then 7
  else 0

/-- The cutoffs the owners of this module find, tract by tract. -/
def State.ownCuts (s : State) (l : LayerRec) (mb : Nat) (t : Tract) : List (Nat × Nat × Nat) :=
  let ks := s.heldKeys t l (((s.rankOf t l.layer mb).map (fun r => r.keys)).getD 0)
  (s.ownedExperts l t).map (fun q =>
    let c := cutoff q.2.cap (ks.filter (fun k => k.expert = q.1))
    (q.1, c.1.toNat, c.2))

/-- The lower status code of two that are not 0 (R197). -/
def lowerStatus (a b : Nat) : Nat := if a = 0 then b else if b = 0 then a else min a b

/-- A counter of a tally record increased, saturating (R210). -/
def satAdd (v n : Nat) : Nat × Bool := if 2 ^ 32 ≤ v + n then (2 ^ 32 - 1, true) else (v + n, false)

/-- A tally record with counts added; the module owns its expert, in a layer (R210). -/
def tallyAdd (bs : List Byte) (layer routed acc ovf : Nat) : List Byte :=
  let f := fieldAt bs
  let (r, rs) := satAdd (f 0 4) routed
  let (a, as_) := satAdd (f 4 4) acc
  let (o, os) := satAdd (f 8 4) ovf
  natLe 4 r ++ natLe 4 a ++ natLe 4 o ++
    natLe 4 (setBits (f 12 4 ||| (b2n rs + 2 * b2n as_ + 4 * b2n os)) 14 4 (1 + 2 * (layer % 1024)))

/-- Changes the tally record of an expert: a read and a write of its 16 bytes (R145, R147, R210). DEDUCED: what is computed from a poisoned record is
poisoned (assumption log 21). -/
def State.tallyPut (s : State) (l : LayerRec) (e : Nat) (f : List Byte → List Byte) : State :=
  let key := (l.tallyGa + 16 * e) % 2 ^ 52
  let s := match keyParcel key with
    | some p => s.checkUnit p.tract .tally
    | none => s
  let bad := s.poisoned key 16
  (s.touch key 16).mstore key ((f (s.peek key 16)).map (fun b => (b, bad)))

/-- Adds to the tally record of an expert (R210). -/
def State.tally (s : State) (l : LayerRec) (e routed acc ovf : Nat) : State :=
  s.tallyPut l e (fun bs => tallyAdd bs l.layer routed acc ovf)

/-- One accepted count becomes an overflowed one (R199, R210). -/
def State.tallyMove (s : State) (l : LayerRec) (e n : Nat) : State :=
  s.tallyPut l e (fun bs => tallyAdd (bs.take 4 ++ natLe 4 (fieldAt bs 4 4 - n) ++ bs.drop 8) l.layer 0 0 n)

/-- Writes the outcome of RANK into a token's record and gate row (R195). -/
def State.rankToken (s : State) (r : RouteEntry) (k : Nat) (cuts : List (Nat × Nat × Nat)) (x : Token) : State :=
  x.choices.foldl (fun s c =>
    let cut : Word × Nat := match cuts.find? (fun q => q.1 = c.expert) with
      | some q => (BitVec.ofNat 32 q.2.1, q.2.2)
      | none => (minusInf, 0xFFFF_FFFF)
    let ok := atOrAbove c.score x.gti cut
    let off := r.selOff + x.row * selBytes k + 8 + 8 * c.c + 2
    let s := s.xstore x.parcel off (sound (natLe 1 (setBits c.flags 2 1 (if ok then 1 else 2))))
    if ok then s else s.xstore x.parcel (r.gateOff + 64 * x.row + 4 * c.c) (sound (natLe 4 0))) s

/-- A RANK of a tract ends: its exchanges, its run, its entry (R198). -/
def State.rankEnd (s : State) (t : Tract) (r : RankRun) (st : Nat) : State :=
  let s := (s.dropExch t (keyX r.layer r.mb)).dropExch t (cutX r.layer r.mb)
  let s := s.modTxfer t (fun v => { v with ranks := v.ranks.filter (fun x => !(x.layer = r.layer && x.mb = r.mb)) })
  s.routeDone t r.entry st

/-- The cutoffs gathered for a layer and micro-batch. -/
def State.cutRun (s : State) (layer mb : Nat) : CutRun :=
  (s.xfer.cuts.find? (fun c => c.layer = layer && c.mb = mb)).getD
    { layer := layer, mb := mb, ranked := false, cuts := [], heard := [], status := 0 }
def State.setCutRun (s : State) (c : CutRun) : State :=
  { s with xfer := { s.xfer with cuts := s.xfer.cuts.filter (fun x => !(x.layer = c.layer && x.mb = c.mb)) ++ [c] } }

/-- The owners of the module rank their keys and send the cutoffs to the other modules, with the status they find (R196, R197). -/
def State.rankOwners (s : State) (l : LayerRec) (mb : Nat) : State :=
  let own := s.job.moduleId.toNat
  let c := s.cutRun l.layer mb
  let st := s.rankFault l mb
  let cuts := allTracts.map (fun t => (t, s.ownCuts l mb t))
  let s := allTracts.foldl (fun s t => match l.keyPlace t with
    | some p => s.touchSlice p l.keyOff (16 * ((s.rankOf t l.layer mb).map (fun r => r.keys)).getD 0)
    | none => s) (s.touchCad l (List.range l.e))
  let s := s.setCutRun { c with ranked := true, status := lowerStatus c.status st
                                cuts := c.cuts ++ cuts.flatMap (fun q => q.2)
                                heard := c.heard ++ allTracts.map (fun t => (own, t.val)) }
  allTracts.foldl (fun s t =>
    match s.rankOf t l.layer mb with
    | none => s
    | some r =>
      let k := cutX l.layer mb
      let s := s.dropExch t (keyX l.layer mb)
      let s := { s with xfer := { s.xfer with exch := s.xfer.exch ++
        [{ newExch t r.entry k r.bytes (routeEntry r.bytes).stabCut with first := s.firstInst (routeEntry r.bytes).stabCut }] } }
      let mine := ((cuts.find? (fun q => q.1 = t)).map (fun q => q.2)).getD []
      (s.jobModules.filter (fun m => m != own)).foldl (fun s m =>
        s.sendSegs t k ((rowSegs { segHdr s 1 k t m t.val with status := st }
          (mine.map (fun q => { bytes := natLe 4 q.2.1 ++ natLe 4 q.2.2, poison := [] }))))) s) s

/-- Every RANK of the module for a layer and micro-batch completes (R195, R196, R210): the cutoff of every expert is written, ALL for one that no
valid entry places and so no key names, every choice is marked, the owners' tallies rise. A record that has come to be poisoned by then stays as it is, and DATA_POISON says so (R208). -/
def State.rankFinish (s : State) (l : LayerRec) (mb : Nat) : State :=
  let c := s.cutRun l.layer mb
  let runs := allTracts.filterMap (fun t => (s.rankOf t l.layer mb).map (fun r =>
    let e := routeEntry r.bytes
    (t, { r with poison := r.poison || (s.tokensOf t e.plot e.selOff l.k e.ntok e.empty).any (fun x => x.bad) })))
  let s :=
    if c.status ≠ 0 then s
    else
      let s := (List.range l.e).foldl (fun s e =>
        let q := ((c.cuts.find? (fun q => q.1 = e)).map (fun q => q.2)).getD (minusInf.toNat, 0xFFFF_FFFF)
        s.store ((l.cutGa + 8 * e) % 2 ^ 52) (natLe 4 q.1 ++ natLe 4 q.2)) s
      let s := runs.foldl (fun s q =>
        let r := routeEntry q.2.bytes
        let s := s.touchTokens q.1 r.plot r.selOff l.k r.ntok r.empty
        ((s.tokensOf q.1 r.plot r.selOff l.k r.ntok r.empty).filter (fun x => !x.bad)).foldl
          (fun s x => s.rankToken r l.k c.cuts x) s) s
      let s := runs.foldl (fun s q =>
        let ks := s.heldKeys q.1 l q.2.keys
        (s.ownedExperts l q.1).foldl (fun s o =>
          let n := (ks.filter (fun k => k.expert = o.1)).length
          if n = 0 then s else s.tally l o.1 n (min n o.2.cap) (n - min n o.2.cap)) s) s
      runs.foldl (fun s q => s.modTxfer q.1 (fun v => { v with
        ranked := v.ranked.filter (fun x => (x.1, x.2.1) != (l.layer, mb)) ++ [(l.layer, mb, q.2.keys)] })) s
  let s := { s with xfer := { s.xfer with cuts := s.xfer.cuts.filter (fun x => !(x.layer = l.layer && x.mb = mb)) } }
  runs.foldl (fun s q => s.rankEnd q.1 q.2 (if c.status ≠ 0 then c.status else if q.2.poison then 10 else 0)) s

/-- RANK_COMPLETE: once every tract of the module has issued its RANK and every key has arrived, the owners rank, and their cutoffs leave as soon
as no other exchange uses STAB_CUT (R234); once the cutoffs of
every owner have arrived, every RANK of the module completes (R196, R197, R210). -/
def execRankComplete (layer mb : Nat) (s : State) : Result :=
  .next <|
    match s.layerRec layer with
    | none => s
    | some l =>
      if !allTracts.all (fun t => (s.rankOf t layer mb).isSome) then s
      else
        let inUse := allTracts.any (fun t => ((s.rankOf t layer mb).map (fun r =>
          s.jobIsLarge && s.tableInUse (keyX layer mb) (routeEntry r.bytes).stabCut)).getD false)
        let s := if (s.cutRun layer mb).ranked || !s.exchQuiet (keyX layer mb) || inUse then s else s.rankOwners l mb
        let c := s.cutRun layer mb
        if c.ranked && s.exchQuiet (cutX layer mb) && (s.owners l).all (fun o => c.heard.contains o) then s.rankFinish l mb else s

/-- A row SORT collects (R203): its token, choice and destination. -/
structure SortRow where
  tract : Tract
  tok   : Token
  ch    : Choice
  cad   : Cad
  mrow  : Nat
  deriving DecidableEq, Repr

/-- The choices a SORT carries: accepted ones, in the backward direction without those the exchange overflowed (R199, R206). -/
def Choice.carried (c : Choice) (bwd : Bool) : Bool := c.acc && !(bwd && c.sovf)

/-- Numbers the rows of each expert in the order of the scan tree (R203): those of every accepted choice, so that in the backward direction each has
the number of its forward row (R241). -/
def numberRows : List SortRow → AMap Nat Nat → List SortRow
  | [], _ => []
  | r :: rs, m =>
    let n := m.get r.ch.expert 0
    { r with mrow := n } :: numberRows rs (m.put r.ch.expert (n + 1))

/-- Lexicographic order of two lists of numbers of one length. -/
def lexLe : List Nat → List Nat → Bool
  | x :: xs, y :: ys => if x < y then true else if y < x then false else lexLe xs ys
  | _, _ => true

/-- The order of the send region (R204). -/
def sendLe (a b : SortRow) : Bool :=
  let k (r : SortRow) : List Nat := [r.cad.module, r.cad.tract, r.ch.expert, r.tok.gti]
  lexLe (k a) (k b)

/-- A row's tag (R204). -/
def rowTag (own : Nat) (layer : Nat) (r : SortRow) : List Byte :=
  natLe 4 r.tok.gti ++ natLe 2 (own + 4096 * r.tract.val) ++ natLe 2 (r.tok.parcel.parcel.val + 2048 * r.ch.c) ++
    natLe 2 r.ch.expert ++ natLe 2 layer ++ natLe 2 r.tok.row ++ natLe 2 (r.mrow % 65536)

/-- A send directory entry (R205). -/
def dirBytes (dmod dtract expert row count mbase mtotal : Nat) : List Byte :=
  natLe 2 (dmod + 4096 * dtract) ++ natLe 2 expert ++ natLe 4 row ++ natLe 2 count ++ natLe 2 (mbase % 65536) ++
    natLe 2 (mtotal % 65536) ++ natLe 2 0

/-- Writes a tract's send region and directory, and completes its SORT (R204 to R206). rows: the tract's rows; total: the module's rows
of an expert. -/
def State.sortTract (s : State) (t : Tract) (w : SortWait) (l : LayerRec) (rows : List SortRow) (total : Nat → Nat)
    (poison : Bool) : State :=
  let r := routeEntry w.bytes
  let rs := sortBy sendLe rows
  let experts := (rs.map (fun x => x.ch.expert)).dedup
  if r.srRows < rs.length then s.routeDone t w.entry 5
  else if r.dirCap < experts.length then s.routeDone t w.entry 6
  else
    let body := rs.map (fun x =>
      let act := s.mread (sliceKey x.tok.parcel (r.actOff + x.tok.row * r.astride)) l.payb
      sound (rowTag s.job.moduleId.toNat r.layer x) ++ act ++ sound (List.replicate (l.rowb - 16 - l.payb) 0))
    let s := rs.foldl (fun s x => s.touchSlice x.tok.parcel (r.actOff + x.tok.row * r.astride) l.payb) s
    let s := body.zipIdx.foldl (fun s q =>
      match keyParcel (keyOf t.val (r.srP0 + q.2 % r.srNp) 0) with
      | some p => s.xstore p (r.srOff + q.2 / r.srNp * l.rowb) q.1
      | none => s) s
    let s := experts.zipIdx.foldl (fun s q =>
      let first := firstIdx (fun (x : SortRow) => x.ch.expert == q.1) rs
      match rs[first]? with
      | some x =>
        s.store ((r.dirGa + 16 * q.2) % 2 ^ 52) (dirBytes x.cad.module x.cad.tract q.1 first
          (rs.filter (fun y => y.ch.expert = q.1)).length x.mrow (total q.1))
      | none => s) s
    let run : SortRun := { layer := r.layer, mb := r.mb, bwd := r.bwd, dir := r.dirGa, cnt := experts.length, srP0 := r.srP0,
                           srNp := r.srNp, srOff := r.srOff }
    let s := s.modTxfer t (fun v => { v with sorts := (run :: v.sorts).take 8 })
    s.routeDone t w.entry (if poison || body.any mbad then 10 else 0)

/-- Whether a list of numbers rises strictly. -/
def risesStrictly : List Nat → Bool
  | a :: b :: rest => decide (a < b) && risesStrictly (b :: rest)
  | _ => true

/-- Every tract of the module has issued its SORT: the scan tree forms the prefixes and each tract copies its rows (R203 to R206). A
break in the order of the GTIs ends them all. -/
def State.sortAll (s : State) (l : LayerRec) (ws : List (Tract × SortWait)) : State :=
  let s := ws.foldl (fun s q => (s.modTxfer q.1 (fun v => { v with waits := v.waits.filter (fun x => x != q.2) })).checkUnit q.1 .scanTree) s
  let toks := ws.map (fun q =>
    let r := routeEntry q.2.bytes
    (q, (s.tokensOf q.1 r.plot r.selOff l.k r.ntok r.empty)))
  let rows := toks.flatMap (fun q =>
    (q.2.filter (fun x => !x.bad)).flatMap (fun x => (x.choices.filter (fun c => c.acc)).map (fun c =>
      (q.1.1, x, c, if c.expert < l.e then s.cadOf l c.expert else none))))
  let s := toks.foldl (fun s q =>
    let r := routeEntry q.1.2.bytes
    s.touchTokens q.1.1 r.plot r.selOff l.k r.ntok r.empty) s
  let s := s.touchCad l (choiceExperts l (toks.flatMap (fun q => q.2)))
  if !risesStrictly (toks.flatMap (fun q => (q.2.filter (fun x => !x.bad)).map (fun x => x.gti))) then
    ws.foldl (fun s q => s.routeDone q.1 q.2.entry 7) s
  else
    let numbered := numberRows (rows.filterMap (fun q =>
      q.2.2.2.map (fun c => ({ tract := q.1, tok := q.2.1, ch := q.2.2.1, cad := c, mrow := 0 } : SortRow)))) []
    let good := numbered.filter (fun x => x.ch.carried ((ws.head?.map (fun q => q.2.bwd)).getD false))
    let total (e : Nat) : Nat := (good.filter (fun x => x.ch.expert = e)).length
    toks.foldl (fun s q =>
      if rows.any (fun x => x.1 = q.1.1 && x.2.2.2.isNone && x.2.2.1.carried q.1.2.bwd) then s.routeDone q.1.1 q.1.2.entry 3
      else s.sortTract q.1.1 q.1.2 l (good.filter (fun x => x.tract = q.1.1)) total (q.2.any (fun x => x.bad))) s

/-- The effect of SORT as it starts: it joins the scan tree, and the last tract's count lets every one go on (R203). -/
def State.sortAct (s : State) (t : Tract) (e : QEntry) (r : RouteEntry) (l : LayerRec) : State :=
  if !r.bwd && !(s.txfer t).ranked.any (fun x => x.1 == r.layer && x.2.1 == r.mb) then s.routeDone t e.id 8
  else
    let s := s.checkUnit t .sorter
    let w : SortWait := { layer := r.layer, mb := r.mb, bwd := r.bwd, entry := e.id, bytes := e.bytes }
    let s := s.modTxfer t (fun v => { v with waits := v.waits ++ [w] })
    let ws := allTracts.filterMap (fun u =>
      ((s.txfer u).waits.find? (fun x => x.layer = r.layer && x.mb = r.mb && x.bwd = r.bwd)).map (fun x => (u, x)))
    if ws.length = 12 then s.sortAll l ws else s

/-- SORT: the destination sort (R203). -/
def execSort (t : Tract) (s : State) : Result :=
  .next (s.xferStart t 2 (fun _ _ => false) (fun s e => s.routeStart t e (fun s r l => s.sortAct t e r l)))

/-- SCAN_TREE_TIMEOUT: a SORT of the tract has waited 100 ms for another tract's count (R209). -/
def execScanTreeTimeout (t : Tract) (s : State) : Result :=
  .next <|
    match (s.txfer t).waits with
    | [] => s
    | w :: _ => (s.modTxfer t (fun v => { v with waits := v.waits.drop 1 })).routeDone t w.entry 9

end Sys2Proof.Machine
end

