-- ==== Sys2Proof/Machine/Landing.lean ====
section
/-!
DEFINITION. Exchanges (R219 to R223, R235 to R247): entries, closure, base tables and placement, the landing of rows and units, row
groups and their tile entries, completion of a dispatch.
-/
namespace Sys2Proof.Machine

/-- The fields of DISPATCH and COMBINE (R250). -/
structure XferEntry where
  op : Nat
  layer : Nat
  plot : Nat
  bwd : Bool
  empty : Bool
  gated : Bool
  ybf16 : Bool
  obf16 : Bool
  mb : Nat
  stab : Nat
  nper : Nat
  spread : Nat
  loff : Nat
  floff : Nat
  btabOff : Nat
  btcap : Nat
  selOff : Nat
  gateOff : Nat
  ntok : Nat
  retOff : Nat
  yOff : Nat
  ystride : Nat
  nelem : Nat
  deriving DecidableEq, Repr

def parseXfer (bs : List Byte) : XferEntry :=
  let f := fieldAt bs
  let w := f 32 4
  { op := bitsOf w 3 0, layer := bitsOf w 13 4, plot := bitsOf w 21 14, bwd := bitOf w 22, empty := bitOf w 23,
    gated := bitOf w 24, ybf16 := bitOf w 25, obf16 := bitOf w 26, mb := f 36 2, stab := f 40 2, nper := f 42 1,
    spread := f 44 2, loff := f 48 4, floff := f 52 4, btabOff := f 56 4, btcap := f 60 4, selOff := f 64 4,
    gateOff := f 68 4, ntok := f 72 4, retOff := f 76 4, yOff := f 80 4, ystride := f 84 4, nelem := f 88 4 }

/-- The key of a DISPATCH or COMBINE (R235). -/
def XferEntry.key (e : XferEntry) : XKey :=
  { xk := (if e.op = 3 then 0 else 2) + b2n e.bwd, layer := e.layer, mb := e.mb, cid := 0 }

/-- Adds to a closure register of a tract (R246): the low or the high word. -/
def State.countCl (s : State) (t : Tract) (r : RegName) (high : Bool) (n : Nat) : State :=
  if high then s.bumpReg (tractReg r t) 63 32 n else s.bumpReg (tractReg r t) 31 0 n

/-- The causes of a closure fault (R246). -/
def causeExcess : Nat := 1
def causeShort : Nat := 2
def causeCredit : Nat := 3
def causeSender : Nat := 4

/-- CLOSURE_FAULT is raised: CL_STAT takes the first one; the record names exchange, peer and counts (R245, R246, R413). -/
def State.closureRaise (s : State) (t : Tract) (k : XKey) (peer : Nat × Nat) (cause want had : Nat) (boundary : Bool) : State :=
  let reg := tractReg .clStat t
  let layer := if k.xk = 4 ∨ boundary then 0 else k.layer
  let mb := if k.xk = 4 ∨ boundary then 0 else k.mb
  let s :=
    if s.regBits reg 0 0 == 1 then s
    else (((s.setRegBits reg 0 0 1).setRegBits reg 3 1 cause).setRegBits reg 13 4 layer).setRegBits reg 29 14 mb
  let xk := if boundary then 15 else k.xk
  s.emit { s.record .closureFault 10 t.val with
    detail := detailWords [xk + layer * 2 ^ 4 + mb * 2 ^ 14, peer.1 + peer.2 * 2 ^ 12 + cause * 2 ^ 16, want, had] }

/-- An exchange of a tract ends: its segments leave the credit paths and the send buffers. -/
def State.xferDrop (s : State) (x : Exch) : State :=
  let mine (g : Segment) : Bool :=
    g.hdr.xk == x.key.xk && g.hdr.layer == x.key.layer && g.hdr.mb == x.key.mb && g.hdr.stract == x.tract.val &&
      g.hdr.smod == s.job.moduleId.toNat && (x.key.xk != 4 || g.hdr.cid == x.key.cid)
  let s := s.dropExch x.tract x.key
  { s with xfer := { s.xfer with
    paths := s.xfer.paths.map (fun (p : (Tract × CreditSrc) × List XItem) => (p.1, p.2.filter (fun i => !mine i.seg)))
    sends := s.xfer.sends.map (fun (p : Port × List SlotSend) =>
      (p.1, p.2.filter (fun w => w.tract != some x.tract || w.key != x.key))) } }

/-- An entry of a tract's Transit engine completes with a status (R251); CLOSURE has emitted its record already. -/
def State.xferComplete (s : State) (t : Tract) (id st : Nat) : State :=
  let q := engQueue t .transit
  match (s.queue q).entries.find? (fun e => e.id = id) with
  | none => s
  | some e =>
    if st = 14 then
      let s := s.modQueue q (fun v => { v with entries := v.entries.filter (fun y => y.id ≠ e.id) })
      ((s.putCpl q (s.cplBytes e.tag st e.pt.slot) e.irq).stopQueue q 3 e.pt)
    else s.completeEntry q e st (if st = 0 ∨ st = 10 then none else some (s.recordQ .transitFault 10 q))

/-- An exchange of a tract ends and its entry completes (R251). -/
def State.xferEnd (s : State) (x : Exch) (st : Nat) : State := (s.xferDrop x).xferComplete x.tract x.entry st

/-- An excess item has arrived (R245): CLOSURE_FAULT at once, and the entry completes with CLOSURE. -/
def State.excess (s : State) (x : Exch) (peer : Nat × Nat) : State :=
  (s.closureRaise x.tract x.key peer causeExcess x.want (x.got + x.nul + 1) false).xferEnd x 14

/-- The base table a forward DISPATCH has left, as read from memory (R237). -/
def State.readBases (s : State) (t : Tract) (l : LayerRec) (btab n : Nat) : List BaseEnt :=
  match l.keyPlace t with
  | none => []
  | some p =>
    (List.range n).map (fun i =>
      let bs := s.peek (sliceKey p (btab + 8 * i)) 8
      { expert := fieldAt bs 0 2, smod := fieldBits bs 2 2 11 0, base := fieldAt bs 4 2, acnt := fieldAt bs 6 2 })

/-- The base table of a tract: for each owned expert and each module with an accepted key, in rising order (R237). -/
def State.buildBases (s : State) (t : Tract) (l : LayerRec) (keys : Nat) : List BaseEnt :=
  let ks := s.heldKeys t l keys
  (s.ownedExperts l t).flatMap (fun o =>
    let cb := s.peek ((l.cutGa + 8 * o.1) % 2 ^ 52) 8
    let cut : Word × Nat := (BitVec.ofNat 32 (fieldAt cb 0 4), fieldAt cb 4 4)
    let acc := ks.filter (fun k => k.expert = o.1 && atOrAbove k.score k.gti cut)
    let mods := sortBy (fun a b => decide (a ≤ b)) ((acc.map (fun k => k.smod)).dedup)
    mods.map (fun m =>
      { expert := o.1, smod := m, base := (acc.filter (fun k => k.smod < m)).length
        acnt := (acc.filter (fun k => k.smod = m)).length }))

/-- The accepted total A of an expert (R237). -/
def Exch.total (x : Exch) (e : Nat) : Nat := ((x.bases.filter (fun b => b.expert = e)).map (fun b => b.acnt)).sum

/-- The experts a tract expects rows for. -/
def basesExperts (bs : List BaseEnt) : List Nat := (bs.map (fun b => b.expert)).dedup

/-- The plot index r0 of an expert before reduction (R238): the lower experts placed on the same plot. -/
def State.plotIndex (s : State) (l : LayerRec) (e : Nat) (c : Cad) : Nat :=
  ((List.range e).filter (fun i => match s.cadOf l i with
    | some d => d.module = c.module && d.tract = c.tract && d.plot = c.plot
    | none => false)).length

/-- The rank of the parcel and the landing index of position q (R238). -/
def placeOf (r0 np spread q : Nat) : Nat × Nat :=
  ((r0 + q / spread) % np, q / (spread * np) * spread + q % spread)

/-- LR, the rows a parcel's landing area of an expert holds (R315). -/
def landRows (cap spread np : Nat) : Nat := min cap (spread * ceilDiv cap (spread * np))

/-- Where an owned expert lands: the parcels of its plot in rank order, r0, its landing offset. -/
structure ExpertPlace where
  parcels : List ParcelId
  r0      : Nat
  land    : Nat
  tmpl    : Nat
  deriving DecidableEq, Repr

def State.expertPlace (s : State) (t : Tract) (l : LayerRec) (e : Nat) : Option ExpertPlace :=
  match s.cadOf l e with
  | none => none
  | some c =>
    let ps := s.plotParcels t (BitVec.ofNat 8 c.plot)
    some { parcels := ps, r0 := s.plotIndex l e c % max 1 ps.length, land := c.land, tmpl := c.tmpl }

/-- The parcel and SL offset of position q of an expert, at landing offset loff. -/
def ExpertPlace.slot (pl : ExpertPlace) (spread loff rowb q : Nat) : Option (ParcelId × Nat × Nat) :=
  let (rho, ell) := placeOf pl.r0 (max 1 pl.parcels.length) spread q
  match pl.parcels[rho]? with
  | some p => some (p, pl.land + loff + ell * rowb, ell)
  | none => none

/-- A null row (R239). -/
def nullRow (smod rowb : Nat) : List MByte :=
  sound (List.replicate 4 0xFF ++ natLe 2 (smod + 0xF000) ++ List.replicate 10 0xFF ++ List.replicate (rowb - 16) 0)

/-- Whether every tile entry of a row group has been written (R179). -/
def groupDone (g : TileGroup) : Bool := g.wrote == tmNct g.tmpl * tmNkg g.tmpl

/-- The row groups of an expert in a parcel whose entries the engine has not begun, in rising order, with the template as it reads now; and whether
the entries of each may be written: every row of the group has landed, and a last, shorter group waits until the expert is complete (R179, R181,
R240). -/
def State.groupsLeft (s : State) (x : Exch) (e : Nat) (p : ParcelId) : List (TileGroup × Bool) :=
  match (s.layerRec x.key.layer).bind (fun l => s.expertPlace x.tract l e) with
  | none => []
  | some pl =>
    let v := s.reg (tractRegI .tileTmpl x.tract pl.tmpl)
    let mr := max 1 (tmMaxrows v)
    let a := List.range (x.total e)
    let spread := (parseXfer x.bytes).spread
    let isIn (q : Nat) : Bool := x.filled.contains (e, q)
    let mine := a.filter (fun q => pl.parcels[(placeOf pl.r0 (max 1 pl.parcels.length) spread q).1]? == some p)
    ((chunksOf mr mine.length mine).zipIdx.filter (fun g =>
        !x.groups.any (fun y => y.parcel = p.parcel.val && y.expert = e && y.group = g.2))).map (fun g =>
      ({ parcel := p.parcel.val, expert := e, group := g.2, rows := g.1.length, wrote := 0, tmpl := v },
        g.1.all isIn && (g.1.length = mr || a.all isIn)))

/-- Whether an exchange of a dispatch has tile entries still to write (R179). -/
def State.groupsOpen (s : State) (x : Exch) : Bool :=
  x.groups.any (fun g => !groupDone g) || (basesExperts x.bases).any (fun e =>
    (((s.layerRec x.key.layer).bind (fun l => s.expertPlace x.tract l e)).map (fun pl => pl.parcels)).any (fun ps =>
      ps.any (fun p => !(s.groupsLeft x e p).isEmpty)))

/-- A row or a null row lands at position q of an expert (R238 to R241). -/
def State.fillPosition (s : State) (x : Exch) (l : LayerRec) (e q : Nat) (row : List MByte) (isNull : Bool) : State :=
  let f := parseXfer x.bytes
  let s := match (s.expertPlace x.tract l e).bind (fun pl => pl.slot f.spread f.loff l.rowb q) with
    | some (p, off, _) => if isNull then s.xstore p off row else s.xland p off row
    | none => s
  let s := if isNull then s.countCl x.tract .clNull true 1 else s.countCl x.tract .clRecv true 1
  s.setExch { x with filled := x.filled ++ [(e, q)], got := x.got + b2n (!isNull), nul := x.nul + b2n isNull }

/-- A row of expert e of module m with MROW n arrives (R238 to R240). An extra one is an excess. -/
def State.landDispatch (s : State) (t : Tract) (k : XKey) (l : LayerRec) (h : SegHdr) (n : Nat) (row : List MByte) (isNull : Bool) :
    State :=
  match s.exchOf t k with
  | none => s
  | some x =>
    match x.bases.find? (fun b => b.expert = h.expert && b.smod = h.smod) with
    | none => s.excess x (h.smod, h.stract)
    | some b =>
      let q := b.base + n
      if x.total h.expert ≤ q || x.filled.contains (h.expert, q) then s.excess x (h.smod, h.stract)
      else s.fillPosition x l h.expert q row isNull

/-- A segment of a dispatch lands: rows, each at the place its tag's MROW gives it, or null rows for an announcement, whose counts the owner moves in
its tally (R199, R236, R238, R239, R241). -/
def State.landDispatchSeg (s : State) (t : Tract) (k : XKey) (l : LayerRec) (g : Segment) : State :=
  if g.hdr.type = 2 then
    let s := s.tallyMove l g.hdr.expert g.hdr.novf
    (List.range g.hdr.novf).foldl (fun s i => s.landDispatch t k l g.hdr (g.hdr.mbase + i) (nullRow g.hdr.smod l.rowb) true) s
  else
    g.rows.foldl (fun s r => s.landDispatch t k l g.hdr (fieldAt r.bytes 14 2) (rowBytesOf r) false) s

/-- The place of a return row: token and choice (R242). -/
def returnPlace (tag : List Byte) : Nat × Nat :=
  (fieldBits tag 6 2 10 0 * 65536 + fieldAt tag 12 2, fieldBits tag 6 2 15 11)

/-- A return row lands (R242, R244): one for a choice that expects none, or a second one, is an excess. -/
def State.landReturn (s : State) (t : Tract) (k : XKey) (l : LayerRec) (h : SegHdr) (row : List MByte) : State :=
  match s.exchOf t k with
  | none => s
  | some x =>
    let f := parseXfer x.bytes
    let tag := mdata (row.take 16)
    let pos := returnPlace tag
    let expected := x.data.any (fun d => (d.1, d.2.1) = pos)
    if !expected || x.filled.contains pos then s.excess x (h.smod, h.stract)
    else
      let s := match keyParcel (keyOf t.val (fieldBits tag 6 2 10 0) 0) with
        | some p => s.xland p (f.retOff + (fieldAt tag 12 2 * l.k + pos.2) * l.rowb) row
        | none => s
      let s := s.countCl t .clRecv true 1
      s.setExch { x with filled := x.filled ++ [pos], got := x.got + 1, poison := x.poison || mbad row }

/-- The members of a collective in rank order, as module and tract (R248). -/
def State.members (s : State) (c : CollEntry) : List (Nat × Nat) :=
  (s.groupOf c).flatMap (fun m => c.tracts.map (fun t => (m, t)))

/-- A member's own address for a field that leaves module and tract open (R248). -/
def memberGa (ga m t : Nat) : Nat := m * 2 ^ 52 + t * 2 ^ 48 + ga % 2 ^ 48

/-- Bytes of a member's contribution to one other (R249). -/
def CollEntry.share (c : CollEntry) : Nat :=
  match c.op with
  | 5 => c.n * (if c.ibf16 then 2 else 4)
  | 8 => 4
  | _ => c.n

/-- The ranks a member receives from. -/
def CollEntry.senders (c : CollEntry) (m : Nat) : List Nat := if c.op = 7 then [c.root] else List.range m

/-- Units of a contribution land (R245, R248): units that came before, that lie past the sender's share, or that no member of the given rank sends
are an excess. -/
def State.landUnits (s : State) (t : Tract) (k : XKey) (g : Segment) : State :=
  match s.exchOf t k with
  | none => s
  | some x =>
    let c := collEntry x.bytes
    let ms := s.members c
    let bs := g.rows.flatMap rowBytesOf
    let lo := 16 * g.hdr.uoff
    let again := x.data.any (fun d => d.1 = g.hdr.srank && decide (lo < d.2.1 + d.2.2.length ∧ d.2.1 < lo + bs.length))
    if again || up16 c.share < lo + bs.length || !(c.senders ms.length).contains g.hdr.srank ||
        ms[g.hdr.srank]? != some (g.hdr.smod, g.hdr.stract) then
      s.excess x (g.hdr.smod, g.hdr.stract)
    else s.setExch { x with data := x.data ++ [(g.hdr.srank, lo, bs)], got := x.got + ceilDiv bs.length 16, poison := x.poison || mbad bs }

/-- A RANK whose exchanges break closure ends with CLOSURE (R197, R219, R245). -/
def State.rankClosure (s : State) (t : Tract) (layer mb : Nat) : State :=
  match s.rankOf t layer mb with
  | none => s
  | some r =>
    let s := (s.dropExch t (keyX layer mb)).dropExch t (cutX layer mb)
    (s.modTxfer t (fun v => { v with ranks := v.ranks.filter (fun y => !(y.layer = layer && y.mb = mb)) })).xferComplete t r.entry 14

/-- Cutoffs of an owner tract arrive, for its experts in rising number (R196, R197): a piece holds those from the MBASE of its header on, whenever it
comes (R236, R252). One that comes again, and more than the tract owns experts, are an excess (R245). DESIGN CHOICE: R236 gives MBASE 0 for a
cutoff segment and names nothing else that places a piece cut from one (assumption log 58). -/
def State.landCuts (s : State) (t : Tract) (l : LayerRec) (g : Segment) : State :=
  let c := s.cutRun l.layer g.hdr.mb
  let es := (List.range l.e).filter (fun e => match s.cadOf l e with
    | some d => d.module = g.hdr.smod && d.tract = g.hdr.stract
    | none => false)
  let isIn (e : Nat) : Bool := c.cuts.any (fun q => q.1 = e)
  let new := (es.drop g.hdr.mbase).take g.rows.length
  let had := (es.filter isIn).length
  if new.length < g.rows.length || new.any isIn then
    (s.closureRaise t (cutX l.layer g.hdr.mb) (g.hdr.smod, g.hdr.stract) causeExcess es.length (had + g.rows.length) false).rankClosure t l.layer
      g.hdr.mb
  else
    let cs := (new.zip g.rows).map (fun q => (q.1, fieldAt q.2.bytes 0 4, fieldAt q.2.bytes 4 4))
    s.setCutRun { c with
      cuts := c.cuts ++ cs, status := lowerStatus c.status g.hdr.status
      heard := if had + g.rows.length = es.length then c.heard ++ [(g.hdr.smod, g.hdr.stract)] else c.heard }

/-- Whether a tract's part of a segment's exchange has started, so that it lands (R222, R229). -/
def State.canLand (s : State) (t : Tract) (g : Segment) : Bool :=
  if g.hdr.xk = 5 ∨ g.hdr.xk = 6 then (s.rankOf t g.hdr.layer g.hdr.mb).isSome else (s.exchOf t (segKey g)).isSome

/-- A peer of an exchange has sent a tract something for it (R245). -/
def State.hear (s : State) (t : Tract) (k : XKey) (peer : Nat × Nat) : State :=
  match s.exchOf t k with
  | some x => if x.heard.contains peer then s else s.setExch { x with heard := x.heard ++ [peer] }
  | none => s

/-- A segment lands in a tract (R236 to R244). -/
def State.landSegment (s : State) (t : Tract) (g : Segment) : State :=
  let k := segKey g
  let s := s.hear t k (g.hdr.smod, g.hdr.stract)
  if g.hdr.xk = 4 then s.landUnits t k g
  else
    match s.layerRec g.hdr.layer with
    | none => s
    | some l =>
      match g.hdr.xk with
      | 0 | 1 => s.landDispatchSeg t k l g
      | 2 | 3 => g.rows.foldl (fun s r => s.landReturn t k l g.hdr (rowBytesOf r)) s
      | 5 => s.takeKeys t g.hdr.layer g.hdr.mb (g.rows.map (fun r => r.bytes))
      | _ => s.landCuts t l g

/-- The rows of a sender are delivered (R246): acknowledged, credited or written locally. -/
def State.delivered (s : State) (t : Tract) (g : Segment) : State :=
  if 3 < g.hdr.xk ∨ g.hdr.type ≠ 1 then s
  else
    let s := s.countCl t .clSend true g.rows.length
    match s.exchOf t (segKey g) with
    | some x => s.setExch { x with dlv := x.dlv + g.rows.length }
    | none => s

/-- Whether everything a tract sends in an exchange has been delivered (R221). -/
def State.sentAll (s : State) (x : Exch) : Bool :=
  x.out.isEmpty &&
    s.xfer.paths.all (fun q => q.1.2 != .tract x.tract || q.2.all (fun i => segKey i.seg != x.key)) &&
    s.xfer.sends.all (fun q => q.2.all (fun w => w.tract != some x.tract || w.key != x.key || w.segs.isEmpty))

/-- The values of a row of reduction elements: FP32, or BF16 widened (R113). -/
def redWord (bf16In : Bool) (row : List MByte) (j : Nat) : Word × Bool :=
  if bf16In then let (c, b) := rowElem 16 row j; (fpWiden bf16 c, b) else let (c, b) := rowElem 32 row j; (BitVec.ofNat 32 c, b)

/-- A result of the reduction units as stored: FP32, or BF16 rounded once (R113). -/
def redCode (bf16Out : Bool) (w : Word) : Nat × FlagSet := if bf16Out then fpNarrow bf16 w else (w.toNat, 0)

/-- Element j of a token's combined row (R243): the exact sum of its terms, rounded once. -/
def combineElem (terms : List (Num × Num)) (ybf16 : Bool) : Nat × FlagSet :=
  match terms with
  | [] => (0, 0)
  | _ =>
    let b := terms.foldl (fun b q => b.addTerm 0 q.1 q.2 0) (Block.empty 0)
    let (v, _, fl) := b.value
    let (c, fl') := if ybf16 then bf16.convert false v else fp32.encode v
    (c, fl ||| fl')

/-- The result row of a token (R243, R244, R208). -/
def State.combineToken (s : State) (l : LayerRec) (f : XferEntry) (x : Token) : List MByte × FlagSet :=
  let bits := if f.ybf16 then 16 else 32
  let n := f.nelem * bits / 8
  if x.bad then (List.replicate n (0, true), 0)
  else
    let cs := (x.choices.filter (fun c => c.acc && !c.sovf)).map (fun c =>
      let row := s.mread (sliceKey x.parcel (f.retOff + (x.row * l.k + c.c) * l.rowb + 16)) (f.nelem * (if f.obf16 then 2 else 4))
      let gate := s.sliceWord x.parcel (f.gateOff + 64 * x.row + 4 * c.c)
      (row, if f.gated then gate else (0x3F80_0000, false)))
    let es := (List.range f.nelem).map (fun j =>
      let os := cs.map (fun q => (redWord f.obf16 q.1 j, q.2))
      if os.any (fun o => o.1.2 || o.2.2) then ((0, true), (0 : FlagSet))
      else
        let (c, fl) := combineElem (os.map (fun o => (numOf o.2.1, numOf o.1.1))) f.ybf16
        ((c, false), fl))
    (packElems bits n (es.map (fun e => e.1)), es.foldl (fun a e => a ||| e.2) 0)

/-- COMBINE's results are written once every return row has landed (R243). -/
def State.combineFinish (s : State) (x : Exch) (l : LayerRec) : State :=
  let f := parseXfer x.bytes
  let toks := s.tokensOf x.tract f.plot f.selOff l.k f.ntok f.empty
  let rows := toks.map (fun q => (q, s.combineToken l f q))
  let s := (s.checkUnit x.tract .reduction).touchTokens x.tract f.plot f.selOff l.k f.ntok f.empty
  let s := toks.foldl (fun s q => if q.bad then s else (q.choices.filter (fun c => c.acc && !c.sovf)).foldl (fun s c =>
    let s := s.touchSlice q.parcel (f.retOff + (q.row * l.k + c.c) * l.rowb + 16) (f.nelem * (if f.obf16 then 2 else 4))
    if f.gated then s.touchSlice q.parcel (f.gateOff + 64 * q.row + 4 * c.c) 4 else s) s) s
  let s := rows.foldl (fun s r => s.xstore r.1.parcel (f.yOff + r.1.row * f.ystride) r.2.1) s
  let s := s.redFlags x.tract (rows.foldl (fun a r => a ||| r.2.2) 0)
  s.xferEnd x (if x.poison || rows.any (fun r => mbad r.2.1) then 10 else 0)

/-- DISPATCH completes: the forward one leaves its base table for the backward one (R241). -/
def State.dispatchFinish (s : State) (x : Exch) : State :=
  let f := parseXfer x.bytes
  let s :=
    if f.bwd then s
    else s.modTxfer x.tract (fun v => { v with bases := v.bases.map (fun b =>
      if b.layer = f.layer && b.mb = f.mb then { b with done := true } else b) })
  s.xferEnd x (if x.poison then 10 else 0)

/-- What a member receives from rank r, put together in order. -/
def Exch.contribution (x : Exch) (r : Nat) : List MByte :=
  (sortBy (fun a b => decide (a.1 ≤ b.1)) ((x.data.filter (fun d => d.1 = r)).map (fun d => d.2))).flatMap (fun d => d.2)

/-- Whether every contribution has arrived whole. -/
def Exch.collWhole (x : Exch) (c : CollEntry) (m : Nat) : Bool :=
  (c.senders m).all (fun r => decide (c.share ≤ (x.contribution r).length))

/-- The tree of R109 over values with poison. -/
def redTree (ws : List (Word × Bool)) : (Word × Bool) × FlagSet :=
  if ws.any (fun w => w.2) then ((0, true), 0)
  else
    let (w, fl) := treeSum fpAdd ws.length (ws.map (fun w => w.1))
    ((w, false), fl)

/-- What a member writes at its destination, as runs at offsets, and the flags of its additions (R249). -/
def Exch.collResult (x : Exch) (c : CollEntry) (m : Nat) : List (Nat × List MByte) × FlagSet :=
  match c.op with
  | 5 =>
    let ins := (List.range m).map x.contribution
    let es := (List.range c.n).map (fun i =>
      let (w, fl) := redTree (ins.map (fun r => redWord c.ibf16 r i))
      let (code, fl') := redCode c.obf16 w.1
      ((code, w.2), if w.2 then 0 else fl ||| fl'))
    let bits := if c.obf16 then 16 else 32
    ([(0, packElems bits (c.n * bits / 8) (es.map (fun e => e.1)))], es.foldl (fun a e => a ||| e.2) 0)
  | 6 => ((List.range m).map (fun r => (r * c.n, (x.contribution r).take c.n)), 0)
  | 7 => ([(0, (x.contribution c.root).take c.n)], 0)
  | _ =>
    let (w, fl) := redTree ((List.range m).map (fun r => redWord false (x.contribution r) 0))
    ([(0, packElems 32 4 [(w.1.toNat, w.2)])], fl)

/-- A collective completes on a member: its result is written (R249). -/
def State.collFinish (s : State) (x : Exch) (c : CollEntry) (m : Nat) : State :=
  let (runs, fl) := x.collResult c m
  let dst := memberGa c.dstGa s.job.moduleId.toNat x.tract.val
  let s := runs.foldl (fun s r =>
    let key := (dst + r.1) % 2 ^ 52
    if s.inReplica key r.2.length then s.replicaRecord x.tract key
    else
      match windowOf (gaOffset key), keyParcel key with
      | .slice _, some p => (s.mstore key r.2).noteLand p
      | _, _ => s.mstore key r.2) s
  let s := s.redFlags x.tract fl
  s.xferEnd x (if runs.any (fun r => mbad r.2) then 10 else 0)

/-- Whether everything a tract receives in an exchange has landed and been taken in (R221, R243, R249). -/
def State.receivedAll (s : State) (x : Exch) : Bool :=
  match x.key.xk with
  | 0 | 1 => x.got + x.nul = x.want && !s.groupsOpen x
  | 2 | 3 => x.got = x.want && (s.layerRec x.key.layer).isSome
  | 4 => let c := collEntry x.bytes; x.collWhole c (s.members c).length
  | _ => false

/-- An exchange that is complete on both sides has its effect, and its entry completes. -/
def State.xferFinish (s : State) (x : Exch) : State :=
  match x.key.xk with
  | 0 | 1 => s.dispatchFinish x
  | 2 | 3 => match s.layerRec x.key.layer with
    | some l => s.combineFinish x l
    | none => s
  | 4 => let c := collEntry x.bytes; s.collFinish x c (s.members c).length
  | _ => s

/-- A segment of an exchange some of whose units for a tract still hold a credit (R223). -/
def State.creditOut (s : State) (t : Tract) (k : XKey) : Option XItem :=
  s.xfer.paths.findSome? (fun q => if q.1.1 = t then q.2.find? (fun i => i.flight != 0 && segKey i.seg == k) else none)

/-- An exchange whose two sides are complete on a tract completes (R221); a sender imbalance, or a credit of the exchange that is not back, is a
closure fault (R223, R245). -/
def State.xferCheck (s : State) (t : Tract) (k : XKey) : State :=
  match s.exchOf t k with
  | none => s
  | some x =>
    if !s.sentAll x || x.halted || !s.receivedAll x then s
    else if x.att ≠ x.dlv + x.ovf then
      (s.closureRaise t k (s.job.moduleId.toNat, t.val) causeSender x.att (x.dlv + x.ovf) false).xferEnd x 14
    else
      match s.creditOut t k with
      | some i => (s.closureRaise t k (i.seg.hdr.smod, i.seg.hdr.stract) causeCredit x.want (x.got + x.nul) false).xferEnd x 14
      | none => s.xferFinish x

/-- The tile entries of a row group (R179). -/
def tileEntries (tmpl : Nat) (p : Nat) (g : TileGroup) : List (BitVec 128) :=
  let mr := tmMaxrows tmpl
  (List.range (tmNct tmpl)).flatMap (fun c => (List.range (tmNkg tmpl)).map (fun j =>
    BitVec.ofNat 128 (g.expert + tmPhase tmpl * 2 ^ 16 + b2n (tmNoSteal tmpl) * 2 ^ 24 + 2 ^ 25 + g.group * mr % 65536 * 2 ^ 32 +
      g.rows * 2 ^ 48 + tmBg tmpl * 2 ^ 56 + c * tmNcolg tmpl * 2 ^ 64 + tmNcolg tmpl * 2 ^ 80 + j * 2 ^ 88 + p * 2 ^ 96 +
      b2n (tmDm tmpl) * 2 ^ 107 + tmDmark tmpl * 2 ^ 112)))

end Sys2Proof.Machine
end

