-- ==== Sys2Proof/Machine/Transit.lean ====
section
/-!
DEFINITION. Exchange entries as they start (R219 to R221, R231 to R234, R237, R241, R242, R248 to R251), credit units (R222), row
groups (R179, R180), timeouts (R245), the closure check of the boundary (R247).
-/
namespace Sys2Proof.Machine

/-- An entry of the Transit engine completes with a status before its exchange begins; every one but OK and DATA_POISON is a fault. -/
def State.xferFail (s : State) (t : Tract) (id st : Nat) : State :=
  let q := engQueue t .transit
  match (s.queue q).entries.find? (fun e => e.id = id) with
  | some e => s.completeEntry q e st (some (s.recordQ .transitFault 10 q))
  | none => s

/-- The body bits of DISPATCH and COMBINE, counted from byte 32 (R250). -/
def xferUsed (f : XferEntry) : List (Nat × Nat) :=
  if f.op = 3 then
    [(13, 0), (23, 22), (47, 32), (79, 64), (111, 96), (159, 128), (223, 192), (319, 256)] ++
      (if f.bwd then [(191, 160)] else [(87, 80), (255, 224)])
  else [(26, 0), (47, 32), (79, 64), (159, 128), (223, 192), (319, 256), (479, 320)]

/-- BAD_OP of DISPATCH and COMBINE, but for LAYER (R250, R251). -/
def xferBad (e : QEntry) (f : XferEntry) (l : LayerRec) : Bool :=
  !e.bodyClean (xferUsed f) || f.loff % 128 != 0 || [f.btabOff, f.selOff, f.gateOff].any (fun v => v % 16 != 0) ||
    (if f.op = 3 then f.spread == 0 || (if f.bwd then f.floff % 16 != 0 else f.nper == 0)
     else f.ntok == 0 || 65536 < f.ntok || [f.retOff, f.yOff, f.ystride].any (fun v => v % 16 != 0) ||
       l.rowb < f.nelem * (if f.obf16 then 2 else 4) + 16)

/-- An exchange begins on a tract. -/
def State.beginExch (s : State) (x : Exch) : State :=
  { s with xfer := { s.xfer with exch := s.xfer.exch ++ [x], begun := s.xfer.begun ++ [(x.tract, x.key)] } }

/-- A sender attempts rows (R246); the exchange then delivers them locally, by credits, or in slots. -/
def State.attempt (s : State) (t : Tract) (k : XKey) (g : Segment) : State :=
  let n := g.rows.length
  let s := s.countCl t .clSend false n
  let s := match s.exchOf t k with
    | some x => s.setExch { x with att := x.att + n }
    | none => s
  if g.hdr.dmod = s.job.moduleId.toNat ∧ g.hdr.dtract = t.val then (s.delivered t g).landSegment t g
  else s.sendSegs t k [g]

/-- Row r of a tract's send region (R204). -/
def State.sendRow (s : State) (t : Tract) (r : SortRun) (rowb n : Nat) : List MByte :=
  match keyParcel (keyOf t.val (r.srP0 + n % r.srNp) 0) with
  | some p => s.mread (sliceKey p (r.srOff + n / r.srNp * rowb)) rowb
  | none => []

/-- The forward base table a tract holds for a layer and micro-batch. -/
def State.baseRun (s : State) (t : Tract) (layer mb : Nat) : Option BaseRun :=
  (s.txfer t).bases.find? (fun b => b.layer = layer && b.mb = mb)

/-- The segments of a tract's SORT: one for each directory run, in send-region order (R236). -/
def State.dispatchSegs (s : State) (t : Tract) (k : XKey) (r : SortRun) (rowb : Nat) : List Segment :=
  (List.range r.cnt).map (fun i =>
    let d := s.peek ((r.dir + 16 * i) % 2 ^ 52) 16
    let n := fieldAt d 8 2
    let h := segHdr s 1 k t (fieldBits d 0 2 11 0) (fieldBits d 0 2 15 12)
    { hdr := { h with expert := fieldAt d 2 2, count := n, mbase := fieldAt d 10 2 }
      rows := (List.range n).map (fun j => rowOf (s.sendRow t r rowb (fieldAt d 4 4 + j))) })

/-- What reading a tract's directory and send region for a dispatch does to their check units (R147). -/
def State.touchSend (s : State) (t : Tract) (r : SortRun) (rowb : Nat) : State :=
  (List.range r.cnt).foldl (fun s i =>
    let at_ := (r.dir + 16 * i) % 2 ^ 52
    let d := s.peek at_ 16
    (List.range (fieldAt d 8 2)).foldl (fun s j =>
      let n := fieldAt d 4 4 + j
      match keyParcel (keyOf t.val (r.srP0 + n % r.srNp) 0) with
      | some p => s.touchSlice p (r.srOff + n / r.srNp * rowb) rowb
      | none => s) (s.touch at_ 16)) s

/-- What reading the key buffer and the cutoffs, or in the backward direction the base table and the forward landing tags, does (R147, R237,
R241). -/
def State.touchBases (s : State) (t : Tract) (l : LayerRec) (f : XferEntry) (keys held : Nat) (bases : List BaseEnt) : State :=
  match l.keyPlace t with
  | none => s
  | some p =>
    if f.bwd then
      bases.foldl (fun s b => match s.expertPlace t l b.expert with
        | none => s
        | some pl => (List.range b.acnt).foldl (fun s i => match pl.slot f.spread f.floff l.rowb (b.base + i) with
          | some (q, off, _) => s.touchSlice q off 16
          | none => s) s) ((s.touchCad l (basesExperts bases)).touchSlice p f.btabOff (8 * held))
    else (s.ownedExperts l t).foldl (fun s o => s.touch ((l.cutGa + 8 * o.1) % 2 ^ 52) 8)
      ((s.touchCad l (List.range l.e)).touchSlice p l.keyOff (16 * keys))

/-- The positions that were null in the forward pass, by the forward landing tags (R241). -/
def State.forwardNulls (s : State) (t : Tract) (l : LayerRec) (f : XferEntry) (bs : List BaseEnt) : List (Nat × Nat × Nat) :=
  bs.flatMap (fun b =>
    match s.expertPlace t l b.expert with
    | none => []
    | some pl =>
      ((List.range b.acnt).map (fun i => b.base + i)).filterMap (fun q =>
        match pl.slot f.spread f.floff l.rowb q with
        | some (p, off, _) =>
          if fieldBits (s.peek (sliceKey p off) 16) 4 2 15 12 = 15 then some (b.expert, q, b.smod) else none
        | none => none))

/-- Whether the landing area of an expert that a tract owns, at offset loff, leaves the slice of a parcel of its plot (R251, R315). -/
def State.landPast (s : State) (t : Tract) (l : LayerRec) (loff spread : Nat) : Bool :=
  (s.ownedExperts l t).any (fun o =>
    let np := (s.plotParcels t (BitVec.ofNat 8 o.2.plot)).length
    np != 0 && pastSlice (o.2.land + loff) l.rowb (landRows o.2.cap spread np) l.rowb)

/-- The checks of DISPATCH beyond BAD_OP, in order; 0: it begins (R232, R237, R241, R250, R181). -/
def State.dispatchFault (s : State) (t : Tract) (f : XferEntry) (l : LayerRec) (run : Option SortRun) (bases : List BaseEnt)
    (segs : List Segment) : Nat :=
  let own := s.job.moduleId.toNat
  let plotBad (e : Nat) : Bool := match s.cadOf l e with
    | some c => !tmValid (s.reg (tractRegI .tileTmpl t c.tmpl)) || s.plotEmpty t c.plot
    | none => true
  let past := s.landPast t l f.loff f.spread || (f.bwd && s.landPast t l f.floff f.spread)
  if s.jobIsLarge && (s.slotTable f.stab).isNone then 13
  else if !f.empty && run.isNone then 11
  else if f.bwd && !(s.txfer t).bases.any (fun b => b.layer = f.layer && b.mb = f.mb && b.done) then 16
  else if !f.bwd && f.btcap < bases.length then 12
  else if (basesExperts bases).any plotBad then 1
  else if past || sliceSize < f.btabOff + 8 * (if f.bwd then bases.length else f.btcap) then 2
  else if segs.any (fun g => g.hdr.dmod != own &&
      !((s.slotTable f.stab).map (fun b => tableSends b t g.hdr.dmod)).getD false) then 13
  else 0

/-- The effect of DISPATCH (R231, R237 to R241). -/
def State.dispatchAct (s : State) (t : Tract) (e : QEntry) : State :=
  let f := parseXfer e.bytes
  match s.layerRec f.layer with
  | none => s.xferFail t e.id 1
  | some l =>
    if xferBad e f l then s.xferFail t e.id 1
    else
      let run := (s.txfer t).sorts.find? (fun r => r.layer = f.layer && r.mb = f.mb && r.bwd = f.bwd)
      let keys := (((s.txfer t).ranked.find? (fun r => r.1 = f.layer && r.2.1 = f.mb)).map (fun r => r.2.2)).getD 0
      let held := ((s.baseRun t f.layer f.mb).map (fun b => b.size)).getD 0
      let bases := if f.bwd then s.readBases t l f.btabOff held else s.buildBases t l keys
      let k := f.key
      let segs := match f.empty, run with
        | false, some r => s.dispatchSegs t k r l.rowb
        | _, _ => []
      match s.dispatchFault t f l run bases segs with
      | 0 =>
        let want := (bases.map (fun b => b.acnt)).sum
        let nulls := if f.bwd then s.forwardNulls t l f bases else []
        let s := s.touchBases t l f keys held bases
        let s := match f.empty, run with
          | false, some r => s.touchSend t r l.rowb
          | _, _ => s
        let s :=
          if f.bwd then s
          else
            let s := s.modTxfer t (fun v => { v with
              bases := v.bases.filter (fun b => !(b.layer = f.layer && b.mb = f.mb)) ++
                [{ layer := f.layer, mb := f.mb, size := bases.length, spread := f.spread, done := false }] })
            match l.keyPlace t with
            | some p => bases.zipIdx.foldl (fun s b => s.xstore p (f.btabOff + 8 * b.2)
                (sound (natLe 2 b.1.expert ++ natLe 2 b.1.smod ++ natLe 2 b.1.base ++ natLe 2 b.1.acnt))) s
            | none => s
        let s := s.countCl t .clRecv false want
        let s := s.beginExch { newExch t e.id k e.bytes f.stab with
          nper := f.nper, first := s.firstInst f.stab, want := want, bases := bases }
        let s := nulls.foldl (fun s n =>
          match s.exchOf t k with
          | some x => s.fillPosition x l n.1 n.2.1 (nullRow n.2.2 l.rowb) true
          | none => s) s
        (segs.foldl (fun s g => s.attempt t k g) s).xferCheck t k
      | st => s.xferFail t e.id st

/-- DISPATCH: token or gradient rows to experts (R238). -/
def execDispatch (t : Tract) (s : State) : Result :=
  .next (s.xferStart t 3
    (fun s e => let f := parseXfer e.bytes; s.xferBlocked t f.key f.stab s.jobIsLarge) (fun s e => s.dispatchAct t e))

/-- ADDR of COMBINE, but for the landed rows and the base table it reads. -/
def combinePast (f : XferEntry) (l : LayerRec) : Bool :=
  !f.empty && (pastSlice f.selOff (selBytes l.k) f.ntok (selBytes l.k) || pastSlice f.gateOff 64 f.ntok 64 ||
    pastSlice f.retOff l.rowb (f.ntok * l.k) l.rowb || pastSlice f.yOff f.ystride f.ntok (f.nelem * (if f.ybf16 then 2 else 4)))

/-- The return rows a tract sends: every landed row that is not null, of every owned expert, in landing order, each with its
destination (R242). -/
def State.returnRows (s : State) (t : Tract) (f : XferEntry) (l : LayerRec) (bases : List BaseEnt) (spread : Nat) :
    List (Nat × Nat × RowData) :=
  (basesExperts bases).flatMap (fun e =>
    match s.expertPlace t l e with
    | none => []
    | some pl =>
      let a := ((bases.filter (fun b => b.expert = e)).map (fun b => b.acnt)).sum
      (List.range a).filterMap (fun q =>
        match pl.slot spread f.loff l.rowb q with
        | none => none
        | some (p, off, _) =>
          let row := s.mread (sliceKey p off) (16 + f.nelem * (if f.obf16 then 2 else 4))
          let dst := fieldAt (mdata row) 4 2
          if dst / 4096 = 15 then none else some (dst % 4096, dst / 4096, rowOf row)))

/-- What reading the base table and the landed rows for the return rows does to their check units (R147). -/
def State.touchReturns (s : State) (t : Tract) (f : XferEntry) (l : LayerRec) (bases : List BaseEnt) (spread : Nat) : State :=
  let s := match l.keyPlace t with
    | some p => s.touchSlice p f.btabOff (8 * bases.length)
    | none => s
  bases.foldl (fun s b => match s.expertPlace t l b.expert with
    | none => s
    | some pl => (List.range b.acnt).foldl (fun s i => match pl.slot spread f.loff l.rowb (b.base + i) with
      | some (p, off, _) => s.touchSlice p off (16 + f.nelem * (if f.obf16 then 2 else 4))
      | none => s) s) s

/-- The effect of COMBINE (R242, R243). -/
def State.combineAct (s : State) (t : Tract) (e : QEntry) : State :=
  let f := parseXfer e.bytes
  match s.layerRec f.layer with
  | none => s.xferFail t e.id 1
  | some l =>
    if xferBad e f l then s.xferFail t e.id 1
    else if combinePast f l then s.xferFail t e.id 2
    else
      match s.baseRun t f.layer f.mb with
      | none => s.xferFail t e.id 16
      | some b =>
        let bases := s.readBases t l f.btabOff b.size
        let rows := s.returnRows t f l bases b.spread
        if s.landPast t l f.loff b.spread || pastSlice f.btabOff 8 b.size 8 then s.xferFail t e.id 2
        else if s.jobIsLarge && (s.slotTable f.stab).isNone then s.xferFail t e.id 13
        else
          let k := f.key
          let want := (s.tokensOf t f.plot f.selOff l.k f.ntok f.empty).flatMap (fun x =>
            if x.bad then [] else (x.choices.filter (fun c => c.acc && !c.sovf)).map (fun c => (x.parcel.parcel.val * 65536 + x.row, c.c, [])))
          let s := s.touchReturns t f l bases b.spread
          let s := s.countCl t .clRecv false want.length
          let s := s.beginExch { newExch t e.id k e.bytes f.stab with
            first := s.firstInst f.stab, want := want.length, data := want }
          let dests := (rows.map (fun r => (r.1, r.2.1))).dedup
          (dests.foldl (fun s d =>
            (rowSegs (segHdr s 1 k t d.1 d.2) ((rows.filter (fun r => (r.1, r.2.1) = d)).map (fun r => r.2.2))).foldl
              (fun s g => s.attempt t k g) s) s).xferCheck t k

/-- COMBINE: return rows travel back and the results are formed (R242 to R244). -/
def execCombine (t : Tract) (s : State) : Result :=
  .next (s.xferStart t 4
    (fun s e => let f := parseXfer e.bytes; s.xferBlocked t f.key f.stab s.jobIsLarge) (fun s e => s.combineAct t e))

/-- BAD_OP of a collective: body bits, limits, member rules (R248, R250). -/
def State.collBad (s : State) (t : Tract) (e : QEntry) (c : CollEntry) : Bool :=
  let own := s.job.moduleId.toNat
  let used := [(3, 0), (47, 32), (75, 64), (127, 96), (191, 128), (239, 192), (303, 256), (383, 320)] ++
    (if c.op = 5 then [(5, 4)] else []) ++ (if c.op = 7 then [(63, 48)] else [])
  let inRange (lo hi : Nat) : Bool := decide (lo ≤ c.n ∧ c.n ≤ hi)
  !e.bodyClean used || c.gsize == 0 || 4096 < c.gsize || !c.tracts.contains t.val ||
    !(match c.op with
      | 5 => inRange 1 (2 ^ 28)
      | 6 => inRange 16 (2 ^ 30) && c.n % 16 == 0
      | 7 => inRange 16 (2 ^ 30)
      | _ => inRange 1 65536) ||
    bitsOf c.srcGa 63 48 != 0 || bitsOf c.dstGa 63 48 != 0 || !s.isOwn c.grpGa ||
    (s.reach c.grpGa (2 * c.gsize) false == 0 && (!(s.groupOf c).contains own || (s.groupOf c).any (fun m => !s.inJob m))) ||
    (c.op == 7 && c.gsize * c.tracts.length ≤ c.root)

/-- Bytes a member reads at its source and writes at its destination (R249). -/
def CollEntry.inBytes (c : CollEntry) (m rank : Nat) : Nat :=
  match c.op with
  | 5 => m * c.share
  | 7 => if rank = c.root then c.n else 0
  | 8 => 4 * c.n
  | _ => c.n
def CollEntry.outBytes (c : CollEntry) (m : Nat) : Nat :=
  match c.op with
  | 5 => c.n * (if c.obf16 then 2 else 4)
  | 6 => m * c.n
  | 7 => c.n
  | _ => 4

/-- A contribution as COLL segments for one member: 16-byte units, the last padded with zeros (R235). -/
def collSegs (h : SegHdr) (bs : List MByte) : List Segment :=
  let us := ceilDiv bs.length 16
  let padded := bs ++ List.replicate (16 * us - bs.length) (0, false)
  (chunksOf 65535 us ((chunksOf 16 us padded).map rowOf)).zipIdx.map (fun q =>
    { hdr := { h with type := 3, count := q.1.length, uoff := q.2 * 65535 }, rows := q.1 })

/-- What a member of rank r sends to the member of rank j: its share of what it read (R249). -/
def CollEntry.contribution (c : CollEntry) (input : List MByte) (j : Nat) : List MByte × FlagSet :=
  match c.op with
  | 5 => ((input.drop (j * c.share)).take c.share, 0)
  | 8 =>
    let (w, fl) := redTree ((List.range c.n).map (fun i => redWord false input i))
    (packElems 32 4 [(w.1.toNat, w.2)], fl)
  | _ => (input, 0)

/-- The effect of a collective entry (R248, R249). -/
def State.collAct (s : State) (t : Tract) (e : QEntry) : State :=
  let c := collEntry e.bytes
  let own := s.job.moduleId.toNat
  if s.collBad t e c then s.xferFail t e.id 1
  else if s.reach c.grpGa (2 * c.gsize) false ≠ 0 then s.xferFail t e.id 2
  else
    let ms := s.members c
    let m := ms.length
    let rank := firstIdx (fun x => x == (own, t.val)) ms
    let src := memberGa c.srcGa own t.val
    let sends := c.op != 7 || rank == c.root
    if s.reach src (c.inBytes m rank) false ≠ 0 || s.reach (memberGa c.dstGa own t.val) (c.outBytes m) true ≠ 0 then s.xferFail t e.id 2
    else if ms.any (fun d => d.1 != own) && (s.slotTable c.stab).isNone then s.xferFail t e.id 13
    else
      let k : XKey := { xk := 4, layer := 0, mb := 0, cid := c.cid }
      let input := s.mread (src % 2 ^ 52) (c.inBytes m rank)
      let s := (s.touchAt t c.grpGa (2 * c.gsize)).touchAt t src (c.inBytes m rank)
      let s := s.beginExch { newExch t e.id k e.bytes c.stab with
        first := s.firstInst c.stab, want := (c.senders m).length * ceilDiv c.share 16 }
      let s := if c.op = 5 ∨ c.op = 8 then s.checkUnit t .reduction else s
      let own_ := c.contribution input 0
      let s := s.redFlags t own_.2
      let s :=
        if !sends then s
        else
          ms.zipIdx.foldl (fun s d =>
            let h := { segHdr s 3 k t d.1.1 d.1.2 with srank := rank }
            (collSegs h (c.contribution input d.2).1).foldl (fun s g =>
              if d.1 = (own, t.val) then s.landSegment t g else s.sendSegs t k [g]) s) s
      s.xferCheck t k

/-- A collective waits where R234 says so. -/
def State.collBlocked (s : State) (t : Tract) (e : QEntry) : Bool :=
  let c := collEntry e.bytes
  s.xferBlocked t { xk := 4, layer := 0, mb := 0, cid := c.cid } c.stab ((s.groupOf c).any (fun m => m != s.job.moduleId.toNat))

/-- A collective entry of operation op as it starts. -/
def State.collStart (s : State) (t : Tract) (op : Nat) : State :=
  s.xferStart t op (fun s e => s.collBlocked t e) (fun s e => s.collAct t e)

/-- RSCAT: reduce-scatter (R249). -/
def execRscat (t : Tract) (s : State) : Result := .next (s.collStart t 5)
/-- AGATH: all-gather. -/
def execAgath (t : Tract) (s : State) : Result := .next (s.collStart t 6)
/-- BCAST: broadcast from the member of rank ROOT. -/
def execBcast (t : Tract) (s : State) : Result := .next (s.collStart t 7)
/-- GNORM: the tree sum of the members' tree sums. -/
def execGnorm (t : Tract) (s : State) : Result := .next (s.collStart t 8)

/-- CREDIT_UNIT: the senders of units for a tract send what they hold credits for; then 512 bytes of the oldest segment of a credit path with a unit
in flight, of an exchange the tract has started, are written, and the credit returns. With the last unit the segment has landed and its rows are
delivered (R222, R246). A tract whose part has not started lands nothing and returns no credit. -/
def execCreditUnit (dst : Tract) (src : CreditSrc) (s : State) : Result :=
  .next <|
    let s := s.grantCredits dst
    let l := s.xfer.paths.get (dst, src) []
    let put (s : State) (l : List XItem) : State := { s with xfer := { s.xfer with paths := s.xfer.paths.put (dst, src) l } }
    match l.find? (fun i => i.flight != 0 && s.canLand dst i.seg) with
    | none => s
    | some i =>
      let n := firstIdx (fun (x : XItem) => x == i) l
      let k := segKey i.seg
      let s := match src with
        | .tract u => s.hear u k (s.job.moduleId.toNat, dst.val)
        | .portDie _ => s
      if 1 < i.units then put s (l.set n { i with units := i.units - 1, flight := i.flight - 1 })
      else
        let s := (put s (l.eraseIdx n)).landSegment dst i.seg
        let s := match src with
          | .tract u => (s.delivered u i.seg).xferCheck u k
          | .portDie _ => s
        s.xferCheck dst k

/-- The row group whose entries a tract's engine writes to a parcel next: the one it has begun and not finished, so that the entries of a group follow
one another, else the next that may be written, of the exchange that began first (R179, R181). -/
def State.pendingGroup (s : State) (p : ParcelId) : Option (Exch × TileGroup) :=
  let xs := s.xfer.exch.filter (fun x => x.tract = p.tract && !x.halted)
  match xs.findSome? (fun x => (x.groups.find? (fun g => g.parcel = p.parcel.val && !groupDone g)).map (fun g => (x, g))) with
  | some q => some q
  | none =>
    xs.findSome? (fun x => (basesExperts x.bases).findSome? (fun e =>
      ((s.groupsLeft x e p).find? (fun g => g.2)).map (fun g => (x, g.1))))

/-- TILE_ENTRY_WRITE: the Transit engine of the parcel's tract writes the entries of a row group whose rows have landed, all by the template it read as
it began them; a full list makes it wait and go on entry by entry (R179 to R181). -/
def execTileEntryWrite (p : ParcelId) (s : State) : Result :=
  .next <|
    match s.pendingGroup p with
    | none => s
    | some (x, g) =>
      let room := s.tileFree p
      let es := ((tileEntries g.tmpl p.parcel.val g).drop g.wrote).take room
      let s := s.tileAppend p (es.map (fun b => { bytes := b, bad := false }))
      let others := x.groups.filter (fun y => !(y.parcel = g.parcel && y.expert = g.expert && y.group = g.group))
      let s := s.setExch { x with groups := others ++ [{ g with wrote := g.wrote + es.length }] }
      s.xferCheck x.tract x.key

/-- TILE_OVERFLOW: the engine has waited 100 us for room in a parcel's list; the exchange sends nothing more (R180). -/
def execTileOverflow (p : ParcelId) (s : State) : Result :=
  .next <|
    match s.pendingGroup p with
    | some (x, _) =>
      if s.tileFree p = 0 then (s.emit (s.recordP .tileOverflow 10 p)).setExch { x with halted := true } else s
    | none => s

/-- The peers of an exchange: the members of a collective, the owners of a layer's experts for its cutoffs, else every tract of the job (R198, R245,
R248). -/
def State.peersOf (s : State) (x : Exch) : List (Nat × Nat) :=
  match x.key.xk with
  | 4 => s.members (collEntry x.bytes)
  | 6 => ((s.layerRec x.key.layer).map (fun l => s.owners l)).getD []
  | _ => s.jobModules.flatMap (fun m => (List.range 12).map (fun t => (m, t)))

/-- The peers whose content for an exchange stands in a tract's receive buffer or at a port die with credits (R222, R229). -/
def State.buffered (s : State) (x : Exch) : List (Nat × Nat) :=
  s.xfer.paths.flatMap (fun q => if q.1.1 = x.tract then
    (q.2.filter (fun i => (i.flight != 0 || i.port.isSome) && segKey i.seg == x.key)).map (fun i => (i.seg.hdr.smod, i.seg.hdr.stract)) else [])

/-- The peers of an exchange that have sent a tract nothing at all for it, not even a credit or an acknowledgement (R245): first tracts of the module
that have not started their part. -/
def State.silentPeers (s : State) (x : Exch) : List (Nat × Nat) :=
  let own := s.job.moduleId.toNat
  let came := x.heard ++ s.buffered x
  let silent := (s.peersOf x).filter (fun p => p != (own, x.tract.val) && !came.contains p)
  let absent (p : Nat × Nat) : Bool := p.1 == own && !s.xfer.begun.any (fun b => b.1.val = p.2 && b.2 = x.key) &&
    !allTracts.any (fun u => u.val = p.2 && 5 ≤ x.key.xk && (s.rankOf u x.key.layer x.key.mb).isSome)
  silent.filter absent ++ silent.filter (fun p => !absent p)

/-- A peer whose items are missing (R245): the module of an unfilled position, whose tract the base table does not name and the record gives as 15;
the owner of a choice without its return row; a member without a whole contribution; an owner without all its cutoffs. -/
def State.missingPeer (s : State) (x : Exch) : Nat × Nat :=
  let none_ : Nat × Nat := (s.job.moduleId.toNat, x.tract.val)
  match x.key.xk with
  | 0 | 1 =>
    ((x.bases.find? (fun b => (List.range b.acnt).any (fun i => !x.filled.contains (b.expert, b.base + i)))).map (fun b => (b.smod, 15))).getD none_
  | 2 | 3 =>
    let lost := x.data.find? (fun d => !x.filled.contains (d.1, d.2.1))
    (((s.layerRec x.key.layer).bind (fun l => lost.bind (fun d => (keyParcel (keyOf x.tract.val (d.1 / 65536) 0)).bind (fun p =>
      ((s.readToken p (parseXfer x.bytes).selOff l.k (d.1 % 65536)).choices.find? (fun c => c.c = d.2.1)).bind (fun c =>
        s.cadOf l c.expert))))).map (fun (c : Cad) => (c.module, c.tract))).getD none_
  | 5 => none_
  | 6 => (((s.layerRec x.key.layer).bind (fun l => (s.owners l).find? (fun o => !(s.cutRun x.key.layer x.key.mb).heard.contains o)))).getD none_
  | _ =>
    let c := collEntry x.bytes
    let ms := s.members c
    (((c.senders ms.length).find? (fun r => (x.contribution r).length < c.share)).bind (fun r => ms[r]?)).getD none_

/-- EXCHANGE_TIMEOUT: the k-th exchange a tract runs has not completed within 100 ms: PEER_TIMEOUT where a peer was silent, else a
closure fault for the shortfall (R232, R245). -/
def execExchangeTimeout (t : Tract) (k : Nat) (s : State) : Result :=
  .next <|
    match (s.xfer.exch.filter (fun x => x.tract = t && x.key.xk ≤ 4))[k]? with
    | none => s
    | some x =>
      match s.silentPeers x with
      | p :: _ =>
        let q := engQueue t .transit
        let d := s.recordQ .transitFault 10 q
        let r := { d with detail := d.detail.take 8 ++ natLe 4 (p.1 + p.2 * 4096) ++ d.detail.drop 12 }
        match (s.queue q).entries.find? (fun e => e.id = x.entry) with
        | some e => (s.xferDrop x).completeEntry q e 9 (some r)
        | none => s
      | [] => (s.closureRaise t x.key (s.missingPeer x) causeShort x.want (x.got + x.nul) false).xferEnd x 14

/-- RANK_PEER_TIMEOUT: a RANK whose exchanges have not completed within 100 ms: PEER_TIMEOUT where a tract it waits for was silent, else a closure
fault for the shortfall (R198, R219, R245). How many keys a tract should have received no rule says: a free value. -/
def execRankPeerTimeout (t : Tract) (layer mb : Nat) (s : State) : Result :=
  .next <|
    match s.rankOf t layer mb with
    | none => s
    | some r =>
      match (s.exchOf t (keyX layer mb)).or (s.exchOf t (cutX layer mb)) with
      | none => s.rankEnd t r 9
      | some x =>
        if !(s.silentPeers x).isEmpty then s.rankEnd t r 9
        else
          let (want, got) := if x.key.xk = 5 then (s.freeVal.toNat, r.keys)
            else (((s.layerRec layer).map (fun l => ((List.range l.e).filter (fun e => (s.cadOf l e).isSome)).length)).getD 0,
              (s.cutRun layer mb).cuts.length)
          ((if x.key.xk = 5 then s.takeFree else s).closureRaise t x.key (s.missingPeer x) causeShort want got false).rankClosure t layer mb

end Sys2Proof.Machine
end

