-- ==== Sys2Proof/Machine/Slots.lean ====
section
/-!
DEFINITION. Slots between modules (R224 to R234, R353): content chosen and staged, the freeze, transmission, frames that arrive,
acknowledgements, slack and overflow.
-/
namespace Sys2Proof.Machine

/-- The port die of a port. -/
def portDie (p : Port) : Fin 8 := ⟨p.val / 2, by omega⟩

/-- The send instances of a port that stand in its send buffer. -/
def State.sendsOf (s : State) (p : Port) : List SlotSend := s.xfer.sends.get p []
def State.setSends (s : State) (p : Port) (l : List SlotSend) : State :=
  { s with xfer := { s.xfer with sends := s.xfer.sends.put p l } }
def State.sendAt (s : State) (p : Port) (inst : Nat) : Option SlotSend := (s.sendsOf p).find? (fun w => w.inst = inst)
def State.dropSend (s : State) (p : Port) (inst : Nat) : State := s.setSends p ((s.sendsOf p).filter (fun w => w.inst ≠ inst))
def State.putSend (s : State) (p : Port) (w : SlotSend) : State :=
  s.setSends p ((s.sendsOf p).filter (fun x => x.inst ≠ w.inst) ++ [w])

/-- What a port remembers of its last instances (R473). -/
def State.slotSeen (s : State) (p : Port) : SlotSeen := s.xfer.seen.get p { missed := false, last := none, acked := false }
def State.modSeen (s : State) (p : Port) (f : SlotSeen → SlotSeen) : State :=
  { s with xfer := { s.xfer with seen := s.xfer.seen.put p (f (s.slotSeen p)) } }

/-- What a port die holds to relay (R233). -/
def State.relaysOf (s : State) (d : Fin 8) : List RelayItem := s.xfer.relays.get d []
def State.setRelays (s : State) (d : Fin 8) (l : List RelayItem) : State :=
  { s with xfer := { s.xfer with relays := s.xfer.relays.put d l } }

/-- The send entry of a table for instance inst of a port (R224). -/
def tableSendAt (b : List Byte) (p : Port) (inst : Nat) : Option SlotEnt :=
  (tableEnts b).find? (fun e => !e.recv && e.port = p.val && e.slot = inst % tableNslot b)

/-- The table that owns an instance of a port, and its send entry: that of the exchange which started first among those whose tables
claim it (R234); else of a table of the plan whose entry relays what the port die holds (R233), else of the first that claims it. -/
def State.slotOwner (s : State) (p : Port) (inst : Nat) : Option (Nat × SlotEnt × Option XKey) :=
  let claim (n : Nat) : Option SlotEnt := (s.slotTable n).bind (fun b => tableSendAt b p inst)
  let byExch := s.xfer.exch.findSome? (fun x =>
    if s.exchLarge x && x.first ≤ inst then (claim x.table).map (fun e => (x.table, e, some x.key)) else none)
  match byExch with
  | some o => some o
  | none =>
    match s.plan.inForce with
    | some pl =>
      let claims := pl.tables.filterMap (fun q => (claim q.1).map (fun e => (q.1, e, none)))
      let relays := claims.find? (fun c => c.2.1.relay && (s.relaysOf (portDie p)).any (fun r => r.dmod = c.2.1.dmod))
      relays.or claims.head?
    | none => none

/-- A segment cut so that at most room bytes are taken: the piece that fits and what is left, whose MBASE is the MROW of its first row (R227, R235). DESIGN CHOICE: that of
a piece of cutoffs is the number of cutoffs before it, so that no placement depends on arrival (R252, assumption log 58). -/
def cutSegment (room : Nat) (g : Segment) : Option (Segment × Option Segment) :=
  if room < 32 then none
  else if g.rows.isEmpty then some (g, none)
  else
    let fits := (List.range (g.rows.length + 1)).filter (fun n => decide (32 + ((g.rows.take n).map (fun r => r.bytes.length)).sum ≤ room))
    let n := fits.getLastD 0
    if n = 0 then none
    else if n = g.rows.length then some (g, none)
    else
      let h := g.hdr
      let moved : SegHdr := { h with
        mbase := if h.xk ≤ 1 then ((g.rows.drop n).head?.map (fun r => fieldAt r.bytes 14 2)).getD h.mbase
          else if h.xk = 6 then h.mbase + n else h.mbase
        uoff := if h.xk = 4 then h.uoff + n else h.uoff }
      some ({ hdr := { h with count := n }, rows := g.rows.take n },
        some { hdr := { moved with count := g.rows.length - n }, rows := g.rows.drop n })

/-- Content of at most limit bytes from the head of a list of segments for one destination, and what is left of them. -/
def takeContent : List Segment → Nat → List Segment × List Segment
  | [], _ => ([], [])
  | g :: gs, room =>
    match cutSegment room g with
    | none => ([], g :: gs)
    | some (a, some b) => ([a], b :: gs)
    | some (a, none) =>
      let (xs, rest) := takeContent gs (room - segSize a)
      (a :: xs, rest)

/-- The unsent segments of an exchange for a module, announcements first (R227), and the others. -/
def Exch.outFor (x : Exch) (dmod : Nat) : List Segment × List Segment :=
  let mine := x.out.filter (fun g => g.hdr.dmod = dmod)
  (mine.filter (fun g => g.hdr.type = 2) ++ mine.filter (fun g => g.hdr.type ≠ 2), x.out.filter (fun g => g.hdr.dmod ≠ dmod))

/-- The last instance, and its port, of the slack of an exchange's rows for a module (R231); of entries that share the last slot the
highest port counts. -/
def State.lastSlack (s : State) (x : Exch) (dmod : Nat) : Option (Nat × Nat) :=
  if x.key.xk ≠ 0 then none
  else
    (s.slotTable x.table).bind (fun b =>
      let es := (tableEnts b).filter (fun e => !e.recv && !e.relay && e.stract = x.tract.val && e.dmod = dmod)
      (sortBy (fun (a b : SlotEnt) => lexLe [b.slot, b.port] [a.slot, a.port]) es).head?.map (fun e =>
        (x.first + (x.nper - 1) * tableNslot b + e.slot, e.port)))

/-- Whether instance inst of a port ends that slack. -/
def State.endsSlack (s : State) (x : Exch) (dmod inst : Nat) (p : Port) : Bool := s.lastSlack x dmod == some (inst, p.val)

/-- Whether the slack is over for content of an instance: the instance is the last, or the last has passed its freeze. -/
def State.slackOver (s : State) (x : Exch) (dmod inst : Nat) : Bool :=
  match s.lastSlack x dmod with
  | some (n, _) => decide (n ≤ inst) || decide (s.instTime n ≤ s.mtime + 256)
  | none => false

/-- What an exchange may put into instance inst for a module, and what it keeps: past the slack of a dispatch only announcements leave (R227, R231). -/
def State.stageable (s : State) (x : Exch) (dmod inst : Nat) : List Segment × List Segment :=
  let (mine, others) := x.outFor dmod
  match s.lastSlack x dmod with
  | some (n, _) => if n < inst then (mine.filter (fun g => g.hdr.type = 2), mine.filter (fun g => g.hdr.type ≠ 2) ++ others) else (mine, others)
  | none => (mine, others)

/-- SLOT_STAGE: the content of instance inst of a port is chosen and staged into its send buffer of 8 instances; a relay entry takes
what its port die holds for the destination (R227, R233, R234). -/
def execSlotStage (p : Port) (inst : Nat) (s : State) : Result :=
  .next <|
    if (s.sendAt p inst).isSome || 8 ≤ (s.sendsOf p).length || !s.plan.stepped then s
    else
      match s.slotOwner p inst with
      | none => s
      | some (table, e, key) =>
        let base (t : Option Tract) (k : XKey) (gs : List Segment) : SlotSend :=
          { inst := inst, table := table, pos := e.slot, tract := t, key := k, dmod := e.dmod, limit := e.limit, segs := gs,
            phase := .staged }
        if e.relay then
          let l := s.relaysOf (portDie p)
          match l.find? (fun r => r.dmod = e.dmod) with
          | none => s
          | some r =>
            match takeContent r.segs e.limit with
            | ([], _) => s
            | (gs, rest) =>
              let i := firstIdx (fun y => decide (y.dmod = e.dmod)) l
              let l' := l.take i ++ (if rest.isEmpty then [] else [{ r with segs := rest }]) ++ l.drop (i + 1)
              (s.setRelays (portDie p) l').putSend p (base none { xk := 15, layer := 0, mb := 0, cid := 0 } gs)
        else
          match key with
          | none => s
          | some k =>
            match s.xfer.exch.find? (fun x => x.tract.val = e.stract && x.key = k && x.first ≤ inst && !x.halted) with
            | none => s
            | some x =>
              let (mine, others) := s.stageable x e.dmod inst
              match takeContent mine e.limit with
              | ([], _) => s
              | (gs, rest) => (s.setExch { x with out := rest ++ others }).putSend p (base (some x.tract) x.key gs)

/-- The first-pass dispatch overflows rows of a segment: SOVF and +0 in the gate entry of each, the count, and an announcement of the
run (R231). -/
def State.overflowSeg (s : State) (t : Tract) (k : XKey) (g : Segment) : State :=
  match s.exchOf t k, s.layerRec k.layer with
  | some x, some l =>
    let f := parseXfer x.bytes
    let s := g.rows.foldl (fun s r =>
      let pc := fieldAt r.bytes 6 2
      match keyParcel (keyOf t.val (pc % 2048) 0) with
      | some p =>
        let row := fieldAt r.bytes 12 2
        let off := f.selOff + row * selBytes l.k + 8 + 8 * (pc / 2048) + 2
        let fl := leNat (s.peek (sliceKey p off) 1)
        let s := s.xstore p off (sound (natLe 1 (setBits fl 3 3 1)))
        s.xstore p (f.gateOff + 64 * row + 4 * (pc / 2048)) (sound (natLe 4 0))
      | none => s) s
    let n := g.rows.length
    let s := s.countCl t .clNull false n
    match s.exchOf t k with
    | some x => s.setExch { x with
        ovf := x.ovf + n, out := x.out ++ [{ hdr := { g.hdr with type := 2, count := 0, novf := n }, rows := [] }] }
    | none => s
  | _, _ => s

/-- The unsent rows of a dispatch for a module overflow (R231). -/
def State.overflowRows (s : State) (t : Tract) (k : XKey) (dmod : Nat) : State :=
  match s.exchOf t k with
  | none => s
  | some x =>
    let hit (g : Segment) : Bool := g.hdr.dmod == dmod && g.hdr.type == 1
    let s := s.setExch { x with out := x.out.filter (fun g => !hit g) }
    ((x.out.filter hit).foldl (fun s g => s.overflowSeg t k g) s).xferCheck t k

/-- The content of a send instance returns to the head of the unsent data (R228, R229); past the slack its rows overflow. -/
def State.returnContent (s : State) (p : Port) (w : SlotSend) : State :=
  let s := s.dropSend p w.inst
  match w.tract with
  | none => s.setRelays (portDie p) ({ dmod := w.dmod, segs := w.segs } :: s.relaysOf (portDie p))
  | some t =>
    match s.exchOf t w.key with
    | none => s
    | some x =>
      let s := s.setExch { x with out := w.segs ++ x.out }
      if s.slackOver x w.dmod w.inst then s.overflowRows t w.key w.dmod else s

/-- The dispatches whose slack ends with an instance of a port overflow what is left unsent (R231). -/
def State.slackEnds (s : State) (p : Port) (inst : Nat) : State :=
  s.xfer.exch.foldl (fun s x =>
    match (s.slotTable x.table).bind (fun b => tableSendAt b p inst) with
    | some e =>
      if !e.relay && e.stract = x.tract.val && s.endsSlack x e.dmod inst p then s.overflowRows x.tract x.key e.dmod else s
    | none => s) s

/-- SLOT_FREEZE: content wholly staged is frozen; else, or with the link down, the instance is a miss and its content returns; with
nothing chosen it is idle (R228). -/
def execSlotFreeze (p : Port) (inst : Nat) (staged : Bool) (s : State) : Result :=
  .next <|
    match s.slotOwner p inst with
    | none => s
    | some (table, e, _) =>
      let up := s.portState p.val == 5
      let mark (miss : Bool) (s : State) : State := s.putSend p
        { inst := inst, table := table, pos := e.slot, tract := none, key := { xk := 15, layer := 0, mb := 0, cid := 0 }, dmod := 0,
          limit := e.limit, segs := [], phase := .marker miss }
      match s.sendAt p inst with
      | some w =>
        if w.phase != .staged then s
        else if staged && up then ((s.putSend p { w with phase := .frozen }).slackEnds p inst).modSeen p (fun v => { v with missed := false })
        else (mark true ((s.returnContent p w).slackEnds p inst)).modSeen p (fun v => { v with missed := true })
      | none => (mark (!up) (s.slackEnds p inst)).modSeen p (fun v => { v with missed := !up })

/-- The header of a frame of a send instance (R352). -/
def State.frameHdr (s : State) (p : Port) (w : SlotSend) (kind reason dmod : Nat) : FrameHdr :=
  { kind := kind, reason := reason, table := w.table, pos := w.pos, smod := s.job.moduleId.toNat, sport := p.val, inst := w.inst,
    step := s.job.step.toNat, len := (w.segs.map segSize).sum, dmod := dmod }

/-- XS_PORT of a port. -/
def xsReg (p : Port) : RegKey := modRegI .xsPort p.val

/-- SLOT_TRANSMIT: the frozen content or the marker leaves; on a link that has gone down the instance is a miss (R228, R253). -/
def execSlotTransmit (p : Port) (inst : Nat) (s : State) : Result :=
  .next <|
    match s.sendAt p inst with
    | none => s
    | some w =>
      let up := s.portState p.val == 5
      match w.phase with
      | .frozen =>
        if up then
          (((s.send (.frame p (s.frameHdr p w 1 0 w.dmod) w.segs)).bumpReg (xsReg p) 15 0 1).putSend p { w with phase := .sent }).modSeen p
            (fun v => { v with last := some inst, acked := false })
        else (s.returnContent p w).bumpReg (xsReg p) 31 16 1
      | .marker miss =>
        let s := if up then s.send (.frame p (s.frameHdr p w 2 (if miss then 1 else 2) 0) []) else s
        (s.bumpReg (xsReg p) (if miss || !up then 31 else 63) (if miss || !up then 16 else 48) 1).dropSend p inst
      | _ => s

/-- The code a CONTENT frame draws (R229, R233, R353): 0 ACK, 1 NACK_FULL, 2 NACK_MISMATCH; and the receive entry. -/
def State.frameCode (s : State) (p : Port) (h : FrameHdr) (segs : List Segment) : Nat × Option SlotEnt :=
  let ent := (s.slotTable h.table).bind (fun b =>
    (tableEnts b).find? (fun e => e.recv && e.port = p.val && e.slot = h.pos && h.inst % tableNslot b = h.pos))
  match ent with
  | none => (2, none)
  | some e =>
    if s.portState p.val = 6 || !s.plan.stepped || h.step ≠ s.job.step.toNat || h.smod ≠ e.peer || h.sport ≠ e.pport || h.dmod ≠ e.dmod then
      (2, none)
    else if e.relay then
      let held := ((s.relaysOf (portDie p)).map (fun r => (r.segs.map segSize).sum)).sum
      if 2 ^ 21 < held + (segs.map segSize).sum then (1, none) else (0, some e)
    else
      let insts := (s.xfer.paths.flatMap (fun q => q.2.filterMap (fun i => i.port))).filter (fun q => q.1 = p.val)
      if 8 ≤ insts.dedup.length then (1, none) else (0, some e)

/-- CONTENT_FRAME: content arrives on a port, is taken into the receive or relay buffer or refused, and answered (R229, R233, R353). -/
def execContentFrame (p : Port) (h : FrameHdr) (segs : List Segment) (s : State) : Result :=
  .next <|
    if s.portState p.val < 5 then s
    else
      let (code, ent) := s.frameCode p h segs
      let s : State := match ent with
        | none => s
        | some e =>
          if e.relay then s.setRelays (portDie p) (s.relaysOf (portDie p) ++ [{ dmod := e.dmod, segs := segs }])
          else segs.foldl (fun s g =>
            if ht : g.hdr.dtract < 12 then s.pushPath ⟨g.hdr.dtract, ht⟩ (.portDie (portDie p)) g (some (p.val, h.inst)) else s) s
      s.send (.sack p h.table h.inst h.step code)

/-- EMPTY_FRAME: a marker draws no answer (R353). -/
def execEmptyFrame (_p : Port) (_h : FrameHdr) (s : State) : Result := .next s

/-- Content of a tract is acknowledged: its rows are delivered, and the peer has been heard (R229, R245, R246). -/
def State.ackContent (s : State) (w : SlotSend) : State :=
  match w.tract with
  | none => s
  | some t =>
    let s := w.segs.foldl (fun (s : State) (g : Segment) =>
      let s := s.delivered t g
      s.hear t w.key (w.dmod, g.hdr.dtract)) s
    s.xferCheck t w.key

/-- SACK: the acknowledgement of an instance: ACK delivers its rows, a NACK returns its content and counts a miss (R229). -/
def execSack (p : Port) (table inst step code : Nat) (s : State) : Result :=
  .next <|
    match if s.portState p.val = 5 then s.sendAt p inst else none with
    | none => s
    | some w =>
      if w.phase != .sent || w.table ≠ table || step ≠ s.job.step.toNat || 2 < code then s
      else if code = 0 then
        ((s.dropSend p inst).modSeen p (fun v => { v with acked := v.acked || v.last == some inst })).ackContent w
      else
        let s := match w.tract with
          | some t => w.segs.foldl (fun (s : State) (g : Segment) => s.hear t w.key (w.dmod, g.hdr.dtract)) s
          | none => s
        let s := ((s.returnContent p w).bumpReg (xsReg p) 31 16 1).bumpReg (xsReg p) 47 32 1
        if code = 2 then s.emit { s.record .slotMismatch 14 15 with pqk := 1, pq := p.val } else s

/-- An exchange of a tract ends with LINK_FAULT (R230); RANK's exchanges end its entry. -/
def State.linkFaultOf (s : State) (t : Tract) (k : XKey) : State :=
  match s.exchOf t k with
  | none => s
  | some x =>
    if k.xk ≤ 4 then s.xferEnd x 15
    else
      let q := engQueue t .transit
      let s := (s.xferDrop x).modTxfer t (fun v => { v with ranks := v.ranks.filter (fun y => !(y.layer = k.layer && y.mb = k.mb)) })
      match (s.queue q).entries.find? (fun e => e.id = x.entry) with
      | some e => s.completeEntry q e 15 (some (s.recordQ .transitFault 10 q))
      | none => s

/-- Every exchange with an unacknowledged instance on a port completes with LINK_FAULT; content whose delivery is unknown is not sent
again (R230, R358). -/
def State.linkFaults (s : State) (p : Port) : State :=
  let l : List SlotSend := (s.sendsOf p).filter (fun w => w.phase == .sent)
  let s := s.setSends p ((s.sendsOf p).filter (fun w => w.phase != .sent))
  l.foldl (fun s w => match w.tract with
    | some t => s.linkFaultOf t w.key
    | none => s) s

end Sys2Proof.Machine
end

