-- ==== Sys2Proof/Machine/Links.lean ====
section
/-!
DEFINITION. Link ports (R346 to R358): training, PARAM, flits and their retry, credits, ports that go down; what a failed link does to
exchanges and to memory traffic (R230, R273).
-/
namespace Sys2Proof.Machine

def linkStatR (p : Port) : RegKey := modRegI .linkStat p.val
def linkCtlR (p : Port) : RegKey := modRegI .linkCtl p.val

/-- A record of a port die about a port (R412). -/
def State.portRecord (s : State) (cls : RecClass) (p : Port) : ErrRec := { s.record cls 14 15 with pqk := 1, pq := p.val }

/-- LINK_STAT.STATE changes, with its vector (R366). -/
def State.setPort (s : State) (p : Port) (st : Nat) : State :=
  if s.portState p.val = st then s else (s.setRegBits (linkStatR p) 2 0 st).msix 49

/-- MAPSUM: the first 8 bytes of the digest of JOB_MAP (R356). -/
def State.mapsum (s : State) : Nat :=
  bitsOf (Config.sha384 ((List.range 64).flatMap (fun i => natLe 8 (s.reg (modRegI .jobMap i))))).toNat 383 320

/-- The PARAM message the module sends on a port (R355, R356). -/
def State.ownParam (s : State) (p : Port) : ParamMsg :=
  { smod := s.job.moduleId.toNat, sport := p.val, jobId := s.reg (modReg .linkJob), modNum := s.job.moduleId.toNat, flow6 := s.flow6,
    epoch := s.fabric.epoch, crMem := if s.flow6 then 2048 else 4096, crRsp := if s.flow6 then 2048 else 0, crMgmt := 256,
    mapsum := s.mapsum }

/-- Whether a partner's PARAM admits UP: the same nonzero JOB_ID, the same FLOW6 and MAPSUM (R357). -/
def State.paramFits (s : State) (m : ParamMsg) : Bool :=
  m.jobId != 0 && m.jobId == s.reg (modReg .linkJob) && m.flow6 == s.flow6 && m.mapsum == s.mapsum

/-- A port takes its partner's PARAM: PEER, PPORT, and UP or FOREIGN (R357). -/
def State.judgePort (s : State) (p : Port) (m : ParamMsg) : State :=
  let s := (s.modLink p (fun l => { l with param := some m })).setRegBits (linkStatR p) 19 8 m.smod
  (s.setRegBits (linkStatR p) 23 20 m.sport).setPort p (if s.paramFits m then 5 else 6)

/-- The module's identity has changed: PARAM goes out again on every trained port, and each is judged again (R357). -/
def State.linksReeval (s : State) : State :=
  (List.finRange 16).foldl (fun (s : State) (p : Port) =>
    if s.portState p.val < 5 then s
    else
      let s := s.send (.param p (s.ownParam p))
      match (s.link p).param with
      | some m => s.judgePort p m
      | none => s) s

/-- Whether a port has what it needs to train: the reference, and its side's rail (R376, R468). -/
def State.portPowered (s : State) (p : Port) : Bool :=
  !s.coasting && !s.up.boot.bad.contains (if p.val < 8 then .vportW else .vportE)

/-- Whether a port may train: the module is READY or later and powers it, it is enabled, and it has not gone down with AUTO 0 (R357, R358). -/
def State.mayTrain (s : State) (p : Port) : Bool :=
  s.job.state.trains && s.portPowered p && s.regBits (linkCtlR p) 0 0 == 1 && !(s.link p).parked

/-- Training passes from DETECT through TRAIN and ALIGN to PARAM, and no stage is left out (R357). -/
def State.trainTo (s : State) (p : Port) (n : Nat) : State :=
  [1, 2, 3, 4].foldl (fun (s : State) (k : Nat) => if s.portState p.val < k ∧ k ≤ n then s.setPort p k else s) s

/-- LINK_DETECT: a port that may train looks for its partner. Whether the partner answers, and which stage short of the end training has reached
10 ms later, is a free value; a port whose partner does not answer is in DETECT (R357). -/
def execLinkDetect (p : Port) (s : State) : Result :=
  .next <|
    if !s.mayTrain p || 5 ≤ s.portState p.val then s
    else if s.portState p.val = 0 then s.setPort p 1
    else
      let n := s.freeVal.toNat % 4 + 1
      if n ≤ s.portState p.val then s.takeFree.setPort p n else s.takeFree.trainTo p n

/-- LINK_UP: training ends; SEQ and credits start afresh and the port enters UP or FOREIGN (R357). -/
def execLinkUp (p : Port) (m : ParamMsg) (s : State) : Result :=
  .next <|
    if !s.mayTrain p || s.portState p.val = 0 || 5 ≤ s.portState p.val then s
    else
      let s := (s.trainTo p 4).modLink p (fun l => { LinkPort.reset with failed := l.failed })
      (s.judgePort p m).send (.param p (s.ownParam p))

/-- A port has gone down, and its receive buffer starts afresh: nothing that came by it fills that buffer any more (R267, R358). -/
def State.forgetBuffer (s : State) (p : Port) : State :=
  { s with
    fabs := s.fabs.map (fun (q : Tract × TractFab) => (q.1, { q.2 with
      inbox := q.2.inbox.map (fun (m : InReq) => if m.port = p then { m with credit := false } else m) }))
    links := s.links.map (fun (q : Port × LinkPort) => (q.1, { q.2 with
      tx := q.2.tx.map (fun (v : Nat × List TxMsg) => (v.1, v.2.map (fun m => if m.via = some p then { m with via := none } else m))) })) }

/-- Operations whose request or response was on a failed link complete with LINK, the module's own and those it relays; one record counts
them (R273). -/
def State.memLost (s : State) (p : Port) : State :=
  let own := allTracts.flatMap (fun t => ((s.fab t).ra.filter (fun e => match e.stage with
    | .away ps => ps.contains p.val
    | _ => false)).map (fun e => (t, e.gen)))
  let s := own.foldl (fun s q => s.setEntry q.1 q.2 (fun e => { e with stage := .answered (statusResponse 5) })) s
  let lost := s.relayed.filter (fun r => r.outPort = p.val)
  let s := { s with relayed := s.relayed.filter (fun r => r.outPort ≠ p.val && r.inPort ≠ p.val) }
  let s := lost.foldl (fun s r =>
    if h : r.inPort < 16 then (if r.inPort = p.val then s else s.send (.memory ⟨r.inPort, h⟩ (rspMsg r.msg (statusResponse 5)))) else s) s
  s.emit { s.portRecord .fabLinkLost p with detail := detailWords [own.length + lost.length] }

/-- A port goes down: exchanges and memory traffic fail, its buffers are discarded, the cause and the record are left, and with
AUTO it trains again (R358); with AUTO 0 it stays down. -/
def State.dropPort (s : State) (p : Port) (cause : Nat) : State :=
    let auto := s.regBits (linkCtlR p) 2 2
    let s := (s.setRegBits (linkStatR p) 7 4 cause).raise (linkStatR p) 3
    let s := s.setPort p (if s.portPowered p then auto &&& s.regBits (linkCtlR p) 0 0 else 0)
    let s := (s.linkFaults p).memLost p
    let s := (s.link p).tx.foldl (fun s v => s.leaveBuffers v.1 v.2) s
    let s := (s.forgetBuffer p).modLink p (fun _ => { LinkPort.reset with failed := true, parked := auto == 0 })
    s.emit { s.portRecord .linkDown p with detail := detailWords [cause] }

/-- A trained port goes down; one that is not trained is down already. -/
def State.takeDown (s : State) (p : Port) (cause : Nat) : State := if s.portState p.val < 5 then s else s.dropPort p cause

/-- PORT_DOWN: a lane has lost lock or signal for more than 1 us (R347, R358). -/
def execPortDown (p : Port) (s : State) : Result := .next (s.takeDown p 1)

/-- RESEND_LIMIT: one SEQ has been resent 8 times (R350). -/
def execResendLimit (p : Port) (seq : Nat) (s : State) : Result :=
  .next (if (s.link p).retry.any (fun f => f.seq = seq && 8 ≤ f.resent) then s.takeDown p 2 else s)

/-- ACK_PROGRESS_TIMEOUT: RXSEQ has not advanced for 20 us while flits are unacknowledged (R350). -/
def execAckProgressTimeout (p : Port) (s : State) : Result :=
  .next (if (s.link p).retry.isEmpty then s else s.takeDown p 3)

/-- WINDOW_FULL_TIMEOUT: the window has been full for 20 us (R350). -/
def execWindowFullTimeout (p : Port) (s : State) : Result :=
  .next (if (s.link p).retry.length < 2048 then s else s.takeDown p 3)

/-- SLOT_ACK_TIMEOUT: no acknowledgement of an instance within 4 us; the link has failed (R230). -/
def execSlotAckTimeout (p : Port) (inst : Nat) (s : State) : Result :=
  .next (match s.sendAt p inst with
    | some w => if w.phase == .sent then s.takeDown p 4 else s
    | none => s)

/-- FRAME_INCOMPLETE_TIMEOUT: a CONTENT frame whose flits are incomplete 4 us after its instance is discarded (R353). -/
def execFrameIncompleteTimeout (p : Port) (inst : Nat) (s : State) : Result :=
  .next <|
    let bs := (s.link p).rx.get 0 []
    if bs.isEmpty || (16 ≤ bs.length && fieldAt bs 8 8 != inst) then s
    else s.modLink p (fun l => { l with rx := l.rx.put 0 [] })

/-- The whole messages at the head of a stream, and what is left of it; padding carries nothing (R352, R354, R356). -/
def takeMessages (vc : Nat) : Nat → List Byte → List (List Byte) × List Byte
  | 0, bs => ([], bs)
  | fuel + 1, bs =>
    match messageSize vc bs with
    | none => ([], bs)
    | some k =>
      if bs.length < k then ([], bs)
      else
        let r := takeMessages vc fuel (bs.drop k)
        (if fieldAt bs 0 1 = 0 then r.1 else bs.take k :: r.1, r.2)

/-- A payload reaches its stream; the management messages that are now whole are passed on. Credits go back as what filled the receive buffer
leaves it: a memory message as its home agent accepts it or as it leaves by another port, a management message as it is passed on (R267, R355). -/
def LinkPort.deliver (l : LinkPort) (vc : Nat) (data : List Byte) : LinkPort × List (List Byte) :=
  let bs := l.rx.get vc [] ++ data
  let r := takeMessages vc bs.length bs
  ({ l with rx := l.rx.put vc r.2 }, if vc = 3 then r.1 else [])

/-- Flits held are delivered as long as the next SEQ is there (R349). -/
def LinkPort.drain : Nat → LinkPort → List (List Byte) → LinkPort × List (List Byte)
  | 0, l, ms => (l, ms)
  | fuel + 1, l, ms =>
    match l.held.find? (fun h => h.1 = l.next) with
    | none => (l, ms)
    | some h =>
      let r := { l with held := l.held.filter (fun x => x.1 ≠ h.1), next := (l.next + 1) % 4096 }.deliver h.2.1 h.2.2
      LinkPort.drain fuel r.1 (ms ++ r.2)

/-- The hop count in the reserved bits of a management message's header; those bits with another count (R256, R356). Its place is a free constant
(assumption log 47). -/
def mgmtHop (bits : Nat) : Nat := bitsOf bits (Config.mgmtHopAt.val + 3) Config.mgmtHopAt.val
def mgmtSetHop (bits hop : Nat) : Nat := setBits bits (Config.mgmtHopAt.val + 3) Config.mgmtHopAt.val hop

/-- A BOUNDARY message for another module is relayed by the module's own route table, up to the hop limit, from a port that is UP (R256, R356);
every other message acts as its own command says. A message that is not relayed leaves the receive buffer at once (R267). -/
def State.relayMgmt (s : State) (p : Port) (m : List Byte) : State :=
  let dmod := fieldAt m 4 2 % 4096
  let bits := fieldAt m 6 10
  let taken := s.giveUnits p 3 (ceilDiv m.length 64)
  if s.portState p.val ≠ 5 || fieldAt m 0 1 ≠ 3 || dmod = s.job.moduleId.toNat || 15 ≤ mgmtHop bits + 1 then taken
  else
    match s.mgmtPort dmod with
    | some o => s.sendFrom (some p) (.relayed o (m.take 6 ++ natLe 10 (mgmtSetHop bits (mgmtHop bits + 1)) ++ m.drop 16))
    | none => taken

/-- FLIT_RECEIVE: a flit that is uncorrectable, fails its CRC or has a reserved value is discarded whole; a sequenced one is taken in SEQ
order, a CTRL flit acts as CTRL_FLIT says (R348, R349). -/
def execFlitReceive (p : Port) (f : Flit) (s : State) : Result :=
  .next <|
    if s.portState p.val < 5 then s
    else if !(f.fec0 && f.fec1) then s.bumpReg (linkStatR p) 63 48 (b2n (!f.fec0) + b2n (!f.fec1))
    else
      let w := fieldAt f.bytes 0 2
      let seq := bitsOf w 11 0
      let vc := bitsOf w 14 12
      if f.bytes.length ≠ 1285 || bitOf w 15 || 4 < vc || flitCrc f.bytes ≠ fieldAt f.bytes 2 3 then s
      else if vc = 4 then s
      else
        let l := s.link p
        if 2048 ≤ (seq + 4096 - l.next) % 4096 || l.held.any (fun h => h.1 = seq) then s
        else
          let r := LinkPort.drain 2049 { l with held := l.held ++ [(seq, vc, f.bytes.drop 5)] } []
          r.2.foldl (fun (s : State) m => s.relayMgmt p m) (s.modLink p (fun _ => r.1))

/-- CTRL_FLIT: the retry buffer is freed up to RXSEQ, credits return, and each SEQ named that was not resent within 200 ns is to be
resent (R349, R350). -/
def execCtrlFlit (p : Port) (f : CtrlFlit) (s : State) : Result :=
  .next <|
    if s.portState p.val < 5 then s
    else s.modLink p (fun l =>
      let left := l.retry.filter (fun x => 2048 ≤ (f.rxseq % 4096 + 4096 - x.seq) % 4096)
      let ask := (f.retry.take 32).filter (fun q => !l.again.contains q &&
        left.any (fun x => x.seq = q && (x.resent = 0 || x.last + 200 ≤ s.mtime)))
      { l with retry := left, again := l.again.filter (fun q => left.any (fun x => x.seq = q)) ++ ask
               back := { mem := f.crMem, rsp := f.crRsp, mgmt := f.crMgmt }, rxseq := f.rxseq % 4096 })

/-- Credits left for a VC (R355): MREQ and MRSP share one pool in native mode. -/
def LinkPort.creditsFor (l : LinkPort) (vc : Nat) : Nat :=
  let left (pool used back : Nat) : Nat := pool - (used + 65536 - back) % 65536
  match l.param with
  | none => 0
  | some m =>
    match vc with
    | 1 => left m.crMem l.used.mem l.back.mem
    | 2 => if m.flow6 then left m.crRsp l.used.rsp l.back.rsp else left m.crMem l.used.mem l.back.mem
    | _ => left m.crMgmt l.used.mgmt l.back.mgmt

/-- A message of a VC takes n credits. -/
def LinkPort.takeCredits (l : LinkPort) (vc n : Nat) : LinkPort :=
  let u := l.used
  { l with used := match vc with
    | 1 => { u with mem := (u.mem + n) % 65536 }
    | 2 => match l.param with
      | some m => if m.flow6 then { u with rsp := (u.rsp + n) % 65536 } else { u with mem := (u.mem + n) % 65536 }
      | none => u
    | _ => { u with mgmt := (u.mgmt + n) % 65536 } }

/-- Whether message b of the memory request stream must stay behind message a: both of one source, to one line, or in destination order to one
target parcel (R262, R264). -/
def msgBehind (a b : List Byte) : Bool :=
  let unit : Nat := if bitOf (fieldAt b 1 1) 1 then 2 ^ 37 else 128
  fieldAt a 4 2 == fieldAt b 4 2 && fieldAt a 8 8 / unit == fieldAt b 8 8 / unit

/-- Whether the next memory message of a port is an eighth turn, which with FLOW6 is the oldest's (R279). -/
def LinkPort.eldest (l : LinkPort) : Bool := (l.param.map (fun m => m.flow6)).getD false && l.turns % 8 == 7

/-- The message a VC starts next, and those that stay: of the memory requests a mark operation goes ahead of the others (R285), but at an eighth
turn (R279). -/
def nextMessage (eldest : Bool) (vc : Nat) (q : List TxMsg) : Option (TxMsg × List TxMsg) :=
  let ahead := q.zipIdx.find? (fun x => vc == 1 && !eldest && fieldAt x.1.data 0 1 % 16 == 5 &&
    (q.take x.2).all (fun a => !msgBehind a.data x.1.data))
  match ahead, q with
  | some x, _ => some (x.1, q.take x.2 ++ q.drop (x.2 + 1))
  | none, m :: rest => some (m, rest)
  | none, [] => none

/-- The VCs in the order in which a port serves them: slot content, MGMT, MRSP, MREQ (R351). At an eighth turn of the memory messages the stream
whose next message is older goes before the other (R279); one whose message is under way goes on with it. -/
def LinkPort.vcOrder (l : LinkPort) : List Nat :=
  let head (vc : Nat) : Option Nat := if (l.cur.get vc []).isEmpty then (l.tx.get vc []).head?.map (fun m => m.stamp) else none
  match head 1, head 2 with
  | some a, some b => if l.eldest && a < b then [0, 3, 1, 2] else [0, 3, 2, 1]
  | _, _ => [0, 3, 2, 1]

/-- Messages start while the flit has room and there are credits; a frame fills its flits alone (R351, R352, R355). -/
def LinkPort.fill (vc : Nat) : Nat → LinkPort → LinkPort
  | 0, l => l
  | fuel + 1, l =>
    let cur := l.cur.get vc []
    if 1280 ≤ cur.length then l
    else
      match nextMessage l.eldest vc (l.tx.get vc []) with
      | none => l
      | some (m, rest) =>
        let n := ceilDiv m.data.length 64
        let started (l : LinkPort) : LinkPort := { l with
          cur := l.cur.put vc (cur ++ m.data), tx := l.tx.put vc rest, turns := l.turns + b2n (vc == 1 || vc == 2) }
        if vc = 0 then (if cur.isEmpty then started l else l)
        else if n ≤ l.creditsFor vc then LinkPort.fill vc fuel ((started l).takeCredits vc n)
        else l

/-- The CTRL flit a port sends: what it has received, the credits it returns, the SEQs it misses (R349). -/
def LinkPort.ctrl (l : LinkPort) : CtrlFlit :=
  let far := (l.held.map (fun h => (h.1 + 4096 - l.next) % 4096)).foldl max 0
  let missing := ((List.range far).map (fun i => (l.next + i) % 4096)).filter (fun q => l.held.all (fun h => h.1 ≠ q))
  { rxseq := (l.next + 4095) % 4096, crMem := l.given.mem, crRsp := l.given.rsp, crMgmt := l.given.mgmt, retry := missing.take 32 }

/-- Whether a guard runs now (R224). -/
def State.inGuard (s : State) : Bool := s.plan.stepped && decide (s.plan.start ≤ s.mtime ∧ 992 ≤ (s.mtime - s.plan.start) % 1024)

/-- FLIT_SEND: the port sends the first item it has: a resent flit, slot content, MGMT, MRSP, MREQ, a CTRL flit; in the guard, and once
in 320 flit times, a CTRL flit (R350, R351). The messages that start leave the buffers of the ports they came by (R267). -/
def execFlitSend (p : Port) (s : State) : Result :=
  .next <|
    if s.portState p.val < 5 then s
    else
      let l := s.link p
      let ctrl : State := (s.send (.flit p (flitBytes 0 4 (ctrlPayload l.ctrl)))).modLink p (fun l => { l with quiet := 0 })
      if s.inGuard then ctrl
      else
        match l.again, l.retry.find? (fun x => l.again.head? = some x.seq) with
        | _ :: rest, some x =>
          let s := (s.send (.flit p (flitBytes x.seq x.vc x.data))).bumpReg (linkStatR p) 47 32 1
          s.modLink p (fun l => { l with
            again := rest, quiet := l.quiet + 1
            retry := l.retry.map (fun y => if y.seq = x.seq then { y with resent := y.resent + 1, last := s.mtime } else y) })
        | _, _ =>
          let has (vc : Nat) : Bool := !((LinkPort.fill vc 1281 l).cur.get vc []).isEmpty
          if 2048 ≤ l.retry.length then ctrl
          else
            match l.vcOrder.find? has with
            | none => ctrl
            | some vc =>
              if vc ≠ 0 && 319 ≤ l.quiet then ctrl
              else
                let l' := LinkPort.fill vc 1281 l
                let bs := l'.cur.get vc []
                let data := fit 1280 bs
                let begun := (l.tx.get vc []).filter (fun m => (l'.tx.get vc []).all (fun x => x.stamp ≠ m.stamp))
                let s := (s.send (.flit p (flitBytes l.seq vc data))).modLink p (fun _ => { l' with
                  cur := l'.cur.put vc (bs.drop 1280), seq := (l.seq + 1) % 4096, quiet := l.quiet + 1
                  retry := l.retry ++ [{ seq := l.seq, vc := vc, data := data, resent := 0, last := s.mtime }] })
                s.leaveBuffers vc begun

/-- PARAM: a trained port takes a new PARAM of its partner and is judged again (R357). -/
def execParam (p : Port) (m : ParamMsg) (s : State) : Result := .next (if s.portState p.val < 5 then s else s.judgePort p m)

/-- DOWNREQ: the partner takes the port down (R356). -/
def execDownreq (p : Port) (s : State) : Result := .next (s.takeDown p 5)

/-- Software writes 1 to DOWN: DOWNREQ goes out and the port goes down with cause HOST (R358). -/
def State.linkDownPut (s : State) (p : Port) : State :=
  if s.portState p.val < 5 then s else (s.send (.downreq p)).takeDown p 6

/-- LINK_CTL_DOWN (R358). -/
def execLinkCtlDown (p : Port) (s : State) : Result := .next (s.atReg (linkCtlR p) 4 (fun s => s.linkDownPut p))

/-- ABORT_NOTICE: a module of the job has aborted its step; a notice that arrives while no step runs is ignored (R421). The command names no port:
it stands for a message that came by a port that is UP, and is without effect where none is (R357, assumption log 72). -/
def execAbortNotice (smod : Nat) (seq : Nat) (s : State) : Result :=
  .next <|
    if s.job.state == .armed && s.anyUp && s.errs.running && s.errs.abort.isNone then
      { s with errs := { s.errs with abort := some (.notice smod seq) } }
    else s

end Sys2Proof.Machine
end

