-- ==== Sys2Proof/Machine/Ring.lean ====
section
/-!
DEFINITION. The meridian ring (R359 to R362): TIME and SIDE frames, locking, holdover, masters and the TIMEXFER exchange.
-/
namespace Sys2Proof.Machine

def merCtl : RegKey := modReg .merCtl
def merStat : RegKey := modReg .merStat

/-- Whether the module is a master of its ring (MER_CTL.ROLE). -/
def State.isMaster (s : State) : Bool := s.regBits merCtl 1 0 != 0

/-- MER_STAT.STATE changes, with its vector (R366). -/
def State.setRing (s : State) (st : Nat) : State :=
  if s.regBits merStat 1 0 = st then s else (s.setRegBits merStat 1 0 st).msix 49

/-- Whether the bypass is open: the module is READY or later, JOIN is 1, it is LOCKED, and it has joined, or holds over (R361). -/
def State.ringOpen (s : State) : Bool :=
  s.job.state.trains && s.regBits merCtl 6 6 == 1 && s.regBits merStat 2 2 == 1 && 2 ≤ s.regBits merStat 1 0

/-- Whether the module listens to the ring: from step 6 of its boot on (R361, R391, R393). -/
def State.ringHears (s : State) : Bool := s.job.state.trains || (s.job.state == .boot && s.regBits (modReg .bootStat) 3 0 == 6)

/-- INDLY in ps: MER_CTL counts 100 ps. -/
def State.indly (s : State) : Nat := 100 * s.regBits merCtl 22 7

/-- The meridian time of a TIME frame's arrival (R360). -/
def State.frameTime (s : State) (f : TimeFrame) : Nat := (f.mt * 1000 + f.corr + s.indly) / 1000 % 2 ^ 64

/-- A difference of two times in ns, as a signed number. -/
def timeDiff (a b : Nat) : Int := (a : Int) - (b : Int)

/-- A signed number in 16 bits. -/
def signed16 (v : Int) : Nat := (v % 65536).toNat

/-- Forwards a TIME frame: CORR grows by INDLY and by the residence time, which the spec does not fix (R359). The closed bypass passes it as it
came (R463). -/
def State.forwardTime (s : State) (f : TimeFrame) : State :=
  if !s.ringOpen then s.send (.ring (timeFrameBytes f))
  else s.takeFree.send (.ring (timeFrameBytes
    { f with hop := (f.hop + 1) % 256, corr := (f.corr + s.indly + s.freeVal.toNat % 2 ^ 32) % 2 ^ 64 }))

/-- A member takes the time of a frame of its master (R360): after three frames in a row that agree within 5 ns it is LOCKED, and joins
where JOIN is set. -/
def State.takeTime (s : State) (f : TimeFrame) : State :=
  let t := s.frameTime f
  let d := timeDiff t s.mtime
  let n := if s.meridian.agree = 0 then 1 else if d.natAbs ≤ 5 then s.meridian.agree + 1 else 1
  let s := { s with mtime := t, meridian := { s.meridian with agree := n, master := some f.master } }
  let s := s.setRegBits merStat 31 16 (signed16 d)
  let s := if 3 ≤ n then s.setRegBits merStat 2 2 1 else s
  let locked := s.regBits merStat 2 2 == 1
  s.setRing (if !locked then 1 else if s.regBits merCtl 6 6 == 1 then 2 else 0)

/-- TIME_FRAME: a TIME frame arrives. A master checks its own frames come home with the loop's delay; a frame of a master other than
the module's own sets DUAL_MASTER (R360, R361). A joined module forwards every frame but its own, also while the PLLs coast, when its time stays in
holdover (R359, R376). A frame that the open bypass does not forward ends here; the closed one passes every frame as it came, also the one that
locks the module. -/
def execTimeFrame (f : TimeFrame) (s : State) : Result :=
  .next <|
    if !f.valid || !s.ringHears then (if s.ringOpen then s else s.forwardTime f)
    else if s.isMaster then
      if f.master ≠ s.job.moduleId.toNat then (s.raise merStat 4).forwardTime f
      else
        let home := if 10 < (timeDiff (s.frameTime f) s.mtime).natAbs then s.raise merStat 5 else s
        if s.ringOpen then home else home.forwardTime f
    else
      match s.meridian.master with
      | some m =>
        if m ≠ f.master then (s.raise merStat 4).forwardTime f
        else if s.coasting then s.forwardTime f
        else (s.forwardTime f).takeTime f
      | none => if s.coasting then s.forwardTime f else (s.forwardTime f).takeTime f

/-- SIDE_FRAME: a frame addressed to the module is removed, and a broadcast by its source; others are forwarded (R359), and the closed bypass passes
every frame (R463). -/
def execSideFrame (f : SideFrame) (s : State) : Result :=
  .next <|
    let own := s.job.moduleId.toNat
    if s.ringOpen && (f.dmod == own || (f.dmod == 0xFFF && f.smod == own)) then s else s.send (.ring (sideFrameBytes f))

/-- MASTER_TIME_SEND: the master sends a TIME frame at every multiple of 1 ms, once its bypass is open (R359, R361). -/
def execMasterTimeSend (s : State) : Result :=
  .next <|
    if s.isMaster && s.ringOpen then
      s.send (.ring (timeFrameBytes { hop := 0, master := s.job.moduleId.toNat, mt := s.mtime, corr := 0, valid := true }))
    else s

/-- The port a master takes its time from (MER_CTL.LPORT). -/
def State.timePort (s : State) : Port := ⟨s.regBits merCtl 5 2 % 16, Nat.mod_lt _ (by decide)⟩

/-- TIMEXFER_PERIOD: once per ms a master with ROLE 0b10 begins the exchange with the module at LPORT (R362). -/
def execTimexferPeriod (s : State) : Result :=
  .next <|
    if s.regBits merCtl 1 0 = 2 && s.portState s.timePort.val == 5 then
      let s := { s with meridian := { s.meridian with t1 := s.mtime, t2 := 0, t3 := 0, t4 := 0 } }
      s.send (.timexfer s.timePort { phase := 1, t1 := s.mtime, t2 := 0, t3 := 0, t4 := 0 })
    else s

/-- The offset of the four times (R362). -/
def xferOffset (t1 t2 t3 t4 : Nat) : Int := (timeDiff t2 t1 - timeDiff t4 t3) / 2

/-- TIMEXFER: the partner answers phases 1 and 3; the master notes t2, t3 and t4 at phase 2, and sets its offset at phase 4 (R362). -/
def execTimexfer (p : Port) (m : TimeXfer) (s : State) : Result :=
  .next <|
    if s.portState p.val ≠ 5 then s
    else
      let mine := s.regBits merCtl 1 0 == 2 && p == s.timePort && m.t1 == s.meridian.t1
      match m.phase with
      | 1 => s.send (.timexfer p { m with phase := 2, t2 := s.mtime, t3 := s.mtime })
      | 2 =>
        if mine then
          let s := { s with meridian := { s.meridian with t2 := m.t2, t3 := m.t3, t4 := s.mtime } }
          s.send (.timexfer p { m with phase := 3, t4 := s.mtime })
        else s
      | 3 => s.send (.timexfer p { m with phase := 4 })
      | 4 =>
        if mine then
          let r := s.meridian
          let d := xferOffset r.t1 r.t2 r.t3 r.t4
          ({ s with mtime := (((s.mtime : Int) + d) % 2 ^ 64).toNat }).setRegBits merStat 31 16 (signed16 d)
        else s
      | _ => s

/-- HOLDOVER: a locked member has received no valid TIME frame for 2 ms (R361). -/
def execHoldover (s : State) : Result :=
  .next (if !s.isMaster && s.regBits merStat 2 2 == 1 then s.setRing 3 else s)

/-- TIME_LOST: 10 ms in holdover; the record is fatal to the step while the module is ARMED (R361). -/
def execTimeLost (s : State) : Result :=
  .next <|
    if s.regBits merStat 1 0 ≠ 3 then s
    else
      let r := s.recordM .meridianLost
      (s.raise merStat 3).emit { r with sev := if s.job.state == .armed then .step else .error }

end Sys2Proof.Machine
end

