-- ==== Sys2Proof/Machine/MarkHost.lean ====
section
/-!
DEFINITION. The host at the mark units: MARK_HWR and MARK_BCFG (R286, R293, R296).
-/
namespace Sys2Proof.Machine

/-- Whether a MARK_HWR set of a barrier word is a reserved encoding (R296). -/
def hwrBad (w : Word) (parts : Nat) : Bool := decide (parts ≤ barArrived w ∨ parts < barAhead w)

/-- A set or an enable rewrites the whole 16-byte unit of a mark's word and unfreezes the mark; the other words of the unit are frozen
where they had been damaged (R297). -/
def State.rewriteMark (s : State) (p : ParcelId) (n : BitVec 10) (w : Word) : State :=
  let u := markKey p n / 16 * 16
  let others := (List.range 4).map (fun i => BitVec.ofNat 10 (n.toNat / 4 * 4 + i))
  let s := (others.filter (fun m => m ≠ n && s.markDamaged p m)).foldl (fun s m => s.freeze p m) s
  let s := { s with mem := { s.mem with poison := s.mem.poison.erase u, par := outside u 16 s.mem.par } }
  (s.modParcel p (fun v => { v with frozen := v.frozen.filter (fun m => m ≠ n) })).putMark p n w

/-- A write of MARK_HWR that R7 lets pass: the host adds to a mark or sets its word, as one update; held arrivals are evaluated again (R292, R296,
R297). -/
def State.markHwrAct (s : State) (p : ParcelId) (value : DWord) : State :=
  let n : BitVec 10 := value.setWidth 10
  let v : Word := (value >>> 32).setWidth 32
  if bitOf value.toNat 10 then s.markAdd p n v
  else
    let s' := (s.rewriteMark p n v).releaseWaiters p n
    match s.barrierN p n with
    | none => s'
    | some parts => s'.barSettle p n parts ((s.parcel p).heldArr.length + 2)

/-- Whether a write of MARK_HWR puts a reserved encoding into it (R7, R296). -/
def State.markHwrBad (s : State) (p : ParcelId) (value : DWord) : Bool :=
  !bitOf value.toNat 10 && match s.barrierN p (value.setWidth 10) with
    | some parts => hwrBad ((value >>> 32).setWidth 32) parts
    | none => false

/-- A write of MARK_HWR: a reserved encoding is discarded whole; else the low half is the one last written, and the write acts (R7, R296, R444). -/
def State.markHwrPut (s : State) (p : ParcelId) (value : DWord) (size : Nat) : State :=
  if s.markHwrBad p value then s.badValue (parcelReg .markHwr p) value.toNat size
  else (s.modParcel p (fun w => { w with hwrLow := value.setWidth 32 })).markHwrAct p value

/-- MARK_HWR (R296). -/
def execMarkHwr (p : ParcelId) (value : DWord) (s : State) : Result :=
  .next (s.atReg (parcelReg .markHwr p) 8 (fun s => s.markHwrPut p value 8))

/-- The marks SMARK and EMARK of every tract, in its parcel 0 (R215). -/
def State.smark (s : State) : BitVec 10 := BitVec.ofNat 10 (s.regBits (modReg .stepCfg) 33 24)
def State.emark (s : State) : BitVec 10 := BitVec.ofNat 10 (s.regBits (modReg .stepCfg) 43 34)

/-- Whether anything waits on a mark: cores in MWAIT, MBAR or a SLEEP that watches it, chain entries, remote waits, held arrivals
(R293). -/
def State.markWaited (s : State) (p : ParcelId) (n : BitVec 10) : Bool :=
  (s.coresOf p).any (fun c => match (s.core c).wait with
    | some (.mwait m _) => m = n
    | some (.mbar m _ st _) => m = n && st != .releasing
    | some (.sleep _ mask _) => bitOf mask.toNat 3 && mask.extractLsb' 16 10 = n
    | _ => false) ||
    (s.parcel p).rwaits.any (fun r => r.mark = n) || (s.parcel p).heldArr.any (fun h => h.mark = n) ||
    s.engWaits.any (fun w => w.2.key = markKey p n && !w.2.met)

/-- The rules of R293 for the value a write of MARK_BCFG leaves. -/
def State.bcfgOk (s : State) (p : ParcelId) (b : Nat) (new : Nat) : Bool :=
  let old := s.reg (parcelRegI .markBcfg p b)
  let mk_ (v : Nat) : BitVec 10 := BitVec.ofNat 10 v
  let en (v : Nat) : Bool := bitOf v 10
  let w := s.markWord p (mk_ old)
  !(en new && bitsOf new 27 16 == 0) &&
    !(en new && (List.range 32).any (fun i => i != b && en (s.reg (parcelRegI .markBcfg p i)) &&
        mk_ (s.reg (parcelRegI .markBcfg p i)) == mk_ new)) &&
    !(en new && p.parcel.val == 0 && (mk_ new == s.smark || mk_ new == s.emark)) &&
    !(en old && new != old && (barArrived w != 0 || barAhead w != 0 || s.markWaited p (mk_ old))) &&
    !(en new && (!en old || mk_ old != mk_ new) && s.markWaited p (mk_ new))

/-- A write of MARK_BCFG that the rules let pass takes effect; enabling an entry sets its mark's word to 0 (R293). -/
def State.markBcfgPut (s : State) (p : ParcelId) (b : Nat) (v size : Nat) : State :=
  let k := parcelRegI .markBcfg p b
  let old := s.reg k
  let new := (s.writeResult k v).1
  if !s.bcfgOk p b new then s.badValue k v size
  else
    let s := s.setReg k new
    if bitOf new 10 && (!bitOf old 10 || bitsOf old 9 0 != bitsOf new 9 0) then s.rewriteMark p (BitVec.ofNat 10 new) 0 else s

/-- MARK_BCFG_WRITE (R293). -/
def execMarkBcfgWrite (p : ParcelId) (b : Fin 32) (value : DWord) (s : State) : Result :=
  .next (s.atReg (parcelRegI .markBcfg p b.val) 8 (fun s => s.markBcfgPut p b.val value.toNat 8))

end Sys2Proof.Machine
end

