-- ==== Sys2Proof/Machine/Scalar.lean ====
section
/-!
DEFINITION. The SCALAR class (R40, R41, R29): majors 0x01 to 0x06, 0x22, 0x23 and 0x26.
-/
namespace Sys2Proof.Machine

/-- Major 0x01: rd = op of rs1 and rs2. -/
def scalarR (i : Issue) (f : FmtR) (op : Word → Word → Word) (s : State) : Result :=
  .next (s.issueRegs i 4 false [.g f.rs1, .g f.rs2] (fun k => k.putG f.rd (op (k.getG f.rs1) (k.getG f.rs2))))

/-- Major 0x01 with one source; rs2 is not used and must be 0 (R38). -/
def scalarR1 (i : Issue) (f : FmtR) (op : Word → Word) (s : State) : Result :=
  .next (s.issueRegs i 4 (f.rs2 != 0) [.g f.rs1] (fun k => k.putG f.rd (op (k.getG f.rs1))))

/-- Majors 0x02: rd = op of rs1 and IMM8. -/
def scalarI (i : Issue) (f : FmtI) (bad : Bool) (op : Word → BitVec 8 → Word) (s : State) : Result :=
  .next (s.issueRegs i 4 bad [.g f.rs1] (fun k => k.putG f.rd (op (k.getG f.rs1) f.imm8)))

/-- Major 0x22: rd = op of rs1 and IMM32; IMM8 must be 0. -/
def scalarIX (i : Issue) (f : FmtIX) (op : Word → Word → Word) (s : State) : Result :=
  .next (s.issueRegs i 8 (f.imm8 != 0) [.g f.rs1] (fun k => k.putG f.rd (op (k.getG f.rs1) f.imm32)))

/-- The shift amount of a g-register: its low five bits (R40). -/
def shAmt (v : Word) : Nat := v.toNat % 32

/-- The number of leading zeros (CLZ). -/
def clz32 (v : Word) : Nat := firstIdx (fun i => v.getLsbD (31 - i)) (List.range 32)
/-- The number of 1 bits (POPC). -/
def popc32 (v : Word) : Nat := ((List.range 32).filter (fun i => v.getLsbD i)).length
/-- rs1 shifted right by rs2[4:0], masked to rs2[9:5] + 1 bits (EXTU). -/
def extu32 (x y : Word) : Word := BitVec.ofNat 32 (x.toNat / 2 ^ shAmt y % 2 ^ (bitsOf y.toNat 9 5 + 1))

def execAdd (i : Issue) (f : FmtR) (s : State) : Result :=
  s.asSpelled i (.add i f) <|
  scalarR i f (· + ·) s
def execSub (i : Issue) (f : FmtR) (s : State) : Result :=
  s.asSpelled i (.sub i f) <|
  scalarR i f (· - ·) s
def execAnd (i : Issue) (f : FmtR) (s : State) : Result :=
  s.asSpelled i (.and i f) <|
  scalarR i f (· &&& ·) s
def execOr (i : Issue) (f : FmtR) (s : State) : Result :=
  s.asSpelled i (.or i f) <|
  scalarR i f (· ||| ·) s
def execXor (i : Issue) (f : FmtR) (s : State) : Result :=
  s.asSpelled i (.xor i f) <|
  scalarR i f (· ^^^ ·) s
def execShl (i : Issue) (f : FmtR) (s : State) : Result :=
  s.asSpelled i (.shl i f) <|
  scalarR i f (fun x y => x <<< shAmt y) s
def execShr (i : Issue) (f : FmtR) (s : State) : Result :=
  s.asSpelled i (.shr i f) <|
  scalarR i f (fun x y => x >>> shAmt y) s
def execSra (i : Issue) (f : FmtR) (s : State) : Result :=
  s.asSpelled i (.sra i f) <|
  scalarR i f (fun x y => x.sshiftRight (shAmt y)) s
def execMul (i : Issue) (f : FmtR) (s : State) : Result :=
  s.asSpelled i (.mul i f) <|
  scalarR i f (· * ·) s
def execMulhu (i : Issue) (f : FmtR) (s : State) : Result :=
  s.asSpelled i (.mulhu i f) <|
  scalarR i f (fun x y => BitVec.ofNat 32 (x.toNat * y.toNat / 2 ^ 32)) s
def execMulhs (i : Issue) (f : FmtR) (s : State) : Result :=
  s.asSpelled i (.mulhs i f) <|
  scalarR i f (fun x y => BitVec.ofInt 32 (x.toInt * y.toInt / 2 ^ 32)) s
def execMin (i : Issue) (f : FmtR) (s : State) : Result :=
  s.asSpelled i (.min i f) <|
  scalarR i f (fun x y => if x.slt y then x else y) s
def execMax (i : Issue) (f : FmtR) (s : State) : Result :=
  s.asSpelled i (.max i f) <|
  scalarR i f (fun x y => if x.slt y then y else x) s
def execMinu (i : Issue) (f : FmtR) (s : State) : Result :=
  s.asSpelled i (.minu i f) <|
  scalarR i f (fun x y => if x < y then x else y) s
def execMaxu (i : Issue) (f : FmtR) (s : State) : Result :=
  s.asSpelled i (.maxu i f) <|
  scalarR i f (fun x y => if x < y then y else x) s
def execClz (i : Issue) (f : FmtR) (s : State) : Result :=
  s.asSpelled i (.clz i f) <|
  scalarR1 i f (fun x => BitVec.ofNat 32 (clz32 x)) s
def execPopc (i : Issue) (f : FmtR) (s : State) : Result :=
  s.asSpelled i (.popc i f) <|
  scalarR1 i f (fun x => BitVec.ofNat 32 (popc32 x)) s
def execExtu (i : Issue) (f : FmtR) (s : State) : Result :=
  s.asSpelled i (.extu i f) <|
  scalarR i f extu32 s

def execAddi (i : Issue) (f : FmtI) (s : State) : Result :=
  s.asSpelled i (.addi i f) <|
  scalarI i f false (fun x m => x + sext32 m) s
def execAndi (i : Issue) (f : FmtI) (s : State) : Result :=
  s.asSpelled i (.andi i f) <|
  scalarI i f false (fun x m => x &&& m.setWidth 32) s
def execOri (i : Issue) (f : FmtI) (s : State) : Result :=
  s.asSpelled i (.ori i f) <|
  scalarI i f false (fun x m => x ||| m.setWidth 32) s
def execXori (i : Issue) (f : FmtI) (s : State) : Result :=
  s.asSpelled i (.xori i f) <|
  scalarI i f false (fun x m => x ^^^ m.setWidth 32) s
/-- A shift amount in IMM8[4:0]; IMM8[7:5] must be 0. -/
def immShiftBad (f : FmtI) : Bool := 32 ≤ f.imm8.toNat
def execShli (i : Issue) (f : FmtI) (s : State) : Result :=
  s.asSpelled i (.shli i f) <|
  scalarI i f (immShiftBad f) (fun x m => x <<< m.toNat) s
def execShri (i : Issue) (f : FmtI) (s : State) : Result :=
  s.asSpelled i (.shri i f) <|
  scalarI i f (immShiftBad f) (fun x m => x >>> m.toNat) s
def execSrai (i : Issue) (f : FmtI) (s : State) : Result :=
  s.asSpelled i (.srai i f) <|
  scalarI i f (immShiftBad f) (fun x m => x.sshiftRight m.toNat) s
def execMuli (i : Issue) (f : FmtI) (s : State) : Result :=
  s.asSpelled i (.muli i f) <|
  scalarI i f false (fun x m => x * sext32 m) s

def execAddi32 (i : Issue) (f : FmtIX) (s : State) : Result :=
  s.asSpelled i (.addi32 i f) <|
  scalarIX i f (· + ·) s
def execAndi32 (i : Issue) (f : FmtIX) (s : State) : Result :=
  s.asSpelled i (.andi32 i f) <|
  scalarIX i f (· &&& ·) s
def execOri32 (i : Issue) (f : FmtIX) (s : State) : Result :=
  s.asSpelled i (.ori32 i f) <|
  scalarIX i f (· ||| ·) s
def execXori32 (i : Issue) (f : FmtIX) (s : State) : Result :=
  s.asSpelled i (.xori32 i f) <|
  scalarIX i f (· ^^^ ·) s
def execMuli32 (i : Issue) (f : FmtIX) (s : State) : Result :=
  s.asSpelled i (.muli32 i f) <|
  scalarIX i f (· * ·) s
/-- rs1 must be 0. -/
def execLi (i : Issue) (f : FmtIX) (s : State) : Result :=
  s.asSpelled i (.li i f) <|
  .next (s.issueRegs i 8 (f.imm8 != 0 || f.rs1 != 0) [] (fun k => k.putG f.rd f.imm32))

/-- Compares: pd in rd[2:0], rd[4:3] 0; against rs2, or against IMM32 with rs2 = 0 (majors 0x03 and 0x23). -/
def compare (i : Issue) (f : FmtC) (op : Word → Word → Bool) (s : State) : Result :=
  match f.ext with
  | none =>
    .next (s.issueRegs i 4 (slotPBad f.rd) [.g f.rs1, .g f.rs2]
      (fun k => k.setP (slotP f.rd) (op (k.getG f.rs1) (k.getG f.rs2))))
  | some imm =>
    .next (s.issueRegs i 8 (slotPBad f.rd || f.rs2 != 0) [.g f.rs1]
      (fun k => k.setP (slotP f.rd) (op (k.getG f.rs1) imm)))

def execCeq (i : Issue) (f : FmtC) (s : State) : Result :=
  s.asSpelled i (.ceq i f) <|
  compare i f (fun x y => x == y) s
def execCne (i : Issue) (f : FmtC) (s : State) : Result :=
  s.asSpelled i (.cne i f) <|
  compare i f (fun x y => x != y) s
def execClt (i : Issue) (f : FmtC) (s : State) : Result :=
  s.asSpelled i (.clt i f) <|
  compare i f (fun x y => x.slt y) s
def execCltu (i : Issue) (f : FmtC) (s : State) : Result :=
  s.asSpelled i (.cltu i f) <|
  compare i f (fun x y => x.ult y) s
def execCge (i : Issue) (f : FmtC) (s : State) : Result :=
  s.asSpelled i (.cge i f) <|
  compare i f (fun x y => !x.slt y) s
def execCgeu (i : Issue) (f : FmtC) (s : State) : Result :=
  s.asSpelled i (.cgeu i f) <|
  compare i f (fun x y => !x.ult y) s

/-- Predicate logic: every slot names a predicate in its low three bits. -/
def predOp (i : Issue) (f : FmtR) (op : Bool → Bool → Bool) (s : State) : Result :=
  .next (s.issueRegs i 4 (slotPBad f.rd || slotPBad f.rs1 || slotPBad f.rs2) []
    (fun k => k.setP (slotP f.rd) (op (k.getP (slotP f.rs1)) (k.getP (slotP f.rs2)))))

def execPand (i : Issue) (f : FmtR) (s : State) : Result :=
  s.asSpelled i (.pand i f) <|
  predOp i f (fun x y => x && y) s
def execPor (i : Issue) (f : FmtR) (s : State) : Result :=
  s.asSpelled i (.por i f) <|
  predOp i f (fun x y => x || y) s
def execPxor (i : Issue) (f : FmtR) (s : State) : Result :=
  s.asSpelled i (.pxor i f) <|
  predOp i f (fun x y => x != y) s
def execPnot (i : Issue) (f : FmtR) (s : State) : Result :=
  s.asSpelled i (.pnot i f) <|
  .next (s.issueRegs i 4 (slotPBad f.rd || slotPBad f.rs1 || f.rs2 != 0) []
    (fun k => k.setP (slotP f.rd) (!k.getP (slotP f.rs1))))

/-- PC plus four times OFF22, in the 18 bits of PC. -/
def branchTarget (k : Core) (off : BitVec 22) : BitVec 18 := k.pc + (off.signExtend 32 * 4).setWidth 18

/-- The target is checked only when the instruction there is to execute (R41). -/
def execBr (i : Issue) (off : BitVec 22) (s : State) : Result :=
  s.asSpelled i (.br i off) <|
  .next (s.issue i 4 false [] (fun s => s.modCore i.core (fun k => { k with pc := branchTarget k off, wait := none })))
def execCall (i : Issue) (off : BitVec 22) (s : State) : Result :=
  s.asSpelled i (.call i off) <|
  .next (s.issue i 4 false [] (fun s => s.modCore i.core (fun k =>
    { k.putA 15 (k.pc.setWidth 64 + 4) with pc := branchTarget k off, wait := none })))

/-- Address operations: the slots in bad name a-registers whose high bit is reserved. -/
def addrOp (i : Issue) (bad : Bool) (reads : List CReg) (f : Core → Core) (s : State) : Result :=
  .next (s.issueRegs i 4 bad reads f)

def execAadd (i : Issue) (f : FmtR) (s : State) : Result :=
  s.asSpelled i (.aadd i f) <|
  addrOp i (slotABad f.rd || slotABad f.rs1) [.a (slotA f.rs1), .g f.rs2]
    (fun k => k.putA (slotA f.rd) (k.getA (slotA f.rs1) + sext64 (k.getG f.rs2))) s
def execAaddu (i : Issue) (f : FmtR) (s : State) : Result :=
  s.asSpelled i (.aaddu i f) <|
  addrOp i (slotABad f.rd || slotABad f.rs1) [.a (slotA f.rs1), .g f.rs2]
    (fun k => k.putA (slotA f.rd) (k.getA (slotA f.rs1) + (k.getG f.rs2).setWidth 64)) s
def execAmov (i : Issue) (f : FmtR) (s : State) : Result :=
  s.asSpelled i (.amov i f) <|
  addrOp i (slotABad f.rd || slotABad f.rs1 || f.rs2 != 0) [.a (slotA f.rs1)]
    (fun k => k.putA (slotA f.rd) (k.getA (slotA f.rs1))) s
def execAfromg (i : Issue) (f : FmtR) (s : State) : Result :=
  s.asSpelled i (.afromg i f) <|
  addrOp i (slotABad f.rd || f.rs2 != 0) [.g f.rs1]
    (fun k => k.putA (slotA f.rd) ((k.getG f.rs1).setWidth 64)) s
def execAlog (i : Issue) (f : FmtR) (s : State) : Result :=
  s.asSpelled i (.alog i f) <|
  addrOp i (slotABad f.rs1 || f.rs2 != 0) [.a (slotA f.rs1)]
    (fun k => k.putG f.rd ((k.getA (slotA f.rs1)).setWidth 32)) s
def execAhig (i : Issue) (f : FmtR) (s : State) : Result :=
  s.asSpelled i (.ahig i f) <|
  addrOp i (slotABad f.rs1 || f.rs2 != 0) [.a (slotA f.rs1)]
    (fun k => k.putG f.rd ((k.getA (slotA f.rs1)).extractLsb' 32 32)) s
/-- The low half of a(rd) is kept, so a(rd) is read too. -/
def execAsethi (i : Issue) (f : FmtR) (s : State) : Result :=
  s.asSpelled i (.asethi i f) <|
  addrOp i (slotABad f.rd || f.rs2 != 0) [.g f.rs1, .a (slotA f.rd)]
    (fun k => k.putA (slotA f.rd) (k.getG f.rs1 ++ (k.getA (slotA f.rd)).setWidth 32)) s
def execAshl (i : Issue) (f : FmtR) (s : State) : Result :=
  s.asSpelled i (.ashl i f) <|
  addrOp i (slotABad f.rd || slotABad f.rs1) [.a (slotA f.rs1), .g f.rs2]
    (fun k => k.putA (slotA f.rd) (k.getA (slotA f.rs1) <<< ((k.getG f.rs2).toNat % 64))) s

/-- CCLK cycles in n AOCLK periods of 40 ns at a step: 8 + 2 * step each (R381; assumption log 2). -/
def cclkCycles (n step : Nat) : Nat := n * (8 + 2 * step)

/-- CYCLES of a parcel's cores: CCLK cycles since the last module reset, modulo 2^64 (R29, R395); while the PLLs coast every parcel runs
at 200 MHz (R375). -/
def State.cycles (s : State) (p : ParcelId) : DWord :=
  let h := (s.parcel p).health
  BitVec.ofNat 64 (h.cycBase + cclkCycles (s.ticks - h.cycSince) h.step + cclkCycles s.up.coastTicks 0)

/-- The 32-bit state registers (R29). -/
def State.stateReg32 (s : State) (c : CoreId) : Nat → Option Word
  | 0 => some (BitVec.ofNat 32 (c.core.val + c.parcel.val * 64 + c.tract.val * 2 ^ 17))
  | 1 => some (s.job.moduleId.setWidth 32)
  | 2 => some (match (s.parcel (coreParcel c)).plot with
    | some n => n.setWidth 32
    | none => 0x8000_0000)
  | 3 => some ((s.core c).progBase.setWidth 32)
  | 4 => some ((s.core c).progLimit.setWidth 32)
  | 9 => some ((s.core c).arriveSt.setWidth 32)
  | _ => none

/-- The 64-bit state registers (R29). -/
def State.stateReg64 (s : State) (c : CoreId) : Nat → Option DWord
  | 5 => some (s.cycles (coreParcel c))
  | 6 => some (BitVec.ofNat 64 s.mtime)
  | 7 => some (s.core c).arg0
  | 8 => some (s.core c).arg1
  | 10 => some s.job.step
  | _ => none

/-- GETS: a number not in the table, or a 64-bit register, is ILLEGAL (R29). -/
def execGets (i : Issue) (f : FmtR) (s : State) : Result :=
  s.asSpelled i (.gets i f) <|
  let v := s.stateReg32 i.core f.rs1.toNat
  .next (s.issueRegs i 4 (f.rs2 != 0 || v.isNone) [] (fun k => k.putG f.rd (v.getD 0)))
def execGetsa (i : Issue) (f : FmtR) (s : State) : Result :=
  s.asSpelled i (.getsa i f) <|
  let v := s.stateReg64 i.core f.rs1.toNat
  .next (s.issueRegs i 4 (f.rs2 != 0 || slotABad f.rd || v.isNone) [] (fun k => k.putA (slotA f.rd) (v.getD 0)))
/-- PUTS: the one register that is RW or W1C is ARRIVE_ST, W1C (R29). -/
def execPuts (i : Issue) (f : FmtR) (s : State) : Result :=
  s.asSpelled i (.puts i f) <|
  .next (s.issueRegs i 4 (f.rs2 != 0 || f.rd != 9) [.g f.rs1]
    (fun k => { k with arriveSt := k.arriveSt &&& ~~~((k.getG f.rs1).setWidth 8) }))

/-- JMP: PC = a(rs1)[17:0], whose low two bits must be 0; a JMP lets the buffer fetch anew (R56). The fault of its target comes before the
ILLEGAL of a reserved field (R476), where the JMP would be taken. -/
def execJmp (i : Issue) (f : FmtR) (s : State) : Result :=
  s.asSpelled i (.jmp i f) <|
  let rsv := f.rd != 0 || f.rs2 != 0
  .next (s.issue i 4 (slotABad f.rs1 || (rsv && !(s.core i.core).guardOk i.guard)) [.a (slotA f.rs1)] (fun s =>
    let t := (s.core i.core).getA (slotA f.rs1)
    if t.toNat % 4 ≠ 0 then s.raiseAt i.core { cause := .fetchFault }
    else if rsv then s.raiseAt i.core { cause := .illegal }
    else s.modCore i.core (fun k => { k with pc := t.setWidth 18, ibuf := [], wait := none })))

def execAaddi (i : Issue) (f : FmtRX) (s : State) : Result :=
  s.asSpelled i (.aaddi i f) <|
  .next (s.issueRegs i 8 (slotABad f.rd || slotABad f.rs1 || f.rs2 != 0) [.a (slotA f.rs1)]
    (fun k => k.putA (slotA f.rd) (k.getA (slotA f.rs1) + sext64 f.imm32)))
/-- The other half of a(rd) is kept; rs1 and rs2 are not used. -/
def execAlo (i : Issue) (f : FmtRX) (s : State) : Result :=
  s.asSpelled i (.alo i f) <|
  .next (s.issueRegs i 8 (slotABad f.rd || f.rs1 != 0 || f.rs2 != 0) [.a (slotA f.rd)]
    (fun k => k.putA (slotA f.rd) ((k.getA (slotA f.rd)).extractLsb' 32 32 ++ f.imm32)))
def execAhi (i : Issue) (f : FmtRX) (s : State) : Result :=
  s.asSpelled i (.ahi i f) <|
  .next (s.issueRegs i 8 (slotABad f.rd || f.rs1 != 0 || f.rs2 != 0) [.a (slotA f.rd)]
    (fun k => k.putA (slotA f.rd) (f.imm32 ++ (k.getA (slotA f.rd)).setWidth 32)))

end Sys2Proof.Machine
end

