-- ==== Sys2Proof/Machine/Snapshot.lean ====
section
/-!
DEFINITION. Snapshot images (R434 to R437): their sections, manifest, length, and the interval advice; the step of a parcel and the ageing
re-plan (R381, R432); what screening leaves (R430, R431).
-/
namespace Sys2Proof.Machine

/-- Bytes of a region of an image (R434). -/
def regionSize : Nat := 64 * 2 ^ 20

/-- Every parcel of the module, in tract and then logical parcel order. -/
def allParcels : List ParcelId := allTracts.flatMap (fun t => parcelRange t 0 1360)

/-- The bytes of a 64-bit value. -/
def le8 (v : Nat) : List Byte := natLe 8 v

/-- Section 2: each parcel's mark words and MARK_BCFG entries, padded to 128 MiB (R434). -/
def State.snapMarks (s : State) : List Byte :=
  fit (2 * regionSize) (allParcels.flatMap (fun p =>
    s.mem.read (commonsKey p markBase) 4096 ++ (List.range 32).flatMap (fun b => le8 (s.reg (parcelRegI .markBcfg p b)))))

/-- Section 3: the plan in force and the cadastre tables its layer records name. -/
def State.snapPlan (s : State) (p : PlanImage) : List Byte :=
  p.bytes ++ p.layers.flatMap (fun l => s.mem.read (l.cadGa % 2 ^ 52) (16 * l.e))

/-- The tensors a snapshot holds. -/
def PlanImage.kept (p : PlanImage) : List TensorRec := p.tensors.filter (fun r => r.snapt || r.shard)

/-- Section 4. -/
def State.snapTensors (s : State) (p : PlanImage) : List Byte :=
  p.kept.flatMap (fun r =>
    s.mem.read (r.ga % 2 ^ 52) (r.rows * r.rowbytes) ++ s.mem.read (r.scaleGa % 2 ^ 52) r.scaleBytes)

/-- Bytes of sections 2 to 4. -/
def snapBody (p : PlanImage) : Nat :=
  2 * regionSize + p.length + (p.layers.map (fun l => 16 * l.e)).sum +
    (p.kept.map (fun r => r.rows * r.rowbytes + r.scaleBytes)).sum

/-- Regions of an image, and the bytes of its manifest area (R434). -/
def snapRegions (p : PlanImage) : Nat := ceilDiv (snapBody p) regionSize
def manifestSize (nreg : Nat) : Nat := ceilDiv (256 + 48 * nreg) 4096 * 4096
/-- The length of an image. -/
def imageLength (p : PlanImage) : Nat := manifestSize (snapRegions p) + snapRegions p * regionSize

/-- The bytes of a digest. -/
def digest (bs : List Byte) : List Byte := natLe 48 (Config.sha384 bs).toNat

/-- The regions of a snapshot, the last padded with zeros. -/
def State.snapshotRegions (s : State) (p : PlanImage) : List (List Byte) :=
  let body := s.snapMarks ++ s.snapPlan p ++ s.snapTensors p
  chunksOf regionSize body.length (fit (snapRegions p * regionSize) body)

/-- The manifest area (R434). -/
def State.snapManifest (s : State) (p : PlanImage) (regions : List (List Byte)) : List Byte :=
  let head := natLe 4 0x5041_4E53 ++ natLe 4 1 ++ le8 (s.reg (modReg .linkJob)) ++ natLe 2 s.job.moduleId.toNat ++ natLe 2 16320 ++
    natLe 4 regions.length ++ le8 s.job.step.toNat ++ le8 p.planId ++ le8 (p.length + (p.layers.map (fun l => 16 * l.e)).sum) ++
    List.replicate 160 0
  let tail := fit (manifestSize regions.length - 256) (regions.flatMap digest)
  head ++ digest (head ++ tail) ++ tail

/-- Bytes go to a buddy as store messages, one a line, of the module's management processor and of no request agent entry (R354, R435). -/
def State.buddyWrite (s : State) (ga : Nat) (bs : List Byte) : State :=
  (lineRuns ga bs.length).foldl (fun s q =>
    s.sendRouted { mt := 2, op := 0, flag := false, dord := false, posted := true, w64 := false, epoch := s.fabric.epoch, hop := 0, status := 0,
                   smod := s.job.moduleId.toNat, stract := 15, tag := 0, addr := q.1, opd := 0, cmp := 0, len := q.2, pmask := 0,
                   data := (bs.drop (q.1 - ga)).take q.2 }) s

/-- A write to the destination of a snapshot: host memory, or the buddy's region (R435). -/
def State.snapWrite (s : State) (p : PlanImage) (off : Nat) (bs : List Byte) : State :=
  if p.snap = 1 then s.hostWrite (s.reg (modReg .snapHost) + off) bs
  else
    let b := s.regBits (modReg .snapCtl) 11 0
    let at_ := s.reg (modReg .snapBga) % 2 ^ 52 + off
    if b = s.job.moduleId.toNat then s.store at_ bs else s.buddyWrite (b * 2 ^ 52 + at_) bs

/-- A snapshot's writes: the regions, and the manifest area last (R435). -/
def State.snapWrites (s : State) (p : PlanImage) : State :=
  let rs := s.snapshotRegions p
  let base := manifestSize rs.length
  let s' := rs.zipIdx.foldl (fun (w : State) (q : List Byte × Nat) => w.snapWrite p (base + q.2 * regionSize) q.1) s
  s'.snapWrite p 0 (s.snapManifest p rs)

/-- The integer part of a square root. -/
def natSqrt (n : Nat) : Nat := isqrt (Nat.log2 n / 2 + 1) n

/-- The interval advice in s (R437): T = sqrt (2 C M), with C in units of a den-th of a second, H in units of 40 ns, M0 in hours. -/
def advice (c den h m0 f : Nat) : Nat := min 65535 (natSqrt (2 * c * (40 * h + m0 * 3600 * 10 ^ 9) / (den * 10 ^ 9 * (f + 1))))

/-- ADV is computed (R437): C is the last snapshot's duration in ms, or before one the image length divided by 50 GB/s. -/
def State.setAdvice (s : State) : State :=
  let adv (c den : Nat) : Nat := advice c den s.job.armedTime (s.regBits (modReg .snapCtl) 47 32) s.job.aborts
  s.setRegBits (modReg .snapStat) 31 16
    (if s.up.snapped then adv (s.regBits (modReg .snapStat) 63 32) 1000 else adv ((s.plan.inForce.map imageLength).getD 0) (50 * 10 ^ 9))

/-- Whether the destination of a snapshot can be written: the host is there, or a route leads to the buddy, a module of the job (R436). -/
def State.snapReaches (s : State) (p : PlanImage) : Bool :=
  if p.snap = 1 then s.host.up && !s.host.held
  else
    let b := s.regBits (modReg .snapCtl) 11 0
    b == s.job.moduleId.toNat || s.inJob b && (match s.route b 0 with
      | .inl _ => true
      | .inr _ => false)

/-- A parcel's CCLK changes to a step; CYCLES goes on from what it has counted (R373, R395). -/
def State.setStep (s : State) (p : ParcelId) (n : Nat) : State :=
  let h := (s.parcel p).health
  if h.step = n then s
  else s.modHealth p (fun h => { h with
    cycBase := h.cycBase + cclkCycles (s.ticks - h.cycSince) h.step, cycSince := s.ticks, step := n })

/-- The units of 5 mV by which the voltage of a step rises in a re-plan: none where its last slack reported is 5 % or more, at least one where
it is less; where the monitor has not reported the step since the last re-plan, and how many, is a free value n (R432). -/
def ParcelHealth.replanUnits (h : ParcelHealth) (step n : Nat) : Nat :=
  match h.slacks.find? (fun q => q.1 = step) with
  | some (_, v) => if 50 ≤ v then 0 else 1 + n % 60
  | none => n % 60

/-- The re-plan of a parcel's voltage table (R432): the voltage of each step rises in units of 5 mV until it shows at least 5 % slack; steps
that would need more than 0.90 V leave CAP, and one in use makes the parcel suspect. -/
def State.replanParcel (s : State) (p : ParcelId) : State :=
  let s := (List.range 39).foldl (fun (s : State) (k : Nat) =>
    s.takeFree.modHealth p (fun h =>
      let n := h.replanUnits k s.freeVal.toNat
      if n = 0 then h else { h with raised := h.raised.put k (h.raised.get k 0 + 5 * n) })) s
  let s := s.modHealth p (fun h => { h with
    slacks := [], cap := ((List.range (h.cap + 1)).reverse.find? (fun k => h.needMv k ≤ 900)).getD 0 })
  let h := (s.parcel p).health
  if h.cap < h.step then (s.setStep p h.cap).suspect p else s

/-- The ageing re-plan, at the first boundary after each 24 hours of operation with AGE_EN (R432). -/
def State.ageReplan (s : State) : State :=
  if s.regBits (modReg .relCtl) 15 15 = 0 ∨ s.up.hours < s.up.replanAt + 24 then s
  else
    let s := allParcels.foldl State.replanParcel s
    { s with up := { s.up with replanAt := s.up.hours } }.emit (s.recordM .ageReplan)

/-- Whether a core waits on a mark, or will update one: it waits in an instruction on marks, or one of its posted additions or copies is open. -/
def Core.onMark (k : Core) : Bool :=
  !k.rels.isEmpty || k.copies.any (fun j => j.mark.isSome) ||
  match k.wait with
  | some (.mwait _ _) | some (.mbar _ _ _ _) | some (.remoteWait _ _ _ _) => true
  | some (.sleep _ mask _) => mask.getLsbD 3
  | _ => false

/-- Whether a remote operation is on a mark. -/
def FabOp.onMark : FabOp → Bool
  | .mark _ | .signal _ => true
  | _ => false

/-- Whether the module is quiescent: no core, engine or remote operation waits on or updates a mark (R303). An engine will update marks
while it has an entry in progress or a signal that waits for its request agent. -/
def State.quiet (s : State) : Bool :=
  s.cores.all (fun q => !q.2.onMark) && s.engWaits.isEmpty && s.queues.all (fun q => q.2.entries.all (fun e => !e.started) && q.2.sigWait.isEmpty) &&
    s.parcels.all (fun q => q.2.heldArr.isEmpty && q.2.rwaits.isEmpty) &&
    s.fabs.all (fun q => q.2.ra.all (fun e => !e.op.onMark) && q.2.inbox.all (fun m => m.msg.mt ≠ 5))

/-- A screened core is halted with the registers of R28 cleared and its array unconfigured (R430). The strips' flag groups, the ARRIVE bits,
the latches and TSIG keep their values: no rule names screening among what clears them (assumption log 43). -/
def Core.screened (k : Core) : Core :=
  { k with
    g := Core.reset.g, a := Core.reset.a, p := Core.reset.p, pc := Core.reset.pc, ac := Core.reset.ac,
    progBase := Core.reset.progBase, progLimit := Core.reset.progLimit, arg0 := Core.reset.arg0, arg1 := Core.reset.arg1,
    ibuf := [], wait := none, run := .halted,
    arr := { ArrState.reset with flags := k.arr.flags, nextId := k.arr.nextId } }

/-- Of the parcels a screening names, those it may screen: none that is retired, 64 of a tract for each 40 ms of BUDGET, in order of decreasing
SCRAGE: none before one of its tract with a greater one, listed or not (R430). -/
def State.screenSet (s : State) (l : List ParcelId) : List ParcelId :=
  let cap := 64 * (s.regBits (modReg .snapCtl) 25 16 / 40)
  let age (p : ParcelId) : Nat := (s.parcel p).health.scrage
  let sound (p : ParcelId) : Bool := !(s.parcel p).health.retired
  let l := l.eraseDups.filter sound
  (l.zipIdx.filter (fun q =>
    let older := (s.parcels.map (fun x => x.1)).filter (fun x => x.tract == q.1.tract && sound x && decide (age q.1 < age x))
    let alike := (l.take q.2).filter (fun x => x.tract == q.1.tract && age x == age q.1)
    decide (older.length + alike.length < cap) && older.all (fun x => l.contains x))).map (fun q => q.1)

/-- A parcel has been screened (R430). -/
def State.screen (s : State) (p : ParcelId) : State :=
  (s.coresOf p).foldl (fun s c => s.modCore c Core.screened) (s.modHealth p (fun h => { h with scrage := 0 }))

/-- A parcel fails screening: it is retired as a fourth suspect event retires one (R431). -/
def State.screenFailed (s : State) (p : ParcelId) : State :=
  ((s.emit (s.recordP .parcelSuspect 15 p)).retire p).emit (s.recordP .screenFail 15 p)

end Sys2Proof.Machine
end

