-- ==== Sys2Proof/Machine/Boundary.lean ====
section
/-!
DEFINITION. The step boundary (R211, R214 to R218, R246, R247, R253, R430, R435 to R437): closure check, tallies, snapshot, the
agreement and the vote of the job's modules, the start of a step.
-/
namespace Sys2Proof.Machine

def State.modBnd (s : State) (f : Boundary → Boundary) : State := { s with plan := { s.plan with bnd := f s.plan.bnd } }

/-- The boundary stops here: the next step does not start. -/
def State.bndBreak (s : State) : State := s.modBnd (fun b => { b with phase := .broken })

/-- The code of a plan identifier in a boundary record: 0 none, 2^64 + 1 several. -/
def planCode (p : Option PlanImage) : Nat := (p.map (fun p => p.planId + 1)).getD 0
def mixedPlans : Nat := 2 ^ 64 + 1
def joinPlans (a b : Nat) : Nat := if a = 0 then b else if b = 0 ∨ a = b then a else mixedPlans

/-- The combination of two boundary records (R216, R253). -/
def BoundaryMsg.join (a b : BoundaryMsg) : BoundaryMsg :=
  { a with done := max a.done b.done, hasPlan := a.hasPlan && b.hasPlan, planId := joinPlans a.planId b.planId
           closure := a.closure || b.closure }

/-- The module's place in the tree over the job's modules in rising number (R253). DESIGN CHOICE: R253 gives the binary tree no shape; the model
takes the heap, in which the parent of place i is place (i - 1) / 2 (assumption log 71). -/
def State.treePlace (s : State) : Nat := firstIdx (fun m => m == s.job.moduleId.toNat) s.jobModules
def State.treeParent (s : State) : Option Nat := if s.treePlace = 0 then none else s.jobModules[(s.treePlace - 1) / 2]?
def State.treeKids (s : State) : List Nat :=
  [2 * s.treePlace + 1, 2 * s.treePlace + 2].filterMap (fun i => s.jobModules[i]?)

/-- A boundary record goes to another module over MGMT; one for which no port is open is lost (R253, R356). -/
def State.sendBoundary (s : State) (dst : Nat) (m : BoundaryMsg) : State :=
  match s.mgmtPort dst with
  | some p => s.send (.boundary p dst m)
  | none => s

/-- The tables of the plan in force receive a plan's change records, in record order (R214). -/
def State.applyChanges (s : State) (p : PlanImage) : State :=
  (List.range p.ncad).foldl (fun s i =>
    let o := p.cadOfs + 32 * i
    match p.layerOf (fieldAt p.bytes o 2) with
    | none => s
    | some l => s.store ((l.cadGa + 16 * fieldAt p.bytes (o + 2) 2) % 2 ^ 52) ((p.bytes.drop (o + 16)).take 16)) s

/-- The tally records of the experts the module owns under a plan say so, with their layer (R210). -/
def State.ownTallies (s : State) (p : PlanImage) : State :=
  p.layers.foldl (fun s l =>
    allTracts.foldl (fun s t => (s.ownedExperts l t).foldl (fun s o =>
      let key := (l.tallyGa + 16 * o.1 + 12) % 2 ^ 52
      s.store key (natLe 4 (setBits (leNat (s.peek key 4)) 14 4 (1 + 2 * (l.layer % 1024))))) s) s) s

/-- The result of the agreement (R215): tA, or the boundary stops at a closure fault of the job. -/
def State.agreed (s : State) (m : BoundaryMsg) : State :=
  if m.closure then s.bndBreak else s.modBnd (fun b => { b with phase := .agreed, tA := m.done })

/-- LEAD in ns. -/
def State.lead (s : State) : Nat := 1000 * s.regBits (modReg .stepCfg) 23 10

/-- The plan a module had for the vote: valid, pending as it voted, and for the next step (R216). -/
def State.votePlan (s : State) : Option PlanImage := s.plan.bnd.ballot.filter (fun p => p.step = s.job.step.toNat + 1)

/-- The result of the vote (R214, R216 to R218): the plan the modules voted for is applied; or the plan in force is reused; or, where none is in
force, the vote is repeated. A plan that was pending and not voted in is discarded, one that has become pending since the vote stays, and SPLIT is
set where the identifiers differed. -/
def State.voted (s : State) (m : BoundaryMsg) : State :=
  let left := if s.plan.pending = s.plan.bnd.ballot then none else s.plan.pending
  match m.hasPlan && m.planId == planCode s.votePlan, s.votePlan with
  | true, some p =>
    let s := { s with plan := { s.plan with pending := left, inForce := some p, reused := false } }
    ((s.applyChanges p).ownTallies p).modBnd (fun b => { b with phase := .voted })
  | _, _ =>
    let s := if m.planId = mixedPlans then s.raise (modReg .planStat) 5 else s
    let s := { s with plan := { s.plan with pending := left } }
    if s.plan.inForce.isNone then s.modBnd (fun b => { b with phase := .agreed, tA := b.tA + s.lead })
    else { s with plan := { s.plan with reused := true } }.modBnd (fun b => { b with phase := .voted })

/-- The result of the exchange goes down the tree and takes effect. -/
def State.bndResult (s : State) (m : BoundaryMsg) : State :=
  let s := s.treeKids.foldl (fun s k => s.sendBoundary k { m with smod := s.job.moduleId.toNat, down := true }) s
  let ph := s.plan.bnd.phase
  let s := s.modBnd (fun b => { b with own := none, kids := [] })
  match ph with
  | .agree => s.agreed m
  | .vote => s.voted m
  | _ => s

/-- Once the module has its own record and those of its children, it sends the combination up, or as the root acts on it (R253). -/
def State.bndPump (s : State) : State :=
  let b := s.plan.bnd
  match b.own with
  | none => s
  | some m =>
    if s.treeKids.all (fun k => b.kids.any (fun x => x.smod = k)) then
      let all := (b.kids.filter (fun x => s.treeKids.contains x.smod)).foldl BoundaryMsg.join m
      match s.treeParent with
      | none => s.bndResult all
      | some up => (s.sendBoundary up all).modBnd (fun b => { b with own := none })
    else s

/-- A module's own record. -/
def State.ownRecord (s : State) (done : Nat) (plan : Option PlanImage) (closure : Bool) : BoundaryMsg :=
  { smod := s.job.moduleId.toNat, down := false, done := done, hasPlan := plan.isSome, planId := planCode plan, closure := closure }

/-- Step 5: the module contributes its done time (R215, R218). -/
def State.beginAgree (s : State) : State :=
  if s.job.state != .armed then s else
  let m := s.ownRecord s.mtime none false
  (s.modBnd (fun b => { b with phase := .agree, own := some m, done := s.mtime })).bndPump

/-- Whether step n has ended here: EMARK of every tract has risen by 1 since it started (R215). -/
def tract0 (t : Tract) : ParcelId := { tract := t, parcel := 0 }
def State.stepEnded (s : State) : Bool :=
  allTracts.all (fun t => reached (s.markWord (tract0 t) s.emark) (s.plan.base.getD t.val 0 + 1))

/-- The boundary check of a tract (R247, R413): the cause and the two items of its record. -/
def State.tractClosure (s : State) (t : Tract) : Option (Nat × Nat × Nat) :=
  let lo (r : RegName) : Nat := s.regBits (tractReg r t) 31 0
  let hi (r : RegName) : Nat := s.regBits (tractReg r t) 63 32
  if lo .clSend ≠ (hi .clSend + lo .clNull) % 2 ^ 32 then some (4, lo .clSend, (hi .clSend + lo .clNull) % 2 ^ 32)
  else if lo .clRecv ≠ (hi .clRecv + hi .clNull) % 2 ^ 32 then some (2, lo .clRecv, (hi .clRecv + hi .clNull) % 2 ^ 32)
  else if s.xfer.exch.any (fun x => x.tract = t) then some (2, lo .clRecv, (hi .clRecv + hi .clNull) % 2 ^ 32)
  else if s.xfer.paths.any (fun q => (q.1.2 == .tract t || q.1.1 = t) && inFlight q.2 != 0) then some (3, 0, 0)
  else none

/-- No exchange, for the record of the boundary check. -/
def noKey : XKey := { xk := 15, layer := 0, mb := 0, cid := 0 }

/-- Step 1: every tract's closure is checked, and its row counters are cleared (R246, R247). -/
def State.closureCheck (s : State) : State × Bool :=
  let bad := allTracts.filterMap (fun t => (s.tractClosure t).map (fun q => (t, q)))
  let s := bad.foldl (fun (s : State) (q : Tract × Nat × Nat × Nat) =>
    s.closureRaise q.1 noKey (s.job.moduleId.toNat, q.1.val) q.2.1 q.2.2.1 q.2.2.2 true) s
  (allTracts.foldl (fun s t => ((s.setReg (tractReg .clSend t) 0).setReg (tractReg .clRecv t) 0).setReg (tractReg .clNull t) 0) s,
    bad.isEmpty)

/-- The tally record of an expert is posted and cleared (R210, R211): UNT, OWNED and LAYER stay. -/
def State.postTally (s : State) (p : PlanImage) (i : Nat) (l : LayerRec) (e : Nat) : State :=
  let key := (l.tallyGa + 16 * e) % 2 ^ 52
  let s := s.touch key 16
  let bs := s.peek key 16
  let sat := fieldBits bs 12 4 2 0
  let unt := fieldAt bs 4 4 == 0 && !bitOf sat 1
  let w := 8 * b2n unt + 16 + 32 * l.layer
  let s := s.hostWrite (p.tallyHost + (i * 65536 + e) * 16) (bs.take 12 ++ natLe 4 (sat + w))
  s.store key (List.replicate 12 0 ++ natLe 4 w)

/-- Step 2: every expert the module owns, for each layer record of the plan that has run (R211). -/
def State.postTallies (s : State) : State :=
  match s.plan.inForce with
  | none => s
  | some p =>
    p.layers.zipIdx.foldl (fun s q =>
      (List.range q.1.e).foldl (fun s e => match s.cadOf q.1 e with
        | some c => if c.module = s.job.moduleId.toNat then s.postTally p q.2 q.1 e else s
        | none => s) s) s

/-- The plan's SNAP; a reused plan's counts as none (R217). -/
def State.snapAsked (s : State) : Option PlanImage :=
  match s.plan.inForce with
  | some p => if p.snap ≠ 0 ∧ !s.plan.reused then some p else none
  | none => none

/-- STEP_END: steps 1 to 4 of the boundary begin once EMARK of every tract has risen (R215). -/
def execStepEnd (s : State) : Result :=
  .next <|
    if s.job.state != .armed || !s.errs.running || !s.plan.stepped || s.plan.bnd.phase != .none || s.errs.abort.isSome ||
        !s.stepEnded then s
    else
      let (s, ok) := s.closureCheck
      if !ok then
        let m := s.ownRecord s.mtime none true
        (s.modBnd (fun b => { b with phase := .agree, own := some m, done := s.mtime })).bndPump
      else
        let s := s.postTallies
        let s := s.emit (s.recordM .stepDone)
        match s.snapAsked with
        | some _ => (s.modBnd (fun b => { b with phase := .snapshot })).setRegBits (modReg .snapStat) 1 0 1
        | none => s.ageReplan.beginAgree

/-- SNAPSHOT_DONE: the snapshot's writes have ended, which were made of a quiescent module and of no other (R303); one whose destination cannot be
written has failed, whatever the command says, and an abort under way leaves it to R420 (R436); screening and the ageing re-plan follow, and the module has its done time (R215, R430,
R431, R435, R436). -/
def execSnapshotDone (r : SnapResult) (s : State) : Result :=
  .next <|
    match s.plan.bnd.phase, s.plan.inForce with
    | .snapshot, some p =>
      let failed : State :=
        let s := s.setRegBits (modReg .snapStat) 1 0 0
        (((s.snapWrite p 0 (natLe 4 0))).emit (s.recordM .snapFail)).ageReplan.beginAgree
      if s.errs.abort.isSome then s else
      match r with
      | .failed _ => failed
      | .ok ms screened fails =>
        if !s.snapReaches p then failed
        else if !s.quiet then s else
        let s := s.setRegBits (modReg .snapStat) 1 0 0
        let s := (s.snapWrites p).setRegBits (modReg .snapStat) 63 32 ms
        let s := { s with up := { s.up with snapped := true } }
        let s := s.emit { s.recordM .snapDone with detail := detailWords [imageLength p % 2 ^ 32, imageLength p / 2 ^ 32, ms] }
        let on := s.regBits (modReg .relCtl) 16 16 == 1
        let now := if on then s.screenSet screened else []
        let s := now.foldl State.screen s
        let bad := fails.filter (fun q => now.contains q)
        if bad.isEmpty then s.ageReplan.beginAgree else (bad.foldl State.screenFailed s).bndBreak
    | _, _ => s

/-- BOUNDARY: a boundary record arrives, from a child in the tree or, going down, from the parent (R253). The command names no port: it stands for
a message that came by a port that is UP, and is without effect where none is (R357, assumption log 72). -/
def execBoundary (m : BoundaryMsg) (s : State) : Result :=
  .next <|
    if s.job.state != .armed || !s.anyUp then s
    else if m.down then
      (if s.treeParent = some m.smod ∧ (s.plan.bnd.phase = .agree ∨ s.plan.bnd.phase = .vote) then s.bndResult m else s)
    else if s.treeKids.contains m.smod then
      (s.modBnd (fun b => { b with kids := b.kids.filter (fun x => x.smod ≠ m.smod) ++ [m] })).bndPump
    else s

/-- PLAN_VOTE: DEADLINE before the step start each module contributes its pending plan (R216, R218). -/
def execPlanVote (s : State) : Result :=
  .next <|
    if s.job.state != .armed || s.plan.bnd.phase != .agreed || s.errs.abort.isSome then s
    else
      let s := s.modBnd (fun b => { b with ballot := s.plan.pending })
      let m := s.ownRecord s.plan.bnd.tA s.votePlan false
      (s.modBnd (fun b => { b with phase := .vote, own := some m })).bndPump

/-- A step starts with a reused plan (R216). -/
def State.staleStart (s : State) : State :=
  if s.plan.reused then
    let s := (s.raise (modReg .planStat) 2).bumpReg (modReg .planStat) 31 16 1
    s.emit (s.recordM .planStale)
  else s

/-- STEP_START: STEP increments and SMARK of every tract rises by 1, with the sample of EMARK and the reset of the stash ledgers; the
interval advice of the boundary just ended is reported (R215, R319, R437). -/
def execStepStart (s : State) : Result :=
  .next <|
    if s.job.state != .armed || s.plan.bnd.phase != .voted || s.errs.abort.isSome then s
    else
      let s := s.setAdvice.staleStart
      let s := { s with job := { s.job with step := s.job.step + 1 } }
      let s := { s with parcels := s.parcels.map (fun (q : ParcelId × Parcel) =>
        (q.1, { q.2 with stash := { q.2.stash with used := 0, full := 0, told := 0 } })) }
      let base := allTracts.map (fun t => s.markWord (tract0 t) s.emark)
      let s := allTracts.foldl (fun s t => s.markAdd (tract0 t) s.smark 1) s
      { s with
        plan := { s.plan with
          stepped := true, start := s.plan.bnd.tA + s.lead, base := base, bnd := { Boundary.reset with kids := s.plan.bnd.kids } }
        errs := { s.errs with running := true }
        xfer := { s.xfer with begun := [] } }

/-- BOUNDARY_TIMEOUT: steps 5 to 7 have not completed by S; the step does not start (R218). The first agreement has no S to miss. -/
def execBoundaryTimeout (s : State) : Result :=
  .next <|
    let late := match s.plan.bnd.phase with
      | .agree => s.errs.running
      | .agreed | .vote => true
      | _ => false
    if late then s.bndBreak.emit (s.recordM .boundaryTimeout) else s

end Sys2Proof.Machine
end

