-- ==== Sys2Proof/Machine/RegRead.lean ====
section
/-!
DEFINITION. What a read of a register returns: the stored fields, and those that show other state (R29, R282, R294, R302, R319, R381, R429, R433,
R448, R481).
-/
namespace Sys2Proof.Machine

/-- HA_OUT: home agent entries in use (R277). -/
def State.homeOut (s : State) (t : Tract) : Nat := s.homeUse t false + s.homeUse t true

/-- The frequency in MHz of a source of CLKOBS (R372, R375, R378). -/
def State.clockMhz (s : State) (src t p : Nat) : Nat :=
  let c := s.coasting
  match src with
  | 1 => match keyParcel (keyOf t p 0) with
    | some q => 200 + 50 * s.stepNow q
    | none => 200
  | 2 => if c then 200 else 1200
  | 3 => if c then 400 else 2000
  | 4 => if c then 250 else 1000
  | 5 => 100
  | 6 => 10
  | _ => 25

/-- EDIV: the least divider from DIV up that brings CLKOBS to 200 MHz or below (R378). -/
def State.clkobsDiv (s : State) : Nat :=
  let k := modReg .clkobsCtl
  let f := s.clockMhz (s.regBits k 3 0) (s.regBits k 7 4) (s.regBits k 18 8)
  let d := s.regBits k 22 19
  ((List.range 16).find? (fun n => d ≤ n && f ≤ 200 * 2 ^ n)).getD d

/-- What the pin CLKOBS outputs: the selected clock in MHz and what it is divided by; nothing, a low pin, with EN 0 (R378). -/
def State.clkobsPin (s : State) : Option (Nat × Nat) :=
  let k := modReg .clkobsCtl
  if s.regBits k 23 23 = 1 then some (s.clockMhz (s.regBits k 3 0) (s.regBits k 7 4) (s.regBits k 18 8), 2 ^ s.clkobsDiv) else none

/-- A working parcel: one that is not retired and has a core that is not in DEEP (R302, R382). -/
def State.working (s : State) (p : ParcelId) : Bool :=
  !(s.parcel p).health.retired && ((s.coresOf p).filter (fun c => (s.core c).pwr = .deep)).length < 64

/-- STEP of TRACT_PWR: the highest step of a working parcel (R386). -/
def State.tractStep (s : State) (t : Tract) : Nat :=
  ((List.range 1360).filterMap (fun i => keyParcel (keyOf t.val i 0))).foldl (fun n p => if s.working p then max n (s.stepNow p) else n) 0

/-- The condition on audits of R433: the three rates at most 10, and AUDIT in every valid plot. -/
def State.auditCond (s : State) : Bool :=
  let r := modReg .relCtl
  s.regBits r 4 0 ≤ 10 && s.regBits r 9 5 ≤ 10 && s.regBits r 14 10 ≤ 10 &&
    allTracts.all (fun t => (List.range 256).all (fun n =>
      s.regBits (tractRegI .plotCfg t n) 0 0 = 0 || s.regBits (tractRegI .plotRel t n) 1 1 = 1))

/-- REL_STAT: its reset value before READY, then the three conditions (R433). -/
def State.relStat (s : State) : Nat :=
  if !s.job.state.trains then 4
  else
    b2n (s.parcels.all (fun q => q.2.health.retired || q.2.health.scrage < 24)) + 2 * b2n s.auditCond +
      4 * b2n (s.regBits (modReg .relCtl) 15 15 = 1 && s.up.hours < s.up.replanAt + 24)

/-- A parcel a register key names. -/
def RegKey.parcel (k : RegKey) : Option ParcelId := keyParcel (keyOf k.t k.p 0)
/-- A queue a register key names. -/
def RegKey.queue (k : RegKey) : Option QueueId := if h : k.t < 12 then some { tract := ⟨k.t, h⟩, engine := engineOf k.i } else none
def RegKey.tract (k : RegKey) : Option Tract := if h : k.t < 12 then some ⟨k.t, h⟩ else none

/-- The fields of a register that show other state. -/
def State.shownFields (s : State) (k : RegKey) : List (Nat × Nat × Nat) :=
  match k.r with
  | .secId => [(63, 0, Config.serial.toNat)]
  | .jobStat => [(2, 0, s.job.state.code), (3, 3, b2n s.job.busy)]
  | .aoTime => [(63, 0, s.aoTime)]
  | .clkStat => match s.up.boot.straps with
    | some x => [(2, 0, x.oscWait.toNat), (3, 3, b2n x.refsel)]
    | none => []
  | .clkobsCtl => [(27, 24, s.clkobsDiv)]
  | .tractPwr => if h : k.i < 12 then [(48, 43, s.tractStep ⟨k.i, h⟩)] else []
  | .pinStat => [(5, 5, b2n s.up.pins.throttle)]
  | .pwrStat => [(12, 12, b2n s.up.pins.throttle)]
  | .secStat => [(7, 0, s.up.sec.arb), (11, 8, s.up.sec.krevoke)]
  | .planStat => [(1, 0, if s.plan.fetching.isSome then 1 else if s.plan.pending.isSome then 2 else 0)]
  | .errStat => []
  | .elogStat => [(11, 0, s.errs.logged), (31, 12, s.errs.logged / 4096)]
  | .evrTail => [(31, 0, s.errs.ringCount)]
  | .relStat => [(2, 0, s.relStat)]
  | .fabEpoch => [(7, 0, s.fabric.epoch), (9, 9, b2n s.fabric.advancing)]
  | .fabStat => match k.tract with
    | some t => [(12, 0, (s.fab t).ra.length), (28, 16, s.homeOut t)]
    | none => []
  | .fabHcl => match k.tract with
    | some t => [(63, 32, (s.regBits k 31 0 + 2 ^ 32 - s.homeOut t % 2 ^ 32) % 2 ^ 32)]
    | none => []
  | .qHead => match k.queue with
    | some q => [(31, 0, (s.queue q).head)]
    | none => []
  | .qStat => match k.queue with
    | some q => [(0, 0, b2n (s.queue q).stopped), (1, 1, b2n (s.queue q).busy), (5, 2, (s.queue q).cause)]
    | none => []
  | r => match k.parcel with
    | some p => s.parcelFields r p
    | none => []

/-- The value a read of a register returns. -/
def State.readReg (s : State) (k : RegKey) : Nat := overlay (s.reg k) (s.shownFields k)

end Sys2Proof.Machine
end

