-- ==== Sys2Proof/Machine/Home.lean ====
section
/-!
DEFINITION. Home agents, their answers and what completes at a request agent (R149 to R153, R254 to R269, R271, R272, R274 to R278, R294): the
order at a home, combining, replica reads, messages of links, epochs.
-/
namespace Sys2Proof.Machine

/-- What a request asks of a home agent, its data with poison. -/
inductive HomeOp where
  | load (n : Nat)
  | store (bs : List MByte)
  | atom (op : Nat) (w64 : Bool) (opd cmp : Nat)
  | mark (op : MarkOp)
  | refused
  deriving DecidableEq, Repr

/-- The operation of a request agent entry that a home agent performs; the ends of copies and the operations of engine entries, which it only
accepts, act with them. -/
def FabOp.home : FabOp → Option HomeOp
  | .load n => some (.load n)
  | .store d => some (.store (sound d))
  | .atom op w opd cmp => some (.atom op w opd cmp)
  | .mark op => some (.mark op)
  | .signal v => some (.mark (.add (BitVec.ofNat 32 (v.toNat))))
  | .copyEnd _ _ | .engine _ _ _ _ => none

/-- The data of a message with the poison of its 16-byte units (R354). -/
def msgData (m : MemMsg) : List MByte := m.data.zipIdx.map (fun q => (q.1, bitOf m.pmask ((q.2 + m.addr % 16) / 16)))

/-- The operation of a request message (R354); refused: an MBAR operand with KIND 0b11 or a reserved bit set (R292, R294). -/
def msgHomeOp (m : MemMsg) : HomeOp :=
  match m.mt with
  | 1 => .load m.len
  | 2 => .store (msgData m)
  | 3 => .atom m.op m.w64 m.opd 0
  | 4 => .atom 9 m.w64 m.opd m.cmp
  | _ =>
    match m.op with
    | 0 => .mark (.add (BitVec.ofNat 32 m.opd))
    | 1 => .mark (.sub (BitVec.ofNat 32 m.opd))
    | 2 => .mark (.wait (BitVec.ofNat 32 m.opd))
    | _ =>
      if bitsOf m.opd 31 10 ≠ 0 then .refused
      else
        match bitsOf m.opd 9 8 with
        | 0 => .mark (.arrive (BitVec.ofNat 8 m.opd) true)
        | 1 => .mark (.arrive (BitVec.ofNat 8 m.opd) false)
        | 2 => .mark (.barWait (BitVec.ofNat 8 m.opd))
        | _ => .refused

/-- The status of a store or an atomic of n bytes at a key (R149, R150, R154, R259). -/
def State.homeWriteStatus (s : State) (key n : Nat) (isAtom : Bool) : Nat :=
  match s.windowStatus key n true, windowOf (gaOffset key) with
  | 0, .store _ _ => if isAtom then 2 else 0
  | 0, _ => if s.inReplica key n then 3 else 0
  | st, _ => st

/-- A refused store or atomic, with the record its status has. -/
def State.refuseWrite (s : State) (t : Tract) (src : RemoteSrc) (key st : Nat) : State :=
  let s := match st, windowOf (gaOffset key) with
    | 3, _ => s.replicaRecord t key
    | 2, .store _ _ => s
    | 2, _ => s.haProtect t key
    | _, _ => s
  s.answer src (statusResponse st)

/-- The answer to an applied write: at once, or once the replicas of its lines have been invalidated (R153). -/
def State.homeWritten (s : State) (t : Tract) (src : RemoteSrc) (key n : Nat) (r : Response) : State :=
  if (s.regionLines key n).isEmpty then s.answer src r
  else s.modFab t (fun f => { f with replW := f.replW ++ [{ src := src, key := key, len := n, resp := r }] })

/-- A load at its home (R149, R150, R317): the claim block of a control window gives zero bytes. -/
def State.homeLoad (s : State) (src : RemoteSrc) (key n : Nat) : State :=
  match windowOf (gaOffset key), keyParcel key with
  | .control off, some p => s.answer src { status := 0, data := s.windowLoad p off n, poison := 0 }
  | _, _ =>
    match s.windowStatus key n false with
    | 0 => (s.touch key n).answer src { status := 0, data := s.peek key n, poison := s.poisonMask key n }
    | st => s.answer src (statusResponse st)

/-- A store at its home. -/
def State.homeStore (s : State) (t : Tract) (src : RemoteSrc) (key : Nat) (bs : List MByte) : State :=
  match s.homeWriteStatus key bs.length false with
  | 0 => ((mpieces bs.length key bs).foldl State.mstorePiece s).homeWritten t src key bs.length okResponse
  | st => s.refuseWrite t src key st

/-- An atomic at its home: the old value comes back (R43); a unit that is poisoned keeps its data. -/
def State.homeAtom (s : State) (t : Tract) (src : RemoteSrc) (key op : Nat) (w64 : Bool) (opd cmp : Nat) : State :=
  let n := atomSize w64
  match s.homeWriteStatus key n true with
  | 0 =>
    let old := s.peek key n
    let bad := s.poisonMask key n
    let s := s.touch key n
    (s.store key (natLe n (atomNew op w64 (leNat old) opd cmp))).homeWritten t src key n { status := 0, data := old, poison := bad }
  | st => s.refuseWrite t src key st

/-- A remote mark operation at its home (R282, R289 to R294, R297): one of the wrong type is refused; a wait moves to the remote wait
list. -/
def State.homeMark (s : State) (src : RemoteSrc) (addr : Nat) (op : MarkOp) : State :=
  match s.markStatus addr, keyParcel addr with
  | 0, some p =>
    let n := addrMark addr
    let frozen := (s.parcel p).frozen.contains n || s.markDamaged p n
    let next (s : State) : State := s.modParcel p (fun v => { v with waitNo := v.waitNo + 1 })
    let wait (op : MarkOp) : State := next (s.modParcel p (fun v => { v with
      rwaits := v.rwaits ++ [{ src := src, mark := n, op := op, order := v.waitNo }] }))
    match op, s.barrierN p n with
    | .add v, none => (s.markUpdate p n (fun w => w + v)).answer src okResponse
    | .sub v, none => (s.markUpdate p n (fun w => w - v)).answer src okResponse
    | .wait thr, none => if reached (s.markWord p n) thr && !frozen then s.answer src okResponse else wait (.wait thr)
    | .arrive tag w, some _ =>
      if frozen then (if w then (wait (.barWait tag)).freeze p n else (s.freeze p n).answer src okResponse)
      else (if w then next s else s).arrive p { mark := n, tag := tag, wait := w, src := .remote src, order := (s.parcel p).waitNo }
    | .barWait tag, some _ => if generationOut (s.markWord p n) tag && !frozen then s.answer src okResponse else wait (.barWait tag)
    | _, _ => s.answer src (statusResponse 2)
  | 0, none => s.answer src (statusResponse 1)
  | st, _ => s.answer src (statusResponse st)

/-- An operation at its home agent. -/
def State.homeApply (s : State) (t : Tract) (src : RemoteSrc) (addr : Nat) (op : HomeOp) : State :=
  let key := addr % 2 ^ 52
  match op with
  | .load n => s.homeLoad src key n
  | .store bs => s.homeStore t src key bs
  | .atom op w64 opd cmp => s.homeAtom t src key op w64 opd cmp
  | .mark op => s.homeMark src addr op
  | .refused => s.answer src (statusResponse (if s.markStatus addr = 0 then 2 else s.markStatus addr))

/-- Whether an operation is a combinable atomic that may merge: posted ADD or OR, permitted where it goes, outside replicated regions. -/
def State.combinable (s : State) (key : Nat) (op : HomeOp) (posted : Bool) : Option (Bool × Bool × Nat) :=
  match op with
  | .atom o w64 opd _ =>
    if posted && (o == 0 || o == 1) && s.homeWriteStatus key (atomSize w64) true == 0 && (s.regionLines key (atomSize w64)).isEmpty
    then some (o == 1, w64, opd) else none
  | _ => none

/-- A request takes its turn at a home agent: a combinable atomic merges or opens an entry, any other operation is applied (R268, R269,
R277). -/
def State.homeServe (s : State) (t : Tract) (src : RemoteSrc) (addr : Nat) (op : HomeOp) (posted : Bool) : State :=
  let s := s.homeCount t
  match s.combinable (addr % 2 ^ 52) op posted with
  | none => (s.closeLine t addr (fun _ => false)).homeApply t src addr op
  | some (orOp, w64, opd) =>
    let same (c : CombEntry) : Bool := c.addr == addr && c.orOp == orOp && c.w64 == w64
    let s := s.closeLine t addr same
    if (s.fab t).comb.any same then
      s.modFab t (fun f => { f with comb := f.comb.map (fun c =>
        if same c then { c with opd := atomNew (b2n orOp) w64 c.opd opd 0, srcs := c.srcs ++ [src] } else c) })
    else if 512 ≤ (s.fab t).comb.length then s.homeApply t src addr op
    else s.modFab t (fun f => { f with
      comb := f.comb ++ [{ id := f.nextComb, addr := addr, orOp := orOp, w64 := w64, opd := opd, srcs := [src] }]
      nextComb := f.nextComb + 1 })

/-- The replica that serves a load of a tract: of an enabled region whose home is another tract, where in a destination-order class no
earlier store of the source to the region is open (R152, R264). -/
def State.replicaOf (s : State) (t : Tract) (e : RaEntry) : Option (Nat × ReplRegion) :=
  match e.op, s.inRegion (e.addr % 2 ^ 52) with
  | .load _, some (i, r) =>
    let open_ := s.destOrder e.cls && (s.fab t).ra.any (fun x => x.gen < e.gen && x.src == e.src && x.cls == e.cls &&
      (match x.op with
        | .store _ | .atom _ _ _ _ => true
        | _ => false) && (s.inRegion (x.addr % 2 ^ 52)).map (fun q => q.1) == some i)
    if gaTract r.home = t.val ∨ open_ then none else some (i, r)
  | _, _ => none

/-- A load served by the reader's own tract from a replica: a valid line gives the replica's bytes, an invalid one, or one with an
uncorrectable error or poison, the home's (R152, R154). -/
def State.replicaLoad (s : State) (t : Tract) (src : RemoteSrc) (key n i : Nat) (r : ReplRegion) : State :=
  let at_ := keyOf t.val r.parcel (r.off + (key - r.home))
  if !(s.fab t).replOk.contains (i, (key - r.home) / 128) then s.homeLoad src key n
  else
    let s := s.touch at_ n
    if s.poisoned at_ n then s.homeLoad src key n else s.answer src { status := 0, data := s.peek at_ n, poison := 0 }

/-- Whether a load is a claim: a doubleword of a parcel's claim block, by a core (R317). DESIGN CHOICE: of another module's loads of the block every
aligned doubleword is one; a line part of a copy or the Mover that is one too differs from it in no field of its message (R354; assumption log
68). -/
def isClaim (addr : Nat) (op : HomeOp) : Bool :=
  match op, windowOf (gaOffset addr) with
  | .load 8, .control off => decide (0x8000 ≤ off ∧ off % 8 = 0)
  | _, _ => false

/-- The ledger of a parcel answers a claim of n frames in set k (R318, R320). -/
def State.claim (s : State) (p : ParcelId) (off : Nat) : State × Nat :=
  let k := bitsOf off 14 9
  let n := bitsOf off 8 3 + 1
  let v := s.parcel p
  let cfg := match v.plot with
    | some q => s.reg (tractRegI .stashCfg p.tract q.toNat)
    | none => 0
  let l := v.stash
  let full := 2 ^ 63
  if !bitOf cfg 0 then (s, 2 ^ 62)
  else if bitOf l.full k then (s, full)
  else if bitsOf cfg 46 32 < l.used + n then
    let s := (s.modParcel p (fun v => { v with stash := { v.stash with
      full := setBits v.stash.full k k 1, told := setBits v.stash.told k k 1 } })).raise (parcelReg .stashStat p) 30
    (if bitOf l.told k then s else s.emit { s.recordP .stashFull 5 p with detail := detailWords [k, n, l.used] }, full)
  else
    let at_ := bitsOf cfg 22 8 * 4096 + l.used * 2 ^ (12 + bitsOf cfg 4 1)
    (s.modParcel p (fun v => { v with stash := { v.stash with used := l.used + n, hwm := max l.hwm (l.used + n) } }), at_)

/-- A claim that has reached its parcel is answered. -/
def State.claimAnswer (s : State) (src : RemoteSrc) (addr : Nat) : State :=
  match keyParcel addr with
  | none => s.answer src (statusResponse 1)
  | some p =>
    let (s, v) := (s.checkUnit p.tract .ledger).claim p (gaOffset addr - 0x1F_0000_0000)
    s.answer src { status := 0, data := natLe 8 v, poison := 0 }

/-- An entry of a request agent that a home agent may take. -/
def State.readyEntry (s : State) (t : Tract) (tag : Nat) : Option RaEntry := (s.fab t).ra.find? (fun e => e.tag = tag && e.stage == .ready)

/-- An entry of tract st is taken by the home agent of tract t: a load that a replica serves by the reader's own, a claim by its ledger. -/
def State.haTake (s : State) (t st : Tract) (e : RaEntry) : State :=
  match e.op.home with
  | none => s
  | some op =>
    let key := e.addr % 2 ^ 52
    let home := s.setEntry st e.gen (fun e => { e with stage := .home })
    let repl := s.replicaOf st e
    if s.haBlocked st e repl.isSome || isClaim e.addr op then s
    else
      match repl, e.op with
      | some (i, r), .load n => if t = st then (home.homeCount t).replicaLoad st (.agent st e.gen) key n i r else s
      | _, _ =>
        if gaBad e.addr then (home.answer (.agent st e.gen) (statusResponse 1))
        else if gaTract e.addr = t.val then home.homeServe t (.agent st e.gen) e.addr op e.posted
        else s

/-- A request of another module is served, or refused where its epoch is not the module's (R275). -/
def State.haServeLink (s : State) (t : Tract) (q : InReq) : State :=
  let src : RemoteSrc := .link q.msg q.port
  if q.msg.epoch ≠ s.fabric.epoch then (s.raise (modReg .fabEpoch) 10).answer src (statusResponse 6)
  else if isClaim q.msg.addr (msgHomeOp q.msg) then (s.homeCount t).claimAnswer src q.msg.addr
  else s.homeServe t src q.msg.addr (msgHomeOp q.msg) q.msg.posted

/-- HOME_AGENT_REQUEST: the home agent of tract t accepts a request, where it has an entry for it (R266): an entry of a tract of the module, where
R262 allows it, or the oldest request links have brought, whose credit goes back (R267). A claim of this module is left to its ledger; a dead
tract answers nothing (R271). -/
def execHomeAgentRequest (t : Tract) (src : HaSource) (s : State) : Result :=
  .next <| if s.dead t.val then s else
    match src with
    | .tract st tag =>
      match s.readyEntry st tag with
      | none => s
      | some e => if s.haMay t e.stamp false then s.haTake t st e else s
    | .link =>
      match (s.fab t).inbox with
      | [] => s
      | q :: rest =>
        if s.haMay t q.stamp true then
          ((s.modFab t (fun f => { f with inbox := rest })).leaveInbox [q]).haServeLink t q
        else s

/-- COMBINING_ENTRY_APPLY: the turn of a combining entry begins (R269); a dead tract applies nothing (R271). -/
def execCombiningEntryApply (t : Tract) (k : Nat) (s : State) : Result :=
  .next (match (s.fab t).comb[k]? with
    | some c => if s.dead t.val then s else s.applyComb t c
    | none => s)

/-- STASH_CLAIM: a claim of a core reaches the ledger of a parcel (R317, R318), but in a dead tract (R271). -/
def execStashClaim (p : ParcelId) (src : Tract) (tag : Nat) (s : State) : Result :=
  .next <|
    match s.readyEntry src tag with
    | none => s
    | some e =>
      match e.op.home with
      | some op =>
        if isClaim e.addr op && keyParcel e.addr == some p && !s.haBlocked src e false && !s.dead p.tract.val && s.haMay p.tract e.stamp false then
          ((s.setEntry src e.gen (fun e => { e with stage := .home })).homeCount p.tract).claimAnswer (.agent src e.gen) e.addr
        else s
      | none => s

/-- A load's or an atomic's answer reaches the core that waits for it (R59, R60). -/
def Core.takeAnswer (k : Core) (gen : Nat) (r : Response) : Core :=
  { k with loads := k.loads.map (fun l => if l.gen = some gen then { l with resp := some r } else l) }

/-- A remote wait of a core is answered (R59, R294): it goes on, or REMOTE_ERR. -/
def State.waitAnswer (s : State) (c : CoreId) (gen : Nat) (r : Response) : State :=
  match (s.core c).wait with
  | some (.remoteWait g addr _ _) =>
    if g ≠ gen then s
    else
      let pc := (s.core c).pc.toNat
      let s := s.modCore c (fun k => k.retire 4)
      if r.status = 0 then s else s.deferred c pc { cause := .remoteErr, addr := addr }
  | _ => s

/-- A mark of another module that a chain entry has signalled is answered: an error stops its queue (R368, R370). -/
def State.signalAnswer (s : State) (q : QueueId) (gen addr status : Nat) : State :=
  match (s.queue q).signals.find? (fun x => x.1 = gen) with
  | none => s
  | some x =>
    let s := s.modQueue q (fun v => { v with signals := v.signals.filter (fun y => y.1 ≠ gen) })
    if status = 0 then s else (s.chainFault q 4 x.2.slot status addr).stopQueue q 4 x.2

/-- The engine hears that an operation of an entry in progress has ended in an error: the Dispatcher's entry, which did only this, completes with
ADDR; a Mover entry with REMOTE_ERR; of the Vector dispatcher a read does so, and a write leaves its record (R160, R186, R260, R272, R337). -/
def State.engFailed (s : State) (t : Tract) (g : Engine) (id : Nat) (write : Bool) (addr status : Nat) : State :=
  let q := engQueue t g
  match (s.queue q).entries.find? (fun e => e.id = id) with
  | none => s
  | some e =>
    let code (n : Nat) : State := match e.work with
      | .status c => if c = 0 ∨ 10 ≤ c then s.setWork q id (.status n) else s
      | _ => s
    match g with
    | .dispatcher => s.dispDone t e .addr
    | .mover => code 9
    | .vector => if write then s.postedRecord t none addr status else code 6
    | .transit => s

/-- An operation completes at its source (R258, R260, R274): what waits for it goes on. -/
def State.complete (s : State) (t : Tract) (e : RaEntry) (r : Response) : State :=
  let s := match e.src with
    | .core c =>
      let s := (s.modCore c (fun k => k.takeAnswer e.gen r)).waitAnswer c e.gen r
      if e.posted && r.status != 0 then s.postedRecord t (some c) e.addr r.status else s
    | .engine g => s.signalAnswer (engQueue t g) e.gen e.addr r.status
  let s := (s.raFinish t e.gen r.status).raPump t
  match e.src, e.op with
  | .core c, _ => s.settle c
  | .engine _, .engine g id _ w => if r.status = 0 then s else s.engFailed t g id w e.addr r.status
  | .engine g, _ => s.sigPump (engQueue t g)

/-- The request agent's check that ISSUED less DONE are its entries in use; the home agent's holds by the way RETIRED is computed (R277). -/
def State.raCheck (s : State) (t : Tract) : State :=
  let k := tractReg .fabCl t
  if (s.regBits k 31 0 + 2 ^ 32 - s.regBits k 63 32) % 2 ^ 32 = (s.fab t).ra.length then s else s.emit (s.record .fabConserve 12 t.val)

/-- FABRIC_COMPLETION: the answer to an entry reaches its request agent (R258). The ends of copies complete with the copy, an engine's operations
with its entry, unless they have failed. The agent's conservation check follows (R277). -/
def execFabricCompletion (t : Tract) (tag : Nat) (s : State) : Result :=
  .next <|
    match (s.fab t).ra.find? (fun e => e.tag = tag) with
    | none => s
    | some e =>
      match e.stage, e.op with
      | .answered _, .copyEnd _ _ => s
      | .answered r, _ => (s.complete t e r).raCheck t
      | _, _ => s

/-- ENGINE_OPERATION_TIMEOUT: an engine's operation has not completed within ENG_TMO: TIMEOUT, and its entry is freed (R272). -/
def execEngineOperationTimeout (t : Tract) (tag : Nat) (s : State) : Result :=
  .next <|
    match (s.fab t).ra.find? (fun e => e.tag = tag) with
    | none => s
    | some e =>
      match e.src, e.stage with
      | .engine _, .answered _ => s
      | .engine _, _ => s.complete t e (statusResponse 8)
      | .core _, _ => s

/-- A request for another module is relayed by the module's own route table (R256, R275); its credit goes back as it leaves (R267, R355). One that
is refused leaves the receive buffer at once. DESIGN CHOICE: the refusal goes back by the port the request came by, which the spec says of LINK
alone (R273; assumption log 47). -/
def State.relay (s : State) (p : Port) (m : MemMsg) : State :=
  let refuse (st : Nat) : State := (s.giveCredit p m).send (.memory p (rspMsg m (statusResponse st)))
  if m.epoch ≠ s.fabric.epoch then refuse 6
  else if 15 ≤ m.hop + 1 then refuse 4
  else
    match s.route (gaModule m.addr) (msgHash m) with
    | .inr st => refuse st
    | .inl o =>
      if h : o < 16 then
        ({ s with relayed := s.relayed ++ [{ inPort := p.val, outPort := o, msg := m }] } : State).sendFrom (some p)
          (.memory ⟨o, h⟩ { m with hop := m.hop + 1 })
      else s

/-- A request for this module waits at its port for its home agent, or is refused (R31, R267, R275). -/
def State.takeIn (s : State) (p : Port) (m : MemMsg) : State :=
  let refuse (s : State) (st : Nat) : State := (s.giveCredit p m).answer (.link m p) (statusResponse st)
  if m.epoch ≠ s.fabric.epoch then refuse (s.raise (modReg .fabEpoch) 10) 6
  else if gaBad m.addr then refuse s 1
  else if h : gaTract m.addr < 12 then
    ({ s with fabric := { s.fabric with stamp := s.fabric.stamp + 1 } } : State).modFab ⟨gaTract m.addr, h⟩
      (fun f => { f with inbox := f.inbox ++ [{ port := p, msg := m, credit := true, stamp := s.fabric.stamp }] })
  else s

/-- An entry takes the response to its request: one of another epoch or generation is discarded. What a copy or an engine reads comes with its
command, so that of its responses only an error counts here. -/
def RaEntry.takeResponse (e : RaEntry) (m : MemMsg) : RaEntry :=
  match e.stage with
  | .away _ =>
    if e.tag = m.tag % 4096 ∧ e.gen % 16 = m.tag / 4096 ∧ e.epoch = m.epoch ∧ (!e.op.isData ∨ m.status ≠ 0) then
      { e with stage := .answered { status := m.status, data := m.data, poison := m.pmask } }
    else e
  | _ => e

/-- A response reaches the entry it answers, or goes on to its module by the module's own route table (R255, R256, R271, R272, R275); its credit
goes back as it has (R267, R355). -/
def State.takeResponse (s : State) (p : Port) (m : MemMsg) : State :=
  if m.smod = s.job.moduleId.toNat then
    let s := s.giveCredit p m
    if h : m.stract < 12 then s.modFab ⟨m.stract, h⟩ (fun f => { f with ra := f.ra.map (fun e => e.takeResponse m) }) else s
  else
    let same (r : Relayed) : Bool := r.msg.smod == m.smod && r.msg.stract == m.stract && r.msg.tag == m.tag && r.msg.addr == m.addr
    let back := ((s.relayed.find? same).map (fun r => r.inPort)).getD p.val
    let s := { s with relayed := dropFirst same s.relayed }
    if m.epoch ≠ s.fabric.epoch then s.giveCredit p m
    else if h : back < 16 then s.sendResponseFrom (some p) ⟨back, h⟩ m else s.giveCredit p m

/-- MEMORY_MESSAGE: a memory message arrives on a port (R254, R256, R275, R357). -/
def execMemoryMessage (p : Port) (m : MemMsg) (s : State) : Result :=
  .next <|
    if s.portState p.val < 5 then s
    else if 8 ≤ m.mt then s.takeResponse p m
    else if s.portState p.val == 6 then (s.giveCredit p m).send (.memory p (rspMsg m (statusResponse 4)))
    else if gaModule m.addr = s.job.moduleId.toNat then s.takeIn p m
    else s.relay p m

/-- The route table FAB_RTAB names, where it is valid (R256). -/
def State.readRtab (s : State) : Option (AMap Nat Nat) :=
  let ga := s.reg (modReg .fabRtab)
  let inSlice := match windowOf (gaOffset ga) with
    | .slice _ => true
    | _ => false
  if ga % 16 ≠ 0 ∨ !inSlice then none
  else (s.engineRead ga 8192).map (fun bs => ((List.range 4096).map (fun i => (i, fieldAt bs (2 * i) 2))).filter (fun q => q.2 != 0))

/-- The record of an invalid route table at an epoch advance (R256). -/
def State.rtabRecord (s : State) : State :=
  let k := modReg .fabRtab
  s.emit (s.regRecord .regBadValue k (s.reg k) 8)

/-- An advance begins: new operations for other modules are held while the outstanding ones drain; a second request is ignored (R276). -/
def State.advancePut (s : State) : State := { s with fabric := { s.fabric with advancing := true } }

/-- EPOCH_ADVANCE: software writes 1 to ADV (R276). -/
def execEpochAdvance (s : State) : Result := .next (s.atReg (modReg .fabEpoch) 4 State.advancePut)

/-- Operations outstanding at other modules complete with EPOCH. -/
def State.drainAway (s : State) : State :=
  { s with
    relayed := []
    fabs := s.fabs.map (fun (q : Tract × TractFab) => (q.1, { q.2 with ra := q.2.ra.map (fun e =>
      match e.stage with
      | .away _ => { e with stage := .answered (statusResponse 6) }
      | _ => e) })) }

/-- EPOCH_DRAIN_END: what is still outstanding completes with EPOCH; the route table is loaded while the module is ARMED, the epoch
increments, failed ports carry memory traffic again, and the held operations go on (R256, R276, R358). -/
def execEpochDrainEnd (s : State) : Result :=
  .next <|
    if !s.fabric.advancing then s
    else
      let s := s.drainAway
      let s := if s.job.state != .armed then s
        else match s.readRtab with
          | some t => { s with fabric := { s.fabric with rtab := t } }
          | none => s.rtabRecord
      let s := if s.job.state != .armed then s else s.engineTouch (s.reg (modReg .fabRtab)) 8192
      let s := { s with
        fabric := { s.fabric with epoch := (s.fabric.epoch + 1) % 256, advancing := false }
        links := s.links.map (fun (q : Port × LinkPort) => (q.1, { q.2 with failed := false })) }
      allTracts.foldl State.raPump s

/-- FAB_STALL: no memory flit has moved on an edge or a link beside the tract for 1 ms (R278). -/
def execFabStall (t : Tract) (s : State) : Result :=
  .next ((s.raise (tractReg .fabStat t) 49).emit (s.record .fabStall 12 t.val))

end Sys2Proof.Machine
end

