-- ==== Sys2Proof/Machine/Errors.lean ====
section
/-!
DEFINITION. Delivery of error records to the log and the host ring (R416 to R419), the abort of a step (R420, R421), restores and remaps (R304,
R438 to R440).
-/
namespace Sys2Proof.Machine

/-- The 64 bytes of a record (R412). -/
def ErrRec.bytes (r : ErrRec) : List Byte :=
  let opt (v : Option Nat) (bit : Nat) : Nat := match v with
    | some n => n + 2 ^ bit
    | none => 0
  natLe 2 r.cls.code ++ natLe 1 r.sev.code ++ natLe 1 r.unit ++ natLe 2 (r.module % 4096 + r.tract % 16 * 4096) ++ natLe 2 (opt r.parcel 11) ++
    natLe 1 (opt r.core 6) ++ natLe 1 (r.pq % 64 + r.pqk % 4 * 64) ++ natLe 2 r.count ++ natLe 4 r.seq ++ natLe 8 r.mtime ++ natLe 8 r.step ++
    natLe 8 r.addr ++ natLe 8 r.mtlast ++ fit 16 r.detail

/-- Slots of the host event ring (R418). -/
def State.ringSlots (s : State) : Nat := 2 ^ s.regBits (modReg .evrCfg) 4 0

/-- Whether the host ring is being written: EN, and the host not lost (R418). -/
def State.ringOn (s : State) : Bool := s.regBits (modReg .evrCfg) 5 5 == 1 && s.host.up && !s.host.held

/-- Whether the ring is full (R418). -/
def State.ringFull (s : State) : Bool :=
  (s.errs.ringCount + 2 ^ 32 - s.reg (modReg .evrHead)) % 2 ^ 32 == s.ringSlots

/-- A record is written to the log and, while it is on, to the ring, with vector 48 (R418); with the host lost the write to the ring is discarded
and counted (R366). -/
def State.writeRecord (s : State) (r : ErrRec) : State :=
  let s := { s with errs := { s.errs with log := s.errs.log.put (s.errs.logged % 4096) r, logged := s.errs.logged + 1 } }
  if s.ringOn then
    let n := s.errs.ringCount
    let s := { s with errs := { s.errs with ringCount := (n + 1) % 2 ^ 32 } }
    (s.hostWrite (s.reg (modReg .evrBase) + 64 * (n % s.ringSlots)) r.bytes).msix 48
  else if s.regBits (modReg .evrCfg) 5 5 = 1 then { s with host := { s.host with lost := s.host.lost + 1 } }
  else s

/-- The ERR_LOST record of a queue that has dropped n records (R417, R479). -/
def State.lostRecord (s : State) (tract n : Nat) : ErrRec := { s.record .errLost 15 tract with detail := detailWords [n] }

/-- The control die reports its dropped records once its queue has space (R417). -/
def State.cdLostNote (s : State) : State :=
  if s.errs.cdLost = 0 ∨ 256 ≤ s.errs.cdQueue.length then s
  else { s with errs := { s.errs with cdLost := 0 } }.emitCd (s.lostRecord 15 s.errs.cdLost)

/-- The head of the control die's queue is written. -/
def State.cdForward (s : State) : State :=
  match s.errs.cdQueue with
  | [] => s
  | r :: rest =>
    if s.ringOn && s.ringFull then s
    else ({ s with errs := { s.errs with cdQueue := rest } }.writeRecord r).cdLostNote

/-- A tract's collector reports its dropped records once its queue has space (R417). -/
def State.tractLostNote (s : State) (t : Tract) : State :=
  let f := s.fab t
  if f.lost = 0 ∨ 64 ≤ f.collector.length then s
  else (s.modFab t (fun f => { f with lost := 0 })).emitTract t (s.lostRecord t.val f.lost)

/-- The head of a collector moves to the control die. -/
def State.tractForward (s : State) (t : Tract) : State :=
  match (s.fab t).collector with
  | [] => s
  | r :: rest => ((s.modFab t (fun f => { f with collector := rest })).emitCd r).tractLostNote t

/-- ERROR_RECORD_FORWARD: the oldest record of a collector moves to the control die, where its queue has room; the oldest of the control die's
is written to the log and the ring (R416 to R418). -/
def execErrorRecordForward (c : CollectorId) (s : State) : Result :=
  .next (match c with
    | .tract t => if s.errs.cdQueue.length < 256 then s.tractForward t else s
    | .controlDie => s.cdForward)

/-- The rules for the value a write of EVR_CFG leaves: LOG 6 to 16; with EN set before, LOG stays (R7, R418). -/
def State.evrCfgOk (s : State) (v : Nat) : Bool :=
  let k := modReg .evrCfg
  decide (6 ≤ bitsOf v 4 0 ∧ bitsOf v 4 0 ≤ 16) && (s.regBits k 5 5 == 0 || bitsOf v 4 0 == s.regBits k 4 0)

/-- A write of EVR_CFG; setting EN restarts the counts. -/
def State.evrCfgPut (s : State) (v size : Nat) : State :=
  let k := modReg .evrCfg
  let was := s.regBits k 5 5
  let s := s.regWrite k v size s.evrCfgOk
  if was = 0 ∧ s.regBits k 5 5 = 1 then
    { s with errs := { s.errs with ringCount := 0 } }.setReg (modReg .evrHead) 0
  else s

/-- EVR_CFG_WRITE (R418). -/
def execEvrCfgWrite (value : Word) (s : State) : Result :=
  .next (s.atReg (modReg .evrCfg) 4 (fun s => s.evrCfgPut value.toNat 4))

/-- A queue at an abort: entries are abandoned without a completion record or a signal; a queue that ran or had entries in progress is
stopped with CAUSE 0 at its oldest entry; one that already stood keeps its cause (R420, R478). -/
def QueueState.abandon (v : QueueState) : QueueState :=
  if v.stopped && !v.busy then
    let v' := { v with entries := [], signals := [], sigWait := [] }
    match v.entries with
    | e :: _ => { v' with slot := e.pt.slot, chain := if e.pt.addr = 0 then none else some (e.pt.addr, e.pt.nsp, e.pt.pos) }
    | [] => v'
  else
    let v' := { v with stopped := true, cause := 0, entries := [], signals := [], sigWait := [], hold := none }
    match v.entries with
    | e :: _ => { v' with fault := some e.pt, slot := e.pt.slot, chain := none }
    | [] => { v' with fault := none }

/-- The queues of the module. -/
def allQueues : List QueueId := allTracts.flatMap (fun t => [Engine.dispatcher, .mover, .transit, .vector].map (fun e => engQueue t e))

/-- What the issue view holds of a strip with nothing queued for it (R94). -/
def Strip.view (x : Strip) : StripView :=
  { kpos := x.kpos, seq := x.seq, last := x.last.map (fun q => (q.1, (q.2.head?.map List.length).getD 0)) }

/-- The array with its queued entries discarded. -/
def ArrState.dropQueue (a : ArrState) : ArrState :=
  { a with queue := [], view := { cfg := a.cfg, strips := a.strips.map Strip.view } }

/-- A core ends its program as if it had halted; what it awaited no longer reaches it (R420). -/
def Core.endProgram (k : Core) : Core :=
  { k with
    run := if k.run == .stopped then .stopped else .halted
    pwr := if k.run == .running then .sleep else k.pwr
    wait := none, loads := [], rels := [], copies := [] }

/-- Every core ends its program, and its gang breaks; array queues are discarded (R78, R420). -/
def State.endPrograms (s : State) : State :=
  let s := { s with cores := s.cores.map (fun (q : CoreId × Core) => (q.1, q.2.endProgram)) }
  let s := (s.cores.map (fun q => q.1)).foldl (fun (s : State) (c : CoreId) => s.breakGang c .broken) s
  { s with cores := s.cores.map (fun (q : CoreId × Core) => (q.1, { q.2 with arr := q.2.arr.dropQueue })) }

/-- Whether a held record is an audit copy: the tile's first run was another core's (R425). -/
def Parcel.auditCopy (v : Parcel) (q : CoreNo × Held) : Bool :=
  match q.2.audit.bind (fun id => v.audits.find? (fun e => e.id = id)) with
  | some e => e.taken.head? != some q.1
  | none => false

/-- A parcel at an abort: retry and audit copies are discarded, the held ones too; nothing waits on its marks; its vector engine stops. -/
def Parcel.endStep (v : Parcel) : Parcel :=
  { v with
    retries := [], audits := [], heldArr := [], rwaits := [], vec := { VecEngine.reset with flags := v.vec.flags }
    held := (v.held.filter (fun (q : CoreNo × Held) => q.2.first.isNone && !v.auditCopy q)).map
      (fun (q : CoreNo × Held) => (q.1, { q.2 with audit := none })) }

/-- Every agent entry of a tract is freed (R420). -/
def TractFab.flush (f : TractFab) : TractFab := { f with ra := [], inbox := [], comb := [], replW := [] }

/-- Exchanges are abandoned and their buffers emptied; the records of earlier entries stay (R420). -/
def XferState.abandon (x : XferState) : XferState :=
  { x with
    exch := [], paths := [], sends := [], relays := [], cuts := [], begun := []
    tracts := x.tracts.map (fun (q : Tract × TractXfer) => (q.1, { q.2 with ranks := [], waits := [] })) }

/-- Memory messages that wait in the link buffers are discarded (R420). DEDUCED: one whose sending or arrival has begun comes to its end, without
which the stream could not be read on (assumption log 47). -/
def LinkPort.dropMemory (l : LinkPort) : LinkPort := { l with tx := (l.tx.erase 1).erase 2 }

/-- What waits in the receive buffers, for a home agent or to be relayed, leaves them, and its credits go back (R267, R277). -/
def State.returnBuffers (s : State) : State :=
  let s := s.fabs.foldl (fun (s : State) (q : Tract × TractFab) => s.leaveInbox q.2.inbox) s
  s.links.foldl (fun (s : State) (q : Port × LinkPort) =>
    (s.leaveBuffers 1 (q.2.tx.get 1 [])).leaveBuffers 2 (q.2.tx.get 2 [])) s

/-- The row counters and the conservation counters of every tract are cleared (R420). -/
def State.clearCounters (s : State) : State :=
  allTracts.foldl (fun s t => [RegName.clSend, .clRecv, .clNull, .fabCl, .fabHcl].foldl (fun s r => s.setReg (tractReg r t) 0) s) s

/-- Each collector forwards all its records, whether or not the control die's queue has room, and then reports what it had dropped (R417,
R420). -/
def State.drainCollector (s : State) (t : Tract) : State :=
  let f := s.fab t
  let s := f.collector.foldl State.emitCd (s.modFab t (fun f => { f with collector := [], lost := 0 }))
  if f.lost = 0 then s else s.emitCd (s.lostRecord t.val f.lost)

/-- Steps 1 to 5 of an abort, which a restore and a remap begin with (R420, R438). -/
def State.flush (s : State) : State :=
  let stops (q : QueueId) : Bool := !((s.queue q).stopped && !(s.queue q).busy)
  let s := s.endPrograms.returnBuffers
  let s := { s with
    queues := allQueues.map (fun q => (q, (s.queue q).abandon)), engWaits := []
    parcels := s.parcels.map (fun (q : ParcelId × Parcel) => (q.1, q.2.endStep))
    xfer := s.xfer.abandon
    fabs := s.fabs.map (fun (q : Tract × TractFab) => (q.1, q.2.flush)), relayed := []
    links := s.links.map (fun (q : Port × LinkPort) => (q.1, q.2.dropMemory))
    fabric := { s.fabric with advancing := true } }
  let s := (allQueues.filter (fun q => stops q)).foldl (fun (s : State) (q : QueueId) => s.msix (queueNum q)) s
  allTracts.foldl State.drainCollector s.clearCounters

/-- Whether a record, as queued or written, holds an occurrence r: it is like r, and r lies between its first occurrence and its last (R416). -/
def ErrRec.includes (x r : ErrRec) : Bool := x.sameAs r && decide (x.mtime ≤ r.mtime ∧ r.mtime ≤ x.mtlast)

/-- The SEQ of the record that holds an occurrence, which has joined the control die's queue or has been written; one that was dropped has none, and its
value is free. -/
def State.seqOf (s : State) (r : ErrRec) : Nat :=
  match s.errs.cdQueue.find? (fun x => x.includes r) with
  | some x => x.seq
  | none =>
    match (s.errs.log.filter (fun q => q.2.includes r)).map (fun q => q.2.seq) with
    | [] => s.freeVal.toNat % 2 ^ 32
    | l => l.foldl max 0

/-- A notice goes to every other module of the job (R421). -/
def State.sendNotices (s : State) (seq : Nat) : State :=
  (s.jobModules.filter (fun m => m ≠ s.job.moduleId.toNat)).foldl (fun s m =>
    match s.mgmtPort m with
    | some p => s.send (.abortNotice p m s.job.moduleId.toNat seq)
    | none => s) s

/-- Step 6 of an abort: ABORTED and STEP_ABORT; no step runs, and the boundary does not go on (R420). -/
def State.abortEnd (s : State) (detail : List Nat) : State :=
  let s := { s with
    errs := { s.errs with running := false, abort := none }
    job := { s.job with aborts := s.job.aborts + 1 }
    plan := { s.plan with bnd := { Boundary.reset with phase := .broken } } }
  let k := modReg .snapStat
  let s := if s.regBits k 1 0 = 1 then s.setRegBits k 1 0 0 else s
  (s.raise (modReg .errStat) 1).emitCd { s.recordM .stepAbort with detail := detailWords detail }

/-- STEP_ABORT: the step that runs is aborted (R420, R421). -/
def execStepAbort (s : State) : Result :=
  .next <|
    match s.errs.abort with
    | none => s
    | some (.record r) =>
      let s := s.flush
      let seq := s.seqOf r
      (s.takeFree.sendNotices seq).abortEnd [seq]
    | some (.notice m seq) => s.flush.abortEnd [m, seq]

/-- Memory without the bytes and checks whose addresses a test names: they read as zero with valid checks. -/
def Mem.clearIf (m : Mem) (p : Nat → Bool) : Mem :=
  { bytes := m.bytes.filter (fun c => !p c.1), poison := m.poison.filter (fun a => !p a), ce := m.ce.filter (fun a => !p a)
    ue := m.ue.filter (fun a => !p a), par := m.par.filter (fun a => !p a) }

/-- Local stores and commons software regions of every parcel (R438). -/
def State.softwareByte (s : State) (a : Nat) : Bool :=
  match windowOf (gaOffset a), keyParcel a with
  | .store _ _, _ => true
  | .commons off, some p => !s.cmOwned p.tract off
  | _, _ => false

/-- Whether an address lies in a parcel of a list. -/
def inParcels (ps : List ParcelId) (a : Nat) : Bool :=
  match keyParcel a with
  | some p => ps.contains p
  | none => false

/-- Retired parcels in the order of rows. -/
def State.retiredParcels (s : State) : List ParcelId :=
  sortBy (fun (a b : ParcelId) => keyOf a.tract.val a.parcel.val 0 ≤ keyOf b.tract.val b.parcel.val 0)
    ((s.parcels.filter (fun q => q.2.health.retired)).map (fun q => q.1))

/-- Whether the spare of a parcel's row is still to be had (R13, R14): the row has no failed site, and no number has moved to its spare. -/
def State.spareFree (s : State) (p : ParcelId) : Bool :=
  (s.failedSite p.tract.val (p.parcel.val / 34)).isNone && s.parcels.all (fun q => !(q.1.tract = p.tract && q.1.parcel.val / 34 = p.parcel.val / 34 && q.2.health.spare))

/-- Retired parcels are moved to the spares of their rows; the rest of the list where a row has none left (R14, R438, R440). -/
def State.bringIn (s : State) : List ParcelId → State × List ParcelId
  | [] => (s, [])
  | p :: ps =>
    if s.spareFree p then (s.modHealth p (fun h => { h with spare := true, retired := false })).bringIn ps else (s, p :: ps)

/-- Tile lists, retry queues and held records emptied, arrays unconfigured (R438). -/
def State.emptyWork (s : State) : State :=
  { s with
    parcels := s.parcels.map (fun (q : ParcelId × Parcel) => (q.1, { q.2 with tiles := [], held := [], retries := [], audits := [] }))
    cores := s.cores.map (fun (q : CoreId × Core) =>
      (q.1, { q.2 with arr := { ArrState.reset with flags := q.2.arr.flags, nextId := q.2.arr.nextId } })) }

/-- SNAP_STAT.STATE. -/
def State.snapState (s : State) : Nat := s.regBits (modReg .snapStat) 1 0
def State.setSnapState (s : State) (n : Nat) : State := s.setRegBits (modReg .snapStat) 1 0 n

/-- A restore or remap asked for when it may not start: RESTORE_FAIL with BUSY; one that runs, or a snapshot, goes on (R438, R440). -/
def State.restoreBusy (s : State) : State :=
  let k := modReg .snapStat
  let s := if s.snapState = 1 ∨ s.snapState = 2 then s else (s.setSnapState 3).setRegBits k 5 2 1
  let r := { s.recordM .restoreFail with detail := detailWords [1] }
  (s.noteAbort r).queueRec r

/-- Step 2 of a restore or remap (R14, R16, R438, R440): retired parcels get the spares of their rows, until a row has none left. What lies in a
number that has moved is the spare's own: nothing written. -/
def State.bringSpares (s : State) : State × Bool :=
  let old := s.retiredParcels
  let (s, left) := s.bringIn old
  let moved := old.filter (fun p => !left.contains p)
  ({ s with
    mem := s.mem.clearIf (inParcels moved)
    parcels := s.parcels.map (fun (q : ParcelId × Parcel) => if moved.contains q.1 then (q.1, { q.2 with frozen := [] }) else q) }, left.isEmpty)

/-- A restore or remap begins: its steps 1 and 2, and the zeroing of local stores and commons software regions with which step 3 of a restore
begins. Each row's remap is committed as it is brought in; a row without a spare ends it (R438 to R440). -/
def State.restoreBegin (s : State) (run : RestoreRun) : State :=
  let s := (s.flush.emptyWork.setSnapState 2).setRegBits (modReg .snapStat) 5 2 0
  let (s, ok) := { s with up := { s.up with restore := run } }.bringSpares
  if !ok then s.restoreFail 5 []
  else if run == .restore then { s with mem := s.mem.clearIf s.softwareByte }
  else s

/-- A restore begins in OWNED, or in ARMED while no step runs (R438). -/
def State.askRestore (s : State) : State :=
  let may := s.up.restore == .idle && (s.job.state == .owned || (s.job.state == .armed && !s.errs.running))
  if may then s.restoreBegin .restore else s.restoreBusy

/-- RESTORE: software writes 1 to RESTORE (R438). -/
def execRestore (s : State) : Result := .next (s.atReg (modReg .snapCtl) 8 State.askRestore)

/-- A remap begins in OWNED (R440). -/
def State.askRemap (s : State) : State :=
  if s.up.restore == .idle && s.job.state == .owned then s.restoreBegin .remap else s.restoreBusy

/-- REMAP: software writes 1 to REMAP (R440). -/
def execRemap (s : State) : Result := .next (s.atReg (modReg .snapCtl) 8 State.askRemap)

/-- The end of a restore or remap that has succeeded. -/
def State.restoreEnd (s : State) (word : Nat) : State :=
  { s with up := { s.up with restore := .idle } }.setSnapState 0 |>.emit { s.recordM .restored with detail := detailWords [word] }

/-- Every mark 0 and every MARK_BCFG entry disabled (R304). -/
def State.clearMarks (s : State) : State :=
  { s with
    regs := s.regs.filter (fun q => q.1.r ≠ .markBcfg)
    mem := s.mem.clearIf (fun a => match windowOf (gaOffset a) with
      | .commons off => markBase ≤ off
      | _ => false)
    parcels := s.parcels.map (fun (q : ParcelId × Parcel) => (q.1, { q.2 with frozen := [] })) }

/-- Bytes of a parcel in section 2 of an image: 1,024 mark words and 32 MARK_BCFG entries (R434). -/
def markBytes : Nat := 4096 + 256

/-- The mark words and MARK_BCFG entries of an image's regions 0 and 1 are written (R303, R434). -/
def State.putMarks (s : State) (bs : List Byte) : State :=
  allParcels.zipIdx.foldl (fun (s : State) (q : ParcelId × Nat) =>
    let b := (bs.drop (markBytes * q.2)).take markBytes
    (List.range 32).foldl (fun (s : State) (n : Nat) => s.setReg (parcelRegI .markBcfg q.1 n) (fieldAt b (4096 + 8 * n) 8))
      (s.store (commonsKey q.1 markBase) (b.take 4096))) s

/-- Every flag group and aggregate is 0 (R127). -/
def State.clearFlags (s : State) : State :=
  { s with
    regs := s.regs.filter (fun q => q.1.r ≠ .parcelNflags && q.1.r ≠ .tractNflags)
    seqrs := s.seqrs.map (fun (q : Tract × Seqr) => (q.1, { q.2 with convFlags := 0, redFlags := 0 }))
    cores := s.cores.map (fun (q : CoreId × Core) => (q.1, { q.2 with arr := { q.2.arr with flags := Vector.replicate 4 0 } }))
    parcels := s.parcels.map (fun (q : ParcelId × Parcel) => (q.1, { q.2 with vec := { q.2.vec with flags := 0 } })) }

/-- The pieces of sections 3 and 4 in order, with the address each goes to: the plan, which has none, the cadastre tables, the tensors and their
scales (R434). -/
def PlanImage.pieces (p : PlanImage) : List (Option Nat × Nat) :=
  (none, p.length) :: p.layers.map (fun l => (some l.cadGa, 16 * l.e)) ++
    p.kept.flatMap (fun r => [(some r.ga, r.rows * r.rowbytes), (some r.scaleGa, r.scaleBytes)])

/-- Bytes of sections 3 and 4, as far as they have been read, go to their addresses. -/
def State.putPieces (s : State) : List (Option Nat × Nat) → List Byte → State
  | [], _ => s
  | (a, n) :: ps, bs =>
    let s := match a with
      | some ga => s.store (ga % 2 ^ 52) (bs.take n)
      | none => s
    s.putPieces ps (bs.drop n)

/-- RDIGEST[i] of a manifest area. -/
def regionDigest (m : List Byte) (i : Nat) : List Byte := (m.drop (256 + 48 * i)).take 48

/-- The manifest's checks: MDIGEST, JOB, MODULE and NPARCEL (R434, R438). -/
def State.manifestOk (s : State) (m : List Byte) : Bool :=
  (m.drop 208).take 48 == digest (m.take 208 ++ m.drop 256) && fieldAt m 8 8 == s.reg (modReg .linkJob) &&
    fieldAt m 16 2 % 4096 == s.job.moduleId.toNat && fieldAt m 18 2 == 16320

/-- Regions i and on, of which n are to come: their bytes from region 2 on, up to the first that the source does not give (cause 4) or whose digest
fails outside regions 0 and 1 (cause 3), with that cause, 0 for none, and the region (R439). -/
def readRegions (m : List Byte) : Nat → Nat → List (List Byte) → List Byte × Nat × Nat
  | 0, _, _ => ([], 0, 0)
  | _ + 1, i, [] => ([], 4, i)
  | n + 1, i, r :: rs =>
    let r := fit regionSize r
    if 2 ≤ i ∧ digest r ≠ regionDigest m i then ([], 3, i)
    else
      let x := readRegions m n (i + 1) rs
      (if 2 ≤ i then r ++ x.1 else x.1, x.2)

/-- Whether regions 0 and 1 have passed (R304). -/
def marksSound (m : List Byte) (regions : List (List Byte)) : Bool :=
  (regions.take 2).zipIdx.all (fun q => digest (fit regionSize q.1) == regionDigest m q.2)

/-- The plan an image's sections 3 and on begin with; its slot tables are those in force, which no image holds (R434). -/
def State.imagePlan (s : State) (body : List Byte) : PlanImage :=
  { bytes := body.take ({ bytes := body, tables := [] } : PlanImage).length, tables := (s.plan.inForce.map (fun p => p.tables)).getD [] }

/-- Step 5 of a restore: the marks of regions 0 and 1 are written, or cleared where either has failed (R304, R438). -/
def State.restoreMarks (s : State) (m : List Byte) (regions : List (List Byte)) : State :=
  let s := s.clearMarks
  if marksSound m regions then s.putMarks ((regions.take 2).flatMap (fit regionSize))
  else (s.raise (modReg .markMstat) 0).emit (s.recordM .marksCleared)

/-- Steps 3 to 6 of a restore once its image has been read (R438, R439). A region that fails leaves the regions before it written. -/
def State.restoreImage (s : State) (manifest : List Byte) (regions : List (List Byte)) : State :=
  let nreg := fieldAt manifest 20 4
  let m := manifest.take (manifestSize nreg)
  if !s.manifestOk m then s.restoreFail 2 []
  else
    let (body, cause, k) := readRegions m nreg 0 regions
    let img := s.imagePlan body
    let s := s.putPieces img.pieces body
    if cause ≠ 0 then s.restoreFail cause (if cause = 3 then [k] else [])
    else
      let s := s.restoreMarks m regions
      let s := { s with
        plan := { s.plan with inForce := some img, reused := false }
        job := { s.job with step := BitVec.ofNat 64 (fieldAt m 24 8) }
        parcels := s.parcels.map (fun (q : ParcelId × Parcel) => (q.1, { q.2 with stash := { q.2.stash with used := 0, full := 0, told := 0 } })) }
      let s := (s.clearFlags.setRegBits (modReg .errStat) 1 1 0).restoreEnd 0
      if s.job.state == .armed then s.beginAgree else s

/-- RESTORED: a restore has read its image, as far as its source gave it, or a remap has gone through its rows (R438 to R440). -/
def execRestored (r : RestoreImage) (s : State) : Result :=
  .next (match s.up.restore, r with
    | .restore, .sourceFailed => s.restoreFail 4 []
    | .restore, .image manifest regions => s.restoreImage manifest regions
    | .remap, .remapDone => s.restoreEnd 1
    | _, _ => s)

end Sys2Proof.Machine
end

