-- ==== Sys2Proof/Machine/Identity.lean ====
section
/-!
DEFINITION. The keys of the module, the leaf counter of the attestation key, the image's checks, and accessors of the security and power state
(R396 to R400, R403, R404, R407, R408).
-/
namespace Sys2Proof.Machine

/-- Parts of the upkeep changed. -/
def State.modSec (s : State) (f : Security → Security) : State := { s with up := { s.up with sec := f s.up.sec } }
def State.modBoot (s : State) (f : Boot → Boot) : State := { s with up := { s.up with boot := f s.up.boot } }
def State.modPins (s : State) (f : Pins → Pins) : State := { s with up := { s.up with pins := f s.up.pins } }

/-- Leaves of the HSS key: 1,024 lower trees of 1,024. -/
def leafTotal : Nat := 1048576

/-- SHA-384 as bytes. -/
def sha384Bytes (m : List Byte) : List Byte := natLe 48 (Config.sha384 m).toNat

/-- HMAC-SHA-384 (R403). -/
def hmac384 (key msg : List Byte) : List Byte :=
  let k := if 128 < key.length then sha384Bytes key else key
  let k := k ++ List.replicate (128 - k.length) 0
  sha384Bytes (k.map (fun b => b ^^^ 0x5C) ++ sha384Bytes (k.map (fun b => b ^^^ 0x36) ++ msg))

/-- HKDF-SHA-384 without a salt, of at most 48 bytes (R403). -/
def hkdf384 (ikm info : List Byte) (n : Nat) : List Byte := (hmac384 (hmac384 (List.replicate 48 0) ikm) (info ++ [1])).take n

/-- Who may ask for an item of the OTP (R396, R397). -/
inductive OtpReader where
  | bootRom | milulo | host | jtag | testmux | debug
  deriving DecidableEq, Repr

/-- A read of UDS: the boot ROM's alone, until it is locked; at no debug level another's (R396, R397). -/
def Security.readUds (v : Security) (r : OtpReader) : Option (BitVec 256) :=
  if r = .bootRom && !v.udsLocked then some Config.uds else none

/-- The fields of an image's header (R398). -/
def Image.manifest (im : Image) : List Byte := im.header.take 128
def Image.kslot (im : Image) : Nat := fieldBits im.header 6 1 1 0
def Image.svn (im : Image) : Nat := fieldAt im.header 7 1
def Image.blen (im : Image) : Nat := fieldAt im.header 8 4
def Image.bhash (im : Image) : Nat := fieldAt im.header 16 48
def Image.revoke (im : Image) : Nat := fieldBits im.header 64 1 3 0
def Image.commit (im : Image) : Bool := bitOf (fieldAt im.header 64 1) 4
def Image.epub (im : Image) : List Byte := (im.header.drop 128).take 97
def Image.lpub (im : Image) : List Byte := (im.header.drop 225).take 60
def Image.esig (im : Image) : List Byte := (im.header.drop 285).take 96
def Image.lsig (im : Image) : List Byte := (im.header.drop 381).take 2964

/-- The keys the boot ROM derives: DeviceID and the HSS seed from UDS alone, CDI from UDS and the manifest (R403). -/
def deviceKeys (secret : BitVec 256) (manifest : List Byte) : DeviceKeys :=
  let uds := natLe 32 secret.toNat
  { device := hkdf384 uds (Config.hkdfInfo 0) 48, hssSeed := hkdf384 uds (Config.hkdfInfo 1) 32, cdi := hmac384 uds manifest }

/-- The Alias key, from CDI (R403). -/
def DeviceKeys.alias (k : DeviceKeys) : List Byte := hkdf384 k.cdi (Config.hkdfInfo 2) 48

/-- The boot ROM derives the keys, locks UDS and starts an image that has passed its checks (R397, R399, R403). -/
def Security.start (v : Security) (im : Image) : Security :=
  { v with
    keys := match v.readUds .bootRom with
      | some u => some (deviceKeys u im.manifest)
      | none => v.keys
    udsLocked := true, running := some im }

/-- J of the newest journal record where it passes at boot: its CRC-32 agrees, and its bound lies in the tree begun last (R407). -/
def Security.bootJournal (v : Security) : Option Nat :=
  v.journal.bind (fun r =>
    if r.crc = Config.journalCrc r.bound ∧ v.ltree * 1024 < r.bound + 1024 ∧ r.bound ≤ v.ltree * 1024 then some r.bound else none)

/-- The next leaf at boot: the journal's bound, else the start of the next tree (R407). -/
def Security.bootLeaf (v : Security) : Nat := v.bootJournal.getD (v.ltree * 1024)

/-- LEAF_LOW with its record, and LEAF_OUT (R408). -/
def State.leafFlags (s : State) : State :=
  let left := leafTotal - s.up.sec.leaf
  let k := modReg .secStat
  let s := if left < 4096 ∧ s.regBits k 20 20 = 0 then (s.raise k 20).emit (s.recordM .attLeafLow) else s
  if left = 0 then s.raise k 21 else s

/-- Whether the next leaf lies below the journal's bound (R407). -/
def Security.reserved (v : Security) : Bool := v.leaf < v.bound

/-- The bound of the record that the next leaf needs (R407). -/
def Security.nextBound (v : Security) : Nat := 64 * (v.leaf / 64 + 1)

/-- A leaf is used: the journal's bound is raised past it first, and its tree's fuse burnt (R407). -/
def Security.useLeaf (v : Security) : Security :=
  let x := v.leaf
  let v := if v.reserved then v
    else { v with journal := some { bound := v.nextBound, crc := Config.journalCrc v.nextBound }, bound := v.nextBound }
  { v with ltree := max v.ltree (x / 1024 + 1), leaf := x + 1 }

/-- A journal record did not read back as written: the newest record is then whatever the write has left, its CRC-32 a free value; no leaf is used
(R407, R408). -/
def State.journalFails (s : State) : State :=
  (s.modSec (fun v => { v with journal := some { bound := v.nextBound, crc := (s.freeVal).extractLsb' 0 32 } })).takeFree

/-- The signatures with the next leaf, of a key and of the HSS seed, over a hash (R404, R405). -/
def Security.signatures (v : Security) (key : List Byte) (fresh : Nat) (h : BitVec 384) : List Byte × List Byte :=
  (Config.ecdsaSign key fresh h, Config.hssSign ((v.keys.map DeviceKeys.hssSeed).getD []) v.leaf h)

/-- The Alias certificate: of the Alias key, with the manifest that runs, signed by the DeviceID key and with one leaf (R404). -/
def Security.makeAlias (v : Security) (fresh : Nat) : List Byte :=
  let body := Config.aliasBody (Config.ecdsaPub ((v.keys.map DeviceKeys.alias).getD [])) ((v.running.map (fun im => im.manifest)).getD [])
  let (e, l) := v.signatures ((v.keys.map DeviceKeys.device).getD []) fresh (Config.sha384 body)
  Config.x509 body e l

/-- The DeviceID certificate in flash, issued at manufacture: it binds SERIAL to the DeviceID public key and the HSS public key, under Vurrama's two
signatures (R404). -/
def deviceCert : List Byte :=
  let k := deviceKeys Config.uds []
  let body := Config.deviceBody Config.serial (Config.ecdsaPub k.device) (Config.hssPub k.hssSeed)
  Config.x509 body (Config.vendorEcdsa body) (Config.vendorHss body)

/-- Slot 0: the root, the DeviceID certificate and the Alias certificate (R405). -/
def Security.chain (v : Security) : List Byte := Config.rootCert ++ deviceCert ++ v.aliasCert.getD []

/-- At each boot the Alias certificate takes a leaf, where one is left; whether the journal record it needs is written is a free value, and without it
none is issued (R404, R407, R408). -/
def State.bootIdentity (s : State) : State :=
  let s := s.modSec (fun v => { v with leaf := v.bootLeaf, bound := v.bootJournal.getD 0 })
  let s := if leafTotal ≤ s.up.sec.leaf then s
    else if !s.up.sec.reserved && s.freeVal.getLsbD 0 then s.takeFree.journalFails
    else s.takeFree.modSec (fun v => { v.useLeaf with aliasCert := some (v.makeAlias s.free) })
  s.leafFlags

/-- A run of bytes of the staging buffer; a byte nothing has written reads 0 (R454). -/
def Security.staged (v : Security) (off n : Nat) : List Byte := tabulate n (fun i => byteAt v.staging (off + i))

/-- The image in the staging buffer (R398). -/
def Security.stagedImage (v : Security) : Image :=
  let h := v.staged 0 4096
  { header := h, body := v.staged 4096 (fieldAt h 8 4) }

/-- Check 1 of R399: MAGIC, HVER and the reserved fields are right, BLEN and ENTRY lie in range. -/
def Image.formed (im : Image) : Bool :=
  let h := im.header
  fieldAt h 0 4 == 0x4F4C554D && fieldAt h 4 2 == 1 && fieldBits h 6 1 7 2 == 0 && fieldBits h 64 1 7 5 == 0 && fieldAt h 65 63 == 0 &&
    fieldAt h 3345 751 == 0 && decide (im.svn ≤ 128) && decide (4 ≤ im.blen ∧ im.blen ≤ 33550336) && im.blen % 4 == 0 && decide (fieldAt h 12 4 < im.blen)

/-- The first check of R399 that an image fails, 0 for none. -/
def Security.check (v : Security) (im : Image) : Nat :=
  let e := Config.sha384 im.epub
  let l := Config.sha384 im.lpub
  if !im.formed then 1
  else if bitOf v.krevoke im.kslot then 2
  else if e ≠ Config.khashE im.kslot ∨ l ≠ Config.khashL im.kslot then 3
  else if !(Config.ecdsaOk e im.manifest im.esig && Config.hssOk l im.manifest im.lsig) then 4
  else if im.svn < v.arb then 5
  else if (Config.sha384 (im.body.take im.blen)).toNat ≠ im.bhash then 6
  else 0

/-- The first check that the staged image fails, 0 for none. -/
def Security.imageCheck (v : Security) : Nat := v.check v.stagedImage

/-- What the fuses hold after a reset or loss of power: while a running image with COMMIT has burns to make, ARB lies between its value and the
image's SVN, and some of the slots named are revoked (R396, R400). -/
def State.fuseCut (s : State) (v : Security) : Security :=
  match s.job.state.trains, s.up.sec.running with
  | true, some im =>
    if im.commit && s.regBits (modReg .secStat) 12 12 == 0 then
      { v with
        arb := v.arb + (s.freeVal.toNat / 2 ^ 8) % (im.svn - v.arb + 1)
        krevoke := v.krevoke ||| (s.freeVal.toNat / 2 ^ 4 % 16 &&& (im.revoke - (im.revoke &&& 2 ^ im.kslot))) }
    else v
  | _, _ => v

/-- UPD_CTL.BUSY. -/
def State.updBusy (s : State) : Bool := s.regBits (modReg .updCtl) 1 1 == 1

/-- What flash holds after a reset or loss of power: while an image that passes is being verified or programmed, the old image or an
invalid one, which the spec leaves to the moment (R401). -/
def State.flashCut (s : State) : Option Image :=
  if s.updBusy && s.up.sec.imageCheck == 0 && s.freeVal.getLsbD 0 then none else s.up.sec.flash

end Sys2Proof.Machine
end

