-- ==== Sys2Proof/Machine/Boot.lean ====
section
/-!
DEFINITION. Reset and boot (R23, R371, R374, R390 to R392, R400, R402, R412, R418, R429, R439, R468, R472).
-/
namespace Sys2Proof.Machine

def bootStat : RegKey := modReg .bootStat

/-- BOOT_STAT.PHASE. -/
def State.phase (s : State) : Nat := s.regBits bootStat 3 0
def State.setPhase (s : State) (n : Nat) : State := s.setRegBits bootStat 3 0 n

/-- A parcel after a module reset: its health table stays; the step starts at 32 again, or at its cap (R381, R429). -/
def Parcel.afterReset (v : Parcel) : Parcel :=
  { Parcel.reset with health := { v.health with
      dramce := 0, askip := 0, step := min 32 v.health.cap, estimate := 0, coeff := 0, slacks := [], cycBase := 0, cycSince := 0 } }

/-- What a module reset keeps of a tract's power: the rail that stopped it, and what its sensors read (R390). -/
def TractPower.afterReset (v : TractPower) : TractPower :=
  { TractPower.reset with dead := v.dead, tj := v.tj, tm := v.tm }

/-- What a module reset keeps of fuses and flash; the nonce stays, the token buffer is cleared. -/
def Security.afterReset (v : Security) : Security :=
  { Security.reset with
    arb := v.arb, krevoke := v.krevoke, ltree := v.ltree, journal := v.journal, flash := v.flash, nonce := v.nonce, recoveries := v.recoveries }

/-- A module reset by a cause of RST_CAUSE, and what holds the module in RESET then: everything returns to its reset value but RST_CAUSE,
the always-on counters (R395: those that count on AOCLK, meridian time with them), the error log with its sequence numbers, fuses, flash and the health table, the pins and the TAP (R23, R390,
R412, R418, R429, R471). While RESET_N is low, and after a thermal trip, only a rise of RESET_N ends the RESET. -/
def State.moduleReset (s : State) (cause : Nat) (hold : ResetHold) : State :=
  let k := modReg .rstCause
  let old := s.reg k
  let b := s.up.boot
  { State.reset with
    pending := s.pending, free := s.free + 1, aoTime := s.aoTime, mtime := s.mtime, out := s.out
    parcels := s.parcels.map (fun (q : ParcelId × Parcel) => (q.1, q.2.afterReset))
    host := { up := false, held := s.up.pins.perstLow || s.up.pins.perstFast, lost := 0, bar2 := none, latched := [] }
    regs := [(k, setBits (setBits old cause cause 1) 15 8 (bitsOf old 15 8 + 1))]
    errs := { Errs.reset with nextSeq := s.errs.nextSeq, log := s.errs.log, logged := s.errs.logged }
    up := { s.up with
      boot := { b with hold := if b.pinLow then .pin else if b.tripped then .trip else hold, tries := 0 }
      tracts := s.up.tracts.map (fun (q : Tract × TractPower) => (q.1, q.2.afterReset))
      sec := s.fuseCut { s.up.sec.afterReset with flash := s.flashCut }, coastTicks := 0, vrFaults := [], rails := [], snapped := false } }

/-- Power-on: nothing is kept but fuses, flash and the health table; the cause is POR and COUNT is 0 (R390, R396, R429). -/
def State.powerOn (s : State) : State :=
  { State.reset with
    pending := s.pending, free := s.free + 1, out := s.out
    parcels := s.parcels.map (fun (q : ParcelId × Parcel) => (q.1, q.2.afterReset))
    up := { Upkeep.reset with
      sec := s.fuseCut { s.up.sec.afterReset with flash := s.flashCut, recoveries := 0 }, hours := s.up.hours, replanAt := s.up.replanAt,
      badSites := s.up.badSites, badLanes := s.up.badLanes, badChannels := s.up.badChannels, badCores := s.up.badCores, badUnits := s.up.badUnits } }

/-- POWER_ON (R390). -/
def execPowerOn (s : State) : Result := .next s.powerOn

/-- RESET_N_LOW: RESET_N has been low for 1 us (R390). -/
def execResetNLow (s : State) : Result :=
  .next ((s.modBoot (fun b => { b with pinLow := true })).moduleReset 1 .pin)

/-- Boot starts at step 1 with the straps as sampled last (R391). -/
def State.startBoot (s : State) : State :=
  { s with
    job := { s.job with state := .boot }
    up := { s.up with tracts := s.up.tracts.map (fun (q : Tract × TractPower) => (q.1, { q.2 with tj := none, tm := none })) } }.setPhase 1

/-- Whether every sensor reads below 95 degrees, which ends the RESET of a thermal trip (R390). -/
def State.sensorsCool (s : State) : Bool := s.up.tracts.all (fun q => q.2.tj.getD 0 < 95 && q.2.tm.getD 0 < 95)

/-- Pin instructions of the TAP end as RESET_N rises (R472). -/
def TapInstr.pinsFree : TapInstr → TapInstr
  | .extest | .clamp | .highz => .bypass
  | i => i

/-- RESET_N_RISE: the straps are sampled and boot begins; after a low too short to count they are not sampled, and a change since they were sets
STRAP_CHG (R394; DEDUCED, assumption log 42). Boot does not begin where a rail is not valid, or after a thermal trip a sensor is still hot (R371,
R390, R391, R468, R472). -/
def execResetNRise (x : Straps) (s : State) : Result :=
  .next <|
    if !s.up.boot.pinLow then (if s.up.boot.straps.all (fun y => y == x) then s else s.raise (modReg .pinStat) 4)
    else
      let s := { s with up := { s.up with
        boot := { s.up.boot with pinLow := false, straps := some x }, tap := s.up.tap.pinsFree
        tapDr := if s.up.tap.pinsFree == s.up.tap then s.up.tapDr else 0 } }
      if !s.up.boot.bad.isEmpty then s
      else if s.up.boot.tripped && !s.sensorsCool then s.modBoot (fun b => { b with hold := .trip })
      else (s.modBoot (fun b => { b with tripped := false })).startBoot

/-- A write of RST_REQ: the key resets the module, another value is reserved (R390). RST_REQ is served in FAILED too (R447). -/
def State.rstReqPut (s : State) (key size : Nat) : State :=
  if key % 65536 = 0xA5C3 then s.moduleReset 2 .internal else s.badValue (modReg .rstReq) key size

/-- Whether BAR0 serves the registers of the FAILED set: after a failed boot, in recovery, from READY on (R392, R447). -/
def State.servesFailed (s : State) : Bool := s.job.state.trains || (s.job.state == .boot && (s.phase == 15 || s.phase == 14))

/-- RST_REQ (R390, R447). -/
def execRstReq (key : BitVec 16) (s : State) : Result := .next (if s.servesFailed then s.rstReqPut key.toNat 4 else s)

/-- LOCKSTEP_MISMATCH (R390). -/
def execLockstepMismatch (s : State) : Result := .next (s.moduleReset 4 .internal)

/-- INTERNAL_RESET_END: the module has been in RESET for 1 ms after an internal cause and goes on as if RESET_N had risen (R390). -/
def execInternalResetEnd (s : State) : Result :=
  .next (if s.job.state == .reset && s.up.boot.hold == .internal && s.up.boot.bad.isEmpty then s.startBoot else s)

/-- OSC_WAIT_END: step 2 begins, in which the PCIe link trains; how long that takes is left out (R374, R391, R393). -/
def execOscWaitEnd (s : State) : Result :=
  .next (if s.job.state == .boot && s.phase == 1 then { s.setPhase 2 with host := { s.host with up := !s.host.held } } else s)

/-- PLL_LOCK_RETRY: step 2 repeats after a further wait, at most 8 times (R392). -/
def execPllLockRetry (s : State) : Result :=
  .next <|
    if s.job.state != .boot || s.phase != 2 then s
    else if 8 ≤ s.up.boot.tries then s.setPhase 15
    else (s.modBoot (fun b => { b with tries := b.tries + 1 })).setPhase 1

/-- The PLLs of the tracts, the panel and the control die are locked, or none is (R377). -/
def State.setLocks (s : State) (on : Bool) : State :=
  (s.setRegBits (modReg .clkStat) 17 6 (if on then 0xFFF else 0)).setRegBits (modReg .clkStat) 18 18 (b2n on)

/-- Parcels that fail a boot step are recorded and marked retired (R392). -/
def State.bootFails (s : State) : List ParcelId → State
  | [] => s
  | p :: ps =>
    let first := s.regBits bootStat 4 4 == 0
    let s := if first then s.setRegBits bootStat 27 17 p.parcel.val else s
    let s := (s.setRegBits bootStat 4 4 1).setRegBits bootStat (5 + p.tract.val) (5 + p.tract.val) 1
    (s.modHealth p (fun h => { h with retired := true })).bootFails ps

/-- READY: a leaf goes to the Alias certificate, and a restore that the reset cut off is reported (R391, R404, R439). -/
def State.enterReady (s : State) : State :=
  let s := ({ s with job := { s.job with state := .ready } }.setPhase 7).bootIdentity
  if s.up.restore == .restore then s.restoreFail 7 [] else { s with up := { s.up with restore := .idle } }

/-- Recovery mode (R392, R402). -/
def State.enterRecovery (s : State) (check : Nat) : State :=
  ((s.setRegBits (modReg .secStat) 15 13 check).setPhase 14).modSec (fun v => { v with recoveries := v.recoveries + 1 })

/-- The step after the present one. -/
def State.bootStep (s : State) : State :=
  match s.phase with
  | 2 => (s.setLocks (!s.coasting)).setPhase 3
  | 3 =>
    match s.up.sec.flash with
    | some im =>
      match s.up.sec.check im with
      | 0 => (s.modSec (fun v => v.start im)).setPhase 4
      | c => s.enterRecovery c
    | none => s.takeFree.enterRecovery (1 + s.freeVal.toNat % 6)
  | 6 => s.enterReady
  | n => if n = 4 ∨ n = 5 then s.setPhase (n + 1) else s

/-- BOOT_PHASE_DONE: a step of 2 to 6 ends; the next begins (R391, R392). Step 3 ends as the image in flash has it, whichever result the command
names: a check of R399 that fails is the state's (assumption log 62). -/
def execBootPhaseDone (r : BootResult) (s : State) : Result :=
  .next <|
    if s.job.state != .boot then s
    else
      match r with
      | .done => s.bootStep
      | .parcelsFailed ps => if s.phase = 4 ∨ s.phase = 5 then (s.bootFails ps).bootStep else s
      | .imageFailed _ => if s.phase = 3 then s.bootStep else s

/-- BOOT_OVERRUN: a step has run beyond twice its maximum (R392). -/
def execBootOverrun (s : State) : Result :=
  .next (if s.job.state == .boot && decide (1 ≤ s.phase ∧ s.phase ≤ 6) then s.setPhase 15 else s)

/-- ARB_COMMIT: a running image with COMMIT has burnt its fuses, once the module has reached READY (R400). -/
def execArbCommit (s : State) : Result :=
  .next <|
    match s.job.state.trains, s.up.sec.running with
    | true, some im =>
      if im.commit then
        (s.modSec (fun v => { v with
          arb := max v.arb im.svn, krevoke := v.krevoke ||| (im.revoke - (im.revoke &&& 2 ^ im.kslot)) })).raise (modReg .secStat) 12
      else s
    | _, _ => s

end Sys2Proof.Machine
end

