-- ==== Sys2Proof/Machine/CoreEvents.lean ====
section
/-!
DEFINITION. What happens at a core without an instruction of its own: responses to loads (R59, R60), the watchdog (R27, R299
to R301), and its power states (R52, R55, R379, R380).
-/
namespace Sys2Proof.Machine

/-- LOAD_RESPONSE: the data or status of outstanding load k reaches the core (R59). A failing one raises its deferred
exception; data for a core that no longer runs is discarded, and a failure of a program that another has replaced leaves its record alone
(R60, R271). -/
def execLoadResponse (c : CoreId) (n : Nat) (s : State) : Result :=
  .next <|
    match (s.core c).loads[n]? with
    | none => s
    | some l =>
      match l.resp with
      | none => s
      | some r =>
        let s := s.modCore c (fun k => { k with loads := dropIdx k.loads n })
        let fail (i : ExcInfo) : State := match l.stopped with
          | some pc => s.emit (s.faultRecord c l.pc { i with w2 := pc })
          | none => s.deferred c l.pc i
        let s :=
          if r.status ≠ 0 then fail { cause := .remoteErr, addr := l.addr }
          else if r.poison ≠ 0 then fail { cause := .poison, addr := l.addr }
          else if (s.core c).run == .running then s.modCore c (fun k => k.writeParts l.parts r.data)
          else s
        s.settle c

/-- Members of a gang whose head of queue has not been issued, as bit 4 * GROW + GCOL (R301). -/
def State.gangMissing (s : State) (c : CoreId) : Nat :=
  match (s.core c).arr.view.cfg with
  | none => 0
  | some cfg =>
    let g := gangSize cfg.gang
    let ms := gangMembers c g
    (List.range ms.length).foldl (fun a i =>
      match ms[i]? with
      | some m => if (s.core m).arr.queue.isEmpty then a + 2 ^ (4 * (i / g) + i % g) else a
      | none => a) 0

/-- Entries of a full resource in use (R301). -/
def State.resourceUse (s : State) (c : CoreId) (r : Nat) : Nat :=
  let k := s.core c
  match r with
  | 1 => k.arr.queue.length
  | 2 => k.copies.length
  | 3 => k.loadsOpen
  | 4 => s.storesUse c
  | _ => s.raShared c.tract

/-- Whether a remote wait's operation has reached a mark unit, and is held there (R300): the parcel and arrival. -/
def State.remoteHeld (s : State) (c : CoreId) (gen addr : Nat) : Option (ParcelId × HeldArrival) :=
  match keyParcel addr with
  | none => none
  | some p =>
    if gaModule addr ≠ s.job.moduleId.toNat then none
    else
      match (s.parcel p).heldArr.find? (fun h => match h.src with
        | .remote (.agent t g) => t = c.tract && g = gen
        | _ => false) with
      | some h => some (p, h)
      | none => none

/-- Whether a request agent entry is still to be sent. -/
def State.unsent (s : State) (t : Tract) (gen : Nat) : Bool :=
  (s.fab t).ra.any (fun e => e.gen = gen && (e.stage == .held || e.stage == .ready))

/-- The value of a remote mark that a WATCHDOG record names as last seen (R301): its home evaluates the wait, so it is the mark's word;
what a mark of another module held is free. -/
def State.remoteSeen (s : State) (addr : Nat) : Nat :=
  if gaModule addr = s.job.moduleId.toNat then leNat (s.mem.read (addr % 2 ^ 52) 4) else s.freeVal.toNat % 2 ^ 32

/-- Contending operations that a TAKE or STEAL has seen (R301): the other cores of its parcel whose TAKE or STEAL waits there (assumption log
20). -/
def State.tileContenders (s : State) (c : CoreId) : Nat :=
  ((s.coresOf (coreParcel c)).filter (fun x => decide (x ≠ c) && match (s.core x).wait with
    | some (.tile _ _ _) => true
    | _ => false)).length

/-- The wait code and items of a WATCHDOG record (R301). DESIGN CHOICE: an MBAR whose arrival a frozen or damaged mark discarded reports outcome 0,
for R300 and R413 have no code for it (assumption log 69). -/
def State.watchdogInfo (s : State) (c : CoreId) (w : Wait) : ExcInfo :=
  let k := s.core c
  let p := coreParcel c
  let i (sub addr w2 w3 : Nat) : ExcInfo := { cause := .watchdog, sub := sub, addr := addr, w2 := w2, w3 := w3 }
  match w with
  | .resource r => i 0x8 0 r (s.resourceUse c r)
  | .agent _ => i 0x8 0 5 (s.resourceUse c 5)
  | .operand addr pc reg => i 0x7 addr pc reg
  | .astat pc => i 0xB 0 (firstIdx (fun e => e.pc = pc) k.arr.queue) pc
  | .arrayGang => i 0xA 0 (s.gangMissing c) 0
  | .mwait n thr => i 0x1 (s.globalOf (markKey p n)) thr.toNat (s.markWord p n).toNat
  | .mbar n opd st _ =>
    { i 0x2 (s.globalOf (markKey p n)) opd.toNat ((s.markWord p n).toNat % 256) with
      code := if barKind opd = 2 then 3 else match st with
        | .releasing => 3
        | .held => 1
        | .counted => 0 }
  | .remoteWait gen addr opd bar =>
    if bar then
      { i 0x2 addr opd.toNat (s.remoteSeen addr % 256) with
        code := if barKind opd = 2 || s.unsent c.tract gen then 3
          else if (s.remoteHeld c gen addr).isSome then 1 else 0 }
    else i 0x1 addr opd.toNat (s.remoteSeen addr)
  | .cwait ac target => i 0x3 0 ac.toNat (target.toNat + (k.getAc ac).toNat * 2 ^ 16)
  | .sleep _ mask _ =>
    i 0x4 (if mask.getLsbD 3 then s.globalOf (markKey p (mask.extractLsb' 16 10)) else 0) mask.toNat
      (b2n k.land + 2 * b2n k.arrive)
  | .fence mask => i 0x5 0 mask.toNat (s.fenceOpen c mask)
  | .tile _ _ _ => i 0x6 0 (s.tileContenders c) 0
  | .halt => i 0x9 0 k.copies.length (s.storesOpen c + k.arr.queue.length * 2 ^ 16)

/-- A held arrival of the core is withdrawn, and one that has not left the request agent is not made (R300). -/
def State.withdraw (s : State) (c : CoreId) (w : Wait) : State :=
  match w with
  | .mbar n _ .held _ =>
    s.modParcel (coreParcel c) (fun v => { v with
      heldArr := v.heldArr.filter (fun h => !(h.mark == n && h.src == .core c.core)) })
  | .remoteWait gen addr _ true =>
    if s.unsent c.tract gen then s.raFinish c.tract gen 0
    else match s.remoteHeld c gen addr with
    | some (p, h) =>
      (s.modParcel p (fun v => { v with heldArr := dropFirst (fun x => x == h) v.heldArr })).answer (.agent c.tract gen)
        okResponse
    | none => s
  | _ => s

/-- Whether the stall of a core still holds. -/
def State.stallOpen (s : State) (c : CoreId) (w : Wait) : Bool :=
  let k := s.core c
  match w with
  | .resource 1 => 8 ≤ k.arr.queue.length
  | .resource 2 => 32 ≤ k.copies.length
  | .resource 3 => 8 ≤ k.loadsOpen
  | .resource 4 => 16 ≤ s.storesUse c
  | .agent n => s.raShort c.tract n
  | .operand addr pc _ => k.loads.any (fun l => l.addr = addr && l.pc = pc)
  | .astat pc => k.arr.queue.any (fun e => e.pc = pc)
  | .arrayGang => 8 ≤ k.arr.queue.length
  | .halt => !s.haltReady c
  | _ => true

/-- WATCHDOG: the watchdog of a core that stalls fires (R27, R300). A halted core runs none, and a stall that is resolved raises none
(R299). -/
def execWatchdog (c : CoreId) (s : State) : Result :=
  .next <|
    match (s.core c).wait with
    | some w => if (s.core c).run == .running && s.stallOpen c w then ((s.withdraw c w).raiseAt c (s.watchdogInfo c w)).takeFree else s
    | none => s

/-- CORE_ENTER_SLEEP: a core that stalls enters SLEEP, where its plot permits it (R379). -/
def execCoreEnterSleep (c : CoreId) (s : State) : Result :=
  .next <|
    let k := s.core c
    if k.run == .running && k.pwr == .run && k.wait.isSome && bitOf (s.plotReg (coreParcel c) .plotPwr) 0 then
      s.modCore c (fun k => { k with pwr := .sleep })
    else s

/-- Waits that may pass into DEEP (R52, R379). -/
def Wait.mayDeep : Wait → Bool
  | .mwait _ _ | .mbar _ _ _ _ | .remoteWait _ _ _ _ | .sleep _ _ _ => true
  | _ => false

/-- CORE_ENTER_DEEP: a core that has waited longer than WAIT_LEND in MWAIT, MBAR or SLEEP, or has halted, enters DEEP where
nothing of it is outstanding and its plot permits both SLEEP and DEEP; the contents of its instruction buffer are discarded (R55, R98, R302,
R379, R381). -/
def execCoreEnterDeep (c : CoreId) (s : State) : Result :=
  .next <|
    let k := s.core c
    let waits := (k.run == .running && (k.wait.map Wait.mayDeep).getD false) || k.run == .halted
    let idle := k.copies.isEmpty && k.loads.isEmpty && s.storesOpen c == 0 && k.arr.queue.isEmpty
    let lend := s.regBits (tractReg .easeCfg c.tract) 15 0 != 0
    let permits := bitOf (s.plotReg (coreParcel c) .plotPwr) 0 && bitOf (s.plotReg (coreParcel c) .plotPwr) 1
    if waits && idle && lend && permits then s.modCore c (fun k => { k with pwr := .deep, ibuf := [] })
    else s

/-- CORE_WAKE: a core whose wait is over returns to RUN, with its credit (R302, R380, R385). -/
def execCoreWake (c : CoreId) (s : State) : Result :=
  .next <|
    let s := s.settle c
    let k := s.core c
    let waitOver := match k.wait with
      | none => true
      | some w => !s.stallOpen c w
    if k.run == .running && k.pwr ≠ .run && waitOver then (s.modCore c (fun k => { k with pwr := .run })).reclaim c.tract else s

end Sys2Proof.Machine
end

