-- ==== Sys2Proof/Machine/Power.lean ====
section
/-!
DEFINITION. Loss of the reference, the power manager, junction temperatures, rails and regulators, slow inputs, ageing and the hours of
operation (R375 to R389, R394, R427, R430, R432, R468).
-/
namespace Sys2Proof.Machine

def tractPwrR (t : Tract) : RegKey := modRegI .tractPwr t.val
def clkStat : RegKey := modReg .clkStat
def pinStat : RegKey := modReg .pinStat
def pwrCtl : RegKey := modReg .pwrCtl
def pwrStat : RegKey := modReg .pwrStat

/-- Ports go down with cause lane lock, also while they train (R358, R376, R468). -/
def State.dropPorts (s : State) (ps : List Port) : State :=
  ps.foldl (fun (s : State) (p : Port) => if s.portState p.val = 0 then s else s.dropPort p 1) s

/-- The parcels of a tract. -/
def tractParcels (t : Tract) : List ParcelId := parcelRange t 0 1360

/-- REFERENCE_LOST: the PLLs coast; ports go down with cause lane lock, meridian time is lost at once, and a record follows while ARMED
(R375, R376). -/
def execReferenceLost (s : State) : Result :=
  .next <|
    if s.coasting then s
    else
      let s := ((s.setRegBits clkStat 4 4 1).raise clkStat 5).setLocks false
      let s := s.dropPorts (List.finRange 16)
      let s := if s.job.state.trains then (s.setRing 3).raise merStat 3 else s
      if s.job.state == .armed then s.emit (s.recordM .clkLoss) else s

/-- REFERENCE_RESTORED: the PLLs have relocked; COAST clears and CLK_LOSS stays (R377). -/
def execReferenceRestored (s : State) : Result :=
  .next <|
    if !s.coasting then s
    else
      let s := s.setRegBits clkStat 4 4 0
      if s.job.state.trains || (s.job.state == .boot && decide (3 ≤ s.phase)) then s.setLocks true else s

/-- The rules for CLKOBS_CTL (R378). -/
def clkobsOk (v : Nat) : Bool := decide (bitsOf v 3 0 ≤ 7 ∧ bitsOf v 7 4 ≤ 11 ∧ bitsOf v 18 8 ≤ 1359)

/-- CLKOBS_CTL_WRITE (R378). -/
def execClkobsCtlWrite (value : Word) (s : State) : Result :=
  .next (s.atReg (modReg .clkobsCtl) 4 (fun s => s.regWrite (modReg .clkobsCtl) value.toNat 4 clkobsOk))

/-- The effective limit in W (R382). -/
def State.powerLimit (s : State) : Nat :=
  let l := s.regBits pwrCtl 10 0
  10 * if s.up.pins.throttle then min l (s.regBits pwrCtl 21 11) else l

/-- The estimate of a tract in mW. -/
def State.tractEstimate (s : State) (t : Tract) : Nat := ((s.listedParcels t).map (fun p => (s.parcel p).health.estimate)).sum

/-- Records of the power manager about a tract (R412). -/
def State.powerRecord (s : State) (cls : RecClass) (t : Tract) : ErrRec := s.record cls 17 t.val

/-- The tract a rail belongs to. -/
def railTract : Rail → Option Tract
  | .vcore t | .vdd2 t => some t
  | _ => none

/-- Whether a regulator's fault holds a tract at step 0 (R389). -/
def State.vrHeld (s : State) (t : Tract) : Bool := s.up.vrFaults.any (fun r => railTract r == some t)

/-- The step a parcel takes when its tract is granted the uniform step k (R381, R385, R386, R389, R428). -/
def State.grantedStep (s : State) (p : ParcelId) (k : Nat) : Nat :=
  let w := s.tpwr p.tract
  let boost := bitOf (s.plotReg p .plotPwr) 2
  if w.hot || s.vrHeld p.tract then 0
  else min (min (if boost then k else min k 32) (bitsOf (s.plotReg p .plotPwr) 8 3)) (s.parcel p).health.cap

/-- The highest voltage in mV that a working parcel needs at the steps of a grant, within 600 to 900 (R387). -/
def State.grantMv (s : State) (t : Tract) (k : Nat) : Nat :=
  min 900 ((tractParcels t).foldl (fun n p =>
    if s.working p then max n ((s.parcel p).health.needMv (s.grantedStep p k)) else n) 600)

/-- The working parcels of a tract take the steps of a grant. -/
def State.applyGrant (s : State) (t : Tract) (k : Nat) : State :=
  (tractParcels t).foldl (fun s p => if s.working p then s.setStep p (s.grantedStep p k) else s) s

/-- Milulo writes the voltage of VCORE_Tn where it changes: AVS0 serves T0 to T3, AVS1 T4 to T7, AVS2 T8 to T11, with rail selectors 0 to 3
(R388, R466). -/
def State.setRail (s : State) (t : Tract) (mv : Nat) : State :=
  if s.railTarget t = mv then s else (s.setRegBits (tractPwrR t) 42 33 mv).send (.avsWrite (t.val / 4) (t.val % 4) mv)

/-- The rail follows CCLK down: to the highest voltage that a working parcel needs at its present step, within 600 to 900 (R387). -/
def State.railFollow (s : State) (t : Tract) : State :=
  s.setRail t (min (s.railTarget t) (min 900 ((tractParcels t).foldl (fun n p =>
    if s.working p then max n ((s.parcel p).health.needMv (s.parcel p).health.step) else n) 600)))

/-- A grant: a rail that must rise rises first and CCLK follows once it has; one that may fall follows CCLK (R387). -/
def State.grant (s : State) (t : Tract) (k : Nat) : State :=
  let mv := s.grantMv t k
  let up := decide (s.railTarget t < mv)
  let s := s.setRail t mv
  if up then s.modTpwr t (fun w => { w with want := some k })
  else (s.modTpwr t (fun w => { w with want := none })).applyGrant t k

/-- Milulo's estimate of the extra power in mW of a parcel at step k over step 32, from its estimate at the step it runs at: power scales with
f x V^2 (R385). -/
def ParcelHealth.extraPower (h : ParcelHealth) (k : Nat) : Nat :=
  let fvv (k : Nat) : Nat := (200 + 50 * k) * h.needMv k * h.needMv k
  h.estimate * (fvv k - fvv 32) / fvv h.step

/-- Whether the rail can reach the voltage that every working parcel of a tract needs at the steps of a grant (R385, R387). -/
def State.railReaches (s : State) (t : Tract) (k : Nat) : Bool :=
  (s.listedParcels t).all (fun p => !s.working p || decide ((s.parcel p).health.needMv (s.grantedStep p k) ≤ 900))

/-- The highest uniform step whose estimated extra power fits the pool, in mW, and whose voltage the rail can reach (R385). -/
def State.boostStep (s : State) (t : Tract) (pool : Nat) : Nat :=
  if s.regBits pwrCtl 22 22 = 0 then 32
  else
    let need (k : Nat) : Nat := ((s.listedParcels t).map (fun p =>
      if s.working p && bitOf (s.plotReg p .plotPwr) 2 then (s.parcel p).health.extraPower (max 32 (s.grantedStep p k)) else 0)).sum
    ([38, 37, 36, 35, 34, 33].find? (fun k => need k ≤ pool && s.railReaches t k)).getD 32

/-- The plan of one tract: BUDGET, PEST, LENT and the grant; a limiter that is lowering CCLK keeps its steps, and the rail follows them
(R382 to R387). Each core in DEEP
lends a 64th of its parcel's base share less its retention draw, keep in uW, which the spec does not give (R302, R382). -/
def State.planTract (s : State) (t : Tract) (budget share keep : Nat) : State :=
  let w := s.tpwr t
  let left := 100 - min 100 (w.cut + w.dramCut)
  let lend := 1000 * share / (1360 * 64) - keep
  let pool := s.lenders t * lend
  let budget := budget * left / 100
  let s := s.modTpwr t (fun w => { w with pool := pool, lend := lend, budget := budget })
  let k := tractPwrR t
  let s := (s.setRegBits k 10 0 (min 2047 (budget / 1000))).setRegBits k 21 11 (min 2047 (s.tractEstimate t / 1000))
  let s := s.setRegBits k 32 22 (min 2047 (pool / 1000000))
  if w.exceeds then s.railFollow t else s.grant t (s.boostStep t (pool / 1000))

/-- The budget in mW of tract i of a list of estimates: a tract below its share gives the difference to the others in proportion to their
estimates. DESIGN CHOICE: where every other estimate is 0 there is no proportion and it keeps its share (R382, assumption log 74). -/
def budgetOf (share : Nat) (ests : List Nat) (i : Nat) : Nat :=
  let e := ests.getD i 0
  let others (j : Nat) : Nat := ests.sum - ests.getD j 0
  let got := ((List.range ests.length).map (fun j => if j = i then 0 else (share - ests.getD j 0) * e / others j)).sum
  (if others i = 0 then share else min share e) + got

/-- POWER_BUDGET_PLAN: the limit less the measured draw of what is never limited, which the spec does not fix, is the logic pool; a tract
below its share gives the difference to the others in proportion to their estimates (R382, R385). -/
def execPowerBudgetPlan (s : State) : Result :=
  .next <|
    if !s.job.state.trains then s
    else
      let limit := 1000 * s.powerLimit
      let fixed := s.freeVal.toNat % (limit + 1)
      let s := s.takeFree
      let keep := s.freeVal.toNat % 2 ^ 20
      let s := s.takeFree
      let share := (limit - fixed) / 12
      let ests := allTracts.map s.tractEstimate
      let s := s.setRegBits pwrStat 10 0 (min 2047 ((fixed + ests.sum) / 10000))
      allTracts.foldl (fun (s : State) (t : Tract) => s.planTract t (budgetOf share ests t.val) share keep) s

/-- PARCEL_ESTIMATE: a parcel's estimate of its power in mW: what its counters of 1 us have counted, weighted by its coefficient at its step and
voltage in a way the spec does not give (R383). -/
def execParcelEstimate (p : ParcelId) (count : Nat) (s : State) : Result :=
  .next (if s.job.state.trains then
    s.modHealth p (fun h => { h with estimate := Config.parcelPower h.coeff (s.stepNow p) (s.tpwr p.tract).mv count }) else s)

/-- LIMITING: some tract limiter is lowering CCLK. -/
def State.setLimiting (s : State) : State := s.setRegBits pwrStat 11 11 (b2n (s.up.tracts.any (fun q => q.2.exceeds)))

/-- One step down in the order of R384: boosted parcels toward 32, else every working parcel toward 0. -/
def State.limitDown (s : State) (t : Tract) : State :=
  let ps := (tractParcels t).filter s.working
  let boosted := ps.filter (fun p => 32 < (s.parcel p).health.step)
  let down := if boosted.isEmpty then ps else boosted
  down.foldl (fun (s : State) (p : ParcelId) => s.setStep p ((s.parcel p).health.step - 1)) s

/-- LIMITER_WINDOW: a tract whose estimate exceeds its budget, or 1,600 A at the rail, comes down a step, and the rail follows (R387); at step 0 it stays there with
OVERBUDGET and its record (R383, R384). -/
def execLimiterWindow (t : Tract) (s : State) : Result :=
  .next <|
    if !s.job.state.trains then s
    else
      let e := s.tractEstimate t
      let over_ := decide ((s.tpwr t).budget < e ∨ 1600 * (s.tpwr t).mv < e)
      let s := (s.modTpwr t (fun w => { w with exceeds := over_, want := if over_ then none else w.want })).setLimiting
      if !over_ then s
      else if s.tractStep t = 0 then (s.raise pwrStat 13).emit (s.powerRecord .pwrOver t)
      else (s.limitDown t).railFollow t

/-- COEFFICIENT_CORRECTION (R383). -/
def execCoefficientCorrection (p : ParcelId) (coeff : Nat) (s : State) : Result :=
  .next (if s.job.state.trains then s.modHealth p (fun h => { h with coeff := coeff }) else s)

/-- A tract goes to step 0 at once, every parcel of it (R386, R389). -/
def State.stepZero (s : State) (t : Tract) : State :=
  (tractParcels t).foldl (fun s p => s.setStep p 0) (s.modTpwr t (fun w => { w with want := none }))

/-- A sensor at 115 degrees or more: THERMTRIP_N is driven low and the module is reset; a trip that stands is not repeated (R386, R390). -/
def State.thermTrip (s : State) : State :=
  if s.up.boot.tripped then s else (s.modBoot (fun b => { b with tripped := true })).moduleReset 3 .trip

/-- The responses to TJMAX (R386): 100 us are 2,500 AOCLK periods, 1 ms is 25,000. -/
def State.junctionRules (s : State) (t : Tract) (tj : Nat) : State :=
  let k := tractPwrR t
  let w := s.tpwr t
  let s := s.setRegBits k 56 49 (min 255 tj)
  let s :=
    if 100 ≤ tj then
      let s := s.raise k 57
      if w.cut = 0 ∨ w.cutAt + 2500 ≤ s.aoTime then s.modTpwr t (fun w => { w with cut := min 100 (w.cut + 5), cutAt := s.aoTime }) else s
    else if tj < 98 ∧ 0 < w.cut ∧ w.cutAt + 25000 ≤ s.aoTime then s.modTpwr t (fun w => { w with cut := w.cut - 5, cutAt := s.aoTime })
    else s
  if 105 ≤ tj then
    let s := (s.raise k 58).modTpwr t (fun w => { w with hot := true })
    let s := s.stepZero t
    if w.hot then s else s.emit (s.powerRecord .thermLimit t)
  else if tj < 100 then s.modTpwr t (fun w => { w with hot := false })
  else s

/-- JUNCTION_SAMPLE: the 64 sensors of a tract; one that fails its self-check reads 100 degrees (R386). In RESET and BOOT they are sampled
for the trip alone (R390). -/
def execJunctionSample (t : Tract) (readings : List (Option Nat)) (s : State) : Result :=
  .next <|
    let tj := (readings.map (fun r => r.getD 100)).foldl max 0
    let s := s.modTpwr t (fun w => { w with tj := some tj })
    if 115 ≤ tj then s.thermTrip else if s.job.state.trains then s.junctionRules t tj else s

/-- The response of the power manager to a DRAM sample (R386): 1 ms is 25,000 AOCLK periods, 10 ms is 250,000. -/
def State.dramRules (s : State) (t : Tract) (tm : Nat) : State :=
  let w := s.tpwr t
  if 105 ≤ tm then
    let s := s.raise (tractPwrR t) 59
    if w.dramCut = 0 ∨ w.dramAt + 25000 ≤ s.aoTime then
      s.modTpwr t (fun w => { w with dramCut := min 100 (w.dramCut + 25), dramAt := s.aoTime })
    else s
  else if tm < 103 ∧ 0 < w.dramCut ∧ w.dramAt + 250000 ≤ s.aoTime then
    s.modTpwr t (fun w => { w with dramCut := w.dramCut - 10, dramAt := s.aoTime })
  else s

/-- The rule for PLOT_PWR (R381). -/
def plotPwrOk (v : Nat) : Bool := decide (bitsOf v 8 3 ≤ 38)

/-- A write of PLOT_PWR; a lower SMAX brings the plot's parcels down to it (R381). -/
def State.plotPwrPut (s : State) (t : Tract) (n : Nat) (v size : Nat) : State :=
  let k := tractRegI .plotPwr t n
  let s := s.regWrite k v size plotPwrOk
  (s.plotParcels t (BitVec.ofNat 8 n)).foldl (fun (s : State) (p : ParcelId) =>
    s.setStep p (min (s.parcel p).health.step (s.regBits k 8 3))) s

/-- PLOT_PWR_WRITE (R381). -/
def execPlotPwrWrite (t : Tract) (n : Fin 256) (value : Word) (s : State) : Result :=
  .next (s.atReg (tractRegI .plotPwr t n.val) 4 (fun s => s.plotPwrPut t n.val value.toNat 4))

/-- Whether Milulo manages the rails: from the end of step 3 on (R391, R393). -/
def State.managesRails (s : State) : Bool := s.job.state.trains || (s.job.state == .boot && decide (4 ≤ s.phase ∧ s.phase ≤ 7))

/-- AVS_CURRENT_READ (R388). -/
def execAvsCurrentRead (t : Tract) (amps : Nat) (s : State) : Result :=
  .next (if s.managesRails then s.modTpwr t (fun w => { w with amps := amps }) else s)

/-- A regulator reports a fault or does not answer: its tract goes to step 0, and the record follows (R389). -/
def State.regulatorFault (s : State) (r : Rail) : State :=
  if s.up.vrFaults.contains r then s
  else
    let s := { s with up := { s.up with vrFaults := r :: s.up.vrFaults } }
    match railTract r with
    | none => s.emit (s.record .vrFault 17 15)
    | some t => (s.stepZero t).emit (s.powerRecord .vrFault t)

/-- A regulator answers without a fault: its tract is let go from step 0, where no other regulator holds it (R389). -/
def State.regulatorGood (s : State) (r : Rail) : State := { s with up := { s.up with vrFaults := s.up.vrFaults.filter (fun x => x ≠ r) } }

/-- The nominal voltage in mV of a rail that is fixed, none for VCORE_Tn (R466). -/
def railNominal : Rail → Option Nat
  | .vcore _ => none
  | .vdd2 _ => some 1050
  | .vpp | .vio => some 1800
  | .vportW | .vportE => some 750
  | .vctl | .vaux => some 800

/-- The PMBus address of a rail's regulator (R466). -/
def railAddress : Rail → Nat
  | .vcore t => 0x40 + t.val
  | .vdd2 t => 0x50 + t.val
  | .vpp => 0x5C
  | .vportW => 0x5D
  | .vportE => 0x5E
  | .vctl => 0x5F
  | .vaux => 0x60
  | .vio => 0x61

/-- Whether a voltage lies within the tolerance of a rail: 10 mV of the target for VCORE_Tn, 3 % of the nominal for another (R388, R466). -/
def State.railValid (s : State) (r : Rail) (mv : Nat) : Bool :=
  match r, railNominal r with
  | .vcore t, _ => decide (mv ≤ s.railTarget t + 10 ∧ s.railTarget t ≤ mv + 10)
  | _, some n => decide (97 * n ≤ 100 * mv ∧ 100 * mv ≤ 103 * n)
  | _, none => true

/-- The ports of a side: port dies 0 to 3 lie west, 4 to 7 east (R11). -/
def sidePorts (west : Bool) : List Port := (List.finRange 16).filter (fun p => decide (p.val < 8) == west)

/-- A rail is no longer valid. -/
def State.markRail (s : State) (r : Rail) : State := s.modBoot (fun b => { b with bad := if b.bad.contains r then b.bad else b.bad ++ [r] })

/-- A side's rail is outside its tolerance: its ports go down (R468). -/
def State.sideLost (s : State) (west : Bool) : State :=
  (s.markRail (if west then .vportW else .vportE)).dropPorts (sidePorts west)

/-- A reading of a rail's voltage. VCORE_Tn outside 0.55 to 0.95 V stops its tract (R389); VPORT outside its tolerance takes the ports of its side
down (R468); the others act after 10 us, which RAIL_FAULT brings. -/
def State.railReading (s : State) (r : Rail) (mv : Nat) : State :=
  let s := { s with up := { s.up with rails := s.up.rails.put r { (s.up.rails.get r { mv := 0, amps := 0, degC := 0 }) with mv := mv } } }
  match r with
  | .vcore t => s.modTpwr t (fun w => { w with mv := mv, dead := w.dead || decide (mv < 550 ∨ 950 < mv) })
  | .vportW => if s.railValid r mv then s else s.sideLost true
  | .vportE => if s.railValid r mv then s else s.sideLost false
  | _ => s

/-- PMBUS_POLL: what the regulator at a rail's address reports in STATUS_WORD and READ_VOUT (R388, R389, R466); what READ_IOUT and
READ_TEMPERATURE_1 report, which no rule acts on, are free values (DESIGN CHOICE, assumption log 74). -/
def execPmbusPoll (r : Rail) (fault : Bool) (mv : Nat) (s : State) : Result :=
  .next <|
    if !s.managesRails then s
    else
      let amps := s.freeVal.toNat % 2048
      let s := s.takeFree
      let degC := s.freeVal.toNat % 256
      let s := s.takeFree.railReading r mv
      let s := { s with up := { s.up with rails := s.up.rails.put r { mv := mv, amps := amps, degC := degC } } }
      if fault then s.regulatorFault r else s.regulatorGood r

/-- PMB_ALERT_N: the status of every regulator is read, and these report a fault (R388, R394). -/
def execPmbAlertN (faults : List Rail) (s : State) : Result :=
  .next <|
    let s := s.modPins (fun v => { v with alert := true, alertDone := !faults.isEmpty })
    if s.managesRails then
      faults.foldl State.regulatorFault ((s.up.vrFaults.filter (fun r => !faults.contains r)).foldl State.regulatorGood s)
    else s

/-- ALERT_STUCK: 10 ms of PMB_ALERT_N with no regulator reporting a fault; it is ignored until it goes high (R394). -/
def execAlertStuck (s : State) : Result :=
  .next <|
    if s.up.pins.alert && !s.up.pins.alertDone && s.managesRails then
      (s.modPins (fun v => { v with alert := false, alertDone := true })).raise pinStat 3
    else s

/-- REGULATOR_TIMEOUT: a regulator has not answered for 10 ms (R389). -/
def execRegulatorTimeout (r : Rail) (s : State) : Result := .next (if s.managesRails then s.regulatorFault r else s)

/-- RAIL_FAULT: a rail has left its tolerance. The voltage of VCORE_Tn, which decides whether its tract stops, is not in the command: a free
value (R389, R468). -/
def execRailFault (r : Rail) (s : State) : Result :=
  .next <|
    match r with
    | .vportW => s.sideLost true
    | .vportE => s.sideLost false
    | .vcore t => (s.takeFree.markRail r).railReading (.vcore t) (s.freeVal.toNat % 1000)
    | _ => (s.markRail r).moduleReset 0 .pin

/-- RAIL_RESTORED: a rail is valid again; the ports of its side may train again (R446, R468). -/
def execRailRestored (r : Rail) (s : State) : Result :=
  .next <|
    let s := s.modBoot (fun b => { b with bad := b.bad.filter (fun x => x ≠ r) })
    match r with
    | .vcore t => s.modTpwr t (fun w => { w with dead := false })
    | _ => s

/-- NEW_VOLTAGE_REPORTED: the rail has risen to its target within 10 mV, and CCLK follows (R387, R388). -/
def execNewVoltageReported (t : Tract) (mv : Nat) (s : State) : Result :=
  .next <|
    if !s.managesRails then s
    else
      let s := s.railReading (.vcore t) mv
      match (s.tpwr t).want with
      | some k => if s.railTarget t ≤ mv + 10 then (s.modTpwr t (fun w => { w with want := none })).applyGrant t k else s
      | none => s

/-- THROTTLE_N: the level as filtered; an input that toggles faster than rated is held as active (R394). -/
def execThrottleN (high fast : Bool) (s : State) : Result :=
  .next <|
    let held := fast || s.up.pins.throtFast
    let s := s.modPins (fun v => { v with throtFast := held, throttle := held || !high })
    if fast then s.raise pinStat 2 else s

/-- THROTTLE_N_HOLD_END: it has stayed high for 1 ms (R394). -/
def execThrottleNHoldEnd (s : State) : Result :=
  .next (if s.up.pins.throtFast then s.modPins (fun v => { v with throtFast := false, throttle := false }) else s)

/-- THROT_STUCK: THROTTLE_N has been active for 1 s (R394). -/
def execThrotStuck (s : State) : Result :=
  .next (if s.up.pins.throttle && s.job.state.trains then (s.raise pinStat 1).emit (s.recordM .throtStuck) else s)

/-- PATH_DELAY_REPORT: the slack of a parcel in thousandths of its CCLK period; below 3 % it drops a step (R432). -/
def execPathDelayReport (p : ParcelId) (slackPermille : Nat) (s : State) : Result :=
  .next <|
    if !s.job.state.trains then s
    else
      let s := s.modHealth p (fun h => { h with slacks := h.slacks.put (s.stepNow p) slackPermille })
      if 30 ≤ slackPermille then s
      else
        let s := s.setStep p ((s.parcel p).health.step - 1)
        s.emit (s.recordP .ageMargin 17 p)

/-- An hour of operation passes for a parcel: its counts of the hour join the history, and those of 24 hours ago leave the counts. -/
def ParcelHealth.hour (h : ParcelHealth) : ParcelHealth :=
  let seen (f : Nat × Nat → Nat) : Nat := (h.past.map f).sum
  let now : Nat × Nat := (h.tcnt - seen (fun q => q.1), h.lsce - seen (fun q => q.2))
  let past := (now :: h.past).take 23
  { h with
    past := past, tcnt := (past.map (fun q => q.1)).sum, lsce := (past.map (fun q => q.2)).sum, scrage := min 255 (h.scrage + 1) }

/-- SCREEN_DUE: an hour of operation passes; a parcel whose SCRAGE reaches 24 emits its record (R427, R429, R430). -/
def execScreenDue (s : State) : Result :=
  .next <|
    if !s.job.state.trains then s
    else
      let s := { s with up := { s.up with hours := s.up.hours + 1 } }
      allParcels.foldl (fun (s : State) (p : ParcelId) =>
        let s := s.modHealth p ParcelHealth.hour
        if (s.parcel p).health.scrage = 24 then s.emit (s.recordP .screenDue 15 p) else s) s

end Sys2Proof.Machine
end

