-- ==== Sys2Proof/Machine/Dram.lean ====
section
/-!
DEFINITION. Upkeep of the DRAM and the commons, and replicated regions (R138, R141 to R147, R151 to R154).
-/
namespace Sys2Proof.Machine

def dramTherm (t : Tract) : RegKey := tractReg .dramTherm t

/-- The level of the refresh interval that a reading calls for (R142): 0 32 ms, 1 16 ms, 2 8 ms. -/
def refreshLevel (tm : Nat) : Nat := if 95 ≤ tm then 2 else if 85 ≤ tm then 1 else 0

/-- The reading below which TMAX must stay to leave a level, and for how many AOCLK periods: a period of the longer interval (R143). -/
def coolBelow (level : Nat) : Nat := if level = 2 then 92 else 82
def coolFor (level : Nat) : Nat := if level = 2 then 400000 else 800000

/-- The refresh interval follows a sample: shorter at once, with catch-up; longer by one level after a whole period (R143). -/
def State.refreshRule (s : State) (t : Tract) (tm : Nat) : State :=
  let k := dramTherm t
  let cur := s.regBits k 9 8
  if cur < refreshLevel tm then
    ((s.setRegBits k 9 8 (refreshLevel tm)).setRegBits k 10 10 1).modTpwr t (fun w => { w with coolAt := none })
  else if cur = 0 ∨ coolBelow cur ≤ tm then s.modTpwr t (fun w => { w with coolAt := none })
  else
    match (s.tpwr t).coolAt with
    | none => s.modTpwr t (fun w => { w with coolAt := some s.aoTime })
    | some c =>
      if c + coolFor cur ≤ s.aoTime then (s.setRegBits k 9 8 (cur - 1)).modTpwr t (fun w => { w with coolAt := none }) else s

/-- The refresh interval of a tract in ms: 6 while the PLLs coast, whatever TMAX reads, else that of INTERVAL (R142, R376). -/
def State.refreshMs (s : State) (t : Tract) : Nat :=
  if s.coasting then 6
  else match s.regBits (dramTherm t) 9 8 with
    | 0 => 32
    | 1 => 16
    | _ => 8

/-- TMAX has reached 105 degrees; SENSOR_FAIL is set in every sample in which a sensor fails its self-check, and each that begins to has its
record (R144). was: TMAX had reached it already;
failed: the sensors that fail in this sample. -/
def State.overtemp (s : State) (t : Tract) (tm : Nat) (was : Bool) (failed : List Nat) : State :=
  let k := dramTherm t
  let s :=
    if tm < 105 then s
    else
      let s := s.raise k 11
      if was then s else s.emit (s.record .dramOvertemp 4 t.val)
  let new := failed.filter (fun n => !(s.tpwr t).badSensors.contains n)
  let s := s.modTpwr t (fun w => { w with badSensors := failed })
  let s := if failed.isEmpty then s else s.raise k 12
  new.foldl (fun s _ => s.emit (s.record .dramSensor 4 t.val)) s

/-- DRAM_TEMP_SAMPLE: the 48 sensors of a tract's stack; one that fails its self-check reads 105 degrees (R142 to R144, R386). In RESET they
are sampled for the trip alone. -/
def execDramTempSample (t : Tract) (readings : List (Option Nat)) (s : State) : Result :=
  .next <|
    let tm := (readings.map (fun r => r.getD 105)).foldl max 0
    let was := decide (105 ≤ (s.tpwr t).tm.getD 0)
    let s := s.modTpwr t (fun w => { w with tm := some tm })
    if 115 ≤ tm then s.thermTrip
    else if s.job.state == .reset then s
    else
      let s := (s.setRegBits (dramTherm t) 7 0 (min 255 tm)).refreshRule t tm
      let s := s.overtemp t tm was ((List.range readings.length).filter (fun n => (readings[n]?).join.isNone))
      if s.job.state.trains then s.dramRules t tm else s

/-- CATCHUP_END: every row has been refreshed once since the switch (R143). -/
def execCatchupEnd (t : Tract) (s : State) : Result := .next (s.setRegBits (dramTherm t) 10 10 0)

/-- DRAM_REFRESH: a bank is refreshed; it keeps its data and only its timing shows (R141). -/
def execDramRefresh (_p : ParcelId) (_layer : Fin 3) (_bank : Fin 16) (s : State) : Result := .next s

/-- The regions whose replica in a tract covers a key, with the line it lies in. -/
def State.replicaLineAt (s : State) (key : Nat) : Option (Nat × Nat) :=
  (List.range 16).findSome? (fun i =>
    match s.replRegion i with
    | some r =>
      let lo := keyOf (gaTract key) r.parcel r.off
      if gaTract key != gaTract r.home && decide (lo ≤ key ∧ key < lo + r.len) then some (i, (key - lo) / 128) else none
    | none => none)

/-- A word with an uncorrectable error becomes poison, with its record; in a replica area its line loses its validity (R147, R154). -/
def State.scrubUe (s : State) (p : ParcelId) (off : Nat) : State :=
  let u := sliceKey p off
  let line := s.replicaLineAt u
  let s := match line with
    | some l => s.dropLine p.tract l
    | none => s
  { s with mem := s.mem.poisonUnit u }.emit
    { s.recordP .dramUe 4 p with addr := s.globalOf u, detail := detailBytes [2 + b2n line.isSome, dramLayer off] }

/-- PATROL_SCRUB: the scrubber reads word number word of a slice and writes it back corrected (R145 to R147). -/
def execPatrolScrub (p : ParcelId) (word : Nat) (found : EccFinding) (s : State) : Result :=
  .next <|
    let u := sliceKey p (16 * word)
    if 0x480_0000 ≤ 16 * word ∨ s.mem.poison.contains u then s
    else if found = .uncorrectable ∨ s.mem.ue.contains u then s.scrubUe p (16 * word)
    else if found = .corrected ∨ s.mem.ce.contains u then
      { s with mem := { s.mem with ce := s.mem.ce.erase u } }.modHealth p (fun h => { h with dramce := (h.dramce + 1) % 65536 })
    else s

/-- The rules for CM_LAYOUT (R7, R137). -/
def cmLayoutOk (v : Nat) : Bool :=
  let t := bitsOf v 3 0
  decide (1 ≤ t ∧ t ≤ 8 ∧ bitsOf v 9 4 ≤ 32 ∧ bitsOf v 15 10 ≤ 32) &&
    decide (t * 0x4000 + bitsOf v 9 4 * 0x1000 + bitsOf v 15 10 * 0x1000 + 0x4000 ≤ markBase)

/-- Whether a tract's tile lists are empty and its engines have no entry in progress (R138). -/
def State.layoutIdle (s : State) (t : Tract) : Bool :=
  s.parcels.all (fun q => q.1.tract != t || q.2.tiles.isEmpty) &&
    [Engine.dispatcher, .mover, .transit, .vector].all (fun e => !(s.queue (engQueue t e)).busy)

/-- The bytes that leave the tile list region of a parcel hold what its entries left there, which the spec does not give: free bytes
(assumption log 12). base: the region's base under the new layout. -/
def State.leaveTiles (s : State) (p : ParcelId) (base : Nat) : State :=
  let low := (s.parcel p).tileLow
  if low < base then
    let left := tabulate (base - low) (fun i => Config.freeByte s.free (commonsKey p (low + i)))
    { s with mem := { s.mem with bytes := putBytes s.mem.bytes (commonsKey p low) left } }.modParcel p (fun v => { v with tileLow := base })
  else s

/-- A write of CM_LAYOUT (R138, R474). -/
def State.cmLayoutPut (s : State) (t : Tract) (v size : Nat) : State :=
  let k := tractReg .cmLayout t
  let r := (s.writeResult k v).1
  if !s.rwlLocked && cmLayoutOk r && r != s.reg k && !s.layoutIdle t then s.emit (s.record .cmLayoutBusy 16 t.val)
  else
    let s := s.regWrite k v size cmLayoutOk
    let base := tileBase (s.layout t)
    match s.parcels.filter (fun q => q.1.tract = t && q.2.tileLow < base) with
    | [] => s
    | ps => (ps.foldl (fun s q => s.leaveTiles q.1 base) s).takeFree

/-- CM_LAYOUT_WRITE (R138). -/
def execCmLayoutWrite (t : Tract) (value : Word) (s : State) : Result :=
  .next (s.atReg (tractReg .cmLayout t) 4 (fun s => s.cmLayoutPut t value.toNat 4))

/-- The three registers of a region: REPL_CTL, REPL_HOME, REPL_RLOC. -/
structure ReplRegs where
  ctl  : Nat
  home : Nat
  loc  : Nat
  deriving DecidableEq, Repr

def State.replRegs (s : State) (i : Nat) : ReplRegs :=
  { ctl := s.reg (modRegI .replCtl i), home := s.reg (modRegI .replHome i), loc := s.reg (modRegI .replRloc i) }

/-- REPL_LEN in bytes; whether two runs of a parcel's slice overlap. -/
def ReplRegs.len (r : ReplRegs) : Nat := bitsOf r.ctl 25 1 * 128
def ReplRegs.enabled (r : ReplRegs) : Bool := bitOf r.ctl 0
def runsMeet (a n b m : Nat) : Bool := decide (a < b + m ∧ b < a + n)

/-- The rules of R151 for a region that is enabled, beside the other regions as they stand. -/
def State.replOk (s : State) (i : Nat) (r : ReplRegs) : Bool :=
  let off := gaOffset r.home
  let roff := bitsOf r.loc 26 0
  let rp := bitsOf r.loc 37 27
  let others := ((List.range 16).filter (fun j => j ≠ i)).map s.replRegs |>.filter ReplRegs.enabled
  !r.enabled ||
    (decide (1 ≤ bitsOf r.ctl 25 1 ∧ bitsOf r.ctl 25 1 ≤ 524288) && gaModule r.home == s.job.moduleId.toNat && !gaBad r.home &&
      off % 128 == 0 && decide (off + r.len ≤ 0x480_0000) && decide (rp < 1360) && roff % 128 == 0 && decide (roff + r.len ≤ 0x480_0000) &&
      !(rp == gaParcel r.home && runsMeet roff r.len off r.len) &&
      others.all (fun x => !(bitsOf x.loc 37 27 == rp && runsMeet (bitsOf x.loc 26 0) x.len roff r.len)) &&
      decide (r.len + (others.map ReplRegs.len).sum ≤ 64 * 2 ^ 20))

/-- Every replica line of a region is invalid (R152). -/
def State.dropRegion (s : State) (i : Nat) : State :=
  { s with fabs := s.fabs.map (fun (q : Tract × TractFab) => (q.1, { q.2 with replOk := q.2.replOk.filter (fun l => l.1 != i) })) }

/-- A write of one of a region's registers; enabling it marks its lines invalid (R151, R152). DESIGN CHOICE: a write that changes the home, the
place or the length of a region that stays enabled leaves its lines as they are; the spec does not say (assumption log 51). -/
def State.replPut (s : State) (i : Nat) (k : RegKey) (v size : Nat) : State :=
  let was := (s.replRegs i).enabled
  let ok (x : Nat) : Bool := s.replOk i (match k.r with
    | .replCtl => { s.replRegs i with ctl := x }
    | .replHome => { s.replRegs i with home := x }
    | _ => { s.replRegs i with loc := x })
  let s := s.regWrite k v size ok
  if (s.replRegs i).enabled != was then s.dropRegion i else s

/-- REPL_CTL_WRITE (R151, R152). -/
def execReplCtlWrite (i : Fin 16) (value : Word) (s : State) : Result :=
  .next (s.atReg (modRegI .replCtl i.val) 4 (fun s => s.replPut i.val (modRegI .replCtl i.val) value.toNat 4))

/-- REPLICA_REFILL: a line of the home is written into a tract's replica and becomes valid, unless a write of the line is still being
invalidated (R152, R153). -/
def execReplicaRefill (t : Tract) (i : Fin 16) (line : Nat) (s : State) : Result :=
  .next <|
    match s.replRegion i.val with
    | none => s
    | some r =>
      let l := (i.val, line)
      let pending := s.fabs.any (fun q => q.2.replW.any (fun w => (s.regionLines w.key w.len).contains l))
      if gaTract r.home = t.val ∨ r.len ≤ 128 * line ∨ pending then s
      else
        let src := r.home + 128 * line
        let dst := keyOf t.val r.parcel (r.off + 128 * line)
        let s := s.touch src 128
        let s := (List.range 8).foldl (fun (s : State) (j : Nat) =>
          s.storeMaybe (dst + 16 * j) (s.mem.read (src + 16 * j) 16) (s.poisoned (src + 16 * j) 16)) s
        s.modFab t (fun f => { f with replOk := l :: f.replOk.filter (fun x => x != l) })

/-- REPLICA_WRITE_APPLIED: the replicas of other tracts have acknowledged the invalidation of a write's lines, and it counts as applied
(R153); in a dead tract none does (R271). tag: its place among those the home agent holds. -/
def execReplicaWriteApplied (t : Tract) (tag : Nat) (s : State) : Result :=
  .next <|
    match (s.fab t).replW[tag]? with
    | none => s
    | some w =>
      if s.dead t.val then s else ((s.modFab t (fun f => { f with replW := dropIdx f.replW tag })).staleLines w.key w.len).answer w.src w.resp

end Sys2Proof.Machine
end

