-- ==== Sys2Proof/Machine/Job.lean ====
section
/-!
DEFINITION. Job control: bind, arm, release and its scrub (R5, R21, R22, R127, R187, R280, R366, R392, R448, R449, R475).
-/
namespace Sys2Proof.Machine

/-- A request that is discarded, by the value written to JOB_CTL (R413, R448). -/
def State.jobBusy (s : State) (value : Nat) : State :=
  s.emit { s.recordM .jobBusy with
    detail := natLe 4 value ++ natLe 1 s.job.state.code ++ natLe 1 (b2n s.job.busy + 2 * b2n s.updBusy) ++ List.replicate 10 0 }

/-- BIND, with the value written to JOB_CTL (R448). -/
def State.bindJob (s : State) (modnum : BitVec 12) (value : Nat) : State :=
  if !s.job.state.trains then s
  else if s.job.state != .ready || s.job.busy || s.updBusy then s.jobBusy value
  else
    let s := { s with job := { s.job with state := .owned, moduleId := modnum, armedTime := 0, aborts := 0, wasArmed := false } }
    s.linksReeval

/-- ARM: Milulo validates (R448). -/
def State.armJob (s : State) (value : Nat) : State :=
  if !s.job.state.trains then s
  else if s.job.state != .owned || s.job.busy || s.updBusy then s.jobBusy value
  else { s with job := { s.job with busy := true } }

/-- A release is accepted: engines stop fetching and no step runs (R22). BUSY stays 1 until READY. -/
def State.beginRelease (s : State) : State :=
  { s with
    job := { s.job with state := .releasing, busy := true }
    errs := { s.errs with running := false, abort := none }
    plan := { s.plan with bnd := if s.plan.bnd.phase = .snapshot then s.plan.bnd else Boundary.reset } }

/-- RELEASE (R448). -/
def State.releaseJob (s : State) (value : Nat) : State :=
  if !s.job.state.trains ∨ s.job.state = .ready then s
  else if s.job.busy || s.job.state == .releasing then s.jobBusy value
  else s.beginRelease

/-- BIND: from READY, with no update running, the module is OWNED under the number given (R448). -/
def execBind (modnum : BitVec 12) (s : State) : Result := .next (s.bindJob modnum (1 + 65536 * modnum.toNat))

/-- ARM (R448). -/
def execArm (s : State) : Result := .next (s.armJob 2)

/-- RELEASE (R22, R448). -/
def execRelease (s : State) : Result := .next (s.releaseJob 4)

/-- A write of JOB_CTL (R448): exactly one request. -/
def State.jobCtlPut (s : State) (v size : Nat) : State :=
  match bitsOf v 2 0 with
  | 1 => s.bindJob (BitVec.ofNat 12 (bitsOf v 27 16)) (v % 2 ^ 32)
  | 2 => s.armJob (v % 2 ^ 32)
  | 4 => s.releaseJob (v % 2 ^ 32)
  | _ => s.badValue (modReg .jobCtl) v size

/-- FLR acts as an accepted release, whatever BUSY reads, and resets the function's PCIe state, which is the size of BAR2 (R364, R366, R448). -/
def execFlr (s : State) : Result :=
  .next <|
    let s := { s with host := { s.host with bar2 := none } }
    if s.job.state = .owned ∨ s.job.state = .armed then s.beginRelease else s

/-- An UP port whose partner fails a test. -/
def State.upPartner (s : State) (bad : ParamMsg → Bool) : Option Port :=
  (List.finRange 16).find? (fun p => s.portState p.val == 5 && match (s.link p).param with
    | some m => bad m
    | none => false)

/-- The first replicated region that breaks R151 as the configuration stands: its home may name the module by another number than BIND gave it.
DEDUCED: the register item that a rejected configuration names (R21, R413; assumption log 66). -/
def State.badRegion (s : State) : Option Nat := (List.range 16).find? (fun i => !s.replOk i (s.replRegs i))

/-- The first inconsistent item of a configuration, in the order in which R413 lists them (R21, R256, R280, R392, R449): reason, port, parcel,
address. -/
def State.armFault (s : State) : Option (Nat × Nat × Option ParcelId × Nat) :=
  match s.badRegion, s.upPartner (fun m => m.flow6 != s.flow6), s.upPartner (fun m => m.mapsum != s.mapsum) with
  | some i, _, _ => some (1, 0, none, s.regPlace (modRegI .replHome i))
  | none, some p, _ => some (2, p.val, none, 0)
  | none, none, some p => some (3, p.val, none, 0)
  | none, none, none =>
    let m := s.job.moduleId.toNat
    if !bitOf (s.reg (modRegI .jobMap (m / 64))) (m % 64) then some (4, 0, none, 0)
    else
      match s.retiredParcels with
      | p :: _ => some (5, 0, some p, 0)
      | [] => if s.readRtab.isNone then some (6, 0, none, s.regPlace (modReg .fabRtab)) else none

/-- The record of a rejected arm request (R413). -/
def State.armReject (s : State) (f : Nat × Nat × Option ParcelId × Nat) : State :=
  let at_ : List Byte := match f.2.2.1 with
    | some p => natLe 2 p.tract.val ++ natLe 2 p.parcel.val
    | none => [0, 0, 0, 0]
  (s.raise (modReg .jobStat) 4).emit
    { s.recordM .armReject with addr := f.2.2.2, detail := natLe 1 f.1 ++ natLe 1 f.2.1 ++ at_ ++ List.replicate 10 0 }

/-- ARM_VALIDATED: the module is ARMED, with its route table loaded, its epoch 0 and its RWL fields locked, and the first agreement begins; or
it stays OWNED (R5, R21, R218, R256, R345, R448). -/
def execArmValidated (s : State) : Result :=
  .next <|
    if s.job.state != .owned || !s.job.busy then s
    else
      let s := { s with job := { s.job with busy := false } }
      match s.armFault with
      | some f => s.armReject f
      | none =>
        let s := { s with
          job := { s.job with state := .armed, locked := true, wasArmed := true, skip := s.regBits (modReg .optCtl) 0 0 == 1 }
          fabric := { s.fabric with rtab := s.readRtab.getD [], epoch := 0 } }
        s.beginAgree

/-- An entry still in progress 100 ms after the release is aborted with an error status, which the spec does not give: a free value. -/
def State.abortEntries (s : State) (q : QueueId) : State :=
  ((s.queue q).entries.filter (fun e => e.started)).foldl (fun (s : State) (e : QEntry) =>
    let st := 1 + s.freeVal.toNat % 255
    let s := s.takeFree.modQueue q (fun v => { v with entries := v.entries.filter (fun x => x.id ≠ e.id) })
    s.putCpl q (s.cplBytes e.tag st e.pt.slot) e.irq) s

/-- RELEASE_DRAIN_TIMEOUT (R22). -/
def execReleaseDrainTimeout (s : State) : Result :=
  .next (if s.job.state = .releasing then allQueues.foldl State.abortEntries s else s)

/-- Registers that a release returns to their reset values as wholes (R475). -/
def releasedReg : RegName → Bool
  | .planStat | .rtStat | .clSend | .clRecv | .clNull | .clStat | .fabEpoch | .fabStat | .fabCl | .fabHcl | .xsPort | .parcelNflags
  | .tractNflags | .plotCfg | .tileTmpl | .tlStat | .plotWdog | .plotPwr | .plotRel | .markBcfg | .markStat | .markMstat | .stashStat
  | .stashFullset | .optStat | .qTail | .qHead | .qCplhead | .qStat | .qRestart | .errStat => true
  | _ => false

/-- A register's value after a release: RWL fields and the state of links stay (R475). -/
def releasedValue (k : RegKey) (v : Nat) : Nat :=
  match k.r with
  | .linkStat => v % 2 ^ 32
  | .qCfg => setBits v 10 10 0
  | _ => v

/-- A parcel after a release: nothing of the job; its health table stays, and the half of a register last written (R22, R187, R319, R429). -/
def Parcel.released (v : Parcel) : Parcel :=
  { Parcel.reset with health := { v.health with dramce := 0, askip := 0 }, hwrLow := v.hwrLow }

/-- A core after a release: halted, with nothing in flight and its array unconfigured (R98); its registers keep their values, for R475 lists of
the state registers only MODULE_ID and STEP, which are the module's (assumption log 35). -/
def Core.released (k : Core) : Core :=
  { Core.reset with
    g := k.g, a := k.a, p := k.p, pc := k.pc, ac := k.ac, progBase := k.progBase, progLimit := k.progLimit, arg0 := k.arg0, arg1 := k.arg1
    arriveSt := k.arriveSt }

/-- What a release leaves (R22, R475). -/
def State.scrub (s : State) : State :=
  let s := s.returnBuffers
  { s with
    mem := Mem.reset
    cores := s.cores.map (fun (q : CoreId × Core) => (q.1, q.2.released))
    parcels := s.parcels.map (fun (q : ParcelId × Parcel) => (q.1, q.2.released))
    fabs := s.fabs.map (fun (q : Tract × TractFab) =>
      (q.1, { TractFab.reset with nextGen := q.2.nextGen, collector := q.2.collector, lost := q.2.lost }))
    fabric := { rtab := [], epoch := 0, advancing := false, stamp := 0 }
    relayed := []
    links := s.links.map (fun (q : Port × LinkPort) => (q.1, q.2.dropMemory))
    engWaits := []
    queues := []
    seqrs := s.seqrs.map (fun (q : Tract × Seqr) => (q.1, { q.2 with convFlags := 0, redFlags := 0 }))
    regs := (s.regs.filter (fun q => !releasedReg q.1.r)).map (fun (q : RegKey × Nat) => (q.1, releasedValue q.1 q.2))
    plan := PlanState.reset
    xfer := XferState.reset
    job := { Job.reset with state := .ready } }

/-- RELEASE_SCRUB_DONE: once entries have ended, and a snapshot or restore in progress, the scrub ends and the module is READY with its fields
unlocked; the links hear of its new number (R5, R22, R357, R448, R475). -/
def execReleaseScrubDone (s : State) : Result :=
  .next <|
    if s.job.state ≠ .releasing ∨ s.snapState = 1 ∨ s.snapState = 2 ∨ allQueues.any (fun q => (s.queue q).busy) then s
    else s.scrub.linksReeval

end Sys2Proof.Machine
end

