-- ==== Sys2Proof/Machine/Security.lean ====
section
/-!
DEFINITION. Firmware update, debug unlock and attestation (R401, R402, R404 to R409, R453, R454).
-/
namespace Sys2Proof.Machine

def updCtl : RegKey := modReg .updCtl
def secStat : RegKey := modReg .secStat

/-- Recovery mode: the boot ROM serves the update window (R402). -/
def State.recovering (s : State) : Bool := s.job.state == .boot && s.phase == 14

/-- A write of GO starts an update in READY, or in recovery, unless one runs (R401, R402). -/
def State.goPut (s : State) : State :=
  if (s.job.state == .ready || s.recovering) && !s.updBusy then s.setRegBits updCtl 1 1 1 else s

/-- GO (R401). -/
def execGo (s : State) : Result := .next s.goPut

/-- An update fails at a check. -/
def State.updateFailed (s : State) (check : Nat) : State := (s.raise updCtl 3).setRegBits updCtl 7 4 check

/-- UPDATE_VERIFY_DONE: the staged image is programmed, or fails a check of R399; failedCheck 7 says that flash did not read back as written,
which leaves no valid image. In recovery the image boots at once (R401, R402). -/
def execUpdateVerifyDone (failedCheck : Nat) (s : State) : Result :=
  .next <|
    if !s.updBusy then s
    else
      let im := s.up.sec.stagedImage
      let s := s.setRegBits updCtl 1 1 0
      match s.up.sec.imageCheck, failedCheck with
      | 0, 7 => (s.modSec (fun v => { v with flash := none })).updateFailed 7
      | 0, _ =>
        let s := (s.modSec (fun v => { v with flash := some im })).raise updCtl 2
        if s.recovering then (s.modSec (fun v => v.start im)).setPhase 4 else s
      | c, _ => s.updateFailed c

/-- A write to the staging buffer (R443, R447, R454). -/
def State.stagingPut (s : State) (off : Nat) (data : List Byte) : State :=
  let refused := s.hostWin 0 (0x200_0000 + off) true data.length false
  if s.job.state == .ready || s.recovering then
    if s.updBusy || 0x200_0000 < off + data.length then refused
    else s.modSec (fun v => { v with staging := putBytes v.staging off data })
  else if s.job.state.trains then refused
  else s

/-- STAGING_WRITE (R454). -/
def execStagingWrite (offset : Nat) (data : List Byte) (s : State) : Result := .next (s.stagingPut offset data)

/-- A new nonce, which the spec does not fix. -/
def State.newNonce (s : State) : State :=
  (s.modSec (fun v => { v with nonce := tabulate 32 (Config.freeByte s.free) })).takeFree

/-- What a token's body says: serial number, nonce, level and key slot (R409). -/
def tokenSerial (t : Sys2Proof.Token) : Nat := (Config.tokenFields t.body).1
def tokenNonce (t : Sys2Proof.Token) : Nat := (Config.tokenFields t.body).2.1
def tokenLevel (t : Sys2Proof.Token) : Nat := (Config.tokenFields t.body).2.2.1
def tokenSlot (t : Sys2Proof.Token) : Nat := (Config.tokenFields t.body).2.2.2

/-- Whether a token is granted: READY, the module's serial and its present nonce, both signatures, a key slot that is not revoked (R409). -/
def State.tokenOk (s : State) (tok : Sys2Proof.Token) : Bool :=
  let slot := tokenSlot tok
  s.job.state == .ready && tokenSerial tok == Config.serial.toNat && tokenNonce tok == leNat s.up.sec.nonce && decide (slot < 4) &&
    !bitOf s.up.sec.krevoke slot && Config.ecdsaOk (Config.khashE slot) tok.body tok.esig && Config.hssOk (Config.khashL slot) tok.body tok.lsig

/-- A verification attempt: the level is granted, beside levels granted before, or DBGERR is set; the nonce is replaced (R409, R453). -/
def State.unlockToken (s : State) (tok : Sys2Proof.Token) : State :=
  let s' := s.newNonce
  if s.tokenOk tok then s'.setRegBits secStat 18 16 (s.regBits secStat 18 16 ||| tokenLevel tok % 8) else s'.raise secStat 19

/-- The token that the token buffer holds: its body of 256 bytes, the ECDSA signature of 96, the HSS signature of 2,964 (R409, R453). -/
def State.bufferedToken (s : State) : Sys2Proof.Token :=
  let bytes (lo n : Nat) : List Byte := tabulate n (fun i => byteAt s.up.sec.token (lo + i))
  { body := bytes 0 256, esig := bytes 256 96, lsig := bytes 352 2964 }

/-- A token's bytes are written to the token buffer (R453). -/
def State.putToken (s : State) (tok : Sys2Proof.Token) : State :=
  s.modSec (fun v => { v with token := putBytes v.token 0 (fit 256 tok.body ++ fit 96 tok.esig ++ fit 2964 tok.lsig) })

/-- UNLOCK: the host has written tok to the token buffer, and writes UNLOCK, at which the buffer is verified (R409, R453). -/
def execUnlock (tok : Sys2Proof.Token) (s : State) : Result :=
  .next (s.atReg (modReg .dbgCtl) 4 (fun s =>
    let s := s.putToken tok
    s.unlockToken s.bufferedToken))

/-- DBG_NONCE_READ: a read that covers byte 0 makes a new nonce; the addressed bytes are returned (R453). -/
def execDbgNonceRead (offset size : Nat) (s : State) : Result :=
  .next <|
    if !s.job.state.trains then s
    else
      let s := if offset = 0 ∧ 0 < size then s.newNonce else s
      s.send (.debugData ((s.up.sec.nonce.drop offset).take size))

def State.modSpdm (s : State) (f : Spdm → Spdm) : State := s.modSec (fun v => { v with spdm := f v.spdm })

/-- An SPDM ERROR response (code 0x7F) with its error code: 0x01 InvalidRequest, 0x04 UnexpectedRequest, 0x05 UnspecifiedError, 0x41
VersionMismatch (codes PRESUMED of SPDM, assumption log 18). -/
def State.spdmError (s : State) (code : Nat) : State := s.send (.spdm 0x7F (natLe 1 code))

/-- The bytes of the SPDM messages among what the module sends. -/
def spdmBytes (l : List OutMsg) : List Byte :=
  l.flatMap (fun m => match m with
    | .spdm code body => natLe 1 code ++ body
    | _ => [])

/-- A request is served from READY on, and only once the negotiation has come so far; it and its response join the transcript (R405, R406). -/
def State.spdmServe (s : State) (r : SpdmReq) (ready : Spdm → Bool) (act : State → State) : State :=
  if !s.job.state.trains then s
  else
    let t := if ready s.up.sec.spdm then act s else s.spdmError 0x04
    t.modSpdm (fun v => { v with heard := v.heard ++ r.body ++ spdmBytes (t.out.drop s.out.length) })

/-- Whether a response can be signed: a leaf is left, and the journal's bound lies past it or can be raised (R407, R408). -/
def State.canSign (s : State) (r : SpdmReq) : Bool := decide (s.up.sec.leaf < leafTotal) && (s.up.sec.reserved || r.journal)

/-- A response signed with the Alias key and, in its OpaqueData, with the next leaf of the HSS key, both over the hash of the transcript; without
a leaf, or where its journal record cannot be written, it is UnspecifiedError (R405, R407, R408). -/
def State.spdmSigned (s : State) (r : SpdmReq) (code : Nat) (body : List Byte) : State :=
  if !s.canSign r then (if s.up.sec.leaf < leafTotal then s.journalFails else s).spdmError 0x05
  else
    let v := s.up.sec
    let (e, l) := v.signatures ((v.keys.map DeviceKeys.alias).getD []) s.free (Config.sha384 (v.spdm.heard ++ r.body ++ natLe 1 code ++ body))
    (s.takeFree.modSec Security.useLeaf).leafFlags.send (.spdm code (body ++ natLe 2 0x5601 ++ natLe 4 v.leaf ++ l ++ e))

/-- GET_VERSION: a connection starts afresh; versions 1.2 and 1.3 are offered. -/
def execGetVersion (r : SpdmReq) (s : State) : Result :=
  .next (s.spdmServe r (fun _ => true) (fun s =>
    (s.modSpdm (fun v => { Spdm.reset with nextSess := v.nextSess })).send (.spdm 0x04 [0x12, 0x13])))

/-- GET_CAPABILITIES: the version is chosen. -/
def execGetCapabilities (r : SpdmReq) (s : State) : Result :=
  .next (s.spdmServe r (fun _ => true) (fun s =>
    if r.version = 0x12 ∨ r.version = 0x13 then
      (s.modSpdm (fun v => { v with version := some r.version, caps := true })).send (.spdm 0x61 (natLe 1 r.version))
    else s.spdmError 0x41))

/-- NEGOTIATE_ALGORITHMS: ECDSA P-384 and SHA-384 only; a requester that does not offer both gets InvalidRequest (R405; PRESUMED, assumption log 18). -/
def execNegotiateAlgorithms (r : SpdmReq) (s : State) : Result :=
  .next (s.spdmServe r (fun v => v.caps) (fun s =>
    if r.p384 && r.sha384 then (s.modSpdm (fun v => { v with algos := true })).send (.spdm 0x63 [0x80, 0x02]) else s.spdmError 0x01))

/-- GET_DIGESTS: the digest of slot 0. -/
def execGetDigests (r : SpdmReq) (s : State) : Result :=
  .next (s.spdmServe r (fun v => v.algos) (fun s => s.send (.spdm 0x01 (sha384Bytes s.up.sec.chain))))

/-- GET_CERTIFICATE: slot 0 holds the chain (R405). -/
def execGetCertificate (r : SpdmReq) (s : State) : Result :=
  .next (s.spdmServe r (fun v => v.algos) (fun s => if r.slot = 0 then s.send (.spdm 0x02 s.up.sec.chain) else s.spdmError 0x01))

/-- CHALLENGE (R405, R408). -/
def execChallenge (r : SpdmReq) (s : State) : Result :=
  .next (s.spdmServe r (fun v => v.algos) (fun s =>
    if r.slot = 0 then s.spdmSigned r 0x03 (sha384Bytes s.up.sec.chain) else s.spdmError 0x01))

/-- The measurement blocks 1 to 5 (R405). -/
def State.measurement (s : State) (n : Nat) : Option (List Byte) :=
  let v := s.up.sec
  match n with
  | 1 => some Config.romVersion
  | 2 => some ((v.running.map (fun im => im.manifest)).getD [])
  | 3 => some (natLe 1 v.arb ++ natLe 1 v.krevoke ++ natLe 1 (s.regBits secStat 12 12))
  | 4 => some (natLe 1 (s.regBits secStat 18 16) ++ natLe 4 v.recoveries)
  | 5 => some (sha384Bytes (natLe 8 (s.reg (modReg .linkJob)) ++ natLe 4 (s.reg (modReg .fabCtl)) ++ natLe 4 (s.reg (modReg .optCtl))))
  | _ => none

/-- GET_MEASUREMENTS: block 0 asks for their number, 0xFF for all, another for that one; signed or not (R405). -/
def execGetMeasurements (r : SpdmReq) (s : State) : Result :=
  .next (s.spdmServe r (fun v => v.algos) (fun s =>
    let body : Option (List Byte) :=
      if r.block = 0 then some [5]
      else if r.block = 0xFF then some ([1, 2, 3, 4, 5].flatMap (fun n => (s.measurement n).getD []))
      else s.measurement r.block
    match body with
    | none => s.spdmError 0x01
    | some b => if r.signed then s.spdmSigned r 0x60 b else s.send (.spdm 0x60 b)))

/-- KEY_EXCHANGE: a session begins, of slot 0 (R405, R408). -/
def execKeyExchange (r : SpdmReq) (s : State) : Result :=
  .next (s.spdmServe r (fun v => v.algos) (fun s =>
    if r.slot ≠ 0 then s.spdmError 0x01 else
    let id := s.up.sec.spdm.nextSess
    let t := s.spdmSigned r 0x64 (natLe 4 id)
    if !s.canSign r then t
    else t.modSpdm (fun v => { v with begun := v.begun ++ [id], nextSess := id + 1 })))

/-- FINISH: a session begun is established. -/
def execFinish (r : SpdmReq) (s : State) : Result :=
  .next (s.spdmServe r (fun v => v.begun.contains r.session) (fun s =>
    (s.modSpdm (fun v => { v with begun := v.begun.filter (fun x => x ≠ r.session), sessions := v.sessions ++ [r.session] })).send
      (.spdm 0x65 [])))

/-- HEARTBEAT: an established session is alive. -/
def execHeartbeat (r : SpdmReq) (s : State) : Result :=
  .next (s.spdmServe r (fun v => v.sessions.contains r.session) (fun s => s.send (.spdm 0x68 [])))

/-- END_SESSION. -/
def execEndSession (r : SpdmReq) (s : State) : Result :=
  .next (s.spdmServe r (fun v => v.sessions.contains r.session) (fun s =>
    (s.modSpdm (fun v => { v with sessions := v.sessions.filter (fun x => x ≠ r.session) })).send (.spdm 0x6C [])))

end Sys2Proof.Machine
end

