-- ==== Sys2Proof/Machine/Stash.lean ====
section
/-!
DEFINITION. The host at the stash: STASH_CFG and the reset of a ledger (R316, R319).
-/
namespace Sys2Proof.Machine

/-- The rules for a value of STASH_CFG (R7, R316). -/
def stashCfgOk (v : Nat) : Bool :=
  let frame := 2 ^ (12 + bitsOf v 4 1)
  let base := bitsOf v 22 8 * 4096
  let n := bitsOf v 46 32
  decide (bitsOf v 4 1 ≤ 8) &&
    (!bitOf v 0 || (base % frame == 0 && decide (1 ≤ n ∧ base + n * frame ≤ 0x480_0000)))

/-- A write of STASH_CFG; an accepted one, which a locked register admits none of, resets the ledger of every parcel of the plot (R5, R316,
R319). -/
def State.stashCfgPut (s : State) (t : Tract) (n : Nat) (v size : Nat) : State :=
  let k := tractRegI .stashCfg t n
  let ok := stashCfgOk (s.writeResult k v).1 && !s.rwlLocked
  let s := s.regWrite k v size stashCfgOk
  if ok then (s.plotParcels t (BitVec.ofNat 8 n)).foldl State.ledgerReset s else s

/-- STASH_RST: software writes 1 to RST (R319). -/
def execStashRst (p : ParcelId) (s : State) : Result := .next (s.atReg (parcelReg .stashStat p) 8 (fun s => s.ledgerReset p))

/-- STASH_CFG_WRITE (R316). -/
def execStashCfgWrite (t : Tract) (n : Fin 256) (value : DWord) (s : State) : Result :=
  .next (s.atReg (tractRegI .stashCfg t n.val) 8 (fun s => s.stashCfgPut t n.val value.toNat 8))

end Sys2Proof.Machine
end

