-- ==== Sys2Proof/Machine/TestPort.lean ====
section
/-!
DEFINITION. Test access: the TAP and the test multiplexer (R471 to R473).
-/
namespace Sys2Proof.Machine

/-- SEC_STAT.DBGLVL. -/
def State.dbgLevel (s : State) : Nat := s.regBits (modReg .secStat) 18 16

/-- The rules for TESTMUX_SEL: its reserved encodings, and EN only with debug level bit 0 (R473). -/
def State.testmuxOk (s : State) (v : Nat) : Bool :=
  decide (bitsOf v 4 1 ≤ 7 ∧ bitsOf v 8 5 ≤ 11 ∧ bitsOf v 19 9 ≤ 1359 ∧ bitsOf v 27 24 ≤ 8) && (!bitOf v 0 || bitOf s.dbgLevel 0)

/-- TESTMUX_SEL_WRITE (R473). -/
def execTestmuxSelWrite (value : Word) (s : State) : Result :=
  .next (s.atReg (modReg .testmuxSel) 4 (fun s => s.regWrite (modReg .testmuxSel) value.toNat 4 s.testmuxOk))

/-- The slot instance at the present meridian time, and the ns since it began; none outside a step (R224). -/
def State.slotNow (s : State) : Option (Nat × Nat) :=
  if s.plan.stepped && decide (s.plan.start ≤ s.mtime) then some ((s.mtime - s.plan.start) / 1024, (s.mtime - s.plan.start) % 1024) else none

/-- Slot execution of a port (R473). With several tables in force the position is that of the one that owns the instance, and 0 where none has an
entry of it (DESIGN CHOICE, assumption log 75). -/
def State.slotBits (s : State) (p : Port) : Nat :=
  let v := s.slotSeen p
  let now := match s.slotNow with
    | some (n, ns) => ((s.slotOwner p n).map (fun o => o.2.1.slot)).getD 0 % 4096 + 4096 * b2n (ns < 992) + 8192 * b2n (992 ≤ ns)
    | none => 0
  now + 16384 * b2n v.missed + 32768 * b2n v.acked

/-- Whether a wake of the core is in progress: its condition holds and CORE_WAKE has still to come (R380). -/
def State.waking (s : State) (c : CoreId) : Bool :=
  let k := s.core c
  k.run == .running && k.pwr ≠ .run && (match k.wait with
    | none => true
    | some w => !s.stallOpen c w)

/-- The 16 bits that OBS shows of the group selected (R473). While RESET_N is low OBS is low (R463). A tract that is not available shows 0 (R473). -/
def State.obs (s : State) : Nat :=
  let k := modReg .testmuxSel
  let t := s.regBits k 8 5
  let p := s.regBits k 23 20
  let pwr := modRegI .tractPwr t
  if s.up.boot.pinLow then 0 else
  match s.regBits k 0 0, s.regBits k 4 1 with
  | 1, 3 => if s.tractServed t then
      (match keyParcel (keyOf t 0 0) with
      | some q => s.tractStep q.tract
      | none => 0) + 64 * (s.regBits pwr 21 11 / 2 % 1024) else 0
  | 1, 4 => if s.tractServed t then s.reg { r := .dramTherm, t := t, p := 0, i := 0 } % 2048 else 0
  | 1, 5 =>
    match keyParcel (keyOf t (s.regBits k 19 9) 0) with
    | some q =>
      let run := ((s.coresOf q).filter (fun c => (s.core c).pwr = .run && (s.core c).run = .running)).length
      if s.tractServed t then
        s.stepNow q + 64 * run + 2 ^ 13 * b2n ((s.coresOf q).any s.waking) + 2 ^ 14 * b2n (!(s.parcel q).tiles.isEmpty) + 2 ^ 15 * b2n (s.trim q == 50)
      else 0
    | none => 0
  | 1, 6 => s.portState p + 8 * ((match (List.finRange 16).find? (fun (x : Port) => x.val = p) with
      | some x => (s.link x).rxseq % 4096 + 4096 * b2n (!(s.link x).again.isEmpty)
      | none => 0) % 8192)
  | 1, 7 => bitsOf s.mtime 19 4
  | 1, 1 => if s.tractServed t then
      match keyParcel (keyOf t 0 0) with
      | some q =>
        let qs := [Engine.dispatcher, .mover, .transit, .vector].map (fun e => engQueue q.tract e)
        let bit (f : QueueId → Bool) (lo : Nat) : Nat := (qs.zipIdx.map (fun (x : QueueId × Nat) => b2n (f x.1) * 2 ^ (lo + x.2))).sum
        bit (fun q => (s.queue q).busy) 0 + bit s.headWaits 4 + bit (fun q => (s.queue q).stopped) 8 +
          2 ^ (12 + (s.seqrs.get q.tract Seqr.reset).last % 4)
      | none => 0
    else 0
  | 1, 2 => match (List.finRange 16).find? (fun (x : Port) => x.val = p) with
    | some x => s.slotBits x
    | none => 0
  | _, _ => 0

/-- The pins of the boundary-scan chain (R472), in an order of this model's: the spec gives none. -/
def allPins : List Pin :=
  [.resetN, .perstN, .throttleN, .refsel, .refclkIn, .pmbClk, .pmbData, .pmbAlertN, .ready, .thermtripN, .clkobs, .obsclk] ++
    (List.finRange 3).map Pin.oscWait ++ (List.finRange 3).map Pin.avsClk ++ (List.finRange 3).map Pin.avsMdata ++
    (List.finRange 3).map Pin.avsSdata ++ (List.finRange 16).map Pin.obs

/-- Whether the module drives a pin (R462). -/
def Pin.out : Pin → Bool
  | .ready | .thermtripN | .clkobs | .obsclk | .avsClk _ | .avsMdata _ | .obs _ | .pmbClk | .pmbData => true
  | _ => false

/-- The READY pin: high from READY on (R393). -/
def State.readyPin (s : State) : Bool := !s.up.boot.pinLow && s.job.state.trains

/-- The level of a pin in functional control. While RESET_N is low every output but THERMTRIP_N is low (R463). The clocks, the buses and what the
carrier drives without a command are a free value n. -/
def State.funcPin (s : State) (n : Nat) : Pin → Bool
  | .resetN => !s.up.boot.pinLow
  | .perstN => !s.up.pins.perstLow
  | .throttleN => if s.up.pins.throtFast then bitOf n 0 else !s.up.pins.throttle
  | .pmbAlertN => if s.up.pins.alertDone then bitOf n 1 else !s.up.pins.alert
  | .refsel => bitOf n 2
  | .oscWait i => bitOf n (3 + i.val)
  | .refclkIn => bitOf n 6
  | .avsSdata i => bitOf n (7 + i.val)
  | .thermtripN => !s.up.boot.tripped
  | .ready => s.readyPin
  | .obs i => bitOf s.obs i.val
  | .obsclk => !s.up.boot.pinLow && s.regBits (modReg .testmuxSel) 0 0 == 1 && bitOf n 10
  | .clkobs => !s.up.boot.pinLow && s.job.state.trains && s.clkobsPin.isSome && bitOf n 11
  | .pmbClk => !s.up.boot.pinLow && bitOf n 12
  | .pmbData => !s.up.boot.pinLow && bitOf n 13
  | .avsClk i => !s.up.boot.pinLow && s.managesRails && bitOf n (14 + i.val)
  | .avsMdata i => !s.up.boot.pinLow && s.managesRails && bitOf n (17 + i.val)

/-- The level of a pin, none where nothing drives it: EXTEST and CLAMP drive what the cells were preloaded with, HIGHZ nothing; the THERMTRIP_N cell
only observes (R472). -/
def State.pinLevel (s : State) (n : Nat) (p : Pin) : Option Bool :=
  if !p.out || p == .thermtripN then some (s.funcPin n p)
  else
    match s.up.tap with
    | .highz => none
    | .extest | .clamp => some (bitOf s.up.preload (allPins.idxOf p))
    | _ => some (s.funcPin n p)

/-- The TAP takes an instruction, or acts as BYPASS where its condition does not hold (R471). -/
def State.tapTake (s : State) (ok : Bool) (i : TapInstr) : State :=
  if ok then { s with up := { s.up with tap := i } } else { s with up := { s.up with tap := .bypass, tapDr := 0 } }

/-- IDCODE: always accepted; the data register holds 0x0120_05D3. -/
def execIdcode (s : State) : Result :=
  let s := s.tapTake true .idcode
  .next { s with up := { s.up with tapDr := 0x0120_05D3 } }

/-- The boundary-scan cells capture the pins; the order in which the data register shows them is not given, so what it shows is a free value
(R472). -/
def State.capture (s : State) : State :=
  let n := s.freeVal.toNat
  let cells := allPins.map (fun p => (p, s.pinLevel n p))
  let s := s.takeFree
  { s.takeFree with up := { s.up with cells := cells, tapDr := s.freeVal.toNat } }

/-- SAMPLE/PRELOAD: always accepted; it captures the pins, and what is shifted in for EXTEST and CLAMP is a free value. -/
def execSamplePreload (s : State) : Result :=
  .next <|
    let s := (s.tapTake true .samplePreload).capture
    { s.takeFree with up := { s.up with preload := s.freeVal.toNat } }

/-- EXTEST: only while RESET_N is low; it captures the pins (R471, R472). -/
def execExtest (s : State) : Result :=
  .next (if s.up.boot.pinLow then (s.tapTake true .extest).capture else s.tapTake false .extest)

/-- CLAMP and HIGHZ: only while RESET_N is low; the data register is then the bypass bit, as IEEE 1149.1 has it (R471). -/
def execClamp (s : State) : Result :=
  let s := s.tapTake s.up.boot.pinLow .clamp
  .next { s with up := { s.up with tapDr := 0 } }
def execHighz (s : State) : Result :=
  let s := s.tapTake s.up.boot.pinLow .highz
  .next { s with up := { s.up with tapDr := 0 } }

/-- A private instruction, code 0x80 to 0xFE: only with debug level bit 1, when the data register is test state, a free value; any other code is
BYPASS (R471, R472). -/
def execPrivateInstruction (code : BitVec 8) (s : State) : Result :=
  .next <|
    if decide (0x80 ≤ code.toNat ∧ code.toNat ≤ 0xFE) && bitOf s.dbgLevel 1 then
      let s := s.tapTake true (.private_ code)
      { s.takeFree with up := { s.up with tapDr := s.freeVal.toNat } }
    else s.tapTake false .bypass

/-- BYPASS: the data register is one bit, captured as 0. -/
def execBypass (s : State) : Result :=
  let s := s.tapTake true .bypass
  .next { s with up := { s.up with tapDr := 0 } }

/-- TAP_RESET: TRST_N, or five TCK cycles with TMS high: IDCODE, as IEEE 1149.1 has it where the device has that instruction (PRESUMED,
assumption log 19); the module is not affected (R472). -/
def execTapReset (s : State) : Result :=
  let s := s.tapTake true .idcode
  .next { s with up := { s.up with tapDr := 0x0120_05D3 } }

end Sys2Proof.Machine
end

