-- ==== Sys2Proof/Machine/RegWrite.lean ====
section
/-!
DEFINITION. A write of the host to BAR0 (R3 to R7, R441 to R459, R474): the block and register an offset names, what each register admits, and
what a write to it does.
-/
namespace Sys2Proof.Machine

/-- What an offset of BAR0 names (R441): a byte of a register; a byte of the token buffer or of the staging buffer; one of DBG_NONCE, or of the
view of a core, which ignore writes (R451, R453), as does what holds no register; a block of a tract that does not answer, or a range that is
reserved. -/
inductive BarPlace where
  | reg (k : RegKey) (byte : Nat)
  | token (off : Nat)
  | staging (off : Nat)
  | nonce (off : Nat)
  | core (c : CoreId) (off : Nat)
  | empty
  | refused
  deriving DecidableEq, Repr

/-- A register of a block as an offset within the block names it. -/
def placeIn (sc : RegScope) (off : Nat) (key : RegName → Nat → RegKey) : BarPlace :=
  match regAt sc off with
  | some (r, i) => .reg (key r i) (off - (r.row.offset + i * r.row.stride))
  | none => .empty

/-- The parcel a window select register names, if its tract answers (R446, R450). -/
def State.selected (s : State) (r : RegName) : Option ParcelId :=
  match keyParcel (keyOf (s.regBits (modReg r) 14 11) (s.regBits (modReg r) 10 0) 0) with
  | some p => if s.tractServed p.tract.val then some p else none
  | none => none

/-- The core that CWIN_SEL names, where its tract answers (R446, R451). -/
def State.selectedCore (s : State) : Option CoreId :=
  match s.selected .cwinSel with
  | some p => some { tract := p.tract, parcel := p.parcel, core := ⟨s.regBits (modReg .cwinSel) 20 15 % 64, Nat.mod_lt _ (by decide)⟩ }
  | none => none

/-- A place in a parcel's control window (R450, R317): the claim block takes no writes. -/
def windowPlace (p : ParcelId) (off : Nat) : BarPlace :=
  if off < 0x8000 then placeIn .parcel off (fun r i => parcelRegI r p i) else .empty

/-- A place in the block of a tract (R457, R458). -/
def tractPlace (t : Nat) (off : Nat) : BarPlace :=
  if off < 0xF_0000 then placeIn .tract off (fun r i => { r := r, t := t, p := 0, i := i })
  else if off < 0xF_4000 then placeIn .queue (off % 0x1000) (fun r _ => { r := r, t := t, p := 0, i := (off - 0xF_0000) / 0x1000 })
  else .empty

/-- The map of BAR0 (R441, R446, R453). -/
def State.barPlace (s : State) (off : Nat) : BarPlace :=
  if off < 0x10_0000 then placeIn .module off modRegI
  else if off < 0x14_0000 then .empty
  else if off < 0x14_1000 then .token (off - 0x14_0000)
  else if off < 0x14_1020 then .nonce (off - 0x14_1000)
  else if off < 0x14_2000 then placeIn .module off modRegI
  else if 0x18_0000 ≤ off ∧ off < 0x19_0000 then
    match s.selected .pwinSel with
    | some p => windowPlace p (off - 0x18_0000)
    | none => .refused
  else if 0x19_0000 ≤ off ∧ off < 0x19_0200 then
    match s.selectedCore with
    | some c => .core c (off - 0x19_0000)
    | none => .refused
  else if 0x100_0000 ≤ off ∧ off < 0x1C0_0000 then
    let t := (off - 0x100_0000) / 0x10_0000
    if s.tractServed t then tractPlace t (off % 0x10_0000) else .refused
  else if 0x200_0000 ≤ off ∧ off < 0x400_0000 then .staging (off - 0x200_0000)
  else .refused

/-- The rules for STEP_CFG (R216): DEADLINE 30 to 1,000, LEAD 40 to 10,000 and at least 30 above DEADLINE. -/
def stepCfgOk (v : Nat) : Bool :=
  let d := bitsOf v 9 0
  let l := bitsOf v 23 10
  decide (30 ≤ d ∧ d ≤ 1000 ∧ 40 ≤ l ∧ l ≤ 10000 ∧ d + 30 ≤ l)

/-- The rules for FAB_CTL: ordering modes 0 and 1, ENG_TMO 1 to 1,000. -/
def fabCtlOk (v : Nat) : Bool :=
  [1, 3, 5, 7].all (fun h => decide (bitsOf v h (h - 1) ≤ 1)) && decide (1 ≤ bitsOf v 20 11 ∧ bitsOf v 20 11 ≤ 1000)

/-- The rules for PWR_CTL: both limits 600 to 1,500 (R382). -/
def pwrCtlOk (v : Nat) : Bool :=
  decide (600 ≤ bitsOf v 10 0 ∧ bitsOf v 10 0 ≤ 1500 ∧ 600 ≤ bitsOf v 21 11 ∧ bitsOf v 21 11 ≤ 1500)

/-- The rules for REL_CTL: rates 17 to 30 are reserved. -/
def relCtlOk (v : Nat) : Bool := [4, 9, 14].all (fun h => let r := bitsOf v h (h - 4); decide (r ≤ 16 ∨ r = 31))

/-- The rules for SNAP_CTL: BUDGET at most 1,000, M0 at least 1. -/
def snapCtlOk (v : Nat) : Bool := decide (bitsOf v 25 16 ≤ 1000 ∧ 1 ≤ bitsOf v 47 32)

/-- The rules for PWIN_SEL and CWIN_SEL. -/
def winSelOk (v : Nat) : Bool := decide (bitsOf v 10 0 < 1360 ∧ bitsOf v 14 11 < 12)

/-- The rules for a watchdog in microseconds (R299). -/
def wdogOk (v : Nat) : Bool := decide (1 ≤ bitsOf v 23 0 ∧ bitsOf v 23 0 ≤ 10_000_000)

/-- The rules for EASE_CFG: 0, or 5 and more. -/
def easeCfgOk (v : Nat) : Bool := decide (bitsOf v 15 0 = 0 ∨ 5 ≤ bitsOf v 15 0)

/-- The rules for Q_CFG: QLOG and CLOG 6 to 16. -/
def qCfgOk (v : Nat) : Bool := decide (6 ≤ bitsOf v 4 0 ∧ bitsOf v 4 0 ≤ 16 ∧ 6 ≤ bitsOf v 9 5 ∧ bitsOf v 9 5 ≤ 16)

/-- What a register admits as the value a write leaves (R7, and the chapter that defines the register). -/
def State.regOk (s : State) (k : RegKey) (v : Nat) : Bool :=
  match k.r with
  | .clkobsCtl => clkobsOk v
  | .stepCfg => stepCfgOk v
  | .fabCtl => fabCtlOk v
  | .merCtl => bitsOf v 1 0 != 3
  | .pwrCtl => pwrCtlOk v
  | .evrBase => s.regBits (modReg .evrCfg) 5 5 == 0 || v == s.reg k
  | .relCtl => relCtlOk v
  | .snapCtl => snapCtlOk v
  | .testmuxSel => s.testmuxOk v
  | .pwinSel | .cwinSel => winSelOk v
  | .engMwdog | .plotWdog => wdogOk v
  | .easeCfg => easeCfgOk v
  | .qCfg => qCfgOk v
  | _ => true

/-- MER_STAT after a write of MER_CTL (R360 to R362): a master keeps its own time and is LOCKED; a module that stops being master starts to
acquire; JOIN 0 closes the bypass, and JOIN 1 opens it once LOCKED. -/
def State.ringTurn (s : State) (was : Nat) : State :=
  let joined := if s.regBits merCtl 6 6 = 1 then 2 else 0
  if s.isMaster then (s.setRegBits merStat 2 2 1).setRing joined
  else if was != 0 then ({ s with meridian := Meridian.reset }.setRegBits merStat 2 2 0).setRing 1
  else if s.regBits merStat 2 2 = 0 then s
  else if s.regBits merStat 1 0 = 3 && joined = 2 then s
  else s.setRing joined

/-- LINK_CTL: a port whose EN is 0 stops training, and one that has stayed down may train again once AUTO is 1 or EN has been 0; DOWN takes
the port down (R357, R358). -/
def State.linkCtlPut (s : State) (k : RegKey) (v size : Nat) : State :=
  let p : Port := ⟨k.i % 16, Nat.mod_lt _ (by decide)⟩
  let s := s.regWrite k v size (fun _ => true)
  let s := if s.regBits k 0 0 = 0 ∧ 1 ≤ s.portState p.val ∧ s.portState p.val ≤ 4 then s.setPort p 0 else s
  let s := if s.regBits k 2 2 = 1 ∨ s.regBits k 0 0 = 0 then s.modLink p (fun l => { l with parked := false }) else s
  if bitOf v 3 then s.linkDownPut p else s

/-- SNAP_CTL: an accepted write starts what RESTORE and REMAP ask for (R438, R440). -/
def State.snapCtlPut (s : State) (k : RegKey) (v size : Nat) : State :=
  let ok := snapCtlOk (s.writeResult k v).1
  let s := s.regWrite k v size snapCtlOk
  let s := if ok && bitOf v 12 then s.askRestore else s
  if ok && bitOf v 14 then s.askRemap else s

/-- A parcel register is written over the management path (R149, R450). -/
def State.parcelPut (s : State) (k : RegKey) (p : ParcelId) (v size : Nat) : State :=
  match k.r with
  | .stashStat =>
    let s := s.regWrite k v size (fun _ => true)
    if bitOf v 31 then s.ledgerReset p else s
  | .markHwr => s.markHwrPut p (BitVec.ofNat 64 v) size
  | .markBcfg => s.markBcfgPut p k.i v size
  | _ => s.regWrite k v size (fun _ => true)

/-- A register of a queue is written (R369, R370, R478). -/
def State.queuePut (s : State) (k : RegKey) (q : QueueId) (v size : Nat) : State :=
  match k.r with
  | .qTail => s.qTailPut q v
  | .qRestart => s.qRestartPut q v size
  | .qCplhead => (s.regWrite k v size (fun _ => true)).drainCpl q
  | _ => s.regWrite k v size (s.regOk k)

/-- A register of a tract is written. -/
def State.tractPut (s : State) (k : RegKey) (t : Tract) (v size : Nat) : State :=
  match k.r with
  | .cmLayout => s.cmLayoutPut t v size
  | .plotPwr => s.plotPwrPut t k.i v size
  | .stashCfg => s.stashCfgPut t k.i v size
  | _ => s.regWrite k v size (s.regOk k)

/-- A register of the control die is written. -/
def State.modulePut (s : State) (k : RegKey) (v size : Nat) : State :=
  match k.r with
  | .jobCtl => s.jobCtlPut v size
  | .rstReq => s.rstReqPut v size
  | .linkJob | .jobMap =>
    let s' := s.regWrite k v size (fun _ => true)
    if s'.reg k = s.reg k then s' else s'.linksReeval
  | .updCtl =>
    let s := s.regWrite k v size (fun _ => true)
    if bitOf v 0 then s.goPut else s
  | .planDb => s.planDbPut
  | .fabEpoch =>
    let s := s.regWrite k v size (fun _ => true)
    if bitOf v 8 then s.advancePut else s
  | .replHome | .replCtl | .replRloc => s.replPut k.i k v size
  | .linkCtl => s.linkCtlPut k v size
  | .merCtl =>
    let was := s.regBits merCtl 1 0
    let ok := s.regOk k (s.writeResult k v).1
    let s := s.regWrite k v size (s.regOk k)
    if ok then s.ringTurn was else s
  | .evrCfg => s.evrCfgPut v size
  | .snapCtl => s.snapCtlPut k v size
  | .dbgCtl => if bitOf v 0 then s.unlockToken s.bufferedToken else s
  | _ => s.regWrite k v size (s.regOk k)

/-- A register is written with a value for its whole width. -/
def State.regPut (s : State) (k : RegKey) (v size : Nat) : State :=
  match k.r.row.scope with
  | .module => s.modulePut k v size
  | .tract => match k.tract with
    | some t => s.tractPut k t v size
    | none => s
  | .queue => match k.queue with
    | some q => s.queuePut k q v size
    | none => s
  | .parcel => match k.parcel with
    | some p => s.parcelPut k p v size
    | none => s

/-- The value for the whole width by which a write that does not reach a field leaves it as it is: the stored RW and RWL fields (R444). -/
def State.keepValue (s : State) (k : RegKey) : Nat :=
  overlay 0 ((k.r.row.fields.filter (fun f => f.acc == .rw || f.acc == .rwl)).map (fun f => (f.hi, f.lo, s.regBits k f.hi f.lo)))

/-- A write of 4 or 8 bytes to a register, or of 4 to a half of one of 64 bits. MARK_HWR acts when its high half is written (R442, R444). -/
def State.slotPut (s : State) (k : RegKey) (byte size v : Nat) : State :=
  if k.r.row.width / 8 = size then s.regPut k v size
  else if k.r.row.width = 64 ∧ size = 4 then
    if k.r = .markHwr then
      match k.parcel with
      | some p =>
        if byte = 0 then s.modParcel p (fun w => { w with hwrLow := BitVec.ofNat 32 v })
        else s.markHwrPut p (BitVec.ofNat 64 ((s.parcel p).hwrLow.toNat + v * 2 ^ 32)) 12
      | none => s
    else if byte = 0 then s.regPut k (setBits (s.keepValue k) 31 0 v) 4
    else s.regPut k (setBits (s.keepValue k) 63 32 v) 12
  else s

/-- Registers served after a failed boot, and those served in recovery too (R402, R447). -/
def servedEarly (recovery : Bool) (k : RegKey) : Bool :=
  match k.r with
  | .bootStat | .rstCause | .rstReq | .clkStat => true
  | .modId | .secId | .secStat | .updCtl => recovery
  | _ => false

/-- Whether BAR0 serves a register now (R447). -/
def State.serves (s : State) (k : RegKey) : Bool := s.job.state.trains || (s.servesFailed && servedEarly (s.phase == 14) k)

/-- What a BAR and an offset's place do with a host access (R443): a write that is refused. -/
def State.barRefuse (s : State) (bar off size : Nat) : State := if s.job.state.trains then s.hostWin bar off true size false else s

/-- A write of 4 or 8 bytes at an aligned offset of a BAR, as the place it names takes it; one of 8 bytes that covers two slots of 32 bits acts
on each (R442, R443). -/
def State.wordPut (s : State) (place : Nat → BarPlace) (bar off size v : Nat) : State :=
  let second (s : State) : State :=
    match place (off + 4) with
    | .reg k byte => if s.serves k ∧ k.r.row.width = 32 then s.slotPut k byte 4 (v / 2 ^ 32) else s
    | _ => s
  match place off with
  | .reg k byte =>
    if !s.serves k then s
    else if size = 8 ∧ k.r.row.width = 32 then second (s.slotPut k byte 4 (v % 2 ^ 32))
    else s.slotPut k byte size v
  | .token o => if s.job.state.trains then s.modSec (fun w => { w with token := putBytes w.token o (natLe size v) }) else s
  | .staging o => s.stagingPut o (natLe size v)
  | .nonce _ | .core _ _ => s
  | .empty => if size = 8 then second s else s
  | .refused => s.barRefuse bar off size

/-- A write of 1 or 2 bytes: the buffers take it; a register discards it with a record (R442). -/
def State.narrowPut (s : State) (place : Nat → BarPlace) (bar off size v : Nat) : State :=
  match place off with
  | .reg k _ => if s.serves k then s.badValue k v size else s
  | .nonce _ => if s.job.state.trains then s.emit { s.recordM .regBadValue with addr := off, detail := valueDetail v size } else s
  | .empty => s
  | _ => s.wordPut place bar off size v

/-- A write of the host to registers: one that is misaligned, or of another size than 1, 2, 4 and 8 bytes, is refused (R442). -/
def State.barWrite (s : State) (place : Nat → BarPlace) (bar off size v : Nat) : State :=
  if !([1, 2, 4, 8] : List Nat).contains size || off % size != 0 then
    (if s.servesFailed then s.hostWin bar off true size false else s)
  else if size < 4 then s.narrowPut place bar off size (v % 2 ^ (8 * size))
  else s.wordPut place bar off size (v % 2 ^ (8 * size))

/-- REGISTER_WRITE: a host write to a register without a row of its own; the rows of their own are writes at their offsets too (R3, R441). -/
def execRegisterWrite (a : RegAccess) (s : State) : Result := .next (s.barWrite s.barPlace 0 a.offset a.size a.value)

end Sys2Proof.Machine
end

