-- ==== Sys2Proof/Machine/BarRead.lean ====
section
/-!
DEFINITION. What a host read of BAR0 returns and does (R395, R442 to R447, R450 to R455).
-/
namespace Sys2Proof.Machine

/-- CORE_STAT (R451, R452). -/
def State.coreStat (s : State) (c : CoreId) : Nat :=
  let k := s.core c
  let run := match k.run with
    | .running => 0
    | .halted => 1
    | .stopped => 2
  let pwr := match k.pwr with
    | .run => 0
    | .sleep => 1
    | .deep => 2
  run + 4 * pwr + 16 * b2n ((s.parcel (coreParcel c)).held.any (fun q => q.1 = c.core))

/-- The 512 bytes of a core's view (R451): CORE_STAT in every run state, the rest only while the core does not run (R452). -/
def State.coreView (s : State) (c : CoreId) : List Byte :=
  let k := s.core c
  let shown (bs : List Byte) : List Byte := if k.run = .running then List.replicate bs.length 0 else bs
  let preds := ((List.range 8).map (fun i => if k.getP (BitVec.ofNat 3 i) then 2 ^ i else 0)).sum
  let st (n : Nat) : List Byte :=
    match s.stateReg32 c n, s.stateReg64 c n with
    | some v, _ => natLe 8 v.toNat
    | _, some v => natLe 8 v.toNat
    | _, _ => natLe 8 0
  shown ((List.finRange 32).flatMap (fun i => natLe 4 (if i = 0 then 0 else (k.g.get i).toNat)) ++
    (List.finRange 16).flatMap (fun i => natLe 8 (k.a.get i).toNat) ++
    natLe 4 k.pc.toNat ++ natLe 4 preds ++ (List.finRange 8).flatMap (fun i => natLe 2 (k.ac.get i).toNat)) ++
  natLe 4 (s.coreStat c) ++ List.replicate 0x24 0 ++ shown ((List.range 11).flatMap st) ++ List.replicate 0x68 0

/-- A byte of BAR0, where its range is listed; outside the set that a failed boot or recovery serves it reads 0 (R441, R446, R447, R453 to
R455). -/
def State.barByte (s : State) (off : Nat) : Option Byte :=
  let listed := s.job.state.trains
  if 0x10_0000 ≤ off ∧ off < 0x14_0000 then
    let r := s.errs.log.find? (fun q => q.1 = (off - 0x10_0000) / 64)
    some ((r.map (fun q => q.2.bytes.getD (off % 64) 0)).getD 0)
  else
    match s.barPlace off with
    | .nonce o => some (if listed then s.up.sec.nonce.getD o 0 else 0)
    | .core c o => some (if listed then (s.coreView c).getD o 0 else 0)
    | .reg k byte => some (if s.serves k then BitVec.ofNat 8 (s.readReg k / 2 ^ (8 * byte)) else 0)
    | .token _ | .empty => some 0
    | .staging o => if s.job.state == .ready || s.recovering then some (byteAt s.up.sec.staging o) else if listed then none else some 0
    | .refused => if listed then none else some 0

/-- The parts of a core's view that are 64 bits wide: a0 to a15 and the state registers (R29, R451). -/
def coreWide (off : Nat) : Bool := decide ((0x80 ≤ off ∧ off < 0x100) ∨ (0x140 ≤ off ∧ off < 0x198))

/-- Whether the host reads a half of 64 bits by itself, of what is served now, and which half (R395, R442, R447, R451). -/
def State.halfOf (s : State) (place : BarPlace) (size : Nat) : Option (HalfKey × Bool) :=
  match place with
  | .reg k byte => if size = 4 ∧ k.r.row.width = 64 ∧ s.serves k then some (.reg k, byte == 4) else none
  | .core c off => if size = 4 ∧ coreWide off then some (.core c (off / 8 * 8), off % 8 == 4) else none
  | _ => none

/-- The high half as it reads now. -/
def State.highHalf (s : State) (k : HalfKey) : Nat :=
  match k with
  | .reg k => s.readReg k / 2 ^ 32
  | .core c off => leNat (((s.coreView c).drop (off + 4)).take 4)

/-- The bytes a read of a register's place returns: the high half as it was latched, where the low half was read before (R395). -/
def State.latchedBytes (s : State) (place : BarPlace) (size : Nat) (bs : List Byte) : List Byte :=
  match s.halfOf place size with
  | some (k, true) => match s.host.latched.find? (fun q => q.1 = k) with
    | some q => natLe 4 q.2
    | none => bs
  | _ => bs

/-- A read of the low half of a register or counter latches the high half for the following read of it (R395). -/
def State.latch (s : State) (place : BarPlace) (size : Nat) : State :=
  let without (k : HalfKey) : List (HalfKey × Nat) := s.host.latched.filter (fun q => q.1 ≠ k)
  match s.halfOf place size with
  | some (k, false) => { s with host := { s.host with latched := without k ++ [(k, s.highHalf k)] } }
  | some (k, true) => { s with host := { s.host with latched := without k } }
  | none => s

/-- Whether an access to registers has a size they have, and is aligned to it (R442). -/
def barSized (off size : Nat) : Bool := ([1, 2, 4, 8] : List Nat).contains size && off % size == 0

/-- What a host read of BAR0 returns: its bytes, or none, Unsupported Request, where it is misaligned or meets a range that is not served
(R442, R443). -/
def State.barRead (s : State) (off size : Nat) : Option (List Byte) :=
  if barSized off size then ((List.range size).mapM (fun i => s.barByte (off + i))).map (s.latchedBytes (s.barPlace off) size) else none

/-- A host read of BAR0: nothing answers before BAR0 serves anything; one that covers byte 0 of DBG_NONCE makes a new nonce first; a refused
one has a record (R395, R442, R443, R447, R453). -/
def State.hostBarRead (s : State) (off size : Nat) : State :=
  if !s.servesFailed then s
  else
    let fresh := s.job.state.trains && barSized off size && off ≤ 0x14_1000 && 0x14_1000 < off + size
    let s := if fresh then s.newNonce else s
    match s.barRead off size with
    | some bs => (s.latch (s.barPlace off) size).send (.readData bs false)
    | none => (s.hostWin 0 off false size false).send .readFail

end Sys2Proof.Machine
end

