-- ==== Sys2Proof/Machine/Host.lean ====
section
/-!
DEFINITION. The host at the PCIe endpoint: BAR2 apertures, loss and return of the link, PERST_N (R149, R364 to R366, R394, R449, R450).
-/
namespace Sys2Proof.Machine

/-- The size of an aperture: BAR2 holds 1,024 (R364). -/
def State.apertureSize (s : State) : Nat := 2 ^ (20 + (s.host.bar2.getD Config.bar2Log).val)

/-- The bytes 0-63 of the configuration header (R363); the places are PCIe's, and what the spec does not give is free. -/
def State.configByte (s : State) (o : Nat) : Byte :=
  let f (base v : Nat) : Byte := BitVec.ofNat 8 (v / 2 ^ (8 * (o - base)))
  if o < 2 then f 0 0x1FD4
  else if o < 4 then f 2 0x1200
  else if o = 8 then 0xA0
  else if 9 ≤ o && o < 12 then f 9 0x120000
  else if 0x2C ≤ o && o < 0x2E then f 0x2C 0x1FD4
  else if 0x2E ≤ o && o < 0x30 then f 0x2E 0x0001
  else Config.freeByte s.free o

/-- A read of the configuration header: Request Retry Status before READY, but after a failed boot and in recovery the endpoint
enumerates; nothing while the link is down
(R363, R392, R393, R447). -/
def State.configRead (s : State) (off n : Nat) : State :=
  if !s.host.up || s.host.held then s
  else if !s.servesFailed then s.send .retry
  else { s.send (.readData ((List.range n).map (fun i => s.configByte (off + i))) false) with free := s.free + 1 }

/-- The host sizes BAR2, once the endpoint takes configuration requests (R364). -/
def State.bar2Size (s : State) (k : Nat) : State :=
  if !s.host.up || s.host.held then s
  else if !s.servesFailed then s.send .retry
  else { s with host := { s.host with bar2 := if h : k < 7 then some ⟨k, h⟩ else s.host.bar2 } }

/-- The key of this module that an offset of BAR2 reaches, where its aperture is mapped (R364). -/
def State.apertureKey (s : State) (off : Nat) : Option Nat :=
  let i := off / s.apertureSize
  let w := s.reg (modRegI .winMap i)
  if i < 1024 && bitOf w 63 then some ((bitsOf w 51 0 + off % s.apertureSize) % 2 ^ 52) else none

/-- The pieces of an access of n bytes, cut at apertures: the key, the place in the data, the length. -/
def State.aperturePieces (s : State) (off n : Nat) : List (Option Nat × Nat × Nat) :=
  if n = 0 then []
  else tabulate ((off + n - 1) / s.apertureSize - off / s.apertureSize + 1) (fun j =>
    let lo := max off ((off / s.apertureSize + j) * s.apertureSize)
    let hi := min (off + n) ((off / s.apertureSize + j + 1) * s.apertureSize)
    (s.apertureKey lo, lo - off, hi - lo))

/-- What a piece meets (R149, R364): 0 permitted, 1 an unmapped aperture, a byte outside a window or a dead tract, 2 a window that does not permit
it, 3 a replica area, 4 a control window, whose tract must answer as R446 has it; memory answers also while the PLLs coast (R376). -/
def State.pieceStatus (s : State) (q : Option Nat × Nat × Nat) (write : Bool) : Nat :=
  match q.1 with
  | none => 1
  | some key =>
    if s.dead (gaTract key) then 1
    else
      match windowOf (gaOffset key), s.windowStatus key q.2.2 write with
      | _, 1 => 1
      | .control _, _ => if s.tractServed (gaTract key) then 4 else 1
      | _, 2 => 2
      | _, _ => if write && s.inReplica key q.2.2 then 3 else 0

/-- A refused host access to BAR2 (R364). -/
def State.apertureRefuse (s : State) (off n : Nat) (write bad : Bool) : State := s.hostWin 2 off write n bad

/-- The place in a control window that a piece lies at. -/
def piecePlace (q : Option Nat × Nat × Nat) : Option BarPlace :=
  match q.1 with
  | none => none
  | some key =>
    match windowOf (gaOffset key), keyParcel key with
    | .control o, some p => some (windowPlace p o)
    | _, _ => none

/-- The bytes of a piece of a read; a control window shows its registers (R450). -/
def State.pieceRead (s : State) (q : Option Nat × Nat × Nat) : List MByte :=
  match q.1 with
  | none => []
  | some key =>
    match windowOf (gaOffset key), keyParcel key with
    | .control off, some p => sound (s.latchedBytes (windowPlace p off) q.2.2 (s.windowLoad p off q.2.2))
    | _, _ => s.mread key q.2.2

/-- Whether a piece of a read is refused: it reaches nothing, or it is no access that a control window takes (R364, R442, R450). -/
def State.pieceRefused (s : State) (off : Nat) (q : Option Nat × Nat × Nat) : Bool :=
  s.pieceStatus q false == 1 || ((piecePlace q).isSome && !barSized (off + q.2.1) q.2.2)

/-- A host read through apertures: its bytes, poisoned where memory is, or Unsupported Request (R364). -/
def State.apertureRead (s : State) (off n : Nat) : State :=
  let ps := s.aperturePieces off n
  if ps.any (s.pieceRefused off) then (s.apertureRefuse off n false false).send .readFail
  else
    let bs := ps.flatMap s.pieceRead
    let s := ps.foldl (fun (s : State) (q : Option Nat × Nat × Nat) =>
      match q.1 with
      | some key =>
        let s := if s.pieceStatus q false == 0 then s.touch key q.2.2 else s
        match piecePlace q with
        | some place => s.latch place q.2.2
        | none => s
      | none => s) s
    s.send (.readData (mdata bs) (mbad bs))

/-- One piece of a host write, by what it meets (R149, R150, R154, R450). -/
def State.pieceWrite (s : State) (off : Nat) (data : List Byte) (q : Option Nat × Nat × Nat) : State :=
  let bs := (data.drop q.2.1).take q.2.2
  match q.1, s.pieceStatus q true with
  | some key, 0 => s.mstore key (sound bs)
  | some key, 2 =>
    match keyParcel key with
    | some p => s.haProtect p.tract key
    | none => s
  | some key, 3 =>
    match keyParcel key with
    | some p => s.replicaRecord p.tract key
    | none => s
  | some key, 4 =>
    match windowOf (gaOffset key), keyParcel key with
    | .control o, some p => s.barWrite (fun x => windowPlace p (o + (x - (off + q.2.1)))) 2 (off + q.2.1) q.2.2 (leNat bs)
    | _, _ => s
  | _, _ => s

/-- A host write through apertures; a poisoned one, or one that touches an unmapped aperture or a byte outside a window, is discarded with its
record (R364). -/
def State.apertureWrite (s : State) (off : Nat) (data : List Byte) (bad : Bool) : State :=
  let ps := s.aperturePieces off data.length
  if bad || ps.any (fun q => s.pieceStatus q true == 1) then s.apertureRefuse off data.length true bad
  else ps.foldl (fun (s : State) (q : Option Nat × Nat × Nat) => s.pieceWrite off data q) s

/-- HOST_APERTURE_ACCESS (R363, R364, R442, R447). -/
def execHostApertureAccess (a : HostAccess) (s : State) : Result :=
  .next <|
    match a with
    | .read off n => if s.job.state.trains then s.apertureRead off n else s
    | .write off data bad => if s.job.state.trains then s.apertureWrite off data bad else s
    | .config off n => s.configRead off n
    | .resize k => s.bar2Size k
    | .bar off n => s.hostBarRead off n

/-- The PCIe link goes down: while a job is armed that is recorded (R366). -/
def State.linkLost (s : State) : State :=
  let was := s.host.up
  let s := { s with host := { s.host with up := false } }
  if was && s.job.state == .armed then s.emit (s.recordM .hostLost) else s

/-- PCIE_LINK_DOWN (R366). -/
def execPcieLinkDown (s : State) : Result := .next s.linkLost

/-- PCIE_LINK_UP: the host is back, unless PERST_N holds the endpoint in reset, or the module is in RESET or has not begun step 2 of its boot
(R366, R391, R393, R394). -/
def execPcieLinkUp (s : State) : Result :=
  .next (if s.host.held || s.job.state == .reset || (s.job.state == .boot && s.phase < 2) then s else { s with host := { s.host with up := true } })

/-- PERST_N goes low or high. Low, it resets the endpoint, the size of BAR2 with it, and its link goes down; a low that comes faster than rated holds the endpoint in reset
beyond the next rise (R394). -/
def execPerstN (high fast : Bool) (s : State) : Result :=
  .next <|
    if high then
      let s := s.modPins (fun v => { v with perstLow := false })
      if s.up.pins.perstFast then s else { s with host := { s.host with held := false } }
    else
      let s := s.modPins (fun v => { v with perstLow := true, perstFast := v.perstFast || fast })
      let s := if fast then s.raise (modReg .pinStat) 0 else s
      { s with host := { s.host with held := true, bar2 := none } }.linkLost

/-- PERST_N_HOLD_END: PERST_N has stayed high for 10 ms (R394). -/
def execPerstNHoldEnd (s : State) : Result :=
  .next <|
    if s.up.pins.perstLow || !s.up.pins.perstFast then s
    else { s.modPins (fun v => { v with perstFast := false }) with host := { s.host with held := false } }

end Sys2Proof.Machine
end

