-- ==== Sys2Proof/Machine/Audit.lean ====
section
/-!
DEFINITION. The unchecked datapaths of the vector engines and the Movers, and the audits that sample them (R161, R410, R411, R426).
-/
namespace Sys2Proof.Machine

/-- Which of three computations is written, none where all differ; and what the audit finds: 0 nothing, 1 an outvoted computation, 2 three-way
disagreement. same: whether two agree; the third runs where the first two do not (R426). -/
def auditPick (same : Nat → Nat → Bool) (second third : Nat) : Option Nat × Nat :=
  if same 0 second then (some 0, 0)
  else if same 0 third then (some 0, 1)
  else if same second third then (some second, 1)
  else (none, 2)

/-- Whether a parcel's vector engine has a lane that computes wrong. -/
def State.lanesBad (s : State) (p : ParcelId) : Bool := s.up.badLanes.any (fun f => f.1 == (p.tract.val, s.site p))

/-- What a lane adds to the bits of its results. -/
def State.laneError (s : State) (p : ParcelId) (lane : Nat) : Nat :=
  (s.up.badLanes.filter (fun f => f.1 == (p.tract.val, s.site p) && f.2.1 == lane % 64)).foldl (fun a f => a ^^^ f.2.2) 0

/-- Results as the lanes of a vector engine give them, by number and true code, and what the audits of their groups find. -/
structure LaneRun where
  fix   : Nat → Nat → Nat
  found : List Nat

/-- n results of w bits in groups of per, each on its lane: a sampled group is computed again on lanes rotated by 32, and where that differs by
16 (R426). Without a bad lane all agree. What is written where three disagree the spec does not say: free values. -/
def State.laneRun (s : State) (p : ParcelId) (n per w : Nat) (lane : Nat → Nat) : LaneRun :=
  if !s.lanesBad p then { fix := fun _ c => c, found := [] }
  else
    let err (i rot : Nat) : Nat := s.laneError p (lane i + rot) % 2 ^ w
    let picks := tabulate (ceilDiv n per) (fun k =>
      let is := (List.range (min per (n - per * k))).map (fun j => per * k + j)
      if s.auditDraw (s.regBits (modReg .relCtl) 9 5) (1 + k) then auditPick (fun a b => is.all (fun i => err i a == err i b)) 32 16
      else (some 0, 0))
    { fix := fun i c => match (picks[i / per]?).getD (some 0, 0) with
        | (some rot, _) => c ^^^ err i rot
        | (none, _) => leNat (tabulate (w / 8) (fun b => Config.freeByte s.free (4 * i + b)))
      found := picks.map (fun q => q.2) }

/-- The records of what audits of a vector engine find: AUDIT_MISMATCH counts as a transient failure of the parcel, AUDIT_FAIL is a suspect event
(R425 to R427). -/
def State.laneReport (s : State) (p : ParcelId) (found : List Nat) : State :=
  found.foldl (fun (s : State) (n : Nat) => match n with
    | 0 => s
    | 1 => (s.emit (s.recordP .auditMismatch 7 p)).transient p
    | _ => (s.emit (s.recordP .auditFail 7 p)).suspect p)
    (if found.isEmpty then s else { s with free := s.free + 1 + found.length })

/-- What a channel of a tract's Mover adds to the bits of the bytes it transforms. -/
def State.channelError (s : State) (t : Tract) (ch : Nat) : Byte :=
  (s.up.badChannels.filter (fun f => f.1 == t.val && f.2.1 == ch % 16)).foldl (fun a f => a ^^^ BitVec.ofNat 8 f.2.2) 0

/-- A run of bytes as a tract's Mover writes it at an address: a sampled 16-byte unit is computed again on another channel, and where that differs
on a third (R426). DESIGN CHOICE: unit u runs on channel u mod 16, then on the two after it (assumption log 63). -/
def State.channelRun (s : State) (t : Tract) (ga : Nat) (bs : List MByte) : State × List MByte :=
  if !s.up.badChannels.any (fun f => f.1 == t.val) then (s, bs)
  else
    let first := ga / 16
    let err (u rot : Nat) : Byte := s.channelError t (u + rot)
    let picks := tabulate (ceilDiv (ga % 16 + bs.length) 16) (fun k =>
      if s.auditDraw (s.regBits (modReg .relCtl) 14 10) (1 + k) then auditPick (fun a b => err (first + k) a == err (first + k) b) 1 2
      else (some 0, 0))
    let out (q : MByte × Nat) : MByte :=
      let k := (ga % 16 + q.2) / 16
      match (picks[k]?).getD (some 0, 0) with
      | (some rot, _) => (q.1.1 ^^^ err (first + k) rot, q.1.2)
      | (none, _) => (Config.freeByte s.free q.2, q.1.2)
    (picks.foldl (fun (s : State) (q : Option Nat × Nat) => match q.2 with
      | 0 => s
      | 1 => s.emit (s.record .auditMismatch 8 t.val)
      | _ => s.emit (s.record .auditFail 8 t.val)) { s with free := s.free + 1 + picks.length }, bs.zipIdx.map out)

end Sys2Proof.Machine
end

