-- ==== Sys2Proof/Machine/Mover.lean ====
section
/-!
DEFINITION. The Mover (R155 to R162): the checks of an entry, its transforms, its statuses.
-/
namespace Sys2Proof.Machine

/-- A Mover entry's fields (R155). -/
structure MovEntry where
  op      : Nat
  kind    : Nat
  kindv   : Bool
  transp  : Bool
  gang    : Nat
  grow    : Nat
  sfmt    : Nat
  dfmt    : Nat
  src     : Nat
  dst     : Nat
  rows    : Nat
  cols    : Nat
  ss      : Nat
  ds      : Nat
  sscale  : Nat
  dscale  : Nat
  scss    : Nat
  dscs    : Nat
  m       : Nat
  kc      : Nat
  nch     : Nat
  idx     : Nat
  idxcnt  : Nat
  pattern : Nat
  rsv     : Bool
  deriving DecidableEq, Repr

def QEntry.mov (e : QEntry) : MovEntry :=
  let f := fieldAt e.bytes
  let w := f 32 4
  let v := f 36 4
  let z := f 92 4
  { op := bitsOf w 3 0, kind := bitsOf w 6 4, kindv := bitOf w 7, transp := bitOf w 9, gang := bitsOf w 11 10,
    grow := bitsOf w 13 12, sfmt := bitsOf v 7 0, dfmt := bitsOf v 15 8, src := f 40 8, dst := f 48 8, rows := f 56 4,
    cols := f 60 4, ss := f 64 4, ds := f 68 4, sscale := f 72 8, dscale := f 80 8, scss := f 88 2, dscs := f 90 2,
    m := bitsOf z 6 0, kc := bitsOf z 13 7, nch := bitsOf z 21 14 + 1, idx := f 96 8, idxcnt := f 104 4,
    pattern := f 108 4, rsv := bitsOf w 31 14 != 0 || bitsOf v 31 16 != 0 || bitsOf z 31 22 != 0 || f 112 16 != 0 }

/-- SERIAL (R155). -/
def QEntry.serial (e : QEntry) : Bool := bitOf (fieldAt e.bytes 32 4) 8

/-- FMT and SVAR of a format field. -/
def mfFmt (b : Nat) : Nat := bitsOf b 3 0
def mfVar (b : Nat) : Bool := bitOf b 4

/-- A format field with a reserved value (R86, R155). -/
def mfBad (b : Nat) : Bool := bitsOf b 7 5 != 0 || 8 ≤ mfFmt b || (mfVar b && !fmtHasVar (mfFmt b))

/-- Whether an operation counts COLS in bytes. -/
def MovEntry.byBytes (e : MovEntry) : Bool := e.op < 4

/-- The format fields a kind stores (R122). -/
def kindFormats (k : Nat) : List Nat :=
  match k with
  | 0 | 2 => [0x04]
  | 1 => [0x06]
  | 3 => [0x14]
  | 4 | 5 => [0x01]
  | _ => [0x00, 0x01]

/-- Bits of a source element, and bytes of n of them. -/
def MovEntry.sbits (e : MovEntry) : Nat := elemBits (mfFmt e.sfmt)
def MovEntry.srow (e : MovEntry) (n : Nat) : Nat := rowBytes (mfFmt e.sfmt) n

/-- Blocks of 32 that n elements make. -/
def blocksOf (n : Nat) : Nat := ceilDiv n 32

/-- Elements per array row of a skewed word: 2 for MXFP4 (R63, R158). -/
def MovEntry.perCell (e : MovEntry) : Nat := if mfFmt e.sfmt = 6 then 2 else 1

/-- Bytes of a skewed chunk (R158). -/
def MovEntry.chunkBytes (e : MovEntry) : Nat := (e.m + 7) * wordBytes (mfFmt e.sfmt)

/-- A run of rows: base, stride, number of rows, bytes of each. -/
def strided (base stride cnt len : Nat) : List (Nat × Nat) := (List.range cnt).map (fun i => ((base + i * stride) % 2 ^ 64, len))

/-- The rows an operation may read: those its addresses name (R156, R157). -/
def MovEntry.reads (e : MovEntry) : List (Nat × Nat) :=
  let mx := fmtIsMx (mfFmt e.sfmt)
  match e.op with
  | 0 => strided e.src e.ss e.rows e.cols
  | 1 => []
  | 2 => strided e.src e.ss e.rows e.cols ++ [(e.idx, 4 * e.idxcnt)]
  | 3 => strided e.src e.ss e.idxcnt e.cols ++ [(e.idx, 4 * e.idxcnt)]
  | 4 => strided e.src e.ss e.rows (e.srow e.cols)
  | _ => strided e.src e.ss e.rows (e.srow e.cols) ++ (if mx then strided e.sscale e.scss e.rows (blocksOf e.cols) else [])

/-- The rows an operation may write. -/
def MovEntry.writes (e : MovEntry) : List (Nat × Nat) :=
  let orows := if e.transp then e.cols else e.rows
  let ocols := if e.transp then e.rows else e.cols
  match e.op with
  | 0 | 1 => strided e.dst e.ds e.rows e.cols
  | 2 => strided e.dst e.ds e.idxcnt e.cols
  | 3 => strided e.dst e.ds e.rows e.cols
  | 4 => strided e.dst e.ds e.cols (e.srow e.rows)
  | 5 =>
    strided e.dst e.chunkBytes e.nch e.chunkBytes ++
      (if fmtIsMx (mfFmt e.sfmt) then strided e.dscale 64 (blocksOf e.cols) e.m else [])
  | _ => strided e.dst e.ds orows (rowBytes (mfFmt e.dfmt) ocols) ++ strided e.dscale e.dscs orows (blocksOf ocols)

/-- BAD_OP (R160). -/
def MovEntry.badOp (e : MovEntry) : Bool :=
  7 ≤ e.op || e.rsv || mfBad e.sfmt || (e.op == 6 && mfBad e.dfmt) ||
    (e.op == 5 && (e.gang == 3 || 2 ^ e.gang ≤ e.grow))

/-- BAD_KIND (R160). -/
def MovEntry.badKind (e : MovEntry) : Bool :=
  e.kind == 7 || (!e.kindv && e.kind != 0) || (e.op == 6 && (!e.kindv || 3 < e.kind)) || (e.op == 4 && e.kindv)

/-- KIND_MISMATCH (R159, R160). -/
def MovEntry.mismatch (e : MovEntry) : Bool :=
  (e.op == 6 && (!fmtIsMx (mfFmt e.sfmt) || !(kindFormats e.kind).contains e.dfmt)) ||
    (e.op == 5 && e.kindv && !(kindFormats e.kind).contains e.sfmt)

/-- A count in 1 to n. -/
def inCount (n v : Nat) : Bool := decide (1 ≤ v ∧ v ≤ n)

/-- K positions of chunk c of a SKEW. -/
def MovEntry.chunkLen (e : MovEntry) (c : Nat) : Nat := min e.kc (e.cols - c * e.kc)

/-- A breach of R158. -/
def MovEntry.badSkew (e : MovEntry) : Bool :=
  !inCount 64 e.m || e.m != e.rows || !inCount 64 e.kc || 8 * e.perCell * 2 ^ e.gang < e.kc ||
    !decide ((e.nch - 1) * e.kc < e.cols ∧ e.cols ≤ e.nch * e.kc) ||
    (List.range e.nch).any (fun c => !(ChunkRef.ok { c := c, kpos := c * e.kc, n := e.chunkLen c }))

/-- BAD_SHAPE (R158, R160). -/
def MovEntry.badShape (e : MovEntry) : Bool :=
  !inCount 65536 e.rows || !inCount 65536 e.cols || (e.byBytes && e.cols % 4 != 0) ||
    ((e.op == 2 || e.op == 3) && !inCount 65536 e.idxcnt) || (e.op == 4 && mfFmt e.sfmt == 5) || (e.op == 5 && e.badSkew)

/-- ALIGN: an address or a stride is no multiple of 4, used or not (R156, R160). -/
def MovEntry.misaligned (e : MovEntry) : Bool :=
  [e.src, e.dst, e.ss, e.ds, e.sscale, e.dscale, e.scss, e.dscs, e.idx].any (fun v => v % 4 != 0)

/-- The status an entry's checks give before any byte is written, in the order of R160; 0: they pass. -/
def State.movCheck (s : State) (e : MovEntry) : Nat :=
  if e.badOp then 1
  else if e.badKind then 2
  else if e.mismatch then 3
  else if e.badShape then 4
  else if e.misaligned then 5
  else
    let rs := e.reads.map (fun q => s.reach q.1 q.2 false)
    let ws := e.writes.map (fun q => s.reach q.1 q.2 true)
    if rs.any (fun v => v != 0) || ws.any (fun v => v == 1) then 6 else if ws.any (fun v => v == 2) then 7 else 0

/-- What another module answers for each source run that lies there; none for a run of this module. The flag: every answer
came, and no run lies in a dead tract (R271). -/
def State.movFetch (s : State) : List (Nat × Nat) → List NetReply → List (Option (List MByte)) × Bool × List NetReply
  | [], net => ([], true, net)
  | (ga, n) :: rest, net =>
    if s.isOwn ga || n = 0 then
      let (l, ok, net) := s.movFetch rest net
      (none :: l, ok && (n = 0 || !s.deadAt ga), net)
    else
      let (r, net) := netRead ga n net
      let (l, ok, net) := s.movFetch rest net
      (some (r.getD (List.replicate n (0, true))) :: l, ok && r.isSome, net)

/-- Where an entry takes its source from: the memory it began with, the draw of its free choices, the runs and what other
modules answered for them. -/
structure MovSource where
  old  : State
  tract : Tract
  draw : Nat
  runs : List (Nat × Nat)
  away : List (Option (List MByte))

/-- What stands as an entry forms one of the runs it writes: the state, and the runs it has still to write, this one among them. -/
structure MovNow where
  s    : State
  left : List (Nat × Nat)

/-- Whether a 16-byte unit of this module has its new value: no run still to be written meets it. -/
def MovNow.final (w : MovNow) (u : Nat) : Bool :=
  !w.left.any (fun q => w.s.isOwn q.1 && q.1 % 2 ^ 52 / 16 ≤ u && 16 * u < q.1 % 2 ^ 52 + q.2)

/-- Run i of the source as it reads now: each 16-byte unit holds its old or its new value, by a free choice (R162). DESIGN CHOICE: a new value is
there to be read only once the entry has written all it writes of the unit (assumption log 50). -/
def MovSource.run (m : MovSource) (w : MovNow) (i : Nat) : List MByte :=
  match m.runs[i]?, (m.away[i]?).getD none with
  | some _, some bs => bs
  | some (ga, n), none =>
    tabulate n (fun j =>
      let a := ga % 2 ^ 52 + j
      let s := if bitOf (Config.freeByte m.draw (a / 16)).toNat 0 && w.final (a / 16) then w.s else m.old
      s.mbyte (s.viaReplica m.tract a))
  | none, _ => []

/-- The element of K position k of a row, 0 beyond the chunk or the row (R158). -/
def MovEntry.skewElem (e : MovEntry) (row : Option (List MByte)) (c k : Nat) : Nat × Bool :=
  match row with
  | some r => if c * e.kc + k < e.cols && k < e.kc then rowElem e.sbits r (c * e.kc + k) else (0, false)
  | none => (0, false)

/-- Chunk c of a SKEW from its source rows (R158). -/
def MovEntry.skewChunk (e : MovEntry) (rows : List (List MByte)) (c : Nat) : List MByte :=
  let p := e.perCell
  (List.range (e.m + 7)).flatMap (fun i =>
    packElems e.sbits (wordBytes (mfFmt e.sfmt))
      ((List.range 8).flatMap (fun r =>
        let row := if r ≤ i then rows[i - r]? else none
        (List.range p).map (fun j => e.skewElem row c (8 * p * e.grow + p * r + j)))))

/-- An element of a REBLOCK source: its place, its code, its scale, whether either is poisoned. -/
structure ReElem where
  row : Nat
  col : Nat
  el  : Elem
  deriving DecidableEq, Repr

/-- The elements of source row i. -/
def MovEntry.reRow (e : MovEntry) (row scales : List MByte) (i : Nat) : List ReElem :=
  (List.range e.cols).map (fun k =>
    let c := rowElem e.sbits row k
    let sc := (scales[k / 32]?).getD (0, true)
    { row := i, col := k, el := { code := c.1, scale := sc.1.toNat, bad := c.2 || sc.2 } })

/-- The places of the source block an element belongs to. -/
def MovEntry.sourceBlock (e : MovEntry) (x : ReElem) : List (Nat × Nat) :=
  (List.range (min 32 (e.cols - x.col / 32 * 32))).map (fun j => (x.row, x.col / 32 * 32 + j))

/-- One output block: elements, scale and flags (R120, R121). A block with a poisoned element is poisoned whole, and an element
whose new block has the same members and the same scale keeps its bits. -/
def MovEntry.reBlock (e : MovEntry) (xs : List ReElem) : List (Nat × Bool) × MByte × FlagSet :=
  if xs.any (fun x => x.el.bad) then (xs.map (fun _ => (0, true)), (0, true), 0)
  else
    let f := elemFmt (mfFmt e.dfmt) (mfVar e.dfmt)
    let vs := xs.map (fun x => elemNum (mfFmt e.sfmt) (mfVar e.sfmt) x.el)
    let (sc, fl) := mxScale f vs
    let (qs, fl') := mxElems f sc vs
    let members := xs.map (fun x => (x.row, x.col))
    let keeps (x : ReElem) : Bool := e.sfmt == e.dfmt && x.el.scale == sc && e.sourceBlock x == members
    (xs.zipIdx.map (fun q => (if keeps q.1 then q.1.el.code else (qs[q.2]?).getD 0, false)), (BitVec.ofNat 8 sc, false),
      fl ||| (if xs.all keeps then 0 else fl'))

/-- Output row o of a REBLOCK from all source elements: its bytes, its scales, its flags. -/
def MovEntry.reRowOut (e : MovEntry) (src : List (List ReElem)) (o : Nat) : List MByte × List MByte × FlagSet :=
  let line := if e.transp then src.filterMap (fun r => r[o]?) else (src[o]?).getD []
  let bs := (chunksOf 32 line.length line).map e.reBlock
  (packElems (elemBits (mfFmt e.dfmt)) (rowBytes (mfFmt e.dfmt) line.length) (bs.flatMap (fun b => b.1)), bs.map (fun b => b.2.1),
    bs.foldl (fun a b => a ||| b.2.2) 0)

/-- A run of one byte 0 to the length of a row. -/
def zeroRow (n : Nat) : List MByte := List.replicate n (0, false)

/-- FILL's row of n bytes. -/
def MovEntry.fillRow (e : MovEntry) (n : Nat) : List MByte :=
  (List.range n).map (fun i => ((natLe 4 e.pattern)[i % 4]?.getD 0, false))

/-- Writes in order: the destination of each and what it holds, read when its turn comes. keep: whether a run is written where
the entry fails (R160). -/
structure MovRun where
  s   : State
  tract : Tract
  id  : Nat
  net : List NetReply
  ok  : Bool
  bad : Bool

def MovRun.put (r : MovRun) (keep : Bool) (ga : Nat) (bs : List MByte) : MovRun :=
  if !keep then r
  else
    let (s, bs) := r.s.channelRun r.tract ga bs
    let (s, ok, net) := s.engWrite r.tract .mover r.id ga bs r.net
    { r with s := s, net := net, ok := r.ok && ok, bad := r.bad || mbad bs }

/-- The index list of GATHER and SCATTER as read (R157); an entry that is poisoned names no row. DESIGN CHOICE: such an entry counts as an index
out of range, IDX_RANGE; the spec gives it no status (assumption log 49). -/
def movIndex (bs : List MByte) : List (Option Nat) :=
  (chunksOf 4 bs.length bs).map (fun w => if mbad w then none else some (leNat (mdata w)))

/-- Index 0xFFFF_FFFF. -/
def idxNone : Nat := 0xFFFF_FFFF

/-- Whether an index is out of range (R157). -/
def MovEntry.idxBad (e : MovEntry) (i : Option Nat) : Bool :=
  match i with
  | none => true
  | some v => v != idxNone && decide (e.rows ≤ v)

/-- The source runs an operation reads, in the order of its work. -/
def MovEntry.runs (e : MovEntry) (idx : List (Option Nat)) : List (Nat × Nat) :=
  match e.op with
  | 2 => idx.map (fun i => match i with
      | some v => if v < e.rows then ((e.src + v * e.ss) % 2 ^ 64, e.cols) else (0, 0)
      | none => (0, 0))
  | 3 => strided e.src e.ss e.idxcnt e.cols
  | _ => e.reads

/-- The runs an operation writes, their lengths, and what each holds, in order (R157 to R159). -/
def MovEntry.plan (e : MovEntry) (src : MovSource) (idx : List (Option Nat)) :
    List (Nat × Nat × (MovNow → List MByte)) :=
  let row (i : Nat) : Nat := (e.dst + i * e.ds) % 2 ^ 64
  match e.op with
  | 0 => (List.range e.rows).map (fun i => (row i, e.cols, fun w => src.run w i))
  | 1 => (List.range e.rows).map (fun i => (row i, e.cols, fun _ => e.fillRow e.cols))
  | 2 => idx.zipIdx.filterMap (fun q =>
      if e.idxBad q.1 then none
      else some (row q.2, e.cols, fun w => if q.1 = some idxNone then zeroRow e.cols else src.run w q.2))
  | 3 => idx.zipIdx.filterMap (fun q => match q.1 with
      | some v => if v < e.rows then some (row v, e.cols, fun w => src.run w q.2) else none
      | none => none)
  | 4 => (List.range e.cols).map (fun j => (row j, e.srow e.rows, fun w =>
      packElems e.sbits (e.srow e.rows) ((List.range e.rows).map (fun i => rowElem e.sbits (src.run w i) j))))
  | 5 =>
    (List.range e.nch).map (fun c => ((e.dst + c * e.chunkBytes) % 2 ^ 64, e.chunkBytes, fun w =>
      e.skewChunk ((List.range e.rows).map (fun i => src.run w i)) c)) ++
      (if fmtIsMx (mfFmt e.sfmt) then
        (List.range (blocksOf e.cols)).map (fun b => ((e.dscale + 64 * b) % 2 ^ 64, e.m, fun w =>
          (List.range e.m).map (fun m => ((src.run w (e.rows + m))[b]?).getD (0, false))))
      else [])
  | _ =>
    let elems (w : MovNow) : List (List ReElem) :=
      (List.range e.rows).map (fun i => e.reRow (src.run w i) (src.run w (e.rows + i)) i)
    let n := if e.transp then e.rows else e.cols
    (List.range (if e.transp then e.cols else e.rows)).flatMap (fun o =>
      [(row o, rowBytes (mfFmt e.dfmt) n, fun w => (e.reRowOut (elems w) o).1),
        ((e.dscale + o * e.dscs) % 2 ^ 64, blocksOf n, fun w => (e.reRowOut (elems w) o).2.1)])

/-- The flags of a REBLOCK, by its source as the entry began (R159). -/
def MovEntry.flags (e : MovEntry) (src : MovSource) (s : State) : FlagSet :=
  if e.op = 6 then
    let w : MovNow := { s := s, left := [] }
    let elems := (List.range e.rows).map (fun i => e.reRow (src.run w i) (src.run w (e.rows + i)) i)
    (List.range (if e.transp then e.cols else e.rows)).foldl (fun a o => a ||| (e.reRowOut elems o).2.2) 0
  else 0

/-- Performs an entry whose checks pass: its memory and its status (R157 to R162). Where it fails after it has begun, any subset
of its rows is written, by a free choice. -/
def State.movPerform (s : State) (t : Tract) (id : Nat) (e : MovEntry) (net : List NetReply) : State × Nat :=
  let byIdx := e.op == 2 || e.op == 3
  let s := if byIdx then s.engReplies t .mover id [(e.idx, 4 * e.idxcnt)] net else s
  let (il, net) := if byIdx then s.engRead t e.idx (4 * e.idxcnt) net else (some [], net)
  let s := if byIdx then s.touchAt t e.idx (4 * e.idxcnt) else s
  match il with
  | none => (s, 9)
  | some bs =>
    let idx := movIndex bs
    let runs := e.runs idx
    let s := s.engReplies t .mover id runs net
    let (away, came, net) := s.movFetch runs net
    let s := runs.foldl (fun s q => if q.2 = 0 then s else s.touchAt t q.1 q.2) s
    let src : MovSource := { old := s, tract := t, draw := s.free, runs := runs, away := away }
    let s := s.takeFree
    let range := byIdx && idx.any e.idxBad
    let fails := !came || range
    let fl := e.flags src s
    let plan := e.plan src idx
    let r := plan.zipIdx.foldl (fun (r : MovRun) q =>
        r.put (!fails || bitOf (Config.freeByte src.draw (2 ^ 60 + q.2)).toNat 0) q.1.1
          (q.1.2.2 { s := r.s, left := (plan.drop q.2).map (fun x => (x.1, x.2.1)) }))
      { s := s, tract := t, id := id, net := net, ok := true, bad := false }
    let s := r.s.convFlags t fl
    (s, if range then 8 else if !came || !r.ok then 9 else if r.bad then 10 else 0)

/-- A Mover write aimed at a replica area is recorded by the request agent (R154). -/
def State.movReplica (s : State) (t : Tract) (e : MovEntry) : State :=
  match e.writes.find? (fun q => s.isOwn q.1 && s.inReplica (q.1 % 2 ^ 52) q.2) with
  | some q => s.replicaRecord t (q.1 % 2 ^ 52)
  | none => s

/-- A Mover entry starts where it is the next of its queue with the operation named: at most 16 are in progress, SERIAL
waits for every earlier one, and the request agent takes its operations (R155, R266). Its work is done, and MOVER_ENTRY_COMPLETE completes it. -/
def State.movStart (s : State) (t : Tract) (op : Nat) (net : List NetReply) : State :=
  let q := engQueue t .mover
  match s.startable q with
  | none => s
  | some e =>
    let busy := ((s.queue q).entries.filter (fun x => x.started)).length
    let m := e.mov
    let st := s.movCheck m
    if (m.op != op && !decide (7 ≤ m.op)) || 16 ≤ busy || (e.serial && busy != 0) then s
    else if st = 0 && !s.engMay t .mover m.reads m.writes then s
    else
      let s := s.startEntry q e
      if st ≠ 0 then (if st = 7 then s.movReplica t m else s).setWork q e.id (.status st)
      else
        let s := s.engEnter t .mover e.id m.reads m.writes
        let net := if s.engRouted t .mover e.id then net else []
        let (s, st) := s.movPerform t e.id m net
        s.setWork q e.id (.status st)

/-- COPY (R157). -/
def execCopy (t : Tract) (net : List NetReply) (s : State) : Result := .next (s.movStart t 0 net)
/-- FILL (R157). -/
def execFill (t : Tract) (net : List NetReply) (s : State) : Result := .next (s.movStart t 1 net)
/-- GATHER (R157). -/
def execGather (t : Tract) (net : List NetReply) (s : State) : Result := .next (s.movStart t 2 net)
/-- SCATTER (R157). -/
def execScatter (t : Tract) (net : List NetReply) (s : State) : Result := .next (s.movStart t 3 net)
/-- TRANSPOSE (R157). -/
def execTranspose (t : Tract) (net : List NetReply) (s : State) : Result := .next (s.movStart t 4 net)
/-- SKEW (R158). -/
def execSkew (t : Tract) (net : List NetReply) (s : State) : Result := .next (s.movStart t 5 net)
/-- REBLOCK (R159). -/
def execReblock (t : Tract) (net : List NetReply) (s : State) : Result := .next (s.movStart t 6 net)

/-- The k-th entry of a queue whose work is done, with its status. -/
def QueueState.doneEntry (v : QueueState) (k : Nat) : Option (QEntry × Nat) :=
  (v.entries.filterMap (fun e => match e.work with
    | .status c => some (e, c)
    | _ => none))[k]?

/-- MOVER_ENTRY_COMPLETE: an entry in progress completes and signals its mark; statuses 0x01 to 0x09 are faults (R155, R160). Its operations
complete at the request agent; one that has failed since makes it REMOTE_ERR, and one of a dead tract is waited for (R271 to R273). -/
def execMoverEntryComplete (t : Tract) (k : Nat) (s : State) : Result :=
  .next <|
    let q := engQueue t .mover
    match (s.queue q).doneEntry k with
    | some (e, c) =>
      if (s.engEntries t .mover e.id).any (fun x => s.engOpen t x) then s
      else
        let (s, st) := s.engClose t .mover e.id
        let c := if st ≠ 0 && (c = 0 || c = 10) then 9 else c
        s.finishEntry q e c (decide (1 ≤ c ∧ c ≤ 9))
    | none => s

end Sys2Proof.Machine
end

