-- ==== Sys2Proof/Machine/Estimate.lean ====
section
/-!
DEFINITION. The vector engine's estimates VEXP, VLOG, VTANH and VRSQRT (R112, R124). Each is a fixed function of its input's bits that the
spec does not give, an opaque constant of Config; where the true result is a normal number it lies within 2 ulp of it. The true result is
computed here in fixed point with 96 fraction bits, to far below an ulp (assumption log 5).
-/
namespace Sys2Proof.Machine

/-- 1 and the natural logarithm of 2, with 96 fraction bits. -/
def oneQ : Nat := 2 ^ 96
def ln2Q : Nat := 54916777467707473351141471128

/-- m * 2^e with 96 fraction bits, rounded down. -/
def toQ (m : Nat) (e : Int) : Nat := if 0 ≤ e + 96 then m * 2 ^ (e + 96).toNat else m / 2 ^ (-(e + 96)).toNat

/-- The sum of r^n / n! for n to n + k, term the n-th: the exponential series with 96 fraction bits. -/
def expSeries (r : Nat) : Nat → Nat → Nat → Nat
  | 0, _, _ => 0
  | k + 1, n, term => term + expSeries r k (n + 1) (term * r / (oneQ * (n + 1)))

/-- e^x for x = q / 2^96, as a number m * 2^(k - 96) with 1 ≤ m / 2^96 < 2: m and k. -/
def expQ (q : Int) : Nat × Int :=
  let k := q / (ln2Q : Int)
  (expSeries (q - k * (ln2Q : Int)).toNat 40 0 oneQ, k)

/-- z + z^3/3 + z^5/5 + ... for z = q / 2^96: half of ln ((1 + z) / (1 - z)). sq: z^2; pow: z^n. -/
def atanhSeries (sq : Int) : Nat → Nat → Int → Int
  | 0, _, _ => 0
  | k + 1, n, pow => pow / (n : Int) + atanhSeries sq k (n + 2) (pow * sq / (oneQ : Int))

/-- ln (m * 2^e) with 96 fraction bits, for m > 0: the mantissa is taken in 0.75 to 1.5. -/
def lnQ (m : Nat) (e : Int) : Int :=
  let l := Nat.log2 m
  let f : Int := m * 2 ^ (97 - l)
  let (f, x) := if f < 3 * (oneQ : Int) then (f / 2, e + l) else (f / 4, e + l + 1)
  let z := (f - oneQ) * oneQ / (f + oneQ)
  2 * atanhSeries (z * z / oneQ) 40 1 z + x * ln2Q

/-- A true result: NaN, one that is no normal number and whose bits the spec leaves open without a flag (at an infinite operand, at a pole, at a
zero), or a number known to far below an ulp, and whether it is known exactly. -/
inductive TrueEst where
  | nan
  | limit
  | near (v : Num) (exact : Bool)
  deriving DecidableEq, Repr

/-- The exponential. Beyond 2^10 in magnitude it overflows or is below every normal number. -/
def trueExp (neg : Bool) (m : Nat) (e : Int) : TrueEst :=
  if m = 0 then .near (.fin false 1 0) true
  else if 10 ≤ (Nat.log2 m : Int) + e then .near (.fin false 1 (if neg then -1000 else 1000)) false
  else
    let q : Int := toQ m e
    let (v, k) := expQ (if neg then -q else q)
    .near (.fin false v (k - 96)) false

/-- The natural logarithm; of a negative number NaN, at 1 exactly 0. -/
def trueLog (neg : Bool) (m : Nat) (e : Int) : TrueEst :=
  if m = 0 then .limit
  else if neg then .nan
  else
    let v := lnQ m e
    if v = 0 then .limit else .near (.fin (decide (v < 0)) v.natAbs (-96)) false

/-- The hyperbolic tangent: x - x^3/3 for small x, else (e^2x - 1) / (e^2x + 1). -/
def trueTanh (neg : Bool) (m : Nat) (e : Int) : TrueEst :=
  if m = 0 then .limit
  else if (Nat.log2 m : Int) + e < -16 then
    let x := toQ m e
    .near (.fin neg (m * (oneQ - x * x / oneQ / 3)) (e - 96)) false
  else if 5 ≤ (Nat.log2 m : Int) + e then .near (.fin neg (2 ^ 60 - 1) (-60)) false
  else
    let (v, k) := expQ (2 * (toQ m e : Int))
    let w := v * 2 ^ k.toNat
    .near (.fin neg ((w - oneQ) * oneQ / (w + oneQ)) (-96)) false

/-- The reciprocal square root; of a negative number NaN. It is exact where the root is. -/
def trueRsqrt (neg : Bool) (m : Nat) (e : Int) : TrueEst :=
  if m = 0 then .limit
  else if neg then .nan
  else
    let (m, e) := if e % 2 = 0 then (m, e) else (2 * m, e - 1)
    let r := isqrt 65 (2 ^ 128 / m)
    .near (.fin false r (-64 - e / 2)) (decide (r * r * m = 2 ^ 128))

/-- The true result of an estimate, by its operation number (R333). -/
def trueEst (op : Nat) (a : Num) : TrueEst :=
  match a with
  | .nan => .nan
  | .inf s =>
    if op = 0x0E then .near (.fin s 1 0) true
    else if (op = 0x0D || op = 0x0F) && s then .nan
    else .limit
  | .fin s m e =>
    if op = 0x0C then trueExp s m e
    else if op = 0x0D then trueLog s m e
    else if op = 0x0E then trueTanh s m e
    else trueRsqrt s m e

/-- The fixed function of the input's bits (R112). -/
def freeEst (op : Nat) (a : Word) : Num :=
  numOf (if op = 0x0C then Config.vexp a else if op = 0x0D then Config.vlog a else if op = 0x0E then Config.vtanh a else Config.vrsqrt a)

/-- Whether two finite numbers differ by at most 2 ulp of FP32 at the magnitude of the second. -/
def within2Ulp (c v : Num) : Bool :=
  match c, v with
  | .fin _ _ _, .fin _ m e =>
    let d := (c.add v.neg).1.abs
    !((Num.fin false 2 ((Nat.log2 m : Int) + e - 23)).below d)
  | _, _ => false

/-- An estimate and its flags: NaN for NaN; where the true result is a normal number, the fixed function's value if that lies within 2 ulp of it,
else the true result rounded; otherwise the fixed function's value. The flags are those of the events of R124. -/
def vecEstimate (op : Nat) (a : Word) : Num × FlagSet :=
  let c := freeEst op a
  if (numOf a).isNan then (.nan, 0)
  else
    match trueEst op (numOf a) with
    | .nan => (.nan, flNv)
    | .limit => (c, flIf c.isNan flNv)
    | .near v exact =>
      let (w, fl) := toFp32 v
      if (numOf w).isInf then (c, flOf ||| flNx ||| flIf c.isNan flNv)
      else if w.toNat % 2 ^ 31 < 2 ^ 23 then (c, fl ||| flUf ||| flNx ||| flIf c.isNan flNv)
      else
        let x := if within2Ulp c v then c else numOf w
        (x, flIf (!exact || !(x.add v.neg).1.isZero) flNx)

end Sys2Proof.Machine
end

