-- ==== Sys2Proof/Machine/Vector.lean ====
section
/-!
DEFINITION. The vector engine and the Vector dispatcher's VRUN (R112, R114, R116, R148, R332 to R337): descriptors, their checks, the
operations, the end of an entry.
-/
namespace Sys2Proof.Machine

/-- A vector operation descriptor (R332); rsv: a reserved bit is set. -/
structure VDesc where
  vop : Nat
  fa  : Nat
  fb  : Nat
  fd  : Nat
  spa : Nat
  spb : Nat
  spc : Nat
  spd : Nat
  ac  : Bool
  cnd : Nat
  g   : Nat
  n   : Nat
  a   : Nat
  b   : Nat
  c   : Nat
  d   : Nat
  s0  : Word
  rsv : Bool
  deriving DecidableEq, Repr

def parseVDesc (bs : List Byte) : VDesc :=
  let f := fieldAt bs 1 1
  let x := fieldAt bs 2 1
  { vop := fieldAt bs 0 1, fa := bitsOf f 1 0, fb := bitsOf f 3 2, fd := bitsOf f 5 4, spa := bitsOf x 0 0, spb := bitsOf x 1 1
    spc := bitsOf x 2 2, spd := bitsOf x 3 3, ac := bitOf x 4, cnd := bitsOf x 7 5
    g := fieldAt bs 3 1 + 256 * fieldBits bs 28 2 2 0, n := fieldAt bs 4 4, a := fieldAt bs 8 4, b := fieldAt bs 12 4, c := fieldAt bs 16 4
    d := fieldAt bs 20 4, s0 := BitVec.ofNat 32 (fieldAt bs 24 4)
    rsv := bitsOf f 7 6 != 0 || fieldBits bs 28 2 15 3 != 0 || fieldAt bs 30 2 != 0 }

/-- The format a code names; INT32, 3, is handled where it may stand. -/
def vecFmt (c : Nat) : FloatFmt := if c = 1 then bf16 else if c = 2 then fp16 else fp32
/-- Bytes of an element. -/
def vecWidth (c : Nat) : Nat := if c = 1 ∨ c = 2 then 2 else 4

/-- The kinds of operation: element operations, with the operands they use. -/
def VDesc.isTree (d : VDesc) : Bool := d.vop == 0x12 || d.vop == 0x13
def VDesc.isElem (d : VDesc) : Bool := decide (1 ≤ d.vop ∧ d.vop ≤ 0x0F)
def VDesc.usesB (d : VDesc) : Bool := [1, 2, 3, 4, 5, 6, 8, 9, 0x0A, 0x10].contains d.vop

/-- BAD_OP of a descriptor (R332, R333, R337). -/
def VDesc.badOp (d : VDesc) : Bool :=
  decide (0x14 < d.vop) || d.rsv || (d.vop != 0x0B && (d.fa == 3 || d.fb == 3 || d.fd == 3)) || (d.vop == 0x0A && 6 ≤ d.cnd) ||
    decide (16777216 < d.n) ||
    (if d.isTree then d.g == 0 || decide (1360 < d.g) || d.fa != 0 || d.fd != (if d.vop = 0x13 then 1 else 0) else d.g != 0)

/-- An operand: its space, offset, bytes, alignment, whether it is written. -/
structure VOpd where
  sp    : Nat
  off   : Nat
  len   : Nat
  algn  : Nat
  write : Bool

/-- The operands of a descriptor. DESIGN CHOICE: an operand or a scalar is misaligned where its offset is no multiple of its element's size; R332
gives an alignment for the stride C alone, and R337 says only misalignment (assumption log 67). -/
def VDesc.operands (d : VDesc) : List VOpd :=
  let a : VOpd := { sp := d.spa, off := d.a, len := d.n * vecWidth d.fa, algn := vecWidth d.fa, write := false }
  let b : VOpd := { sp := d.spb, off := d.b, len := d.n * vecWidth d.fb, algn := vecWidth d.fb, write := false }
  let out (sp off len w : Nat) : VOpd := { sp := sp, off := off, len := len, algn := w, write := true }
  let abs : List VOpd := if d.usesB then [a, b] else [a]
  if d.isElem then
    abs ++ (if d.vop = 4 then [{ sp := d.spc, off := d.c, len := d.n * vecWidth d.fd, algn := vecWidth d.fd, write := false }] else []) ++
      [out d.spd d.d (d.n * vecWidth d.fd) (vecWidth d.fd)]
  else if d.isTree then
    (List.range d.g).map (fun j => { sp := d.spa, off := d.a + j * d.c, len := 4 * d.n, algn := 4, write := false }) ++
      [out d.spd d.d (d.n * vecWidth d.fd) (vecWidth d.fd)] ++ (if d.vop = 0x13 then [out d.spb d.b 4 4] else [])
  else if d.vop = 0x10 ∨ d.vop = 0x11 then abs ++ [out d.spd d.d 4 4]
  else if d.vop = 0x14 then [out d.spd d.d 4 4]
  else []

/-- The memory key of an operand. -/
def vecKey (p : ParcelId) (sp off : Nat) : Nat := if sp = 0 then commonsKey p off else sliceKey p off

/-- The status of an operand (R336, R337): 2 ADDR, 3 PROTECT. Alignment holds of one that covers no bytes too (R149). -/
def State.vecOpdStatus (s : State) (p : ParcelId) (o : VOpd) : Nat :=
  if o.off % o.algn ≠ 0 then 2
  else if o.len = 0 then 0
  else if (if o.sp = 0 then 0x4_0000 else 0x480_0000) < o.off + o.len then 2
  else if o.sp = 0 ∧ stagingBase (s.layout p.tract) < o.off + o.len then (if o.write then 3 else 2)
  else if o.write && s.inReplica (vecKey p o.sp o.off) o.len then 3
  else 0

/-- The first status of the table that is not OK. -/
def minStatus (l : List Nat) : Nat := (l.filter (fun x => x ≠ 0)).foldl (fun a x => if a = 0 then x else min a x) 0

/-- The status of a descriptor. -/
def State.vecStatus (s : State) (p : ParcelId) (d : VDesc) : Nat :=
  if d.badOp then 1
  else minStatus ((if d.isTree ∧ d.c % 16 ≠ 0 then 2 else 0) :: d.operands.map (s.vecOpdStatus p))

/-- The list of a parcel (R335): its entries of so many bytes, or a status. A list that comes poisoned cannot be read: ADDR. DESIGN CHOICE: a list
may lie anywhere in the commons; R336 limits the regions of operands alone (assumption log 67). -/
def State.vecEntries (s : State) (p : ParcelId) (list size cap : Nat) : Sum Nat (List (List Byte)) :=
  if list % 32 ≠ 0 ∨ 0x4_0000 < list + 32 then .inl 2
  else if s.poisoned (commonsKey p list) 32 then .inl 2
  else
    let n := leNat (s.peek (commonsKey p list) 4)
    if cap < n then .inl 1
    else if 0x4_0000 < list + 32 + size * n ∨ s.poisoned (commonsKey p (list + 32)) (size * n) then .inl 2
    else .inr (chunksOf size n (s.peek (commonsKey p (list + 32)) (size * n)))

/-- What reading the list of a parcel does to the check units it meets (R136). -/
def State.touchList (s : State) (p : ParcelId) (list size cap : Nat) : State :=
  if list % 32 ≠ 0 ∨ 0x4_0000 < list + 32 then s
  else
    let n := leNat (s.peek (commonsKey p list) 4)
    let len := if s.poisoned (commonsKey p list) 32 ∨ cap < n ∨ 0x4_0000 < list + 32 + size * n then 32 else 32 + size * n
    s.touch (commonsKey p list) len

/-- The request agent's record of a write of an entry that a replica area refuses, where the entry ends with PROTECT: one for its first such
write (R154, R336). -/
def State.vecReplica (s : State) (t : Tract) (st : Nat) (ws : List (Nat × Nat)) : State :=
  match ws.find? (fun w => s.inReplica w.1 w.2) with
  | some w => if st = 3 then s.replicaRecord t w.1 else s
  | none => s

/-- Sets flags in a parcel's vector engine group and in the aggregates (R125). -/
def State.vecFlags (s : State) (p : ParcelId) (fl : FlagSet) : State :=
  let s := s.modParcel p (fun v => { v with vec := { v.vec with flags := v.vec.flags ||| fl } })
  let k := parcelReg .parcelNflags p
  (s.setRegBits k 7 4 (s.regBits k 7 4 ||| fl.toNat)).tractFlags p.tract 1 fl

/-- An operand element as a number: widened exactly, or an INT32. -/
def vecNum (fmt code : Nat) : Num := if fmt = 3 then intNum (toSigned 32 code) else (vecFmt fmt).decode code

/-- A number rounded once to a format; inv: it is invalid. -/
def vecOut (fmt : Nat) (r : Num × Bool) : Nat × FlagSet :=
  let (c, fl) := if fmt = 3 then toIntCode 32 r.1 else (vecFmt fmt).convert false r.1
  (c, fl ||| flIf r.2 flNv)

/-- A fused multiply-add as an exact number. -/
def vecFma (a b c : Num) : Num × Bool := if a.isNan || b.isNan || c.isNan then (.nan, false) else numFma a b c

/-- Whether a CND b holds (R116). -/
def vecCmp (cnd : Nat) (a b : Word) : Bool :=
  match cnd with
  | 0 => fpEq a b
  | 1 => !fpEq a b
  | 2 => fpLt a b
  | 3 => fpLe a b
  | 4 => fpLt b a
  | _ => fpLe b a

/-- The result of an element operation on operand numbers, as a code of FD, and its flags (R333). -/
def VDesc.result (d : VDesc) (a b c : Num) : Nat × FlagSet :=
  let word (x : Num) : Word := (toFp32 x).1
  match d.vop with
  | 1 => vecOut d.fd (a.add b)
  | 2 => vecOut d.fd (a.add b.neg)
  | 3 => vecOut d.fd (a.mul b)
  | 4 => vecOut d.fd (vecFma a b c)
  | 5 => vecOut d.fd (vecFma (numOf d.s0) a b)
  | 6 => vecOut d.fd (divNum a b)
  | 7 => vecOut d.fd (sqrtNum a)
  | 8 => vecOut d.fd (a.min2 b, false)
  | 9 => vecOut d.fd (a.max2 b, false)
  | 0x0A => vecOut d.fd (.fin false (b2n (vecCmp d.cnd (word a) (word b))) 0, false)
  | 0x0B => vecOut d.fd (a, false)
  | op =>
    let (x, fl) := vecEstimate op (word a)
    let (v, fl') := vecOut d.fd (x, false)
    (v, fl ||| fl')

/-- A run of memory as a vector operation reads it: each 16-byte unit its old or its present value, by a free choice (R334). -/
def State.vecRead (s old : State) (draw key n : Nat) : List MByte :=
  tabulate n (fun i =>
    let a := key + i
    (if bitOf (Config.freeByte draw (a / 16)).toNat 0 then s else old).mbyte a)

/-- Element i of an operand as code and poison. -/
def State.vecElem (s old : State) (draw : Nat) (p : ParcelId) (sp off fmt i : Nat) : Nat × Bool :=
  let bs := s.vecRead old draw (vecKey p sp off + i * vecWidth fmt) (vecWidth fmt)
  (leNat (mdata bs), mbad bs)

/-- The elements whose results share a 16-byte unit of D, as first element and number. -/
def vecGroups (d : VDesc) : List (Nat × Nat) :=
  let per := 16 / vecWidth d.fd
  let skip := d.d % 16 / vecWidth d.fd
  if d.n = 0 then []
  else
    tabulate (ceilDiv (skip + d.n) per) (fun g =>
      let lo := g * per - skip
      (lo, min d.n ((g + 1) * per - skip) - lo))

/-- How far an operation has come: memory, flags, whether a result is poisoned, the codes of its results. -/
structure VRun where
  s    : State
  fl   : FlagSet
  bad  : Bool
  outs : List (Nat × Bool)

/-- A result that is poisoned sets no flag. -/
def vecMask (r : Nat × FlagSet) (bad : Bool) : Nat × Bool × FlagSet := if bad then (0, true, 0) else (r.1, false, r.2)

/-- Element i of an operation that writes D. -/
def VDesc.elem (d : VDesc) (old : State) (draw : Nat) (p : ParcelId) (s : State) (i : Nat) : Nat × Bool × FlagSet :=
  if d.isTree then
    let es := (List.range d.g).map (fun j => s.vecElem old draw p d.spa (d.a + j * d.c) 0 i)
    let (w, fl) := treeSum fpAdd 11 (es.map (fun e => BitVec.ofNat 32 e.1))
    let (c, fl') := vecOut d.fd (numOf w, false)
    vecMask (if d.fd = 0 then w.toNat else c, fl ||| fl') (es.any (fun e => e.2))
  else
    let a := s.vecElem old draw p d.spa d.a d.fa i
    let b := if d.usesB then s.vecElem old draw p d.spb d.b d.fb i else (0, false)
    let c := if d.vop = 4 then s.vecElem old draw p d.spc d.c d.fd i else (0, false)
    vecMask (d.result (vecNum d.fa a.1) (vecNum d.fb b.1) (vecNum d.fd c.1)) (a.2 || b.2 || c.2)

/-- The results that share a unit are computed, and written together. fix: what the lanes make of a result (R426). -/
def VDesc.group (d : VDesc) (old : State) (draw : Nat) (p : ParcelId) (fix : Nat → Nat → Nat) (r : VRun) (g : Nat × Nat) : VRun :=
  let w := vecWidth d.fd
  let es := (List.range g.2).map (fun i => d.elem old draw p r.s (g.1 + i))
  let outs := es.zipIdx.map (fun e => (if e.1.2.1 then e.1.1 else fix (g.1 + e.2) e.1.1, e.1.2.1))
  { s := r.s.mstore (vecKey p d.spd d.d + g.1 * w) (packElems (8 * w) (w * g.2) outs)
    fl := es.foldl (fun a e => a ||| e.2.2) r.fl, bad := r.bad || es.any (fun e => e.2.1), outs := r.outs ++ outs }

/-- A datum block of pairs is added to an accumulator (R106). -/
def vecBlock (q : Slot × FlagSet) (c : List (Num × Num)) : Slot × FlagSet :=
  let b := c.foldl (fun (b : Block) t => b.addTerm 0 t.1 t.2 0) (Block.empty 0)
  let (sl, f) := ({ q.1 with pend := some b } : Slot).fold 0 false
  (sl, q.2 ||| f)

/-- The datum-order sum of products of pairs, continuing an accumulator (R106). -/
def vecDot (acc : Option Word) (ps : List (Num × Num)) : Word × FlagSet :=
  let (sl, fl) := (chunksOf 32 ps.length ps).foldl vecBlock ({ Slot.empty with acc := acc }, 0)
  (sl.acc.getD 0, fl)

/-- The same as the lanes of an engine give it: block b on the lanes from 32 b (R426). -/
def State.vecDotRun (s : State) (p : ParcelId) (acc : Option Word) (ps : List (Num × Num)) : State × Word × FlagSet :=
  let l := s.laneRun p (ceilDiv ps.length 32) 1 32 (fun b => 32 * b)
  if l.found.isEmpty then (s, vecDot acc ps)
  else
    let (sl, fl) := (chunksOf 32 ps.length ps).zipIdx.foldl (fun (q : Slot × FlagSet) c =>
      let (sl, fl) := vecBlock q c.1
      ({ sl with acc := sl.acc.map (fun w => BitVec.ofNat 32 (l.fix c.2 w.toNat)) }, fl)) ({ Slot.empty with acc := acc }, 0)
    (s.laneReport p l.found, sl.acc.getD 0, fl)

/-- A scalar written, poisoned or not. -/
def State.vecScalar (s : State) (key : Nat) (w : Word) (bad : Bool) : State :=
  s.mstore key ((natLe 4 w.toNat).map (fun b => (b, bad)))

/-- The accumulator at a scalar, where AC continues it. -/
def State.vecAcc (s : State) (ac : Bool) (key : Nat) : Option Word × Bool :=
  if ac then (some (BitVec.ofNat 32 (leNat (s.peek key 4))), s.poisoned key 4) else (none, false)

/-- The maximum of numbers, continuing a value. -/
def vecMax (acc : Option Word) (xs : List Num) : Word :=
  let m := xs.foldl (fun (a : Option Num) x => some (match a with
    | none => x
    | some y => y.max2 x)) (acc.map numOf)
  match m with
  | none => 0
  | some x => (toFp32 x).1

/-- A descriptor runs (R333, R334): memory, flags, whether a result is poisoned. -/
def State.vecRun (s : State) (p : ParcelId) (d : VDesc) : State × FlagSet × Bool :=
  let s := (d.operands.filter (fun o => !o.write && o.len != 0)).foldl (fun s o => s.touch (vecKey p o.sp o.off) o.len) s
  let draw := s.free
  let s := s.takeFree
  let elems (sp off fmt : Nat) : List (Nat × Bool) := (List.range d.n).map (s.vecElem s draw p sp off fmt)
  let nums (fmt : Nat) (l : List (Nat × Bool)) : List Num := l.map (fun e => vecNum fmt e.1)
  if d.isElem || d.isTree then
    let l := s.laneRun p d.n 64 (8 * vecWidth d.fd) (fun i => i)
    let r := (vecGroups d).foldl (fun r g => d.group s draw p l.fix r g) { s := s, fl := 0, bad := false, outs := [] }
    let r := { r with s := r.s.laneReport p l.found }
    if d.vop = 0x13 then
      let key := vecKey p d.spb d.b
      let (acc, bad0) := r.s.vecAcc d.ac key
      let xs := r.outs.map (fun e => bf16.decode e.1)
      let (s, w, fl) := r.s.vecDotRun p acc (xs.map (fun x => (x, x)))
      let bad := bad0 || r.bad
      (s.vecScalar key w bad, if bad then r.fl else r.fl ||| fl, bad)
    else (r.s, r.fl, r.bad)
  else if d.vop = 0x10 then
    let key := vecKey p d.spd d.d
    let (acc, bad0) := s.vecAcc d.ac key
    let xs := elems d.spa d.a d.fa
    let ys := elems d.spb d.b d.fb
    let (s, w, fl) := s.vecDotRun p acc ((nums d.fa xs).zip (nums d.fb ys))
    let bad := bad0 || xs.any (fun e => e.2) || ys.any (fun e => e.2)
    (s.vecScalar key w bad, if bad then 0 else fl, bad)
  else if d.vop = 0x11 then
    let key := vecKey p d.spd d.d
    let (acc, bad0) := s.vecAcc d.ac key
    let xs := elems d.spa d.a d.fa
    let bad := bad0 || xs.any (fun e => e.2)
    (s.vecScalar key (vecMax acc (nums d.fa xs)) bad, 0, bad)
  else if d.vop = 0x14 then
    let fl := (s.parcel p).vec.flags
    let s := s.vecScalar (vecKey p d.spd d.d) (fl.setWidth 32) false
    (if d.ac then s.modParcel p (fun v => { v with vec := { v.vec with flags := 0 } }) else s, 0, false)
  else (s, 0, false)

/-- A vector engine runs the next descriptor of its program, where it has the operation named (R334). -/
def State.vecStep (s : State) (p : ParcelId) (vop : Nat) : State :=
  match (s.parcel p).vec.list with
  | [] => s
  | bs :: rest =>
    let d := parseVDesc bs
    if d.vop ≠ vop then s
    else
      let (s, fl, bad) := s.vecRun p d
      (s.vecFlags p fl).modParcel p (fun v => { v with vec := { v.vec with list := rest, bad := v.vec.bad || bad } })

def execVnop (p : ParcelId) (s : State) : Result := .next (s.vecStep p 0x00)
def execVadd (p : ParcelId) (s : State) : Result := .next (s.vecStep p 0x01)
def execVsub (p : ParcelId) (s : State) : Result := .next (s.vecStep p 0x02)
def execVmul (p : ParcelId) (s : State) : Result := .next (s.vecStep p 0x03)
def execVfma (p : ParcelId) (s : State) : Result := .next (s.vecStep p 0x04)
def execVaxpy (p : ParcelId) (s : State) : Result := .next (s.vecStep p 0x05)
def execVdiv (p : ParcelId) (s : State) : Result := .next (s.vecStep p 0x06)
def execVsqrt (p : ParcelId) (s : State) : Result := .next (s.vecStep p 0x07)
def execVmin (p : ParcelId) (s : State) : Result := .next (s.vecStep p 0x08)
def execVmax (p : ParcelId) (s : State) : Result := .next (s.vecStep p 0x09)
def execVcmp (p : ParcelId) (s : State) : Result := .next (s.vecStep p 0x0A)
def execVcvt (p : ParcelId) (s : State) : Result := .next (s.vecStep p 0x0B)
def execVexp (p : ParcelId) (s : State) : Result := .next (s.vecStep p 0x0C)
def execVlog (p : ParcelId) (s : State) : Result := .next (s.vecStep p 0x0D)
def execVtanh (p : ParcelId) (s : State) : Result := .next (s.vecStep p 0x0E)
def execVrsqrt (p : ParcelId) (s : State) : Result := .next (s.vecStep p 0x0F)
def execVdot (p : ParcelId) (s : State) : Result := .next (s.vecStep p 0x10)
def execVrmax (p : ParcelId) (s : State) : Result := .next (s.vecStep p 0x11)
def execVtree (p : ParcelId) (s : State) : Result := .next (s.vecStep p 0x12)
def execVfin (p : ParcelId) (s : State) : Result := .next (s.vecStep p 0x13)
def execVflg (p : ParcelId) (s : State) : Result := .next (s.vecStep p 0x14)

/-- The fields of a Vector dispatcher entry (R335). -/
def QEntry.vecPlot (e : QEntry) : BitVec 8 := BitVec.ofNat 8 (e.body 11 4)
def QEntry.vecListAt (e : QEntry) : Nat := e.body 49 32

/-- Starts the Vector dispatcher's next entry where it has the operation named and the vector engines of its plot are free; one with a
reserved OP completes with BAD_OP (R335, R337). may: the request agent takes its operations. -/
def State.vecStart (s : State) (t : Tract) (op : Nat) (act : State → QEntry → State) (may : QEntry → Bool := fun _ => true) : State :=
  let q := engQueue t .vector
  match s.startable q with
  | none => s
  | some e =>
    if 2 ≤ e.body 3 0 then (s.startEntry q e).setWork q e.id (.status 1)
    else if e.body 3 0 ≠ op ∨ (s.plotParcels t e.vecPlot).any (fun p => (s.parcel p).vec.entry.isSome) ∨ !may e then s
    else act (s.startEntry q e) e

/-- The effect of VRUN: every list of the plot is checked before any parcel writes (R335, R336). -/
def State.vrunAct (s : State) (t : Tract) (e : QEntry) : State :=
  let q := engQueue t .vector
  let ps := s.plotParcels t e.vecPlot
  let s := ps.foldl (fun s p => s.touchList p e.vecListAt 32 4096) s
  let lists := ps.map (fun p => (p, s.vecEntries p e.vecListAt 32 4096))
  let st (r : ParcelId × Sum Nat (List (List Byte))) : Nat := match r.2 with
    | .inl c => c
    | .inr ds => minStatus (ds.map (fun b => s.vecStatus r.1 (parseVDesc b)))
  let early := [if e.bodyClean [(11, 0), (49, 32)] then 0 else 1, if e.vecListAt % 32 = 0 then 0 else 2,
    if s.plotEmpty t e.vecPlot.toNat then 4 else 0]
  match minStatus (early ++ lists.map st) with
  | 0 =>
    let s := lists.foldl (fun (s : State) (r : ParcelId × Sum Nat (List (List Byte))) => match r.2 with
      | .inr ds => s.modParcel r.1 (fun v => { v with vec := { v.vec with entry := some e.id, list := ds, bad := false } })
      | .inl _ => s) s
    s.setWork q e.id (.await (ps.map (fun p => p.parcel.val)))
  | c =>
    let writes := lists.flatMap (fun r => match r.2 with
      | .inr ds => ds.flatMap (fun b => ((parseVDesc b).operands.filter (fun o => o.write)).map (fun o => (vecKey r.1 o.sp o.off, o.len)))
      | .inl _ => [])
    (s.vecReplica t c writes).setWork q e.id (.status c)

/-- VRUN: the parcels of a plot run their vector programs (R335). -/
def execVrun (t : Tract) (s : State) : Result := .next (s.vecStart t 0 (fun s e => s.vrunAct t e))

/-- The parcels an entry in progress runs on. -/
def QEntry.vecParcels (e : QEntry) (t : Tract) : List ParcelId :=
  match e.work with
  | .await ps => ps.filterMap (fun n => keyParcel (keyOf t.val n 0))
  | _ => []

/-- The status of an entry whose parcels have all finished, none while one has not (R335, R337). -/
def State.vecDone (s : State) (t : Tract) (e : QEntry) : Option Nat :=
  match e.work with
  | .status c => some c
  | .await _ =>
    let vs := (e.vecParcels t).map (fun p => (s.parcel p).vec)
    if vs.all (fun v => v.list.isEmpty) then some (if vs.any (fun v => v.bad) then 10 else 0) else none
  | _ => none

/-- The operations of an entry complete at the request agent: a write that has failed leaves its record (R260, R271 to R273). An entry's reads have
completed before it writes anything (R337). -/
def State.vecClose (s : State) (t : Tract) (id : Nat) : State :=
  let xs := s.engEntries t .vector id
  let s := (xs.filter (fun x => x.op.writesData && x.outcome != 0)).foldl (fun s x => s.postedRecord t none x.addr x.outcome) s
  (s.engFinish t xs).1

/-- VECTOR_ENTRY_COMPLETE: entry k in progress completes once every parcel has finished; statuses 0x01 to 0x06 are faults (R335, R337). An
operation of it that awaits a dead tract is waited for (R271). -/
def execVectorEntryComplete (t : Tract) (k : Nat) (s : State) : Result :=
  .next <|
    let q := engQueue t .vector
    match ((s.queue q).entries.filter (fun e => e.started))[k]? with
    | none => s
    | some e =>
      match s.vecDone t e with
      | none => s
      | some c =>
        if (s.engEntries t .vector e.id).any (fun x => s.engOpen t x) then s
        else
          let free (v : VecEngine) : VecEngine := if v.entry = some e.id then { v with entry := none, list := [], bad := false } else v
          let s := (e.vecParcels t).foldl (fun s p => s.modParcel p (fun v => { v with vec := free v.vec })) s
          (s.vecClose t e.id).finishEntry q e c (decide (1 ≤ c ∧ c ≤ 6))

end Sys2Proof.Machine
end

