-- ==== Sys2Proof/Machine/Optimizer.lean ====
section
/-!
DEFINITION. The optimizer pass, OPT (R128, R129, R327 to R329, R335 to R345).
-/
namespace Sys2Proof.Machine

/-- A shard record (R343); rsv: a reserved bit or value. -/
structure ShardRec where
  n      : Nat
  mw     : Nat
  rem    : Nat
  mo     : Nat
  vo     : Nat
  go     : Nat
  klen   : Nat
  wrowb  : Nat
  wc     : Nat
  wcs    : Nat
  wk     : Nat
  exp    : Bool
  layer  : Nat
  expert : Nat
  rsv    : Bool
  deriving DecidableEq, Repr

def parseShard (bs : List Byte) : ShardRec :=
  let f := fieldAt bs
  { n := f 0 4, mw := f 4 4, rem := f 8 4, mo := f 12 4, vo := f 16 4, go := f 20 4, klen := f 24 4, wrowb := f 28 4, wc := f 32 8
    wcs := f 40 8, wk := bitsOf (f 48 2) 1 0, exp := bitOf (f 48 2) 2, layer := bitsOf (f 50 2) 9 0, expert := f 52 2
    rsv := bitsOf (f 48 2) 15 3 != 0 || bitsOf (f 48 2) 1 0 == 3 || bitsOf (f 50 2) 15 10 != 0 || f 54 10 != 0 }

/-- The element format of the working copy, and the bytes of one of its rows (R343). -/
def ShardRec.fmt (r : ShardRec) : FloatFmt := if r.wk = 2 then e2m1 else e4m3
def ShardRec.bits (r : ShardRec) : Nat := if r.wk = 2 then 4 else 8
def ShardRec.rowBytes (r : ShardRec) : Nat := ceilDiv (r.klen * r.bits) 8
def ShardRec.rows (r : ShardRec) : Nat := r.n / r.klen
/-- The address of a working row, and of its scales. -/
def ShardRec.rowAt (r : ShardRec) (q : Nat) : Nat := (r.wc + q * r.wrowb) % 2 ^ 64
def ShardRec.scaleAt (r : ShardRec) (q : Nat) : Nat := (r.wcs + q * ceilDiv r.klen 32) % 2 ^ 64

/-- The four arrays of a shard that OPT writes, and all five, the gradient with them, with their lengths (R343). -/
def ShardRec.written (r : ShardRec) : List (Nat × Nat) := [(r.mw, 2 * r.n), (r.rem, 2 * r.n), (r.mo, 4 * r.n), (r.vo, 2 * r.n)]
def ShardRec.arrays (r : ShardRec) : List (Nat × Nat) := r.written ++ [(r.go, 2 * r.n)]

/-- Whether the masters lie in one tensor record of kind M with SHARD whose GA names the owner's slice (R329). -/
def State.inShard (s : State) (p : ParcelId) (r : ShardRec) : Bool :=
  match s.plan.inForce with
  | none => false
  | some pl => pl.tensors.any (fun t =>
      t.kind == 5 && t.shard && s.isOwn t.ga && keyParcel t.ga == some p && gaOffset t.ga ≤ r.mw &&
        r.mw + 2 * r.n ≤ gaOffset t.ga + t.rows * t.rowbytes)

/-- The address of a record's tally (R345). -/
def State.shardTally (s : State) (r : ShardRec) : Option Nat :=
  if r.exp then (s.layerRec r.layer).map (fun l => l.tallyGa + 16 * r.expert) else none

/-- Whether a read of n bytes at an address of an OPT entry completes without an error status: it lies on this module, in a window, in a tract
that answers (R271, R337). -/
def State.optReads (s : State) (ga n : Nat) : Bool :=
  s.isOwn ga && !gaBad ga && !s.deadAt ga && s.windowStatus (ga % 2 ^ 52) n false == 0

/-- Whether the record's expert is one this module owns, so that its tally is read here (R345). -/
def State.tallyOwn (s : State) (r : ShardRec) : Bool :=
  match s.layerRec r.layer with
  | some l => match s.cadOf l r.expert with
    | some c => c.module == s.job.moduleId.toNat && s.optReads (l.tallyGa + 16 * r.expert) 16
    | none => false
  | none => false

/-- The status of a shard record before anything is written (R336, R337, R343, R345): every field; and for one that covers bytes, every range,
its tensor record and its tally. -/
def State.shardStatus (s : State) (p : ParcelId) (r : ShardRec) : Nat :=
  let fields := r.rsv || decide (16777216 < r.n) || decide (r.klen = 0 ∨ 65536 < r.klen) || decide (r.n % r.klen ≠ 0) ||
    (r.wk != 0 && decide (r.wrowb < r.rowBytes)) || (r.exp && match s.layerRec r.layer with
      | some l => decide (l.e ≤ r.expert)
      | none => true)
  let align := r.arrays.any (fun q => q.1 % 16 != 0) || (r.wk != 0 && r.wrowb % 4 != 0)
  if fields then 1
  else if align then 2
  else if r.n = 0 then 0
  else
    let arr := r.arrays.map (fun q => if 0x480_0000 < q.1 + q.2 then 2 else 0) ++
      r.written.map (fun q => if s.inReplica (sliceKey p q.1) q.2 then 3 else 0)
    let st (x : Nat) : Nat := if x = 0 then 0 else x + 1
    let work := if r.wk = 0 then [] else (List.range r.rows).flatMap (fun q =>
      [st (s.reach (r.rowAt q) r.rowBytes true), st (s.reach (r.scaleAt q) (ceilDiv r.klen 32) true)])
    minStatus (arr ++ work ++ [if s.inShard p r then 0 else 5, if r.exp && !s.tallyOwn r then 6 else 0])

/-- The hyperparameters (R340). -/
structure Hyper where
  lr    : Word
  b1    : Word
  omb1  : Word
  b2    : Word
  omb2  : Word
  eps   : Word
  wd    : Word
  bc1   : Word
  bc2   : Word
  clipn : Word

def parseHyper (bs : List Byte) : Hyper :=
  let w (i : Nat) : Word := BitVec.ofNat 32 (fieldAt bs (4 * i) 4)
  { lr := w 0, b1 := w 1, omb1 := w 2, b2 := w 3, omb2 := w 4, eps := w 5, wd := w 6, bc1 := w 7, bc2 := w 8, clipn := w 9 }

/-- A finite value with its sign bit clear; one; comparisons of such values as numbers. -/
def fpPlain (w : Word) : Bool := decide (w.toNat < 0x7F80_0000)
def fpOne : Word := 0x3F80_0000

/-- Whether every hyperparameter lies in its range and the reserved bytes are 0 (R340). -/
def hyperOk (bs : List Byte) : Bool :=
  let h := parseHyper bs
  [h.lr, h.b1, h.omb1, h.b2, h.omb2, h.eps, h.wd, h.bc1, h.bc2, h.clipn].all fpPlain && decide (h.b1.toNat < fpOne.toNat) &&
    decide (h.b2.toNat < fpOne.toNat) && decide (0 < h.omb1.toNat ∧ h.omb1.toNat ≤ fpOne.toNat) &&
    decide (0 < h.omb2.toNat ∧ h.omb2.toNat ≤ fpOne.toNat) && decide (0 < h.eps.toNat) && decide (fpOne.toNat ≤ h.bc1.toNat) &&
    decide (fpOne.toNat ≤ h.bc2.toNat) && fieldAt bs 40 24 == 0

/-- The clip factor and the flags of its operations (R341). -/
def clipFactor (t clipn : Word) : Word × FlagSet :=
  let (n, f) := fpSqrt t
  if clipn = 0 ∨ fpLe n clipn then (fpOne, f)
  else
    let (c, f') := fpDiv clipn n
    (c, f ||| f')

/-- The exponent of the BF16 ulp of a code (R128). -/
def ulpExp (w : Nat) : Int := (max (bitsOf w 14 7) 1 : Nat) - 134

/-- x of R129: the combined master; the remainder of an infinite or NaN master is ignored. DESIGN CHOICE: with r = 0, x is w itself, so -0
for w = -0; the exact sum the rule gives fixes no sign of a zero (assumption log 44). -/
def combined (w r : Nat) : Num :=
  if bitsOf w 14 7 = 255 then bf16.decode w
  else if r = 0 then bf16.decode w
  else ((bf16.decode w).add ((intNum (toSigned 16 r)).scaleDown (16 - ulpExp w))).1

/-- The new master and remainder from u, and their flags (R129). -/
def splitMaster (u : Word) : Nat × Nat × FlagSet :=
  let (w, fl) := bf16.convert false (numOf u)
  if bitsOf w 14 7 = 255 then (w, 0, fl)
  else
    match ((numOf u).add (bf16.decode w).neg).1.scaleDown (ulpExp w - 16) with
    | .fin neg m e =>
      let (v, inexact) := roundInt neg m e
      if 32767 < v then (w, 32767, fl ||| flNx) else (w, (v % 65536).toNat, fl ||| flIf inexact flNx)
    | _ => (w, 0, fl)

/-- The state of an element: master, remainder, moments, gradient. -/
structure OptElem where
  w : Nat
  r : Nat
  m : Word
  v : Nat
  g : Nat
  deriving DecidableEq, Repr

/-- One update (R342): the new element state and the flags. -/
def Hyper.update (h : Hyper) (clip : Word) (e : OptElem) : OptElem × FlagSet :=
  let (g, f0) := fpMul (fpWiden bf16 e.g) clip
  let (a, f1) := fpMul h.omb1 g
  let (m1, f2) := fpFma h.b1 e.m a
  let (gg, f3) := fpMul g g
  let (b, f4) := fpMul h.omb2 gg
  let (vv, f5) := fpFma h.b2 (fpWiden bf16 e.v) b
  let (v1, f6) := fpNarrow bf16 vv
  let (mh, f7) := fpMul m1 h.bc1
  let (vh, f8) := fpMul (fpWiden bf16 v1) h.bc2
  let (sq, f9) := fpSqrt vh
  let (den, f10) := fpAdd sq h.eps
  let (q, f11) := fpDiv mh den
  let x := (toFp32 (combined e.w e.r)).1
  let (wx, f12) := fpMul h.wd x
  let (t, f13) := fpAdd q wx
  let (u, f14) := fpFma (h.lr ^^^ 0x8000_0000) t x
  let (w1, r1, f15) := splitMaster u
  ({ e with w := w1, r := r1, m := m1, v := v1 },
    [f1, f2, f3, f4, f5, f6, f7, f8, f9, f10, f11, f12, f13, f14, f15].foldl (fun (a b : FlagSet) => a ||| b) f0)

/-- A pass so far: memory, flags, the new masters as codes with poison. -/
structure OptRun where
  s   : State
  fl  : FlagSet
  ws  : List (Nat × Bool)

/-- Elements of one 16-byte unit of the masters: read, updated, written (R342, R344). zero: the gradient is taken as +0 and its array not looked at (R345); bad: every input
counts as poisoned; fix: what the lanes make of a result (R426). -/
def State.optGroup (h : Hyper) (clip : Word) (p : ParcelId) (r : ShardRec) (zero bad : Bool) (fix : Nat → Nat → Nat) (o : OptRun) (i0 : Nat) :
    OptRun :=
  let n := min 8 (r.n - i0)
  let at_ (base w i : Nat) : List MByte := o.s.mread (sliceKey p (base + w * (i0 + i))) w
  let num (bs : List MByte) : Nat := leNat (mdata bs)
  let one (i : Nat) : (OptElem × FlagSet) × Bool :=
    let w := at_ r.mw 2 i
    let e := at_ r.rem 2 i
    let m := at_ r.mo 4 i
    let v := at_ r.vo 2 i
    let g := at_ r.go 2 i
    let u := h.update clip { w := num w, r := num e, m := BitVec.ofNat 32 (num m), v := num v, g := if zero then 0 else num g }
    let out (v : Nat) : Nat := fix (i0 + i) v
    (({ u.1 with w := out u.1.w % 65536, r := out u.1.r % 65536, m := BitVec.ofNat 32 (out u.1.m.toNat), v := out u.1.v % 65536 }, u.2),
      bad || mbad (w ++ e ++ m ++ v ++ (if zero then [] else g)))
  let es := (List.range n).map one
  let col (base w : Nat) (f : OptElem → Nat) (s : State) : State :=
    s.mstore (sliceKey p (base + w * i0)) (packElems (8 * w) (w * n) (es.map (fun q => (f q.1.1, q.2))))
  let s := col r.mo 4 (fun e => e.m.toNat) o.s
  let s := col r.vo 2 (fun e => e.v) s
  let s := col r.mw 2 (fun e => e.w) s
  let s := col r.rem 2 (fun e => e.r) s
  { s := s, fl := es.foldl (fun a q => if q.2 then a else a ||| q.1.2) o.fl, ws := o.ws ++ es.map (fun q => (q.1.1.w, q.2)) }

/-- A block of the working copy: its elements, its scale, its flags (R120, R342); a poisoned master poisons the block. -/
def ShardRec.block (r : ShardRec) (ws : List (Nat × Bool)) : List (Nat × Bool) × MByte × FlagSet :=
  if ws.any (fun w => w.2) then (ws.map (fun _ => (0, true)), (0, true), 0)
  else
    let xs := ws.map (fun w => bf16.decode w.1)
    let (sc, fl) := mxScale r.fmt xs
    let (qs, fl') := mxElems r.fmt sc xs
    (qs.map (fun q => (q, false)), (BitVec.ofNat 8 sc, false), fl ||| fl')

/-- Row q of the working copy is written. -/
def State.workRow (s : State) (t : Tract) (id : Nat) (r : ShardRec) (q : Nat) (ws : List (Nat × Bool)) (net : List NetReply) :
    State × FlagSet × List NetReply :=
  let bs := (chunksOf 32 ws.length ws).map r.block
  let (s, _, net) := s.engWrite t .vector id (r.rowAt q) (packElems r.bits r.rowBytes (bs.flatMap (fun b => b.1))) net
  let (s, _, net) := s.engWrite t .vector id (r.scaleAt q) (bs.map (fun b => b.2.1)) net
  (s, bs.foldl (fun a b => a ||| b.2.2) 0, net)

/-- Whether an expert's tally shows it untouched (R345). -/
def State.untouched (s : State) (r : ShardRec) : Bool :=
  match s.shardTally r with
  | some a =>
    let bs := s.peek (a % 2 ^ 52) 16
    fieldAt bs 4 4 == 0 && !bitOf (fieldAt bs 12 4) 1
  | none => false

/-- A shard record runs (R342 to R345): memory, whether a result is poisoned, the answers left. -/
def State.optShard (h : Hyper) (clip : Word) (id : Nat) (p : ParcelId) (bad : Bool) (q : State × Bool × List NetReply) (r : ShardRec) :
    State × Bool × List NetReply :=
  let s := q.1
  if r.n = 0 then q
  else if s.untouched r && s.job.skip then (s.bumpReg (tractReg .optStat p.tract) 31 16 1, q.2)
  else
    let s := r.arrays.foldl (fun (s : State) (a : Nat × Nat) => s.touch (sliceKey p a.1) a.2) s
    let l := s.laneRun p r.n 64 32 (fun i => i)
    let o := (tabulate (ceilDiv r.n 8) (fun i => 8 * i)).foldl (State.optGroup h clip p r (s.untouched r) bad l.fix)
      ({ s := s, fl := 0, ws := [] } : OptRun)
    let o := { o with s := o.s.laneReport p l.found }
    let (s, fl, net) :=
      if r.wk = 0 then (o.s, o.fl, q.2.2)
      else (chunksOf r.klen o.ws.length o.ws).zipIdx.foldl (fun (a : State × FlagSet × List NetReply) (ws : List (Nat × Bool) × Nat) =>
        let (s, fl, net) := a.1.workRow p.tract id r ws.2 ws.1 a.2.2
        (s, a.2.1 ||| fl, net)) (o.s, o.fl, q.2.2)
    (s.vecFlags p fl, q.2.1 || o.ws.any (fun w => w.2), net)

/-- The status of the address of a block of n bytes that OPT reads: 2 where it lies outside every window, or is misaligned, or on another module,
6 where its tract answers nothing (R335, R337). DESIGN CHOICE: it is misaligned where it is no multiple of 4, which R335 does not say
(assumption log 67). -/
def State.optAddr (s : State) (ga n : Nat) : Nat :=
  if ga % 4 ≠ 0 ∨ gaBad ga ∨ !s.isOwn ga ∨ s.windowStatus (ga % 2 ^ 52) n false ≠ 0 then 2 else if s.deadAt ga then 6 else 0

/-- The lists of an OPT entry's parcels. -/
def State.optLists (s : State) (t : Tract) (e : QEntry) : List (ParcelId × Sum Nat (List (List Byte))) :=
  (s.plotParcels t e.vecPlot).map (fun p => (p, s.vecEntries p e.vecListAt 64 1024))

/-- The shard records of its lists. -/
def State.optRecs (s : State) (t : Tract) (e : QEntry) : List (ParcelId × ShardRec) :=
  (s.optLists t e).flatMap (fun r => match r.2 with
    | .inr ds => ds.map (fun b => (r.1, parseShard b))
    | .inl _ => [])

/-- HP_GA and NORM_GA (R335). -/
def QEntry.hpGa (e : QEntry) : Nat := e.body 127 64
def QEntry.normGa (e : QEntry) : Nat := e.body 191 128

/-- The status of an OPT entry's two addresses. -/
def State.optBlocks (s : State) (e : QEntry) : Nat := max (s.optAddr e.hpGa 64) (s.optAddr e.normGa 4)

/-- The status OPT's checks give (R335 to R337); hyper: whether the block is in range, as far as it has been read. -/
def State.optStatus (s : State) (t : Tract) (e : QEntry) (hyper : Bool) : Nat :=
  let st (r : ParcelId × Sum Nat (List (List Byte))) : Nat := match r.2 with
    | .inl c => c
    | .inr ds => minStatus (ds.map (fun b => s.shardStatus r.1 (parseShard b)))
  minStatus ([if e.bodyClean [(11, 0), (49, 32), (127, 64), (191, 128)] then 0 else 1, if e.vecListAt % 32 = 0 then 0 else 2, s.optBlocks e,
    if hyper then 0 else 1, if s.plotEmpty t e.vecPlot.toNat then 4 else 0] ++ (s.optLists t e).map st)

/-- What an OPT entry reads and writes through global addresses (R254): the block, the norm, the tallies, the working copies. -/
def State.optReadRuns (s : State) (t : Tract) (e : QEntry) : List (Nat × Nat) :=
  [(e.hpGa, 64), (e.normGa, 4)] ++ (s.optRecs t e).filterMap (fun r => if r.2.n = 0 then none else (s.shardTally r.2).map (fun a => (a, 16)))
def State.optWriteRuns (s : State) (t : Tract) (e : QEntry) : List (Nat × Nat) :=
  (s.optRecs t e).flatMap (fun r => if r.2.wk = 0 then [] else (List.range r.2.rows).flatMap (fun q =>
    [(r.2.rowAt q, r.2.rowBytes), (r.2.scaleAt q, ceilDiv r.2.klen 32)]))

/-- The keys an OPT entry writes on this module. -/
def State.optWrites (s : State) (t : Tract) (e : QEntry) : List (Nat × Nat) :=
  (s.optRecs t e).flatMap (fun r => r.2.written.map (fun q => (sliceKey r.1 q.1, q.2))) ++
    ((s.optWriteRuns t e).filter (fun q => s.isOwn q.1)).map (fun q => (q.1 % 2 ^ 52, q.2))

/-- What an OPT entry reads before it writes: the block and, where every other check passes, the norm and the tallies. -/
def State.optFirst (s : State) (t : Tract) (e : QEntry) : List (Nat × Nat) :=
  if s.optStatus t e true = 0 then s.optReadRuns t e else [(e.hpGa, 64)]

/-- The pass of an OPT entry over its shard records (R341 to R345): the working copies are its writes through global addresses. DESIGN CHOICE: the
flags of the clip factor are set in the vector group of every parcel of the plot, for the spec does not say whose takes them (assumption log 67). -/
def State.optPass (s : State) (t : Tract) (e : QEntry) (h : Hyper) (total : Word) (bad : Bool) (net : List NetReply) : State :=
  let s := s.engEnter t .vector e.id [] (s.optWriteRuns t e)
  let (clip, fl) := clipFactor total h.clipn
  let recs := s.optRecs t e
  let s := (s.plotParcels t e.vecPlot).foldl (fun s p => s.vecFlags p fl) s
  let (s, poisoned, _) := recs.foldl (fun (a : State × Bool × List NetReply) (r : ParcelId × ShardRec) =>
    State.optShard h clip e.id r.1 bad a r.2) (s, false, net)
  s.setWork (engQueue t .vector) e.id (.status (if poisoned then 10 else 0))

/-- The effect of OPT (R335 to R345): checks, with the lists and the block read; then nothing where the norm is NaN or +inf; then the pass over
each parcel's records. Its reads have completed before it writes anything (R337); those of a dead tract stay outstanding. -/
def State.optAct (s : State) (t : Tract) (e : QEntry) (net : List NetReply) : State :=
  let q := engQueue t .vector
  let (hp, norm) := (e.hpGa % 2 ^ 52, e.normGa % 2 ^ 52)
  let s := (s.plotParcels t e.vecPlot).foldl (fun s p => s.touchList p e.vecListAt 64 1024) s
  let st := s.optStatus t e true
  if st = 6 then (s.engEnter t .vector e.id (s.optReadRuns t e) []).setWork q e.id (.status 6)
  else if s.optBlocks e ≠ 0 then (s.vecReplica t st (s.optWrites t e)).setWork q e.id (.status st)
  else
    let reads := s.optFirst t e
    let s := ((s.engEnter t .vector e.id reads []).engClose t .vector e.id).1
    let hs := s.peek hp 64
    let st := s.optStatus t e (hyperOk hs)
    let total : Word := BitVec.ofNat 32 (leNat (s.peek norm 4))
    let bad := s.poisoned hp 64 || s.poisoned norm 4
    let s := reads.foldl (fun s r => s.touch (r.1 % 2 ^ 52) r.2) s
    if st ≠ 0 then (s.vecReplica t st (s.optWrites t e)).setWork q e.id (.status st)
    else if (numOf total).isNan ∨ total = 0x7F80_0000 then
      ((s.raise (tractReg .optStat t) 0).emit (s.record .optNonfinite 11 t.val)).setWork q e.id (.status 11)
    else s.optPass t e (parseHyper hs) total bad net

/-- OPT: the optimizer pass over each parcel's shard records (R342). -/
def execOpt (t : Tract) (net : List NetReply) (s : State) : Result :=
  .next (s.vecStart t 1 (fun s e => s.optAct t e net) (fun e =>
    s.optBlocks e == 2 || s.engMay t .vector (s.optReadRuns t e) (s.optWriteRuns t e)))

end Sys2Proof.Machine
end

