-- ==== Sys2Proof/Machine/Dispatch.lean ====
section
/-!
DEFINITION. The one dispatch of commands to their meanings, arm by arm in the table's order.
-/
namespace Sys2Proof.Machine

/-- A command's effect on everything but the queue. -/
def exec (i : Instr) (s : State) : Host.Outcome State Fault Refusal :=
  match i with
  | .add x0 x1 => Sys2Proof.Machine.execAdd x0 x1 s
  | .sub x0 x1 => Sys2Proof.Machine.execSub x0 x1 s
  | .and x0 x1 => Sys2Proof.Machine.execAnd x0 x1 s
  | .or x0 x1 => Sys2Proof.Machine.execOr x0 x1 s
  | .xor x0 x1 => Sys2Proof.Machine.execXor x0 x1 s
  | .shl x0 x1 => Sys2Proof.Machine.execShl x0 x1 s
  | .shr x0 x1 => Sys2Proof.Machine.execShr x0 x1 s
  | .sra x0 x1 => Sys2Proof.Machine.execSra x0 x1 s
  | .mul x0 x1 => Sys2Proof.Machine.execMul x0 x1 s
  | .mulhu x0 x1 => Sys2Proof.Machine.execMulhu x0 x1 s
  | .mulhs x0 x1 => Sys2Proof.Machine.execMulhs x0 x1 s
  | .min x0 x1 => Sys2Proof.Machine.execMin x0 x1 s
  | .max x0 x1 => Sys2Proof.Machine.execMax x0 x1 s
  | .minu x0 x1 => Sys2Proof.Machine.execMinu x0 x1 s
  | .maxu x0 x1 => Sys2Proof.Machine.execMaxu x0 x1 s
  | .clz x0 x1 => Sys2Proof.Machine.execClz x0 x1 s
  | .popc x0 x1 => Sys2Proof.Machine.execPopc x0 x1 s
  | .extu x0 x1 => Sys2Proof.Machine.execExtu x0 x1 s
  | .addi x0 x1 => Sys2Proof.Machine.execAddi x0 x1 s
  | .andi x0 x1 => Sys2Proof.Machine.execAndi x0 x1 s
  | .ori x0 x1 => Sys2Proof.Machine.execOri x0 x1 s
  | .xori x0 x1 => Sys2Proof.Machine.execXori x0 x1 s
  | .shli x0 x1 => Sys2Proof.Machine.execShli x0 x1 s
  | .shri x0 x1 => Sys2Proof.Machine.execShri x0 x1 s
  | .srai x0 x1 => Sys2Proof.Machine.execSrai x0 x1 s
  | .muli x0 x1 => Sys2Proof.Machine.execMuli x0 x1 s
  | .addi32 x0 x1 => Sys2Proof.Machine.execAddi32 x0 x1 s
  | .andi32 x0 x1 => Sys2Proof.Machine.execAndi32 x0 x1 s
  | .ori32 x0 x1 => Sys2Proof.Machine.execOri32 x0 x1 s
  | .xori32 x0 x1 => Sys2Proof.Machine.execXori32 x0 x1 s
  | .muli32 x0 x1 => Sys2Proof.Machine.execMuli32 x0 x1 s
  | .li x0 x1 => Sys2Proof.Machine.execLi x0 x1 s
  | .ceq x0 x1 => Sys2Proof.Machine.execCeq x0 x1 s
  | .cne x0 x1 => Sys2Proof.Machine.execCne x0 x1 s
  | .clt x0 x1 => Sys2Proof.Machine.execClt x0 x1 s
  | .cltu x0 x1 => Sys2Proof.Machine.execCltu x0 x1 s
  | .cge x0 x1 => Sys2Proof.Machine.execCge x0 x1 s
  | .cgeu x0 x1 => Sys2Proof.Machine.execCgeu x0 x1 s
  | .pand x0 x1 => Sys2Proof.Machine.execPand x0 x1 s
  | .por x0 x1 => Sys2Proof.Machine.execPor x0 x1 s
  | .pxor x0 x1 => Sys2Proof.Machine.execPxor x0 x1 s
  | .pnot x0 x1 => Sys2Proof.Machine.execPnot x0 x1 s
  | .br x0 x1 => Sys2Proof.Machine.execBr x0 x1 s
  | .call x0 x1 => Sys2Proof.Machine.execCall x0 x1 s
  | .aadd x0 x1 => Sys2Proof.Machine.execAadd x0 x1 s
  | .aaddu x0 x1 => Sys2Proof.Machine.execAaddu x0 x1 s
  | .amov x0 x1 => Sys2Proof.Machine.execAmov x0 x1 s
  | .afromg x0 x1 => Sys2Proof.Machine.execAfromg x0 x1 s
  | .alog x0 x1 => Sys2Proof.Machine.execAlog x0 x1 s
  | .ahig x0 x1 => Sys2Proof.Machine.execAhig x0 x1 s
  | .asethi x0 x1 => Sys2Proof.Machine.execAsethi x0 x1 s
  | .ashl x0 x1 => Sys2Proof.Machine.execAshl x0 x1 s
  | .gets x0 x1 => Sys2Proof.Machine.execGets x0 x1 s
  | .getsa x0 x1 => Sys2Proof.Machine.execGetsa x0 x1 s
  | .puts x0 x1 => Sys2Proof.Machine.execPuts x0 x1 s
  | .jmp x0 x1 => Sys2Proof.Machine.execJmp x0 x1 s
  | .aaddi x0 x1 => Sys2Proof.Machine.execAaddi x0 x1 s
  | .alo x0 x1 => Sys2Proof.Machine.execAlo x0 x1 s
  | .ahi x0 x1 => Sys2Proof.Machine.execAhi x0 x1 s
  | .ldb x0 x1 => Sys2Proof.Machine.execLdb x0 x1 s
  | .ldbs x0 x1 => Sys2Proof.Machine.execLdbs x0 x1 s
  | .ldh x0 x1 => Sys2Proof.Machine.execLdh x0 x1 s
  | .ldhs x0 x1 => Sys2Proof.Machine.execLdhs x0 x1 s
  | .ldw x0 x1 => Sys2Proof.Machine.execLdw x0 x1 s
  | .lda x0 x1 => Sys2Proof.Machine.execLda x0 x1 s
  | .ldq x0 x1 => Sys2Proof.Machine.execLdq x0 x1 s
  | .stb x0 x1 => Sys2Proof.Machine.execStb x0 x1 s
  | .sth x0 x1 => Sys2Proof.Machine.execSth x0 x1 s
  | .stw x0 x1 => Sys2Proof.Machine.execStw x0 x1 s
  | .sta x0 x1 => Sys2Proof.Machine.execSta x0 x1 s
  | .stq x0 x1 => Sys2Proof.Machine.execStq x0 x1 s
  | .atomAdd x0 x1 => Sys2Proof.Machine.execAtomAdd x0 x1 s
  | .atomOr x0 x1 => Sys2Proof.Machine.execAtomOr x0 x1 s
  | .atomAnd x0 x1 => Sys2Proof.Machine.execAtomAnd x0 x1 s
  | .atomXor x0 x1 => Sys2Proof.Machine.execAtomXor x0 x1 s
  | .atomMaxu x0 x1 => Sys2Proof.Machine.execAtomMaxu x0 x1 s
  | .atomMinu x0 x1 => Sys2Proof.Machine.execAtomMinu x0 x1 s
  | .atomMax x0 x1 => Sys2Proof.Machine.execAtomMax x0 x1 s
  | .atomMin x0 x1 => Sys2Proof.Machine.execAtomMin x0 x1 s
  | .atomXchg x0 x1 => Sys2Proof.Machine.execAtomXchg x0 x1 s
  | .cas x0 x1 x2 => Sys2Proof.Machine.execCas x0 x1 x2 s
  | .cpy x0 x1 => Sys2Proof.Machine.execCpy x0 x1 s
  | .cpym x0 x1 x2 => Sys2Proof.Machine.execCpym x0 x1 x2 s
  | .cset x0 x1 => Sys2Proof.Machine.execCset x0 x1 s
  | .cget x0 x1 => Sys2Proof.Machine.execCget x0 x1 s
  | .cwait x0 x1 => Sys2Proof.Machine.execCwait x0 x1 s
  | .madd x0 x1 => Sys2Proof.Machine.execMadd x0 x1 s
  | .msub x0 x1 => Sys2Proof.Machine.execMsub x0 x1 s
  | .mwait x0 x1 => Sys2Proof.Machine.execMwait x0 x1 s
  | .mbar x0 x1 => Sys2Proof.Machine.execMbar x0 x1 s
  | .take x0 x1 => Sys2Proof.Machine.execTake x0 x1 s
  | .steal x0 x1 => Sys2Proof.Machine.execSteal x0 x1 s
  | .done x0 x1 => Sys2Proof.Machine.execDone x0 x1 s
  | .sleep x0 x1 => Sys2Proof.Machine.execSleep x0 x1 s
  | .halt x0 x1 => Sys2Proof.Machine.execHalt x0 x1 s
  | .trap x0 x1 => Sys2Proof.Machine.execTrap x0 x1 s
  | .fence x0 x1 => Sys2Proof.Machine.execFence x0 x1 s
  | .amode x0 x1 => Sys2Proof.Machine.execAmode x0 x1 s
  | .awload x0 x1 x2 => Sys2Proof.Machine.execAwload x0 x1 x2 s
  | .astream x0 x1 => Sys2Proof.Machine.execAstream x0 x1 s
  | .adrain x0 x1 => Sys2Proof.Machine.execAdrain x0 x1 s
  | .aclear x0 x1 => Sys2Proof.Machine.execAclear x0 x1 s
  | .astat x0 x1 => Sys2Proof.Machine.execAstat x0 x1 s
  | .arrayEntryComplete x0 => Sys2Proof.Machine.execArrayEntryComplete x0 s
  | .loadResponse x0 x1 => Sys2Proof.Machine.execLoadResponse x0 x1 s
  | .copyLanding x0 x1 x2 => Sys2Proof.Machine.execCopyLanding x0 x1 x2 s
  | .haltComplete x0 => Sys2Proof.Machine.execHaltComplete x0 s
  | .tileListOperation x0 => Sys2Proof.Machine.execTileListOperation x0 s
  | .watchdog x0 => Sys2Proof.Machine.execWatchdog x0 s
  | .coreEnterSleep x0 => Sys2Proof.Machine.execCoreEnterSleep x0 s
  | .coreEnterDeep x0 => Sys2Proof.Machine.execCoreEnterDeep x0 s
  | .coreWake x0 => Sys2Proof.Machine.execCoreWake x0 s
  | .copy x0 x1 => Sys2Proof.Machine.execCopy x0 x1 s
  | .fill x0 x1 => Sys2Proof.Machine.execFill x0 x1 s
  | .gather x0 x1 => Sys2Proof.Machine.execGather x0 x1 s
  | .scatter x0 x1 => Sys2Proof.Machine.execScatter x0 x1 s
  | .transpose x0 x1 => Sys2Proof.Machine.execTranspose x0 x1 s
  | .skew x0 x1 => Sys2Proof.Machine.execSkew x0 x1 s
  | .reblock x0 x1 => Sys2Proof.Machine.execReblock x0 x1 s
  | .moverEntryComplete x0 x1 => Sys2Proof.Machine.execMoverEntryComplete x0 x1 s
  | .plotSet x0 => Sys2Proof.Machine.execPlotSet x0 s
  | .start x0 => Sys2Proof.Machine.execStart x0 s
  | .dispatcherCoreStart x0 => Sys2Proof.Machine.execDispatcherCoreStart x0 s
  | .startTimeout x0 => Sys2Proof.Machine.execStartTimeout x0 s
  | .tload x0 x1 => Sys2Proof.Machine.execTload x0 x1 s
  | .tmplSet x0 x1 => Sys2Proof.Machine.execTmplSet x0 x1 s
  | .tclear x0 => Sys2Proof.Machine.execTclear x0 s
  | .tilePush x0 => Sys2Proof.Machine.execTilePush x0 s
  | .tileEntryWrite x0 => Sys2Proof.Machine.execTileEntryWrite x0 s
  | .tileOverflow x0 => Sys2Proof.Machine.execTileOverflow x0 s
  | .select x0 => Sys2Proof.Machine.execSelect x0 s
  | .rank x0 => Sys2Proof.Machine.execRank x0 s
  | .rankComplete x0 x1 => Sys2Proof.Machine.execRankComplete x0 x1 s
  | .rankPeerTimeout x0 x1 x2 => Sys2Proof.Machine.execRankPeerTimeout x0 x1 x2 s
  | .sort x0 => Sys2Proof.Machine.execSort x0 s
  | .scanTreeTimeout x0 => Sys2Proof.Machine.execScanTreeTimeout x0 s
  | .planDb x0 => Sys2Proof.Machine.execPlanDb x0 s
  | .planValidated x0 => Sys2Proof.Machine.execPlanValidated x0 s
  | .stepEnd => Sys2Proof.Machine.execStepEnd s
  | .snapshotDone x0 => Sys2Proof.Machine.execSnapshotDone x0 s
  | .boundary x0 => Sys2Proof.Machine.execBoundary x0 s
  | .planVote => Sys2Proof.Machine.execPlanVote s
  | .stepStart => Sys2Proof.Machine.execStepStart s
  | .boundaryTimeout => Sys2Proof.Machine.execBoundaryTimeout s
  | .dispatch x0 => Sys2Proof.Machine.execDispatch x0 s
  | .combine x0 => Sys2Proof.Machine.execCombine x0 s
  | .rscat x0 => Sys2Proof.Machine.execRscat x0 s
  | .agath x0 => Sys2Proof.Machine.execAgath x0 s
  | .bcast x0 => Sys2Proof.Machine.execBcast x0 s
  | .gnorm x0 => Sys2Proof.Machine.execGnorm x0 s
  | .creditUnit x0 x1 => Sys2Proof.Machine.execCreditUnit x0 x1 s
  | .slotStage x0 x1 => Sys2Proof.Machine.execSlotStage x0 x1 s
  | .slotFreeze x0 x1 x2 => Sys2Proof.Machine.execSlotFreeze x0 x1 x2 s
  | .slotTransmit x0 x1 => Sys2Proof.Machine.execSlotTransmit x0 x1 s
  | .contentFrame x0 x1 x2 => Sys2Proof.Machine.execContentFrame x0 x1 x2 s
  | .emptyFrame x0 x1 => Sys2Proof.Machine.execEmptyFrame x0 x1 s
  | .sack x0 x1 x2 x3 x4 => Sys2Proof.Machine.execSack x0 x1 x2 x3 x4 s
  | .slotAckTimeout x0 x1 => Sys2Proof.Machine.execSlotAckTimeout x0 x1 s
  | .frameIncompleteTimeout x0 x1 => Sys2Proof.Machine.execFrameIncompleteTimeout x0 x1 s
  | .exchangeTimeout x0 x1 => Sys2Proof.Machine.execExchangeTimeout x0 x1 s
  | .homeAgentRequest x0 x1 => Sys2Proof.Machine.execHomeAgentRequest x0 x1 s
  | .combiningEntryApply x0 x1 => Sys2Proof.Machine.execCombiningEntryApply x0 x1 s
  | .fabricCompletion x0 x1 => Sys2Proof.Machine.execFabricCompletion x0 x1 s
  | .memoryMessage x0 x1 => Sys2Proof.Machine.execMemoryMessage x0 x1 s
  | .engineOperationTimeout x0 x1 => Sys2Proof.Machine.execEngineOperationTimeout x0 x1 s
  | .epochAdvance => Sys2Proof.Machine.execEpochAdvance s
  | .epochDrainEnd => Sys2Proof.Machine.execEpochDrainEnd s
  | .fabStall x0 => Sys2Proof.Machine.execFabStall x0 s
  | .markHwr x0 x1 => Sys2Proof.Machine.execMarkHwr x0 x1 s
  | .markBcfgWrite x0 x1 x2 => Sys2Proof.Machine.execMarkBcfgWrite x0 x1 x2 s
  | .engMarkWait x0 => Sys2Proof.Machine.execEngMarkWait x0 s
  | .stashClaim x0 x1 x2 => Sys2Proof.Machine.execStashClaim x0 x1 x2 s
  | .stashRst x0 => Sys2Proof.Machine.execStashRst x0 s
  | .stashCfgWrite x0 x1 x2 => Sys2Proof.Machine.execStashCfgWrite x0 x1 x2 s
  | .vrun x0 => Sys2Proof.Machine.execVrun x0 s
  | .opt x0 x1 => Sys2Proof.Machine.execOpt x0 x1 s
  | .vectorEntryComplete x0 x1 => Sys2Proof.Machine.execVectorEntryComplete x0 x1 s
  | .vnop x0 => Sys2Proof.Machine.execVnop x0 s
  | .vadd x0 => Sys2Proof.Machine.execVadd x0 s
  | .vsub x0 => Sys2Proof.Machine.execVsub x0 s
  | .vmul x0 => Sys2Proof.Machine.execVmul x0 s
  | .vfma x0 => Sys2Proof.Machine.execVfma x0 s
  | .vaxpy x0 => Sys2Proof.Machine.execVaxpy x0 s
  | .vdiv x0 => Sys2Proof.Machine.execVdiv x0 s
  | .vsqrt x0 => Sys2Proof.Machine.execVsqrt x0 s
  | .vmin x0 => Sys2Proof.Machine.execVmin x0 s
  | .vmax x0 => Sys2Proof.Machine.execVmax x0 s
  | .vcmp x0 => Sys2Proof.Machine.execVcmp x0 s
  | .vcvt x0 => Sys2Proof.Machine.execVcvt x0 s
  | .vexp x0 => Sys2Proof.Machine.execVexp x0 s
  | .vlog x0 => Sys2Proof.Machine.execVlog x0 s
  | .vtanh x0 => Sys2Proof.Machine.execVtanh x0 s
  | .vrsqrt x0 => Sys2Proof.Machine.execVrsqrt x0 s
  | .vdot x0 => Sys2Proof.Machine.execVdot x0 s
  | .vrmax x0 => Sys2Proof.Machine.execVrmax x0 s
  | .vtree x0 => Sys2Proof.Machine.execVtree x0 s
  | .vfin x0 => Sys2Proof.Machine.execVfin x0 s
  | .vflg x0 => Sys2Proof.Machine.execVflg x0 s
  | .linkDetect x0 => Sys2Proof.Machine.execLinkDetect x0 s
  | .linkUp x0 x1 => Sys2Proof.Machine.execLinkUp x0 x1 s
  | .portDown x0 => Sys2Proof.Machine.execPortDown x0 s
  | .flitReceive x0 x1 => Sys2Proof.Machine.execFlitReceive x0 x1 s
  | .ctrlFlit x0 x1 => Sys2Proof.Machine.execCtrlFlit x0 x1 s
  | .resendLimit x0 x1 => Sys2Proof.Machine.execResendLimit x0 x1 s
  | .ackProgressTimeout x0 => Sys2Proof.Machine.execAckProgressTimeout x0 s
  | .windowFullTimeout x0 => Sys2Proof.Machine.execWindowFullTimeout x0 s
  | .flitSend x0 => Sys2Proof.Machine.execFlitSend x0 s
  | .param x0 x1 => Sys2Proof.Machine.execParam x0 x1 s
  | .downreq x0 => Sys2Proof.Machine.execDownreq x0 s
  | .timexfer x0 x1 => Sys2Proof.Machine.execTimexfer x0 x1 s
  | .abortNotice x0 x1 => Sys2Proof.Machine.execAbortNotice x0 x1 s
  | .linkCtlDown x0 => Sys2Proof.Machine.execLinkCtlDown x0 s
  | .timeFrame x0 => Sys2Proof.Machine.execTimeFrame x0 s
  | .sideFrame x0 => Sys2Proof.Machine.execSideFrame x0 s
  | .masterTimeSend => Sys2Proof.Machine.execMasterTimeSend s
  | .timexferPeriod => Sys2Proof.Machine.execTimexferPeriod s
  | .holdover => Sys2Proof.Machine.execHoldover s
  | .timeLost => Sys2Proof.Machine.execTimeLost s
  | .hostApertureAccess x0 => Sys2Proof.Machine.execHostApertureAccess x0 s
  | .flr => Sys2Proof.Machine.execFlr s
  | .pcieLinkDown => Sys2Proof.Machine.execPcieLinkDown s
  | .perstN x0 x1 => Sys2Proof.Machine.execPerstN x0 x1 s
  | .doorbell x0 x1 => Sys2Proof.Machine.execDoorbell x0 x1 s
  | .qRestart x0 x1 => Sys2Proof.Machine.execQRestart x0 x1 s
  | .sequencerTurn x0 => Sys2Proof.Machine.execSequencerTurn x0 s
  | .chainEntryFetch x0 x1 x2 => Sys2Proof.Machine.execChainEntryFetch x0 x1 x2 s
  | .cplFull x0 => Sys2Proof.Machine.execCplFull x0 s
  | .bind x0 => Sys2Proof.Machine.execBind x0 s
  | .arm => Sys2Proof.Machine.execArm s
  | .armValidated => Sys2Proof.Machine.execArmValidated s
  | .release => Sys2Proof.Machine.execRelease s
  | .releaseDrainTimeout => Sys2Proof.Machine.execReleaseDrainTimeout s
  | .releaseScrubDone => Sys2Proof.Machine.execReleaseScrubDone s
  | .powerOn => Sys2Proof.Machine.execPowerOn s
  | .resetNLow => Sys2Proof.Machine.execResetNLow s
  | .resetNRise x0 => Sys2Proof.Machine.execResetNRise x0 s
  | .rstReq x0 => Sys2Proof.Machine.execRstReq x0 s
  | .lockstepMismatch => Sys2Proof.Machine.execLockstepMismatch s
  | .internalResetEnd => Sys2Proof.Machine.execInternalResetEnd s
  | .oscWaitEnd => Sys2Proof.Machine.execOscWaitEnd s
  | .pllLockRetry => Sys2Proof.Machine.execPllLockRetry s
  | .bootPhaseDone x0 => Sys2Proof.Machine.execBootPhaseDone x0 s
  | .bootOverrun => Sys2Proof.Machine.execBootOverrun s
  | .arbCommit => Sys2Proof.Machine.execArbCommit s
  | .referenceLost => Sys2Proof.Machine.execReferenceLost s
  | .referenceRestored => Sys2Proof.Machine.execReferenceRestored s
  | .clkobsCtlWrite x0 => Sys2Proof.Machine.execClkobsCtlWrite x0 s
  | .powerBudgetPlan => Sys2Proof.Machine.execPowerBudgetPlan s
  | .parcelEstimate x0 x1 => Sys2Proof.Machine.execParcelEstimate x0 x1 s
  | .limiterWindow x0 => Sys2Proof.Machine.execLimiterWindow x0 s
  | .coefficientCorrection x0 x1 => Sys2Proof.Machine.execCoefficientCorrection x0 x1 s
  | .junctionSample x0 x1 => Sys2Proof.Machine.execJunctionSample x0 x1 s
  | .plotPwrWrite x0 x1 x2 => Sys2Proof.Machine.execPlotPwrWrite x0 x1 x2 s
  | .avsCurrentRead x0 x1 => Sys2Proof.Machine.execAvsCurrentRead x0 x1 s
  | .pmbusPoll x0 x1 x2 => Sys2Proof.Machine.execPmbusPoll x0 x1 x2 s
  | .pmbAlertN x0 => Sys2Proof.Machine.execPmbAlertN x0 s
  | .regulatorTimeout x0 => Sys2Proof.Machine.execRegulatorTimeout x0 s
  | .railFault x0 => Sys2Proof.Machine.execRailFault x0 s
  | .throttleN x0 x1 => Sys2Proof.Machine.execThrottleN x0 x1 s
  | .throtStuck => Sys2Proof.Machine.execThrotStuck s
  | .pathDelayReport x0 x1 => Sys2Proof.Machine.execPathDelayReport x0 x1 s
  | .dramTempSample x0 x1 => Sys2Proof.Machine.execDramTempSample x0 x1 s
  | .catchupEnd x0 => Sys2Proof.Machine.execCatchupEnd x0 s
  | .dramRefresh x0 x1 x2 => Sys2Proof.Machine.execDramRefresh x0 x1 x2 s
  | .patrolScrub x0 x1 x2 => Sys2Proof.Machine.execPatrolScrub x0 x1 x2 s
  | .cmLayoutWrite x0 x1 => Sys2Proof.Machine.execCmLayoutWrite x0 x1 s
  | .replCtlWrite x0 x1 => Sys2Proof.Machine.execReplCtlWrite x0 x1 s
  | .replicaRefill x0 x1 x2 => Sys2Proof.Machine.execReplicaRefill x0 x1 x2 s
  | .replicaWriteApplied x0 x1 => Sys2Proof.Machine.execReplicaWriteApplied x0 x1 s
  | .go => Sys2Proof.Machine.execGo s
  | .updateVerifyDone x0 => Sys2Proof.Machine.execUpdateVerifyDone x0 s
  | .stagingWrite x0 x1 => Sys2Proof.Machine.execStagingWrite x0 x1 s
  | .unlock x0 => Sys2Proof.Machine.execUnlock x0 s
  | .dbgNonceRead x0 x1 => Sys2Proof.Machine.execDbgNonceRead x0 x1 s
  | .getVersion x0 => Sys2Proof.Machine.execGetVersion x0 s
  | .getCapabilities x0 => Sys2Proof.Machine.execGetCapabilities x0 s
  | .negotiateAlgorithms x0 => Sys2Proof.Machine.execNegotiateAlgorithms x0 s
  | .getDigests x0 => Sys2Proof.Machine.execGetDigests x0 s
  | .getCertificate x0 => Sys2Proof.Machine.execGetCertificate x0 s
  | .challenge x0 => Sys2Proof.Machine.execChallenge x0 s
  | .getMeasurements x0 => Sys2Proof.Machine.execGetMeasurements x0 s
  | .keyExchange x0 => Sys2Proof.Machine.execKeyExchange x0 s
  | .finish x0 => Sys2Proof.Machine.execFinish x0 s
  | .heartbeat x0 => Sys2Proof.Machine.execHeartbeat x0 s
  | .endSession x0 => Sys2Proof.Machine.execEndSession x0 s
  | .errorRecordForward x0 => Sys2Proof.Machine.execErrorRecordForward x0 s
  | .evrCfgWrite x0 => Sys2Proof.Machine.execEvrCfgWrite x0 s
  | .stepAbort => Sys2Proof.Machine.execStepAbort s
  | .restore => Sys2Proof.Machine.execRestore s
  | .restored x0 => Sys2Proof.Machine.execRestored x0 s
  | .remap => Sys2Proof.Machine.execRemap s
  | .testmuxSelWrite x0 => Sys2Proof.Machine.execTestmuxSelWrite x0 s
  | .idcode => Sys2Proof.Machine.execIdcode s
  | .samplePreload => Sys2Proof.Machine.execSamplePreload s
  | .extest => Sys2Proof.Machine.execExtest s
  | .clamp => Sys2Proof.Machine.execClamp s
  | .highz => Sys2Proof.Machine.execHighz s
  | .privateInstruction x0 => Sys2Proof.Machine.execPrivateInstruction x0 s
  | .bypass => Sys2Proof.Machine.execBypass s
  | .tapReset => Sys2Proof.Machine.execTapReset s
  | .registerWrite x0 => Sys2Proof.Machine.execRegisterWrite x0 s
  | .pcieLinkUp => Sys2Proof.Machine.execPcieLinkUp s
  | .newVoltageReported x0 x1 => Sys2Proof.Machine.execNewVoltageReported x0 x1 s
  | .railRestored x0 => Sys2Proof.Machine.execRailRestored x0 s
  | .alertStuck => Sys2Proof.Machine.execAlertStuck s
  | .throttleNHoldEnd => Sys2Proof.Machine.execThrottleNHoldEnd s
  | .perstNHoldEnd => Sys2Proof.Machine.execPerstNHoldEnd s
  | .screenDue => Sys2Proof.Machine.execScreenDue s

end Sys2Proof.Machine
end

