-- ==== Sys2Proof/WellFormed.lean ====
section
/-!
DEFINITION. Well-formed commands: the operands that an environment can send. What a field of a message, of a frame or of an access can hold is
bounded by the width the spec gives the field. A core instruction needs no check here: its fields are bit vectors of their widths, and an
encoding that the core rejects raises ILLEGAL (R38), which is its effect.
-/
namespace Sys2Proof

/-- v fits in n bits. -/
def fits (v n : Nat) : Bool := decide (v < 2 ^ n)

/-- A host access to BAR0 of 1, 2, 4 or 8 bytes within its 64 MiB (R364, R442). -/
def RegAccess.wellFormed (a : RegAccess) : Bool :=
  ([1, 2, 4, 8] : List Nat).contains a.size && decide (a.offset + a.size ≤ 2 ^ 26) && fits a.value (8 * a.size)

/-- A host access to BAR2 lies within its largest size, 64 GiB, one to BAR0 within its 64 MiB, and one to the configuration header within its
64 bytes; BAR2 has one of seven sizes (R363, R364). -/
def HostAccess.wellFormed : HostAccess → Bool
  | .read off n => decide (off + n ≤ 2 ^ 36)
  | .write off data _ => decide (off + data.length ≤ 2 ^ 36)
  | .config off n => decide (off + n ≤ 64)
  | .resize k => decide (k < 7)
  | .bar off n => decide (off + n ≤ 2 ^ 26)

/-- A flit of 1,285 bytes (R348). -/
def Flit.wellFormed (f : Flit) : Bool := f.bytes.length == 1285

/-- The fields of a CTRL flit (R349). -/
def CtrlFlit.wellFormed (f : CtrlFlit) : Bool :=
  fits f.rxseq 12 && fits f.crMem 16 && fits f.crRsp 16 && fits f.crMgmt 16 && decide (f.retry.length ≤ 32) && f.retry.all (fun q => fits q 12)

/-- The fields of a PARAM message (R356). -/
def ParamMsg.wellFormed (m : ParamMsg) : Bool :=
  fits m.smod 12 && fits m.sport 4 && fits m.jobId 64 && fits m.modNum 12 && fits m.epoch 8 && fits m.crMem 16 && fits m.crRsp 16 &&
    fits m.crMgmt 16 && fits m.mapsum 64

/-- The header fields of a memory message and its data, at most 128 bytes (R354). -/
def MemMsg.wellFormed (m : MemMsg) : Bool :=
  fits m.mt 4 && fits m.op 4 && fits m.epoch 8 && fits m.hop 4 && fits m.status 4 && fits m.smod 12 && fits m.stract 4 && fits m.tag 16 &&
    fits m.addr 64 && fits m.opd 64 && fits m.cmp 64 && fits m.pmask 8 && decide (m.len ≤ 128 ∧ m.data.length ≤ 128)

/-- The fields of a frame header (R352). -/
def FrameHdr.wellFormed (h : FrameHdr) : Bool :=
  fits h.kind 8 && fits h.reason 8 && fits h.table 16 && fits h.pos 12 && fits h.smod 12 && fits h.sport 4 && fits h.inst 64 && fits h.step 64 &&
    decide (h.len ≤ 393216) && fits h.dmod 12

/-- The fields of a TIME frame (R359). -/
def TimeFrame.wellFormed (f : TimeFrame) : Bool := fits f.hop 8 && fits f.master 16 && fits f.mt 64 && fits f.corr 64

/-- The fields of a SIDE frame: its payload is bytes 8 to 63 (R359). -/
def SideFrame.wellFormed (f : SideFrame) : Bool := fits f.dmod 12 && fits f.smod 12 && decide (f.payload.length ≤ 56)

/-- A debug token: a body of 256 bytes and the two signatures of R398 (R409). -/
def Token.wellFormed (k : Token) : Bool := k.body.length == 256 && k.esig.length == 96 && k.lsig.length == 2964

/-- A TIMEXFER message has one of the four phases (R362). -/
def TimeXfer.wellFormed (m : TimeXfer) : Bool := decide (1 ≤ m.phase ∧ m.phase ≤ 4)

/-- Whether a command's operands lie within what the spec lets them hold. -/
def Instr.wellFormed : Instr → Bool
  | .registerWrite a => a.wellFormed
  | .hostApertureAccess a => a.wellFormed
  | .flitReceive _ f => f.wellFormed
  | .ctrlFlit _ f => f.wellFormed
  | .linkUp _ m => m.wellFormed
  | .param _ m => m.wellFormed
  | .memoryMessage _ m => m.wellFormed
  | .contentFrame _ h _ => h.wellFormed
  | .emptyFrame _ h => h.wellFormed
  | .timeFrame f => f.wellFormed
  | .sideFrame f => f.wellFormed
  | .timexfer _ m => m.wellFormed
  | .unlock k => k.wellFormed
  | .stagingWrite off data => decide (off + data.length ≤ 2 ^ 25)
  | .dbgNonceRead off n => decide (off + n ≤ 32)
  | .abortNotice m _ => fits m 12
  | .boundary m => fits m.smod 12 && fits m.done 64
  | .patrolScrub _ w _ => decide (w < 0x48_0000)
  | .junctionSample _ rs => rs.length == 64
  | .dramTempSample _ rs => rs.length == 48
  | _ => true

end Sys2Proof
end

