-- ==== Sys2Proof/Safety.lean ====
section
/-!
DEFINITION. What counts as a safe state: memory in its one canonical form, and no step of a job being aborted.
-/
namespace Sys2Proof.Machine

/-- A state whose memory is canonical. -/
abbrev State.memOk (s : State) : Prop := s.mem.wf

/-- A state in which no step is being aborted (R420). -/
def State.calm (s : State) : Bool := s.errs.abort.isNone

/-- A safe step: it answers a state whose memory is canonical. -/
def safeStep (s : State) : Prop := ∃ t, step s = .next t ∧ t.memOk

end Sys2Proof.Machine
end

