-- ==== Sys2Proof/Certificates/Slice0/Obligations.lean ====
section
/-!
DEFINITION. The statements for the provers, and the terms they are made of: what it takes for a core to issue, and what an instruction leaves
unchanged.
-/
namespace Sys2Proof.Claims
open Sys2Proof.Machine

/-- A core issues the instruction at its PC (R26, R34, R37, R38): it runs, nothing holds it, the n bytes of the instruction are sound and lie in
the program region, none of the structures that an issue uses fails its check, the guard holds, and the registers read have been written. -/
def Ready (s : State) (i : Issue) (n : Nat) (reads : List CReg) : Prop :=
  (s.core i.core).run = .running ∧ (s.core i.core).pwr = .run ∧ (s.core i.core).wait = none ∧
    (s.parcel (coreParcel i.core)).health.retired = false ∧ s.dead i.core.tract.val = false ∧ s.fetchBad i n = false ∧
    (wordOffsets (s.core i.core).pc.toNat n).all (s.core i.core).inProgram = true ∧ (s.core i.core).guardOk i.guard = true ∧
    (s.core i.core).operandWait reads = none ∧ s.coreBad i.core [0, 1, 4] = none

/-- Nothing but one core's record differs. -/
def OnlyCore (s t : State) (c : CoreId) : Prop := t = { s with cores := t.cores } ∧ ∀ c', c' ≠ c → t.core c' = s.core c'

/-- What of a core no register instruction writes: state registers, run state, latches, copies and held additions. -/
def KeptCore (k k' : Core) : Prop :=
  k'.progBase = k.progBase ∧ k'.progLimit = k.progLimit ∧ k'.arg0 = k.arg0 ∧ k'.arg1 = k.arg1 ∧ k'.run = k.run ∧ k'.pwr = k.pwr ∧
    k'.land = k.land ∧ k'.arrive = k.arrive ∧ k'.rels = k.rels ∧ k'.copies = k.copies ∧ k'.steal = k.steal ∧ k'.tsig = k.tsig

/-- An instruction of n bytes has written v to g(rd), g0 discarding it, and nothing else but the PC; an earlier result that was still to come to
the register no longer does (R26). -/
def WroteG (s t : State) (c : CoreId) (n : Nat) (rd : BitVec 5) (v : Word) : Prop :=
  OnlyCore s t c ∧ KeptCore (s.core c) (t.core c) ∧
    (t.core c).getG rd = (if rd = 0 then 0 else v) ∧ (∀ r, r ≠ rd → (t.core c).getG r = (s.core c).getG r) ∧
    (t.core c).a = (s.core c).a ∧ (t.core c).p = (s.core c).p ∧ (t.core c).ac = (s.core c).ac ∧ (t.core c).arriveSt = (s.core c).arriveSt ∧
    (t.core c).pc = (s.core c).pc + BitVec.ofNat 18 n ∧ (t.core c).wait = none ∧
    (t.core c).loads = ((s.core c).supersede (.g rd)).loads ∧ (t.core c).arr = ((s.core c).supersede (.g rd)).arr

/-- An instruction of n bytes has written v to a(rd) and nothing else but the PC. -/
def WroteA (s t : State) (c : CoreId) (n : Nat) (rd : BitVec 4) (v : DWord) : Prop :=
  OnlyCore s t c ∧ KeptCore (s.core c) (t.core c) ∧
    (t.core c).getA rd = v ∧ (∀ r, r ≠ rd → (t.core c).getA r = (s.core c).getA r) ∧
    (t.core c).g = (s.core c).g ∧ (t.core c).p = (s.core c).p ∧ (t.core c).ac = (s.core c).ac ∧ (t.core c).arriveSt = (s.core c).arriveSt ∧
    (t.core c).pc = (s.core c).pc + BitVec.ofNat 18 n ∧ (t.core c).wait = none ∧
    (t.core c).loads = ((s.core c).supersede (.a rd)).loads ∧ (t.core c).arr = ((s.core c).supersede (.a rd)).arr

/-- An instruction of n bytes has written v to predicate pd, p0 discarding it, and nothing else but the PC. -/
def WroteP (s t : State) (c : CoreId) (n : Nat) (pd : BitVec 3) (v : Bool) : Prop :=
  OnlyCore s t c ∧ KeptCore (s.core c) (t.core c) ∧
    (t.core c).getP pd = (if pd = 0 then true else v) ∧ (∀ r, r ≠ pd → (t.core c).getP r = (s.core c).getP r) ∧
    (t.core c).g = (s.core c).g ∧ (t.core c).a = (s.core c).a ∧ (t.core c).ac = (s.core c).ac ∧ (t.core c).arriveSt = (s.core c).arriveSt ∧
    (t.core c).pc = (s.core c).pc + BitVec.ofNat 18 n ∧ (t.core c).wait = none ∧
    (t.core c).loads = (s.core c).loads ∧ (t.core c).arr = (s.core c).arr

/-- The registers of a core but the PC are unchanged. -/
def SameRegs (k k' : Core) : Prop :=
  k'.g = k.g ∧ k'.a = k.a ∧ k'.p = k.p ∧ k'.ac = k.ac ∧ k'.arriveSt = k.arriveSt ∧ k'.loads = k.loads ∧ k'.arr = k.arr

/-- The operations of major 0x01 with two sources (R40). -/
def scalarOps : List ((Issue → FmtR → Instr) × (Word → Word → Word)) :=
  [(.add, fun x y => x + y), (.sub, fun x y => x - y), (.and, fun x y => x &&& y), (.or, fun x y => x ||| y), (.xor, fun x y => x ^^^ y),
   (.shl, fun x y => x <<< (y.toNat % 32)), (.shr, fun x y => x >>> (y.toNat % 32)), (.sra, fun x y => x.sshiftRight (y.toNat % 32)),
   (.mul, fun x y => x * y), (.mulhu, fun x y => (x.setWidth 64 * y.setWidth 64).extractLsb' 32 32),
   (.mulhs, fun x y => (x.signExtend 64 * y.signExtend 64).extractLsb' 32 32),
   (.min, fun x y => if x.toInt < y.toInt then x else y), (.max, fun x y => if x.toInt < y.toInt then y else x),
   (.minu, fun x y => if x.toNat < y.toNat then x else y), (.maxu, fun x y => if x.toNat < y.toNat then y else x),
   (.extu, fun x y => (x >>> (y.toNat % 32)) &&& BitVec.ofNat 32 (2 ^ (y.toNat / 32 % 32 + 1) - 1))]

/-- The immediate operations of major 0x02, with the immediates each admits (R38, R40). -/
def immediateOps : List ((Issue → FmtI → Instr) × (BitVec 8 → Bool) × (Word → BitVec 8 → Word)) :=
  [(.addi, fun _ => true, fun x m => x + m.signExtend 32), (.andi, fun _ => true, fun x m => x &&& m.zeroExtend 32),
   (.ori, fun _ => true, fun x m => x ||| m.zeroExtend 32), (.xori, fun _ => true, fun x m => x ^^^ m.zeroExtend 32),
   (.muli, fun _ => true, fun x m => x * m.signExtend 32), (.shli, fun m => decide (m.toNat < 32), fun x m => x <<< m.toNat),
   (.shri, fun m => decide (m.toNat < 32), fun x m => x >>> m.toNat), (.srai, fun m => decide (m.toNat < 32), fun x m => x.sshiftRight m.toNat)]

/-- The operations of major 0x22 that read a register (R40). -/
def longOps : List ((Issue → FmtIX → Instr) × (Word → Word → Word)) :=
  [(.addi32, fun x m => x + m), (.andi32, fun x m => x &&& m), (.ori32, fun x m => x ||| m), (.xori32, fun x m => x ^^^ m),
   (.muli32, fun x m => x * m)]

/-- The compares of majors 0x03 and 0x23 (R40). -/
def compareOps : List ((Issue → FmtC → Instr) × (Word → Word → Bool)) :=
  [(.ceq, fun x y => decide (x = y)), (.cne, fun x y => decide (x ≠ y)), (.clt, fun x y => decide (x.toInt < y.toInt)),
   (.cltu, fun x y => decide (x.toNat < y.toNat)), (.cge, fun x y => decide (y.toInt ≤ x.toInt)), (.cgeu, fun x y => decide (y.toNat ≤ x.toNat))]

/-- The predicate operations of two sources (R40). -/
def predicateOps : List ((Issue → FmtR → Instr) × (Bool → Bool → Bool)) :=
  [(.pand, fun x y => x && y), (.por, fun x y => x || y), (.pxor, fun x y => xor x y)]

/-- No check unit of a run of n bytes is poisoned or holds an error not yet found. -/
def Clean (s : State) (a n : Nat) : Prop := ∀ u ∈ unitsOf a n, u ∉ s.mem.poison ∧ u ∉ s.mem.ce ∧ u ∉ s.mem.ue ∧ inside u (unitSize u) s.mem.par = []

/-- The bytes of a run have become those given, and every other byte of memory reads as before. -/
def Stored (s t : State) (a : Nat) (bs : List Byte) : Prop :=
  ∀ x, byteAt t.mem.bytes x = if a ≤ x ∧ x < a + bs.length then bs.getD (x - a) 0 else byteAt s.mem.bytes x

/-- The loads of one g-register: bytes, and how they are extended (MEMORY class). -/
def loadOps : List ((Issue → FmtM → Instr) × Nat × (Nat → Word)) :=
  [(.ldb, 1, fun v => BitVec.ofNat 32 v), (.ldbs, 1, fun v => (BitVec.ofNat 8 v).signExtend 32), (.ldh, 2, fun v => BitVec.ofNat 32 v),
   (.ldhs, 2, fun v => (BitVec.ofNat 16 v).signExtend 32), (.ldw, 4, fun v => BitVec.ofNat 32 v)]

/-- The stores: their bytes, the rule for rt, the registers read and the number stored (MEMORY class). -/
def storeOps : List ((Issue → FmtM → Instr) × Nat × (BitVec 5 → Bool) × (BitVec 5 → List CReg) × (Core → BitVec 5 → Nat)) :=
  [(.stb, 1, fun _ => true, fun r => [.g r], fun k r => (k.getG r).toNat), (.sth, 2, fun _ => true, fun r => [.g r], fun k r => (k.getG r).toNat),
   (.stw, 4, fun _ => true, fun r => [.g r], fun k r => (k.getG r).toNat),
   (.sta, 8, fun r => decide (r.toNat < 16), fun r => [.a (r.setWidth 4)], fun k r => (k.getA (r.setWidth 4)).toNat),
   (.stq, 16, fun r => decide (r.toNat % 4 = 0 ∧ r ≠ 0), fun r => [.g r, .g (r + 1), .g (r + 2), .g (r + 3)],
     fun k r => (k.getG (r + 3) ++ k.getG (r + 2) ++ k.getG (r + 1) ++ k.getG r).toNat)]

/-- The atomics of major 0x0A: the number that results from the old one and the operand, at either width (R43). -/
def atomOps : List ((Issue → FmtA → Instr) × ((w : Nat) → BitVec w → BitVec w → BitVec w)) :=
  [(.atomAdd, fun _ m x => m + x), (.atomOr, fun _ m x => m ||| x), (.atomAnd, fun _ m x => m &&& x), (.atomXor, fun _ m x => m ^^^ x),
   (.atomMaxu, fun _ m x => if m.toNat < x.toNat then x else m), (.atomMinu, fun _ m x => if x.toNat < m.toNat then x else m),
   (.atomMax, fun _ m x => if m.toInt < x.toInt then x else m), (.atomMin, fun _ m x => if x.toInt < m.toInt then x else m),
   (.atomXchg, fun _ _ x => x)]

/-- The operand of an atomic in g(r): a register, or a pair with the low half first (R43). -/
def atomOpd (k : Core) (w64 : Bool) (r : BitVec 5) : BitVec (8 * atomSize w64) :=
  BitVec.ofNat _ (if w64 then (k.getG (r + 1) ++ k.getG r).toNat else (k.getG r).toNat)

/-- The registers of an atomic's operand or result (R43). -/
def pairOf (w64 : Bool) (r : BitVec 5) : List CReg := if w64 then [.g r, .g (r + 1)] else [.g r]

/-- An atomic of the commons or the slice that its core issues and nothing refuses or holds: its registers, its alignment, its region, sound
memory, and room among the 16 stores and atomics (R26, R43). -/
def AtomRuns (s : State) (i : Issue) (f : FmtA) (n : Nat) (reads : List CReg) : Prop :=
  (f.space = 1 ∨ f.space = 2) ∧ s.mem.wf = true ∧ s.storesUse i.core < 16 ∧
    (f.size = true → f.rd.toNat % 2 = 0 ∧ f.rs.toNat % 2 = 0) ∧ Ready s i n (.a f.ab :: pairOf f.size f.rs ++ reads) ∧
    ((s.core i.core).getA f.ab).toNat % atomSize f.size = 0 ∧ ((s.core i.core).getA f.ab).toNat + atomSize f.size ≤ spaceSize f.space ∧
    (f.space = 1 → s.cmOwned i.core.tract ((s.core i.core).getA f.ab).toNat = false) ∧
    (f.space = 2 → s.inReplica (spaceKey i.core 2 ((s.core i.core).getA f.ab).toNat) (atomSize f.size) = false) ∧
    Clean s (spaceKey i.core f.space ((s.core i.core).getA f.ab).toNat) (atomSize f.size)

/-- An atomic of n bytes has left new where its old value was, and returns the old value with the next response, or nothing with rd g0. -/
def AtomRan (s t : State) (i : Issue) (f : FmtA) (n : Nat) (new : BitVec (8 * atomSize f.size)) : Prop :=
  Stored s t (spaceKey i.core f.space ((s.core i.core).getA f.ab).toNat) (natLe (atomSize f.size) new.toNat) ∧
    (t.core i.core).g = (s.core i.core).g ∧ (t.core i.core).a = (s.core i.core).a ∧ (t.core i.core).p = (s.core i.core).p ∧
    (t.core i.core).pc = (s.core i.core).pc + BitVec.ofNat 18 n ∧ (∀ c', c' ≠ i.core → t.core c' = s.core c') ∧
    (f.rd = 0 → (t.core i.core).loads = (s.core i.core).loads) ∧
    (f.rd ≠ 0 → ∃ l r, (t.core i.core).loads.getLast? = some l ∧ l.parts.map (fun x => x.reg) = pairOf f.size f.rd ∧ l.resp = some r ∧
      r.status = 0 ∧ r.poison = 0 ∧ r.data = s.mem.read (spaceKey i.core f.space ((s.core i.core).getA f.ab).toNat) (atomSize f.size))

/-- What lies where an atomic acts. -/
def atomOld (s : State) (i : Issue) (f : FmtA) : BitVec (8 * atomSize f.size) :=
  BitVec.ofNat _ (leNat (s.mem.read (spaceKey i.core f.space ((s.core i.core).getA f.ab).toNat) (atomSize f.size)))

/-- A register of a core has its part of a load's data, zero- or sign-extended; g0 discards it. -/
def Filled (k : Core) (data : List Byte) (q : LoadPart) : Prop :=
  match q.reg with
  | .g r => k.getG r = if r = 0 then 0 else if q.sext then (BitVec.ofNat (8 * q.len) (fieldAt data q.lo q.len)).signExtend 32
      else BitVec.ofNat 32 (fieldAt data q.lo q.len)
  | .a r => k.getA r = if q.sext then (BitVec.ofNat (8 * q.len) (fieldAt data q.lo q.len)).signExtend 64
      else BitVec.ofNat 64 (fieldAt data q.lo q.len)

/-- The word that lies at a key of memory. -/
def wordAt (s : State) (a : Nat) : Word := BitVec.ofNat 32 (leNat (s.mem.read a 4))

/-- A core waits at the instruction at its PC, and nothing else has changed. -/
def WaitsAt (s t : State) (c : CoreId) (w : Wait) : Prop :=
  OnlyCore s t c ∧ KeptCore (s.core c) (t.core c) ∧ SameRegs (s.core c) (t.core c) ∧ (t.core c).pc = (s.core c).pc ∧ (t.core c).wait = some w

/-- A TAKE or STEAL has given its core a descriptor (R53, R176): its words in g(gd) to g(gd+3), pd 1, the record held, and nothing else but the PC. -/
def GotTile (s t : State) (c : CoreId) (gd : BitVec 5) (pd : BitVec 3) (d : BitVec 128) : Prop :=
  (∀ j : Fin 4, (t.core c).getG (gd + BitVec.ofNat 5 j.val) = d.extractLsb' (32 * j.val) 32) ∧
    (∀ r : BitVec 5, r.toNat / 4 ≠ gd.toNat / 4 → (t.core c).getG r = (s.core c).getG r) ∧ (t.core c).a = (s.core c).a ∧
    (t.core c).getP pd = true ∧ (∀ q, q ≠ pd → (t.core c).getP q = (s.core c).getP q) ∧ (t.core c).pc = (s.core c).pc + 4 ∧
    (t.core c).wait = none ∧ (t.core c).tsig = 0 ∧ ∃ h, (t.parcel (coreParcel c)).held.find? (fun q => decide (q.1 = c.core)) = some (c.core, h) ∧ h.desc = d

/-- A TAKE or STEAL has given its core nothing: pd 0, p0 discarding it, and nothing else but the PC. -/
def GotNone (s t : State) (c : CoreId) (pd : BitVec 3) : Prop :=
  (t.core c).g = (s.core c).g ∧ (t.core c).a = (s.core c).a ∧ (t.core c).getP pd = decide (pd = 0) ∧
    (∀ q, q ≠ pd → (t.core c).getP q = (s.core c).getP q) ∧ (t.core c).pc = (s.core c).pc + 4 ∧ (t.core c).wait = none

/-- A core whose instruction stops with an exception: the core stands in SLEEP at it with its registers, memory stays, and one CORE_FAULT record
of the cause joins the collector of its tract (R58, R413). -/
def Raised (s t : State) (c : CoreId) (cause : Nat) : Prop :=
  (t.core c).run = .stopped ∧ (t.core c).pwr = .sleep ∧ (t.core c).pc = (s.core c).pc ∧ SameRegs (s.core c) (t.core c) ∧ t.mem = s.mem ∧
    ∃ d, (t.fab c.tract).collector = [d] ∧ d.cls = .coreFault ∧ d.parcel = some c.parcel.val ∧ d.core = some c.core.val ∧
      fieldAt d.detail 0 1 = cause ∧ fieldAt d.detail 4 4 = (s.core c).pc.toNat

/-- An access of a core in space GL has entered its tract's request agent behind the entries there, with a number of its own, and the core goes on
n bytes behind (R254). Where it follows nothing and aims at this module outside the replica areas, it is ready for its home agent. -/
def EntersAgent (s t : State) (c : CoreId) (addr : Nat) (op : FabOp) (posted : Bool) (n : Nat) : Prop :=
  (∃ e ∈ (t.fab c.tract).ra, e.src = .core c ∧ e.addr = addr ∧ e.op = op ∧ e.posted = posted ∧ e.gen = (s.fab c.tract).nextGen ∧
    ((s.fab c.tract).ra = [] → (s.core c).arr.queue = [] → s.isOwn addr = true → s.inReplica (addr % 2 ^ 52) 16 = false → e.stage = .ready)) ∧
  (t.fab c.tract).ra.length = (s.fab c.tract).ra.length + 1 ∧ t.mem = s.mem ∧ (∀ c', c' ≠ c → t.core c' = s.core c') ∧
  (t.core c).g = (s.core c).g ∧ (t.core c).a = (s.core c).a ∧ (t.core c).p = (s.core c).p ∧
  (t.core c).pc = (s.core c).pc + BitVec.ofNat 18 n ∧ (t.core c).wait = none

/-- The load of a GL access is outstanding, to be answered under the number it entered the request agent with. -/
def AwaitsLoad (s t : State) (c : CoreId) (addr n : Nat) (regs : List CReg) : Prop :=
  ∃ l, (t.core c).loads.getLast? = some l ∧ (t.core c).loads.length = (s.core c).loads.length + 1 ∧ l.addr = addr ∧ l.size = n ∧ l.space = 3 ∧
    l.parts.map (fun x => x.reg) = regs ∧ l.resp = none ∧ l.gen = some (s.fab c.tract).nextGen

/-- No gang holds the core's array, no restore runs and no record waits in the tract's collector: an exception of the core leaves one record. -/
def Quietly (s : State) (c : CoreId) : Prop := (s.core c).arr.cfg = none ∧ s.up.restore = .idle ∧ (s.fab c.tract).collector = []

/-- Nothing that a release of the core waits for is open, and its tract's request agent is empty (R51). -/
def Settled (s : State) (c : CoreId) : Prop := (s.core c).rels = [] ∧ (s.core c).arr.queue = [] ∧ (s.fab c.tract).ra = []

/-- An array instruction of n bytes has joined the array queue behind q, and nothing else of the core's registers has changed. -/
def Queued (s t : State) (c : CoreId) (q : List ArrEntry) (op : ArrOp) (n : Nat) : Prop :=
  (t.core c).arr.queue = q ++ [{ id := (s.core c).arr.nextId, pc := (s.core c).pc.toNat, op := op }] ∧
    (t.core c).pc = (s.core c).pc + BitVec.ofNat 18 n ∧ (t.core c).wait = none ∧ (t.core c).g = (s.core c).g ∧ (t.core c).a = (s.core c).a ∧
    (t.core c).p = (s.core c).p ∧ (t.core c).arr.cfg = (s.core c).arr.cfg ∧ (t.core c).arr.slots = (s.core c).arr.slots ∧
    t.mem.bytes = s.mem.bytes ∧ KeptCore (s.core c) (t.core c) ∧ ∀ c', c' ≠ c → t.core c' = s.core c'

/-- The one entry an engine's queue holds, which it may start now (R18, R295). -/
def Begins (s : State) (q : QueueId) (e : QEntry) : Prop := s.startable q = some e ∧ (s.queue q).entries = [e]

/-- An entry that signals no mark and asks for no completion record, in a queue without a restart held: its end changes nothing else. -/
def Quiet (s : State) (q : QueueId) (e : QEntry) : Prop := e.sga = 0 ∧ e.cpl = false ∧ (s.queue q).hold = none

/-- The one entry of a queue is in progress, its work done with a status. -/
def WorkDone (t : State) (q : QueueId) (e : QEntry) (st : Nat) : Prop :=
  (t.queue q).entries = [{ e with started := true, work := .status st }]

/-- An entry has left its queue without a fault, and the queue goes on. -/
def Left (s t : State) (q : QueueId) : Prop := (t.queue q).entries = [] ∧ (t.queue q).stopped = (s.queue q).stopped

/-- An engine's entry has faulted: the queue has stopped with cause 3 and one record of the class stands in the collector (R20, R370). -/
def Faulted (t : State) (q : QueueId) (cls : RecClass) (st : Nat) : Prop :=
  (t.queue q).entries = [] ∧ (t.queue q).stopped = true ∧ (t.queue q).cause = 3 ∧
    ∃ r, (t.fab q.tract).collector = [r] ∧ r.cls = cls ∧ fieldAt r.detail 0 1 = st

/-- A run of bytes of this module, in no dead tract and outside the tile list region, all of whose check units are sound. -/
def Sound (s : State) (ga n : Nat) : Prop :=
  s.isOwn ga = true ∧ s.deadAt ga = false ∧ Clean s (ga % 2 ^ 52) n ∧
    ∀ x off p, ga % 2 ^ 52 ≤ x → x < ga % 2 ^ 52 + n → windowOf (gaOffset x) = .commons off → keyParcel x = some p → s.cmTile p off = false

/-- The agents of every tract hold nothing and take what an engine of the tract asks of them, and no replica line is valid at the tract: what the
engine reads and writes in this module meets memory as it is (R254, R266, R268, R152). -/
def Unshared (s : State) (t : Tract) : Prop :=
  (∀ x, (s.fab x).ra = [] ∧ (s.fab x).comb = [] ∧ s.homeRoom x false = true) ∧ (s.fab t).replOk = []

/-- The Dispatcher may read a run of records now, and every line of it that lies on another module has a route (R254, R256, R266, R276). -/
def DispatcherReads (s : State) (t : Tract) (ga n : Nat) : Prop :=
  s.engMay t .dispatcher [(ga, n)] [] = true ∧ (∀ x, (s.fab x).ra = [] ∧ (s.fab x).comb = []) ∧ s.deadAt ga = false ∧
    (gaModule ga = s.job.moduleId.toNat → Clean s (ga % 2 ^ 52) n) ∧
    ∀ q ∈ s.foreignLines [(ga, n)], ∃ p, s.lineRoute (s.regBits (modReg .fabCtl) 9 8) q.1 = .inl p

/-- Two runs of memory share no byte. -/
def Apart (a n b m : Nat) : Prop := a + n ≤ b ∨ b + m ≤ a

/-- The index list of a GATHER or SCATTER (R157). -/
def moverIndex (s : State) (m : MovEntry) : List Nat := (List.range m.idxcnt).map (fun i => leNat (s.peek (m.idx % 2 ^ 52 + 4 * i) 4))

/-- What a Mover entry writes, as addresses and bytes, from memory as it is (R157 to R159). -/
def moved (s : State) (m : MovEntry) : List (Nat × List Byte) :=
  let row (i : Nat) : Nat := (m.dst + i * m.ds) % 2 ^ 64
  let srcAt (i : Nat) : Nat := (m.src + i * m.ss) % 2 ^ 64 % 2 ^ 52
  let rows : List (List MByte) := (List.range m.rows).map (fun i => s.mread (srcAt i) (m.srow m.cols))
  let scales (i : Nat) : List MByte := s.mread ((m.sscale + i * m.scss) % 2 ^ 64 % 2 ^ 52) (blocksOf m.cols)
  match m.op with
  | 0 => (List.range m.rows).map (fun i => (row i, s.peek (srcAt i) m.cols))
  | 1 => (List.range m.rows).map (fun i => (row i, (List.range m.cols).map (fun j => BitVec.ofNat 8 (m.pattern / 256 ^ (j % 4) % 256))))
  | 2 => (moverIndex s m).zipIdx.map (fun q => (row q.2, if q.1 = 0xFFFF_FFFF then List.replicate m.cols 0 else s.peek (srcAt q.1) m.cols))
  | 3 => ((moverIndex s m).zipIdx.filter (fun q => decide (q.1 ≠ 0xFFFF_FFFF))).map (fun q => (row q.1, s.peek (srcAt q.2) m.cols))
  | 4 => (List.range m.cols).map (fun j => (row j, mdata (packElems m.sbits (m.srow m.rows) (rows.map (fun r => rowElem m.sbits r j)))))
  | 5 =>
    (List.range m.nch).map (fun c => ((m.dst + c * m.chunkBytes) % 2 ^ 64, mdata (m.skewChunk rows c))) ++
      (if fmtIsMx (mfFmt m.sfmt) then
        (List.range (blocksOf m.cols)).map (fun b => ((m.dscale + 64 * b) % 2 ^ 64,
          (List.range m.m).map (fun i => (((scales i)[b]?).getD (0, false)).1)))
      else [])
  | _ =>
    let es : List (List ReElem) := rows.zipIdx.map (fun q => m.reRow q.1 (scales q.2) q.2)
    (List.range (if m.transp then m.cols else m.rows)).flatMap (fun o =>
      [(row o, mdata (m.reRowOut es o).1), ((m.dscale + o * m.dscs) % 2 ^ 64, mdata (m.reRowOut es o).2.1)])

/-- The Mover's commands by OP (R155). -/
def moverOps : List (Nat × (Tract → List NetReply → Instr)) :=
  [(0, .copy), (1, .fill), (2, .gather), (3, .scatter), (4, .transpose), (5, .skew), (6, .reblock)]

/-- The job has this module alone (R253): the root of the tree, without children. -/
def Alone (s : State) : Prop := s.treeParent = none ∧ s.treeKids = []

/-- The entry of a request agent with a number has been answered. -/
def Answered (u : State) (t : Tract) (gen : Nat) (r : Response) : Prop :=
  ∃ x, (u.fab t).ra.find? (fun x => decide (x.gen = gen)) = some x ∧ x.stage = .answered r

/-- A home agent may take an entry of a request agent now, with nothing combining on its side (R262, R266, R268, R279). -/
def MayServe (s : State) (t src : Tract) (tag : Nat) (e : RaEntry) : Prop :=
  s.readyEntry src tag = some e ∧ s.haBlocked src e false = false ∧ s.replicaOf src e = none ∧ gaBad e.addr = false ∧ gaTract e.addr = t.val ∧
    s.dead t.val = false ∧ s.haMay t e.stamp false = true ∧ (s.fab t).comb = []

/-- A mark of a parcel that counts and is sound (R281, R297). -/
def Counts (s : State) (p : ParcelId) (n : BitVec 10) : Prop :=
  s.barrierN p n = none ∧ (s.parcel p).frozen.contains n = false ∧ s.markDamaged p n = false

/-- A host write to a register takes effect: the module is READY or later, and the register's tract answers (R446, R447). -/
def HostMay (s : State) (k : RegKey) : Prop := s.job.state.trains = true ∧ (k.r.row.scope = .module ∨ s.tractServed k.t = true)

/-- No word of memory holds an error that no read has found. -/
def NoHidden (s : State) : Prop := s.mem.ce = [] ∧ s.mem.ue = []

/-- The commands of a vector engine by VOP (R333). -/
def vectorOps : List (Nat × (ParcelId → Instr)) :=
  [(0x00, .vnop), (0x01, .vadd), (0x02, .vsub), (0x03, .vmul), (0x04, .vfma), (0x05, .vaxpy), (0x06, .vdiv), (0x07, .vsqrt), (0x08, .vmin),
   (0x09, .vmax), (0x0A, .vcmp), (0x0B, .vcvt), (0x0C, .vexp), (0x0D, .vlog), (0x0E, .vtanh), (0x0F, .vrsqrt), (0x10, .vdot), (0x11, .vrmax),
   (0x12, .vtree), (0x13, .vfin), (0x14, .vflg)]

/-- Element i of an operand of a descriptor, as a number (R333). -/
def opdNum (s : State) (p : ParcelId) (sp off fmt i : Nat) : Machine.Num :=
  vecNum fmt (leNat (s.mem.read (vecKey p sp off + i * vecWidth fmt) (vecWidth fmt)))

/-- The operands of a descriptor lie where they may, are sound, and no run it writes shares a byte with another. -/
def OperandsApart (s : State) (p : ParcelId) (d : VDesc) : Prop :=
  s.vecStatus p d = 0 ∧ (∀ o ∈ d.operands, Clean s (vecKey p o.sp o.off) o.len) ∧
    d.operands.Pairwise (fun a b => a.write = true ∨ b.write = true → Apart (vecKey p a.sp a.off) a.len (vecKey p b.sp b.off) b.len)

/-- Element i of a shard as its five arrays hold it (R343). -/
def shardElem (s : State) (p : ParcelId) (r : ShardRec) (i : Nat) : OptElem :=
  { w := leNat (s.mem.read (sliceKey p (r.mw + 2 * i)) 2), r := leNat (s.mem.read (sliceKey p (r.rem + 2 * i)) 2),
    m := BitVec.ofNat 32 (leNat (s.mem.read (sliceKey p (r.mo + 4 * i)) 4)), v := leNat (s.mem.read (sliceKey p (r.vo + 2 * i)) 2),
    g := leNat (s.mem.read (sliceKey p (r.go + 2 * i)) 2) }

/-- A record of a class waits in the control die's queue. -/
def Logged (s : State) (c : RecClass) : Prop := ∃ r ∈ s.errs.cdQueue, r.cls = c

/-- The hottest of a list of readings, a sensor that fails its self-check reading d. -/
def Hottest (rs : List (Option Nat)) (d m : Nat) : Prop := (∃ r ∈ rs, r.getD d = m) ∧ ∀ r ∈ rs, r.getD d ≤ m

/-- Burns of a running image with COMMIT are still to be made (R400). -/
def Burning (s : State) : Prop :=
  s.job.state.trains = true ∧ s.regBits (modReg .secStat) 12 12 = 0 ∧ ∃ im, s.up.sec.running = some im ∧ im.commit = true

/-- Fuses over a reset or loss of power: a burnt one stays burnt, and none is burnt but by burns that it cuts off (R396, R400). -/
def FusesKept (s t : State) : Prop :=
  s.up.sec.arb ≤ t.up.sec.arb ∧ (∀ n, s.up.sec.krevoke.testBit n = true → t.up.sec.krevoke.testBit n = true) ∧
    (¬Burning s → t.up.sec.arb = s.up.sec.arb ∧ t.up.sec.krevoke = s.up.sec.krevoke) ∧ t.up.sec.ltree = s.up.sec.ltree

/-- What a module reset leaves whatever its cause (R390): no job, memory and cores as at power-on; AO_TIME, the error log and its sequence
numbers, and fuses stay. -/
def AfterReset (s t : State) : Prop :=
  t.job = Job.reset ∧ t.mem = Mem.reset ∧ t.cores = [] ∧ t.queues = [] ∧ t.aoTime = s.aoTime ∧ t.errs.log = s.errs.log ∧
    t.errs.nextSeq = s.errs.nextSeq ∧ FusesKept s t

/-- The working parcels of a tract stand at step 0. -/
def AtStepZero (s t : State) (x : Tract) : Prop := ∀ p : ParcelId, p.tract = x → s.working p = true → (t.parcel p).health.step = 0

/-- What an SPDM request leaves that is answered with a message and changes nothing else but the transcript (R405). -/
def spdmAnswered (s : State) (r : SpdmReq) (code : Nat) (body : List Byte) : State :=
  { s with
    out := s.out ++ [.spdm code body]
    up := { s.up with sec := { s.up.sec with spdm := { s.up.sec.spdm with
      heard := s.up.sec.spdm.heard ++ r.body ++ (natLe 1 code ++ body) } } } }

/-- Registers of the control die that a host write changes by their access codes and rules alone. -/
def plainRegs : List RegName := [.optCtl, .stepCfg, .fabCtl, .pwrCtl, .relCtl]

/-- What a write leaves in a field while RWL fields are locked (R3, R4, R474): v is the value written, old the value the register held. -/
def lockedField (f : RegField) (v old : Nat) : Nat :=
  match f.acc with
  | .rw => bitsOf v f.hi f.lo
  | .w1c => bitsOf old f.hi f.lo - (bitsOf old f.hi f.lo &&& bitsOf v f.hi f.lo)
  | _ => bitsOf old f.hi f.lo

/-- Nothing but the test access port, its boundary-scan cells and the count of free values has changed. -/
def PortOnly (s t : State) : Prop :=
  t = { s with up := { s.up with tap := t.up.tap, tapDr := t.up.tapDr, cells := t.up.cells, preload := t.up.preload }, free := t.free }

/-- The elements of a packed row of a core's local store, as codes (R105). -/
def packedAt (s : State) (c : CoreId) (row bits idx : Nat) : Nat :=
  leNat (s.mem.read (storeKey c (row + bits * idx / 8)) 9) / 2 ^ (bits * idx % 8) % 2 ^ bits

/-- The weight of K position k of chunk j and column n, as a member reads it (R88): in the row of its K position, or with TURN in that of its column;
its scale lies with its block, or with TURN with its K position. -/
def weightAt (s : State) (x : CoreId) (g : ArrCfg) (i aw ax rs kc : Nat) (turn : Bool) (first kpos j k n : Nat) : Elem :=
  s.readElem x (elemBits (g.fmt i)) (if turn then aw + n * rs else aw + (j * kc + k) * rs) (if turn then j * kc + k else n)
    (if fmtIsMx (g.fmt i) then some (if turn then ax + j * kc + k else ax + 8 * ((kpos + k) / 32 - first / 32) + n) else none)

/-- The stream element of row r at K position k of chunk j, as a west member reads it (R63, R65, R88): in the skewed words of the chunk, or with TURN in
the row of its K position. -/
def streamAt (s : State) (x : CoreId) (g : ArrCfg) (i a ax m rs kc : Nat) (turn : Bool) (first kpos j k r : Nat) : Elem :=
  let e := g.perCell i
  let k' := k % (8 * e)
  s.readElem x (elemBits (g.fmt i))
    (if turn then a + (j * kc + k) * rs else a + (j * (m + 7) + r + k' / e) * wordBytes (g.fmt i))
    (if turn then r else if g.fmt i = 6 then 2 * (k' / e) + k' % e else k' / e)
    (if fmtIsMx (g.fmt i) then some (if turn then ax + 2 * (j * kc + k) + r / 32 else ax + 64 * ((kpos + k) / 32 - first / 32) + r) else none)

/-- The member of a core's gang of gz rows and columns at gang row r and column q (R75). -/
def memberAt (c : CoreId) (gz r q : Nat) : CoreId :=
  { c with core := Fin.ofNat 64 (8 * (c.core.val / 8 / gz * gz + r) + (c.core.val % 8 / gz * gz + q)) }

/-- The members of a gang stand together at the head of their queues with one part of an instruction each, none of their structures failing and no
error in memory that is not yet found. -/
def TeamAt (s : State) (c : CoreId) (gz : Nat) (g : Nat → Nat → ArrCfg) (op : Nat → Nat → ArrOp) : Prop :=
  s.dead c.tract.val = false ∧ s.up.restore = .idle ∧ (s.fab c.tract).ra = [] ∧ s.mem.ce = [] ∧ s.mem.ue = [] ∧ s.mem.par = [] ∧ gangMembers c gz = (List.range (gz * gz)).map (fun j => memberAt c gz (j / gz) (j % gz)) ∧
    ∀ r q, r < gz → q < gz → (s.core (memberAt c gz r q)).arr.cfg = some (g r q) ∧ (s.core (memberAt c gz r q)).arr.formed = true ∧
      (g r q).size = gz ∧ (g r q).grow.toNat = r ∧ (g r q).gcol.toNat = q ∧ (g r q).mode = (g 0 0).mode ∧ (g r q).fmts = (g 0 0).fmts ∧
      (g r q).ord6 = (g 0 0).ord6 ∧ (g r q).layout = (g 0 0).layout ∧
      ((s.core (memberAt c gz r q)).arr.queue.head?.map (fun e => e.op)) = some (op r q) ∧ (op 0 0).agrees (op r q) = true ∧
      (s.core (memberAt c gz r q)).wait = none ∧ (s.core (memberAt c gz r q)).rels = [] ∧ s.coreBad (memberAt c gz r q) [2, 3] = none

/-- What the slot of a column drains as, each pending value folded first (R71, R82). -/
def drainedAt (s : State) (x : CoreId) (g : ArrCfg) (i : Nat) (d : DrainDesc) (lo n slot biasAt : Nat) : DrainElem :=
  let sl := (s.core x).slot (lo + n) slot
  drainValue g i d (if sl.bad then sl else (sl.fold g.mode.toNat (g.fmt i == 7)).1)
    (if d.bias then some (leNat (s.mem.read (storeKey x biasAt) 4), s.poisoned (storeKey x biasAt) 4) else none) slot

/-- Output row m of a core: its columns, group after group (R82, R84). -/
def drainedRow (s : State) (x : CoreId) (g : ArrCfg) (i : Nat) (d : DrainDesc) (lo w sb cnt m : Nat) : List DrainElem :=
  (List.range (gatherGroups g d)).flatMap (fun j =>
    (List.range w).map (fun n => drainedAt s x g i d lo n (sb + m + j * cnt) (d.baddr + 4 * (8 * j + n))))

/-- The block of column n and rows 32 b to 32 b + 31 (R84). -/
def drainedCol (s : State) (x : CoreId) (g : ArrCfg) (i : Nat) (d : DrainDesc) (lo sb n b : Nat) : List DrainElem :=
  (List.range 32).map (fun m => drainedAt s x g i d lo n (sb + 32 * b + m) (d.baddr + 4 * n))

/-- Every byte of memory is sound, and no region is replicated. -/
def AllSound (s : State) : Prop :=
  s.mem.wf = true ∧ s.mem.poison = [] ∧ s.mem.ce = [] ∧ s.mem.ue = [] ∧ s.mem.par = [] ∧ ∀ key n, s.inReplica key n = false

/-- The rows that the accepted choices of a layer's SORT entries stand for, in the order of the scan tree: tract, parcel, row, choice (R203). -/
def sortChoices (s : State) (l : LayerRec) (r : Tract → RouteEntry) : List SortRow :=
  allTracts.flatMap (fun v => ((s.tokensOf v (r v).plot (r v).selOff l.k (r v).ntok (r v).empty).filter (fun x => !x.bad)).flatMap (fun x =>
    (x.choices.filter (fun c => c.acc)).filterMap (fun c =>
      (if c.expert < l.e then s.cadOf l c.expert else none).map (fun d => { tract := v, tok := x, ch := c, cad := d, mrow := 0 }))))

/-- Those rows with the number each has among the rows of its expert, and, in the backward direction, without those its exchange overflowed (R203,
R206). -/
def sortNumbered (s : State) (l : LayerRec) (r : Tract → RouteEntry) (bwd : Bool) : List SortRow :=
  ((sortChoices s l r).zipIdx.map (fun q =>
    { q.1 with mrow := (((sortChoices s l r).take q.2).filter (fun y => decide (y.ch.expert = q.1.ch.expert))).length })).filter (fun x => x.ch.carried bwd)

/-- A tract's rows in the order of its send region (R204). -/
def sortedRows (s : State) (l : LayerRec) (r : Tract → RouteEntry) (bwd : Bool) (v : Tract) : List SortRow :=
  sortBy sendLe ((sortNumbered s l r bwd).filter (fun x => decide (x.tract = v)))

/-- Only the LAND latches of the tract's cores differ, and what a SLEEP that waits for LAND does on its return (R54). -/
def OnlyLand (s u : State) (t : Tract) : Prop :=
  ∀ c : CoreId, (c.tract ≠ t → u.core c = s.core c) ∧
    ((∀ g m th, (s.core c).wait ≠ some (.sleep g m th)) → u.core c = { s.core c with land := (u.core c).land })

/-- The one segment of a credit path, with a credit for its last unit, of an exchange that its tract has started and that waits for more. -/
def LastUnit (s : State) (t : Tract) (src : CreditSrc) (i : XItem) (x : Exch) : Prop :=
  s.xfer.paths.get (t, src) [] = [i] ∧ i.units = 1 ∧ i.flight = 1 ∧ s.exchOf t (segKey i.seg) = some x ∧
    ∀ u y, src = .tract u → s.exchOf u (segKey i.seg) = some y → y.out ≠ []

/-- What a choice of a token brings to its combined row: the gate and the row's element j as numbers (R243). -/
def combineTerm (s : State) (l : LayerRec) (f : XferEntry) (x : Machine.Token) (c : Machine.Choice) (j : Nat) : Machine.Num × Machine.Num :=
  let at_ := f.retOff + (x.row * l.k + c.c) * l.rowb + 16 + j * (if f.obf16 then 2 else 4)
  (numOf (if f.gated then BitVec.ofNat 32 (leNat (s.mem.read (sliceKey x.parcel (f.gateOff + 64 * x.row + 4 * c.c)) 4)) else 0x3F80_0000),
   numOf (if f.obf16 then fpWiden bf16 (leNat (s.mem.read (sliceKey x.parcel at_) 2)) else BitVec.ofNat 32 (leNat (s.mem.read (sliceKey x.parcel at_) 4))))

/-- The rows that a port die holds to relay to a module, in order (R233). -/
def relayRows (s : State) (d : Fin 8) (dmod : Nat) : List RowData :=
  ((s.relaysOf d).filter (fun r => decide (r.dmod = dmod))).flatMap (fun r => r.segs.flatMap (fun g => g.rows))

end Sys2Proof.Claims

open Sys2Proof Sys2Proof.Machine Sys2Proof.Claims

/-- For every command c and state s, a step of s with c at the front of its queue is exec of c on s with the queue's rest. That the commands wait in a queue, taken first in, first out, is the model's own form (assumption log 1). A step of a state whose queue is empty answers a state in which AO_TIME counts one period more, modulo 2^64, and MTIME is 40 ns later; memory, cores, parcels, registers, queues and what the module has sent stay. That an idle step is one AOCLK period is the model's choice (assumption log 2). (R12, R395, R360) -/
def Obligations.StepRunsFrontCommand : Prop :=
  (∀ (c : Instr) (rest : List Instr) (s : State), step { s with pending := c :: rest } = exec c { s with pending := rest }) ∧
  ∀ (s : State), s.pending = [] → ∃ t, step s = .next t ∧ t.aoTime = (s.aoTime + 1) % 2 ^ 64 ∧ t.mtime = (s.mtime + 40) % 2 ^ 64 ∧ t.mem = s.mem ∧
    t.cores = s.cores ∧ t.parcels = s.parcels ∧ t.regs = s.regs ∧ t.queues = s.queues ∧ t.out = s.out ∧ t.job.state = s.job.state

/-- From any state, a step of any command, or of none, keeps each of these, where it held of every core or parcel before: an array queue has at most 8 entries, a core has at most 32 copies in flight and at most 8 loads outstanding outside its local store, and a parcel's tile list is no longer than the capacity that CM_LAYOUT gives it. The reset state has them all: nothing waits in it. (R26, R78, R138, R169, R180) -/
def Obligations.StepKeepsBounds : Prop :=
  ∀ (s t : State), step s = .next t →
    ((∀ c, (s.core c).arr.queue.length ≤ 8) → ∀ c, (t.core c).arr.queue.length ≤ 8) ∧
    ((∀ c, (s.core c).copies.length ≤ 32) → ∀ c, (t.core c).copies.length ≤ 32) ∧
    ((∀ c, (s.core c).loadsOpen ≤ 8) → ∀ c, (t.core c).loadsOpen ≤ 8) ∧
    ((∀ p, (s.parcel p).tiles.length ≤ s.tileCap p.tract) → ∀ p, (t.parcel p).tiles.length ≤ t.tileCap p.tract)

/-- ADD, SUB, AND, OR, XOR, SHL, SHR, SRA, MUL, MULHU, MULHS, MIN, MAX, MINU, MAXU and EXTU, wherever the core issues them, answer the state in which g(rd) holds the operation's result of the operands as they were (g0 discards it), the PC is 4 on, and nothing else has changed. CLZ, with rs2 = 0, so writes the number of leading zeros of rs1, 32 when rs1 is 0, and POPC the number of its 1 bits. The instruction is the one that the words at the PC spell. (R40, R26) -/
def Obligations.ScalarRegisterResults : Prop :=
  (∀ q ∈ scalarOps, ∀ (i : Issue) (f : FmtR) (s : State), Ready s i 4 [.g f.rs1, .g f.rs2] → s.spells i (q.1 i f) = true →
    ∃ t : State, exec (q.1 i f) s = .next t ∧ WroteG s t i.core 4 f.rd (q.2 ((s.core i.core).getG f.rs1) ((s.core i.core).getG f.rs2))) ∧
  (∀ (i : Issue) (f : FmtR) (s : State), f.rs2 = 0 → Ready s i 4 [.g f.rs1] →
    (s.spells i (.clz i f) = true → ∃ t n, exec (.clz i f) s = .next t ∧ WroteG s t i.core 4 f.rd (BitVec.ofNat 32 n) ∧ n ≤ 32 ∧
      (∀ j, j < n → ((s.core i.core).getG f.rs1).getLsbD (31 - j) = false) ∧ (n < 32 → ((s.core i.core).getG f.rs1).getLsbD (31 - n) = true)) ∧
    (s.spells i (.popc i f) = true → ∃ t : State, exec (.popc i f) s = .next t ∧
      WroteG s t i.core 4 f.rd (BitVec.ofNat 32 ((List.finRange 32).countP (fun j => ((s.core i.core).getG f.rs1).getLsbD j.val)))))

/-- ADDI, ANDI, ORI, XORI, MULI, SHLI, SHRI and SRAI write the operation of rs1 and IMM8 (a shift admits IMM8 below 32); ADDI32, ANDI32, ORI32, XORI32 and MULI32, with IMM8 = 0, that of rs1 and IMM32; LI, with IMM8 and rs1 0, writes IMM32. The PC advances by the length of the instruction and nothing else changes. The instruction is the one that the words at the PC spell. (R40, R38) -/
def Obligations.ImmediateResults : Prop :=
  (∀ q ∈ immediateOps, ∀ (i : Issue) (f : FmtI) (s : State), q.2.1 f.imm8 = true → Ready s i 4 [.g f.rs1] →
    s.spells i (q.1 i f) = true → ∃ t : State, exec (q.1 i f) s = .next t ∧ WroteG s t i.core 4 f.rd (q.2.2 ((s.core i.core).getG f.rs1) f.imm8)) ∧
  (∀ q ∈ longOps, ∀ (i : Issue) (f : FmtIX) (s : State), f.imm8 = 0 → Ready s i 8 [.g f.rs1] →
    s.spells i (q.1 i f) = true → ∃ t : State, exec (q.1 i f) s = .next t ∧ WroteG s t i.core 8 f.rd (q.2 ((s.core i.core).getG f.rs1) f.imm32)) ∧
  (∀ (i : Issue) (f : FmtIX) (s : State), f.imm8 = 0 → f.rs1 = 0 → Ready s i 8 [] →
    s.spells i (.li i f) = true → ∃ t : State, exec (.li i f) s = .next t ∧ WroteG s t i.core 8 f.rd f.imm32)

/-- CEQ, CNE, CLT, CLTU, CGE and CGEU write pd with the compare of rs1 and rs2, or of rs1 and IMM32 in the extended form; PAND, POR, PXOR and PNOT write the operation of two or one predicates; p0 discards. The PC advances and nothing else changes. Slots that name a predicate hold at most 7. The instruction is the one that the words at the PC spell. (R40) -/
def Obligations.PredicateResults : Prop :=
  (∀ q ∈ compareOps, ∀ (i : Issue) (rd rs1 rs2 : BitVec 5) (s : State), rd.toNat < 8 → Ready s i 4 [.g rs1, .g rs2] →
    s.spells i (q.1 i { rd := rd, rs1 := rs1, rs2 := rs2, ext := none }) = true → ∃ t : State, exec (q.1 i { rd := rd, rs1 := rs1, rs2 := rs2, ext := none }) s = .next t ∧
      WroteP s t i.core 4 (rd.setWidth 3) (q.2 ((s.core i.core).getG rs1) ((s.core i.core).getG rs2))) ∧
  (∀ q ∈ compareOps, ∀ (i : Issue) (rd rs1 : BitVec 5) (imm : Word) (s : State), rd.toNat < 8 → Ready s i 8 [.g rs1] →
    s.spells i (q.1 i { rd := rd, rs1 := rs1, rs2 := 0, ext := some imm }) = true → ∃ t : State, exec (q.1 i { rd := rd, rs1 := rs1, rs2 := 0, ext := some imm }) s = .next t ∧
      WroteP s t i.core 8 (rd.setWidth 3) (q.2 ((s.core i.core).getG rs1) imm)) ∧
  (∀ q ∈ predicateOps, ∀ (i : Issue) (f : FmtR) (s : State), f.rd.toNat < 8 → f.rs1.toNat < 8 → f.rs2.toNat < 8 → Ready s i 4 [] →
    s.spells i (q.1 i f) = true → ∃ t : State, exec (q.1 i f) s = .next t ∧
      WroteP s t i.core 4 (f.rd.setWidth 3) (q.2 ((s.core i.core).getP (f.rs1.setWidth 3)) ((s.core i.core).getP (f.rs2.setWidth 3)))) ∧
  (∀ (i : Issue) (f : FmtR) (s : State), f.rd.toNat < 8 → f.rs1.toNat < 8 → f.rs2 = 0 → Ready s i 4 [] →
    s.spells i (.pnot i f) = true → ∃ t : State, exec (.pnot i f) s = .next t ∧ WroteP s t i.core 4 (f.rd.setWidth 3) (!(s.core i.core).getP (f.rs1.setWidth 3)))

/-- BR sets the PC to its own PC plus 4 times the signed OFF22; CALL does so too and writes its own PC plus 4 to a15; JMP sets the PC to a(rs1)[17:0], whose low two bits are 0, and lets the instruction buffer fetch anew. None of them checks whether the target lies in the program region: the target is checked when the instruction there is to execute. No other register, core or state changes. The instruction is the one that the words at the PC spell. (R41, R34, R56) -/
def Obligations.BranchResults : Prop :=
  ∀ (i : Issue) (s : State), Ready s i 4 [] →
    (∀ off : BitVec 22, s.spells i (.br i off) = true → ∃ t : State, exec (.br i off) s = .next t ∧ OnlyCore s t i.core ∧ KeptCore (s.core i.core) (t.core i.core) ∧
      SameRegs (s.core i.core) (t.core i.core) ∧ (t.core i.core).wait = none ∧
      ((t.core i.core).pc.toNat : Int) = (((s.core i.core).pc.toNat : Int) + 4 * off.toInt) % 2 ^ 18) ∧
    (∀ off : BitVec 22, s.spells i (.call i off) = true → ∃ t : State, exec (.call i off) s = .next t ∧ OnlyCore s t i.core ∧ KeptCore (s.core i.core) (t.core i.core) ∧
      ((t.core i.core).getA 15).toNat = (s.core i.core).pc.toNat + 4 ∧ (∀ r, r ≠ 15 → (t.core i.core).getA r = (s.core i.core).getA r) ∧
      (t.core i.core).g = (s.core i.core).g ∧ (t.core i.core).p = (s.core i.core).p ∧
      ((t.core i.core).pc.toNat : Int) = (((s.core i.core).pc.toNat : Int) + 4 * off.toInt) % 2 ^ 18) ∧
    (∀ f : FmtR, f.rd = 0 → f.rs2 = 0 → f.rs1.toNat < 16 → (s.core i.core).operandWait [.a (f.rs1.setWidth 4)] = none →
      ((s.core i.core).getA (f.rs1.setWidth 4)).toNat % 4 = 0 →
      s.spells i (.jmp i f) = true → ∃ t : State, exec (.jmp i f) s = .next t ∧ OnlyCore s t i.core ∧ KeptCore (s.core i.core) (t.core i.core) ∧
        SameRegs (s.core i.core) (t.core i.core) ∧ (t.core i.core).ibuf = [] ∧
        (t.core i.core).pc = ((s.core i.core).getA (f.rs1.setWidth 4)).setWidth 18)

/-- AADD, AADDU, AMOV, AFROMG, ALOG, AHIG, ASETHI, ASHL, AADDI, ALO and AHI write their one destination register as the table of address operations gives it, from the operands as they were, advance the PC, and change nothing else. Slots that name an a-register hold at most 15; slots not used hold 0. The instruction is the one that the words at the PC spell. (R40, R41) -/
def Obligations.AddressResults : Prop :=
  ∀ (i : Issue) (s : State),
    (∀ f : FmtR, f.rd.toNat < 16 → f.rs1.toNat < 16 → Ready s i 4 [.a (f.rs1.setWidth 4), .g f.rs2] →
      (s.spells i (.aadd i f) = true → ∃ t : State, exec (.aadd i f) s = .next t ∧ WroteA s t i.core 4 (f.rd.setWidth 4)
        ((s.core i.core).getA (f.rs1.setWidth 4) + ((s.core i.core).getG f.rs2).signExtend 64)) ∧
      (s.spells i (.aaddu i f) = true → ∃ t : State, exec (.aaddu i f) s = .next t ∧ WroteA s t i.core 4 (f.rd.setWidth 4)
        ((s.core i.core).getA (f.rs1.setWidth 4) + ((s.core i.core).getG f.rs2).zeroExtend 64)) ∧
      (s.spells i (.ashl i f) = true → ∃ t : State, exec (.ashl i f) s = .next t ∧ WroteA s t i.core 4 (f.rd.setWidth 4)
        ((s.core i.core).getA (f.rs1.setWidth 4) <<< (((s.core i.core).getG f.rs2).toNat % 64)))) ∧
    (∀ f : FmtR, f.rd.toNat < 16 → f.rs1.toNat < 16 → f.rs2 = 0 → Ready s i 4 [.a (f.rs1.setWidth 4)] →
      s.spells i (.amov i f) = true → ∃ t : State, exec (.amov i f) s = .next t ∧ WroteA s t i.core 4 (f.rd.setWidth 4) ((s.core i.core).getA (f.rs1.setWidth 4))) ∧
    (∀ f : FmtR, f.rd.toNat < 16 → f.rs2 = 0 → Ready s i 4 [.g f.rs1] →
      s.spells i (.afromg i f) = true → ∃ t : State, exec (.afromg i f) s = .next t ∧ WroteA s t i.core 4 (f.rd.setWidth 4) (((s.core i.core).getG f.rs1).zeroExtend 64)) ∧
    (∀ f : FmtR, f.rs1.toNat < 16 → f.rs2 = 0 → Ready s i 4 [.a (f.rs1.setWidth 4)] →
      (s.spells i (.alog i f) = true → ∃ t : State, exec (.alog i f) s = .next t ∧ WroteG s t i.core 4 f.rd (((s.core i.core).getA (f.rs1.setWidth 4)).extractLsb' 0 32)) ∧
      (s.spells i (.ahig i f) = true → ∃ t : State, exec (.ahig i f) s = .next t ∧ WroteG s t i.core 4 f.rd (((s.core i.core).getA (f.rs1.setWidth 4)).extractLsb' 32 32))) ∧
    (∀ f : FmtR, f.rd.toNat < 16 → f.rs2 = 0 → Ready s i 4 [.g f.rs1, .a (f.rd.setWidth 4)] →
      s.spells i (.asethi i f) = true → ∃ t : State, exec (.asethi i f) s = .next t ∧ WroteA s t i.core 4 (f.rd.setWidth 4)
        ((s.core i.core).getG f.rs1 ++ ((s.core i.core).getA (f.rd.setWidth 4)).extractLsb' 0 32)) ∧
    (∀ f : FmtRX, f.rd.toNat < 16 → f.rs1.toNat < 16 → f.rs2 = 0 → Ready s i 8 [.a (f.rs1.setWidth 4)] →
      s.spells i (.aaddi i f) = true → ∃ t : State, exec (.aaddi i f) s = .next t ∧ WroteA s t i.core 8 (f.rd.setWidth 4)
        ((s.core i.core).getA (f.rs1.setWidth 4) + f.imm32.signExtend 64)) ∧
    (∀ f : FmtRX, f.rd.toNat < 16 → f.rs1 = 0 → f.rs2 = 0 → Ready s i 8 [.a (f.rd.setWidth 4)] →
      (s.spells i (.alo i f) = true → ∃ t : State, exec (.alo i f) s = .next t ∧ WroteA s t i.core 8 (f.rd.setWidth 4)
        (((s.core i.core).getA (f.rd.setWidth 4)).extractLsb' 32 32 ++ f.imm32)) ∧
      (s.spells i (.ahi i f) = true → ∃ t : State, exec (.ahi i f) s = .next t ∧ WroteA s t i.core 8 (f.rd.setWidth 4)
        (f.imm32 ++ ((s.core i.core).getA (f.rd.setWidth 4)).extractLsb' 0 32)))

/-- GETS reads the 32-bit state registers 0 (CORE_ID), 1 (MODULE_ID), 2 (PLOT_ID, NONE in no plot), 3, 4 (the program region) and 9 (ARRIVE_ST); GETSA the 64-bit ones 5 (CYCLES: what the core had run at the last change of its step, and 8 + 2 x step CCLK cycles for each AOCLK period since, those of a coasting module counted at step 0; that CYCLES is computed so is assumption log 2), 6 (MTIME), 7, 8 (the arguments) and 10 (STEP); PUTS to 9 clears the bits of ARRIVE_ST that g(rs1) has set and keeps the others. Each changes nothing else but the PC. The instruction is the one that the words at the PC spell. (R29) -/
def Obligations.StateRegisterAccess : Prop :=
  ∀ (i : Issue) (s : State),
    (∀ rd : BitVec 5, Ready s i 4 [] →
      (s.spells i (.gets i { rd := rd, rs1 := 0, rs2 := 0 }) = true → ∃ t : State, exec (.gets i { rd := rd, rs1 := 0, rs2 := 0 }) s = .next t ∧ WroteG s t i.core 4 rd
        (BitVec.ofNat 32 (i.core.core.val + 64 * i.core.parcel.val + 2 ^ 17 * i.core.tract.val))) ∧
      (s.spells i (.gets i { rd := rd, rs1 := 1, rs2 := 0 }) = true → ∃ t : State, exec (.gets i { rd := rd, rs1 := 1, rs2 := 0 }) s = .next t ∧ WroteG s t i.core 4 rd (s.job.moduleId.zeroExtend 32)) ∧
      (s.spells i (.gets i { rd := rd, rs1 := 2, rs2 := 0 }) = true → ∃ t : State, exec (.gets i { rd := rd, rs1 := 2, rs2 := 0 }) s = .next t ∧ WroteG s t i.core 4 rd
        (match (s.parcel (coreParcel i.core)).plot with
          | some n => n.zeroExtend 32
          | none => 0x8000_0000)) ∧
      (s.spells i (.gets i { rd := rd, rs1 := 3, rs2 := 0 }) = true → ∃ t : State, exec (.gets i { rd := rd, rs1 := 3, rs2 := 0 }) s = .next t ∧ WroteG s t i.core 4 rd ((s.core i.core).progBase.zeroExtend 32)) ∧
      (s.spells i (.gets i { rd := rd, rs1 := 4, rs2 := 0 }) = true → ∃ t : State, exec (.gets i { rd := rd, rs1 := 4, rs2 := 0 }) s = .next t ∧ WroteG s t i.core 4 rd ((s.core i.core).progLimit.zeroExtend 32)) ∧
      (s.spells i (.gets i { rd := rd, rs1 := 9, rs2 := 0 }) = true → ∃ t : State, exec (.gets i { rd := rd, rs1 := 9, rs2 := 0 }) s = .next t ∧ WroteG s t i.core 4 rd ((s.core i.core).arriveSt.zeroExtend 32))) ∧
    (∀ rd : BitVec 5, rd.toNat < 16 → Ready s i 4 [] →
      (s.spells i (.getsa i { rd := rd, rs1 := 5, rs2 := 0 }) = true → ∃ t : State, exec (.getsa i { rd := rd, rs1 := 5, rs2 := 0 }) s = .next t ∧ WroteA s t i.core 4 (rd.setWidth 4)
        (BitVec.ofNat 64 ((s.parcel (coreParcel i.core)).health.cycBase +
          (s.ticks - (s.parcel (coreParcel i.core)).health.cycSince) * (8 + 2 * (s.parcel (coreParcel i.core)).health.step) + 8 * s.up.coastTicks))) ∧
      (s.spells i (.getsa i { rd := rd, rs1 := 6, rs2 := 0 }) = true → ∃ t : State, exec (.getsa i { rd := rd, rs1 := 6, rs2 := 0 }) s = .next t ∧ WroteA s t i.core 4 (rd.setWidth 4) (BitVec.ofNat 64 s.mtime)) ∧
      (s.spells i (.getsa i { rd := rd, rs1 := 7, rs2 := 0 }) = true → ∃ t : State, exec (.getsa i { rd := rd, rs1 := 7, rs2 := 0 }) s = .next t ∧ WroteA s t i.core 4 (rd.setWidth 4) (s.core i.core).arg0) ∧
      (s.spells i (.getsa i { rd := rd, rs1 := 8, rs2 := 0 }) = true → ∃ t : State, exec (.getsa i { rd := rd, rs1 := 8, rs2 := 0 }) s = .next t ∧ WroteA s t i.core 4 (rd.setWidth 4) (s.core i.core).arg1) ∧
      (s.spells i (.getsa i { rd := rd, rs1 := 10, rs2 := 0 }) = true → ∃ t : State, exec (.getsa i { rd := rd, rs1 := 10, rs2 := 0 }) s = .next t ∧ WroteA s t i.core 4 (rd.setWidth 4) s.job.step)) ∧
    (∀ rs1 : BitVec 5, Ready s i 4 [.g rs1] →
      s.spells i (.puts i { rd := 9, rs1 := rs1, rs2 := 0 }) = true → ∃ t : State, exec (.puts i { rd := 9, rs1 := rs1, rs2 := 0 }) s = .next t ∧ OnlyCore s t i.core ∧ KeptCore (s.core i.core) (t.core i.core) ∧
        (t.core i.core).g = (s.core i.core).g ∧ (t.core i.core).a = (s.core i.core).a ∧ (t.core i.core).p = (s.core i.core).p ∧
        (t.core i.core).ac = (s.core i.core).ac ∧ (t.core i.core).pc = (s.core i.core).pc + 4 ∧
        ∀ n, n < 8 → (t.core i.core).arriveSt.getLsbD n = ((s.core i.core).arriveSt.getLsbD n && !((s.core i.core).getG rs1).getLsbD n))

/-- A core instruction whose guard names a predicate that does not let it execute, in any of the forms listed (two-source arithmetic, LI, BR, STW and TAKE), and the guard not being the reserved one, has no effect but that the PC lies behind it. The instruction is the one that the words at the PC spell. (R37) -/
def Obligations.GuardFailsSkips : Prop :=
  ∀ (i : Issue) (s : State), (s.core i.core).run = .running → (s.core i.core).pwr = .run → (s.core i.core).wait = none →
    (s.parcel (coreParcel i.core)).health.retired = false → s.dead i.core.tract.val = false → s.fetchBad i 4 = false → s.fetchBad i 8 = false →
    (wordOffsets (s.core i.core).pc.toNat 8).all (s.core i.core).inProgram = true →
    (s.core i.core).guardOk i.guard = false → guardBad i.guard = false → s.coreBad i.core [0, 1, 4] = none →
    ∀ (c : Instr) (n : Nat), ((∃ q ∈ scalarOps, ∃ f, c = q.1 i f ∧ n = 4) ∨ (∃ rd imm, c = .li i { rd := rd, rs1 := 0, imm8 := 0, imm32 := imm } ∧ n = 8) ∨
        (∃ off, c = .br i off ∧ n = 4) ∨ (∃ f, f.ext = none ∧ c = .stw i f ∧ n = 4) ∨ (∃ pd, c = .take i { gd := 4, pd := pd, reserved := 0 } ∧ n = 4)) →
      s.spells i c = true → ∃ t : State, exec c s = .next t ∧ OnlyCore s t i.core ∧ KeptCore (s.core i.core) (t.core i.core) ∧ SameRegs (s.core i.core) (t.core i.core) ∧
        (t.core i.core).pc = (s.core i.core).pc + BitVec.ofNat 18 n ∧ (t.core i.core).wait = none

/-- Words at the PC that spell no instruction, the all-zero word among them, and, where the words spell it, a shift by an IMM8 of 32 or more, CLZ or POPC with rs2 not 0, LI with IMM8 not 0, a FENCE with a reserved mask bit, and an ADD under the reserved guard, at a core that runs them, raise ILLEGAL (that words which spell nothing do so whatever row of the table is commanded is the reading of log entry 1): the core stops in SLEEP with its PC and registers as they were, memory stays, and with no record waiting in its tract the CORE_FAULT record joins the tract's collector with cause 0x01 and the PC in DETAIL. (R38, R58, R413) -/
def Obligations.ReservedEncodingsRaiseIllegal : Prop :=
  ∀ (i : Issue) (s : State), (s.core i.core).run = .running → (s.core i.core).pwr = .run → (s.core i.core).wait = none →
    (s.parcel (coreParcel i.core)).health.retired = false → s.dead i.core.tract.val = false → i.fetch = false →
    (s.core i.core).fetchedWords i 8 = [] → (s.core i.core).arr.cfg = none → s.up.restore = .idle → s.coreBad i.core [0, 1, 4] = none →
    (wordOffsets (s.core i.core).pc.toNat 8).all (s.core i.core).inProgram = true → (s.fab i.core.tract).collector = [] →
    ∀ c : Instr, (s.spells i c = true ∧ ((∃ f, 32 ≤ f.imm8.toNat ∧ (c = .shli i f ∨ c = .shri i f ∨ c = .srai i f)) ∨ (∃ f, f.rs2 ≠ 0 ∧ (c = .clz i f ∨ c = .popc i f)) ∨
        (∃ f, f.imm8 ≠ 0 ∧ c = .li i f) ∨ (∃ f, 64 ≤ f.imm8.toNat ∧ c = .fence i f) ∨
          (guardBad i.guard = true ∧ ∃ f, c = .add i f)) ∨
        (decodeCore i (s.wordAt i (s.core i.core).pc.toNat) (s.wordAt i ((s.core i.core).pc.toNat + 4)) = none ∧
          ((∃ f, c = .add i f) ∨ (∃ f, c = .ldw i f) ∨ (∃ f, c = .take i f) ∨ ∃ f, c = .halt i f))) →
      ∃ t r, exec c s = .next t ∧ (t.core i.core).run = .stopped ∧ (t.core i.core).pwr = .sleep ∧ (t.core i.core).pc = (s.core i.core).pc ∧
        SameRegs (s.core i.core) (t.core i.core) ∧ t.mem = s.mem ∧ (t.fab i.core.tract).collector = [r] ∧ r.cls = .coreFault ∧
        r.parcel = some i.core.parcel.val ∧ r.core = some i.core.core.val ∧ fieldAt r.detail 0 1 = 1 ∧ fieldAt r.detail 4 4 = (s.core i.core).pc.toNat

/-- LDB, LDBS, LDH, LDHS and LDW from an aligned offset inside the 24 KiB of the core's local store, sound and with no ASTAT waiting, write g(rt) at once with the zero- or sign-extended bytes that lie there; LDA writes a(rt[3:0]) with the doubleword; LDQ writes g(rt) to g(rt+3) with the four words. Memory stays, and nothing else of the core or the module changes but the PC and the count of free values used. The instruction is the one that the words at the PC spell. (R42, R30, MEMORY class) -/
def Obligations.LocalLoadResults : Prop :=
  ∀ (i : Issue) (f : FmtM) (s : State), f.space = 0 → (f.ext.isSome → f.off8 = 0) → (s.core i.core).astatQueued = none →
    Ready s i (extLen f.ext) [.a f.ab] →
    (∀ q ∈ loadOps, fmtMOffset (s.core i.core) f q.2.1 % q.2.1 = 0 → fmtMOffset (s.core i.core) f q.2.1 + q.2.1 ≤ 0x6000 →
      Clean s (storeKey i.core (fmtMOffset (s.core i.core) f q.2.1)) q.2.1 →
      s.spells i (q.1 i f) = true → ∃ t : State, exec (q.1 i f) s = .next t ∧ t.mem = s.mem ∧ WroteG { s with free := t.free } t i.core (extLen f.ext) f.rt
        (q.2.2 (leNat (s.mem.read (storeKey i.core (fmtMOffset (s.core i.core) f q.2.1)) q.2.1)))) ∧
    (f.rt.toNat < 16 → fmtMOffset (s.core i.core) f 8 % 8 = 0 → fmtMOffset (s.core i.core) f 8 + 8 ≤ 0x6000 →
      Clean s (storeKey i.core (fmtMOffset (s.core i.core) f 8)) 8 →
      s.spells i (.lda i f) = true → ∃ t : State, exec (.lda i f) s = .next t ∧ t.mem = s.mem ∧ WroteA { s with free := t.free } t i.core (extLen f.ext) (f.rt.setWidth 4)
        (BitVec.ofNat 64 (leNat (s.mem.read (storeKey i.core (fmtMOffset (s.core i.core) f 8)) 8)))) ∧
    (f.rt.toNat % 4 = 0 → f.rt ≠ 0 → fmtMOffset (s.core i.core) f 16 % 16 = 0 → fmtMOffset (s.core i.core) f 16 + 16 ≤ 0x6000 →
      Clean s (storeKey i.core (fmtMOffset (s.core i.core) f 16)) 16 →
      s.spells i (.ldq i f) = true → ∃ t : State, exec (.ldq i f) s = .next t ∧ t.mem = s.mem ∧ OnlyCore { s with free := t.free } t i.core ∧
        KeptCore (s.core i.core) (t.core i.core) ∧ (t.core i.core).a = (s.core i.core).a ∧ (t.core i.core).p = (s.core i.core).p ∧
        (t.core i.core).pc = (s.core i.core).pc + BitVec.ofNat 18 (extLen f.ext) ∧
        (∀ j : Fin 4, (t.core i.core).getG (f.rt + BitVec.ofNat 5 j.val) =
          wordAt s (storeKey i.core (fmtMOffset (s.core i.core) f 16) + 4 * j.val)) ∧
        (∀ r : BitVec 5, r.toNat / 4 ≠ f.rt.toNat / 4 → (t.core i.core).getG r = (s.core i.core).getG r))

/-- A load from an aligned offset of the commons or the slice, with fewer than 8 loads outstanding, joins the core's outstanding loads with the bytes that lie there now and the core goes on behind it: no register is written, and memory bytes stay. In space GL a load, a store, an atomic, a copy or a remote mark addition or wait with an aligned address that names a tract and a parcel, where the request agent has room and the core has too, enters the tract's request agent with its address and operation (a copy with one entry for each global end); the core goes on, or waits in MWAIT; a load and an atomic with rd not g0 stay outstanding until the entry is answered. No register, no other core and no memory changes. The instruction is the one that the words at the PC spell. That an access of commons or slice acts when it issues, and one of GL at its home agent, is assumption log 3. (R42, R43, R44, R50, R26, R254) -/
def Obligations.LoadsElsewhereWait : Prop :=
  (∀ (i : Issue) (f : FmtM) (s : State), f.space = 1 ∨ f.space = 2 → (f.ext.isSome → f.off8 = 0) → (s.core i.core).loadsOpen < 8 →
    Ready s i (extLen f.ext) [.a f.ab] →
    ∀ (ins : Issue → FmtM → Instr) (n : Nat) (regs : List CReg),
      ((∃ q ∈ loadOps, ins = q.1 ∧ n = q.2.1 ∧ regs = [.g f.rt]) ∨ (f.rt.toNat < 16 ∧ ins = .lda ∧ n = 8 ∧ regs = [.a (f.rt.setWidth 4)]) ∨
        (f.rt.toNat % 4 = 0 ∧ f.rt ≠ 0 ∧ ins = .ldq ∧ n = 16 ∧ regs = [.g f.rt, .g (f.rt + 1), .g (f.rt + 2), .g (f.rt + 3)])) →
      fmtMOffset (s.core i.core) f n % n = 0 → fmtMOffset (s.core i.core) f n + n ≤ spaceSize f.space → s.spells i (ins i f) = true →
      ∃ t l r, exec (ins i f) s = .next t ∧ (t.core i.core).g = (s.core i.core).g ∧ (t.core i.core).a = (s.core i.core).a ∧
        (t.core i.core).p = (s.core i.core).p ∧ (∀ c', c' ≠ i.core → t.core c' = s.core c') ∧
        (t.core i.core).pc = (s.core i.core).pc + BitVec.ofNat 18 (extLen f.ext) ∧ (t.core i.core).wait = none ∧ t.mem.bytes = s.mem.bytes ∧
        (t.core i.core).loads.length = (s.core i.core).loads.length + 1 ∧ (t.core i.core).loads.getLast? = some l ∧
        l.pc = (s.core i.core).pc.toNat ∧ l.size = n ∧ l.parts.map (fun x => x.reg) = regs ∧ l.resp = some r ∧ r.status = 0 ∧
        r.data = s.peek (spaceKey i.core f.space (fmtMOffset (s.core i.core) f n)) n) ∧
  (∀ (i : Issue) (s : State), s.raShort i.core.tract 2 = false → s.up.badUnits = [] →
    (∀ (f : FmtM), f.space = 3 → (f.ext.isSome → f.off8 = 0) →
      (Ready s i (extLen f.ext) [.a f.ab] → (s.core i.core).loadsOpen < 8 →
        ∀ (ins : Issue → FmtM → Instr) (n : Nat) (regs : List CReg),
          ((∃ q ∈ loadOps, ins = q.1 ∧ n = q.2.1 ∧ regs = [.g f.rt]) ∨ (f.rt.toNat < 16 ∧ ins = .lda ∧ n = 8 ∧ regs = [.a (f.rt.setWidth 4)]) ∨
            (f.rt.toNat % 4 = 0 ∧ f.rt ≠ 0 ∧ ins = .ldq ∧ n = 16 ∧ regs = [.g f.rt, .g (f.rt + 1), .g (f.rt + 2), .g (f.rt + 3)])) →
          fmtMOffset (s.core i.core) f n % n = 0 → gaBad (fmtMOffset (s.core i.core) f n) = false → s.spells i (ins i f) = true →
          ∃ t : State, exec (ins i f) s = .next t ∧ EntersAgent s t i.core (fmtMOffset (s.core i.core) f n) (.load n) false (extLen f.ext) ∧
            AwaitsLoad s t i.core (fmtMOffset (s.core i.core) f n) n regs) ∧
      (∀ q ∈ storeOps, q.2.2.1 f.rt = true → Ready s i (extLen f.ext) (.a f.ab :: q.2.2.2.1 f.rt) → s.storesUse i.core < 16 →
        fmtMOffset (s.core i.core) f q.2.1 % q.2.1 = 0 → gaBad (fmtMOffset (s.core i.core) f q.2.1) = false → s.spells i (q.1 i f) = true →
        ∃ t : State, exec (q.1 i f) s = .next t ∧ EntersAgent s t i.core (fmtMOffset (s.core i.core) f q.2.1)
          (.store (natLe q.2.1 (q.2.2.2.2 (s.core i.core) f.rt))) true (extLen f.ext))) ∧
    (∀ (f : FmtA), f.space = 3 → s.storesUse i.core < 16 → (f.size = true → f.rd.toNat % 2 = 0 ∧ f.rs.toNat % 2 = 0) →
      ((s.core i.core).getA f.ab).toNat % atomSize f.size = 0 → gaBad ((s.core i.core).getA f.ab).toNat = false →
      ((∀ q ∈ atomOps.zipIdx, Ready s i 4 (.a f.ab :: pairOf f.size f.rs) → s.spells i (q.1.1 i f) = true →
        ∃ t : State, exec (q.1.1 i f) s = .next t ∧ EntersAgent s t i.core ((s.core i.core).getA f.ab).toNat
          (.atom q.2 f.size (atomOpd (s.core i.core) f.size f.rs).toNat 0) (f.rd == 0) 4 ∧
          (f.rd ≠ 0 → AwaitsLoad s t i.core ((s.core i.core).getA f.ab).toNat (atomSize f.size) (pairOf f.size f.rd))) ∧
      (∀ rc : BitVec 5, (f.size = true → rc.toNat % 2 = 0) → Ready s i 8 (.a f.ab :: (pairOf f.size f.rs ++ pairOf f.size rc)) →
        s.spells i (.cas i f (rc.setWidth 32)) = true →
        ∃ t : State, exec (.cas i f (rc.setWidth 32)) s = .next t ∧ EntersAgent s t i.core ((s.core i.core).getA f.ab).toNat
          (.atom 9 f.size (atomOpd (s.core i.core) f.size f.rs).toNat (atomOpd (s.core i.core) f.size rc).toNat) (f.rd == 0) 8 ∧
          (f.rd ≠ 0 → AwaitsLoad s t i.core ((s.core i.core).getA f.ab).toNat (atomSize f.size) (pairOf f.size f.rd))))) ∧
    (∀ (f : FmtCpy) (len : Nat), f.reserved = 0 → len = ((s.core i.core).getG f.gl).toNat → len % 4 = 0 → 4 ≤ len → len ≤ 1048576 →
      ((s.core i.core).getA f.as_).toNat % 4 = 0 → ((s.core i.core).getA f.ad).toNat % 4 = 0 → (s.core i.core).copies.length < 32 →
      (s.core i.core).astatQueued = none → Ready s i 4 [.a f.as_, .a f.ad, .g f.gl] → s.spells i (.cpy i f) = true →
      (f.sspace = 3 → f.dspace ≠ 3 → gaBad ((s.core i.core).getA f.as_).toNat = false →
        ((s.core i.core).getA f.ad).toNat + len ≤ spaceSize f.dspace →
        (f.dspace = 1 → s.cmOwned i.core.tract (((s.core i.core).getA f.ad).toNat + len - 1) = false) →
        ∃ t j, exec (.cpy i f) s = .next t ∧
          EntersAgent s t i.core ((s.core i.core).getA f.as_).toNat (.copyEnd [(((s.core i.core).getA f.as_).toNat, len)] false) false 4 ∧
          (t.core i.core).copies = (s.core i.core).copies ++ [j] ∧ j.genS = some (s.fab i.core.tract).nextGen ∧ j.genD = none ∧ j.stage = .flight) ∧
      (f.sspace ≠ 3 → f.dspace = 3 → gaBad ((s.core i.core).getA f.ad).toNat = false →
        ((s.core i.core).getA f.as_).toNat + len ≤ spaceSize f.sspace →
        ∃ t j, exec (.cpy i f) s = .next t ∧
          EntersAgent s t i.core ((s.core i.core).getA f.ad).toNat (.copyEnd [(((s.core i.core).getA f.ad).toNat, len)] true) false 4 ∧
          (t.core i.core).copies = (s.core i.core).copies ++ [j] ∧ j.genS = none ∧ j.genD = some (s.fab i.core.tract).nextGen ∧ j.stage = .flight) ∧
      (f.sspace = 3 → f.dspace = 3 → gaBad ((s.core i.core).getA f.as_).toNat = false → gaBad ((s.core i.core).getA f.ad).toNat = false →
        ∃ t j e1 e2, exec (.cpy i f) s = .next t ∧ e1 ∈ (t.fab i.core.tract).ra ∧ e2 ∈ (t.fab i.core.tract).ra ∧
          e1.op = .copyEnd [(((s.core i.core).getA f.as_).toNat, len)] false ∧ e2.op = .copyEnd [(((s.core i.core).getA f.ad).toNat, len)] true ∧
          (t.core i.core).copies = (s.core i.core).copies ++ [j] ∧ j.genS = some e1.gen ∧ j.genD = some e2.gen ∧ j.stage = .flight ∧
          t.mem = s.mem ∧ SameRegs (s.core i.core) (t.core i.core) ∧ (t.core i.core).pc = (s.core i.core).pc + 4)) ∧
    (∀ (f : FmtK), f.remote = true → f.mark = 0 → Ready s i 4 [.g f.g, .a f.ab] → (s.core i.core).arr.fault = none →
      ((s.core i.core).getA f.ab).toNat % 4 = 0 → gaBad ((s.core i.core).getA f.ab).toNat = false →
      (s.spells i (.madd i f) = true → ∃ t : State, exec (.madd i f) s = .next t ∧
        EntersAgent s t i.core ((s.core i.core).getA f.ab).toNat (.mark (.add ((s.core i.core).getG f.g))) true 4) ∧
      (s.spells i (.msub i f) = true → ∃ t : State, exec (.msub i f) s = .next t ∧
        EntersAgent s t i.core ((s.core i.core).getA f.ab).toNat (.mark (.sub ((s.core i.core).getG f.g))) true 4) ∧
      (s.spells i (.mwait i f) = true → ∃ t e, exec (.mwait i f) s = .next t ∧ e ∈ (t.fab i.core.tract).ra ∧
        e.addr = ((s.core i.core).getA f.ab).toNat ∧ e.op = .mark (.wait ((s.core i.core).getG f.g)) ∧ e.posted = false ∧
        (t.core i.core).wait = some (.remoteWait e.gen e.addr ((s.core i.core).getG f.g) false) ∧ (t.core i.core).pc = (s.core i.core).pc ∧
        SameRegs (s.core i.core) (t.core i.core) ∧ t.mem = s.mem)))

/-- When the response to an outstanding load reaches a running core, one with status OK and no poison writes each of the load's registers with its bytes, zero- or sign-extended, and no other register, and the load is no longer outstanding: this holds for a load of any size, one register or four. One with another status stops the core with a deferred REMOTE_ERR, a poisoned one with a deferred POISON, and every register keeps its value. A core that has stopped discards the data (assumption log 8). (R42, R59, R60) -/
def Obligations.LoadResponseWrites : Prop :=
  ∀ (c : CoreId) (n : Nat) (l : OutLoad) (r : Response) (s : State), (s.core c).loads[n]? = some l → l.resp = some r → (s.core c).rels = [] →
    ((s.core c).wait = none ∨ ∃ addr pc reg, (s.core c).wait = some (.operand addr pc reg)) →
    ((s.core c).run = .running → r.status = 0 → r.poison = 0 → (l.parts.map (fun q => q.reg)).Nodup →
      ∃ t : State, exec (.loadResponse c n) s = .next t ∧ OnlyCore s t c ∧ KeptCore (s.core c) (t.core c) ∧ (∀ q ∈ l.parts, Filled (t.core c) r.data q) ∧
        (∀ x, (.g x) ∉ l.parts.map (fun q => q.reg) → (t.core c).getG x = (s.core c).getG x) ∧
        (∀ x, (.a x) ∉ l.parts.map (fun q => q.reg) → (t.core c).getA x = (s.core c).getA x) ∧ (t.core c).p = (s.core c).p ∧
        (t.core c).loads = dropIdx (s.core c).loads n ∧ (t.core c).pc = (s.core c).pc ∧ (t.core c).wait = (s.core c).wait) ∧
    ((s.core c).run = .running → l.stopped = none → (s.core c).arr.cfg = none → r.status ≠ 0 ∨ r.poison ≠ 0 → (s.fab c.tract).collector = [] →
      s.up.restore = .idle →
      ∃ t d, exec (.loadResponse c n) s = .next t ∧ (t.core c).run = .stopped ∧ (t.core c).g = (s.core c).g ∧ (t.core c).a = (s.core c).a ∧
        (t.core c).pc = (s.core c).pc ∧ (t.core c).loads = dropIdx (s.core c).loads n ∧ t.mem = s.mem ∧ (t.fab c.tract).collector = [d] ∧
        d.cls = .coreFault ∧ fieldAt d.detail 0 1 = (if r.status ≠ 0 then 8 else 7) ∧ fieldAt d.detail 4 4 = l.pc % 2 ^ 32) ∧
    ((s.core c).run ≠ .running → r.status = 0 → r.poison = 0 →
      ∃ t : State, exec (.loadResponse c n) s = .next t ∧ OnlyCore s t c ∧ t.core c = { s.core c with loads := dropIdx (s.core c).loads n })

/-- STB, STH, STW, STA and STQ to an aligned offset inside a local space that software may write, on sound memory outside every replica area, write exactly their bytes, lowest first, and leave every other byte of memory as it was; registers stay, and the PC lies behind the instruction. While the core holds no tile, TSIG stays too. The instruction is the one that the words at the PC spell. That the store acts when it issues is assumption log 3. (R42, R33, R154, R2) -/
def Obligations.StoresWriteTheirBytes : Prop :=
  ∀ q ∈ storeOps, ∀ (i : Issue) (f : FmtM) (s : State), f.space ≠ 3 → (f.ext.isSome → f.off8 = 0) → q.2.2.1 f.rt = true → s.mem.wf = true →
    Ready s i (extLen f.ext) (.a f.ab :: q.2.2.2.1 f.rt) → s.holds i.core = false →
    fmtMOffset (s.core i.core) f q.2.1 % q.2.1 = 0 → fmtMOffset (s.core i.core) f q.2.1 + q.2.1 ≤ spaceSize f.space →
    (f.space = 1 → s.cmOwned i.core.tract (fmtMOffset (s.core i.core) f q.2.1) = false) →
    (f.space = 2 → s.inReplica (spaceKey i.core 2 (fmtMOffset (s.core i.core) f q.2.1)) q.2.1 = false) →
    (f.space ≠ 0 → s.storesUse i.core < 16) →
    Clean s (spaceKey i.core f.space (fmtMOffset (s.core i.core) f q.2.1)) q.2.1 →
    s.spells i (q.1 i f) = true → ∃ t : State, exec (q.1 i f) s = .next t ∧
      Stored s t (spaceKey i.core f.space (fmtMOffset (s.core i.core) f q.2.1)) (natLe q.2.1 (q.2.2.2.2 (s.core i.core) f.rt)) ∧
      t = { s with cores := t.cores, mem := t.mem, fabs := t.fabs } ∧ (∀ c', c' ≠ i.core → t.core c' = s.core c') ∧
      KeptCore (s.core i.core) (t.core i.core) ∧ SameRegs (s.core i.core) (t.core i.core) ∧
      (t.core i.core).pc = (s.core i.core).pc + BitVec.ofNat 18 (extLen f.ext)

/-- A word access of a core that issues it, the instruction that the words at the PC spell, raises ALIGN where its offset is no multiple of 4; else SPACE_RANGE where it runs past its local space; else, for a store to a hardware-owned commons region, SPACE_PROTECT; in space GL it raises GADDR where the tract or parcel field names nothing. The core stops, its PC and registers as they were, and memory stays as it was. (R476, R31, R33, R42) -/
def Obligations.BadAccessesAreStopped : Prop :=
  ∀ (i : Issue) (f : FmtM) (store : Bool) (s : State), f.ext = none → i.fetch = false → (s.core i.core).fetchedWords i 4 = [] →
    Ready s i 4 [.a f.ab, .g f.rt] → (s.core i.core).arr.cfg = none → s.up.restore = .idle → (s.fab i.core.tract).collector = [] →
    ∀ code, ((fmtMOffset (s.core i.core) f 4 % 4 ≠ 0 ∧ code = 3) ∨
        (fmtMOffset (s.core i.core) f 4 % 4 = 0 ∧ f.space ≠ 3 ∧ spaceSize f.space < fmtMOffset (s.core i.core) f 4 + 4 ∧ code = 4) ∨
        (fmtMOffset (s.core i.core) f 4 % 4 = 0 ∧ f.space = 3 ∧
          (12 ≤ gaTract (fmtMOffset (s.core i.core) f 4) ∨ 1360 ≤ gaParcel (fmtMOffset (s.core i.core) f 4)) ∧ code = 6) ∨
        (store = true ∧ fmtMOffset (s.core i.core) f 4 % 4 = 0 ∧ f.space = 1 ∧ fmtMOffset (s.core i.core) f 4 + 4 ≤ 0x4_0000 ∧
          s.cmOwned i.core.tract (fmtMOffset (s.core i.core) f 4) = true ∧ code = 5)) →
      s.spells i (if store then .stw i f else .ldw i f) = true →
      ∃ t r, exec (if store then .stw i f else .ldw i f) s = .next t ∧ t.mem = s.mem ∧ (t.core i.core).run = .stopped ∧
        (t.core i.core).pc = (s.core i.core).pc ∧ SameRegs (s.core i.core) (t.core i.core) ∧
        (t.fab i.core.tract).collector = [r] ∧ r.cls = .coreFault ∧ fieldAt r.detail 0 1 = code

/-- ATOM.ADD, OR, AND, XOR, MAXU, MINU, MAX, MIN and XCHG on an aligned word or doubleword that software may write in the commons or the slice, sound and in no replica area, replace it by the operation of its old value and g(rs), and CAS replaces it by g(rs) where it equals g(rc); every other byte stays. With rd g0 nothing comes back; else the old value becomes the data of a load still to be answered. The PC advances and no register changes yet. A doubleword takes register pairs, the low half first. The instruction is the one that the words at the PC spell. That the atomic acts when it issues is assumption log 3. (R43, R26) -/
def Obligations.AtomicsUpdateOneWord : Prop :=
  (∀ q ∈ atomOps, ∀ (i : Issue) (f : FmtA) (s : State), AtomRuns s i f 4 [] → s.spells i (q.1 i f) = true →
    ∃ t : State, exec (q.1 i f) s = .next t ∧ AtomRan s t i f 4 (q.2 _ (atomOld s i f) (atomOpd (s.core i.core) f.size f.rs))) ∧
  (∀ (i : Issue) (f : FmtA) (rc : BitVec 5) (s : State), AtomRuns s i f 8 (pairOf f.size rc) → (f.size = true → rc.toNat % 2 = 0) →
    s.spells i (.cas i f (rc.setWidth 32)) = true →
    ∃ t : State, exec (.cas i f (rc.setWidth 32)) s = .next t ∧ AtomRan s t i f 8
      (if atomOld s i f = atomOpd (s.core i.core) f.size rc then atomOpd (s.core i.core) f.size f.rs else atomOld s i f))

/-- CPY and CPYM between local spaces, with a length and addresses that are multiples of 4 in range, add one copy to those in flight (CPYM with its mark) and the core goes on; nothing is moved yet. CSET sets its counter to the low 16 bits of g, and the ARRIVE latch where that changes it, CGET reads it zero-extended, CWAIT goes on where the counter has reached its target within 2^15 and else waits at its PC. The instruction is the one that the words at the PC spell. (R44, R47, R49) -/
def Obligations.CopyInstructionsStart : Prop :=
  ∀ (i : Issue) (s : State),
    (∀ f : FmtCpy, f.reserved = 0 → f.sspace ≠ 3 → f.dspace ≠ 3 → (s.core i.core).copies.length < 32 → (s.core i.core).astatQueued = none →
      ((s.core i.core).getG f.gl).toNat % 4 = 0 → 4 ≤ ((s.core i.core).getG f.gl).toNat → ((s.core i.core).getG f.gl).toNat ≤ 1048576 →
      ((s.core i.core).getA f.as_).toNat % 4 = 0 → ((s.core i.core).getA f.ad).toNat % 4 = 0 →
      ((s.core i.core).getA f.as_).toNat + ((s.core i.core).getG f.gl).toNat ≤ spaceSize f.sspace →
      ((s.core i.core).getA f.ad).toNat + ((s.core i.core).getG f.gl).toNat ≤ spaceSize f.dspace →
      (f.dspace = 1 → s.cmOwned i.core.tract (((s.core i.core).getA f.ad).toNat + ((s.core i.core).getG f.gl).toNat - 1) = false) →
      (Ready s i 4 [.a f.as_, .a f.ad, .g f.gl] → s.spells i (.cpy i f) = true → ∃ t j, exec (.cpy i f) s = .next t ∧ OnlyCore s t i.core ∧ t.mem = s.mem ∧
        (t.core i.core).copies = (s.core i.core).copies ++ [j] ∧ j.ac = f.ac ∧ j.mark = none ∧ j.len = ((s.core i.core).getG f.gl).toNat ∧
        SameRegs (s.core i.core) (t.core i.core) ∧ (t.core i.core).pc = (s.core i.core).pc + 4) ∧
      (∀ mark : BitVec 10, Ready s i 8 [.a f.as_, .a f.ad, .g f.gl] → s.spells i (.cpym i f (mark.setWidth 32)) = true → ∃ t j, exec (.cpym i f (mark.setWidth 32)) s = .next t ∧
        OnlyCore s t i.core ∧ (t.core i.core).copies = (s.core i.core).copies ++ [j] ∧ j.ac = f.ac ∧ j.mark = some (false, mark) ∧
        SameRegs (s.core i.core) (t.core i.core) ∧ (t.core i.core).pc = (s.core i.core).pc + 8)) ∧
    (∀ f : FmtN, f.reserved = 0 →
      (Ready s i 4 [.g f.g] → s.spells i (.cset i f) = true → ∃ t : State, exec (.cset i f) s = .next t ∧ OnlyCore s t i.core ∧
        (t.core i.core).getAc f.ac = ((s.core i.core).getG f.g).extractLsb' 0 16 ∧ (t.core i.core).arrive = ((s.core i.core).arrive || decide ((s.core i.core).getAc f.ac ≠ ((s.core i.core).getG f.g).extractLsb' 0 16)) ∧ (∀ n, n ≠ f.ac → (t.core i.core).getAc n = (s.core i.core).getAc n) ∧
        (t.core i.core).g = (s.core i.core).g ∧ (t.core i.core).pc = (s.core i.core).pc + 4) ∧
      (Ready s i 4 [] → s.spells i (.cget i f) = true → ∃ t : State, exec (.cget i f) s = .next t ∧ WroteG s t i.core 4 f.g (((s.core i.core).getAc f.ac).zeroExtend 32)) ∧
      (Ready s i 4 [.g f.g] → (s.core i.core).rels = [] →
        (((s.core i.core).getAc f.ac - ((s.core i.core).getG f.g).extractLsb' 0 16).toNat < 2 ^ 15 →
          s.spells i (.cwait i f) = true → ∃ t : State, exec (.cwait i f) s = .next t ∧ OnlyCore s t i.core ∧ SameRegs (s.core i.core) (t.core i.core) ∧
            (t.core i.core).wait = none ∧ (t.core i.core).pc = (s.core i.core).pc + 4) ∧
        (2 ^ 15 ≤ ((s.core i.core).getAc f.ac - ((s.core i.core).getG f.g).extractLsb' 0 16).toNat →
          s.spells i (.cwait i f) = true → ∃ t : State, exec (.cwait i f) s = .next t ∧ WaitsAt s t i.core (.cwait f.ac (((s.core i.core).getG f.g).extractLsb' 0 16)))))

/-- When a copy within local spaces lands at a core whose request agent is empty, on sound memory and outside replica areas, every destination byte has the value its source byte had, every other byte stays, the copy is in flight no more, its counter is one higher modulo 2^16, its ERR bit stays, and the ARRIVE latch is set. That the copy moves its bytes when it lands is assumption log 3. (R45, R47, R54) -/
def Obligations.CopyLandingMovesAndCounts : Prop :=
  ∀ (c : CoreId) (n : Nat) (net : List NetReply) (j : CopyJob) (s : State), (s.core c).copies[n]? = some j → j.sspace < 3 → j.dspace < 3 →
    j.stage = .flight → j.after = [] → j.mark = none → j.genS = none → j.genD = none → s.mem.wf = true → s.dead c.tract.val = false → Settled s c →
    (s.core c).wait = none → s.holds c = false → 0 < j.len → j.src % 4 = 0 → j.dst % 4 = 0 → j.len % 4 = 0 →
    j.src + j.len ≤ spaceSize (BitVec.ofNat 2 j.sspace) → j.dst + j.len ≤ spaceSize (BitVec.ofNat 2 j.dspace) →
    Clean s (spaceKey c (BitVec.ofNat 2 j.sspace) j.src) j.len → Clean s (spaceKey c (BitVec.ofNat 2 j.dspace) j.dst) j.len →
    s.inReplica (spaceKey c (BitVec.ofNat 2 j.dspace) j.dst) j.len = false →
    (∀ o, o < j.len → j.sspace = 1 → s.cmTile (coreParcel c) (j.src + o) = false) →
    ∃ t : State, exec (.copyLanding c n net) s = .next t ∧
      Stored s t (spaceKey c (BitVec.ofNat 2 j.dspace) j.dst) (s.mem.read (spaceKey c (BitVec.ofNat 2 j.sspace) j.src) j.len) ∧
      (t.core c).copies = dropIdx (s.core c).copies n ∧ (t.core c).getAc j.ac = (s.core c).getAc j.ac + 1 ∧
      (∀ m, m ≠ j.ac → (t.core c).getAc m = (s.core c).getAc m) ∧ (t.core c).arriveSt = (s.core c).arriveSt ∧ (t.core c).arrive = true ∧
      (t.core c).g = (s.core c).g ∧ (t.core c).pc = (s.core c).pc

/-- MADD adds g to a counting mark of the core's parcel modulo 2^32 and MSUB subtracts it, at once where the core has nothing earlier open; every byte of memory outside the mark's word stays; the core goes on. MWAIT goes on where the mark lies at or past the threshold within 2^31 ahead, and else waits; a frozen or damaged mark releases no one. The instruction is the one that the words at the PC spell. (R51, R282, R283, R297) -/
def Obligations.CountingMarks : Prop :=
  ∀ (i : Issue) (f : FmtK) (s : State), f.remote = false → f.ab = 0 → Ready s i 4 [.g f.g] → s.barrierN (coreParcel i.core) f.mark = none →
    s.mem.wf = true → (s.core i.core).arr.fault = none →
    (Settled s i.core → (s.parcel (coreParcel i.core)).frozen.contains f.mark = false → s.markDamaged (coreParcel i.core) f.mark = false →
      (s.spells i (.madd i f) = true → ∃ t : State, exec (.madd i f) s = .next t ∧
        Stored s t (markKey (coreParcel i.core) f.mark) (natLe 4 (wordAt s (markKey (coreParcel i.core) f.mark) + (s.core i.core).getG f.g).toNat) ∧
        (t.core i.core).pc = (s.core i.core).pc + 4 ∧ (t.core i.core).g = (s.core i.core).g ∧ (t.core i.core).rels = []) ∧
      (s.spells i (.msub i f) = true → ∃ t : State, exec (.msub i f) s = .next t ∧
        Stored s t (markKey (coreParcel i.core) f.mark) (natLe 4 (wordAt s (markKey (coreParcel i.core) f.mark) - (s.core i.core).getG f.g).toNat) ∧
        (t.core i.core).pc = (s.core i.core).pc + 4 ∧ (t.core i.core).g = (s.core i.core).g ∧ (t.core i.core).rels = [])) ∧
    ((s.parcel (coreParcel i.core)).frozen.contains f.mark = false → s.markDamaged (coreParcel i.core) f.mark = false →
      (wordAt s (markKey (coreParcel i.core) f.mark) - (s.core i.core).getG f.g).toNat < 2 ^ 31 →
      s.spells i (.mwait i f) = true → ∃ t : State, exec (.mwait i f) s = .next t ∧ OnlyCore s t i.core ∧ SameRegs (s.core i.core) (t.core i.core) ∧
        (t.core i.core).wait = none ∧ (t.core i.core).pc = (s.core i.core).pc + 4) ∧
    ((2 ^ 31 ≤ (wordAt s (markKey (coreParcel i.core) f.mark) - (s.core i.core).getG f.g).toNat ∨
        (s.parcel (coreParcel i.core)).frozen.contains f.mark = true ∨ s.markDamaged (coreParcel i.core) f.mark = true) →
      s.spells i (.mwait i f) = true → ∃ t : State, exec (.mwait i f) s = .next t ∧ WaitsAt s t i.core (.mwait f.mark ((s.core i.core).getG f.g)))

/-- An MBAR with KIND ARRIVE and the barrier's present generation as its tag, at a core with nothing earlier open, while no arrival is held and the generation is more than one arrival from full, counts one arrival more and the core goes on. With KIND ARRIVE_WAIT as the last arrival of its generation, with none ahead, the generation rises by one, the count restarts at 0 and the core goes on. The instruction is the one that the words at the PC spell. (R287, R288, R289, R290) -/
def Obligations.BarrierArrivals : Prop :=
  ∀ (i : Issue) (f : FmtK) (parts : Nat) (s : State), f.remote = false → f.ab = 0 → Ready s i 4 [.g f.g] →
    s.barrierN (coreParcel i.core) f.mark = some parts → s.mem.wf = true → (s.core i.core).arr.fault = none → Settled s i.core →
    (s.parcel (coreParcel i.core)).heldArr = [] → (s.parcel (coreParcel i.core)).frozen.contains f.mark = false →
    s.markDamaged (coreParcel i.core) f.mark = false →
    bitsOf (wordAt s (markKey (coreParcel i.core) f.mark)).toNat 31 20 = 0 → parts < 4096 →
    (((s.core i.core).getG f.g).toNat = 256 + bitsOf (wordAt s (markKey (coreParcel i.core) f.mark)).toNat 7 0 →
      bitsOf (wordAt s (markKey (coreParcel i.core) f.mark)).toNat 19 8 + 1 < parts →
      s.spells i (.mbar i f) = true → ∃ t : State, exec (.mbar i f) s = .next t ∧ (t.core i.core).wait = none ∧ (t.core i.core).pc = (s.core i.core).pc + 4 ∧
        wordAt t (markKey (coreParcel i.core) f.mark) = wordAt s (markKey (coreParcel i.core) f.mark) + 256) ∧
    (((s.core i.core).getG f.g).toNat = bitsOf (wordAt s (markKey (coreParcel i.core) f.mark)).toNat 7 0 →
      bitsOf (wordAt s (markKey (coreParcel i.core) f.mark)).toNat 19 8 + 1 = parts →
      s.spells i (.mbar i f) = true → ∃ t : State, exec (.mbar i f) s = .next t ∧ (t.core i.core).wait = none ∧ (t.core i.core).pc = (s.core i.core).pc + 4 ∧
        (wordAt t (markKey (coreParcel i.core) f.mark)).toNat = (bitsOf (wordAt s (markKey (coreParcel i.core) f.mark)).toNat 7 0 + 1) % 256)

/-- DONE with the descriptor of the record the core holds, which is no re-run or audit, clears the record and the core goes on; where the descriptor has DM, and nothing of the core is open, 1 is added to mark DMARK of the home parcel, and no other byte of memory changes. DONE with another descriptor, or without a record, leaves what is held, emits TILE_DONE_BAD, and the core goes on. STEAL on a plot whose STEAL bit is 0 returns pd = 0 at once with the registers unchanged. On a parcel of no plot TAKE, STEAL and DONE raise PLOT_NONE. The instruction is the one that the words at the PC spell. (R53, R171, R176, R177) -/
def Obligations.DoneClearsTheRecord : Prop :=
  ∀ (i : Issue) (f : FmtT) (s : State), f.gd.toNat % 4 = 0 → f.gd ≠ 0 → f.reserved = 0 →
    (∀ d : BitVec 128, f.pd = 0 → (s.parcel (coreParcel i.core)).plot ≠ none → Ready s i 4 [.g f.gd, .g (f.gd + 1), .g (f.gd + 2), .g (f.gd + 3)] →
      (s.core i.core).arr.fault = none → (s.core i.core).rels = [] → s.spells i (.done i f) = true →
      d = (s.core i.core).getG (f.gd + 3) ++ (s.core i.core).getG (f.gd + 2) ++ (s.core i.core).getG (f.gd + 1) ++ (s.core i.core).getG f.gd →
      (∀ h : Held, (s.parcel (coreParcel i.core)).held.find? (fun q => decide (q.1 = i.core.core)) = some (i.core.core, h) → h.desc = d →
        h.first = none → h.audit = none →
        (d.getLsbD 107 = false → ∃ t : State, exec (.done i f) s = .next t ∧ t.holds i.core = false ∧
          (t.core i.core).pc = (s.core i.core).pc + 4 ∧ SameRegs (s.core i.core) (t.core i.core) ∧ t.mem = s.mem ∧ t.errs = s.errs ∧ t.fabs = s.fabs ∧
          (∀ c', c' ≠ i.core → t.core c' = s.core c')) ∧
        (d.getLsbD 107 = true → ∀ p : ParcelId, p.tract = i.core.tract → p.parcel.val = bitsOf d.toNat 106 96 → Settled s i.core →
          s.mem.wf = true → Counts s p (d.extractLsb' 112 10) →
          ∃ t : State, exec (.done i f) s = .next t ∧ t.holds i.core = false ∧ (t.core i.core).pc = (s.core i.core).pc + 4 ∧
            Stored s t (markKey p (d.extractLsb' 112 10)) (natLe 4 (wordAt s (markKey p (d.extractLsb' 112 10)) + 1).toNat) ∧
            (t.core i.core).g = (s.core i.core).g ∧ (t.core i.core).a = (s.core i.core).a ∧ (t.core i.core).rels = [])) ∧
      ((∀ h : Held, (s.parcel (coreParcel i.core)).held.find? (fun q => decide (q.1 = i.core.core)) = some (i.core.core, h) → h.desc ≠ d) →
        (s.fab i.core.tract).collector = [] → s.up.restore = .idle →
        ∃ t r, exec (.done i f) s = .next t ∧ (t.parcel (coreParcel i.core)).held = (s.parcel (coreParcel i.core)).held ∧ t.mem = s.mem ∧
          (t.core i.core).pc = (s.core i.core).pc + 4 ∧ (t.fab i.core.tract).collector = [r] ∧ r.cls = .tileDoneBad)) ∧
    ((s.parcel (coreParcel i.core)).plot ≠ none → Ready s i 4 [] → bitOf (s.plotReg (coreParcel i.core) .plotCfg) 3 = false →
      s.spells i (.steal i f) = true → ∃ t : State, exec (.steal i f) s = .next t ∧ WroteP s t i.core 4 f.pd false) ∧
    ((s.parcel (coreParcel i.core)).plot = none → Quietly s i.core →
      (Ready s i 4 [] → ∀ c ∈ [Instr.take i f, .steal i f], s.spells i c = true → ∃ t : State, exec c s = .next t ∧ Raised s t i.core 11) ∧
      (f.pd = 0 → Ready s i 4 [.g f.gd, .g (f.gd + 1), .g (f.gd + 2), .g (f.gd + 3)] → s.spells i (.done i f) = true →
        ∃ t : State, exec (.done i f) s = .next t ∧ Raised s t i.core 11))

/-- TAKE on a parcel of a plot, with nothing in the retry queue and no audit of the plot, hands its operation to the tile list unit, whose TILE_LIST_OPERATION gives the core the entry at the head of the list, the rest staying in order: its 16 bytes go to g(gd) to g(gd+3), pd becomes 1, the core holds the record and goes on; from an empty list pd becomes 0 and the registers stay. No other core and no memory changes. The instruction is the one that the words at the PC spell. The list operation of any core that waits in TAKE does the same. (R53, R169, R170, R176) -/
def Obligations.TakeTakesTheHead : Prop :=
  (∀ (i : Issue) (f : FmtT) (s : State), f.gd.toNat % 4 = 0 → f.gd ≠ 0 → f.reserved = 0 → Ready s i 4 [] → s.spells i (.take i f) = true →
    (s.parcel (coreParcel i.core)).plot ≠ none → (s.parcel (coreParcel i.core)).retries = [] → (s.parcel (coreParcel i.core)).audits = [] →
    bitOf (s.plotReg (coreParcel i.core) .plotRel) 1 = false → s.holds i.core = false →
    (∀ e rest, (s.parcel (coreParcel i.core)).tiles = e :: rest → e.bad = false →
      ∃ t u : State, exec (.take i f) s = .next t ∧ WaitsAt s t i.core (.tile false f.gd f.pd) ∧ exec (.tileListOperation i.core) t = .next u ∧
        GotTile s u i.core f.gd f.pd e.bytes ∧ (u.parcel (coreParcel i.core)).tiles = rest ∧ u.mem = s.mem ∧
        ∀ c', c' ≠ i.core → u.core c' = s.core c') ∧
    ((s.parcel (coreParcel i.core)).tiles = [] →
      ∃ t u : State, exec (.take i f) s = .next t ∧ WaitsAt s t i.core (.tile false f.gd f.pd) ∧ exec (.tileListOperation i.core) t = .next u ∧
        GotNone s u i.core f.pd ∧ (u.parcel (coreParcel i.core)).tiles = [] ∧ u.mem = s.mem ∧ ∀ c', c' ≠ i.core → u.core c' = s.core c')) ∧
  (∀ (c : CoreId) (gd : BitVec 5) (pd : BitVec 3) (s : State), (s.core c).wait = some (.tile false gd pd) → gd.toNat % 4 = 0 → gd ≠ 0 →
    (s.parcel (coreParcel c)).retries = [] → (s.parcel (coreParcel c)).audits = [] → bitOf (s.plotReg (coreParcel c) .plotRel) 1 = false →
    (∀ e rest, (s.parcel (coreParcel c)).tiles = e :: rest → e.bad = false → s.holds c = false →
      ∃ t : State, exec (.tileListOperation c) s = .next t ∧ GotTile s t c gd pd e.bytes ∧ (t.parcel (coreParcel c)).tiles = rest ∧ t.mem = s.mem) ∧
    ((s.parcel (coreParcel c)).tiles = [] →
      ∃ t : State, exec (.tileListOperation c) s = .next t ∧ GotNone s t c pd ∧ (t.parcel (coreParcel c)).tiles = [] ∧ t.mem = s.mem))

/-- STEAL on a plot whose STEAL bit is 1 hands its operation to the tile list unit. Where the core's pointer names a neighbour with a stealable tail of n entries, none of them damaged, TILE_LIST_OPERATION moves h of them, half of n rounded up but at most one more than its parcel has room for, from the tail of the neighbour's list: the first goes to the core, the others in order to the tail of its own parcel's list, so no entry is lost or doubled. Where no neighbour has a stealable tail pd becomes 0 and the registers stay. The instruction is the one that the words at the PC spell. The list operation of any core that waits in STEAL does the same. (R53, R171, R172, R173) -/
def Obligations.StealConservesTiles : Prop :=
  (∀ (i : Issue) (f : FmtT) (s : State), f.gd.toNat % 4 = 0 → f.gd ≠ 0 → f.reserved = 0 → Ready s i 4 [] → s.spells i (.steal i f) = true →
    (s.parcel (coreParcel i.core)).plot ≠ none → bitOf (s.plotReg (coreParcel i.core) .plotCfg) 3 = true →
    bitOf (s.plotReg (coreParcel i.core) .plotRel) 1 = false → s.holds i.core = false →
    (∀ (v : ParcelId) (e : TileEntry) (rest : List TileEntry), s.neighbour (coreParcel i.core) (s.core i.core).steal.toNat = some v → v ≠ coreParcel i.core →
      (∀ x ∈ (s.parcel v).tiles, x.bad = false) → 0 < stealTail (s.parcel v).tiles →
      (s.parcel v).tiles.drop ((s.parcel v).tiles.length -
        min ((stealTail (s.parcel v).tiles + 1) / 2) (s.tileFree (coreParcel i.core) + 1)) = e :: rest →
      ∃ t u : State, exec (.steal i f) s = .next t ∧ WaitsAt s t i.core (.tile true f.gd f.pd) ∧ exec (.tileListOperation i.core) t = .next u ∧
        GotTile s u i.core f.gd f.pd e.bytes ∧ (u.parcel v).tiles ++ e :: rest = (s.parcel v).tiles ∧
        (u.parcel (coreParcel i.core)).tiles = (s.parcel (coreParcel i.core)).tiles ++ rest ∧ u.mem = s.mem) ∧
    ((∀ d v, s.neighbour (coreParcel i.core) d = some v → stealTail (s.parcel v).tiles = 0) →
      ∃ t u : State, exec (.steal i f) s = .next t ∧ WaitsAt s t i.core (.tile true f.gd f.pd) ∧ exec (.tileListOperation i.core) t = .next u ∧
        GotNone s u i.core f.pd ∧ u.parcels = s.parcels ∧ u.mem = s.mem)) ∧
  (∀ (c : CoreId) (gd : BitVec 5) (pd : BitVec 3) (v : ParcelId) (e : TileEntry) (rest : List TileEntry) (s : State),
    (s.core c).wait = some (.tile true gd pd) → gd.toNat % 4 = 0 → gd ≠ 0 → bitOf (s.plotReg (coreParcel c) .plotRel) 1 = false →
    s.neighbour (coreParcel c) (s.core c).steal.toNat = some v → v ≠ coreParcel c → s.holds c = false →
    (∀ x ∈ (s.parcel v).tiles, x.bad = false) → 0 < stealTail (s.parcel v).tiles →
    (s.parcel v).tiles.drop ((s.parcel v).tiles.length -
      min ((stealTail (s.parcel v).tiles + 1) / 2) (s.tileFree (coreParcel c) + 1)) = e :: rest →
    ∃ t : State, exec (.tileListOperation c) s = .next t ∧ GotTile s t c gd pd e.bytes ∧ (t.parcel v).tiles ++ e :: rest = (s.parcel v).tiles ∧
      (t.parcel (coreParcel c)).tiles = (s.parcel (coreParcel c)).tiles ++ rest ∧ t.mem = s.mem)

/-- A push from a parcel whose stealable tail has reached the plot's PUSH threshold goes to the first neighbour in the order north, east, south, west with an empty list and a core that sleeps for a tile: the tail of the pusher's list, half of its stealable tail rounded up but no more than the neighbour has free entries for, becomes the neighbour's list, and no undamaged entry is lost. Memory stays. (R174, R172) -/
def Obligations.TilePushConservesTiles : Prop :=
  ∀ (p q : ParcelId) (d : Nat) (s : State), bitOf (s.plotReg p .plotCfg) 3 = true → bitsOf (s.plotReg p .plotCfg) 11 4 ≠ 0 →
    bitsOf (s.plotReg p .plotCfg) 11 4 ≤ stealTail (s.parcel p).tiles → d < 4 → s.neighbour p d = some q → q ≠ p →
    (s.parcel q).tiles = [] → s.sleepsForTile q = true → (∀ x ∈ (s.parcel p).tiles, x.bad = false) →
    (∀ d' r, d' < d → s.neighbour p d' = some r → (s.parcel r).tiles ≠ [] ∨ s.sleepsForTile r = false) →
    ∃ t : State, exec (.tilePush p) s = .next t ∧ (t.parcel p).tiles ++ (t.parcel q).tiles = (s.parcel p).tiles ∧
      (t.parcel q).tiles.length = min ((stealTail (s.parcel p).tiles + 1) / 2) (s.tileFree q) ∧ t.mem = s.mem

/-- SLEEP for a tile returns at once where the list holds one, with the condition in g and the LAND and ARRIVE latches cleared, and else waits. HALT waits at its PC. TRAP stops the core with its PC. FENCE with mask 0 only advances the PC; with a condition that is open it waits. The instruction is the one that the words at the PC spell. (R54, R56, R57, R58) -/
def Obligations.ControlInstructions : Prop :=
  ∀ (i : Issue) (f : FmtZ) (s : State),
    (f.imm8 = 0 → Ready s i 4 [.g f.g2] → (s.core i.core).getG f.g2 = 1 → f.g ≠ 0 →
      ((s.parcel (coreParcel i.core)).tiles ≠ [] →
        s.spells i (.sleep i f) = true → ∃ t : State, exec (.sleep i f) s = .next t ∧ OnlyCore s t i.core ∧ (t.core i.core).getG f.g = 1 ∧
          (∀ r, r ≠ f.g → (t.core i.core).getG r = (s.core i.core).getG r) ∧ (t.core i.core).land = false ∧ (t.core i.core).arrive = false ∧
          (t.core i.core).pc = (s.core i.core).pc + 4 ∧ (t.core i.core).wait = none) ∧
      ((s.parcel (coreParcel i.core)).tiles = [] → (s.parcel (coreParcel i.core)).retries = [] → (s.parcel (coreParcel i.core)).audits = [] →
        s.spells i (.sleep i f) = true → ∃ t th, exec (.sleep i f) s = .next t ∧ WaitsAt s t i.core (.sleep f.g 1 th))) ∧
    (f.g = 0 → f.g2 = 0 → Ready s i 4 [] → (s.core i.core).arr.fault = none →
      (f.imm8 = 0 → s.spells i (.halt i f) = true → ∃ t : State, exec (.halt i f) s = .next t ∧ WaitsAt s t i.core .halt) ∧
      (s.spells i (.trap i f) = true → ∃ t : State, exec (.trap i f) s = .next t ∧ (t.core i.core).run = .stopped ∧ (t.core i.core).pwr = .sleep ∧
        (t.core i.core).pc = (s.core i.core).pc ∧ t.mem = s.mem) ∧
      (f.imm8 = 0 → (s.core i.core).rels = [] → s.spells i (.fence i f) = true → ∃ t : State, exec (.fence i f) s = .next t ∧ OnlyCore s t i.core ∧
        KeptCore (s.core i.core) (t.core i.core) ∧ SameRegs (s.core i.core) (t.core i.core) ∧ (t.core i.core).pc = (s.core i.core).pc + 4) ∧
      (f.imm8 = 1 → (s.core i.core).rels = [] → (s.core i.core).loads.any (fun l => l.space == 1) = true →
        s.spells i (.fence i f) = true → ∃ t : State, exec (.fence i f) s = .next t ∧ WaitsAt s t i.core (.fence 1)))

/-- A running core that stalls, in a plot that permits SLEEP, enters SLEEP. A core that waits in MWAIT, MBAR, SLEEP or a remote wait, or has halted, with no copy, load, store, atomic or array entry outstanding, in a plot that permits SLEEP and DEEP and a tract that lends, enters DEEP, where the contents of its instruction buffer are discarded. A core whose wait is over wakes to RUN. A core that waits in HALT and has no copy, store or atomic, array entry or held addition open becomes halted in SLEEP; while a copy is in flight nothing happens. None of these changes a register, the PC or memory. (R57, R379, R380, R381) -/
def Obligations.CorePowerStates : Prop :=
  ∀ (c : CoreId) (s : State),
    ((s.core c).run = .running → (s.core c).pwr = .run → (s.core c).wait ≠ none → bitOf (s.plotReg (coreParcel c) .plotPwr) 0 = true →
      ∃ t : State, exec (.coreEnterSleep c) s = .next t ∧ OnlyCore s t c ∧ t.core c = { s.core c with pwr := .sleep }) ∧
    ((s.core c).run = .halted ∨ ((s.core c).run = .running ∧ ((∃ n thr, (s.core c).wait = some (.mwait n thr)) ∨ (∃ n o st nd, (s.core c).wait = some (.mbar n o st nd)) ∨
        (∃ g a o b, (s.core c).wait = some (.remoteWait g a o b)) ∨ ∃ g m thr, (s.core c).wait = some (.sleep g m thr))) →
      (s.core c).copies = [] → (s.core c).loads = [] → s.storesOpen c = 0 → (s.core c).arr.queue = [] →
      s.regBits (tractReg .easeCfg c.tract) 15 0 ≠ 0 → bitOf (s.plotReg (coreParcel c) .plotPwr) 0 = true → bitOf (s.plotReg (coreParcel c) .plotPwr) 1 = true →
      ∃ t : State, exec (.coreEnterDeep c) s = .next t ∧ OnlyCore s t c ∧ t.core c = { s.core c with pwr := .deep, ibuf := [] }) ∧
    ((s.core c).run = .running → (s.core c).pwr ≠ .run → (s.core c).rels = [] →
      ((s.core c).wait = none ∨ ((s.core c).wait = some (.resource 2) ∧ (s.core c).copies.length < 32) ∨
        ((s.core c).wait = some (.resource 3) ∧ (s.core c).loadsOpen < 8) ∨
        ∃ addr pc reg, (s.core c).wait = some (.operand addr pc reg) ∧ ∀ l ∈ (s.core c).loads, l.addr ≠ addr) →
      ∃ t : State, exec (.coreWake c) s = .next t ∧ t.core c = { s.core c with pwr := .run } ∧ (∀ c', c' ≠ c → t.core c' = s.core c') ∧
        t.mem = s.mem ∧ t.parcels = s.parcels ∧ t.fabs = s.fabs) ∧
    ((s.core c).wait = some .halt →
      (Settled s c → (s.core c).copies = [] → (s.core c).arr.cfg = none →
        ∃ t : State, exec (.haltComplete c) s = .next t ∧ OnlyCore s t c ∧ (t.core c).run = .halted ∧ (t.core c).pwr = .sleep ∧ (t.core c).wait = none ∧
          SameRegs (s.core c) (t.core c) ∧ (t.core c).pc = (s.core c).pc) ∧
      ((s.core c).copies ≠ [] → exec (.haltComplete c) s = .next s))

/-- The watchdog of a running core stops it at the instruction it waits at, with its registers as they were, and one CORE_FAULT record of cause WATCHDOG says what it waited for: wait code 1 for MWAIT, with the threshold and the value last seen; 3 for CWAIT, with the counter's number, its target and its value; 4 for SLEEP, with the mask; 5 for FENCE; 6 for TAKE and STEAL; 7 for an operand of an outstanding load, 0xB for an access behind a queued ASTAT; 9 for a HALT with something outstanding, with the copies in flight and the stores and array entries open; 8 for a resource that is still full. A held arrival of an MBAR is withdrawn, with wait code 2. A stall that is resolved, a core that does not stall and one that does not run raise none. (R27, R58, R299, R300, R301) -/
def Obligations.WatchdogStops : Prop :=
  ∀ (c : CoreId) (w : Wait) (s : State), (s.core c).run = .running → (s.core c).wait = some w → Quietly s c →
    (∀ code, ((∃ n thr, w = .mwait n thr ∧ code = 1) ∨ (∃ ac x, w = .cwait ac x ∧ code = 3) ∨ (∃ g m thr, w = .sleep g m thr ∧ code = 4) ∨
        (∃ m, w = .fence m ∧ code = 5) ∨ (∃ st gd pd, w = .tile st gd pd ∧ code = 6) ∨ (w = .halt ∧ s.haltReady c = false ∧ code = 9) ∨ (w = .resource 1 ∧ 8 ≤ (s.core c).arr.queue.length ∧ code = 8) ∨
        (w = .resource 4 ∧ 16 ≤ s.storesUse c ∧ code = 8) ∨ (∃ a pc r l, w = .operand a pc r ∧ l ∈ (s.core c).loads ∧ l.addr = a ∧ l.pc = pc ∧ code = 7) ∨
        (∃ pc e, w = .astat pc ∧ e ∈ (s.core c).arr.queue ∧ e.pc = pc ∧ code = 11) ∨
        (w = .resource 2 ∧ 32 ≤ (s.core c).copies.length ∧ code = 8) ∨ (w = .resource 3 ∧ 8 ≤ (s.core c).loadsOpen ∧ code = 8) ∨
        (∃ n o nd, w = .mbar n o .held nd ∧ code = 2)) →
      ∃ t d, exec (.watchdog c) s = .next t ∧ Raised s t c 13 ∧ (t.core c).wait = none ∧ (t.fab c.tract).collector = [d] ∧ fieldAt d.detail 1 1 = code ∧
        (∀ n thr, w = .mwait n thr → fieldAt d.detail 8 4 = thr.toNat ∧ fieldAt d.detail 12 4 = (s.markWord (coreParcel c) n).toNat) ∧
        (∀ g m thr, w = .sleep g m thr → fieldAt d.detail 8 4 = m.toNat) ∧
        (∀ ac x, w = .cwait ac x → fieldAt d.detail 8 4 = ac.toNat ∧ fieldAt d.detail 12 4 = x.toNat + 2 ^ 16 * ((s.core c).getAc ac).toNat) ∧
        (w = .halt → fieldAt d.detail 8 4 = (s.core c).copies.length % 2 ^ 32 ∧
          fieldAt d.detail 12 4 = (s.storesOpen c + 2 ^ 16 * (s.core c).arr.queue.length) % 2 ^ 32) ∧
        (∀ n o nd, w = .mbar n o .held nd → fieldAt d.detail 2 1 = (if barKind o = 2 then 3 else 1) ∧
          ∀ h ∈ (t.parcel (coreParcel c)).heldArr, ¬(h.mark = n ∧ h.src = .core c.core))) ∧
    (w = .resource 2 → (s.core c).copies.length < 32 → exec (.watchdog c) s = .next s) ∧
    (w = .halt → s.haltReady c = true → exec (.watchdog c) s = .next s) ∧
    (∀ s' : State, (s'.core c).wait = none ∨ (s'.core c).run ≠ .running → exec (.watchdog c) s' = .next s')

/-- An array instruction that the checks of R94 pass, at a core whose queue of 8 has room and whose gang has left no fault, joins the queue with its operands as they are at issue and the core goes on: registers, slots and memory bytes stay. AMODE leaves the view of later instructions with its configuration and empty strips; ASTREAM joins in every form, with TURN and its row stride, and with REUSE. The instruction is the one that the words at the PC spell. (R86, R90, R92, R93, R94, R95) -/
def Obligations.ArrayInstructionsQueue : Prop :=
  ∀ (i : Issue) (s : State), (s.core i.core).arr.queue.length < 8 → (s.core i.core).arr.fault = none →
    (∀ (f : FmtAmode) (g : ArrCfg), f.reserved = 0 → Ready s i 8 [] →
      g = { mode := f.mode, layout := f.layout, gang := f.gang, grow := f.grow, gcol := f.gcol, ord6 := f.ord6, fmts := f.fmts } →
      amodeBad i.core.core g = false → amodeWide g = false →
      s.spells i (.amode i f) = true → ∃ t : State, exec (.amode i f) s = .next t ∧ Queued s t i.core (s.core i.core).arr.queue (.amode g) 8 ∧
        (t.core i.core).arr.view.cfg = some g ∧ (t.core i.core).arr.view.strips = Vector.replicate 4 StripView.empty) ∧
    (∀ g : ArrCfg, (s.core i.core).arr.view.cfg = some g →
      (∀ (f : FmtAclear) lo w, f.reserved = 0 → Ready s i 4 [] → g.cols f.strip.toNat = some (lo, w) →
        f.sb.toNat + f.cntM1.toNat + 1 ≤ g.slotLimit f.strip.toNat →
        s.spells i (.aclear i f) = true → ∃ t : State, exec (.aclear i f) s = .next t ∧
          Queued s t i.core (s.core i.core).arr.queue (.aclear f.strip.toFin f.sb.toNat (f.cntM1.toNat + 1) f.krst) 4) ∧
      (∀ f : FmtAstat, f.reserved = 0 → Ready s i 4 [] →
        s.spells i (.astat i f) = true → ∃ t : State, exec (.astat i f) s = .next t ∧ Queued s t i.core ((s.core i.core).supersede (.g f.g)).arr.queue (.astat f.g f.clr) 4) ∧
      (∀ (f : FmtArr) lo w, f.reserved = 0 → g.cols f.strip.toNat = some (lo, w) →
        (∀ (ext : Word) (q : WSeqShape) (src : Source), ext.toNat < 2 ^ 21 → Ready s i 8 [.a f.a1, .a f.a2, .g f.g] →
          q = { nch := ext.toNat % 256 + 1, kc := ext.toNat / 256 % 64 + 1, kcl := ext.toNat / 2 ^ 14 % 64 + 1, next := 0 } →
          src = { addr := ((s.core i.core).getA f.a1).toNat, scale := ((s.core i.core).getA f.a2).toNat, rs := ((s.core i.core).getG f.g).toNat,
                  turn := ext.getLsbD 20, m := 0, kc := q.kc } →
          src.rs < 65536 → (src.turn = true → fmtIsMx (g.fmt f.strip.toNat) = true → g.wide f.strip.toNat = true) →
          q.kc ≤ g.kw f.strip.toNat → q.kcl ≤ g.kw f.strip.toNat →
          (chunkRefs q ((s.core i.core).arr.view.strips[f.strip.toFin]).kpos 0 q.nch).all ChunkRef.ok = true →
          src.aligned (fmtIsMx (g.fmt f.strip.toNat)) true = true →
          (weightRegions g f.strip.toNat g.grow.toNat w src ((s.core i.core).arr.view.strips[f.strip.toFin]).kpos
            (chunkRefs q ((s.core i.core).arr.view.strips[f.strip.toFin]).kpos 0 q.nch)).all Region.inStore = true →
          s.spells i (.awload i f ext) = true → ∃ t : State, exec (.awload i f ext) s = .next t ∧ Queued s t i.core (s.core i.core).arr.queue
            (.awload f.strip.toFin src.addr src.scale src.rs q.nch q.kc q.kcl src.turn) 8) ∧
        (∀ (m sb nch kc : Nat) (turn reuse : Bool) (cs : List ChunkRef) (x : StripView) (src : Source), Ready s i 4 [.a f.a1, .a f.a2, .g f.g] → f.g.toNat % 2 = 0 →
          ((s.core i.core).getG f.g).toNat = m + 128 * sb + 8192 * b2n turn + 16384 * b2n reuse + 65536 * nch → 1 ≤ m → m ≤ 64 → sb < 64 → nch < 256 →
          sb + m ≤ g.slotLimit f.strip.toNat →
          (turn = true → (s.core i.core).operandWait [.g (f.g + 1)] = none ∧ ((s.core i.core).getG (f.g + 1)).toNat < 65536 ∧
            (fmtIsMx (g.fmt f.strip.toNat) = true → g.wide f.strip.toNat = true)) →
          ((s.core i.core).arr.view.strips[f.strip.toFin]).consume reuse (nch + 1) = some (cs, kc, x) →
          src = { addr := ((s.core i.core).getA f.a1).toNat, scale := ((s.core i.core).getA f.a2).toNat, rs := ((s.core i.core).getG (f.g + 1)).toNat,
                  turn := turn, m := m, kc := kc } →
          (g.gcol = 0 → src.aligned (fmtIsMx (g.fmt f.strip.toNat)) turn = true ∧
            (streamRegions g f.strip.toNat g.grow.toNat src ((cs.head?.map (fun r => r.kpos)).getD 0) cs).all Region.inStore = true) →
          s.spells i (.astream i f) = true → ∃ t : State, exec (.astream i f) s = .next t ∧ Queued s t i.core (s.core i.core).arr.queue
            (.astream f.strip.toFin src.addr src.scale m sb turn reuse (nch + 1) (if turn then src.rs else 0)) 4) ∧
        (∀ (sb cnt rs : Nat) (keep : Bool) (bs : List Byte), Ready s i 4 [.a f.a1, .a f.a2, .g f.g] →
          ((s.core i.core).getG f.g).toNat = sb + 64 * cnt + 8192 * b2n keep + 65536 * rs → sb < 64 → 1 ≤ cnt → cnt ≤ 64 → rs < 65536 →
          sb + cnt ≤ g.slotLimit f.strip.toNat →
          ((g.grow.toNat + 1 ≠ g.size ∧ bs = List.replicate 32 0) ∨
            (g.grow.toNat + 1 = g.size ∧ ((s.core i.core).getA f.a2).toNat % 32 = 0 ∧ ((s.core i.core).getA f.a2).toNat + 32 ≤ 0x6000 ∧
              bs = s.peek (storeKey i.core ((s.core i.core).getA f.a2).toNat) 32 ∧
              s.poisoned (storeKey i.core ((s.core i.core).getA f.a2).toNat) 32 = false ∧
              sb + cnt * gatherGroups g (drainDesc bs) ≤ g.slotLimit f.strip.toNat ∧
              ((s.core i.core).getA f.a1).toNat % 4 = 0 ∧ rs % 4 = 0 ∧ drainBad g f.strip.toNat cnt (drainDesc bs) = false ∧
              ((drainDesc bs).bias = true → (drainDesc bs).baddr % 4 = 0) ∧
              (drainRegions g w ((s.core i.core).getA f.a1).toNat rs cnt (drainDesc bs)).all Region.inStore = true)) →
          s.spells i (.adrain i f) = true → ∃ t : State, exec (.adrain i f) s = .next t ∧ Queued s t i.core (s.core i.core).arr.queue
            (.adrain f.strip.toFin ((s.core i.core).getA f.a1).toNat bs sb cnt keep rs) 4)))

/-- The oldest entry of the queue of a core that is in no gang completes and leaves the queue. AMODE: the array has its configuration, every strip and slot empty, the sticky flags kept. ACLEAR: the slots it names are empty and the others stay. ASTAT: the register has the flags of the four strips, four bits each, and they are cleared exactly where CLR is set. Memory stays. In a gang of one, two or four rows and columns whose members all stand at one instruction, it completes on every member: AWLOAD leaves each member the weights of its own K positions of every chunk, from its local store by rows or, with TURN, by columns, and the strip at its K position; ASTREAM adds, on the members of the bottom row alone, to the slots SB to SB + M - 1 of every column the terms of the chunks it consumes (with REUSE the chunk last consumed), stream elements of the west members against the weights of all gang rows in rising K position, and every member's strip moves on; ADRAIN has the bottom members write CNT rows of the folded and converted slots at their stride, with the scale of each block in MX formats, every other byte staying, and leaves the slots folded with KEEP and empty without. A member whose queue is empty holds the gang up. Which K position a row of a member's operands counts from is the model's choice (assumption log 23), as is when the entry acts (log 3). (R63, R70, R75, R76, R82, R84, R88, R89, R90, R91, R92, R93) -/
def Obligations.ArrayEntriesComplete : Prop :=
  (∀ (c : CoreId) (e : ArrEntry) (rest : List ArrEntry) (s : State), s.dead c.tract.val = false → (s.core c).arr.queue = e :: rest →
    (s.core c).wait = none → (s.core c).rels = [] → (s.fab c.tract).ra = [] → (∀ g, (s.core c).arr.cfg = some g → g.gang = 0) →
    s.coreBad c [2] = none →
    (∀ g, e.op = .amode g → g.gang = 0 → ∃ t : State, exec (.arrayEntryComplete c) s = .next t ∧ OnlyCore s t c ∧ (t.core c).arr.cfg = some g ∧
      (t.core c).arr.formed = true ∧ (t.core c).arr.slots = [] ∧ (t.core c).arr.strips = Vector.replicate 4 Strip.empty ∧
      (t.core c).arr.flags = (s.core c).arr.flags ∧ (t.core c).arr.queue = rest ∧ (t.core c).g = (s.core c).g ∧ (t.core c).pc = (s.core c).pc) ∧
    (∀ g n sb cnt krst lo w, e.op = .aclear n sb cnt krst → (s.core c).arr.cfg = some g → g.cols n.val = some (lo, w) → lo + w ≤ 8 → sb + cnt ≤ 64 →
      ∃ t : State, exec (.arrayEntryComplete c) s = .next t ∧ OnlyCore s t c ∧ (t.core c).arr.queue = rest ∧
        (∀ x m, x < 8 → m < 64 → (t.core c).slot x m = if lo ≤ x ∧ x < lo + w ∧ sb ≤ m ∧ m < sb + cnt then Slot.empty else (s.core c).slot x m)) ∧
    (∀ r clr, e.op = .astat r clr → r ≠ 0 → ∃ t : State, exec (.arrayEntryComplete c) s = .next t ∧ OnlyCore s t c ∧ (t.core c).arr.queue = rest ∧
      (∀ j : Fin 4, ((t.core c).getG r).extractLsb' (4 * j.val) 4 = ((s.core c).arr.flags[j] : BitVec 4)) ∧
      (∀ x, x ≠ r → (t.core c).getG x = (s.core c).getG x) ∧
      (t.core c).arr.flags = (if clr then Vector.replicate 4 0 else (s.core c).arr.flags))) ∧
  (∀ (c : CoreId) (gz : Nat) (g : Nat → Nat → ArrCfg) (op : Nat → Nat → ArrOp) (i : Fin 4) (lo w : Nat) (s : State), gz ∈ [1, 2, 4] →
    c = memberAt c gz 0 0 → TeamAt s c gz g op → (g 0 0).cols i.val = some (lo, w) →
    (∀ (aw ax rs : Nat → Nat → Nat) (nch kc kcl : Nat) (turn : Bool),
      (∀ r q, op r q = .awload i (aw r q) (ax r q) (rs r q) nch kc kcl turn) → kc ≤ (g 0 0).kw i.val → kcl ≤ (g 0 0).kw i.val →
      ∃ t : State, exec (.arrayEntryComplete c) s = .next t ∧ t.mem.bytes = s.mem.bytes ∧ ∀ r q, r < gz → q < gz →
        ((t.core (memberAt c gz r q)).arr.strips[i]).seq = some { nch := nch, kc := kc, kcl := kcl, next := 0 } ∧
        ((t.core (memberAt c gz r q)).arr.strips[i]).kpos = ((s.core (memberAt c gz r q)).arr.strips[i]).kpos ∧
        ((t.core (memberAt c gz r q)).arr.strips[i]).last = ((s.core (memberAt c gz r q)).arr.strips[i]).last ∧
        (t.core (memberAt c gz r q)).arr.slots = (s.core (memberAt c gz r q)).arr.slots ∧
        (t.core (memberAt c gz r q)).arr.queue = (s.core (memberAt c gz r q)).arr.queue.drop 1 ∧
        ((t.core (memberAt c gz r q)).arr.strips[i]).chunks.length = nch ∧
        ∀ j n, j < nch → n < w → ∃ ch col, ((t.core (memberAt c gz r q)).arr.strips[i]).chunks[j]? = some ch ∧ ch[n]? = some col ∧
          col.length = min (8 * (g 0 0).perCell i.val) ((if j + 1 = nch then kcl else kc) - 8 * (g 0 0).perCell i.val * r) ∧
          ∀ k, k < col.length → col[k]? = some (weightAt s (memberAt c gz r q) (g r q) i.val (aw r q) (ax r q) (rs r q) kc turn
            ((s.core (memberAt c gz r q)).arr.strips[i]).kpos ((((s.core (memberAt c gz r q)).arr.strips[i]).kpos + j * kc) % 2 ^ 32) j
            (8 * (g 0 0).perCell i.val * r + k) n)) ∧
    (∀ (a x rs : Nat → Nat → Nat) (m sb n0 kc nk kpos : Nat) (turn reuse : Bool) (ks : List Nat) (ws : Nat → Nat → List WChunk),
      (∀ r q, op r q = .astream i (a r q) (x r q) m sb turn reuse n0 (rs r q)) → sb + m ≤ 64 →
      -- nk chunks, chunk j at K position ks[j] of n positions; every member's own part of them is ws
      (∀ r q, r < gz → q < gz → ∃ sq, ((s.core (memberAt c gz r q)).arr.strips[i]).seq = some sq ∧ sq.kc = kc ∧
        (reuse = true → nk = 1 ∧ ∃ ch, ((s.core (memberAt c gz r q)).arr.strips[i]).last = some (kpos, ch) ∧ ks = [kpos] ∧ ws r q = [ch]) ∧
        (reuse = false → nk = n0 ∧ sq.next + n0 ≤ sq.nch ∧ ((s.core (memberAt c gz r q)).arr.strips[i]).kpos = kpos ∧
          ws r q = (((s.core (memberAt c gz r q)).arr.strips[i]).chunks.drop sq.next).take n0 ∧
          ks = (List.range n0).map (fun j => (kpos + j * kc) % 2 ^ 32))) →
      (∀ r q j, r < gz → q < gz → j < nk → (∃ ch, (ws r q)[j]? = some ch ∧ w ≤ ch.length ∧ ∀ col ∈ ch, ∃ col0 ch0, (ws r 0)[j]? = some ch0 ∧
        ch0[0]? = some col0 ∧ col.length = col0.length ∧ col.length ≤ 8 * (g 0 0).perCell i.val ∧ (r + 1 < gz → ws (r + 1) 0 ≠ [] →
          (((ws (r + 1) 0).getD j []).getD 0 []).length ≠ 0 → col.length = 8 * (g 0 0).perCell i.val))) →
      ∃ t : State, exec (.arrayEntryComplete c) s = .next t ∧ t.mem.bytes = s.mem.bytes ∧
        (∀ q n r, q < gz → n < w → r < m →
          (t.core (memberAt c gz (gz - 1) q)).slot (lo + n) (sb + r) =
            (List.range nk).foldl (fun sl j => (sl.row (g 0 0) i.val
              ((List.range gz).flatMap (fun gr => (List.range (((ws gr 0).getD j []).getD 0 []).length).map (fun k =>
                (streamAt s (memberAt c gz gr 0) (g gr 0) i.val (a gr 0) (x gr 0) m (rs gr 0) kc turn kpos (ks.getD j 0) j
                  (8 * (g 0 0).perCell i.val * gr + k) r,
                 (((ws gr q).getD j []).getD n []).getD k { code := 0, scale := 0, bad := false },
                 (ks.getD j 0 + 8 * (g 0 0).perCell i.val * gr + k) % 2 ^ 32))))).1)
              ((s.core (memberAt c gz (gz - 1) q)).slot (lo + n) (sb + r))) ∧
        (∀ r q col n, r < gz → q < gz → col < 8 → n < 64 → (r + 1 < gz ∨ col < lo ∨ lo + w ≤ col ∨ n < sb ∨ sb + m ≤ n) →
          (t.core (memberAt c gz r q)).slot col n = (s.core (memberAt c gz r q)).slot col n) ∧
        (∀ r q, r < gz → q < gz → (reuse = true → (t.core (memberAt c gz r q)).arr.strips = (s.core (memberAt c gz r q)).arr.strips) ∧
          (reuse = false → ∀ sq, ((s.core (memberAt c gz r q)).arr.strips[i]).seq = some sq →
            ((t.core (memberAt c gz r q)).arr.strips[i]).seq = some { sq with next := sq.next + n0 } ∧
            ((t.core (memberAt c gz r q)).arr.strips[i]).kpos =
              (kpos + n0 * kc - (if sq.next + n0 = sq.nch ∧ 0 < n0 then kc else 0) + (if sq.next + n0 = sq.nch ∧ 0 < n0 then sq.kcl else 0)) % 2 ^ 32 ∧
            ((t.core (memberAt c gz r q)).arr.strips[i]).chunks = ((s.core (memberAt c gz r q)).arr.strips[i]).chunks))) ∧
    (∀ (ad rs : Nat → Nat → Nat) (ds : Nat → Nat → List Byte) (sb cnt bits n : Nat) (keep : Bool) (d : Nat → DrainDesc),
      (∀ r q, op r q = .adrain i (ad r q) (ds r q) sb cnt keep (rs r q)) → (∀ q, d q = drainDesc (ds (gz - 1) q)) → s.mem.wf = true →
      (∀ q, q < gz → drainBad (g 0 0) i.val cnt (d q) = false ∧ drainBits (d q) = bits ∧ gatherGroups (g 0 0) (d q) * w = n ∧ (d q).mx = (d 0).mx ∧ (d q).mxdir = (d 0).mxdir ∧
        sb + cnt * gatherGroups (g 0 0) (d q) ≤ 64 ∧ (cnt = 1 ∨ ceilDiv (bits * n) 8 ≤ rs (gz - 1) q) ∧
        ad (gz - 1) q % 4 = 0 ∧ rs (gz - 1) q % 4 = 0 ∧ ad (gz - 1) q + cnt * rs (gz - 1) q + ceilDiv (bits * n) 8 ≤ 0x6000 ∧
        Clean s (storeKey (memberAt c gz (gz - 1) q) (ad (gz - 1) q)) (cnt * rs (gz - 1) q + ceilDiv (bits * n) 8) ∧
        -- an MX drain whose elements are sound
        ((d 0).mx = true → (d q).saddr + 64 ≤ 0x6000 ∧ Apart (ad (gz - 1) q) (cnt * rs (gz - 1) q + ceilDiv (bits * n) 8) (d q).saddr 64 ∧
          Clean s (storeKey (memberAt c gz (gz - 1) q) (d q).saddr) 64 ∧
          (∀ m e, m < cnt → e ∈ drainedRow s (memberAt c gz (gz - 1) q) (g 0 0) i.val (d q) lo w sb cnt m → e.bad = false) ∧
          ((d 0).mxdir = true → cnt % 32 = 0))) →
      ∃ t : State, exec (.arrayEntryComplete c) s = .next t ∧
        (∀ q m, q < gz → m < cnt →
          let x := memberAt c gz (gz - 1) q
          let own := drainedRow s x (g 0 0) i.val (d q) lo w sb cnt m
          ((d 0).mx = false → ∀ k e, own[k]? = some e →
            packedAt t x (ad (gz - 1) q + m * rs (gz - 1) q) bits k = (if e.bad then 0 else (e.convert (d q)).1) ∧
            (e.bad = true → t.poisoned (storeKey x (ad (gz - 1) q + m * rs (gz - 1) q + bits * k / 8)) 1 = true)) ∧
          ((d 0).mx = true → (d 0).mxdir = false →
            ∀ whole, whole = (List.range gz).flatMap (fun q => drainedRow s (memberAt c gz (gz - 1) q) (g 0 0) i.val (d q) lo w sb cnt m) →
            (byteAt t.mem.bytes (storeKey x ((d q).saddr + m))).toNat = (mxScale (elemFmt (d q).ofmt (d q).ovar) (whole.map (fun e => e.x))).1 % 256 ∧
            ∀ k, k < n → some (packedAt t x (ad (gz - 1) q + m * rs (gz - 1) q) bits k) =
              (mxElems (elemFmt (d q).ofmt (d q).ovar) (mxScale (elemFmt (d q).ofmt (d q).ovar) (whole.map (fun e => e.x))).1 (own.map (fun e => e.x))).1[k]?) ∧
          ((d 0).mx = true → (d 0).mxdir = true → ∀ k blk, k < w → blk = drainedCol s x (g 0 0) i.val (d q) lo sb k (m / 32) →
            (byteAt t.mem.bytes (storeKey x ((d q).saddr + 8 * (m / 32) + k))).toNat = (mxScale (elemFmt (d q).ofmt (d q).ovar) (blk.map (fun e => e.x))).1 % 256 ∧
            some (packedAt t x (ad (gz - 1) q + m * rs (gz - 1) q) bits k) =
              (mxElems (elemFmt (d q).ofmt (d q).ovar) (mxScale (elemFmt (d q).ofmt (d q).ovar) (blk.map (fun e => e.x))).1 (blk.map (fun e => e.x))).1[m % 32]?)) ∧
        (∀ y, (∀ q m, q < gz → m < cnt → ¬(storeKey (memberAt c gz (gz - 1) q) (ad (gz - 1) q + m * rs (gz - 1) q) ≤ y ∧
              y < storeKey (memberAt c gz (gz - 1) q) (ad (gz - 1) q + m * rs (gz - 1) q) + ceilDiv (bits * n) 8)) →
            (∀ q, q < gz → (d 0).mx = true → ¬(storeKey (memberAt c gz (gz - 1) q) (d q).saddr ≤ y ∧ y < storeKey (memberAt c gz (gz - 1) q) (d q).saddr + 64)) →
            byteAt t.mem.bytes y = byteAt s.mem.bytes y) ∧
        (∀ r q col m, r < gz → q < gz → col < 8 → m < 64 → (t.core (memberAt c gz r q)).slot col m =
          let old := (s.core (memberAt c gz r q)).slot col m
          if r + 1 = gz ∧ lo ≤ col ∧ col < lo + w ∧ sb ≤ m ∧ m < sb + cnt then
            (if keep then (if old.bad then old else (old.fold (g 0 0).mode.toNat ((g 0 0).fmt i.val == 7)).1) else Slot.empty)
          else old))) ∧
  (∀ (c : CoreId) (gz : Nat) (a : Nat → Nat → ArrCfg) (s : State), gz ∈ [1, 2, 4] → c = memberAt c gz 0 0 → s.dead c.tract.val = false →
    (s.fab c.tract).ra = [] → gangMembers c gz = (List.range (gz * gz)).map (fun j => memberAt c gz (j / gz) (j % gz)) →
    (∀ h, (s.core c).arr.cfg = some h → h.size ≤ gz) →
    (∀ r q, r < gz → q < gz → ((s.core (memberAt c gz r q)).arr.queue.head?.map (fun e => e.op)) = some (.amode (a r q)) ∧ (a r q).size = gz ∧
      (a r q).mode = (a 0 0).mode ∧ (a r q).fmts = (a 0 0).fmts ∧ (a r q).ord6 = (a 0 0).ord6 ∧ (a r q).gang = (a 0 0).gang ∧
      (s.core (memberAt c gz r q)).wait = none ∧ (s.core (memberAt c gz r q)).rels = [] ∧ s.coreBad (memberAt c gz r q) [2, 3] = none) →
    ∃ t : State, exec (.arrayEntryComplete c) s = .next t ∧ t.mem = s.mem ∧ ∀ r q, r < gz → q < gz →
      (t.core (memberAt c gz r q)).arr.cfg = some (a r q) ∧ (t.core (memberAt c gz r q)).arr.formed = true ∧
      (t.core (memberAt c gz r q)).arr.slots = [] ∧ (t.core (memberAt c gz r q)).arr.strips = Vector.replicate 4 Strip.empty ∧
      (t.core (memberAt c gz r q)).arr.flags = (s.core (memberAt c gz r q)).arr.flags ∧
      (t.core (memberAt c gz r q)).arr.queue = (s.core (memberAt c gz r q)).arr.queue.drop 1) ∧
  (∀ (c m : CoreId) (g : ArrCfg) (s : State), (s.core c).arr.cfg = some g → (s.core c).arr.formed = true → m ∈ gangMembers c g.size →
    (s.core m).arr.queue = [] → (∀ a, ((s.core c).arr.queue.head?.map (fun e => e.op)) ≠ some (.amode a)) → exec (.arrayEntryComplete c) s = .next s)

/-- With nothing in the fabric's agents, no replica line valid at the tract and every channel of the Mover sound, an entry of the Mover that is alone in its queue, passes the checks of R160, and reads and writes sound memory of this module in runs that share no byte, ends its work with status 0; the bytes it writes are those its operation gives, each at its address, and every other byte of memory, every core and every parcel is unchanged. An entry that fails a check ends with that status and memory stays. MOVER_ENTRY_COMPLETE takes an entry of status 0 out of the queue, and one of status 1 to 9 stops the queue with a MOVER_FAULT record. That an entry's accesses meet memory as one is assumption log 48, what 16-byte units an entry whose runs overlap would read log 26. (R155, R156, R157, R158, R159, R160, R162) -/
def Obligations.MoverEntriesWriteWhatTheyName : Prop :=
  ∀ (t : Tract) (e : QEntry) (net : List NetReply) (s : State), s.mem.wf = true → Unshared s t → s.up.badChannels = [] → s.up.badUnits = [] →
    (Begins s (engQueue t .mover) e → ∀ op ∈ moverOps, e.mov.op = op.1 →
      (s.movCheck e.mov = 0 → (∀ q ∈ e.mov.reads, Sound s q.1 q.2) → (∀ q ∈ e.mov.writes, Sound s q.1 q.2) →
        (∀ q ∈ e.mov.reads, ∀ w ∈ e.mov.writes, Apart (q.1 % 2 ^ 52) q.2 (w.1 % 2 ^ 52) w.2) →
        (moved s e.mov).Pairwise (fun a b => Apart (a.1 % 2 ^ 52) a.2.length (b.1 % 2 ^ 52) b.2.length) →
        (∀ v ∈ moverIndex s e.mov, e.mov.op = 2 ∨ e.mov.op = 3 → v < e.mov.rows ∨ v = 0xFFFF_FFFF) →
        ∃ u : State, exec (op.2 t net) s = .next u ∧ WorkDone u (engQueue t .mover) e 0 ∧
          (∀ q ∈ moved s e.mov, ∀ j < q.2.length, byteAt u.mem.bytes (q.1 % 2 ^ 52 + j) = q.2.getD j 0) ∧
          (∀ x, (∀ q ∈ moved s e.mov, x < q.1 % 2 ^ 52 ∨ q.1 % 2 ^ 52 + q.2.length ≤ x) → byteAt u.mem.bytes x = byteAt s.mem.bytes x) ∧
          u.cores = s.cores ∧ u.parcels = s.parcels) ∧
      (s.movCheck e.mov ≠ 0 → ∃ u : State, exec (op.2 t net) s = .next u ∧ WorkDone u (engQueue t .mover) e (s.movCheck e.mov) ∧ u.mem = s.mem ∧
        u.cores = s.cores ∧ u.parcels = s.parcels)) ∧
    ((s.queue (engQueue t .mover)).entries = [e] → (s.queue (engQueue t .mover)).hold = none →
      (e.work = .status 0 → Quiet s (engQueue t .mover) e →
        ∃ u : State, exec (.moverEntryComplete t 0) s = .next u ∧ Left s u (engQueue t .mover) ∧ u.mem = s.mem ∧ u.cores = s.cores) ∧
      (∀ st, e.work = .status st → 1 ≤ st → st ≤ 9 → (s.queue (engQueue t .mover)).stopped = false → (s.fab t).collector = [] →
        ∃ u : State, exec (.moverEntryComplete t 0) s = .next u ∧ Faulted u (engQueue t .mover) .moverFault st ∧ u.mem = s.mem ∧ u.cores = s.cores))

/-- Each entry of the Dispatcher, alone in its queue and passing its checks: PLOT_SET puts exactly the parcels of its range into the plot, or into none, and sets the plot's class, STEAL and PUSH and its count of parcels; START leaves the selected cores of the plot to be started; TLOAD appends each descriptor, in order, to the list of its home parcel or, dealt, of the next parcel of the plot; TMPL_SET sets the templates and no other register but the counts of the fabric that its read adds to; TCLEAR empties the lists of the plot and no other. A reserved OP faults with status 1. That an entry's reads meet memory as one is assumption log 48. (R28, R165, R178, R181, R183, R184, R185, R186, R187) -/
def Obligations.DispatcherEntries : Prop :=
  ∀ (t : Tract) (e : QEntry) (s : State), Begins s (engQueue t .dispatcher) e → Quiet s (engQueue t .dispatcher) e →
    (e.dispOp = 0 → e.bodyClean [(11, 0), (12, 12), (53, 32), (74, 64)] = true → 1 ≤ e.body 53 43 → e.body 42 32 + e.body 53 43 ≤ 1360 →
      (∀ p ∈ parcelRange t (e.body 42 32) (e.body 53 43), s.parcelIdle p = true) →
      (e.body 12 12 = 0 → ∃ u : State, exec (.plotSet t) s = .next u ∧ Left s u (engQueue t .dispatcher) ∧
        (∀ p, (u.parcel p).plot = if p ∈ parcelRange t (e.body 42 32) (e.body 53 43) then some (BitVec.ofNat 8 (e.body 11 4)) else (s.parcel p).plot) ∧
        u.regBits (tractRegI .plotCfg t (e.body 11 4)) 2 1 = e.body 65 64 ∧ u.regBits (tractRegI .plotCfg t (e.body 11 4)) 3 3 = e.body 66 66 ∧
        u.regBits (tractRegI .plotCfg t (e.body 11 4)) 11 4 = e.body 74 67 ∧
        u.regBits (tractRegI .plotCfg t (e.body 11 4)) 22 12 = (u.plotParcels t (BitVec.ofNat 8 (e.body 11 4))).length ∧
        u.cores = s.cores ∧ u.mem = s.mem) ∧
      (e.body 12 12 = 1 → e.body 11 4 = 0 → e.body 74 64 = 0 → ∃ u : State, exec (.plotSet t) s = .next u ∧ Left s u (engQueue t .dispatcher) ∧
        (∀ p, (u.parcel p).plot = if p ∈ parcelRange t (e.body 42 32) (e.body 53 43) then none else (s.parcel p).plot) ∧
        u.cores = s.cores ∧ u.mem = s.mem)) ∧
    (e.dispOp = 1 → e.bodyClean [(11, 0), (113, 96), (145, 128), (177, 160), (255, 192), (319, 256), (383, 320)] = true → e.body 113 96 % 4 = 0 →
      e.body 145 128 < e.body 177 160 → e.body 177 160 ≤ vectorBase (s.layout t) → e.body 113 96 < vectorBase (s.layout t) →
      s.plotEmpty t (e.body 11 4) = false →
      ∀ c0 : CoreId, c0.tract = t → (s.parcel (coreParcel c0)).plot = some (BitVec.ofNat 8 (e.body 11 4)) → e.body (192 + c0.core.val) (192 + c0.core.val) = 1 →
      ∃ u cs, exec (.start t) s = .next u ∧ (u.queue (engQueue t .dispatcher)).entries = [{ e with started := true, work := .starting cs }] ∧
        (∀ c : CoreId, c ∈ cs ↔ c.tract = t ∧ (s.parcel (coreParcel c)).plot = some (BitVec.ofNat 8 (e.body 11 4)) ∧
          e.body (192 + c.core.val) (192 + c.core.val) = 1) ∧ u.cores = s.cores ∧ u.mem = s.mem) ∧
    (∀ net bs, e.dispOp = 2 → e.bodyClean [(11, 0), (13, 13), (447, 384), (479, 448)] = true → 1 ≤ e.body 479 448 → e.body 479 448 ≤ 65536 →
      e.body 447 384 % 16 = 0 → s.plotEmpty t (e.body 11 4) = false → s.engineFetch (e.body 447 384) (16 * e.body 479 448) net = some bs →
      DispatcherReads s t (e.body 447 384) (16 * e.body 479 448) →
      (∀ d ∈ records16 bs, tdValid d = true) →
      let ps := s.plotParcels t (BitVec.ofNat 8 (e.body 11 4))
      let mine (p : ParcelId) : List (BitVec 128) := ((records16 bs).zipIdx.filter (fun q =>
        ps.contains p && (if e.body 13 13 = 1 then ps[q.2 % ps.length]? == some p else p.parcel.val == tdHome q.1))).map (fun q => q.1)
      ps ≠ [] → (e.body 13 13 = 0 → ∀ d ∈ records16 bs, ∃ p ∈ ps, p.parcel.val = tdHome d) → (∀ p ∈ ps, (mine p).length ≤ s.tileFree p) →
      ∃ u : State, exec (.tload t net) s = .next u ∧ Left s u (engQueue t .dispatcher) ∧ u.mem = s.mem ∧
        ∀ p, (u.parcel p).tiles = (s.parcel p).tiles ++ (mine p).map (fun d => ({ bytes := d, bad := false } : TileEntry))) ∧
    (∀ net bs, e.dispOp = 3 → e.bodyClean [(3, 0), (105, 96), (447, 384), (479, 448)] = true → 1 ≤ e.body 479 448 →
      e.body 105 96 + e.body 479 448 ≤ 1024 → e.body 447 384 % 16 = 0 → s.engineFetch (e.body 447 384) (16 * e.body 479 448) net = some bs →
      DispatcherReads s t (e.body 447 384) (16 * e.body 479 448) →
      (∀ d ∈ records16 bs, tmValid d.toNat = true) →
      ∃ u : State, exec (.tmplSet t net) s = .next u ∧ Left s u (engQueue t .dispatcher) ∧ u.mem = s.mem ∧ u.parcels = s.parcels ∧
        (∀ j d, (records16 bs)[j]? = some d → u.reg (tractRegI .tileTmpl t (e.body 105 96 + j)) = d.toNat) ∧
        (∀ k, k.r ≠ .fabCl → k.r ≠ .fabHcl → k.r ≠ .fabStat → (∀ j < (records16 bs).length, k ≠ tractRegI .tileTmpl t (e.body 105 96 + j)) → u.reg k = s.reg k)) ∧
    (e.dispOp = 4 → e.bodyClean [(11, 0)] = true → s.plotEmpty t (e.body 11 4) = false →
      ∃ u : State, exec (.tclear t) s = .next u ∧ Left s u (engQueue t .dispatcher) ∧ u.mem = s.mem ∧ u.cores = s.cores ∧
        ∀ p, (u.parcel p).tiles = if p ∈ s.plotParcels t (BitVec.ofNat 8 (e.body 11 4)) then [] else (s.parcel p).tiles) ∧
    (5 ≤ e.dispOp → (s.fab t).collector = [] →
      ∃ u : State, exec (.plotSet t) s = .next u ∧ Faulted u (engQueue t .dispatcher) .dispFault 1 ∧ u.cores = s.cores ∧ u.parcels = s.parcels)

/-- A core that a START still has to start, and that does not run, is started: every g, a and ac register is 0, the predicates but p0 too, the PC is at ENTRY, the program region and the arguments are the entry's, the core runs in RUN with an empty buffer, its LAND and ARRIVE latches clear and no wait, what it had still to load reaches no register any more, and its steal pointer is its number modulo 4; its copies, held additions, tile signature and array slots stay, and no other core changes. The entry goes on with the cores left, or completes with the last. START_TIMEOUT faults the entry with status 7 and starts none. That the cores are started one by one is assumption log 25. (R28, R185, R186) -/
def Obligations.CoresAreStarted : Prop :=
  ∀ (c : CoreId) (e : QEntry) (l : List CoreId) (s : State), (s.queue (engQueue c.tract .dispatcher)).entries = [e] → e.work = .starting l → c ∈ l →
    Quiet s (engQueue c.tract .dispatcher) e →
    ((s.core c).run ≠ .running → s.enginesRun = true → (s.core c).arr.cfg = none →
      ∃ u : State, exec (.dispatcherCoreStart c) s = .next u ∧
        (u.core c).g = Vector.replicate 32 0 ∧ (u.core c).a = Vector.replicate 16 0 ∧ (∀ n, (u.core c).getP n = decide (n = 0)) ∧
        (u.core c).ac = Vector.replicate 8 0 ∧ (u.core c).pc = BitVec.ofNat 18 (e.body 113 96) ∧
        (u.core c).progBase = BitVec.ofNat 18 (e.body 145 128) ∧ (u.core c).progLimit = BitVec.ofNat 18 (e.body 177 160) ∧
        (u.core c).arg0 = BitVec.ofNat 64 (e.body 319 256) ∧ (u.core c).arg1 = BitVec.ofNat 64 (e.body 383 320) ∧
        (u.core c).run = .running ∧ (u.core c).pwr = .run ∧ (u.core c).wait = none ∧ (u.core c).ibuf = [] ∧ (u.core c).land = false ∧
        (u.core c).arrive = false ∧ (∀ l ∈ (u.core c).loads, l.parts = []) ∧ (u.core c).loads.length = (s.core c).loads.length ∧
        (u.core c).steal.toNat = c.core.val % 4 ∧ (u.core c).copies = (s.core c).copies ∧ (u.core c).rels = (s.core c).rels ∧
        (u.core c).tsig = (s.core c).tsig ∧ (u.core c).arr.slots = (s.core c).arr.slots ∧ (∀ d, d ≠ c → u.core d = s.core d) ∧ u.mem = s.mem ∧
        ((∀ d ∈ l, d = c) → Left s u (engQueue c.tract .dispatcher)) ∧
        ((∃ d ∈ l, d ≠ c) → (u.queue (engQueue c.tract .dispatcher)).entries = [{ e with work := .starting (l.filter (fun d => decide (d ≠ c))) }])) ∧
    ((s.queue (engQueue c.tract .dispatcher)).stopped = false → (s.fab c.tract).collector = [] →
      ∃ u : State, exec (.startTimeout c.tract) s = .next u ∧ Faulted u (engQueue c.tract .dispatcher) .dispFault 7 ∧ u.cores = s.cores ∧ u.mem = s.mem)

/-- A SELECT that passes its checks, in a memory without hidden errors, writes for each token of its plot, in rank order, the selection record of the best choices, counts the NaN tokens in RT_STAT, leaves the queue, and writes nothing else. A RANK that may begin and whose choices all have an owner leaves its entry in progress and one run with as many keys as it owns itself, up to the buffer. A SORT joins the scan tree while another tract is missing. RANK_COMPLETE of a layer that has its cutoffs, with nothing left to route, writes them to the cutoff table, ALL for an expert without one, and ends every RANK of the module. RANK_PEER_TIMEOUT with a silent peer and SCAN_TREE_TIMEOUT fault the entry with status 9; RANK_PEER_TIMEOUT without one raises a closure fault of cause 2. The SORT of the twelfth tract lets every tract go on: where each choice's cadastre entry is valid, the tokens rise and the areas have room, each tract's send region holds its accepted rows by owner module, tract, expert and token, each with its tag, its number among the module's rows of the expert and its activation, and its directory one run for each expert. That a SORT joins with what its records hold when the last tract does is assumption log 31. (R191, R194, R195, R196, R197, R198, R203, R204, R205, R206, R209, R219) -/
def Obligations.RoutingEntries : Prop :=
  ∀ (t : Tract) (e : QEntry) (r r0 : RouteEntry) (l : LayerRec) (s : State), s.mem.wf = true → r = routeEntry e.bytes → s.layerRec r.layer = some l → s.up.restore = .idle →
    (Begins s (engQueue t .transit) e → s.routeBad t e = false → s.routeAddr t r l = false →
      (e.xop = 0 → Quiet s (engQueue t .transit) e → NoHidden s →
        (∀ p ∈ s.plotParcels t (BitVec.ofNat 8 r.plot), ∀ i < r.ntok, Clean s (sliceKey p (r.selOff + i * selBytes l.k)) (selBytes l.k) ∧
          s.inReplica (sliceKey p (r.selOff + i * selBytes l.k)) (selBytes l.k) = false) →
        ∃ u : State, exec (.select t) s = .next u ∧ Left s u (engQueue t .transit) ∧ u.cores = s.cores ∧ u.parcels = s.parcels ∧
          u.regBits (tractReg .rtStat t) 15 0 = (s.regBits (tractReg .rtStat t) 15 0 + ((s.plotParcels t (BitVec.ofNat 8 r.plot)).map (fun p =>
            ((List.range r.ntok).filter (fun i => (s.selectToken p r l i).nan)).length)).sum) % 2 ^ 16 ∧
          (∀ n p i, (s.plotParcels t (BitVec.ofNat 8 r.plot))[n]? = some p → i < r.ntok → ∀ j < selBytes l.k,
            byteAt u.mem.bytes (sliceKey p (r.selOff + i * selBytes l.k) + j) =
              (selRecord l.k ((r.tbase + (n * r.ntok + i)) % 2 ^ 32) (s.selectToken p r l i)).getD j 0) ∧
          (∀ x, (∀ p ∈ s.plotParcels t (BitVec.ofNat 8 r.plot), ∀ i < r.ntok, x < sliceKey p (r.selOff + i * selBytes l.k) ∨
            sliceKey p (r.selOff + i * selBytes l.k) + selBytes l.k ≤ x) → byteAt u.mem.bytes x = byteAt s.mem.bytes x)) ∧
      (∀ ks, e.xop = 1 → s.rankKeys l (s.tokensOf t r.plot r.selOff l.k r.ntok r.empty) = some ks → l.kparcel < 1360 →
        s.xferBlocked t (keyX r.layer r.mb) r.stabKey s.jobIsLarge = false → (∀ u : Tract, ∀ x ∈ (s.txfer u).ranks, x.layer ≠ r.layer ∨ (u ≠ t ∧ x.mb = r.mb)) →
        ∃ u run, exec (.rank t) s = .next u ∧ (u.queue (engQueue t .transit)).entries = [{ e with started := true, work := .await [] }] ∧
          u.rankOf t r.layer r.mb = some run ∧ run.entry = e.id ∧
          run.keys = min l.keyCap (ks.filter (fun q => decide ((q.1.module, q.1.tract) = (s.job.moduleId.toNat, t.val)))).length) ∧
      (e.xop = 2 → (r.bwd = true ∨ (s.txfer t).ranked.any (fun x => x.1 == r.layer && x.2.1 == r.mb) = true) →
        ∀ v : Tract, v ≠ t → (s.txfer v).waits = [] →
        ∃ u : State, exec (.sort t) s = .next u ∧ (u.queue (engQueue t .transit)).entries = [{ e with started := true, work := .await [] }] ∧
          (u.txfer t).waits = (s.txfer t).waits ++ [{ layer := r.layer, mb := r.mb, bwd := r.bwd, entry := e.id, bytes := e.bytes }] ∧
          u.mem = s.mem)) ∧
    (∀ mb, (∀ v, ∃ run, s.rankOf v l.layer mb = some run ∧ run.keys = 0 ∧ (routeEntry run.bytes).empty = true) → s.layerRec l.layer = some l →
      (s.cutRun l.layer mb).ranked = true → (s.cutRun l.layer mb).status = 0 → s.exchQuiet (cutX l.layer mb) = true →
      (∀ o ∈ s.owners l, o ∈ (s.cutRun l.layer mb).heard) → s.inWindow l.cutGa (8 * l.e) = true →
      ((s.cutRun l.layer mb).cuts.map (fun q => q.1)).Nodup → (∀ q ∈ (s.cutRun l.layer mb).cuts, q.1 < l.e) →
      l.cutGa % 2 ^ 52 + 8 * l.e < 2 ^ 52 → Clean s (l.cutGa % 2 ^ 52) (8 * l.e) →
      ∃ u : State, exec (.rankComplete l.layer mb) s = .next u ∧ (∀ v, u.rankOf v l.layer mb = none) ∧
        ((∀ v : Tract, ∀ x ∈ (s.queue (engQueue v .transit)).entries, x.sga = 0) →
          (∀ q ∈ (s.cutRun l.layer mb).cuts, ∀ j < 8,
            byteAt u.mem.bytes (l.cutGa % 2 ^ 52 + 8 * q.1 + j) = (natLe 4 q.2.1 ++ natLe 4 q.2.2).getD j 0) ∧
          (∀ x < l.e, (∀ q ∈ (s.cutRun l.layer mb).cuts, q.1 ≠ x) → ∀ j < 8,
            byteAt u.mem.bytes (l.cutGa % 2 ^ 52 + 8 * x + j) = (natLe 4 0xFF80_0000 ++ natLe 4 0xFFFF_FFFF).getD j 0))) ∧
    (∀ mb run, s.rankOf t l.layer mb = some run → (s.queue (engQueue t .transit)).entries = [e] → e.id = run.entry →
      (s.queue (engQueue t .transit)).stopped = false → (s.queue (engQueue t .transit)).hold = none → (s.fab t).collector = [] →
      ((∀ x, (s.exchOf t (keyX l.layer mb)).or (s.exchOf t (cutX l.layer mb)) = some x → s.silentPeers x ≠ []) →
        ∃ u : State, exec (.rankPeerTimeout t l.layer mb) s = .next u ∧ Faulted u (engQueue t .transit) .routeFault 9 ∧
          u.rankOf t l.layer mb = none ∧ u.mem = s.mem) ∧
      (∀ x, (s.exchOf t (keyX l.layer mb)).or (s.exchOf t (cutX l.layer mb)) = some x → s.silentPeers x = [] →
        s.regBits (tractReg .clStat t) 0 0 = 0 →
        ∃ u d, exec (.rankPeerTimeout t l.layer mb) s = .next u ∧ (u.queue (engQueue t .transit)).entries = [] ∧
          (u.queue (engQueue t .transit)).stopped = true ∧ (u.fab t).collector = [d] ∧ d.cls = .closureFault ∧
          u.regBits (tractReg .clStat t) 3 1 = 2 ∧ u.rankOf t l.layer mb = none)) ∧
    (∀ w ws, (s.txfer t).waits = w :: ws → (s.queue (engQueue t .transit)).entries = [e] → e.id = w.entry →
      (s.queue (engQueue t .transit)).stopped = false → (s.queue (engQueue t .transit)).hold = none → (s.fab t).collector = [] →
      ∃ u : State, exec (.scanTreeTimeout t) s = .next u ∧ Faulted u (engQueue t .transit) .routeFault 9 ∧ (u.txfer t).waits = ws ∧ u.mem = s.mem) ∧
  (∀ (es : Tract → QEntry) (r : Tract → RouteEntry), AllSound s → (∀ v, r v = routeEntry (es v).bytes) → es t = e → Begins s (engQueue t .transit) e →
    e.xop = 2 → s.routeBad t e = false → s.routeAddr t r0 l = false → r0 = r t → s.up.badUnits = [] →
    (r0.bwd = true ∨ (s.txfer t).ranked.any (fun x => x.1 == r0.layer && x.2.1 == r0.mb) = true) → (s.txfer t).waits = [] →
    (∀ v, v ≠ t → (s.queue (engQueue v .transit)).entries = [es v] ∧ (s.txfer v).waits =
      [{ layer := r0.layer, mb := r0.mb, bwd := r0.bwd, entry := (es v).id, bytes := (es v).bytes }]) →
    (∀ v, Quiet s (engQueue v .transit) (es v)) → (∀ v, (r v).layer = r0.layer) →
    -- the tokens rise, every choice has its owner, every area lies in the slice and has room
    ((allTracts.flatMap (fun v => ((s.tokensOf v (r v).plot (r v).selOff l.k (r v).ntok (r v).empty).filter (fun x => !x.bad)).map (fun x => x.gti))).Pairwise (fun a b => a < b)) →
    (∀ v, ∀ x ∈ s.tokensOf v (r v).plot (r v).selOff l.k (r v).ntok (r v).empty, ∀ c ∈ x.choices, c.acc = true → c.expert < l.e ∧ (s.cadOf l c.expert).isSome = true) →
    (∀ v, (sortedRows s l r r0.bwd v).length ≤ (r v).srRows ∧ ((sortedRows s l r r0.bwd v).map (fun x => x.ch.expert)).dedup.length ≤ (r v).dirCap ∧
      0 < (r v).srNp ∧ (r v).srP0 + (r v).srNp ≤ 1360 ∧ (r v).srOff + ((r v).srRows / (r v).srNp + 1) * l.rowb ≤ sliceSize ∧ (r v).srOff % 16 = 0 ∧
      (r v).dirGa % 16 = 0 ∧ gaTract (r v).dirGa = v.val ∧ s.isOwn (r v).dirGa = true ∧ s.reach (r v).dirGa (16 * (r v).dirCap) true = 0 ∧
      (∀ n p, keyParcel (keyOf v.val ((r v).srP0 + n) 0) = some p → n < (r v).srNp →
        Apart ((r v).dirGa % 2 ^ 52) (16 * (r v).dirCap) (sliceKey p (r v).srOff) (((r v).srRows / (r v).srNp + 1) * l.rowb))) →
    16 + l.payb ≤ l.rowb → l.rowb % 16 = 0 →
    ∃ u : State, exec (.sort t) s = .next u ∧ ∀ v, Left s u (engQueue v .transit) ∧ (u.txfer v).waits = [] ∧
      (∀ n x, (sortedRows s l r r0.bwd v)[n]? = some x → ∀ p, keyParcel (keyOf v.val ((r v).srP0 + n % (r v).srNp) 0) = some p → ∀ j < l.rowb,
        byteAt u.mem.bytes (sliceKey p ((r v).srOff + n / (r v).srNp * l.rowb) + j) =
          if j < 16 then (rowTag s.job.moduleId.toNat r0.layer x).getD j 0
          else if j < 16 + l.payb then byteAt s.mem.bytes (sliceKey x.tok.parcel ((r v).actOff + x.tok.row * (r v).astride) + (j - 16)) else 0) ∧
      (∀ n ex, (((sortedRows s l r r0.bwd v).map (fun x => x.ch.expert)).dedup)[n]? = some ex → ∃ first x, (sortedRows s l r r0.bwd v)[first]? = some x ∧
        x.ch.expert = ex ∧ (∀ m y, m < first → (sortedRows s l r r0.bwd v)[m]? = some y → y.ch.expert ≠ ex) ∧ ∀ j < 16,
        byteAt u.mem.bytes ((r v).dirGa % 2 ^ 52 + 16 * n + j) = (dirBytes x.cad.module x.cad.tract ex first
          ((sortedRows s l r r0.bwd v).filter (fun y => decide (y.ch.expert = ex))).length x.mrow
          ((sortNumbered s l r r0.bwd).filter (fun y => decide (y.ch.expert = ex))).length).getD j 0))

/-- A DISPATCH or COMBINE that passes its checks adds the rows it sends to the attempted count of CL_SEND and the rows it expects to the expected count of CL_RECV. RSCAT of FP32, AGATH and BCAST of a group of one tract of one module copy the source to the destination, GNORM writes the tree sum of its source, and the entry leaves the queue. CREDIT_UNIT takes one unit off the oldest segment of a path, in flight or with credits to send it, and the last unit takes the segment off: then each row of a dispatch stands in the landing area of its expert, at the place its number gives whatever came before, each row of an announcement as a null row there, and each return row at the place its tag names, each is counted, and the cores of a parcel whose slice took a row latch LAND; with the last return row COMBINE writes for every token the exact sum of its rows times their gates, rounded once. EXCHANGE_TIMEOUT with a silent peer faults the entry with status 9, and without one raises a closure fault of cause 2. TILE_ENTRY_WRITE appends to the parcel's list as many of a row group's entries as it has room for; TILE_OVERFLOW emits TILE_OVERFLOW, leaves the list, and the exchange sends no more. That the units of a path land in this order is assumption log 59, which cores latch LAND log 65. (R54, R179, R180, R222, R236, R238, R239, R242, R243, R245, R246, R249) -/
def Obligations.ExchangeEntries : Prop :=
  ∀ (t : Tract) (e : QEntry) (s : State), s.mem.wf = true → s.up.restore = .idle →
    (Begins s (engQueue t .transit) e →
      (∀ f l, f = parseXfer e.bytes → s.layerRec f.layer = some l → xferBad e f l = false → s.xferBlocked t f.key f.stab s.jobIsLarge = false →
        (∀ run keys held bases segs, e.xop = 3 → f.op = 3 →
          run = (s.txfer t).sorts.find? (fun r => decide (r.layer = f.layer) && decide (r.mb = f.mb) && decide (r.bwd = f.bwd)) →
          keys = (((s.txfer t).ranked.find? (fun r => decide (r.1 = f.layer) && decide (r.2.1 = f.mb))).map (fun r => r.2.2)).getD 0 →
          held = ((s.baseRun t f.layer f.mb).map (fun b => b.size)).getD 0 →
          bases = (if f.bwd then s.readBases t l f.btabOff held else s.buildBases t l keys) →
          segs = (match f.empty, run with | false, some r => s.dispatchSegs t f.key r l.rowb | _, _ => []) →
          s.dispatchFault t f l run bases segs = 0 →
          ∃ u : State, exec (.dispatch t) s = .next u ∧
            u.regBits (tractReg .clSend t) 31 0 = (s.regBits (tractReg .clSend t) 31 0 + (segs.map (fun g => g.rows.length)).sum) % 2 ^ 32 ∧
            u.regBits (tractReg .clRecv t) 31 0 = (s.regBits (tractReg .clRecv t) 31 0 + (bases.map (fun b => b.acnt)).sum) % 2 ^ 32) ∧
        (∀ b bases rows, e.xop = 4 → f.op = 4 → combinePast f l = false → s.landPast t l f.loff b.spread = false → pastSlice f.btabOff 8 b.size 8 = false →
          s.baseRun t f.layer f.mb = some b → bases = s.readBases t l f.btabOff b.size → rows = s.returnRows t f l bases b.spread →
          (s.jobIsLarge = true → s.slotTable f.stab ≠ none) →
          ∃ u : State, exec (.combine t) s = .next u ∧
            u.regBits (tractReg .clSend t) 31 0 = (s.regBits (tractReg .clSend t) 31 0 + rows.length) % 2 ^ 32 ∧
            u.regBits (tractReg .clRecv t) 31 0 = (s.regBits (tractReg .clRecv t) 31 0 +
              ((s.tokensOf t f.plot f.selOff l.k f.ntok f.empty).map (fun x =>
                if x.bad then 0 else (x.choices.filter (fun c => c.acc && !c.sovf)).length)).sum) % 2 ^ 32)) ∧
      (∀ c k, c = collEntry e.bytes → c.op = e.xop → k = ({ xk := 4, layer := 0, mb := 0, cid := c.cid } : XKey) → s.collBad t e c = false →
        s.groupOf c = [s.job.moduleId.toNat] → c.tracts = [t.val] → s.exchOf t k = none → s.xfer.paths = [] → s.xfer.sends = [] →
        s.reach c.grpGa 2 false = 0 → Quiet s (engQueue t .transit) e →
        ∀ src dst, src = memberGa c.srcGa s.job.moduleId.toNat t.val → dst = memberGa c.dstGa s.job.moduleId.toNat t.val →
        (∀ op ∈ ([(5, .rscat), (6, .agath), (7, .bcast)] : List (Nat × (Tract → Instr))), e.xop = op.1 →
          (op.1 = 5 → c.ibf16 = false ∧ c.obf16 = false) →
          s.reach src (c.inBytes 1 0) false = 0 → s.reach dst (c.inBytes 1 0) true = 0 → Sound s src (c.inBytes 1 0) → Sound s dst (c.inBytes 1 0) →
          ∃ u : State, exec (op.2 t) s = .next u ∧ Left s u (engQueue t .transit) ∧ OnlyLand s u t ∧
            (∀ j < c.inBytes 1 0, byteAt u.mem.bytes (dst % 2 ^ 52 + j) = byteAt s.mem.bytes (src % 2 ^ 52 + j)) ∧
            (∀ x, x < dst % 2 ^ 52 ∨ dst % 2 ^ 52 + c.inBytes 1 0 ≤ x → byteAt u.mem.bytes x = byteAt s.mem.bytes x)) ∧
        (e.xop = 8 → s.reach src (4 * c.n) false = 0 → s.reach dst 4 true = 0 → Sound s src (4 * c.n) → Sound s dst 4 →
          ∃ u : State, exec (.gnorm t) s = .next u ∧ Left s u (engQueue t .transit) ∧ OnlyLand s u t ∧
            (∀ j < 4, byteAt u.mem.bytes (dst % 2 ^ 52 + j) = (natLe 4
              (redTree ((List.range c.n).map (fun i => redWord false (s.mread (src % 2 ^ 52) (4 * c.n)) i))).1.1.toNat).getD j 0) ∧
            (∀ x, x < dst % 2 ^ 52 ∨ dst % 2 ^ 52 + 4 ≤ x → byteAt u.mem.bytes x = byteAt s.mem.bytes x)))) ∧
    (∀ src i rest, (s.xfer.paths.map (fun q => q.1)).Nodup → s.xfer.paths.get (t, src) [] = i :: rest → s.canLand t i.seg = true →
      0 < i.flight ∨ (inFlight (i :: rest) = 0 ∧ i.flight < i.units ∧ s.stoppedItem src i = false) →
      (1 < i.units → ∃ u i' rest', exec (.creditUnit t src) s = .next u ∧ u.xfer.paths.get (t, src) [] = i' :: rest' ∧ i'.seg = i.seg ∧
        i'.units = i.units - 1 ∧ rest'.map (fun x => (x.seg, x.units)) = rest.map (fun x => (x.seg, x.units)) ∧
        u.xfer.exch.map (fun x => { x with heard := [] }) = s.xfer.exch.map (fun x => { x with heard := [] }) ∧ u.mem = s.mem ∧ u.regs = s.regs) ∧
      (i.units ≤ 1 → ∃ u : State, exec (.creditUnit t src) s = .next u ∧
        ((u.xfer.paths.get (t, src) []).map (fun x => x.seg)).Sublist (rest.map (fun x => x.seg)))) ∧
    (∀ x, (s.xfer.exch.filter (fun x => decide (x.tract = t) && decide (x.key.xk ≤ 4)))[0]? = some x → (s.queue (engQueue t .transit)).entries = [e] →
      e.id = x.entry → (s.queue (engQueue t .transit)).stopped = false → (s.queue (engQueue t .transit)).hold = none → (s.fab t).collector = [] →
      (∀ p ps, s.silentPeers x = p :: ps → ∃ u : State, exec (.exchangeTimeout t 0) s = .next u ∧ Faulted u (engQueue t .transit) .transitFault 9 ∧
        u.exchOf t x.key = none ∧ u.mem = s.mem) ∧
      (s.silentPeers x = [] → s.regBits (tractReg .clStat t) 0 0 = 0 →
        ∃ u d, exec (.exchangeTimeout t 0) s = .next u ∧ (u.queue (engQueue t .transit)).entries = [] ∧
          (u.queue (engQueue t .transit)).stopped = true ∧ (u.fab t).collector = [d] ∧ d.cls = .closureFault ∧
          u.regBits (tractReg .clStat t) 0 0 = 1 ∧ u.regBits (tractReg .clStat t) 3 1 = 2 ∧ u.exchOf t x.key = none ∧ u.mem = s.mem)) ∧
    (∀ p x g, s.pendingGroup p = some (x, g) →
      (∃ u : State, exec (.tileEntryWrite p) s = .next u ∧ (u.parcel p).tiles = (s.parcel p).tiles ++
        (((tileEntries g.tmpl p.parcel.val g).drop g.wrote).take (s.tileFree p)).map (fun b => ({ bytes := b, bad := false } : TileEntry))) ∧
      (s.tileFree p = 0 → (s.fab p.tract).collector = [] → ∃ u d y, exec (.tileOverflow p) s = .next u ∧ (u.fab p.tract).collector = [d] ∧
        d.cls = .tileOverflow ∧ u.exchOf x.tract x.key = some y ∧ y.halted = true ∧ u.parcels = s.parcels ∧ u.mem = s.mem)) ∧
  (∀ src i x l f h, LastUnit s t src i x → AllSound s → h = i.seg.hdr → s.layerRec h.layer = some l → f = parseXfer x.bytes → l.rowb % 16 = 0 →
    -- rows and null rows of a dispatch
    (∀ b pl, h.xk ≤ 1 → x.bases.find? (fun b => decide (b.expert = h.expert) && decide (b.smod = h.smod)) = some b → s.expertPlace t l h.expert = some pl →
      pl.land % 16 = 0 → f.loff % 16 = 0 → 0 < f.spread →
      (∀ q < x.total h.expert, ∃ p off n, pl.slot f.spread f.loff l.rowb q = some (p, off, n) ∧ p.tract = t ∧ off + l.rowb ≤ sliceSize) → pl.parcels.Nodup →
        -- which holds no cadastre entry
        h.expert < l.e → l.cadGa % 2 ^ 52 + 16 * l.e ≤ 2 ^ 52 →
        (∀ q < x.total h.expert, ∀ p off n, pl.slot f.spread f.loff l.rowb q = some (p, off, n) → Apart (sliceKey p off) l.rowb (l.cadGa % 2 ^ 52) (16 * l.e)) →
      (h.type = 1 → (∀ g ∈ i.seg.rows, g.bytes.length = l.rowb ∧ g.poison = [] ∧ b.base + fieldAt g.bytes 14 2 < x.total h.expert ∧
          x.filled.contains (h.expert, b.base + fieldAt g.bytes 14 2) = false) → (i.seg.rows.map (fun g => fieldAt g.bytes 14 2)).Nodup →
        x.got + x.nul + i.seg.rows.length < x.want →
        ∃ u y, exec (.creditUnit t src) s = .next u ∧ OnlyLand s u t ∧ u.exchOf t (segKey i.seg) = some y ∧ y.got = x.got + i.seg.rows.length ∧ y.nul = x.nul ∧
          u.regBits (tractReg .clRecv t) 63 32 = (s.regBits (tractReg .clRecv t) 63 32 + i.seg.rows.length) % 2 ^ 32 ∧
          ∀ g ∈ i.seg.rows, ∀ p off n, pl.slot f.spread f.loff l.rowb (b.base + fieldAt g.bytes 14 2) = some (p, off, n) →
            (∀ j < l.rowb, byteAt u.mem.bytes (sliceKey p off + j) = g.bytes.getD j 0) ∧
            (∀ c ∈ s.coresOf p, (∀ a m th, (s.core c).wait ≠ some (.sleep a m th)) → (u.core c).land = true)) ∧
      (h.type = 2 → (∀ n < h.novf, b.base + h.mbase + n < x.total h.expert ∧ x.filled.contains (h.expert, b.base + (h.mbase + n)) = false) →
        x.got + x.nul + h.novf < x.want → l.tallyGa % 2 ^ 52 + 16 * 4096 < 2 ^ 52 → Apart ((l.tallyGa + 16 * h.expert) % 2 ^ 52) 16 (l.cadGa % 2 ^ 52) (16 * l.e) →
        (∀ q < x.total h.expert, ∀ p off n, pl.slot f.spread f.loff l.rowb q = some (p, off, n) →
          Apart (sliceKey p off) l.rowb ((l.tallyGa + 16 * h.expert) % 2 ^ 52) 16) →
        ∃ u y, exec (.creditUnit t src) s = .next u ∧ u.cores = s.cores ∧ u.exchOf t (segKey i.seg) = some y ∧ y.nul = x.nul + h.novf ∧ y.got = x.got ∧
          ∀ n < h.novf, ∀ p off k, pl.slot f.spread f.loff l.rowb (b.base + (h.mbase + n)) = some (p, off, k) →
            ∀ j < l.rowb, byteAt u.mem.bytes (sliceKey p off + j) = ((nullRow h.smod l.rowb).map (fun b => b.1)).getD j 0)) ∧
    -- return rows, and the sum that the last one lets COMBINE write
    ((h.xk = 2 ∨ h.xk = 3) → f.retOff % 16 = 0 →
      (∀ g ∈ i.seg.rows, g.bytes.length = l.rowb ∧ g.poison = [] ∧ x.data.any (fun d => (d.1, d.2.1) == returnPlace (g.bytes.take 16)) = true ∧
        x.filled.contains (returnPlace (g.bytes.take 16)) = false ∧
        f.retOff + (fieldAt g.bytes 12 2 * l.k + (returnPlace (g.bytes.take 16)).2 + 1) * l.rowb ≤ sliceSize) →
      (i.seg.rows.map (fun g => returnPlace (g.bytes.take 16))).Nodup → (∀ g ∈ i.seg.rows, (returnPlace (g.bytes.take 16)).2 < l.k) →
      (x.got + i.seg.rows.length < x.want →
        ∃ u y, exec (.creditUnit t src) s = .next u ∧ OnlyLand s u t ∧ u.exchOf t (segKey i.seg) = some y ∧ y.got = x.got + i.seg.rows.length ∧
          ∀ g ∈ i.seg.rows, ∀ p : ParcelId, p.tract = t → p.parcel.val = fieldBits g.bytes 6 2 10 0 → ∀ j < l.rowb,
            byteAt u.mem.bytes (sliceKey p (f.retOff + (fieldAt g.bytes 12 2 * l.k + (returnPlace (g.bytes.take 16)).2) * l.rowb) + j) = g.bytes.getD j 0) ∧
      (∀ (g : RowData) (p : ParcelId) (s1 : State), i.seg.rows = [g] → x.got + 1 = x.want → s.xfer.paths = [((t, src), [i])] → s.xfer.sends = [] →
        (∀ u, src ≠ .tract u) → x.out = [] → x.halted = false → x.att = x.dlv + x.ovf → x.poison = false → s.up.badUnits = [] →
        (s.queue (engQueue t .transit)).entries = [e] → e.id = x.entry → Quiet s (engQueue t .transit) e →
        combinePast f l = false → f.empty = false → (s.plotParcels t (BitVec.ofNat 8 f.plot)).Nodup → f.nelem * (if f.ybf16 then 2 else 4) ≤ f.ystride →
        f.yOff % 16 = 0 → f.ystride % 16 = 0 → p.tract = t → p.parcel.val = fieldBits g.bytes 6 2 10 0 →
        -- memory with the row in its place
        Stored s s1 (sliceKey p (f.retOff + (fieldAt g.bytes 12 2 * l.k + (returnPlace (g.bytes.take 16)).2) * l.rowb)) g.bytes →
        s1.parcels = s.parcels → s1.mem.poison = [] → s1.mem.par = [] → s1.mem.ue = [] →
        ∃ u : State, exec (.creditUnit t src) s = .next u ∧ Left s u (engQueue t .transit) ∧ u.exchOf t (segKey i.seg) = none ∧
          ∀ q ∈ s1.tokensOf t f.plot f.selOff l.k f.ntok false, ∀ j < f.nelem,
            leNat (u.mem.read (sliceKey q.parcel (f.yOff + q.row * f.ystride + j * (if f.ybf16 then 2 else 4))) (if f.ybf16 then 2 else 4)) =
              (combineElem ((q.choices.filter (fun c => c.acc && !c.sovf)).map (fun c => combineTerm s1 l f q c j)) f.ybf16).1)))

/-- PLAN_DB starts a fetch at PLAN_PTR while the module is OWNED or ARMED and changes nothing else. PLAN_VALIDATED of a plan that passes items 1 to 5 makes it the pending plan; of one that is late sets LATE; of one that is rejected sets REJECT; the pending plan then stays. The plan in force stays in every case. (R212, R213, R480) -/
def Obligations.PlansBecomePending : Prop :=
  ∀ s : State,
    (∀ v, s.job.state = .owned ∨ s.job.state = .armed →
      exec (.planDb v) s = .next { s with plan := { s.plan with fetching := some (s.reg (modReg .planPtr)) } }) ∧
    (∀ ptr bs ts, s.plan.fetching = some ptr → ptr % 64 = 0 →
      (s.planVerdict (planImage bs ts) = .valid → s.tablesVerdict (planImage bs ts) = .valid →
        ∃ u : State, exec (.planValidated (.ok bs ts)) s = .next u ∧ u.plan = { s.plan with fetching := none, pending := some (planImage bs ts) } ∧
          u.mem.bytes = s.mem.bytes ∧ u.cores = s.cores ∧ u.job = s.job) ∧
      (s.planVerdict (planImage bs ts) = .late → ∃ u : State, exec (.planValidated (.ok bs ts)) s = .next u ∧ u.plan = { s.plan with fetching := none } ∧
        u.regBits (modReg .planStat) 4 4 = 1) ∧
      (∀ o, s.planVerdict (planImage bs ts) = .rejected o none → ∃ u : State, exec (.planValidated (.ok bs ts)) s = .next u ∧
        u.plan = { s.plan with fetching := none } ∧ u.regBits (modReg .planStat) 3 3 = 1) ∧
      (∀ o n, s.planVerdict (planImage bs ts) = .valid → s.tablesVerdict (planImage bs ts) = .rejected o (some n) →
        ∃ u : State, exec (.planValidated (.ok bs ts)) s = .next u ∧ u.plan = { s.plan with fetching := none } ∧ u.regBits (modReg .planStat) 3 3 = 1) ∧
      (∀ o, ∃ u : State, exec (.planValidated (.planFailed o)) s = .next u ∧ u.plan = { s.plan with fetching := none } ∧ u.regBits (modReg .planStat) 3 3 = 1))

/-- In a job of one module: a step that has ended with its closure complete clears the row counters of every tract and, without a snapshot or a re-plan due, agrees on its own time; a closure fault stops the boundary; the end of the writes of a snapshot that was made of a quiescent module leaves its duration in SNAP_STAT and goes on to the agreement, where neither screening nor the ageing re-plan is enabled; writes that failed, or whose destination cannot be written, leave a SNAP_FAIL record and go on to it. PLAN_VOTE puts the pending plan for the next step in force, or reuses the one in force. In any job a record from the parent ends the agreement with its time, or puts in force the plan the module voted with, whatever has become pending since; and one of a child that the module cannot yet act on is kept. STEP_START increments STEP, adds 1 to SMARK of every tract whose mark counts, and the step runs, with PLAN_STALE counted where the plan is reused. BOUNDARY_TIMEOUT stops the boundary. Which modules are parent and children is assumption log 71, that the records name no port log 72, that the commands come in this order log 45. (R214, R215, R216, R217, R218, R246, R247, R253, R303, R436) -/
def Obligations.StepBoundary : Prop :=
  ∀ s : State, s.mem.wf = true → s.job.state = .armed →
    (Alone s → s.errs.running = true → s.plan.stepped = true → s.plan.bnd.phase = .none → s.errs.abort = none → s.stepEnded = true →
      (s.closureCheck.2 = true → s.snapAsked = none → s.regBits (modReg .relCtl) 15 15 = 0 →
        ∃ u : State, exec .stepEnd s = .next u ∧ u.plan.bnd.phase = .agreed ∧ u.plan.bnd.tA = s.mtime ∧ u.cores = s.cores ∧ u.job = s.job ∧
          ∀ t : Tract, u.reg (tractReg .clSend t) = 0 ∧ u.reg (tractReg .clRecv t) = 0 ∧ u.reg (tractReg .clNull t) = 0) ∧
      (s.closureCheck.2 = true → s.snapAsked ≠ none → ∃ u : State, exec .stepEnd s = .next u ∧ u.plan.bnd.phase = .snapshot ∧
        u.regBits (modReg .snapStat) 1 0 = 1) ∧
      (s.closureCheck.2 = false → ∃ u : State, exec .stepEnd s = .next u ∧ u.plan.bnd.phase = .broken)) ∧
    (∀ ms scr fs img, s.plan.bnd.phase = .snapshot → s.plan.inForce = some img → s.errs.abort = none →
      (Alone s → s.regBits (modReg .relCtl) 16 15 = 0 → ms < 2 ^ 32 → s.quiet = true → s.snapReaches img = true →
        ∃ u : State, exec (.snapshotDone (.ok ms scr fs)) s = .next u ∧ u.plan.bnd.phase = .agreed ∧ u.regBits (modReg .snapStat) 63 32 = ms ∧
          u.regBits (modReg .snapStat) 1 0 = 0 ∧ u.cores = s.cores ∧ (img.snap = 1 → u.mem = s.mem)) ∧
      (s.quiet = false → s.snapReaches img = true → exec (.snapshotDone (.ok ms scr fs)) s = .next s) ∧
      (∀ r, (r = .ok ms scr fs ∧ s.snapReaches img = false) ∨ r = .failed ms → Alone s → s.regBits (modReg .relCtl) 15 15 = 0 →
        s.errs.cdQueue = [] → ∃ u : State, exec (.snapshotDone r) s = .next u ∧ u.plan.bnd.phase = .agreed ∧ Logged u .snapFail ∧
          u.regBits (modReg .snapStat) 63 32 = s.regBits (modReg .snapStat) 63 32 ∧ u.regBits (modReg .snapStat) 1 0 = 0 ∧ u.cores = s.cores)) ∧
    (∀ m : BoundaryMsg, s.anyUp = true →
      (m.down = true → s.treeParent = some m.smod → s.plan.bnd.phase = .agree → m.closure = false →
        ∃ u : State, exec (.boundary m) s = .next u ∧ u.plan.bnd.phase = .agreed ∧ u.plan.bnd.tA = m.done ∧ u.mem = s.mem) ∧
      (m.down = true → s.treeParent = some m.smod → s.plan.bnd.phase = .agree → m.closure = true →
        ∃ u : State, exec (.boundary m) s = .next u ∧ u.plan.bnd.phase = .broken) ∧
      (∀ img, m.down = true → s.treeParent = some m.smod → s.plan.bnd.phase = .vote → m.hasPlan = true → s.plan.bnd.ballot = some img →
        img.step = s.job.step.toNat + 1 → m.planId = img.planId + 1 →
        ∃ u : State, exec (.boundary m) s = .next u ∧ u.plan.inForce = some img ∧ u.plan.reused = false ∧ u.plan.bnd.phase = .voted ∧
          u.plan.pending = (if s.plan.pending = some img then none else s.plan.pending)) ∧
      (m.down = false → m.smod ∈ s.treeKids → s.plan.bnd.own = none →
        ∃ u : State, exec (.boundary m) s = .next u ∧ u.plan.bnd = { s.plan.bnd with kids := s.plan.bnd.kids.filter (fun x => decide (x.smod ≠ m.smod)) ++ [m] })) ∧
    (Alone s → s.plan.bnd.phase = .agreed → s.errs.abort = none →
      (∀ p, s.plan.pending = some p → p.step = s.job.step.toNat + 1 → p.planId < 2 ^ 64 →
        ∃ u : State, exec .planVote s = .next u ∧ u.plan.inForce = some p ∧ u.plan.pending = none ∧ u.plan.reused = false ∧ u.plan.bnd.phase = .voted) ∧
      (s.plan.pending = none → s.plan.inForce ≠ none → ∃ u : State, exec .planVote s = .next u ∧ u.plan.inForce = s.plan.inForce ∧
        u.plan.reused = true ∧ u.plan.bnd.phase = .voted ∧ u.mem = s.mem)) ∧
    (s.plan.bnd.phase = .voted → s.errs.abort = none → (∀ t, Counts s (tract0 t) s.smark) →
      ∃ u : State, exec .stepStart s = .next u ∧ u.job.step = s.job.step + 1 ∧ (∀ t, u.markWord (tract0 t) s.smark = s.markWord (tract0 t) s.smark + 1) ∧
        u.errs.running = true ∧ u.plan.stepped = true ∧ u.plan.start = s.plan.bnd.tA + s.lead ∧ u.plan.bnd.phase = .none ∧ u.xfer.begun = [] ∧
        (∀ p, (u.parcel p).stash.used = 0) ∧
        (s.plan.reused = true → u.regBits (modReg .planStat) 2 2 = 1 ∧
          u.regBits (modReg .planStat) 31 16 = (s.regBits (modReg .planStat) 31 16 + 1) % 65536)) ∧
    ((s.plan.bnd.phase = .agreed ∨ s.plan.bnd.phase = .vote ∨ (s.plan.bnd.phase = .agree ∧ s.errs.running = true)) →
      ∃ u : State, exec .boundaryTimeout s = .next u ∧ u.plan.bnd.phase = .broken ∧ u.job = s.job ∧ u.mem = s.mem)

/-- SLOT_STAGE puts content of an exchange, or of the relay buffer, into the send buffer, at most the instance's limit, and no row is lost or moved: the rows staged followed by those left are the rows that the instance may carry, and what it may not carry stays. SLOT_FREEZE of content wholly staged freezes it and of nothing leaves a marker; of content not wholly staged, or with the port down, it leaves a marker and the content is at the head of the unsent data again, where its slack is not over. SLOT_TRANSMIT sends the frozen content, or the EMPTY frame of a marker, and counts it in XS_PORT; with the port down the content is unsent again and a miss is counted. A CONTENT frame that is taken is acknowledged with code 0 and its segments join the credit paths of their tracts from the port die, or the relay buffer; one refused is answered with its code and has no other effect. An EMPTY frame has none. SACK 0 removes the instance and adds its rows to the delivered count of CL_SEND; codes 1 and 2 make the content unsent again and count a miss and a NACK, and code 2 emits SLOT_MISMATCH. SLOT_ACK_TIMEOUT takes the port down with cause 4, and FRAME_INCOMPLETE_TIMEOUT discards the bytes received. That these events come as commands is assumption log 32. (R222, R227, R228, R229, R230, R233, R246, R353, R358) -/
def Obligations.SlotInstances : Prop :=
  ∀ (p : Port) (inst : Nat) (s : State),
    (∀ table e k x, s.sendAt p inst = none → (s.sendsOf p).length < 8 → s.plan.stepped = true → s.slotOwner p inst = some (table, e, some k) →
      e.relay = false → s.xfer.exch.find? (fun x => decide (x.tract.val = e.stract) && decide (x.key = k) && decide (x.first ≤ inst) && !x.halted) = some x →
      (takeContent (s.stageable x e.dmod inst).1 e.limit).1 ≠ [] →
      ∃ u w y, exec (.slotStage p inst) s = .next u ∧ u.sendAt p inst = some w ∧ u.exchOf x.tract k = some y ∧ w.phase = .staged ∧
        w.tract = some x.tract ∧ w.key = k ∧ (w.segs.map segSize).sum ≤ e.limit ∧
        w.segs.flatMap (fun g => g.rows) ++ (s.stageable y e.dmod inst).1.flatMap (fun g => g.rows) =
          (s.stageable x e.dmod inst).1.flatMap (fun g => g.rows) ∧
        (s.stageable y e.dmod inst).2 = (s.stageable x e.dmod inst).2 ∧ u.mem = s.mem) ∧
    (∀ table e k r, s.sendAt p inst = none → (s.sendsOf p).length < 8 → s.plan.stepped = true → s.slotOwner p inst = some (table, e, k) →
      e.relay = true → (s.relaysOf (portDie p)).find? (fun r => decide (r.dmod = e.dmod)) = some r → (takeContent r.segs e.limit).1 ≠ [] →
      ∃ u w, exec (.slotStage p inst) s = .next u ∧ u.sendAt p inst = some w ∧ w.phase = .staged ∧ w.tract = none ∧ w.dmod = e.dmod ∧
        (w.segs.map segSize).sum ≤ e.limit ∧ (∀ d ≠ e.dmod, relayRows u (portDie p) d = relayRows s (portDie p) d) ∧
        w.segs.flatMap (fun g => g.rows) ++ relayRows u (portDie p) e.dmod = relayRows s (portDie p) e.dmod ∧ u.xfer.exch = s.xfer.exch ∧ u.mem = s.mem) ∧
    (∀ table e k, s.slotOwner p inst = some (table, e, k) → (∀ x ∈ s.xfer.exch, ∀ d, s.endsSlack x d inst p = false) →
      (∀ w, s.sendAt p inst = some w → w.phase = .staged → s.portState p.val = 5 →
        ∃ u : State, exec (.slotFreeze p inst true) s = .next u ∧ u.sendAt p inst = some { w with phase := .frozen } ∧ u.xfer.exch = s.xfer.exch) ∧
      (s.sendAt p inst = none → ∃ u w, exec (.slotFreeze p inst true) s = .next u ∧ u.sendAt p inst = some w ∧
        w.phase = .marker (decide (s.portState p.val ≠ 5)) ∧ w.segs = [] ∧ u.xfer.exch = s.xfer.exch) ∧
      (∀ w t x whole, s.sendAt p inst = some w → w.phase = .staged → w.tract = some t → s.exchOf t w.key = some x → s.slackOver x w.dmod inst = false →
        whole = false ∨ s.portState p.val ≠ 5 →
        ∃ u v y, exec (.slotFreeze p inst whole) s = .next u ∧ u.sendAt p inst = some v ∧ v.phase = .marker true ∧ v.segs = [] ∧
          u.exchOf t w.key = some y ∧ y.out = w.segs ++ x.out)) ∧
    (∀ w t x, s.sendAt p inst = some w → s.portState p.val ≠ 5 → w.phase = .frozen → w.tract = some t → s.exchOf t w.key = some x →
      s.slackOver x w.dmod inst = false →
      ∃ u y, exec (.slotTransmit p inst) s = .next u ∧ u.sendAt p inst = none ∧ u.out = s.out ∧ u.exchOf t w.key = some y ∧ y.out = w.segs ++ x.out ∧
        u.regBits (xsReg p) 31 16 = (s.regBits (xsReg p) 31 16 + 1) % 65536) ∧
    (∀ w, s.sendAt p inst = some w → s.portState p.val = 5 →
      (w.phase = .frozen → ∃ u : State, exec (.slotTransmit p inst) s = .next u ∧ u.out = s.out ++ [.frame p (s.frameHdr p w 1 0 w.dmod) w.segs] ∧
        u.sendAt p inst = some { w with phase := .sent } ∧ u.regBits (xsReg p) 15 0 = (s.regBits (xsReg p) 15 0 + 1) % 65536) ∧
      (∀ miss, w.phase = .marker miss → ∃ u : State, exec (.slotTransmit p inst) s = .next u ∧ u.sendAt p inst = none ∧
        (miss = true → u.regBits (xsReg p) 31 16 = (s.regBits (xsReg p) 31 16 + 1) % 65536) ∧
        (miss = false → u.regBits (xsReg p) 63 48 = (s.regBits (xsReg p) 63 48 + 1) % 65536) ∧
        u.out = s.out ++ [.frame p (s.frameHdr p w 2 (if miss then 1 else 2) 0) []])) ∧
    (∀ h segs, 5 ≤ s.portState p.val →
      (∀ c, s.frameCode p h segs = (c, none) → ∃ u : State, exec (.contentFrame p h segs) s = .next u ∧
        u.out = s.out ++ [.sack p h.table h.inst h.step c] ∧ u.xfer = s.xfer ∧ u.mem = s.mem) ∧
      (∀ e, s.frameCode p h segs = (0, some e) → e.relay = true → ∃ u : State, exec (.contentFrame p h segs) s = .next u ∧
        u.out = s.out ++ [.sack p h.table h.inst h.step 0] ∧ u.relaysOf (portDie p) = s.relaysOf (portDie p) ++ [{ dmod := e.dmod, segs := segs }]) ∧
      (∀ e, s.frameCode p h segs = (0, some e) → e.relay = false → ∃ u : State, exec (.contentFrame p h segs) s = .next u ∧
        u.out = s.out ++ [.sack p h.table h.inst h.step 0] ∧ u.mem = s.mem ∧ u.xfer.exch = s.xfer.exch ∧
        ∀ t : Tract, (u.xfer.paths.get (t, .portDie (portDie p)) []).map (fun i => (i.seg, i.port)) =
          (s.xfer.paths.get (t, .portDie (portDie p)) []).map (fun i => (i.seg, i.port)) ++
            (segs.filter (fun g => decide (g.hdr.dtract = t.val))).map (fun g => (g, some (p.val, h.inst))))) ∧
    (∀ h, exec (.emptyFrame p h) s = .next s) ∧
    (∀ w t table step, s.portState p.val = 5 → s.sendAt p inst = some w → w.phase = .sent → w.table = table → step = s.job.step.toNat → w.tract = some t →
      ((∀ g ∈ w.segs, g.hdr.type = 1 ∧ g.hdr.xk ≤ 3) → ∃ u : State, exec (.sack p table inst step 0) s = .next u ∧ u.sendAt p inst = none ∧
        u.regBits (tractReg .clSend t) 63 32 = (s.regBits (tractReg .clSend t) 63 32 + (w.segs.map (fun g => g.rows.length)).sum) % 2 ^ 32) ∧
      (∀ code, code = 1 ∨ code = 2 → ∃ u : State, exec (.sack p table inst step code) s = .next u ∧ u.sendAt p inst = none ∧
        u.regBits (xsReg p) 31 16 = (s.regBits (xsReg p) 31 16 + 1) % 65536 ∧ u.regBits (xsReg p) 47 32 = (s.regBits (xsReg p) 47 32 + 1) % 65536 ∧
        (code = 2 → s.errs.cdQueue = [] → Logged u .slotMismatch) ∧
        (∀ x, s.exchOf t w.key = some x → s.slackOver x w.dmod inst = false → ∃ y, u.exchOf t w.key = some y ∧ y.out = w.segs ++ x.out)) ∧
      (∃ u : State, exec (.slotAckTimeout p inst) s = .next u ∧ u.regBits (linkStatR p) 7 4 = 4 ∧
        u.regBits (linkStatR p) 3 3 = 1 ∧ u.portState p.val < 5 ∧ (u.link p).failed = true)) ∧
    ((s.link p).rx.get 0 [] ≠ [] → ((s.link p).rx.get 0 []).length < 16 ∨ fieldAt ((s.link p).rx.get 0 []) 8 8 = inst →
      ∃ u : State, exec (.frameIncompleteTimeout p inst) s = .next u ∧ (u.link p).rx.get 0 [] = [] ∧ (u.link p).next = (s.link p).next ∧ u.mem = s.mem)

/-- A load that a home agent may serve is answered with the bytes of memory; a store changes exactly its bytes and is answered; an atomic with a return changes its word to the result of R43 and answers the old word; an addition to a counting mark adds to it. A load that a link has brought is answered by the route to the module that sent it and leaves the inbox. A combining entry that is applied changes exactly its word. An answered entry leaves its request agent, DONE counts it, and the loads of its core that wait for it have the answer. (R43, R149, R254, R258, R262, R268, R269, R274, R277, R282) -/
def Obligations.HomeAgentServes : Prop :=
  ∀ (t src : Tract) (tag : Nat) (e : RaEntry) (s : State), s.mem.wf = true →
    (MayServe s t src tag e → isClaim e.addr (e.op.home.getD (.load 0)) = false →
      (∀ n, e.op = .load n → s.windowStatus (e.addr % 2 ^ 52) n false = 0 → (∀ off, windowOf (gaOffset (e.addr % 2 ^ 52)) ≠ .control off) →
        Clean s (e.addr % 2 ^ 52) n →
        ∃ u : State, exec (.homeAgentRequest t (.tract src tag)) s = .next u ∧
          Answered u src e.gen { status := 0, data := s.peek (e.addr % 2 ^ 52) n, poison := 0 } ∧ u.mem = s.mem ∧ u.cores = s.cores) ∧
      (∀ d, e.op = .store d → s.homeWriteStatus (e.addr % 2 ^ 52) d.length false = 0 → Clean s (e.addr % 2 ^ 52) d.length →
        s.regionLines (e.addr % 2 ^ 52) d.length = [] →
        ∃ u : State, exec (.homeAgentRequest t (.tract src tag)) s = .next u ∧ Answered u src e.gen okResponse ∧ Stored s u (e.addr % 2 ^ 52) d ∧
          u.cores = s.cores) ∧
      (∀ op w64 opd cmp, e.op = .atom op w64 opd cmp → e.posted = false → s.homeWriteStatus (e.addr % 2 ^ 52) (atomSize w64) true = 0 →
        Clean s (e.addr % 2 ^ 52) (atomSize w64) → s.regionLines (e.addr % 2 ^ 52) (atomSize w64) = [] →
        ∃ u : State, exec (.homeAgentRequest t (.tract src tag)) s = .next u ∧
          Answered u src e.gen { status := 0, data := s.peek (e.addr % 2 ^ 52) (atomSize w64), poison := 0 } ∧
          Stored s u (e.addr % 2 ^ 52) (natLe (atomSize w64) (atomNew op w64 (leNat (s.peek (e.addr % 2 ^ 52) (atomSize w64))) opd cmp)) ∧
          u.cores = s.cores) ∧
      (∀ p v, e.op = .mark (.add v) → s.markStatus e.addr = 0 → keyParcel e.addr = some p → Counts s p (addrMark e.addr) →
        ∃ u : State, exec (.homeAgentRequest t (.tract src tag)) s = .next u ∧ Answered u src e.gen okResponse ∧
          u.markWord p (addrMark e.addr) = s.markWord p (addrMark e.addr) + v)) ∧
    (∀ (p o : Port) (m : MemMsg) (n : Nat) (b : Bool) (rest : List InReq), s.dead t.val = false →
      (s.fab t).inbox = { port := p, msg := m, credit := b, stamp := n } :: rest → s.haMay t n true = true → m.epoch = s.fabric.epoch →
      s.route m.smod (msgHash m) = .inl o.val → m.mt = 1 → (s.fab t).comb = [] → isClaim m.addr (.load m.len) = false →
      s.windowStatus (m.addr % 2 ^ 52) m.len false = 0 → (∀ off, windowOf (gaOffset (m.addr % 2 ^ 52)) ≠ .control off) →
      Clean s (m.addr % 2 ^ 52) m.len →
      ∃ u : State, exec (.homeAgentRequest t .link) s = .next u ∧ (u.fab t).inbox = rest ∧ u.mem = s.mem ∧
        u.out = s.out ++ [.memory o (rspMsg m { status := 0, data := s.peek (m.addr % 2 ^ 52) m.len, poison := 0 })]) ∧
    (∀ c : CombEntry, s.dead t.val = false → (s.fab t).comb[0]? = some c → s.homeWriteStatus (c.addr % 2 ^ 52) (atomSize c.w64) true = 0 → Clean s (c.addr % 2 ^ 52) (atomSize c.w64) →
      ∃ u : State, exec (.combiningEntryApply t 0) s = .next u ∧ (u.fab t).comb = (s.fab t).comb.filter (fun x => decide (x.id ≠ c.id)) ∧
        Stored s u (c.addr % 2 ^ 52) (natLe (atomSize c.w64)
          (atomNew (b2n c.orOp) c.w64 (leNat (s.peek (c.addr % 2 ^ 52) (atomSize c.w64))) c.opd 0))) ∧
    (∀ r c, (s.fab t).ra.find? (fun x => decide (x.tag = tag)) = some e → e.op.isData = false → e.stage = .answered r → r.status = 0 → e.src = .core c →
      (s.core c).wait = none → (s.core c).rels = [] →
      ∃ u : State, exec (.fabricCompletion t tag) s = .next u ∧ (∀ x ∈ (u.fab t).ra, x.gen ≠ e.gen) ∧ u.mem = s.mem ∧
        u.regBits (tractReg .fabCl t) 63 32 = (s.regBits (tractReg .fabCl t) 63 32 + 1) % 2 ^ 32 ∧
        (u.core c).loads = (s.core c).loads.map (fun l => if l.gen = some e.gen then { l with resp := some r } else l) ∧
        (u.core c).g = (s.core c).g ∧ (u.core c).pc = (s.core c).pc)

/-- A request of the current epoch for this module joins the inbox of its tract; one of another epoch is answered EPOCH and has no other effect but EPOCH_MISM; one for another module goes on by the route table with HOP one more; a port in FOREIGN refuses with NOMOD; a response answers the entry that is away with its tag, generation and epoch. An engine's operation that times out leaves its request agent, counted in ERRS. EPOCH_ADVANCE begins an advance; the end of its drain adds 1 to the epoch, ends the advance, completes with EPOCH what is away, and lets failed ports carry traffic again. FAB_STALL sets its bit. (R254, R256, R260, R271, R272, R275, R276, R278, R358) -/
def Obligations.FabricEdges : Prop :=
  ∀ s : State,
    (∀ (p : Port) (m : MemMsg) (h : gaTract m.addr < 12), 5 = s.portState p.val → m.mt < 8 → gaModule m.addr = s.job.moduleId.toNat →
      (m.epoch = s.fabric.epoch → gaBad m.addr = false →
        ∃ u : State, exec (.memoryMessage p m) s = .next u ∧ (u.fab ⟨gaTract m.addr, h⟩).inbox = (s.fab ⟨gaTract m.addr, h⟩).inbox ++ [{ port := p, msg := m, credit := true, stamp := s.fabric.stamp }] ∧
          u.mem = s.mem ∧ u.out = s.out) ∧
      (∀ o : Port, m.epoch ≠ s.fabric.epoch → s.route m.smod (msgHash m) = .inl o.val → ∃ u : State, exec (.memoryMessage p m) s = .next u ∧ u.fabs = s.fabs ∧ u.mem = s.mem ∧
        u.out = s.out ++ [.memory o (rspMsg m { status := 6, data := [], poison := 0 })] ∧ u.regBits (modReg .fabEpoch) 10 10 = 1)) ∧
    (∀ (p o : Port) (m : MemMsg), 5 = s.portState p.val → m.mt < 8 → gaModule m.addr ≠ s.job.moduleId.toNat → m.epoch = s.fabric.epoch →
      m.hop < 14 → s.route (gaModule m.addr) (msgHash m) = .inl o.val →
      ∃ u : State, exec (.memoryMessage p m) s = .next u ∧ u.out = s.out ++ [.memory o { m with hop := m.hop + 1 }] ∧ u.fabs = s.fabs ∧ u.mem = s.mem) ∧
    (∀ (p : Port) (m : MemMsg), s.portState p.val = 6 → m.mt < 8 →
      ∃ u : State, exec (.memoryMessage p m) s = .next u ∧ u.fabs = s.fabs ∧ u.mem = s.mem ∧
        u.out = s.out ++ [.memory p (rspMsg m { status := 4, data := [], poison := 0 })]) ∧
    (∀ (p : Port) (m : MemMsg) (t : Tract) (e : RaEntry) (o : List Nat), 5 = s.portState p.val → 8 ≤ m.mt → m.smod = s.job.moduleId.toNat → m.stract = t.val →
      (s.fab t).ra = [e] → e.stage = .away o → e.tag = m.tag % 4096 → e.gen % 16 = m.tag / 4096 → e.epoch = m.epoch →
      (e.op.isData = true → m.status ≠ 0) →
      ∃ u : State, exec (.memoryMessage p m) s = .next u ∧ u.mem = s.mem ∧
        (u.fab t).ra = [{ e with stage := .answered { status := m.status, data := m.data, poison := m.pmask } }]) ∧
    (∀ (t : Tract) (tag : Nat) (e : RaEntry) (g : Engine), (s.fab t).ra = [e] → e.tag = tag → e.gen < (s.fab t).nextGen → e.src = .engine g →
      (∀ r, e.stage ≠ .answered r) →
      ∃ u : State, exec (.engineOperationTimeout t tag) s = .next u ∧ (∀ x ∈ (u.fab t).ra, x.gen ≠ e.gen) ∧
        u.regBits (tractReg .fabStat t) 47 32 = (s.regBits (tractReg .fabStat t) 47 32 + 1) % 65536) ∧
    (s.job.state.trains = true → exec .epochAdvance s = .next { s with fabric := { s.fabric with advancing := true } }) ∧
    (s.fabric.advancing = true → s.job.state ≠ .armed →
      ∃ u : State, exec .epochDrainEnd s = .next u ∧ u.fabric.epoch = (s.fabric.epoch + 1) % 256 ∧ u.fabric.advancing = false ∧
        u.fabric.rtab = s.fabric.rtab ∧ u.relayed = [] ∧ u.mem = s.mem ∧ (∀ p, (u.link p).failed = true → False) ∧
        ∀ (t : Tract) (e : RaEntry) (o : List Nat), (s.fab t).ra = [e] → e.stage = .away o →
          (u.fab t).ra = [{ e with stage := .answered { status := 6, data := [], poison := 0 } }]) ∧
    (∀ t : Tract, (s.fab t).collector = [] → s.up.restore = .idle → ∃ u d, exec (.fabStall t) s = .next u ∧ u.regBits (tractReg .fabStat t) 49 49 = 1 ∧
      (u.fab t).collector = [d] ∧ d.cls = .fabStall ∧ u.mem = s.mem)

/-- A MARK_HWR with ADD adds VAL to a counting mark, and without ADD sets its word and unfreezes it; every other mark of the parcel keeps its word. A MARK_BCFG write that R293 allows leaves the value, and one that enables an entry sets its mark to 0. ENG_MARK_WAIT emits one record. A claim that fits answers the address of its first frame and adds its frames to USED. STASH_RST clears USED and the full sets. A STASH_CFG write of a legal value while the registers are not locked leaves the value and resets the ledgers of the plot. (R286, R293, R295, R296, R297, R316, R317, R318, R319) -/
def Obligations.HostMarksAndStash : Prop :=
  ∀ (p : ParcelId) (s : State), s.mem.wf = true →
    (∀ (n : BitVec 10) (v : DWord), HostMay s (parcelReg .markHwr p) → n = v.setWidth 10 →
      (v.getLsbD 10 = true → Counts s p n → ∃ u : State, exec (.markHwr p v) s = .next u ∧ u.markWord p n = s.markWord p n + (v >>> 32).setWidth 32 ∧
        ∀ m, m ≠ n → u.markWord p m = s.markWord p m) ∧
      (v.getLsbD 10 = false → s.barrierN p n = none → ∃ u : State, exec (.markHwr p v) s = .next u ∧ u.markWord p n = (v >>> 32).setWidth 32 ∧
        (u.parcel p).frozen.contains n = false ∧ ∀ m, m ≠ n → u.markWord p m = s.markWord p m)) ∧
    (∀ (b : Fin 32) (v : DWord), HostMay s (parcelRegI .markBcfg p b.val) →
      s.bcfgOk p b.val (s.writeResult (parcelRegI .markBcfg p b.val) v.toNat).1 = true →
      ∃ u : State, exec (.markBcfgWrite p b v) s = .next u ∧ u.reg (parcelRegI .markBcfg p b.val) = (s.writeResult (parcelRegI .markBcfg p b.val) v.toNat).1 ∧
        (bitOf (s.writeResult (parcelRegI .markBcfg p b.val) v.toNat).1 10 = true → bitOf (s.reg (parcelRegI .markBcfg p b.val)) 10 = false →
          u.markWord p (BitVec.ofNat 10 (s.writeResult (parcelRegI .markBcfg p b.val) v.toNat).1) = 0)) ∧
    (∀ (q : QueueId) (w : EngWait), s.engWaits.find? (fun w => decide (w.1 = q)) = some (q, w) → w.met = false → w.told = false →
      (s.fab q.tract).collector = [] →
      ∃ u d, exec (.engMarkWait q) s = .next u ∧ (u.fab q.tract).collector = [d] ∧ d.cls = .engMarkWait ∧ u.queues = s.queues ∧ u.mem = s.mem) ∧
    (∀ (src : Tract) (tag : Nat) (e : RaEntry) (n : BitVec 8) (off k c cfg : Nat), s.readyEntry src tag = some e → e.op = .load 8 →
      windowOf (gaOffset e.addr) = .control off → 0x8000 ≤ off → keyParcel e.addr = some p → s.haBlocked src e false = false →
      s.dead p.tract.val = false → s.haMay p.tract e.stamp false = true →
      off = gaOffset e.addr - 0x1F_0000_0000 → off % 8 = 0 → k = bitsOf off 14 9 → c = bitsOf off 8 3 + 1 → (s.parcel p).plot = some n →
      cfg = s.reg (tractRegI .stashCfg p.tract n.toNat) → bitOf cfg 0 = true → bitOf (s.parcel p).stash.full k = false →
      (s.parcel p).stash.used + c ≤ bitsOf cfg 46 32 →
      ∃ u : State, exec (.stashClaim p src tag) s = .next u ∧ (u.parcel p).stash.used = (s.parcel p).stash.used + c ∧
        Answered u src e.gen { status := 0, poison := 0, data := natLe 8 (bitsOf cfg 22 8 * 4096 + (s.parcel p).stash.used * 2 ^ (12 + bitsOf cfg 4 1)) }) ∧
    (HostMay s (parcelReg .stashStat p) → ∃ u : State, exec (.stashRst p) s = .next u ∧ (u.parcel p).stash = { (s.parcel p).stash with used := 0, full := 0 } ∧
      (∀ q, q ≠ p → u.parcel q = s.parcel q) ∧ u.mem = s.mem ∧ u.cores = s.cores) ∧
    (∀ (t : Tract) (n : Fin 256) (v : DWord), HostMay s (tractRegI .stashCfg t n.val) → s.rwlLocked = false →
      stashCfgOk (s.writeResult (tractRegI .stashCfg t n.val) v.toNat).1 = true →
      ∃ u : State, exec (.stashCfgWrite t n v) s = .next u ∧ u.reg (tractRegI .stashCfg t n.val) = (s.writeResult (tractRegI .stashCfg t n.val) v.toNat).1 ∧
        (∀ q ∈ s.plotParcels t (BitVec.ofNat 8 n.val), (u.parcel q).stash.used = 0 ∧ (u.parcel q).stash.full = 0) ∧ u.mem = s.mem)

/-- The next descriptor of a parcel's program, whose operands lie where they may, are sound and do not overlap, on an engine without a lane that computes wrong, runs and leaves the program. VNOP changes no memory. An element operation writes at element i of D the result of its operands' elements i in the format of D; VTREE and VFIN write the tree sum of the G rows; VDOT without AC writes the dot product, VRMAX without AC the maximum; VFLG writes the flags of the engine and clears them where AC is set. No byte outside what the descriptor writes changes, no core changes, and flags are only added but by VFLG. The format of C and of scalars, and a list that reads as poisoned, are assumption log 40. (R112, R116, R125, R332, R333, R334) -/
def Obligations.VectorOperations : Prop :=
  ∀ (p : ParcelId) (bs : List Byte) (rest : List (List Byte)) (d : VDesc) (s : State), s.mem.wf = true → (s.parcel p).vec.list = bs :: rest → d = parseVDesc bs →
    OperandsApart s p d → s.lanesBad p = false → ∀ op ∈ vectorOps, d.vop = op.1 →
    ∃ u : State, exec (op.2 p) s = .next u ∧ (u.parcel p).vec.list = rest ∧ (u.parcel p).vec.bad = (s.parcel p).vec.bad ∧
      (∀ q, q ≠ p → u.parcel q = s.parcel q) ∧ u.cores = s.cores ∧
      (∀ x, (∀ o ∈ d.operands, o.write = true → x < vecKey p o.sp o.off ∨ vecKey p o.sp o.off + o.len ≤ x) →
        byteAt u.mem.bytes x = byteAt s.mem.bytes x) ∧
      (d.vop ≠ 0x14 → (u.parcel p).vec.flags &&& (s.parcel p).vec.flags = (s.parcel p).vec.flags) ∧
      (d.vop = 0x00 → u.mem = s.mem) ∧
      (d.isElem = true → ∀ i < d.n, leNat (u.mem.read (vecKey p d.spd d.d + i * vecWidth d.fd) (vecWidth d.fd)) =
        (d.result (opdNum s p d.spa d.a d.fa i) (if d.usesB then opdNum s p d.spb d.b d.fb i else vecNum d.fb 0)
          (if d.vop = 4 then opdNum s p d.spc d.c d.fd i else vecNum d.fd 0)).1 % 256 ^ vecWidth d.fd) ∧
      (d.vop = 0x12 → ∀ i < d.n, leNat (u.mem.read (vecKey p d.spd d.d + 4 * i) 4) =
        (treeSum fpAdd 11 ((List.range d.g).map (fun j =>
          BitVec.ofNat 32 (leNat (s.mem.read (vecKey p d.spa (d.a + j * d.c) + 4 * i) 4))))).1.toNat) ∧
      (d.vop = 0x13 → ∀ i < d.n, leNat (u.mem.read (vecKey p d.spd d.d + 2 * i) 2) =
        (vecOut 1 (numOf (treeSum fpAdd 11 ((List.range d.g).map (fun j =>
          BitVec.ofNat 32 (leNat (s.mem.read (vecKey p d.spa (d.a + j * d.c) + 4 * i) 4))))).1, false)).1 % 65536) ∧
      (d.vop = 0x10 → d.ac = false → leNat (u.mem.read (vecKey p d.spd d.d) 4) =
        (vecDot none ((List.range d.n).map (fun i => (opdNum s p d.spa d.a d.fa i, opdNum s p d.spb d.b d.fb i)))).1.toNat) ∧
      (d.vop = 0x11 → d.ac = false → leNat (u.mem.read (vecKey p d.spd d.d) 4) =
        (vecMax none ((List.range d.n).map (fun i => opdNum s p d.spa d.a d.fa i))).toNat) ∧
      (d.vop = 0x14 → leNat (u.mem.read (vecKey p d.spd d.d) 4) = (s.parcel p).vec.flags.toNat ∧
        (u.parcel p).vec.flags = (if d.ac then 0 else (s.parcel p).vec.flags))

/-- A VRUN whose lists pass gives each parcel of its plot the program of its list and changes no memory; VECTOR_ENTRY_COMPLETE takes it out of the queue once every program has run, and frees the engines; an entry with a status of 1 to 6 stops the queue with a VEC_FAULT record. An OPT whose operations the request agent takes, and whose norm is NaN or +inf sets NONFINITE, ends with status 11 and changes no memory. An OPT over one shard record without a working copy, on an engine without a lane that computes wrong, leaves in its five arrays, at every element, the update of R342 of what they held, with the clip factor of its norm, and ends with status 0. A list that reads as poisoned is assumption log 40, that an entry's accesses meet memory as one log 48, where a list may lie and what its addresses must be multiples of log 67. (R335, R336, R337, R340, R341, R342, R343, R344) -/
def Obligations.VectorEntries : Prop :=
  ∀ (t : Tract) (e : QEntry) (s : State), s.mem.wf = true → s.up.restore = .idle →
    (Begins s (engQueue t .vector) e → (∀ p ∈ s.plotParcels t e.vecPlot, (s.parcel p).vec.entry = none) → e.vecListAt % 32 = 0 →
      s.plotEmpty t e.vecPlot.toNat = false →
      (∀ ds : ParcelId → List (List Byte), e.body 3 0 = 0 → e.bodyClean [(11, 0), (49, 32)] = true →
        (∀ p ∈ s.plotParcels t e.vecPlot, s.vecEntries p e.vecListAt 32 4096 = .inr (ds p) ∧ ∀ b ∈ ds p, s.vecStatus p (parseVDesc b) = 0) →
        ∃ u : State, exec (.vrun t) s = .next u ∧ u.mem = s.mem ∧ u.cores = s.cores ∧
          (u.queue (engQueue t .vector)).entries =
            [{ e with started := true, work := .await ((s.plotParcels t e.vecPlot).map (fun p => p.parcel.val)) }] ∧
          (∀ p ∈ s.plotParcels t e.vecPlot, (u.parcel p).vec = { (s.parcel p).vec with entry := some e.id, list := ds p, bad := false }) ∧
          (∀ p, p ∉ s.plotParcels t e.vecPlot → u.parcel p = s.parcel p)) ∧
      (∀ net p b r h hp norm total, e.body 3 0 = 1 → e.bodyClean [(11, 0), (49, 32), (127, 64), (191, 128)] = true → hp = e.body 127 64 →
        norm = e.body 191 128 → s.optAddr hp 64 = 0 → s.optAddr norm 4 = 0 → Unshared s t → s.engMay t .vector (s.optReadRuns t e) (s.optWriteRuns t e) = true → hyperOk (s.peek (hp % 2 ^ 52) 64) = true →
        s.plotParcels t e.vecPlot = [p] → s.vecEntries p e.vecListAt 64 1024 = .inr [b] → r = parseShard b → s.shardStatus p r = 0 →
        h = parseHyper (s.peek (hp % 2 ^ 52) 64) → total = BitVec.ofNat 32 (leNat (s.peek (norm % 2 ^ 52) 4)) → Sound s hp 64 → Sound s norm 4 →
        (((numOf total).isNan = true ∨ total = 0x7F80_0000) →
          ∃ u : State, exec (.opt t net) s = .next u ∧ WorkDone u (engQueue t .vector) e 11 ∧ u.mem = s.mem ∧
            u.regBits (tractReg .optStat t) 0 0 = 1) ∧
        ((numOf total).isNan = false → total ≠ 0x7F80_0000 → r.wk = 0 → r.exp = false → s.lanesBad p = false → (∀ a ∈ r.arrays, Clean s (sliceKey p a.1) a.2) →
          r.arrays.Pairwise (fun a b => Apart a.1 a.2 b.1 b.2) →
          ∃ u : State, exec (.opt t net) s = .next u ∧ WorkDone u (engQueue t .vector) e 0 ∧ u.cores = s.cores ∧
            (∀ i < r.n, leNat (u.mem.read (sliceKey p (r.mw + 2 * i)) 2) = (h.update (clipFactor total h.clipn).1 (shardElem s p r i)).1.w % 65536 ∧
              leNat (u.mem.read (sliceKey p (r.rem + 2 * i)) 2) = (h.update (clipFactor total h.clipn).1 (shardElem s p r i)).1.r % 65536 ∧
              leNat (u.mem.read (sliceKey p (r.mo + 4 * i)) 4) = (h.update (clipFactor total h.clipn).1 (shardElem s p r i)).1.m.toNat ∧
              leNat (u.mem.read (sliceKey p (r.vo + 2 * i)) 2) = (h.update (clipFactor total h.clipn).1 (shardElem s p r i)).1.v % 65536) ∧
            (∀ x, (∀ a ∈ r.arrays, x < sliceKey p a.1 ∨ sliceKey p a.1 + a.2 ≤ x) → byteAt u.mem.bytes x = byteAt s.mem.bytes x)))) ∧
    ((s.queue (engQueue t .vector)).entries = [e] → e.started = true → (s.fab t).ra = [] →
      (∀ ps, e.work = .await ps → (∀ p ∈ e.vecParcels t, (s.parcel p).vec.list = [] ∧ (s.parcel p).vec.bad = false) → Quiet s (engQueue t .vector) e →
        ∃ u : State, exec (.vectorEntryComplete t 0) s = .next u ∧ Left s u (engQueue t .vector) ∧ u.mem = s.mem ∧ u.cores = s.cores ∧
          ∀ p ∈ e.vecParcels t, (u.parcel p).vec.entry ≠ some e.id) ∧
      (∀ c, e.work = .status c → 1 ≤ c → c ≤ 6 → (s.queue (engQueue t .vector)).stopped = false → (s.queue (engQueue t .vector)).hold = none →
        (s.fab t).collector = [] →
        ∃ u : State, exec (.vectorEntryComplete t 0) s = .next u ∧ Faulted u (engQueue t .vector) .vecFault c ∧ u.mem = s.mem ∧ u.cores = s.cores))

/-- An enabled port in a powered module that is READY or later, which has not gone down with AUTO 0, looks for its partner, and then stands in a stage of training that the model leaves free; one that has gone down with AUTO 0 stays as it is; a port that has trained, or takes a new PARAM, is UP exactly where the partner's job, mode and map fit and FOREIGN otherwise, with PEER and PPORT the partner's, and LINK_UP starts SEQ and credits afresh. A lost lane, 8 resends, no progress, a full window, DOWNREQ and DOWN take a trained port down with causes 1, 2, 3, 3, 5 and 6: the port is no longer trained, DOWN is set, its buffers are empty and memory traffic waits for an epoch advance. How training passes its stages is assumption log 53. (R347, R350, R355, R356, R357, R358) -/
def Obligations.LinksTrainAndFall : Prop :=
  ∀ (p : Port) (s : State),
    (s.mayTrain p = true →
      (s.portState p.val = 0 → ∃ u : State, exec (.linkDetect p) s = .next u ∧ u.portState p.val = 1 ∧ u.links = s.links ∧ u.mem = s.mem) ∧
      (1 ≤ s.portState p.val → s.portState p.val < 5 →
        ∃ u : State, exec (.linkDetect p) s = .next u ∧ 1 ≤ u.portState p.val ∧ u.portState p.val ≤ 4 ∧ u.links = s.links ∧ u.mem = s.mem) ∧
      (∀ m : ParamMsg, 1 ≤ s.portState p.val → s.portState p.val < 5 → ∃ u : State, exec (.linkUp p m) s = .next u ∧
        u.portState p.val = (if s.paramFits m then 5 else 6) ∧ u.regBits (linkStatR p) 19 8 = m.smod % 4096 ∧
        u.regBits (linkStatR p) 23 20 = m.sport % 16 ∧ (u.link p).param = some m ∧ (u.link p).seq = 0 ∧ (u.link p).next = 0 ∧
        (u.link p).retry = [] ∧ (u.link p).used = Credits.none ∧ (u.link p).failed = (s.link p).failed)) ∧
    (5 ≤ s.portState p.val →
      (∀ m : ParamMsg, ∃ u : State, exec (.param p m) s = .next u ∧ u.portState p.val = (if s.paramFits m then 5 else 6) ∧
        u.regBits (linkStatR p) 19 8 = m.smod % 4096 ∧ (u.link p).param = some m ∧ (u.link p).seq = (s.link p).seq ∧
        (u.link p).retry = (s.link p).retry) ∧
      (∀ (i : Instr) (cause : Nat),
        ((i = .portDown p ∧ cause = 1) ∨
          (∃ q, i = .resendLimit p q ∧ cause = 2 ∧ ∃ f ∈ (s.link p).retry, f.seq = q ∧ 8 ≤ f.resent) ∨
          (i = .ackProgressTimeout p ∧ cause = 3 ∧ (s.link p).retry ≠ []) ∨
          (i = .windowFullTimeout p ∧ cause = 3 ∧ 2048 ≤ (s.link p).retry.length) ∨
          (i = .downreq p ∧ cause = 5) ∨ (i = .linkCtlDown p ∧ cause = 6 ∧ s.job.state.trains = true)) →
        ∃ u : State, exec i s = .next u ∧ u.portState p.val = (if s.portPowered p then s.regBits (linkCtlR p) 2 2 &&& s.regBits (linkCtlR p) 0 0 else 0) ∧
          u.regBits (linkStatR p) 7 4 = cause ∧ u.regBits (linkStatR p) 3 3 = 1 ∧ u.link p = { LinkPort.reset with failed := true, parked := s.regBits (linkCtlR p) 2 2 == 0 } ∧
          (∀ t : Tract, ∀ x ∈ (u.fab t).ra, ∀ ps, x.stage = .away ps → p.val ∉ ps))) ∧
    ((s.link p).parked = true → s.portState p.val < 5 → exec (.linkDetect p) s = .next s ∧ ∀ m : ParamMsg, exec (.linkUp p m) s = .next s)

/-- On a trained port the sound sequenced flit that is next in order is taken and the next SEQ is expected; one further on is held and nothing is taken past the gap; one with uncorrectable codewords is discarded and each such codeword counted. A CTRL flit frees exactly the flits up to RXSEQ and returns credits. FLIT_SEND in the guard sends a CTRL flit; with nothing to resend and room in the window it sends the next SEQ of the first channel, in the port's order of them, that has something and keeps the flit for a resend. That order is slot content, MGMT, MRSP, MREQ but at an eighth turn with FLOW6. A notice of an abort reaches a running step, where a port is UP (it names none: assumption log 72). (R348, R349, R350, R351, R355, R421) -/
def Obligations.FlitsKeepTheirOrder : Prop :=
  ∀ (p : Port) (s : State), 5 ≤ s.portState p.val →
    (∀ (f : Flit) (seq vc : Nat), f.fec0 = true → f.fec1 = true → f.bytes.length = 1285 → fieldAt f.bytes 0 2 = seq + 4096 * vc → seq < 4096 → vc < 4 →
      flitCrc f.bytes = fieldAt f.bytes 2 3 → (s.link p).held = [] → (s.link p).next < 4096 →
      (seq = (s.link p).next → ∃ u : State, exec (.flitReceive p f) s = .next u ∧ (u.link p).next = (seq + 1) % 4096 ∧ (u.link p).held = [] ∧
        (u.link p).retry = (s.link p).retry ∧ u.mem = s.mem) ∧
      (seq ≠ (s.link p).next → (seq + 4096 - (s.link p).next) % 4096 < 2048 → ∃ u : State, exec (.flitReceive p f) s = .next u ∧
        (u.link p).next = (s.link p).next ∧ (u.link p).held = [(seq, vc, f.bytes.drop 5)] ∧ (u.link p).rx = (s.link p).rx ∧ u.mem = s.mem)) ∧
    (∀ f : Flit, (f.fec0 && f.fec1) = false → ∃ u : State, exec (.flitReceive p f) s = .next u ∧ u.links = s.links ∧
      u.regBits (linkStatR p) 63 48 = (s.regBits (linkStatR p) 63 48 + b2n (!f.fec0) + b2n (!f.fec1)) % 65536) ∧
    (∀ f : CtrlFlit, ∃ u : State, exec (.ctrlFlit p f) s = .next u ∧
      (u.link p).retry = (s.link p).retry.filter (fun x => decide (2048 ≤ (f.rxseq % 4096 + 4096 - x.seq) % 4096)) ∧
      (u.link p).back = { mem := f.crMem, rsp := f.crRsp, mgmt := f.crMgmt } ∧ (u.link p).seq = (s.link p).seq ∧ (u.link p).next = (s.link p).next ∧
      u.mem = s.mem) ∧
    (s.inGuard = true → ∃ u : State, exec (.flitSend p) s = .next u ∧ u.out = s.out ++ [.flit p (flitBytes 0 4 (ctrlPayload (s.link p).ctrl))] ∧
      (u.link p).retry = (s.link p).retry ∧ (u.link p).seq = (s.link p).seq) ∧
    (∀ vc, s.inGuard = false → (s.link p).again = [] → (s.link p).retry.length < 2048 →
      (s.link p).vcOrder.find? (fun v => !((LinkPort.fill v 1281 (s.link p)).cur.get v []).isEmpty) = some vc → vc = 0 ∨ (s.link p).quiet < 319 →
      ∃ u x, exec (.flitSend p) s = .next u ∧ (u.link p).retry = (s.link p).retry ++ [x] ∧ x.seq = (s.link p).seq ∧ x.vc = vc ∧ x.resent = 0 ∧
        (u.link p).seq = ((s.link p).seq + 1) % 4096 ∧ u.out = s.out ++ [.flit p (flitBytes x.seq x.vc x.data)] ∧ u.mem = s.mem) ∧
    ((s.link p).eldest = false → (s.link p).vcOrder = [0, 3, 2, 1]) ∧
    (∀ m q, s.job.state = .armed → s.anyUp = true → s.errs.running = true → s.errs.abort = none →
      exec (.abortNotice m q) s = .next { s with errs := { s.errs with abort := some (.notice m q) } })

/-- A member whose PLLs do not coast takes the meridian time of a valid frame of its master, and is LOCKED with the third in a row that agrees; a master sets DUAL_MASTER for another's frame takes no time from it and, joined, forwards it with HOP one more; its own frame goes no further. A SIDE frame for another module is forwarded, one for this module and a broadcast of its own are removed. While the bypass is closed every frame passes as it came. A joined master sends its time. A master that follows another loop begins an exchange with its own time, its partner answers with its own, and at phase 4 the master corrects its time by the offset of the four times (its rounding, and what each phase carries, are readings of log entry 33). A locked member without frames holds over, and after 10 ms reports TIME_LOST. (R359, R360, R361, R362) -/
def Obligations.RingKeepsTime : Prop :=
  ∀ s : State,
    (∀ f : TimeFrame, f.valid = true → s.ringHears = true →
      (s.isMaster = false → s.coasting = false → (s.meridian.master = none ∨ s.meridian.master = some f.master) →
        ∃ u : State, exec (.timeFrame f) s = .next u ∧ u.mtime = s.frameTime f ∧ u.meridian.master = some f.master ∧ u.mem = s.mem ∧
          (2 ≤ s.meridian.agree → (timeDiff (s.frameTime f) s.mtime).natAbs ≤ 5 → u.regBits merStat 2 2 = 1) ∧
          (s.meridian.agree ≠ 0 → 5 < (timeDiff (s.frameTime f) s.mtime).natAbs → u.meridian.agree = 1)) ∧
      (s.isMaster = true → f.master ≠ s.job.moduleId.toNat →
        ∃ u : State, exec (.timeFrame f) s = .next u ∧ u.mtime = s.mtime ∧ u.regBits merStat 4 4 = 1) ∧
      (s.isMaster = true → f.master = s.job.moduleId.toNat → ∃ u : State, exec (.timeFrame f) s = .next u ∧ u.mtime = s.mtime ∧
        (s.ringOpen = true → u.out = s.out)) ∧
      (s.isMaster = true → f.master ≠ s.job.moduleId.toNat → s.ringOpen = true → ∃ u n, exec (.timeFrame f) s = .next u ∧
        u.out = s.out ++ [.ring (timeFrameBytes { f with hop := (f.hop + 1) % 256, corr := n })])) ∧
    (s.ringOpen = false → (∀ f : TimeFrame, ∃ u l, exec (.timeFrame f) s = .next u ∧ u.out = s.out ++ .ring (timeFrameBytes f) :: l ∧ u.mem = s.mem) ∧
      ∀ f : SideFrame, ∃ u : State, exec (.sideFrame f) s = .next u ∧ u.out = s.out ++ [.ring (sideFrameBytes f)] ∧ u.mem = s.mem) ∧
    (∀ f : SideFrame, s.ringOpen = true →
      (f.dmod ≠ s.job.moduleId.toNat → f.dmod ≠ 0xFFF ∨ f.smod ≠ s.job.moduleId.toNat → ∃ u : State, exec (.sideFrame f) s = .next u ∧ u.out = s.out ++ [.ring (sideFrameBytes f)]) ∧
      (f.dmod = s.job.moduleId.toNat ∨ (f.dmod = 0xFFF ∧ f.smod = s.job.moduleId.toNat) → exec (.sideFrame f) s = .next s)) ∧
    (s.isMaster = true → s.ringOpen = true → ∃ u : State, exec .masterTimeSend s = .next u ∧ u.mtime = s.mtime ∧
      u.out = s.out ++ [.ring (timeFrameBytes { hop := 0, master := s.job.moduleId.toNat, mt := s.mtime, corr := 0, valid := true })]) ∧
    (s.regBits merCtl 1 0 = 2 → s.portState s.timePort.val = 5 →
      (∃ u : State, exec .timexferPeriod s = .next u ∧ u.meridian.t1 = s.mtime ∧
        u.out = s.out ++ [.timexfer s.timePort { phase := 1, t1 := s.mtime, t2 := 0, t3 := 0, t4 := 0 }]) ∧
      (∀ m : TimeXfer, m.t1 = s.meridian.t1 →
        (m.phase = 2 → ∃ u : State, exec (.timexfer s.timePort m) s = .next u ∧ u.meridian.t2 = m.t2 ∧ u.meridian.t3 = m.t3 ∧ u.meridian.t4 = s.mtime ∧
          u.out = s.out ++ [.timexfer s.timePort { m with phase := 3, t4 := s.mtime }]) ∧
        (m.phase = 4 → ∃ u : State, exec (.timexfer s.timePort m) s = .next u ∧ u.out = s.out ∧
          u.mtime = (((s.mtime : Int) + xferOffset s.meridian.t1 s.meridian.t2 s.meridian.t3 s.meridian.t4) % 2 ^ 64).toNat))) ∧
    (∀ (p : Port) (m : TimeXfer), s.portState p.val = 5 →
      (m.phase = 1 → ∃ u : State, exec (.timexfer p m) s = .next u ∧ u.mtime = s.mtime ∧
        u.out = s.out ++ [.timexfer p { m with phase := 2, t2 := s.mtime, t3 := s.mtime }]) ∧
      (m.phase = 3 → ∃ u : State, exec (.timexfer p m) s = .next u ∧ u.mtime = s.mtime ∧ u.out = s.out ++ [.timexfer p { m with phase := 4 }])) ∧
    (s.isMaster = false → s.regBits merStat 2 2 = 1 → ∃ u : State, exec .holdover s = .next u ∧ u.regBits merStat 1 0 = 3 ∧ u.mtime = s.mtime) ∧
    (s.regBits merStat 1 0 = 3 → ∃ u : State, exec .timeLost s = .next u ∧ u.regBits merStat 3 3 = 1 ∧ u.mtime = s.mtime ∧ u.mem = s.mem)

/-- A doorbell within half the count space and within 2^QLOG of Q_HEAD moves the tail count on and changes nothing else; another stops the queue, with cause 5 where it ran. A restart of a queue that runs does nothing, of one with entries in progress is held, and else lets it run again: action 0 at the next slot, or after the furthest entry that had started where that lies in a later slot and no abort stopped the queue, action 2 at the entry it stopped at; action 3 is reserved. SEQUENCER_TURN, where no signal waits for room, grants the first engine after the last one that can fetch. CHAIN_ENTRY_FETCH without the turn does nothing; with it, an entry whose header is valid joins its queue and the fetch moves on to what NEXT names, and a read that fails stops the queue with cause 1. CPL_FULL is recorded once. What Q_HEAD counts, and how a failed fetch takes its place in the queue, is assumption log 29. (R17, R367, R368, R369, R370, R478) -/
def Obligations.QueuesAreFetched : Prop :=
  ∀ (q : QueueId) (s : State),
    (s.job.state.trains = true → s.tractServed q.tract.val = true →
      (∀ tail : Word, (tail - BitVec.ofNat 32 (s.queue q).tail).toNat < 2 ^ 31 →
        (tail - BitVec.ofNat 32 (s.queue q).head).toNat ≤ 2 ^ s.regBits (queueReg .qCfg q) 4 0 →
        ∃ t : State, exec (.doorbell q tail) s = .next t ∧ t = { s with queues := t.queues } ∧
          t.queue q = { s.queue q with tail := (s.queue q).tail + (tail - BitVec.ofNat 32 (s.queue q).tail).toNat } ∧
          ∀ q', q' ≠ q → t.queue q' = s.queue q') ∧
      (∀ tail : Word, 2 ^ 31 ≤ (tail - BitVec.ofNat 32 (s.queue q).tail).toNat ∨
          2 ^ s.regBits (queueReg .qCfg q) 4 0 < (tail - BitVec.ofNat 32 (s.queue q).head).toNat →
        ∃ t : State, exec (.doorbell q tail) s = .next t ∧ (t.queue q).stopped = true ∧ (t.queue q).tail = (s.queue q).tail ∧ t.mem = s.mem ∧
          ((s.queue q).stopped = false → (t.queue q).cause = 5)) ∧
      exec (.qRestart q 3) s = .next (s.badValue (queueReg .qRestart q) 3 4) ∧
      (∀ action : BitVec 2, action ≠ 3 →
        ((s.queue q).stopped = false → exec (.qRestart q action) s = .next s) ∧
        ((s.queue q).stopped = true → (s.queue q).busy = true →
          ∃ t : State, exec (.qRestart q action) s = .next t ∧ t.queue q = { s.queue q with hold := some action } ∧ t.mem = s.mem) ∧
        ((s.queue q).stopped = true → (s.queue q).busy = false →
          ∃ t : State, exec (.qRestart q action) s = .next t ∧ t = { s with queues := t.queues } ∧ (t.queue q).stopped = false ∧
            (t.queue q).entries = (s.queue q).entries ∧ (t.queue q).tail = (s.queue q).tail ∧
            (∀ pt, (s.queue q).fault = some pt → action = 0 → ((s.queue q).cause = 0 ∨ ∀ l, (s.queue q).last = some l → l.slot ≤ pt.slot) →
              (t.queue q).slot = pt.slot + 1 ∧ (t.queue q).chain = none) ∧
            (∀ pt l, (s.queue q).fault = some pt → action = 0 → (s.queue q).cause ≠ 0 → (s.queue q).last = some l → pt.slot < l.slot → l.read = true →
              (linkBad l.next = true → (t.queue q).slot = l.slot + 1 ∧ (t.queue q).chain = none) ∧
              (linkBad l.next = false → (t.queue q).slot = l.slot ∧ (t.queue q).chain = some (l.next / 128 * 128, bitOf l.next 0, l.pos + 1))) ∧
            (∀ pt, (s.queue q).fault = some pt → action = 2 → pt.addr ≠ 0 →
              (t.queue q).slot = pt.slot ∧ (t.queue q).chain = some (pt.addr, pt.nsp, pt.pos))))) ∧
    (∀ t : Tract, (∀ e, (s.queue (engQueue t e)).sigWait = []) →
      (∀ n, n < 4 → s.canFetch (engQueue t (engineOf ((s.seqrs.get t Seqr.reset).last + 1 + n))) = true →
        (∀ m, m < n → s.canFetch (engQueue t (engineOf ((s.seqrs.get t Seqr.reset).last + 1 + m))) = false) →
        ∃ u : State, exec (.sequencerTurn t) s = .next u ∧ u = { s with seqrs := u.seqrs } ∧
          (u.seqrs.get t Seqr.reset).grant = some (engineOf ((s.seqrs.get t Seqr.reset).last + 1 + n)) ∧
          (u.seqrs.get t Seqr.reset).last = ((s.seqrs.get t Seqr.reset).last + 1 + n) % 4) ∧
      ((∀ e, s.canFetch (engQueue t e) = false) → ∃ u : State, exec (.sequencerTurn t) s = .next u ∧ u = { s with seqrs := u.seqrs } ∧
        (u.seqrs.get t Seqr.reset).grant = none ∧ (u.seqrs.get t Seqr.reset).last = (s.seqrs.get t Seqr.reset).last)) ∧
    ((s.seqrs.get q.tract Seqr.reset).grant ≠ some q.engine → ∀ slot entry, exec (.chainEntryFetch q slot entry) s = .next s) ∧
    ((s.seqrs.get q.tract Seqr.reset).grant = some q.engine → s.canFetch q = true → (s.queue q).headEntry = none →
      ∀ addr pos slot, (s.queue q).chain = some (addr, false, pos) →
      (∀ bs, bs.length = 128 → (s.queue q).skip = none → headerBad q bs = false → pos < 65536 → bitOf (fieldAt bs 22 2) 10 = false →
        ∃ t : State, exec (.chainEntryFetch q slot (.ok bs)) s = .next t ∧ t.mem = s.mem ∧ (t.seqrs.get q.tract Seqr.reset).grant = none ∧
          (t.queue q).entries = (s.queue q).entries ++ [
            { id := (s.queue q).nextId, pt := { slot := (s.queue q).slot, pos := pos, addr := addr, nsp := false, next := fieldAt bs 0 8, read := true },
              kind := .entry, bytes := bs, started := false, work := .none }] ∧
          (fieldAt bs 0 8 / 128 = 0 → (t.queue q).chain = none ∧ (t.queue q).slot = (s.queue q).slot + 1) ∧
          (fieldAt bs 0 8 / 128 ≠ 0 → (t.queue q).chain = some (fieldAt bs 0 8 / 128 * 128, bitOf (fieldAt bs 0 8) 0, pos + 1))) ∧
      (∀ r, replyBytes r 128 = none → ∃ t : State, exec (.chainEntryFetch q slot r) s = .next t ∧ (t.queue q).stopped = true ∧ (t.queue q).cause = 1 ∧
        t.mem = s.mem)) ∧
    ((s.queue q).cplWait ≠ [] → (s.queue q).cplTold = false → (s.fab q.tract).collector = [] →
      ∃ t : State, exec (.cplFull q) s = .next t ∧ (t.queue q).cplTold = true ∧ (t.queue q).cplWait = (s.queue q).cplWait ∧
        ∃ r, (t.fab q.tract).collector = [r] ∧ r.cls = .cplFull ∧ r.pq = queueNum q) ∧
    ((s.queue q).cplTold = true → exec (.cplFull q) s = .next s)

/-- A host read inside one mapped aperture that its window permits returns the bytes at GBASE plus the offset in the aperture; a write changes exactly those bytes; a window that does not permit the write keeps its bytes; an unmapped aperture answers a read with Unsupported Request and discards a write. FLR of a bound module releases its job; in every state it returns BAR2 to its reset size, and does nothing else. PCIE_LINK_DOWN keeps the job and, while ARMED, is recorded; PCIE_LINK_UP brings the host back unless PERST_N holds the endpoint or the module has not begun step 2 of its boot. PERST_N low holds the endpoint; its rise lets it go unless the input toggled faster than rated, when PERST_N_HOLD_END does. The endpoint answers a configuration read with Vendor 0x1FD4 and Device 0x1200 once it enumerates and with Request Retry Status before, takes the size of BAR2, and a read of 4 bytes of BAR0, of a register of 32 bits, returns its bytes; one of the low half of a register of 64 bits latches the high half, which the next read of that returns. A register write that is misaligned, or not of 1, 2, 4 or 8 bytes, is refused with its record; in RESET every register write is without effect. That the link is up once the module has begun step 2 of its boot is assumption logs 24 and 73, what a release drops log 35, which values are reserved encodings log 36, where the numbers stand in the configuration header log 61. (R149, R363, R364, R366, R393, R394, R395, R442, R443, R447) -/
def Obligations.HostEndpoint : Prop :=
  ∀ (s : State),
    (s.job.state.trains = true → s.mem.wf = true → ∀ off, off / s.apertureSize < 1024 →
      (bitOf (s.reg (modRegI .winMap (off / s.apertureSize))) 63 = true →
        ∀ key, key = (bitsOf (s.reg (modRegI .winMap (off / s.apertureSize))) 51 0 + off % s.apertureSize) % 2 ^ 52 →
        (∀ n, 0 < n → off % s.apertureSize + n ≤ s.apertureSize → s.pieceStatus (some key, 0, n) false = 0 → Clean s key n →
          ∃ t : State, exec (.hostApertureAccess (.read off n)) s = .next t ∧ t.mem = s.mem ∧
            t.out = s.out ++ [.readData (mdata (s.mread key n)) (mbad (s.mread key n))]) ∧
        (∀ data, data ≠ [] → off % s.apertureSize + data.length ≤ s.apertureSize →
          (s.pieceStatus (some key, 0, data.length) true = 0 → Clean s key data.length →
            ∃ t : State, exec (.hostApertureAccess (.write off data false)) s = .next t ∧ Stored s t key data ∧ t.cores = s.cores ∧ t.regs = s.regs) ∧
          ((s.pieceStatus (some key, 0, data.length) true = 2 ∨ s.pieceStatus (some key, 0, data.length) true = 3) →
            ∃ t : State, exec (.hostApertureAccess (.write off data false)) s = .next t ∧ t.mem = s.mem))) ∧
      (bitOf (s.reg (modRegI .winMap (off / s.apertureSize))) 63 = false →
        (∀ n, 0 < n → ∃ t : State, exec (.hostApertureAccess (.read off n)) s = .next t ∧ t.mem = s.mem ∧ t.out = s.out ++ [.readFail]) ∧
        (∀ data bad, data ≠ [] → ∃ t : State, exec (.hostApertureAccess (.write off data bad)) s = .next t ∧ t.mem = s.mem ∧ t.out = s.out))) ∧
    (s.job.state = .owned ∨ s.job.state = .armed → ∃ t : State, exec .flr s = .next t ∧ t.job = { s.job with state := .releasing, busy := true } ∧
      t.errs.running = false ∧ t.host = { s.host with bar2 := none } ∧ t.mem = s.mem ∧ t.cores = s.cores ∧ t.regs = s.regs) ∧
    (s.job.state ≠ .owned → s.job.state ≠ .armed → exec .flr s = .next { s with host := { s.host with bar2 := none } }) ∧
    (∃ t : State, exec .pcieLinkDown s = .next t ∧ t.host = { s.host with up := false } ∧ t.job = s.job ∧ t.mem = s.mem ∧ t.cores = s.cores ∧
      (s.host.up = true → s.job.state = .armed → s.errs.cdQueue = [] → Logged t .hostLost)) ∧
    (s.host.held = false → s.job.state ≠ .reset → (s.job.state = .boot → 2 ≤ s.phase) →
      exec .pcieLinkUp s = .next { s with host := { s.host with up := true } }) ∧
    (s.host.held = true ∨ s.job.state = .reset ∨ (s.job.state = .boot ∧ s.phase < 2) → exec .pcieLinkUp s = .next s) ∧
    (∀ fast, ∃ t : State, exec (.perstN false fast) s = .next t ∧ t.host.held = true ∧ t.host.up = false ∧ t.host.bar2 = none ∧ t.up.pins.perstLow = true ∧
      t.up.pins.perstFast = (s.up.pins.perstFast || fast) ∧ t.job = s.job ∧ t.mem = s.mem ∧ (fast = true → t.regBits (modReg .pinStat) 0 0 = 1)) ∧
    (∀ fast, ∃ t : State, exec (.perstN true fast) s = .next t ∧ t.up.pins.perstLow = false ∧ t.host.held = (s.up.pins.perstFast && s.host.held) ∧
      t.host.up = s.host.up ∧ t.regs = s.regs ∧ t.mem = s.mem) ∧
    (s.up.pins.perstFast = true → s.up.pins.perstLow = false →
      ∃ t : State, exec .perstNHoldEnd s = .next t ∧ t.host = { s.host with held := false } ∧ t.up.pins = { s.up.pins with perstFast := false }) ∧
    (s.up.pins.perstLow = true → exec .perstNHoldEnd s = .next s) ∧
    (s.servesFailed = true → s.host.up = true → s.host.held = false →
      (∀ off bs k b, s.job.state.trains = true → ¬(off ≤ 0x14_1000 ∧ 0x14_1000 < off + 4) → s.barRead off 4 = some bs → s.barPlace off = .reg k b →
        (k.r.row.width = 32 → exec (.hostApertureAccess (.bar off 4)) s = .next (s.send (.readData bs false))) ∧
        (k.r.row.width = 64 → s.serves k = true →
          (b = 0 → ∃ t : State, exec (.hostApertureAccess (.bar off 4)) s = .next t ∧ t.out = s.out ++ [.readData bs false] ∧ t.mem = s.mem ∧
            t.regs = s.regs ∧ t.host.latched.find? (fun q => decide (q.1 = .reg k)) = some (.reg k, s.readReg k / 2 ^ 32)) ∧
          (∀ v, b = 4 → s.host.latched.find? (fun q => decide (q.1 = .reg k)) = some (.reg k, v) →
            ∃ t : State, exec (.hostApertureAccess (.bar off 4)) s = .next t ∧ t.out = s.out ++ [.readData (natLe 4 v) false] ∧ t.mem = s.mem ∧
              t.regs = s.regs))) ∧
      (∀ k : Fin 7, exec (.hostApertureAccess (.resize k.val)) s = .next { s with host := { s.host with bar2 := some k } }) ∧
      (∃ t b, exec (.hostApertureAccess (.config 0 4)) s = .next t ∧ t.out = s.out ++ [.readData b false] ∧ leNat b = 0x1200_1FD4)) ∧
    (s.servesFailed = false → s.host.up = true → s.host.held = false → ∀ off n, exec (.hostApertureAccess (.config off n)) s = .next (s.send .retry)) ∧
    (∀ a : RegAccess, s.job.state.trains = true → (a.size ≠ 1 ∧ a.size ≠ 2 ∧ a.size ≠ 4 ∧ a.size ≠ 8) ∨ a.offset % a.size ≠ 0 →
      exec (.registerWrite a) s = .next (s.hostWin 0 a.offset true a.size false)) ∧
    (∀ a : RegAccess, s.job.state = .reset → exec (.registerWrite a) s = .next s)

/-- BIND in READY with no update running makes the module OWNED under the number given; in another state the job stays as it is. ARM in OWNED sets BUSY; elsewhere the job stays. ARM_VALIDATED of a consistent configuration arms the module, locks the RWL fields and sets the epoch to 0; of an inconsistent one it leaves the module OWNED and unlocked with ARM_REJ. RELEASE in OWNED or ARMED begins the release and stops steps; in READY it does nothing; while BUSY the job stays. The drain timeout leaves no entry in progress. The scrub's end makes the module READY, clears memory, queues and plans, halts every core with its array unconfigured and its registers kept, unlocks the fields and keeps the health table; it waits for a snapshot or a restore. Which register item of a configuration is the first is assumption log 66; that a core's registers are none of what R475 lists, log 35. (R5, R21, R22, R392, R448, R475) -/
def Obligations.JobControl : Prop :=
  ∀ (s : State),
    (∀ m : BitVec 12,
      (s.job.state = .ready → s.job.busy = false → s.updBusy = false → ∃ t : State, exec (.bind m) s = .next t ∧ t.job.state = .owned ∧ t.job.moduleId = m ∧
        t.job.locked = s.job.locked ∧ t.job.busy = false ∧ t.mem = s.mem ∧ t.cores = s.cores) ∧
      (s.job.state = .owned ∨ s.job.state = .armed ∨ s.job.state = .releasing → ∃ t : State, exec (.bind m) s = .next t ∧ t.job = s.job ∧ t.mem = s.mem)) ∧
    (s.job.state = .owned → s.job.busy = false → s.updBusy = false → exec .arm s = .next { s with job := { s.job with busy := true } }) ∧
    (s.job.state = .ready ∨ s.job.state = .armed ∨ s.job.state = .releasing → ∃ t : State, exec .arm s = .next t ∧ t.job = s.job ∧ t.mem = s.mem) ∧
    (s.job.state = .owned → s.job.busy = true →
      (s.armFault = none → ∃ t : State, exec .armValidated s = .next t ∧ t.job.state = .armed ∧ t.job.locked = true ∧ t.job.busy = false ∧
        t.fabric.epoch = 0 ∧ t.mem = s.mem ∧ t.cores = s.cores) ∧
      (∀ f, s.armFault = some f → ∃ t : State, exec .armValidated s = .next t ∧ t.job = { s.job with busy := false } ∧
        t.regBits (modReg .jobStat) 4 4 = 1 ∧ t.mem = s.mem)) ∧
    (s.job.state ≠ .owned → exec .armValidated s = .next s) ∧
    (s.job.state = .owned ∨ s.job.state = .armed →
      (s.job.busy = false → ∃ t : State, exec .release s = .next t ∧ t.job = { s.job with state := .releasing, busy := true } ∧ t.errs.running = false ∧
        t.mem = s.mem ∧ t.cores = s.cores ∧ t.regs = s.regs) ∧
      (s.job.busy = true → ∃ t : State, exec .release s = .next t ∧ t.job = s.job ∧ t.mem = s.mem)) ∧
    (s.job.state = .ready → exec .release s = .next s) ∧
    (s.job.state = .releasing → ∃ t : State, exec .releaseDrainTimeout s = .next t ∧ t.mem = s.mem ∧ t.job = s.job ∧
      ∀ q, ∀ e ∈ (t.queue q).entries, e.started = false) ∧
    (s.job.state ≠ .releasing → exec .releaseDrainTimeout s = .next s) ∧
    (s.job.state = .releasing → s.snapState ≠ 1 → s.snapState ≠ 2 → (∀ q, (s.queue q).busy = false) →
      ∃ t : State, exec .releaseScrubDone s = .next t ∧ t.job = { Job.reset with state := .ready } ∧ t.mem = Mem.reset ∧ t.queues = [] ∧
        (∀ c, (t.core c).run = .halted ∧ (t.core c).arr = ArrState.reset ∧ (t.core c).loads = [] ∧ (t.core c).copies = [] ∧ (t.core c).g = (s.core c).g ∧
          (t.core c).a = (s.core c).a ∧ (t.core c).ac = (s.core c).ac ∧ (t.core c).progBase = (s.core c).progBase ∧ (t.core c).arg0 = (s.core c).arg0) ∧
        t.plan = PlanState.reset ∧ ∀ p, (t.parcel p).health.retired = (s.parcel p).health.retired ∧ (t.parcel p).tiles = []) ∧
    (s.snapState = 1 ∨ s.snapState = 2 → exec .releaseScrubDone s = .next s)

/-- Each module reset ends the job and clears memory, cores and queues, keeps AO_TIME, the error log and, unless it cuts burns off, the fuses, sets its cause in RST_CAUSE and adds 1 to COUNT; POWER_ON keeps the fuses, and its cause is POR with COUNT 0. A RST_REQ with another key is a reserved value. When RESET_N rises with every rail valid and no thermal trip, or 1 ms after an internal cause, boot begins at step 1 with the straps sampled. OSC_WAIT_END enters step 2; a PLL that does not lock repeats it, at most 8 times; the end of each step enters the next, step 3 with a valid image that then runs, UDS locked, and without one, or with one whose slot is revoked or whose SVN lies below ARB, recovery; parcels that fail steps 4 and 5 are marked retired; step 6 leads to READY; an overrun stops with PHASE FAILED. ARB_COMMIT raises ARB to the image's SVN and revokes the slots it names but its own. TAP_RESET leaves the module as it is. A rise after a low too short to count samples nothing, and other straps than those sampled set STRAP_CHG (assumption log 42). Which counters a reset keeps is log 34, what an image in flash and its check are log 62. (R390, R391, R392, R396, R397, R400, R402, R418, R429, R472) -/
def Obligations.ResetsAndBoot : Prop :=
  ∀ (s : State),
    (∀ q ∈ [(Instr.resetNLow, 1), (.rstReq 0xA5C3, 2), (.lockstepMismatch, 4)], (q.1 = .rstReq 0xA5C3 → s.servesFailed = true) →
      ∃ t : State, exec q.1 s = .next t ∧ AfterReset s t ∧ t.regBits (modReg .rstCause) q.2 q.2 = 1 ∧
        t.regBits (modReg .rstCause) 15 8 = (s.regBits (modReg .rstCause) 15 8 + 1) % 256 ∧
        (q.2 ≠ 1 → s.up.boot.pinLow = false → s.up.boot.tripped = false → t.up.boot.hold = .internal) ∧ (q.2 = 1 → t.up.boot.pinLow = true)) ∧
    (∀ key : BitVec 16, s.servesFailed = true → key ≠ 0xA5C3 → exec (.rstReq key) s = .next (s.badValue (modReg .rstReq) key.toNat 4)) ∧
    (∃ t : State, exec .powerOn s = .next t ∧ t.job = Job.reset ∧ t.mem = Mem.reset ∧ t.cores = [] ∧ t.aoTime = 0 ∧ t.errs = Errs.reset ∧
      FusesKept s t ∧ t.regBits (modReg .rstCause) 0 0 = 1 ∧ t.regBits (modReg .rstCause) 15 8 = 0) ∧
    (∀ x, s.up.boot.pinLow = true → s.up.boot.bad = [] → s.up.boot.tripped = false →
      ∃ t : State, exec (.resetNRise x) s = .next t ∧ t.job.state = .boot ∧ t.phase = 1 ∧ t.up.boot.straps = some x ∧ t.up.boot.pinLow = false) ∧
    (∀ x, s.up.boot.pinLow = true → s.up.boot.bad ≠ [] → ∃ t : State, exec (.resetNRise x) s = .next t ∧ t.job = s.job) ∧
    (∀ x y, s.up.boot.pinLow = false → s.up.boot.straps = some y →
      (x = y → exec (.resetNRise x) s = .next s) ∧
      (x ≠ y → ∃ t : State, exec (.resetNRise x) s = .next t ∧ t.regBits (modReg .pinStat) 4 4 = 1 ∧ t.up = s.up ∧ t.job = s.job ∧ t.mem = s.mem)) ∧
    (s.job.state = .reset → s.up.boot.hold = .internal → s.up.boot.bad = [] →
      ∃ t : State, exec .internalResetEnd s = .next t ∧ t.job.state = .boot ∧ t.phase = 1) ∧
    (s.job.state ≠ .reset → exec .internalResetEnd s = .next s) ∧
    (s.job.state = .boot →
      (s.phase = 1 → ∃ t : State, exec .oscWaitEnd s = .next t ∧ t.phase = 2 ∧ t.job = s.job ∧ t.mem = s.mem) ∧
      (s.phase = 2 →
        (s.up.boot.tries < 8 → ∃ t : State, exec .pllLockRetry s = .next t ∧ t.phase = 1 ∧ t.up.boot.tries = s.up.boot.tries + 1) ∧
        (8 ≤ s.up.boot.tries → ∃ t : State, exec .pllLockRetry s = .next t ∧ t.phase = 15 ∧ t.job = s.job) ∧
        (s.coasting = false → ∃ t : State, exec (.bootPhaseDone .done) s = .next t ∧ t.phase = 3 ∧ t.regBits (modReg .clkStat) 17 6 = 0xFFF)) ∧
      (s.phase = 3 →
        (∀ im, s.up.sec.flash = some im → s.up.sec.check im = 0 →
          ∃ t : State, exec (.bootPhaseDone .done) s = .next t ∧ t.phase = 4 ∧ t.up.sec.running = some im ∧ t.up.sec.udsLocked = true) ∧
        (∀ im, s.up.sec.flash = some im → bitOf s.up.sec.krevoke im.kslot = true ∨ im.svn < s.up.sec.arb →
          ∃ t : State, exec (.bootPhaseDone .done) s = .next t ∧ t.phase = 14) ∧
        (s.up.sec.flash = none → ∃ t : State, exec (.bootPhaseDone .done) s = .next t ∧ t.phase = 14) ∧
        (∀ im, s.up.sec.flash = some im → s.up.sec.check im ≠ 0 →
          ∃ t : State, exec (.bootPhaseDone .done) s = .next t ∧ t.phase = 14 ∧ t.regBits (modReg .secStat) 15 13 = s.up.sec.check im % 8) ∧
        (∀ c, exec (.bootPhaseDone (.imageFailed c)) s = exec (.bootPhaseDone .done) s)) ∧
      (s.phase = 4 ∨ s.phase = 5 → (∃ t : State, exec (.bootPhaseDone .done) s = .next t ∧ t.phase = s.phase + 1 ∧ t.job = s.job) ∧
        ∀ ps, ps ≠ [] → ∃ t : State, exec (.bootPhaseDone (.parcelsFailed ps)) s = .next t ∧ t.phase = s.phase + 1 ∧
          t.regBits (modReg .bootStat) 4 4 = 1 ∧ ∀ p ∈ ps, (t.parcel p).health.retired = true) ∧
      (s.phase = 6 → ∃ t : State, exec (.bootPhaseDone .done) s = .next t ∧ t.phase = 7 ∧ t.job.state = .ready) ∧
      (1 ≤ s.phase ∧ s.phase ≤ 6 → ∃ t : State, exec .bootOverrun s = .next t ∧ t.phase = 15 ∧ t.job = s.job)) ∧
    (∀ im, s.job.state.trains = true → s.up.sec.running = some im →
      (im.commit = true → ∃ t : State, exec .arbCommit s = .next t ∧ t.up.sec.arb = max s.up.sec.arb im.svn ∧ t.regBits (modReg .secStat) 12 12 = 1 ∧
        ∀ n, t.up.sec.krevoke.testBit n = (s.up.sec.krevoke.testBit n || (im.revoke.testBit n && decide (n ≠ im.kslot)))) ∧
      (im.commit = false → exec .arbCommit s = .next s)) ∧
    (∃ t : State, exec .tapReset s = .next t ∧ t = { s with up := { s.up with tap := t.up.tap, tapDr := t.up.tapDr } })

/-- When the reference is lost every parcel runs at step 0, CLK_LOSS sets and no port stays trained; when it returns, parcels run at their steps again. CLKOBS_CTL takes a value without reserved encodings, with EN 0 of which the pin stays low, and discards another. A regulator that reports a fault, by poll, alert or timeout, brings its tract to step 0 and holds it there; a reading outside 0.55 to 0.95 V stops the tract. A fault of a port rail takes its side's ports down, of VCORE stops the tract where its voltage, which the command does not give, lies outside that range, of another rail of the control die resets the module; RAIL_RESTORED makes the rail valid. A rail that has risen to its target lets the granted steps take effect. THROTTLE_N low lowers the limit to the lower of LIMIT and TLIMIT until it goes high, for an input that toggled too fast until its hold ends. An alert with no fault is ignored after 10 ms, and a THROTTLE_N that stays active is recorded. What the inputs are at reset is assumption log 22, the voltages of the steps log 38, the voltage at a VCORE fault log 74. (R375, R376, R377, R378, R382, R387, R388, R389, R394, R468) -/
def Obligations.ClocksAndRails : Prop :=
  ∀ (s : State),
    (s.coasting = false → ∃ t : State, exec .referenceLost s = .next t ∧ t.coasting = true ∧ t.regBits (modReg .clkStat) 5 5 = 1 ∧
      (∀ p, t.stepNow p = 0) ∧ (∀ p : Port, t.portState p.val < 5) ∧ t.mem = s.mem ∧ t.job = s.job) ∧
    (s.coasting = true → exec .referenceLost s = .next s ∧ ∃ t : State, exec .referenceRestored s = .next t ∧ t.coasting = false ∧
      t.regBits (modReg .clkStat) 5 5 = s.regBits (modReg .clkStat) 5 5 ∧ (∀ p, t.stepNow p = (s.parcel p).health.step) ∧ t.mem = s.mem ∧ t.job = s.job) ∧
    (s.coasting = false → exec .referenceRestored s = .next s) ∧
    (∀ v : Word, s.job.state.trains = true →
      (bitsOf v.toNat 3 0 ≤ 7 ∧ bitsOf v.toNat 7 4 ≤ 11 ∧ bitsOf v.toNat 18 8 ≤ 1359 → ∃ t : State, exec (.clkobsCtlWrite v) s = .next t ∧
        t = { s with regs := t.regs } ∧ t.regBits (modReg .clkobsCtl) 22 0 = bitsOf v.toNat 22 0 ∧
        t.regBits (modReg .clkobsCtl) 23 23 = bitsOf v.toNat 23 23) ∧
      (¬(bitsOf v.toNat 3 0 ≤ 7 ∧ bitsOf v.toNat 7 4 ≤ 11 ∧ bitsOf v.toNat 18 8 ≤ 1359) →
        exec (.clkobsCtlWrite v) s = .next (s.badValue (modReg .clkobsCtl) v.toNat 4)) ∧
      (bitsOf v.toNat 3 0 ≤ 7 ∧ bitsOf v.toNat 7 4 ≤ 11 ∧ bitsOf v.toNat 18 8 ≤ 1359 → bitOf v.toNat 23 = false →
        ∃ t : State, exec (.clkobsCtlWrite v) s = .next t ∧ t.clkobsPin = none)) ∧
    (s.managesRails = true → ∀ x : Tract,
      (∀ amps, ∃ t : State, exec (.avsCurrentRead x amps) s = .next t ∧ t.tpwr x = { s.tpwr x with amps := amps } ∧ t.mem = s.mem ∧ t.regs = s.regs) ∧
      (∀ mv, ∃ t : State, exec (.pmbusPoll (.vcore x) false mv) s = .next t ∧ (t.tpwr x).mv = mv ∧ .vcore x ∉ t.up.vrFaults ∧ t.mem = s.mem ∧
        (mv < 550 ∨ 950 < mv → t.dead x.val = true)) ∧
      ((∀ f ∈ s.up.vrFaults, railTract f ≠ some x) → ∀ c ∈ [Instr.pmbusPoll (.vdd2 x) true 0, .regulatorTimeout (.vcore x), .pmbAlertN [.vcore x]],
        ∃ t : State, exec c s = .next t ∧ t.vrHeld x = true ∧ AtStepZero s t x ∧ t.mem = s.mem ∧ t.job = s.job) ∧
      (∀ mv k, (s.tpwr x).want = some k → s.railTarget x ≤ mv + 10 → ∃ t : State, exec (.newVoltageReported x mv) s = .next t ∧ (t.tpwr x).want = none ∧
        ∀ p : ParcelId, p.tract = x → s.working p = true → (t.parcel p).health.step = s.grantedStep p k)) ∧
    (∃ t : State, exec (.railFault .vportW) s = .next t ∧ (∀ p : Port, p.val < 8 → t.portState p.val < 5) ∧ .vportW ∈ t.up.boot.bad ∧ t.mem = s.mem) ∧
    (∃ t : State, exec (.railFault .vportE) s = .next t ∧ (∀ p : Port, 8 ≤ p.val → t.portState p.val < 5) ∧ .vportE ∈ t.up.boot.bad ∧ t.mem = s.mem) ∧
    (∀ x : Tract, ∃ t : State, exec (.railFault (.vcore x)) s = .next t ∧ .vcore x ∈ t.up.boot.bad ∧ t.mem = s.mem ∧ t.job = s.job ∧
      ((t.tpwr x).mv < 550 ∨ 950 < (t.tpwr x).mv → t.dead x.val = true)) ∧
    (∃ t : State, exec (.railFault .vctl) s = .next t ∧ t.job = Job.reset ∧ .vctl ∈ t.up.boot.bad) ∧
    (∀ r, ∃ t : State, exec (.railRestored r) s = .next t ∧ r ∉ t.up.boot.bad ∧ (∀ r', r' ≠ r → (r' ∈ t.up.boot.bad ↔ r' ∈ s.up.boot.bad)) ∧ t.mem = s.mem ∧
      ∀ x, r = .vcore x → (t.tpwr x).dead = false) ∧
    (∀ faults, ∃ t : State, exec (.pmbAlertN faults) s = .next t ∧ t.up.pins.alert = true ∧ t.up.pins.alertDone = !faults.isEmpty ∧ t.mem = s.mem) ∧
    (s.up.pins.alert = true → s.up.pins.alertDone = false → s.managesRails = true →
      ∃ t : State, exec .alertStuck s = .next t ∧ t.up.pins.alert = false ∧ t.regBits (modReg .pinStat) 3 3 = 1 ∧ t.mem = s.mem) ∧
    (∀ high fast, ∃ t : State, exec (.throttleN high fast) s = .next t ∧ t.up.pins.throttle = (fast || s.up.pins.throtFast || !high) ∧
      (t.up.pins.throttle = true → t.powerLimit = 10 * min (s.regBits pwrCtl 10 0) (s.regBits pwrCtl 21 11)) ∧
      (t.up.pins.throttle = false → t.powerLimit = 10 * s.regBits pwrCtl 10 0) ∧ t.mem = s.mem) ∧
    (s.up.pins.throtFast = true → ∃ t : State, exec .throttleNHoldEnd s = .next t ∧ t.up.pins = { s.up.pins with throtFast := false, throttle := false }) ∧
    (s.up.pins.throttle = true → s.job.state.trains = true → s.errs.cdQueue = [] →
      ∃ t : State, exec .throtStuck s = .next t ∧ t.regBits pinStat 1 1 = 1 ∧ Logged t .throtStuck ∧ t.mem = s.mem)

/-- In READY and later: a budget plan gives the tracts budgets whose sum is at most the effective limit, and every rail it sets lies within 600 and 900 mV. A tract whose estimate is within its budget and current limit keeps its steps; one that exceeds comes down a step, boosted parcels first, and at step 0 sets OVERBUDGET. At 105 degrees a tract goes to step 0 and sets its bit; below 100 it is let go; from 115 the module resets for a thermal trip. PLOT_PWR takes a SMAX of at most 38, brings the plot's parcels down to it, and discards another. A slack below 3 % takes one step off and is recorded. An hour of operation moves every parcel's hourly counts on. No such event changes memory. In what grants and draws depend on values the spec leaves open, the model is free (assumption log 74: how counts weigh in an estimate). (R381, R382, R383, R384, R385, R386, R387, R427, R430, R432) -/
def Obligations.PowerManager : Prop :=
  ∀ (s : State), s.job.state.trains = true →
    (∃ t : State, exec .powerBudgetPlan s = .next t ∧ (allTracts.map (fun (x : Tract) => t.regBits (tractPwrR x) 10 0)).sum ≤ s.powerLimit ∧ t.mem = s.mem ∧
      t.cores = s.cores ∧ ∀ x, (s.tpwr x).exceeds = false → 600 ≤ t.railTarget x ∧ t.railTarget x ≤ 900) ∧
    (∀ (p : ParcelId) (n : Nat),
      (∃ t : State, exec (.parcelEstimate p n) s = .next t ∧ (t.parcel p).health = { (s.parcel p).health with
        estimate := Config.parcelPower (s.parcel p).health.coeff (s.stepNow p) (s.tpwr p.tract).mv n } ∧
        (∀ p', p' ≠ p → t.parcel p' = s.parcel p') ∧ t = { s with parcels := t.parcels }) ∧
      (∃ t : State, exec (.coefficientCorrection p n) s = .next t ∧ (t.parcel p).health = { (s.parcel p).health with coeff := n } ∧
        (∀ p', p' ≠ p → t.parcel p' = s.parcel p') ∧ t = { s with parcels := t.parcels }) ∧
      (∃ t : State, exec (.pathDelayReport p n) s = .next t ∧ (t.parcel p).health.slacks.get (s.stepNow p) 1001 = n ∧ t.mem = s.mem ∧ (∀ p', p' ≠ p → t.parcel p' = s.parcel p') ∧
        (30 ≤ n → (t.parcel p).health.step = (s.parcel p).health.step) ∧
        (n < 30 → (t.parcel p).health.step = (s.parcel p).health.step - 1 ∧ (s.errs.cdQueue = [] → Logged t .ageMargin)))) ∧
    (∀ x : Tract,
      (s.tractEstimate x ≤ (s.tpwr x).budget ∧ s.tractEstimate x ≤ 1600 * (s.tpwr x).mv →
        ∃ t : State, exec (.limiterWindow x) s = .next t ∧ t.parcels = s.parcels ∧ (t.tpwr x).exceeds = false ∧ t.mem = s.mem) ∧
      ((s.tpwr x).budget < s.tractEstimate x ∨ 1600 * (s.tpwr x).mv < s.tractEstimate x →
        ∃ t : State, exec (.limiterWindow x) s = .next t ∧ (t.tpwr x).exceeds = true ∧ t.mem = s.mem ∧ t.cores = s.cores ∧
          (s.tractStep x = 0 → t.parcels = s.parcels ∧ t.regBits pwrStat 13 13 = 1) ∧
          (s.tractStep x ≠ 0 → ∀ p : ParcelId, p.tract = x → s.working p = true →
            (32 < (s.parcel p).health.step → (t.parcel p).health.step = (s.parcel p).health.step - 1) ∧
            ((∀ p', p'.tract = x → s.working p' = true → (s.parcel p').health.step ≤ 32) →
              (t.parcel p).health.step = (s.parcel p).health.step - 1))) ∧
      (∀ rs tj, Hottest rs 100 tj →
        (tj < 105 → ∃ t : State, exec (.junctionSample x rs) s = .next t ∧ t.parcels = s.parcels ∧ t.regBits (tractPwrR x) 56 49 = tj ∧ t.mem = s.mem ∧
          t.job = s.job ∧ (tj < 100 → (t.tpwr x).hot = false) ∧ (100 ≤ tj → t.regBits (tractPwrR x) 57 57 = 1)) ∧
        (105 ≤ tj → tj < 115 → ∃ t : State, exec (.junctionSample x rs) s = .next t ∧ AtStepZero s t x ∧ (t.tpwr x).hot = true ∧
          t.regBits (tractPwrR x) 58 58 = 1 ∧ t.mem = s.mem ∧ t.job = s.job) ∧
        (115 ≤ tj → s.up.boot.tripped = false → ∃ t : State, exec (.junctionSample x rs) s = .next t ∧ AfterReset s t ∧ t.up.boot.tripped = true ∧
          t.regBits (modReg .rstCause) 3 3 = 1)) ∧
      (∀ (n : Fin 256) (v : Word), s.tractServed x.val = true →
        (bitsOf v.toNat 8 3 ≤ 38 → ∃ t : State, exec (.plotPwrWrite x n v) s = .next t ∧ t.regBits (tractRegI .plotPwr x n.val) 8 0 = bitsOf v.toNat 8 0 ∧
          (∀ p ∈ s.plotParcels x (BitVec.ofNat 8 n.val), (t.parcel p).health.step = min (s.parcel p).health.step (bitsOf v.toNat 8 3)) ∧ t.mem = s.mem) ∧
        (38 < bitsOf v.toNat 8 3 → ∃ t : State, exec (.plotPwrWrite x n v) s = .next t ∧
          t.regBits (tractRegI .plotPwr x n.val) 8 0 = s.regBits (tractRegI .plotPwr x n.val) 8 0 ∧ t.mem = s.mem))) ∧
    (∃ t : State, exec .screenDue s = .next t ∧ t.up.hours = s.up.hours + 1 ∧ t.mem = s.mem ∧ ∀ p : ParcelId, (t.parcel p).health = (s.parcel p).health.hour)

/-- Outside RESET a sample below 115 degrees leaves TMAX in DRAM_THERM, with a failed sensor reading 105, and an interval no longer than TMAX calls for; 105 degrees, and a sensor that begins to fail, set their bits; from 115 the module resets. CATCHUP_END ends the catch-up, and a refresh changes nothing. The scrubber corrects and counts a correctable word and poisons an uncorrectable one; no data byte changes. CM_LAYOUT takes a legal value in an idle tract, and memory keeps every byte but those that leave a tile list region where entries had been; in another tract it keeps its value. A write that enables or disables a replicated region makes its replica lines invalid. A refill copies a line of the home into the replica and makes it valid; a write that counts as applied leaves its lines invalid. (R137, R138, R141, R142, R143, R144, R145, R146, R147, R151, R152, R153) -/
def Obligations.DramUpkeep : Prop :=
  ∀ (x : Tract) (s : State),
    (∀ rs tm, s.job.state ≠ .reset → Hottest rs 105 tm → tm < 115 →
      ∃ t : State, exec (.dramTempSample x rs) s = .next t ∧ t.regBits (dramTherm x) 7 0 = tm ∧ refreshLevel tm ≤ t.regBits (dramTherm x) 9 8 ∧
        t.mem = s.mem ∧ t.job = s.job ∧ t.parcels = s.parcels ∧ (105 ≤ tm → t.regBits (dramTherm x) 11 11 = 1) ∧
        (∀ n, rs[n]? = some none → (s.tpwr x).badSensors.contains n = false → t.regBits (dramTherm x) 12 12 = 1)) ∧
    (∀ rs tm, Hottest rs 105 tm → 115 ≤ tm → s.up.boot.tripped = false →
      ∃ t : State, exec (.dramTempSample x rs) s = .next t ∧ AfterReset s t ∧ t.up.boot.tripped = true) ∧
    (∃ t : State, exec (.catchupEnd x) s = .next t ∧ t = { s with regs := t.regs } ∧ t.regBits (dramTherm x) 10 10 = 0 ∧
      t.regBits (dramTherm x) 9 8 = s.regBits (dramTherm x) 9 8) ∧
    (∀ p layer bank, exec (.dramRefresh p layer bank) s = .next s) ∧
    (∀ p word, word < 0x48_0000 → s.mem.wf = true → sliceKey p (16 * word) ∉ s.mem.poison →
      (sliceKey p (16 * word) ∉ s.mem.ue →
        (sliceKey p (16 * word) ∈ s.mem.ce → ∃ t : State, exec (.patrolScrub p word .corrected) s = .next t ∧ t.mem.bytes = s.mem.bytes ∧
          sliceKey p (16 * word) ∉ t.mem.ce ∧ (t.parcel p).health.dramce = ((s.parcel p).health.dramce + 1) % 65536) ∧
        (sliceKey p (16 * word) ∉ s.mem.ce → exec (.patrolScrub p word .clean) s = .next s)) ∧
      (∃ t : State, exec (.patrolScrub p word .uncorrectable) s = .next t ∧ t.mem.bytes = s.mem.bytes ∧ sliceKey p (16 * word) ∈ t.mem.poison)) ∧
    (s.job.state.trains = true → s.tractServed x.val = true → s.rwlLocked = false → ∀ v : Word, cmLayoutOk v.toNat = true →
      (s.layoutIdle x = true → ∃ t : State, exec (.cmLayoutWrite x v) s = .next t ∧ t.cores = s.cores ∧ t.job = s.job ∧
        t.regBits (tractReg .cmLayout x) 15 0 = bitsOf v.toNat 15 0 ∧
        ∀ a, (∀ p : ParcelId, p.tract = x → a < commonsKey p (s.parcel p).tileLow ∨ commonsKey p (tileBase (t.layout x)) ≤ a) →
          byteAt t.mem.bytes a = byteAt s.mem.bytes a) ∧
      (s.layoutIdle x = false → s.layout x < 2 ^ 16 → bitsOf v.toNat 15 0 ≠ s.regBits (tractReg .cmLayout x) 15 0 → ∃ t : State, exec (.cmLayoutWrite x v) s = .next t ∧
        t.regBits (tractReg .cmLayout x) 15 0 = s.regBits (tractReg .cmLayout x) 15 0 ∧ t.mem = s.mem)) ∧
    (s.job.state.trains = true → s.rwlLocked = false → ∀ (i : Fin 16) (v : Word),
      s.replOk i.val { s.replRegs i.val with ctl := (s.writeResult (modRegI .replCtl i.val) v.toNat).1 } = true →
      ∃ t : State, exec (.replCtlWrite i v) s = .next t ∧ t.regBits (modRegI .replCtl i.val) 25 0 = bitsOf v.toNat 25 0 ∧ t.mem = s.mem ∧
        (bitOf v.toNat 0 ≠ (s.replRegs i.val).enabled → ∀ y n, (i.val, n) ∉ (t.fab y).replOk)) ∧
    (∀ (i : Fin 16) line r, s.replRegion i.val = some r → gaTract r.home ≠ x.val → 128 * line < r.len → s.mem.wf = true →
      (∀ y, ∀ w ∈ (s.fab y).replW, (i.val, line) ∉ s.regionLines w.key w.len) → (s.fabs.map (fun q => q.1)).Nodup →
      Clean s (r.home + 128 * line) 128 → Clean s (keyOf x.val r.parcel (r.off + 128 * line)) 128 →
      Apart (r.home + 128 * line) 128 (keyOf x.val r.parcel (r.off + 128 * line)) 128 →
      ∃ t : State, exec (.replicaRefill x i line) s = .next t ∧ (i.val, line) ∈ (t.fab x).replOk ∧
        Stored s t (keyOf x.val r.parcel (r.off + 128 * line)) (s.mem.read (r.home + 128 * line) 128)) ∧
    (∀ tag w, s.dead x.val = false → (s.fab x).replW[tag]? = some w → ∃ t : State, exec (.replicaWriteApplied x tag) s = .next t ∧ t.mem = s.mem ∧
      (t.fab x).replW = dropIdx (s.fab x).replW tag ∧ ∀ l ∈ s.regionLines w.key w.len, ∀ y, l ∉ (t.fab y).replOk)

/-- GO in READY or recovery sets BUSY unless an update runs. A staged image that passes every check is in flash when BUSY clears, with DONE, and in recovery boots at once; one that fails leaves flash as it is, with FAIL and its check, and one that does not read back leaves no valid image. The staging buffer takes bytes in READY while no update runs, and none while one does. UNLOCK puts the token into the token buffer and verifies the buffer: it grants the level that a valid token's signed body states beside those granted before, and else sets DBGERR; each attempt, and each read of the nonce that covers byte 0, replaces the nonce by bytes the spec does not fix. TESTMUX_SEL takes EN only with debug level bit 0, and no reserved encoding. A readback that does not match is assumption log 39. (R399, R401, R402, R409, R453, R454, R473) -/
def Obligations.UpdateAndUnlock : Prop :=
  ∀ (s : State),
    (s.job.state = .ready ∨ s.recovering = true → (s.updBusy = false → ∃ t : State, exec .go s = .next t ∧ t.updBusy = true ∧ t = { s with regs := t.regs }) ∧
      (s.updBusy = true → exec .go s = .next s)) ∧
    (s.job.state ≠ .ready → s.recovering = false → exec .go s = .next s) ∧
    (s.updBusy = true → s.job.state = .ready →
      (s.up.sec.imageCheck = 0 →
        (∃ t : State, exec (.updateVerifyDone 0) s = .next t ∧ t.updBusy = false ∧ t.up.sec.flash = some s.up.sec.stagedImage ∧
          t.up.sec.running = s.up.sec.running ∧ t.regBits updCtl 2 2 = 1 ∧ t.regBits updCtl 7 4 = s.regBits updCtl 7 4 ∧ t.mem = s.mem) ∧
        (∃ t : State, exec (.updateVerifyDone 7) s = .next t ∧ t.updBusy = false ∧ t.up.sec.flash = none ∧ t.regBits updCtl 3 3 = 1 ∧
          t.regBits updCtl 7 4 = 7)) ∧
      (s.up.sec.imageCheck ≠ 0 → ∀ c, ∃ t : State, exec (.updateVerifyDone c) s = .next t ∧ t.updBusy = false ∧ t.up.sec = s.up.sec ∧
        t.regBits updCtl 3 3 = 1 ∧ t.regBits updCtl 7 4 = s.up.sec.imageCheck)) ∧
    (s.updBusy = true → s.recovering = true → s.up.sec.imageCheck = 0 → ∃ t : State, exec (.updateVerifyDone 0) s = .next t ∧ t.phase = 4 ∧
      t.up.sec.flash = some s.up.sec.stagedImage ∧ t.up.sec.running = some s.up.sec.stagedImage ∧ t.up.sec.udsLocked = true) ∧
    (s.updBusy = false → ∀ c, exec (.updateVerifyDone c) s = .next s) ∧
    (∀ off data, s.job.state = .ready → off + data.length ≤ 0x200_0000 →
      (s.updBusy = false → s.up.sec.staging.Pairwise (fun a b => a.1 < b.1) → ∃ t : State, exec (.stagingWrite off data) s = .next t ∧ t.mem = s.mem ∧
        ∀ a, byteAt t.up.sec.staging a = if off ≤ a ∧ a < off + data.length then data.getD (a - off) 0 else byteAt s.up.sec.staging a) ∧
      (s.updBusy = true → ∃ t : State, exec (.stagingWrite off data) s = .next t ∧ t.up.sec = s.up.sec ∧ t.mem = s.mem)) ∧
    (s.job.state.trains = true →
      (∀ tok b, b = (s.putToken tok).bufferedToken → (tok.wellFormed = true → s.up.sec.token.Pairwise (fun a b => a.1 < b.1) → b = tok) ∧
        ∃ t : State, exec (.unlock tok) s = .next t ∧ t.up.sec.nonce = tabulate 32 (Config.freeByte s.free) ∧ t.free = s.free + 1 ∧ t.mem = s.mem ∧
        (s.tokenOk b = true → t.regBits secStat 18 16 = (s.regBits secStat 18 16 ||| tokenLevel b % 8) ∧
          t.regBits secStat 19 19 = s.regBits secStat 19 19) ∧
        (s.tokenOk b = false → t.regBits secStat 18 16 = s.regBits secStat 18 16 ∧ t.regBits secStat 19 19 = 1)) ∧
      (∀ n, 0 < n → ∃ t : State, exec (.dbgNonceRead 0 n) s = .next t ∧ t.up.sec.nonce = tabulate 32 (Config.freeByte s.free) ∧
        t.out = s.out ++ [.debugData ((tabulate 32 (Config.freeByte s.free)).take n)]) ∧
      (∀ o n, o ≠ 0 → ∃ t : State, exec (.dbgNonceRead o n) s = .next t ∧ t.up = s.up ∧ t.out = s.out ++ [.debugData ((s.up.sec.nonce.drop o).take n)]) ∧
      (∀ v : Word,
        (bitsOf v.toNat 4 1 ≤ 7 ∧ bitsOf v.toNat 8 5 ≤ 11 ∧ bitsOf v.toNat 19 9 ≤ 1359 ∧ bitsOf v.toNat 27 24 ≤ 8 →
          (bitOf v.toNat 0 = false ∨ s.regBits secStat 16 16 = 1 → ∃ t : State, exec (.testmuxSelWrite v) s = .next t ∧ t = { s with regs := t.regs } ∧
            t.regBits (modReg .testmuxSel) 27 0 = bitsOf v.toNat 27 0)) ∧
        (bitOf v.toNat 0 = true → s.regBits secStat 16 16 = 0 →
          exec (.testmuxSelWrite v) s = .next (s.badValue (modReg .testmuxSel) v.toNat 4))))

/-- Before READY no request is answered. From READY on every request is answered with one message. GET_VERSION starts the connection afresh; GET_CAPABILITIES chooses version 1.2 or 1.3 and refuses another; NEGOTIATE_ALGORITHMS needs that first, and both algorithms among those offered, and the requests after it need the algorithms; a request out of order is answered with an error. Slot 0 holds the chain of the root, the DeviceID and the Alias certificate, and certificates, challenges and key exchanges are of slot 0. Every exchange since GET_VERSION joins the transcript. A challenge, a key exchange and a signed measurement each use one leaf of the HSS key, and with none left, or where the leaf's journal record cannot be written, are refused and use none. A key exchange begins a session, FINISH establishes it, HEARTBEAT needs it, END_SESSION ends it. The response and error codes are those the model presumes (assumption log 18). (R405, R406, R407, R408) -/
def Obligations.AttestationRequests : Prop :=
  ∀ (r : SpdmReq) (s : State),
    (s.job.state.trains = false →
      ∀ c ∈ [Instr.getVersion r, .getCapabilities r, .negotiateAlgorithms r, .getDigests r, .getCertificate r, .challenge r, .getMeasurements r,
        .keyExchange r, .finish r, .heartbeat r, .endSession r], exec c s = .next s) ∧
    (s.job.state.trains = true →
      (∃ t : State, exec (.getVersion r) s = .next t ∧ t.up.sec.spdm = { Spdm.reset with nextSess := s.up.sec.spdm.nextSess, heard := r.body ++ [0x04, 0x12, 0x13] } ∧
        t.out = s.out ++ [.spdm 0x04 [0x12, 0x13]] ∧ t.mem = s.mem) ∧
      (r.version = 0x12 ∨ r.version = 0x13 → ∃ t : State, exec (.getCapabilities r) s = .next t ∧ t.up.sec.spdm.version = some r.version ∧
        t.up.sec.spdm.caps = true ∧ t.out = s.out ++ [.spdm 0x61 (natLe 1 r.version)]) ∧
      (r.version ≠ 0x12 → r.version ≠ 0x13 → exec (.getCapabilities r) s = .next (spdmAnswered s r 0x7F (natLe 1 0x41))) ∧
      (s.up.sec.spdm.caps = false → exec (.negotiateAlgorithms r) s = .next (spdmAnswered s r 0x7F (natLe 1 0x04))) ∧
      (s.up.sec.spdm.caps = true → (r.p384 && r.sha384) = false → exec (.negotiateAlgorithms r) s = .next (spdmAnswered s r 0x7F (natLe 1 0x01))) ∧
      (s.up.sec.spdm.caps = true → (r.p384 && r.sha384) = true → ∃ t : State, exec (.negotiateAlgorithms r) s = .next t ∧ t.up.sec.spdm.algos = true ∧ t.up.sec.spdm.version = s.up.sec.spdm.version ∧
        ∃ b, t.out = s.out ++ [.spdm 0x63 b]) ∧
      (s.up.sec.spdm.algos = false → ∀ c ∈ [Instr.getDigests r, .getCertificate r, .challenge r, .getMeasurements r, .keyExchange r],
        exec c s = .next (spdmAnswered s r 0x7F (natLe 1 0x04))) ∧
      (s.up.sec.spdm.algos = true →
        exec (.getDigests r) s = .next (spdmAnswered s r 0x01 (sha384Bytes (Config.rootCert ++ Machine.deviceCert ++ s.up.sec.aliasCert.getD []))) ∧
        (r.slot = 0 → exec (.getCertificate r) s = .next (spdmAnswered s r 0x02 (Config.rootCert ++ Machine.deviceCert ++ s.up.sec.aliasCert.getD []))) ∧
        (r.slot ≠ 0 → exec (.getCertificate r) s = .next (spdmAnswered s r 0x7F (natLe 1 0x01)) ∧ exec (.challenge r) s = .next (spdmAnswered s r 0x7F (natLe 1 0x01)) ∧
          exec (.keyExchange r) s = .next (spdmAnswered s r 0x7F (natLe 1 0x01))) ∧
        (s.up.sec.leaf < leafTotal → s.up.sec.reserved = true ∨ r.journal = true →
          (r.slot = 0 → ∃ (t : State) (b : List Byte), exec (.challenge r) s = .next t ∧ t.up.sec.leaf = s.up.sec.leaf + 1 ∧ t.out = s.out ++ [.spdm 0x03 b]) ∧
          (r.signed = true → r.block = 0 → ∃ (t : State) (b : List Byte), exec (.getMeasurements r) s = .next t ∧ t.up.sec.leaf = s.up.sec.leaf + 1 ∧
            t.out = s.out ++ [.spdm 0x60 (5 :: b)]) ∧
          (r.slot = 0 → ∃ (t : State) (b : List Byte), exec (.keyExchange r) s = .next t ∧ t.up.sec.leaf = s.up.sec.leaf + 1 ∧ t.out = s.out ++ [.spdm 0x64 b] ∧
            t.up.sec.spdm.begun = s.up.sec.spdm.begun ++ [s.up.sec.spdm.nextSess] ∧ t.up.sec.spdm.nextSess = s.up.sec.spdm.nextSess + 1)) ∧
        (r.slot = 0 → leafTotal ≤ s.up.sec.leaf → ∀ c ∈ [Instr.challenge r, .keyExchange r], exec c s = .next (spdmAnswered s r 0x7F (natLe 1 0x05))) ∧
        (r.slot = 0 → s.up.sec.leaf < leafTotal → s.up.sec.reserved = false → r.journal = false → ∀ c ∈ [Instr.challenge r, .keyExchange r],
          ∃ t : State, exec c s = .next t ∧ t.up.sec.leaf = s.up.sec.leaf ∧ t.up.sec.bound = s.up.sec.bound ∧ t.out = s.out ++ [.spdm 0x7F (natLe 1 0x05)]) ∧
        (r.signed = false → r.block = 0 → exec (.getMeasurements r) s = .next (spdmAnswered s r 0x60 [5])) ∧
        (5 < r.block → r.block ≠ 0xFF → exec (.getMeasurements r) s = .next (spdmAnswered s r 0x7F (natLe 1 0x01)))) ∧
      (r.session ∈ s.up.sec.spdm.begun → ∃ t : State, exec (.finish r) s = .next t ∧ r.session ∉ t.up.sec.spdm.begun ∧
        t.up.sec.spdm.sessions = s.up.sec.spdm.sessions ++ [r.session] ∧ t.out = s.out ++ [.spdm 0x65 []]) ∧
      (r.session ∉ s.up.sec.spdm.begun → exec (.finish r) s = .next (spdmAnswered s r 0x7F (natLe 1 0x04))) ∧
      (r.session ∈ s.up.sec.spdm.sessions → exec (.heartbeat r) s = .next (spdmAnswered s r 0x68 []) ∧
        ∃ t : State, exec (.endSession r) s = .next t ∧ r.session ∉ t.up.sec.spdm.sessions ∧ t.out = s.out ++ [.spdm 0x6C []]) ∧
      (r.session ∉ s.up.sec.spdm.sessions → exec (.heartbeat r) s = .next (spdmAnswered s r 0x7F (natLe 1 0x04)) ∧ exec (.endSession r) s = .next (spdmAnswered s r 0x7F (natLe 1 0x04))))

/-- A collector's oldest record that merges with none joins the control die's queue with the next SEQ; the control die's oldest goes to the next place of the log and, with the ring on, to the ring with vector 48. EVR_CFG takes a LOG of 6 to 16 while EN is 0, and setting EN restarts the counts. An abort ends every program, stops every queue, clears the row counters, sets ABORTED, ends the step and keeps STEP, the job state and memory. A restore begins in OWNED, or in ARMED while no step runs, and a remap in OWNED; else both are refused and nothing else changes. A restore zeroes the local stores and the software regions of the commons as it begins. One retired parcel is moved to the spare of its row with its memory zero; without a spare the restore or remap fails there, before anything is read. A restore from a sound image takes its step and plan, clears ABORTED and, where the digest of region 0 or 1 fails, every mark; a source, a manifest and another region that fail are reported with their causes. A remap then ends with nothing more changed. That the source's bytes come with the command RESTORED, and what an abort drops, are assumption logs 16, 35 and 46. (R14, R22, R303, R304, R416, R418, R420, R438, R439, R440) -/
def Obligations.RecordsAndRestores : Prop :=
  ∀ (s : State),
    (∀ x r rest, (s.fab x).collector = r :: rest → (s.fab x).lost = 0 → s.errs.cdQueue.length < 256 → (∀ y ∈ s.errs.cdQueue, y.sameAs r = false) →
      ∃ t : State, exec (.errorRecordForward (.tract x)) s = .next t ∧ (t.fab x).collector = rest ∧ t.mem = s.mem ∧
        t.errs.cdQueue = s.errs.cdQueue ++ [{ r with seq := s.errs.nextSeq % 2 ^ 32 }] ∧ t.errs.nextSeq = s.errs.nextSeq + 1) ∧
    (∀ r rest d, s.errs.cdQueue = r :: rest → s.errs.cdLost = 0 → (s.ringOn = true → s.ringFull = false) →
      ∃ t : State, exec (.errorRecordForward .controlDie) s = .next t ∧ t.errs.cdQueue = rest ∧ t.errs.logged = s.errs.logged + 1 ∧
        t.errs.log.get (s.errs.logged % 4096) d = r ∧ t.mem = s.mem ∧ (s.ringOn = false → t.out = s.out) ∧
        (s.ringOn = true → t.out = s.out ++ [.hostWrite (s.reg (modReg .evrBase) + 64 * (s.errs.ringCount % s.ringSlots)) r.bytes, .msix 48])) ∧
    (s.job.state.trains = true → s.regBits (modReg .evrCfg) 5 5 = 0 → ∀ v : Word,
      (6 ≤ bitsOf v.toNat 4 0 ∧ bitsOf v.toNat 4 0 ≤ 16 → ∃ t : State, exec (.evrCfgWrite v) s = .next t ∧
        t.regBits (modReg .evrCfg) 5 0 = bitsOf v.toNat 5 0 ∧ t.mem = s.mem ∧
        (bitOf v.toNat 5 = true → t.errs.ringCount = 0 ∧ t.reg (modReg .evrHead) = 0)) ∧
      (bitsOf v.toNat 4 0 < 6 ∨ 16 < bitsOf v.toNat 4 0 → ∃ t : State, exec (.evrCfgWrite v) s = .next t ∧
        t.regBits (modReg .evrCfg) 5 0 = s.regBits (modReg .evrCfg) 5 0 ∧ t.mem = s.mem)) ∧
    (s.errs.abort = none → exec .stepAbort s = .next s) ∧
    (s.errs.abort ≠ none → ∃ t : State, exec .stepAbort s = .next t ∧ t.errs.running = false ∧ t.errs.abort = none ∧ t.mem = s.mem ∧
      t.job = { s.job with aborts := s.job.aborts + 1 } ∧ t.regBits (modReg .errStat) 1 1 = 1 ∧ (∀ c, (t.core c).run ≠ .running) ∧
      (∀ q, (t.queue q).stopped = true ∧ (t.queue q).entries = []) ∧ ∀ x, t.reg (tractReg .clSend x) = 0 ∧ t.reg (tractReg .clRecv x) = 0) ∧
    (s.job.state.trains = true →
      (s.up.restore = .idle → s.job.state = .owned ∨ (s.job.state = .armed ∧ s.errs.running = false) → s.retiredParcels = [] →
        ∃ t : State, exec .restore s = .next t ∧ t.up.restore = .restore ∧ t.snapState = 2 ∧ t.job = s.job ∧ (∀ c, (t.core c).run ≠ .running) ∧
          ∀ a, byteAt t.mem.bytes a = if s.softwareByte a then 0 else byteAt s.mem.bytes a) ∧
      (s.up.restore ≠ .idle ∨ (s.job.state ≠ .owned ∧ s.job.state ≠ .armed) ∨ (s.job.state = .armed ∧ s.errs.running = true) →
        ∃ t : State, exec .restore s = .next t ∧ t.up = s.up ∧ t.mem = s.mem ∧ t.job = s.job ∧ t.cores = s.cores ∧ t.queues = s.queues) ∧
      (s.up.restore = .idle → s.job.state = .owned → s.retiredParcels = [] →
        ∃ t : State, exec .remap s = .next t ∧ t.up.restore = .remap ∧ t.snapState = 2 ∧ t.mem = s.mem ∧ t.job = s.job) ∧
      (∀ p, s.up.restore = .idle → s.job.state = .owned → s.retiredParcels = [p] →
        (s.spareFree p = true → s.mem.wf = true → ∃ t : State, exec .remap s = .next t ∧ t.up.restore = .remap ∧ t.snapState = 2 ∧ t.job = s.job ∧
          (t.parcel p).health.retired = false ∧ (t.parcel p).health.spare = true ∧
          (∀ p', p' ≠ p → (t.parcel p').health.retired = (s.parcel p').health.retired ∧ (t.parcel p').health.spare = (s.parcel p').health.spare) ∧
          ∀ a, byteAt t.mem.bytes a = if keyParcel a = some p then 0 else byteAt s.mem.bytes a) ∧
        (s.spareFree p = false → ∀ c ∈ [Instr.restore, .remap], ∃ t : State, exec c s = .next t ∧ t.up.restore = .idle ∧ t.snapState = 3 ∧
          t.regBits (modReg .snapStat) 5 2 = 5 ∧ t.mem = s.mem ∧ t.job = s.job)) ∧
      (s.up.restore ≠ .idle ∨ s.job.state ≠ .owned → ∃ t : State, exec .remap s = .next t ∧ t.up = s.up ∧ t.mem = s.mem ∧ t.job = s.job ∧ t.cores = s.cores)) ∧
    (s.up.restore = .restore →
      (∃ t : State, exec (.restored .sourceFailed) s = .next t ∧ t.up.restore = .idle ∧ t.snapState = 3 ∧
        t.regBits (modReg .snapStat) 5 2 = 4 ∧ t.job = s.job ∧ t.mem = s.mem) ∧
      (∀ manifest regions m, m = manifest.take (manifestSize (fieldAt manifest 20 4)) →
        (s.manifestOk m = false → ∃ t : State, exec (.restored (.image manifest regions)) s = .next t ∧ t.up.restore = .idle ∧ t.snapState = 3 ∧
          t.regBits (modReg .snapStat) 5 2 = 2 ∧ t.job = s.job ∧ t.mem = s.mem) ∧
        (s.manifestOk m = true → ∀ body cause k, readRegions m (fieldAt manifest 20 4) 0 regions = (body, cause, k) →
          (cause ≠ 0 → ∃ t : State, exec (.restored (.image manifest regions)) s = .next t ∧ t.up.restore = .idle ∧ t.snapState = 3 ∧
            t.regBits (modReg .snapStat) 5 2 = cause % 16 ∧ t.job = s.job ∧ t.plan = s.plan) ∧
          (cause = 0 → s.job.state = .owned → ∃ t : State, exec (.restored (.image manifest regions)) s = .next t ∧ t.up.restore = .idle ∧
            t.snapState = 0 ∧ t.job = { s.job with step := BitVec.ofNat 64 (fieldAt manifest 24 8) } ∧ t.regBits (modReg .errStat) 1 1 = 0 ∧
            t.plan.inForce.map (fun p => p.bytes) = some (body.take ({ bytes := body, tables := [] } : PlanImage).length) ∧
            (marksSound m regions = false → t.regBits (modReg .markMstat) 0 0 = 1 ∧ ∀ p n, t.markWord p n = 0))))) ∧
    (s.up.restore = .remap → ∃ t : State, exec (.restored .remapDone) s = .next t ∧ t.up.restore = .idle ∧ t.snapState = 0 ∧ t.mem = s.mem ∧ t.job = s.job ∧
      t.parcels = s.parcels) ∧
    (s.up.restore = .idle → ∀ r, exec (.restored r) s = .next s)

/-- IDCODE, SAMPLE/PRELOAD and BYPASS are always accepted; EXTEST, CLAMP and HIGHZ only while RESET_N is low; a private instruction, 0x80 to 0xFE, only while DBGLVL bit 1 is 1. An instruction loaded outside its condition, and a code that the table does not list, acts as BYPASS. Nothing but the port changes. (R471) -/
def Obligations.TestAccessInstructions : Prop :=
  ∀ (s : State),
    (∀ q ∈ [(Instr.idcode, TapInstr.idcode), (.samplePreload, .samplePreload), (.bypass, .bypass)],
      ∃ t : State, exec q.1 s = .next t ∧ t.up.tap = q.2 ∧ PortOnly s t) ∧
    (∀ q ∈ [(Instr.extest, TapInstr.extest), (.clamp, .clamp), (.highz, .highz)],
      ∃ t : State, exec q.1 s = .next t ∧ t.up.tap = (if s.up.boot.pinLow = true then q.2 else .bypass) ∧ (s.up.boot.pinLow = false → t.up.tapDr = 0) ∧ PortOnly s t) ∧
    (∀ code : BitVec 8, ∃ t : State, exec (.privateInstruction code) s = .next t ∧ PortOnly s t ∧ (t.up.tap = .bypass → t.up.tapDr = 0) ∧
      (0x80 ≤ code.toNat → code.toNat ≤ 0xFE → s.regBits secStat 17 17 = 1 → t.up.tap = .private_ code) ∧
      (0x80 ≤ code.toNat → code.toNat ≤ 0xFE → s.regBits secStat 17 17 = 0 → t.up.tap = .bypass) ∧
      (code.toNat = 0 ∨ (0x05 < code.toNat ∧ code.toNat < 0x80) → t.up.tap = .bypass))

/-- While RWL fields are locked, a write is judged field by field: a locked field keeps its value, and the other fields take what their access codes give; where the value written into some locked field differs from the field's value a REG_LOCKED record is emitted, and where none differs no record is. The rule of the register is then applied to the value that results: it stands, or the write is discarded with a REG_BAD_VALUE record. REGISTER_WRITE of a queue's Q_CFG, and of OPT_CTL, STEP_CFG, FAB_CTL, PWR_CTL and REL_CTL, is that write. (R474) -/
def Obligations.LockedFieldsKeepTheirValue : Prop :=
  ∀ (s : State), s.rwlLocked = true →
    (∀ (k : RegKey) (v size : Nat) (check : Nat → Bool), ∃ (r : Nat) (u : State),
      (∀ f ∈ k.r.row.fields, bitsOf r f.hi f.lo = lockedField f v (s.reg k)) ∧
      ((∃ f ∈ k.r.row.fields, f.acc = .rwl ∧ bitsOf v f.hi f.lo ≠ s.regBits k f.hi f.lo) → ∃ d, d.cls = .regLocked ∧ u = s.emit d) ∧
      ((∀ f ∈ k.r.row.fields, f.acc = .rwl → bitsOf v f.hi f.lo = s.regBits k f.hi f.lo) → u = s) ∧
      (check r = true → s.regWrite k v size check = u.setReg k r) ∧
      (check r = false → ∃ d, d.cls = .regBadValue ∧ s.regWrite k v size check = u.emit d)) ∧
    (s.job.state.trains = true → ∀ v : Word,
      (∀ q : QueueId, s.tractServed q.tract.val = true →
        exec (.registerWrite { offset := s.regPlace (queueReg .qCfg q), size := 4, value := v.toNat }) s =
          .next (s.regWrite (queueReg .qCfg q) v.toNat 4 qCfgOk)) ∧
      (∀ n ∈ plainRegs, ∀ x, x < 2 ^ n.row.width → exec (.registerWrite { offset := s.regPlace (modReg n), size := n.row.width / 8, value := x }) s =
        .next (s.regWrite (modReg n) x (n.row.width / 8) (s.regOk (modReg n)))))

/-- While RWL fields are not locked, a REGISTER_WRITE of OPT_CTL, STEP_CFG, FAB_CTL, PWR_CTL or REL_CTL, or of a queue's Q_CFG, that the rule of the register admits leaves in every field the bits written and changes nothing else; one that the rule refuses changes the register not at all and is recorded. A write of 4 bytes to the token buffer leaves its bytes there. (R3, R4, R5, R7, R370, R382, R444, R453) -/
def Obligations.RegisterWritesTakeEffect : Prop :=
  ∀ (s : State), s.rwlLocked = false → s.job.state.trains = true →
    (∀ n ∈ plainRegs, ∀ x, x < 2 ^ n.row.width →
      (s.regOk (modReg n) x = true →
        ∃ t : State, exec (.registerWrite { offset := s.regPlace (modReg n), size := n.row.width / 8, value := x }) s = .next t ∧
          t = { s with regs := t.regs } ∧ (∀ f ∈ n.row.fields, t.regBits (modReg n) f.hi f.lo = bitsOf x f.hi f.lo) ∧
          ∀ k, k ≠ modReg n → t.reg k = s.reg k) ∧
      (s.regOk (modReg n) x = false →
        exec (.registerWrite { offset := s.regPlace (modReg n), size := n.row.width / 8, value := x }) s =
          .next (s.badValue (modReg n) x (n.row.width / 8)))) ∧
    (∀ (q : QueueId) (v : Word), s.tractServed q.tract.val = true →
      (qCfgOk v.toNat = true →
        ∃ t : State, exec (.registerWrite { offset := s.regPlace (queueReg .qCfg q), size := 4, value := v.toNat }) s = .next t ∧
          t = { s with regs := t.regs } ∧ t.regBits (queueReg .qCfg q) 10 0 = bitsOf v.toNat 10 0 ∧ ∀ k, k ≠ queueReg .qCfg q → t.reg k = s.reg k) ∧
      (qCfgOk v.toNat = false →
        exec (.registerWrite { offset := s.regPlace (queueReg .qCfg q), size := 4, value := v.toNat }) s =
          .next (s.badValue (queueReg .qCfg q) v.toNat 4))) ∧
    (∀ (o : Nat) (v : Word), o % 4 = 0 → o < 0x1000 → s.up.sec.token.Pairwise (fun a b => a.1 < b.1) →
      ∃ t : State, exec (.registerWrite { offset := 0x14_0000 + o, size := 4, value := v.toNat }) s = .next t ∧ t.mem = s.mem ∧ t.regs = s.regs ∧
        ∀ a, byteAt t.up.sec.token a = if o ≤ a ∧ a < o + 4 then (natLe 4 v.toNat).getD (a - o) 0 else byteAt s.up.sec.token a)

/-- After power-on the module is in RESET with no job, its RWL fields unlocked, no command waiting, memory in its canonical form, the error log empty, every core halted, and the registers at the values the spec gives: among them RST_CAUSE with POR and COUNT 0, PHASE 0, OSCWAIT 7, DRAM_THERM with TMAX 105 and the shortest interval, CM_LAYOUT 2, 8 and 8, ENG_MWDOG 10,000,000, PLOT_WDOG 1,000,000, EASE_CFG 20, PLOT_PWR with SMAX 38, Q_CFG 6 and 6, and every parcel at step 32 with CAP 38. OSCWAIT 7, before a strap has been sampled, is the model's choice (assumption log 76). (R137, R299, R381, R390, R418, R448) -/
def Obligations.ResetState : Prop :=
  State.reset.mem.wf = true ∧ State.reset.pending = [] ∧ State.reset.job.state = .reset ∧ State.reset.job.locked = false ∧
  State.reset.job.step = 0 ∧ State.reset.aoTime = 0 ∧ State.reset.mtime = 0 ∧ State.reset.errs.log = [] ∧ State.reset.errs.nextSeq = 0 ∧
  (∀ k : RegKey, State.reset.reg k = k.r.resetValue) ∧ State.reset.regBits (modReg .rstCause) 4 0 = 1 ∧ State.reset.regBits (modReg .rstCause) 15 8 = 0 ∧
  State.reset.phase = 0 ∧ State.reset.regBits (modReg .clkStat) 2 0 = 7 ∧
  (∀ x : Tract, State.reset.regBits (dramTherm x) 7 0 = 105 ∧ State.reset.regBits (dramTherm x) 9 8 = 2 ∧
    State.reset.regBits (tractReg .cmLayout x) 3 0 = 2 ∧ State.reset.regBits (tractReg .cmLayout x) 9 4 = 8 ∧
    State.reset.regBits (tractReg .cmLayout x) 15 10 = 8 ∧ State.reset.reg (tractReg .engMwdog x) = 10000000 ∧ State.reset.reg (tractReg .easeCfg x) = 20 ∧
    ∀ n : Fin 256, State.reset.reg (tractRegI .plotWdog x n.val) = 1000000 ∧ State.reset.regBits (tractRegI .plotPwr x n.val) 8 3 = 38) ∧
  (∀ q : QueueId, State.reset.regBits (queueReg .qCfg q) 4 0 = 6 ∧ State.reset.regBits (queueReg .qCfg q) 9 5 = 6 ∧
    State.reset.queue q = QueueState.reset) ∧
  (∀ p : ParcelId, (State.reset.parcel p).health.step = 32 ∧ (State.reset.parcel p).health.cap = 38 ∧ (State.reset.parcel p).tiles = []) ∧
  (∀ c : CoreId, (State.reset.core c).run = .halted)

/-- From any state whose memory is canonical (addresses strictly rising, no byte listed that reads as an unlisted one, each list of check units strictly rising), a step of any command, or of none, answers a state whose memory is canonical: equal memories stay equal data. The form is the model's own (assumption log 9); the reset state has it (ResetState). (R2, R149, R148) -/
def Obligations.StepKeepsMemoryCanonical : Prop :=
  ∀ (s t : State), s.mem.wf = true → step s = .next t → t.mem.wf = true
end

