-- ==== Sys2Proof/Laws/State.lean ====
section
/-!
SUPPORT. What each small update of the state does to each field: one lemma per field per update, true by definition, so that no later proof
unfolds a record update; and the laws of the maps that hold the state's parts.
-/
namespace Sys2Proof.Machine

theorem AMap.get_put_same {κ υ : Type} [DecidableEq κ] (m : AMap κ υ) (k : κ) (v d : υ) : (m.put k v).get k d = v := by
  induction m with
  | nil => simp [AMap.put, AMap.get]
  | cons q m ih =>
    obtain ⟨k', v'⟩ := q
    by_cases h : k' = k <;> simp [AMap.put, AMap.get, h, ih]

theorem AMap.get_put_ne {κ υ : Type} [DecidableEq κ] (m : AMap κ υ) (k k' : κ) (v d : υ) (h : k' ≠ k) :
    (m.put k v).get k' d = m.get k' d := by
  induction m with
  | nil => simp [AMap.put, AMap.get, Ne.symm h]
  | cons q m ih =>
    obtain ⟨k1, v1⟩ := q
    by_cases h1 : k1 = k
    · subst h1; simp [AMap.put, AMap.get, Ne.symm h]
    · by_cases h2 : k1 = k'
      · subst h2; simp [AMap.put, AMap.get, h1]
      · simp [AMap.put, AMap.get, h1, h2, ih]

theorem AMap.get_put {κ υ : Type} [DecidableEq κ] (m : AMap κ υ) (k k' : κ) (v d : υ) :
    (m.put k v).get k' d = if k' = k then v else m.get k' d := by
  by_cases h : k' = k
  · subst h; simp [AMap.get_put_same]
  · simp [AMap.get_put_ne, h]

@[simp] theorem State.core_setCore (s : State) (c c' : CoreId) (v : Core) :
    (s.setCore c v).core c' = if c' = c then v else s.core c' := AMap.get_put _ _ _ _ _
@[simp] theorem State.core_modCore (s : State) (c c' : CoreId) (f : Core → Core) :
    (s.modCore c f).core c' = if c' = c then f (s.core c) else s.core c' := AMap.get_put _ _ _ _ _
@[simp] theorem State.parcel_setParcel (s : State) (p p' : ParcelId) (v : Parcel) :
    (s.setParcel p v).parcel p' = if p' = p then v else s.parcel p' := AMap.get_put _ _ _ _ _
@[simp] theorem State.parcel_modParcel (s : State) (p p' : ParcelId) (f : Parcel → Parcel) :
    (s.modParcel p f).parcel p' = if p' = p then f (s.parcel p) else s.parcel p' := AMap.get_put _ _ _ _ _
@[simp] theorem State.fab_modFab (s : State) (t t' : Tract) (f : TractFab → TractFab) :
    (s.modFab t f).fab t' = if t' = t then f (s.fab t) else s.fab t' := AMap.get_put _ _ _ _ _
@[simp] theorem State.reg_setReg (s : State) (k k' : RegKey) (v : Nat) :
    (s.setReg k v).reg k' = if k' = k then v else s.reg k' := by
  unfold State.reg State.setReg
  rw [AMap.get_put]
@[simp] theorem State.reg_setRegBits (s : State) (k k' : RegKey) (hi lo v : Nat) :
    (s.setRegBits k hi lo v).reg k' = if k' = k then setBits (s.reg k) hi lo v else s.reg k' := State.reg_setReg ..

/-! setCore -/
@[simp] theorem State.setCore_pending (s : State) (c : CoreId) (v : Core) : (s.setCore c v).pending = s.pending := rfl
@[simp] theorem State.setCore_free (s : State) (c : CoreId) (v : Core) : (s.setCore c v).free = s.free := rfl
@[simp] theorem State.setCore_ticks (s : State) (c : CoreId) (v : Core) : (s.setCore c v).ticks = s.ticks := rfl
@[simp] theorem State.setCore_aoTime (s : State) (c : CoreId) (v : Core) : (s.setCore c v).aoTime = s.aoTime := rfl
@[simp] theorem State.setCore_mtime (s : State) (c : CoreId) (v : Core) : (s.setCore c v).mtime = s.mtime := rfl
@[simp] theorem State.setCore_mem (s : State) (c : CoreId) (v : Core) : (s.setCore c v).mem = s.mem := rfl
@[simp] theorem State.setCore_cores (s : State) (c : CoreId) (v : Core) : (s.setCore c v).cores = s.cores.put c v := rfl
@[simp] theorem State.setCore_parcels (s : State) (c : CoreId) (v : Core) : (s.setCore c v).parcels = s.parcels := rfl
@[simp] theorem State.setCore_fabs (s : State) (c : CoreId) (v : Core) : (s.setCore c v).fabs = s.fabs := rfl
@[simp] theorem State.setCore_fabric (s : State) (c : CoreId) (v : Core) : (s.setCore c v).fabric = s.fabric := rfl
@[simp] theorem State.setCore_engWaits (s : State) (c : CoreId) (v : Core) : (s.setCore c v).engWaits = s.engWaits := rfl
@[simp] theorem State.setCore_queues (s : State) (c : CoreId) (v : Core) : (s.setCore c v).queues = s.queues := rfl
@[simp] theorem State.setCore_seqrs (s : State) (c : CoreId) (v : Core) : (s.setCore c v).seqrs = s.seqrs := rfl
@[simp] theorem State.setCore_host (s : State) (c : CoreId) (v : Core) : (s.setCore c v).host = s.host := rfl
@[simp] theorem State.setCore_regs (s : State) (c : CoreId) (v : Core) : (s.setCore c v).regs = s.regs := rfl
@[simp] theorem State.setCore_job (s : State) (c : CoreId) (v : Core) : (s.setCore c v).job = s.job := rfl
@[simp] theorem State.setCore_errs (s : State) (c : CoreId) (v : Core) : (s.setCore c v).errs = s.errs := rfl
@[simp] theorem State.setCore_plan (s : State) (c : CoreId) (v : Core) : (s.setCore c v).plan = s.plan := rfl
@[simp] theorem State.setCore_xfer (s : State) (c : CoreId) (v : Core) : (s.setCore c v).xfer = s.xfer := rfl
@[simp] theorem State.setCore_links (s : State) (c : CoreId) (v : Core) : (s.setCore c v).links = s.links := rfl
@[simp] theorem State.setCore_relayed (s : State) (c : CoreId) (v : Core) : (s.setCore c v).relayed = s.relayed := rfl
@[simp] theorem State.setCore_meridian (s : State) (c : CoreId) (v : Core) : (s.setCore c v).meridian = s.meridian := rfl
@[simp] theorem State.setCore_up (s : State) (c : CoreId) (v : Core) : (s.setCore c v).up = s.up := rfl
@[simp] theorem State.setCore_out (s : State) (c : CoreId) (v : Core) : (s.setCore c v).out = s.out := rfl

/-! modCore -/
@[simp] theorem State.modCore_pending (s : State) (c : CoreId) (f : Core → Core) : (s.modCore c f).pending = s.pending := rfl
@[simp] theorem State.modCore_free (s : State) (c : CoreId) (f : Core → Core) : (s.modCore c f).free = s.free := rfl
@[simp] theorem State.modCore_ticks (s : State) (c : CoreId) (f : Core → Core) : (s.modCore c f).ticks = s.ticks := rfl
@[simp] theorem State.modCore_aoTime (s : State) (c : CoreId) (f : Core → Core) : (s.modCore c f).aoTime = s.aoTime := rfl
@[simp] theorem State.modCore_mtime (s : State) (c : CoreId) (f : Core → Core) : (s.modCore c f).mtime = s.mtime := rfl
@[simp] theorem State.modCore_mem (s : State) (c : CoreId) (f : Core → Core) : (s.modCore c f).mem = s.mem := rfl
@[simp] theorem State.modCore_cores (s : State) (c : CoreId) (f : Core → Core) : (s.modCore c f).cores = s.cores.put c (f (s.core c)) := rfl
@[simp] theorem State.modCore_parcels (s : State) (c : CoreId) (f : Core → Core) : (s.modCore c f).parcels = s.parcels := rfl
@[simp] theorem State.modCore_fabs (s : State) (c : CoreId) (f : Core → Core) : (s.modCore c f).fabs = s.fabs := rfl
@[simp] theorem State.modCore_fabric (s : State) (c : CoreId) (f : Core → Core) : (s.modCore c f).fabric = s.fabric := rfl
@[simp] theorem State.modCore_engWaits (s : State) (c : CoreId) (f : Core → Core) : (s.modCore c f).engWaits = s.engWaits := rfl
@[simp] theorem State.modCore_queues (s : State) (c : CoreId) (f : Core → Core) : (s.modCore c f).queues = s.queues := rfl
@[simp] theorem State.modCore_seqrs (s : State) (c : CoreId) (f : Core → Core) : (s.modCore c f).seqrs = s.seqrs := rfl
@[simp] theorem State.modCore_host (s : State) (c : CoreId) (f : Core → Core) : (s.modCore c f).host = s.host := rfl
@[simp] theorem State.modCore_regs (s : State) (c : CoreId) (f : Core → Core) : (s.modCore c f).regs = s.regs := rfl
@[simp] theorem State.modCore_job (s : State) (c : CoreId) (f : Core → Core) : (s.modCore c f).job = s.job := rfl
@[simp] theorem State.modCore_errs (s : State) (c : CoreId) (f : Core → Core) : (s.modCore c f).errs = s.errs := rfl
@[simp] theorem State.modCore_plan (s : State) (c : CoreId) (f : Core → Core) : (s.modCore c f).plan = s.plan := rfl
@[simp] theorem State.modCore_xfer (s : State) (c : CoreId) (f : Core → Core) : (s.modCore c f).xfer = s.xfer := rfl
@[simp] theorem State.modCore_links (s : State) (c : CoreId) (f : Core → Core) : (s.modCore c f).links = s.links := rfl
@[simp] theorem State.modCore_relayed (s : State) (c : CoreId) (f : Core → Core) : (s.modCore c f).relayed = s.relayed := rfl
@[simp] theorem State.modCore_meridian (s : State) (c : CoreId) (f : Core → Core) : (s.modCore c f).meridian = s.meridian := rfl
@[simp] theorem State.modCore_up (s : State) (c : CoreId) (f : Core → Core) : (s.modCore c f).up = s.up := rfl
@[simp] theorem State.modCore_out (s : State) (c : CoreId) (f : Core → Core) : (s.modCore c f).out = s.out := rfl

/-! setParcel -/
@[simp] theorem State.setParcel_pending (s : State) (p : ParcelId) (v : Parcel) : (s.setParcel p v).pending = s.pending := rfl
@[simp] theorem State.setParcel_free (s : State) (p : ParcelId) (v : Parcel) : (s.setParcel p v).free = s.free := rfl
@[simp] theorem State.setParcel_ticks (s : State) (p : ParcelId) (v : Parcel) : (s.setParcel p v).ticks = s.ticks := rfl
@[simp] theorem State.setParcel_aoTime (s : State) (p : ParcelId) (v : Parcel) : (s.setParcel p v).aoTime = s.aoTime := rfl
@[simp] theorem State.setParcel_mtime (s : State) (p : ParcelId) (v : Parcel) : (s.setParcel p v).mtime = s.mtime := rfl
@[simp] theorem State.setParcel_mem (s : State) (p : ParcelId) (v : Parcel) : (s.setParcel p v).mem = s.mem := rfl
@[simp] theorem State.setParcel_cores (s : State) (p : ParcelId) (v : Parcel) : (s.setParcel p v).cores = s.cores := rfl
@[simp] theorem State.setParcel_parcels (s : State) (p : ParcelId) (v : Parcel) : (s.setParcel p v).parcels = s.parcels.put p v := rfl
@[simp] theorem State.setParcel_fabs (s : State) (p : ParcelId) (v : Parcel) : (s.setParcel p v).fabs = s.fabs := rfl
@[simp] theorem State.setParcel_fabric (s : State) (p : ParcelId) (v : Parcel) : (s.setParcel p v).fabric = s.fabric := rfl
@[simp] theorem State.setParcel_engWaits (s : State) (p : ParcelId) (v : Parcel) : (s.setParcel p v).engWaits = s.engWaits := rfl
@[simp] theorem State.setParcel_queues (s : State) (p : ParcelId) (v : Parcel) : (s.setParcel p v).queues = s.queues := rfl
@[simp] theorem State.setParcel_seqrs (s : State) (p : ParcelId) (v : Parcel) : (s.setParcel p v).seqrs = s.seqrs := rfl
@[simp] theorem State.setParcel_host (s : State) (p : ParcelId) (v : Parcel) : (s.setParcel p v).host = s.host := rfl
@[simp] theorem State.setParcel_regs (s : State) (p : ParcelId) (v : Parcel) : (s.setParcel p v).regs = s.regs := rfl
@[simp] theorem State.setParcel_job (s : State) (p : ParcelId) (v : Parcel) : (s.setParcel p v).job = s.job := rfl
@[simp] theorem State.setParcel_errs (s : State) (p : ParcelId) (v : Parcel) : (s.setParcel p v).errs = s.errs := rfl
@[simp] theorem State.setParcel_plan (s : State) (p : ParcelId) (v : Parcel) : (s.setParcel p v).plan = s.plan := rfl
@[simp] theorem State.setParcel_xfer (s : State) (p : ParcelId) (v : Parcel) : (s.setParcel p v).xfer = s.xfer := rfl
@[simp] theorem State.setParcel_links (s : State) (p : ParcelId) (v : Parcel) : (s.setParcel p v).links = s.links := rfl
@[simp] theorem State.setParcel_relayed (s : State) (p : ParcelId) (v : Parcel) : (s.setParcel p v).relayed = s.relayed := rfl
@[simp] theorem State.setParcel_meridian (s : State) (p : ParcelId) (v : Parcel) : (s.setParcel p v).meridian = s.meridian := rfl
@[simp] theorem State.setParcel_up (s : State) (p : ParcelId) (v : Parcel) : (s.setParcel p v).up = s.up := rfl
@[simp] theorem State.setParcel_out (s : State) (p : ParcelId) (v : Parcel) : (s.setParcel p v).out = s.out := rfl

/-! modParcel -/
@[simp] theorem State.modParcel_pending (s : State) (p : ParcelId) (f : Parcel → Parcel) : (s.modParcel p f).pending = s.pending := rfl
@[simp] theorem State.modParcel_free (s : State) (p : ParcelId) (f : Parcel → Parcel) : (s.modParcel p f).free = s.free := rfl
@[simp] theorem State.modParcel_ticks (s : State) (p : ParcelId) (f : Parcel → Parcel) : (s.modParcel p f).ticks = s.ticks := rfl
@[simp] theorem State.modParcel_aoTime (s : State) (p : ParcelId) (f : Parcel → Parcel) : (s.modParcel p f).aoTime = s.aoTime := rfl
@[simp] theorem State.modParcel_mtime (s : State) (p : ParcelId) (f : Parcel → Parcel) : (s.modParcel p f).mtime = s.mtime := rfl
@[simp] theorem State.modParcel_mem (s : State) (p : ParcelId) (f : Parcel → Parcel) : (s.modParcel p f).mem = s.mem := rfl
@[simp] theorem State.modParcel_cores (s : State) (p : ParcelId) (f : Parcel → Parcel) : (s.modParcel p f).cores = s.cores := rfl
@[simp] theorem State.modParcel_parcels (s : State) (p : ParcelId) (f : Parcel → Parcel) : (s.modParcel p f).parcels = s.parcels.put p (f (s.parcel p)) := rfl
@[simp] theorem State.modParcel_fabs (s : State) (p : ParcelId) (f : Parcel → Parcel) : (s.modParcel p f).fabs = s.fabs := rfl
@[simp] theorem State.modParcel_fabric (s : State) (p : ParcelId) (f : Parcel → Parcel) : (s.modParcel p f).fabric = s.fabric := rfl
@[simp] theorem State.modParcel_engWaits (s : State) (p : ParcelId) (f : Parcel → Parcel) : (s.modParcel p f).engWaits = s.engWaits := rfl
@[simp] theorem State.modParcel_queues (s : State) (p : ParcelId) (f : Parcel → Parcel) : (s.modParcel p f).queues = s.queues := rfl
@[simp] theorem State.modParcel_seqrs (s : State) (p : ParcelId) (f : Parcel → Parcel) : (s.modParcel p f).seqrs = s.seqrs := rfl
@[simp] theorem State.modParcel_host (s : State) (p : ParcelId) (f : Parcel → Parcel) : (s.modParcel p f).host = s.host := rfl
@[simp] theorem State.modParcel_regs (s : State) (p : ParcelId) (f : Parcel → Parcel) : (s.modParcel p f).regs = s.regs := rfl
@[simp] theorem State.modParcel_job (s : State) (p : ParcelId) (f : Parcel → Parcel) : (s.modParcel p f).job = s.job := rfl
@[simp] theorem State.modParcel_errs (s : State) (p : ParcelId) (f : Parcel → Parcel) : (s.modParcel p f).errs = s.errs := rfl
@[simp] theorem State.modParcel_plan (s : State) (p : ParcelId) (f : Parcel → Parcel) : (s.modParcel p f).plan = s.plan := rfl
@[simp] theorem State.modParcel_xfer (s : State) (p : ParcelId) (f : Parcel → Parcel) : (s.modParcel p f).xfer = s.xfer := rfl
@[simp] theorem State.modParcel_links (s : State) (p : ParcelId) (f : Parcel → Parcel) : (s.modParcel p f).links = s.links := rfl
@[simp] theorem State.modParcel_relayed (s : State) (p : ParcelId) (f : Parcel → Parcel) : (s.modParcel p f).relayed = s.relayed := rfl
@[simp] theorem State.modParcel_meridian (s : State) (p : ParcelId) (f : Parcel → Parcel) : (s.modParcel p f).meridian = s.meridian := rfl
@[simp] theorem State.modParcel_up (s : State) (p : ParcelId) (f : Parcel → Parcel) : (s.modParcel p f).up = s.up := rfl
@[simp] theorem State.modParcel_out (s : State) (p : ParcelId) (f : Parcel → Parcel) : (s.modParcel p f).out = s.out := rfl

/-! modHealth -/
@[simp] theorem State.modHealth_pending (s : State) (p : ParcelId) (f : ParcelHealth → ParcelHealth) : (s.modHealth p f).pending = s.pending := rfl
@[simp] theorem State.modHealth_free (s : State) (p : ParcelId) (f : ParcelHealth → ParcelHealth) : (s.modHealth p f).free = s.free := rfl
@[simp] theorem State.modHealth_ticks (s : State) (p : ParcelId) (f : ParcelHealth → ParcelHealth) : (s.modHealth p f).ticks = s.ticks := rfl
@[simp] theorem State.modHealth_aoTime (s : State) (p : ParcelId) (f : ParcelHealth → ParcelHealth) : (s.modHealth p f).aoTime = s.aoTime := rfl
@[simp] theorem State.modHealth_mtime (s : State) (p : ParcelId) (f : ParcelHealth → ParcelHealth) : (s.modHealth p f).mtime = s.mtime := rfl
@[simp] theorem State.modHealth_mem (s : State) (p : ParcelId) (f : ParcelHealth → ParcelHealth) : (s.modHealth p f).mem = s.mem := rfl
@[simp] theorem State.modHealth_cores (s : State) (p : ParcelId) (f : ParcelHealth → ParcelHealth) : (s.modHealth p f).cores = s.cores := rfl
@[simp] theorem State.modHealth_parcels (s : State) (p : ParcelId) (f : ParcelHealth → ParcelHealth) : (s.modHealth p f).parcels = s.parcels.put p { s.parcel p with health := f (s.parcel p).health } := rfl
@[simp] theorem State.modHealth_fabs (s : State) (p : ParcelId) (f : ParcelHealth → ParcelHealth) : (s.modHealth p f).fabs = s.fabs := rfl
@[simp] theorem State.modHealth_fabric (s : State) (p : ParcelId) (f : ParcelHealth → ParcelHealth) : (s.modHealth p f).fabric = s.fabric := rfl
@[simp] theorem State.modHealth_engWaits (s : State) (p : ParcelId) (f : ParcelHealth → ParcelHealth) : (s.modHealth p f).engWaits = s.engWaits := rfl
@[simp] theorem State.modHealth_queues (s : State) (p : ParcelId) (f : ParcelHealth → ParcelHealth) : (s.modHealth p f).queues = s.queues := rfl
@[simp] theorem State.modHealth_seqrs (s : State) (p : ParcelId) (f : ParcelHealth → ParcelHealth) : (s.modHealth p f).seqrs = s.seqrs := rfl
@[simp] theorem State.modHealth_host (s : State) (p : ParcelId) (f : ParcelHealth → ParcelHealth) : (s.modHealth p f).host = s.host := rfl
@[simp] theorem State.modHealth_regs (s : State) (p : ParcelId) (f : ParcelHealth → ParcelHealth) : (s.modHealth p f).regs = s.regs := rfl
@[simp] theorem State.modHealth_job (s : State) (p : ParcelId) (f : ParcelHealth → ParcelHealth) : (s.modHealth p f).job = s.job := rfl
@[simp] theorem State.modHealth_errs (s : State) (p : ParcelId) (f : ParcelHealth → ParcelHealth) : (s.modHealth p f).errs = s.errs := rfl
@[simp] theorem State.modHealth_plan (s : State) (p : ParcelId) (f : ParcelHealth → ParcelHealth) : (s.modHealth p f).plan = s.plan := rfl
@[simp] theorem State.modHealth_xfer (s : State) (p : ParcelId) (f : ParcelHealth → ParcelHealth) : (s.modHealth p f).xfer = s.xfer := rfl
@[simp] theorem State.modHealth_links (s : State) (p : ParcelId) (f : ParcelHealth → ParcelHealth) : (s.modHealth p f).links = s.links := rfl
@[simp] theorem State.modHealth_relayed (s : State) (p : ParcelId) (f : ParcelHealth → ParcelHealth) : (s.modHealth p f).relayed = s.relayed := rfl
@[simp] theorem State.modHealth_meridian (s : State) (p : ParcelId) (f : ParcelHealth → ParcelHealth) : (s.modHealth p f).meridian = s.meridian := rfl
@[simp] theorem State.modHealth_up (s : State) (p : ParcelId) (f : ParcelHealth → ParcelHealth) : (s.modHealth p f).up = s.up := rfl
@[simp] theorem State.modHealth_out (s : State) (p : ParcelId) (f : ParcelHealth → ParcelHealth) : (s.modHealth p f).out = s.out := rfl

/-! setFab -/
@[simp] theorem State.setFab_pending (s : State) (t : Tract) (v : TractFab) : (s.setFab t v).pending = s.pending := rfl
@[simp] theorem State.setFab_free (s : State) (t : Tract) (v : TractFab) : (s.setFab t v).free = s.free := rfl
@[simp] theorem State.setFab_ticks (s : State) (t : Tract) (v : TractFab) : (s.setFab t v).ticks = s.ticks := rfl
@[simp] theorem State.setFab_aoTime (s : State) (t : Tract) (v : TractFab) : (s.setFab t v).aoTime = s.aoTime := rfl
@[simp] theorem State.setFab_mtime (s : State) (t : Tract) (v : TractFab) : (s.setFab t v).mtime = s.mtime := rfl
@[simp] theorem State.setFab_mem (s : State) (t : Tract) (v : TractFab) : (s.setFab t v).mem = s.mem := rfl
@[simp] theorem State.setFab_cores (s : State) (t : Tract) (v : TractFab) : (s.setFab t v).cores = s.cores := rfl
@[simp] theorem State.setFab_parcels (s : State) (t : Tract) (v : TractFab) : (s.setFab t v).parcels = s.parcels := rfl
@[simp] theorem State.setFab_fabs (s : State) (t : Tract) (v : TractFab) : (s.setFab t v).fabs = s.fabs.put t v := rfl
@[simp] theorem State.setFab_fabric (s : State) (t : Tract) (v : TractFab) : (s.setFab t v).fabric = s.fabric := rfl
@[simp] theorem State.setFab_engWaits (s : State) (t : Tract) (v : TractFab) : (s.setFab t v).engWaits = s.engWaits := rfl
@[simp] theorem State.setFab_queues (s : State) (t : Tract) (v : TractFab) : (s.setFab t v).queues = s.queues := rfl
@[simp] theorem State.setFab_seqrs (s : State) (t : Tract) (v : TractFab) : (s.setFab t v).seqrs = s.seqrs := rfl
@[simp] theorem State.setFab_host (s : State) (t : Tract) (v : TractFab) : (s.setFab t v).host = s.host := rfl
@[simp] theorem State.setFab_regs (s : State) (t : Tract) (v : TractFab) : (s.setFab t v).regs = s.regs := rfl
@[simp] theorem State.setFab_job (s : State) (t : Tract) (v : TractFab) : (s.setFab t v).job = s.job := rfl
@[simp] theorem State.setFab_errs (s : State) (t : Tract) (v : TractFab) : (s.setFab t v).errs = s.errs := rfl
@[simp] theorem State.setFab_plan (s : State) (t : Tract) (v : TractFab) : (s.setFab t v).plan = s.plan := rfl
@[simp] theorem State.setFab_xfer (s : State) (t : Tract) (v : TractFab) : (s.setFab t v).xfer = s.xfer := rfl
@[simp] theorem State.setFab_links (s : State) (t : Tract) (v : TractFab) : (s.setFab t v).links = s.links := rfl
@[simp] theorem State.setFab_relayed (s : State) (t : Tract) (v : TractFab) : (s.setFab t v).relayed = s.relayed := rfl
@[simp] theorem State.setFab_meridian (s : State) (t : Tract) (v : TractFab) : (s.setFab t v).meridian = s.meridian := rfl
@[simp] theorem State.setFab_up (s : State) (t : Tract) (v : TractFab) : (s.setFab t v).up = s.up := rfl
@[simp] theorem State.setFab_out (s : State) (t : Tract) (v : TractFab) : (s.setFab t v).out = s.out := rfl

/-! modFab -/
@[simp] theorem State.modFab_pending (s : State) (t : Tract) (f : TractFab → TractFab) : (s.modFab t f).pending = s.pending := rfl
@[simp] theorem State.modFab_free (s : State) (t : Tract) (f : TractFab → TractFab) : (s.modFab t f).free = s.free := rfl
@[simp] theorem State.modFab_ticks (s : State) (t : Tract) (f : TractFab → TractFab) : (s.modFab t f).ticks = s.ticks := rfl
@[simp] theorem State.modFab_aoTime (s : State) (t : Tract) (f : TractFab → TractFab) : (s.modFab t f).aoTime = s.aoTime := rfl
@[simp] theorem State.modFab_mtime (s : State) (t : Tract) (f : TractFab → TractFab) : (s.modFab t f).mtime = s.mtime := rfl
@[simp] theorem State.modFab_mem (s : State) (t : Tract) (f : TractFab → TractFab) : (s.modFab t f).mem = s.mem := rfl
@[simp] theorem State.modFab_cores (s : State) (t : Tract) (f : TractFab → TractFab) : (s.modFab t f).cores = s.cores := rfl
@[simp] theorem State.modFab_parcels (s : State) (t : Tract) (f : TractFab → TractFab) : (s.modFab t f).parcels = s.parcels := rfl
@[simp] theorem State.modFab_fabs (s : State) (t : Tract) (f : TractFab → TractFab) : (s.modFab t f).fabs = s.fabs.put t (f (s.fab t)) := rfl
@[simp] theorem State.modFab_fabric (s : State) (t : Tract) (f : TractFab → TractFab) : (s.modFab t f).fabric = s.fabric := rfl
@[simp] theorem State.modFab_engWaits (s : State) (t : Tract) (f : TractFab → TractFab) : (s.modFab t f).engWaits = s.engWaits := rfl
@[simp] theorem State.modFab_queues (s : State) (t : Tract) (f : TractFab → TractFab) : (s.modFab t f).queues = s.queues := rfl
@[simp] theorem State.modFab_seqrs (s : State) (t : Tract) (f : TractFab → TractFab) : (s.modFab t f).seqrs = s.seqrs := rfl
@[simp] theorem State.modFab_host (s : State) (t : Tract) (f : TractFab → TractFab) : (s.modFab t f).host = s.host := rfl
@[simp] theorem State.modFab_regs (s : State) (t : Tract) (f : TractFab → TractFab) : (s.modFab t f).regs = s.regs := rfl
@[simp] theorem State.modFab_job (s : State) (t : Tract) (f : TractFab → TractFab) : (s.modFab t f).job = s.job := rfl
@[simp] theorem State.modFab_errs (s : State) (t : Tract) (f : TractFab → TractFab) : (s.modFab t f).errs = s.errs := rfl
@[simp] theorem State.modFab_plan (s : State) (t : Tract) (f : TractFab → TractFab) : (s.modFab t f).plan = s.plan := rfl
@[simp] theorem State.modFab_xfer (s : State) (t : Tract) (f : TractFab → TractFab) : (s.modFab t f).xfer = s.xfer := rfl
@[simp] theorem State.modFab_links (s : State) (t : Tract) (f : TractFab → TractFab) : (s.modFab t f).links = s.links := rfl
@[simp] theorem State.modFab_relayed (s : State) (t : Tract) (f : TractFab → TractFab) : (s.modFab t f).relayed = s.relayed := rfl
@[simp] theorem State.modFab_meridian (s : State) (t : Tract) (f : TractFab → TractFab) : (s.modFab t f).meridian = s.meridian := rfl
@[simp] theorem State.modFab_up (s : State) (t : Tract) (f : TractFab → TractFab) : (s.modFab t f).up = s.up := rfl
@[simp] theorem State.modFab_out (s : State) (t : Tract) (f : TractFab → TractFab) : (s.modFab t f).out = s.out := rfl

/-! setReg -/
@[simp] theorem State.setReg_pending (s : State) (k : RegKey) (v : Nat) : (s.setReg k v).pending = s.pending := rfl
@[simp] theorem State.setReg_free (s : State) (k : RegKey) (v : Nat) : (s.setReg k v).free = s.free := rfl
@[simp] theorem State.setReg_ticks (s : State) (k : RegKey) (v : Nat) : (s.setReg k v).ticks = s.ticks := rfl
@[simp] theorem State.setReg_aoTime (s : State) (k : RegKey) (v : Nat) : (s.setReg k v).aoTime = s.aoTime := rfl
@[simp] theorem State.setReg_mtime (s : State) (k : RegKey) (v : Nat) : (s.setReg k v).mtime = s.mtime := rfl
@[simp] theorem State.setReg_mem (s : State) (k : RegKey) (v : Nat) : (s.setReg k v).mem = s.mem := rfl
@[simp] theorem State.setReg_cores (s : State) (k : RegKey) (v : Nat) : (s.setReg k v).cores = s.cores := rfl
@[simp] theorem State.setReg_parcels (s : State) (k : RegKey) (v : Nat) : (s.setReg k v).parcels = s.parcels := rfl
@[simp] theorem State.setReg_fabs (s : State) (k : RegKey) (v : Nat) : (s.setReg k v).fabs = s.fabs := rfl
@[simp] theorem State.setReg_fabric (s : State) (k : RegKey) (v : Nat) : (s.setReg k v).fabric = s.fabric := rfl
@[simp] theorem State.setReg_engWaits (s : State) (k : RegKey) (v : Nat) : (s.setReg k v).engWaits = s.engWaits := rfl
@[simp] theorem State.setReg_queues (s : State) (k : RegKey) (v : Nat) : (s.setReg k v).queues = s.queues := rfl
@[simp] theorem State.setReg_seqrs (s : State) (k : RegKey) (v : Nat) : (s.setReg k v).seqrs = s.seqrs := rfl
@[simp] theorem State.setReg_host (s : State) (k : RegKey) (v : Nat) : (s.setReg k v).host = s.host := rfl
@[simp] theorem State.setReg_regs (s : State) (k : RegKey) (v : Nat) : (s.setReg k v).regs = s.regs.put k v := rfl
@[simp] theorem State.setReg_job (s : State) (k : RegKey) (v : Nat) : (s.setReg k v).job = s.job := rfl
@[simp] theorem State.setReg_errs (s : State) (k : RegKey) (v : Nat) : (s.setReg k v).errs = s.errs := rfl
@[simp] theorem State.setReg_plan (s : State) (k : RegKey) (v : Nat) : (s.setReg k v).plan = s.plan := rfl
@[simp] theorem State.setReg_xfer (s : State) (k : RegKey) (v : Nat) : (s.setReg k v).xfer = s.xfer := rfl
@[simp] theorem State.setReg_links (s : State) (k : RegKey) (v : Nat) : (s.setReg k v).links = s.links := rfl
@[simp] theorem State.setReg_relayed (s : State) (k : RegKey) (v : Nat) : (s.setReg k v).relayed = s.relayed := rfl
@[simp] theorem State.setReg_meridian (s : State) (k : RegKey) (v : Nat) : (s.setReg k v).meridian = s.meridian := rfl
@[simp] theorem State.setReg_up (s : State) (k : RegKey) (v : Nat) : (s.setReg k v).up = s.up := rfl
@[simp] theorem State.setReg_out (s : State) (k : RegKey) (v : Nat) : (s.setReg k v).out = s.out := rfl

/-! setRegBits -/
@[simp] theorem State.setRegBits_pending (s : State) (k : RegKey) (hi lo v : Nat) : (s.setRegBits k hi lo v).pending = s.pending := rfl
@[simp] theorem State.setRegBits_free (s : State) (k : RegKey) (hi lo v : Nat) : (s.setRegBits k hi lo v).free = s.free := rfl
@[simp] theorem State.setRegBits_ticks (s : State) (k : RegKey) (hi lo v : Nat) : (s.setRegBits k hi lo v).ticks = s.ticks := rfl
@[simp] theorem State.setRegBits_aoTime (s : State) (k : RegKey) (hi lo v : Nat) : (s.setRegBits k hi lo v).aoTime = s.aoTime := rfl
@[simp] theorem State.setRegBits_mtime (s : State) (k : RegKey) (hi lo v : Nat) : (s.setRegBits k hi lo v).mtime = s.mtime := rfl
@[simp] theorem State.setRegBits_mem (s : State) (k : RegKey) (hi lo v : Nat) : (s.setRegBits k hi lo v).mem = s.mem := rfl
@[simp] theorem State.setRegBits_cores (s : State) (k : RegKey) (hi lo v : Nat) : (s.setRegBits k hi lo v).cores = s.cores := rfl
@[simp] theorem State.setRegBits_parcels (s : State) (k : RegKey) (hi lo v : Nat) : (s.setRegBits k hi lo v).parcels = s.parcels := rfl
@[simp] theorem State.setRegBits_fabs (s : State) (k : RegKey) (hi lo v : Nat) : (s.setRegBits k hi lo v).fabs = s.fabs := rfl
@[simp] theorem State.setRegBits_fabric (s : State) (k : RegKey) (hi lo v : Nat) : (s.setRegBits k hi lo v).fabric = s.fabric := rfl
@[simp] theorem State.setRegBits_engWaits (s : State) (k : RegKey) (hi lo v : Nat) : (s.setRegBits k hi lo v).engWaits = s.engWaits := rfl
@[simp] theorem State.setRegBits_queues (s : State) (k : RegKey) (hi lo v : Nat) : (s.setRegBits k hi lo v).queues = s.queues := rfl
@[simp] theorem State.setRegBits_seqrs (s : State) (k : RegKey) (hi lo v : Nat) : (s.setRegBits k hi lo v).seqrs = s.seqrs := rfl
@[simp] theorem State.setRegBits_host (s : State) (k : RegKey) (hi lo v : Nat) : (s.setRegBits k hi lo v).host = s.host := rfl
@[simp] theorem State.setRegBits_regs (s : State) (k : RegKey) (hi lo v : Nat) : (s.setRegBits k hi lo v).regs = s.regs.put k (setBits (s.reg k) hi lo v) := rfl
@[simp] theorem State.setRegBits_job (s : State) (k : RegKey) (hi lo v : Nat) : (s.setRegBits k hi lo v).job = s.job := rfl
@[simp] theorem State.setRegBits_errs (s : State) (k : RegKey) (hi lo v : Nat) : (s.setRegBits k hi lo v).errs = s.errs := rfl
@[simp] theorem State.setRegBits_plan (s : State) (k : RegKey) (hi lo v : Nat) : (s.setRegBits k hi lo v).plan = s.plan := rfl
@[simp] theorem State.setRegBits_xfer (s : State) (k : RegKey) (hi lo v : Nat) : (s.setRegBits k hi lo v).xfer = s.xfer := rfl
@[simp] theorem State.setRegBits_links (s : State) (k : RegKey) (hi lo v : Nat) : (s.setRegBits k hi lo v).links = s.links := rfl
@[simp] theorem State.setRegBits_relayed (s : State) (k : RegKey) (hi lo v : Nat) : (s.setRegBits k hi lo v).relayed = s.relayed := rfl
@[simp] theorem State.setRegBits_meridian (s : State) (k : RegKey) (hi lo v : Nat) : (s.setRegBits k hi lo v).meridian = s.meridian := rfl
@[simp] theorem State.setRegBits_up (s : State) (k : RegKey) (hi lo v : Nat) : (s.setRegBits k hi lo v).up = s.up := rfl
@[simp] theorem State.setRegBits_out (s : State) (k : RegKey) (hi lo v : Nat) : (s.setRegBits k hi lo v).out = s.out := rfl

/-! raise -/
@[simp] theorem State.raise_pending (s : State) (k : RegKey) (b : Nat) : (s.raise k b).pending = s.pending := rfl
@[simp] theorem State.raise_free (s : State) (k : RegKey) (b : Nat) : (s.raise k b).free = s.free := rfl
@[simp] theorem State.raise_ticks (s : State) (k : RegKey) (b : Nat) : (s.raise k b).ticks = s.ticks := rfl
@[simp] theorem State.raise_aoTime (s : State) (k : RegKey) (b : Nat) : (s.raise k b).aoTime = s.aoTime := rfl
@[simp] theorem State.raise_mtime (s : State) (k : RegKey) (b : Nat) : (s.raise k b).mtime = s.mtime := rfl
@[simp] theorem State.raise_mem (s : State) (k : RegKey) (b : Nat) : (s.raise k b).mem = s.mem := rfl
@[simp] theorem State.raise_cores (s : State) (k : RegKey) (b : Nat) : (s.raise k b).cores = s.cores := rfl
@[simp] theorem State.raise_parcels (s : State) (k : RegKey) (b : Nat) : (s.raise k b).parcels = s.parcels := rfl
@[simp] theorem State.raise_fabs (s : State) (k : RegKey) (b : Nat) : (s.raise k b).fabs = s.fabs := rfl
@[simp] theorem State.raise_fabric (s : State) (k : RegKey) (b : Nat) : (s.raise k b).fabric = s.fabric := rfl
@[simp] theorem State.raise_engWaits (s : State) (k : RegKey) (b : Nat) : (s.raise k b).engWaits = s.engWaits := rfl
@[simp] theorem State.raise_queues (s : State) (k : RegKey) (b : Nat) : (s.raise k b).queues = s.queues := rfl
@[simp] theorem State.raise_seqrs (s : State) (k : RegKey) (b : Nat) : (s.raise k b).seqrs = s.seqrs := rfl
@[simp] theorem State.raise_host (s : State) (k : RegKey) (b : Nat) : (s.raise k b).host = s.host := rfl
@[simp] theorem State.raise_regs (s : State) (k : RegKey) (b : Nat) : (s.raise k b).regs = s.regs.put k (setBits (s.reg k) b b 1) := rfl
@[simp] theorem State.raise_job (s : State) (k : RegKey) (b : Nat) : (s.raise k b).job = s.job := rfl
@[simp] theorem State.raise_errs (s : State) (k : RegKey) (b : Nat) : (s.raise k b).errs = s.errs := rfl
@[simp] theorem State.raise_plan (s : State) (k : RegKey) (b : Nat) : (s.raise k b).plan = s.plan := rfl
@[simp] theorem State.raise_xfer (s : State) (k : RegKey) (b : Nat) : (s.raise k b).xfer = s.xfer := rfl
@[simp] theorem State.raise_links (s : State) (k : RegKey) (b : Nat) : (s.raise k b).links = s.links := rfl
@[simp] theorem State.raise_relayed (s : State) (k : RegKey) (b : Nat) : (s.raise k b).relayed = s.relayed := rfl
@[simp] theorem State.raise_meridian (s : State) (k : RegKey) (b : Nat) : (s.raise k b).meridian = s.meridian := rfl
@[simp] theorem State.raise_up (s : State) (k : RegKey) (b : Nat) : (s.raise k b).up = s.up := rfl
@[simp] theorem State.raise_out (s : State) (k : RegKey) (b : Nat) : (s.raise k b).out = s.out := rfl

/-! bumpReg -/
@[simp] theorem State.bumpReg_pending (s : State) (k : RegKey) (hi lo n : Nat) : (s.bumpReg k hi lo n).pending = s.pending := rfl
@[simp] theorem State.bumpReg_free (s : State) (k : RegKey) (hi lo n : Nat) : (s.bumpReg k hi lo n).free = s.free := rfl
@[simp] theorem State.bumpReg_ticks (s : State) (k : RegKey) (hi lo n : Nat) : (s.bumpReg k hi lo n).ticks = s.ticks := rfl
@[simp] theorem State.bumpReg_aoTime (s : State) (k : RegKey) (hi lo n : Nat) : (s.bumpReg k hi lo n).aoTime = s.aoTime := rfl
@[simp] theorem State.bumpReg_mtime (s : State) (k : RegKey) (hi lo n : Nat) : (s.bumpReg k hi lo n).mtime = s.mtime := rfl
@[simp] theorem State.bumpReg_mem (s : State) (k : RegKey) (hi lo n : Nat) : (s.bumpReg k hi lo n).mem = s.mem := rfl
@[simp] theorem State.bumpReg_cores (s : State) (k : RegKey) (hi lo n : Nat) : (s.bumpReg k hi lo n).cores = s.cores := rfl
@[simp] theorem State.bumpReg_parcels (s : State) (k : RegKey) (hi lo n : Nat) : (s.bumpReg k hi lo n).parcels = s.parcels := rfl
@[simp] theorem State.bumpReg_fabs (s : State) (k : RegKey) (hi lo n : Nat) : (s.bumpReg k hi lo n).fabs = s.fabs := rfl
@[simp] theorem State.bumpReg_fabric (s : State) (k : RegKey) (hi lo n : Nat) : (s.bumpReg k hi lo n).fabric = s.fabric := rfl
@[simp] theorem State.bumpReg_engWaits (s : State) (k : RegKey) (hi lo n : Nat) : (s.bumpReg k hi lo n).engWaits = s.engWaits := rfl
@[simp] theorem State.bumpReg_queues (s : State) (k : RegKey) (hi lo n : Nat) : (s.bumpReg k hi lo n).queues = s.queues := rfl
@[simp] theorem State.bumpReg_seqrs (s : State) (k : RegKey) (hi lo n : Nat) : (s.bumpReg k hi lo n).seqrs = s.seqrs := rfl
@[simp] theorem State.bumpReg_host (s : State) (k : RegKey) (hi lo n : Nat) : (s.bumpReg k hi lo n).host = s.host := rfl
@[simp] theorem State.bumpReg_regs (s : State) (k : RegKey) (hi lo n : Nat) : (s.bumpReg k hi lo n).regs = s.regs.put k (setBits (s.reg k) hi lo (s.regBits k hi lo + n)) := rfl
@[simp] theorem State.bumpReg_job (s : State) (k : RegKey) (hi lo n : Nat) : (s.bumpReg k hi lo n).job = s.job := rfl
@[simp] theorem State.bumpReg_errs (s : State) (k : RegKey) (hi lo n : Nat) : (s.bumpReg k hi lo n).errs = s.errs := rfl
@[simp] theorem State.bumpReg_plan (s : State) (k : RegKey) (hi lo n : Nat) : (s.bumpReg k hi lo n).plan = s.plan := rfl
@[simp] theorem State.bumpReg_xfer (s : State) (k : RegKey) (hi lo n : Nat) : (s.bumpReg k hi lo n).xfer = s.xfer := rfl
@[simp] theorem State.bumpReg_links (s : State) (k : RegKey) (hi lo n : Nat) : (s.bumpReg k hi lo n).links = s.links := rfl
@[simp] theorem State.bumpReg_relayed (s : State) (k : RegKey) (hi lo n : Nat) : (s.bumpReg k hi lo n).relayed = s.relayed := rfl
@[simp] theorem State.bumpReg_meridian (s : State) (k : RegKey) (hi lo n : Nat) : (s.bumpReg k hi lo n).meridian = s.meridian := rfl
@[simp] theorem State.bumpReg_up (s : State) (k : RegKey) (hi lo n : Nat) : (s.bumpReg k hi lo n).up = s.up := rfl
@[simp] theorem State.bumpReg_out (s : State) (k : RegKey) (hi lo n : Nat) : (s.bumpReg k hi lo n).out = s.out := rfl

/-! modLink -/
@[simp] theorem State.modLink_pending (s : State) (p : Port) (f : LinkPort → LinkPort) : (s.modLink p f).pending = s.pending := rfl
@[simp] theorem State.modLink_free (s : State) (p : Port) (f : LinkPort → LinkPort) : (s.modLink p f).free = s.free := rfl
@[simp] theorem State.modLink_ticks (s : State) (p : Port) (f : LinkPort → LinkPort) : (s.modLink p f).ticks = s.ticks := rfl
@[simp] theorem State.modLink_aoTime (s : State) (p : Port) (f : LinkPort → LinkPort) : (s.modLink p f).aoTime = s.aoTime := rfl
@[simp] theorem State.modLink_mtime (s : State) (p : Port) (f : LinkPort → LinkPort) : (s.modLink p f).mtime = s.mtime := rfl
@[simp] theorem State.modLink_mem (s : State) (p : Port) (f : LinkPort → LinkPort) : (s.modLink p f).mem = s.mem := rfl
@[simp] theorem State.modLink_cores (s : State) (p : Port) (f : LinkPort → LinkPort) : (s.modLink p f).cores = s.cores := rfl
@[simp] theorem State.modLink_parcels (s : State) (p : Port) (f : LinkPort → LinkPort) : (s.modLink p f).parcels = s.parcels := rfl
@[simp] theorem State.modLink_fabs (s : State) (p : Port) (f : LinkPort → LinkPort) : (s.modLink p f).fabs = s.fabs := rfl
@[simp] theorem State.modLink_fabric (s : State) (p : Port) (f : LinkPort → LinkPort) : (s.modLink p f).fabric = s.fabric := rfl
@[simp] theorem State.modLink_engWaits (s : State) (p : Port) (f : LinkPort → LinkPort) : (s.modLink p f).engWaits = s.engWaits := rfl
@[simp] theorem State.modLink_queues (s : State) (p : Port) (f : LinkPort → LinkPort) : (s.modLink p f).queues = s.queues := rfl
@[simp] theorem State.modLink_seqrs (s : State) (p : Port) (f : LinkPort → LinkPort) : (s.modLink p f).seqrs = s.seqrs := rfl
@[simp] theorem State.modLink_host (s : State) (p : Port) (f : LinkPort → LinkPort) : (s.modLink p f).host = s.host := rfl
@[simp] theorem State.modLink_regs (s : State) (p : Port) (f : LinkPort → LinkPort) : (s.modLink p f).regs = s.regs := rfl
@[simp] theorem State.modLink_job (s : State) (p : Port) (f : LinkPort → LinkPort) : (s.modLink p f).job = s.job := rfl
@[simp] theorem State.modLink_errs (s : State) (p : Port) (f : LinkPort → LinkPort) : (s.modLink p f).errs = s.errs := rfl
@[simp] theorem State.modLink_plan (s : State) (p : Port) (f : LinkPort → LinkPort) : (s.modLink p f).plan = s.plan := rfl
@[simp] theorem State.modLink_xfer (s : State) (p : Port) (f : LinkPort → LinkPort) : (s.modLink p f).xfer = s.xfer := rfl
@[simp] theorem State.modLink_links (s : State) (p : Port) (f : LinkPort → LinkPort) : (s.modLink p f).links = s.links.put p (f (s.link p)) := rfl
@[simp] theorem State.modLink_relayed (s : State) (p : Port) (f : LinkPort → LinkPort) : (s.modLink p f).relayed = s.relayed := rfl
@[simp] theorem State.modLink_meridian (s : State) (p : Port) (f : LinkPort → LinkPort) : (s.modLink p f).meridian = s.meridian := rfl
@[simp] theorem State.modLink_up (s : State) (p : Port) (f : LinkPort → LinkPort) : (s.modLink p f).up = s.up := rfl
@[simp] theorem State.modLink_out (s : State) (p : Port) (f : LinkPort → LinkPort) : (s.modLink p f).out = s.out := rfl

/-! takeFree -/
@[simp] theorem State.takeFree_pending (s : State) : (s.takeFree).pending = s.pending := rfl
@[simp] theorem State.takeFree_free (s : State) : (s.takeFree).free = s.free + 1 := rfl
@[simp] theorem State.takeFree_ticks (s : State) : (s.takeFree).ticks = s.ticks := rfl
@[simp] theorem State.takeFree_aoTime (s : State) : (s.takeFree).aoTime = s.aoTime := rfl
@[simp] theorem State.takeFree_mtime (s : State) : (s.takeFree).mtime = s.mtime := rfl
@[simp] theorem State.takeFree_mem (s : State) : (s.takeFree).mem = s.mem := rfl
@[simp] theorem State.takeFree_cores (s : State) : (s.takeFree).cores = s.cores := rfl
@[simp] theorem State.takeFree_parcels (s : State) : (s.takeFree).parcels = s.parcels := rfl
@[simp] theorem State.takeFree_fabs (s : State) : (s.takeFree).fabs = s.fabs := rfl
@[simp] theorem State.takeFree_fabric (s : State) : (s.takeFree).fabric = s.fabric := rfl
@[simp] theorem State.takeFree_engWaits (s : State) : (s.takeFree).engWaits = s.engWaits := rfl
@[simp] theorem State.takeFree_queues (s : State) : (s.takeFree).queues = s.queues := rfl
@[simp] theorem State.takeFree_seqrs (s : State) : (s.takeFree).seqrs = s.seqrs := rfl
@[simp] theorem State.takeFree_host (s : State) : (s.takeFree).host = s.host := rfl
@[simp] theorem State.takeFree_regs (s : State) : (s.takeFree).regs = s.regs := rfl
@[simp] theorem State.takeFree_job (s : State) : (s.takeFree).job = s.job := rfl
@[simp] theorem State.takeFree_errs (s : State) : (s.takeFree).errs = s.errs := rfl
@[simp] theorem State.takeFree_plan (s : State) : (s.takeFree).plan = s.plan := rfl
@[simp] theorem State.takeFree_xfer (s : State) : (s.takeFree).xfer = s.xfer := rfl
@[simp] theorem State.takeFree_links (s : State) : (s.takeFree).links = s.links := rfl
@[simp] theorem State.takeFree_relayed (s : State) : (s.takeFree).relayed = s.relayed := rfl
@[simp] theorem State.takeFree_meridian (s : State) : (s.takeFree).meridian = s.meridian := rfl
@[simp] theorem State.takeFree_up (s : State) : (s.takeFree).up = s.up := rfl
@[simp] theorem State.takeFree_out (s : State) : (s.takeFree).out = s.out := rfl

/-! modQueue -/
@[simp] theorem State.modQueue_pending (s : State) (q : QueueId) (f : QueueState → QueueState) : (s.modQueue q f).pending = s.pending := rfl
@[simp] theorem State.modQueue_free (s : State) (q : QueueId) (f : QueueState → QueueState) : (s.modQueue q f).free = s.free := rfl
@[simp] theorem State.modQueue_ticks (s : State) (q : QueueId) (f : QueueState → QueueState) : (s.modQueue q f).ticks = s.ticks := rfl
@[simp] theorem State.modQueue_aoTime (s : State) (q : QueueId) (f : QueueState → QueueState) : (s.modQueue q f).aoTime = s.aoTime := rfl
@[simp] theorem State.modQueue_mtime (s : State) (q : QueueId) (f : QueueState → QueueState) : (s.modQueue q f).mtime = s.mtime := rfl
@[simp] theorem State.modQueue_mem (s : State) (q : QueueId) (f : QueueState → QueueState) : (s.modQueue q f).mem = s.mem := rfl
@[simp] theorem State.modQueue_cores (s : State) (q : QueueId) (f : QueueState → QueueState) : (s.modQueue q f).cores = s.cores := rfl
@[simp] theorem State.modQueue_parcels (s : State) (q : QueueId) (f : QueueState → QueueState) : (s.modQueue q f).parcels = s.parcels := rfl
@[simp] theorem State.modQueue_fabs (s : State) (q : QueueId) (f : QueueState → QueueState) : (s.modQueue q f).fabs = s.fabs := rfl
@[simp] theorem State.modQueue_fabric (s : State) (q : QueueId) (f : QueueState → QueueState) : (s.modQueue q f).fabric = s.fabric := rfl
@[simp] theorem State.modQueue_engWaits (s : State) (q : QueueId) (f : QueueState → QueueState) : (s.modQueue q f).engWaits = s.engWaits := rfl
@[simp] theorem State.modQueue_seqrs (s : State) (q : QueueId) (f : QueueState → QueueState) : (s.modQueue q f).seqrs = s.seqrs := rfl
@[simp] theorem State.modQueue_host (s : State) (q : QueueId) (f : QueueState → QueueState) : (s.modQueue q f).host = s.host := rfl
@[simp] theorem State.modQueue_regs (s : State) (q : QueueId) (f : QueueState → QueueState) : (s.modQueue q f).regs = s.regs := rfl
@[simp] theorem State.modQueue_job (s : State) (q : QueueId) (f : QueueState → QueueState) : (s.modQueue q f).job = s.job := rfl
@[simp] theorem State.modQueue_errs (s : State) (q : QueueId) (f : QueueState → QueueState) : (s.modQueue q f).errs = s.errs := rfl
@[simp] theorem State.modQueue_plan (s : State) (q : QueueId) (f : QueueState → QueueState) : (s.modQueue q f).plan = s.plan := rfl
@[simp] theorem State.modQueue_xfer (s : State) (q : QueueId) (f : QueueState → QueueState) : (s.modQueue q f).xfer = s.xfer := rfl
@[simp] theorem State.modQueue_links (s : State) (q : QueueId) (f : QueueState → QueueState) : (s.modQueue q f).links = s.links := rfl
@[simp] theorem State.modQueue_relayed (s : State) (q : QueueId) (f : QueueState → QueueState) : (s.modQueue q f).relayed = s.relayed := rfl
@[simp] theorem State.modQueue_meridian (s : State) (q : QueueId) (f : QueueState → QueueState) : (s.modQueue q f).meridian = s.meridian := rfl
@[simp] theorem State.modQueue_up (s : State) (q : QueueId) (f : QueueState → QueueState) : (s.modQueue q f).up = s.up := rfl
@[simp] theorem State.modQueue_out (s : State) (q : QueueId) (f : QueueState → QueueState) : (s.modQueue q f).out = s.out := rfl

/-! storePoison -/
@[simp] theorem State.storePoison_pending (s : State) (a n : Nat) : (s.storePoison a n).pending = s.pending := rfl
@[simp] theorem State.storePoison_free (s : State) (a n : Nat) : (s.storePoison a n).free = s.free := rfl
@[simp] theorem State.storePoison_ticks (s : State) (a n : Nat) : (s.storePoison a n).ticks = s.ticks := rfl
@[simp] theorem State.storePoison_aoTime (s : State) (a n : Nat) : (s.storePoison a n).aoTime = s.aoTime := rfl
@[simp] theorem State.storePoison_mtime (s : State) (a n : Nat) : (s.storePoison a n).mtime = s.mtime := rfl
@[simp] theorem State.storePoison_mem (s : State) (a n : Nat) : (s.storePoison a n).mem = s.mem.poisonRange a n := rfl
@[simp] theorem State.storePoison_cores (s : State) (a n : Nat) : (s.storePoison a n).cores = s.cores := rfl
@[simp] theorem State.storePoison_parcels (s : State) (a n : Nat) : (s.storePoison a n).parcels = s.parcels := rfl
@[simp] theorem State.storePoison_fabs (s : State) (a n : Nat) : (s.storePoison a n).fabs = s.fabs := rfl
@[simp] theorem State.storePoison_fabric (s : State) (a n : Nat) : (s.storePoison a n).fabric = s.fabric := rfl
@[simp] theorem State.storePoison_engWaits (s : State) (a n : Nat) : (s.storePoison a n).engWaits = s.engWaits := rfl
@[simp] theorem State.storePoison_queues (s : State) (a n : Nat) : (s.storePoison a n).queues = s.queues := rfl
@[simp] theorem State.storePoison_seqrs (s : State) (a n : Nat) : (s.storePoison a n).seqrs = s.seqrs := rfl
@[simp] theorem State.storePoison_host (s : State) (a n : Nat) : (s.storePoison a n).host = s.host := rfl
@[simp] theorem State.storePoison_regs (s : State) (a n : Nat) : (s.storePoison a n).regs = s.regs := rfl
@[simp] theorem State.storePoison_job (s : State) (a n : Nat) : (s.storePoison a n).job = s.job := rfl
@[simp] theorem State.storePoison_errs (s : State) (a n : Nat) : (s.storePoison a n).errs = s.errs := rfl
@[simp] theorem State.storePoison_plan (s : State) (a n : Nat) : (s.storePoison a n).plan = s.plan := rfl
@[simp] theorem State.storePoison_xfer (s : State) (a n : Nat) : (s.storePoison a n).xfer = s.xfer := rfl
@[simp] theorem State.storePoison_links (s : State) (a n : Nat) : (s.storePoison a n).links = s.links := rfl
@[simp] theorem State.storePoison_relayed (s : State) (a n : Nat) : (s.storePoison a n).relayed = s.relayed := rfl
@[simp] theorem State.storePoison_meridian (s : State) (a n : Nat) : (s.storePoison a n).meridian = s.meridian := rfl
@[simp] theorem State.storePoison_up (s : State) (a n : Nat) : (s.storePoison a n).up = s.up := rfl
@[simp] theorem State.storePoison_out (s : State) (a n : Nat) : (s.storePoison a n).out = s.out := rfl

end Sys2Proof.Machine
end

