-- ==== Sys2Proof/Laws/Mem.lean ====
section
/-!
SUPPORT. Memory keeps its canonical form under every operation on it, and reads back what was written.
-/
namespace Sys2Proof.Machine

theorem Mem.rising_iff (l : List Nat) : Mem.rising l = true ↔ l.Pairwise (fun a b => a < b) := by
  induction l with
  | nil => simp [Mem.rising]
  | cons a l ih =>
    cases l with
    | nil => simp [Mem.rising]
    | cons b l =>
      simp only [Mem.rising, Bool.and_eq_true, decide_eq_true_eq, ih, List.pairwise_cons, List.mem_cons]
      constructor
      · rintro ⟨h, h1, h2⟩
        refine ⟨?_, h1, h2⟩
        rintro x (rfl | hx)
        · exact h
        · exact Nat.lt_trans h (h1 x hx)
      · rintro ⟨h, h1, h2⟩
        exact ⟨h b (Or.inl rfl), h1, h2⟩

theorem Mem.sorted_iff (l : List (Nat × Byte)) :
    Mem.sorted l = true ↔ l.Pairwise (fun a b => a.1 < b.1) ∧ ∀ q ∈ l, q.2 ≠ 0 := by
  induction l with
  | nil => simp [Mem.sorted]
  | cons a l ih =>
    cases l with
    | nil => simp [Mem.sorted]
    | cons b l =>
      simp only [Mem.sorted, Bool.and_eq_true, decide_eq_true_eq, ih, List.pairwise_cons, List.mem_cons, bne_iff_ne]
      constructor
      · rintro ⟨⟨h0, h⟩, ⟨h1, h2⟩, h3⟩
        refine ⟨⟨?_, h1, h2⟩, ?_⟩
        · rintro x (rfl | hx)
          · exact h
          · exact Nat.lt_trans h (h1 x hx)
        · rintro x (rfl | hx)
          · exact h0
          · exact h3 x hx
      · rintro ⟨⟨h, h1, h2⟩, h3⟩
        exact ⟨⟨h3 a (Or.inl rfl), h b (Or.inl rfl)⟩, ⟨h1, h2⟩, fun x hx => h3 x (Or.inr hx)⟩

theorem putByte_fst (l : List (Nat × Byte)) (a : Nat) (b : Byte) (x : Nat × Byte) (h : x ∈ putByte l a b) :
    x ∈ l ∨ (x = (a, b) ∧ b ≠ 0) := by
  induction l with
  | nil =>
    simp only [putByte] at h
    split at h
    · simp at h
    · exact Or.inr ⟨by simpa using h, by assumption⟩
  | cons q l ih =>
    obtain ⟨k, v⟩ := q
    simp only [putByte] at h
    split at h
    · split at h
      · exact Or.inl h
      · rcases List.mem_cons.1 h with h | h
        · exact Or.inr ⟨h, by assumption⟩
        · exact Or.inl h
    · split at h
      · split at h
        · exact Or.inl (List.mem_cons_of_mem _ h)
        · rcases List.mem_cons.1 h with h | h
          · exact Or.inr ⟨h, by assumption⟩
          · exact Or.inl (List.mem_cons_of_mem _ h)
      · rcases List.mem_cons.1 h with h | h
        · exact Or.inl (by simp [h])
        · rcases ih h with h | h
          · exact Or.inl (List.mem_cons_of_mem _ h)
          · exact Or.inr h

/-- Setting a byte keeps the canonical form. -/
theorem putByte_sorted (l : List (Nat × Byte)) (a : Nat) (b : Byte) (h : Mem.sorted l = true) : Mem.sorted (putByte l a b) = true := by
  rw [Mem.sorted_iff] at h ⊢
  induction l with
  | nil => simp only [putByte]; split <;> simp_all
  | cons q l ih =>
    obtain ⟨k, v⟩ := q
    obtain ⟨hp, hz⟩ := h
    rw [List.pairwise_cons] at hp
    have hl := ih ⟨hp.2, fun x hx => hz x (List.mem_cons_of_mem _ hx)⟩
    simp only [putByte]
    split
    · rename_i hlt
      split
      · exact ⟨List.pairwise_cons.2 hp, hz⟩
      · refine ⟨List.pairwise_cons.2 ⟨?_, List.pairwise_cons.2 hp⟩, ?_⟩
        · intro x hx
          rcases List.mem_cons.1 hx with rfl | hx
          · exact hlt
          · exact Nat.lt_trans hlt (hp.1 x hx)
        · intro x hx
          rcases List.mem_cons.1 hx with rfl | hx
          · assumption
          · exact hz x hx
    · split
      · rename_i heq
        split
        · exact ⟨hp.2, fun x hx => hz x (List.mem_cons_of_mem _ hx)⟩
        · refine ⟨List.pairwise_cons.2 ⟨?_, hp.2⟩, ?_⟩
          · intro x hx; have := hp.1 x hx; simp only at this ⊢; omega
          · intro x hx
            rcases List.mem_cons.1 hx with rfl | hx
            · assumption
            · exact hz x (List.mem_cons_of_mem _ hx)
      · refine ⟨List.pairwise_cons.2 ⟨?_, hl.1⟩, ?_⟩
        · intro x hx
          rcases putByte_fst l a b x hx with h | ⟨rfl, -⟩
          · exact hp.1 x h
          · simp only; omega
        · intro x hx
          rcases List.mem_cons.1 hx with rfl | hx
          · exact hz _ (by simp)
          · exact hl.2 x hx

/-- Setting a run of bytes keeps the canonical form. -/
theorem putBytes_sorted (bs : List Byte) : ∀ (l : List (Nat × Byte)) (a : Nat), Mem.sorted l = true → Mem.sorted (putBytes l a bs) = true := by
  induction bs with
  | nil => intro l a h; exact h
  | cons b bs ih => intro l a h; exact ih _ _ (putByte_sorted l a b h)

theorem filter_sorted (f : Nat × Byte → Bool) (l : List (Nat × Byte)) (h : Mem.sorted l = true) : Mem.sorted (l.filter f) = true := by
  rw [Mem.sorted_iff] at h ⊢
  exact ⟨h.1.filter f, fun q hq => h.2 q (List.mem_of_mem_filter hq)⟩

theorem filter_rising (f : Nat → Bool) (l : List Nat) (h : Mem.rising l = true) : Mem.rising (l.filter f) = true := by
  rw [Mem.rising_iff] at h ⊢
  exact h.filter f

theorem erase_rising (x : Nat) (l : List Nat) (h : Mem.rising l = true) : Mem.rising (l.erase x) = true := by
  rw [Mem.rising_iff] at h ⊢
  exact h.sublist List.erase_sublist

theorem mem_insNat (x y : Nat) (l : List Nat) : y ∈ insNat x l → y = x ∨ y ∈ l := by
  induction l with
  | nil => simp [insNat]
  | cons a l ih =>
    simp only [insNat]
    split
    · simp
    · split
      · intro h; exact Or.inr h
      · intro h
        rcases List.mem_cons.1 h with h | h
        · exact Or.inr (by simp [h])
        · rcases ih h with h | h
          · exact Or.inl h
          · exact Or.inr (List.mem_cons_of_mem _ h)

theorem insNat_rising (x : Nat) (l : List Nat) (h : Mem.rising l = true) : Mem.rising (insNat x l) = true := by
  rw [Mem.rising_iff] at h ⊢
  induction l with
  | nil => simp [insNat]
  | cons a l ih =>
    have hp := List.pairwise_cons.1 h
    simp only [insNat]
    split
    · rename_i hlt
      refine List.pairwise_cons.2 ⟨?_, h⟩
      intro y hy
      rcases List.mem_cons.1 hy with rfl | hy
      · exact hlt
      · exact Nat.lt_trans hlt (hp.1 y hy)
    · split
      · exact h
      · refine List.pairwise_cons.2 ⟨?_, ih hp.2⟩
        intro y hy
        rcases mem_insNat x y l hy with rfl | hy
        · omega
        · exact hp.1 y hy

theorem Mem.wf_iff (m : Mem) : m.wf = true ↔
    Mem.sorted m.bytes = true ∧ Mem.rising m.poison = true ∧ Mem.rising m.ce = true ∧ Mem.rising m.ue = true ∧ Mem.rising m.par = true := by
  simp [Mem.wf, and_assoc]

/-- Memory after reset is canonical. -/
theorem Mem.reset_wf : Mem.reset.wf = true := by decide

theorem Mem.writePiece_wf (m : Mem) (a : Nat) (bs : List Byte) (h : m.wf = true) : (m.writePiece a bs).1.wf = true := by
  rw [Mem.wf_iff] at h
  obtain ⟨h1, h2, h3, h4, h5⟩ := h
  unfold Mem.writePiece
  dsimp only
  split
  · exact (Mem.wf_iff _).2 ⟨putBytes_sorted _ _ _ h1, erase_rising _ _ h2, erase_rising _ _ h3, erase_rising _ _ h4, filter_rising _ _ h5⟩
  · split
    · exact (Mem.wf_iff _).2 ⟨h1, insNat_rising _ _ h2, h3, erase_rising _ _ h4, h5⟩
    · exact (Mem.wf_iff _).2 ⟨putBytes_sorted _ _ _ h1, h2, h3, h4, filter_rising _ _ h5⟩

theorem Mem.poisonUnit_wf (m : Mem) (u : Nat) (h : m.wf = true) : (m.poisonUnit u).wf = true := by
  rw [Mem.wf_iff] at h
  obtain ⟨h1, h2, h3, h4, h5⟩ := h
  exact (Mem.wf_iff _).2 ⟨h1, insNat_rising _ _ h2, erase_rising _ _ h3, erase_rising _ _ h4, filter_rising _ _ h5⟩

theorem Mem.poisonRange_wf (m : Mem) (a n : Nat) (h : m.wf = true) : (m.poisonRange a n).wf = true := by
  unfold Mem.poisonRange
  generalize unitsOf a n = l
  induction l generalizing m with
  | nil => exact h
  | cons u l ih => exact ih _ (Mem.poisonUnit_wf m u h)

theorem Mem.clear_wf (m : Mem) (lo hi : Nat) (h : m.wf = true) : (m.clear lo hi).wf = true := by
  rw [Mem.wf_iff] at h
  obtain ⟨h1, h2, h3, h4, h5⟩ := h
  exact (Mem.wf_iff _).2 ⟨filter_sorted _ _ h1, filter_rising _ _ h2, filter_rising _ _ h3, filter_rising _ _ h4, filter_rising _ _ h5⟩

theorem Mem.clearIf_wf (m : Mem) (p : Nat → Bool) (h : m.wf = true) : (m.clearIf p).wf = true := by
  rw [Mem.wf_iff] at h
  obtain ⟨h1, h2, h3, h4, h5⟩ := h
  exact (Mem.wf_iff _).2 ⟨filter_sorted _ _ h1, filter_rising _ _ h2, filter_rising _ _ h3, filter_rising _ _ h4, filter_rising _ _ h5⟩

/-- A byte written reads back, and no other byte changes (for a list in canonical form). -/
theorem byteAt_putByte (l : List (Nat × Byte)) (a x : Nat) (b : Byte) (h : Mem.sorted l = true) :
    byteAt (putByte l a b) x = if x = a then b else byteAt l x := by
  rw [Mem.sorted_iff] at h
  induction l with
  | nil =>
    simp only [putByte]
    split
    · rename_i hb
      subst hb
      simp [byteAt]
    · by_cases hx : x = a
      · subst hx; simp [byteAt]
      · have hx' : ¬ a = x := fun e => hx e.symm
        simp [byteAt, hx, hx']
  | cons q l ih =>
    obtain ⟨k, v⟩ := q
    obtain ⟨hp, hz⟩ := h
    rw [List.pairwise_cons] at hp
    have ih' := ih ⟨hp.2, fun x hx => hz x (List.mem_cons_of_mem _ hx)⟩
    have hlow : ∀ y, y ≤ k → byteAt l y = 0 := by
      intro y hy
      cases l with
      | nil => rfl
      | cons q' l' =>
        have := hp.1 q' (by simp)
        simp only at this
        unfold byteAt
        rw [if_neg (by omega), if_pos (by omega)]
    simp only [putByte]
    split
    · split
      · by_cases hx : x = a
        · subst hx
          rw [if_pos rfl]
          unfold byteAt
          rw [if_neg (by omega), if_pos (by omega)]
          exact (by assumption : b = 0).symm
        · rw [if_neg hx]
      · by_cases hx : x = a
        · subst hx; simp [byteAt]
        · rw [if_neg hx]
          conv_lhs => unfold byteAt
          rw [if_neg (fun e => hx e.symm)]
          split
          · unfold byteAt
            rw [if_neg (by omega), if_pos (by omega)]
          · rfl
    · split
      · rename_i heq
        subst heq
        split
        · by_cases hx : x = a
          · subst hx
            rw [if_pos rfl, hlow _ (Nat.le_refl _)]
            exact (by assumption : b = 0).symm
          · rw [if_neg hx]
            conv_rhs => unfold byteAt
            rw [if_neg (fun e => hx e.symm)]
            split
            · exact hlow _ (by omega)
            · rfl
        · by_cases hx : x = a
          · subst hx; simp [byteAt]
          · rw [if_neg hx]
            have hx' : ¬ a = x := fun e => hx e.symm
            simp [byteAt, hx']
      · by_cases hxk : k = x
        · subst hxk
          have hx : ¬ k = a := fun e => by omega
          simp [byteAt, hx]
        · by_cases hlt : x < k
          · have hx : ¬ x = a := by omega
            simp [byteAt, hxk, hlt, hx]
          · simp only [byteAt, hxk, if_false, hlt]
            exact ih'

/-- A run of bytes written reads back, and no byte outside it changes. -/
theorem byteAt_putBytes (bs : List Byte) : ∀ (l : List (Nat × Byte)) (a x : Nat), Mem.sorted l = true →
    byteAt (putBytes l a bs) x = if a ≤ x ∧ x < a + bs.length then bs.getD (x - a) 0 else byteAt l x := by
  induction bs with
  | nil => intro l a x _; rw [if_neg (by simp)]; rfl
  | cons b bs ih =>
    intro l a x h
    simp only [putBytes]
    rw [ih _ _ _ (putByte_sorted l a b h), byteAt_putByte l a x b h]
    by_cases hx : x = a
    · subst hx
      rw [if_neg (by omega), if_pos rfl, if_pos ⟨by omega, by simp only [List.length_cons]; omega⟩]
      simp
    · by_cases hin : a + 1 ≤ x ∧ x < a + 1 + bs.length
      · rw [if_pos hin, if_pos ⟨by omega, by simp only [List.length_cons]; omega⟩]
        have : x - a = (x - (a + 1)) + 1 := by omega
        rw [this, List.getD_cons_succ]
      · rw [if_neg hin, if_neg hx, if_neg (by simp only [List.length_cons]; omega)]

end Sys2Proof.Machine
end

