-- ==== Sys2Proof/Laws/Ops.lean ====
section
/-!
SUPPORT. What the shared operations of Machine/Ops.lean can do, each said once: emitting a record changes registers, the records' queues and
a restore that runs; touching check units changes besides the memory and the health of parcels; storing changes besides the memory, keeps its
canonical form, and leaves every byte outside the run as it was.
-/
namespace Sys2Proof.Machine

/-- t is s but for registers, the records' queues and the upkeep. -/
def State.OnlyRecords (s t : State) : Prop :=
  ∃ regs fabs errs up, t = { s with regs := regs, fabs := fabs, errs := errs, up := up }

/-- t is s but for memory, the parcels, and what a record changes. -/
def State.OnlyMemRecords (s t : State) : Prop :=
  ∃ mem parcels regs fabs errs up, t = { s with mem := mem, parcels := parcels, regs := regs, fabs := fabs, errs := errs, up := up }

theorem State.OnlyRecords.refl (s : State) : s.OnlyRecords s := ⟨s.regs, s.fabs, s.errs, s.up, rfl⟩

theorem State.OnlyRecords.trans {s t u : State} (h : s.OnlyRecords t) (h' : t.OnlyRecords u) : s.OnlyRecords u := by
  obtain ⟨_, _, _, _, rfl⟩ := h
  obtain ⟨_, _, _, _, rfl⟩ := h'
  exact ⟨_, _, _, _, rfl⟩

theorem State.OnlyMemRecords.refl (s : State) : s.OnlyMemRecords s := ⟨s.mem, s.parcels, s.regs, s.fabs, s.errs, s.up, rfl⟩

theorem State.OnlyMemRecords.trans {s t u : State} (h : s.OnlyMemRecords t) (h' : t.OnlyMemRecords u) : s.OnlyMemRecords u := by
  obtain ⟨_, _, _, _, _, _, rfl⟩ := h
  obtain ⟨_, _, _, _, _, _, rfl⟩ := h'
  exact ⟨_, _, _, _, _, _, rfl⟩

theorem State.OnlyRecords.mem {s t : State} (h : s.OnlyRecords t) : t.mem = s.mem := by obtain ⟨_, _, _, _, rfl⟩ := h; rfl
theorem State.OnlyRecords.cores {s t : State} (h : s.OnlyRecords t) : t.cores = s.cores := by obtain ⟨_, _, _, _, rfl⟩ := h; rfl
theorem State.OnlyRecords.parcels {s t : State} (h : s.OnlyRecords t) : t.parcels = s.parcels := by obtain ⟨_, _, _, _, rfl⟩ := h; rfl
theorem State.OnlyRecords.pending {s t : State} (h : s.OnlyRecords t) : t.pending = s.pending := by obtain ⟨_, _, _, _, rfl⟩ := h; rfl
theorem State.OnlyRecords.job {s t : State} (h : s.OnlyRecords t) : t.job = s.job := by obtain ⟨_, _, _, _, rfl⟩ := h; rfl
theorem State.OnlyRecords.toMem {s t : State} (h : s.OnlyRecords t) : s.OnlyMemRecords t := by
  obtain ⟨_, _, _, _, rfl⟩ := h; exact ⟨_, _, _, _, _, _, rfl⟩

theorem State.OnlyMemRecords.cores {s t : State} (h : s.OnlyMemRecords t) : t.cores = s.cores := by obtain ⟨_, _, _, _, _, _, rfl⟩ := h; rfl
theorem State.OnlyMemRecords.pending {s t : State} (h : s.OnlyMemRecords t) : t.pending = s.pending := by
  obtain ⟨_, _, _, _, _, _, rfl⟩ := h; rfl
theorem State.OnlyMemRecords.job {s t : State} (h : s.OnlyMemRecords t) : t.job = s.job := by obtain ⟨_, _, _, _, _, _, rfl⟩ := h; rfl

theorem State.countLost_only (s : State) : s.OnlyRecords s.countLost := ⟨_, _, _, _, rfl⟩

theorem State.emitCd_only (s : State) (r : ErrRec) : s.OnlyRecords (s.emitCd r) := by
  unfold State.emitCd
  dsimp only
  split
  · exact ⟨_, _, _, _, rfl⟩
  · exact ⟨_, _, _, _, rfl⟩

theorem State.emitTract_only (s : State) (t : Tract) (r : ErrRec) : s.OnlyRecords (s.emitTract t r) := by
  unfold State.emitTract
  dsimp only
  split
  · exact ⟨_, _, _, _, rfl⟩
  · exact ⟨_, _, _, _, rfl⟩

theorem State.queueRec_only (s : State) (r : ErrRec) : s.OnlyRecords (s.queueRec r) := by
  unfold State.queueRec
  split
  · split
    · exact s.emitCd_only r
    · exact s.emitTract_only _ r
  · exact s.emitCd_only r

theorem State.noteAbort_only (s : State) (r : ErrRec) : s.OnlyRecords (s.noteAbort r) := by
  unfold State.noteAbort
  split
  · exact ⟨_, _, _, _, rfl⟩
  · exact .refl s

theorem State.restoreFail_only (s : State) (cause : Nat) (more : List Nat) : s.OnlyRecords (s.restoreFail cause more) := by
  unfold State.restoreFail
  exact .trans ⟨_, _, _, _, rfl⟩ (State.queueRec_only _ _)

/-- Emitting a record changes registers, the records' queues and the upkeep, and nothing else. -/
theorem State.emit_only (s : State) (r : ErrRec) : s.OnlyRecords (s.emit r) := by
  have h : s.OnlyRecords ((s.noteAbort r).queueRec r) := (s.noteAbort_only r).trans (State.queueRec_only _ r)
  unfold State.emit
  dsimp only
  split
  · exact h.trans (State.restoreFail_only _ _ _)
  · exact h

@[simp] theorem State.emit_mem (s : State) (r : ErrRec) : (s.emit r).mem = s.mem := (s.emit_only r).mem
@[simp] theorem State.emit_cores (s : State) (r : ErrRec) : (s.emit r).cores = s.cores := (s.emit_only r).cores
@[simp] theorem State.emit_parcels (s : State) (r : ErrRec) : (s.emit r).parcels = s.parcels := (s.emit_only r).parcels
@[simp] theorem State.emit_pending (s : State) (r : ErrRec) : (s.emit r).pending = s.pending := (s.emit_only r).pending
@[simp] theorem State.emit_job (s : State) (r : ErrRec) : (s.emit r).job = s.job := (s.emit_only r).job

/-- A register write changes the register, and emits at most two records. -/
theorem State.regWrite_only (s : State) (k : RegKey) (v size : Nat) (check : Nat → Bool) : s.OnlyRecords (s.regWrite k v size check) := by
  unfold State.regWrite
  have h0 : ∀ b : Bool, s.OnlyRecords (if b then s.emit (s.regRecord .regLocked k v size) else s) := by
    intro b
    cases b
    · exact .refl s
    · exact s.emit_only _
  dsimp only
  split
  · exact (h0 _).trans ⟨_, _, _, _, rfl⟩
  · exact (h0 _).trans (State.emit_only _ _)

theorem State.modHealth_only (s : State) (p : ParcelId) (f : ParcelHealth → ParcelHealth) : s.OnlyMemRecords (s.modHealth p f) :=
  ⟨_, _, _, _, _, _, rfl⟩

theorem State.retire_only (s : State) (p : ParcelId) : s.OnlyMemRecords (s.retire p) :=
  (s.modHealth_only p _).trans (State.emit_only _ _).toMem

theorem State.suspect_only (s : State) (p : ParcelId) : s.OnlyMemRecords (s.suspect p) := by
  unfold State.suspect
  dsimp only
  split
  · exact (s.emit_only _).toMem.trans (State.modHealth_only _ _ _)
  · exact (s.emit_only _).toMem.trans (State.retire_only _ _)

theorem State.countLsce_only (s : State) (p : ParcelId) : s.OnlyMemRecords (s.countLsce p) := by
  unfold State.countLsce
  dsimp only
  split
  · exact (s.modHealth_only p _).trans (State.suspect_only _ _)
  · exact s.modHealth_only p _

@[simp] theorem State.modHealth_mem_eq (s : State) (p : ParcelId) (f : ParcelHealth → ParcelHealth) : (s.modHealth p f).mem = s.mem := rfl

@[simp] theorem State.retire_mem (s : State) (p : ParcelId) : (s.retire p).mem = s.mem := by simp [State.retire]

@[simp] theorem State.suspect_mem (s : State) (p : ParcelId) : (s.suspect p).mem = s.mem := by
  unfold State.suspect
  dsimp only
  split <;> simp

@[simp] theorem State.countLsce_mem (s : State) (p : ParcelId) : (s.countLsce p).mem = s.mem := by
  unfold State.countLsce
  dsimp only
  split <;> simp

theorem State.OnlyMemRecords.iteStep {s s0 : State} {c : Prop} [Decidable c] {f : State → State} (h : s.OnlyMemRecords s0)
    (hf : ∀ r : State, r.OnlyMemRecords (f r)) : s.OnlyMemRecords (if c then f s0 else s0) := by
  split
  · exact h.trans (hf s0)
  · exact h

theorem State.dramUe_only (s : State) (p : ParcelId) (u : Nat) : s.OnlyMemRecords (s.dramUe p u) := by
  unfold State.dramUe
  dsimp only
  refine (State.OnlyRecords.trans ?_ (State.emit_only _ _)).toMem
  split
  · exact ⟨_, _, _, _, rfl⟩
  · exact .refl s

@[simp] theorem State.dramUe_mem (s : State) (p : ParcelId) (u : Nat) : (s.dramUe p u).mem = s.mem := by
  unfold State.dramUe
  dsimp only
  rw [State.emit_mem]
  split <;> rfl

theorem State.touchUnit_only (s : State) (u : Nat) : s.OnlyMemRecords (s.touchUnit u) := by
  unfold State.touchUnit
  split
  · rename_i p _ _
    dsimp only
    refine State.OnlyMemRecords.iteStep (f := fun s => { s with mem := s.mem.poisonUnit u })
      (State.OnlyMemRecords.iteStep (f := fun s => State.countLsce { s with mem := { s.mem with ce := s.mem.ce.erase u } } p) (.refl s)
        (fun r => .trans ⟨_, _, _, _, _, _, rfl⟩ (State.countLsce_only _ p))) (fun r => ⟨_, _, _, _, _, _, rfl⟩)
  · rename_i off p _ _
    dsimp only
    refine State.OnlyMemRecords.iteStep (f := fun s => State.dramUe { s with mem := s.mem.poisonUnit u } p u)
      (State.OnlyMemRecords.iteStep
        (f := fun s => State.modHealth { s with mem := { s.mem with ce := s.mem.ce.erase u } } p
          (fun h => { h with dramce := (h.dramce + 1) % 65536 })) (.refl s) (fun r => ⟨_, _, _, _, _, _, rfl⟩))
      (fun r => .trans ⟨_, _, _, _, _, _, rfl⟩ (State.dramUe_only _ _ _))
  · split
    · exact (s.emit_only _).toMem
    · exact .refl s
  · exact .refl s

/-- t's memory holds s's bytes, and is canonical where s's is. -/
def State.SameBytes (s t : State) : Prop := t.mem.bytes = s.mem.bytes ∧ (s.mem.wf = true → t.mem.wf = true)

theorem State.SameBytes.iteStep {s s0 : State} {c : Prop} [Decidable c] {f : State → State} (h : s.SameBytes s0)
    (hf : ∀ r : State, r.SameBytes (f r)) : s.SameBytes (if c then f s0 else s0) := by
  split
  · exact ⟨(hf s0).1.trans h.1, fun w => (hf s0).2 (h.2 w)⟩
  · exact h

/-- What touching one check unit does to memory: only its checks and its poison change. -/
theorem State.touchUnit_mem (s : State) (u : Nat) : s.SameBytes (s.touchUnit u) := by
  have hce : ∀ m : Mem, m.wf = true → ({ m with ce := m.ce.erase u } : Mem).wf = true := by
    intro m h
    obtain ⟨h1, h2, h3, h4, h5⟩ := (Mem.wf_iff m).1 h
    exact (Mem.wf_iff _).2 ⟨h1, h2, erase_rising _ _ h3, h4, h5⟩
  unfold State.touchUnit
  split
  · rename_i p _ _
    dsimp only
    refine State.SameBytes.iteStep (f := fun s => { s with mem := s.mem.poisonUnit u })
      (State.SameBytes.iteStep (f := fun s => State.countLsce { s with mem := { s.mem with ce := s.mem.ce.erase u } } p) ⟨rfl, id⟩
        (fun r => ⟨by simp, fun h => by simpa using hce _ h⟩)) (fun r => ⟨rfl, fun h => Mem.poisonUnit_wf _ u h⟩)
  · rename_i off p _ _
    dsimp only
    refine State.SameBytes.iteStep (f := fun s => State.dramUe { s with mem := s.mem.poisonUnit u } p u)
      (State.SameBytes.iteStep
        (f := fun s => State.modHealth { s with mem := { s.mem with ce := s.mem.ce.erase u } } p
          (fun h => { h with dramce := (h.dramce + 1) % 65536 })) ⟨rfl, id⟩ (fun r => ⟨rfl, fun h => hce _ h⟩))
      (fun r => by unfold State.SameBytes; rw [State.dramUe_mem]; exact ⟨rfl, fun h => Mem.poisonUnit_wf _ u h⟩)
  · split
    · unfold State.SameBytes; rw [State.emit_mem]; exact ⟨rfl, id⟩
    · exact ⟨rfl, id⟩
  · exact ⟨rfl, id⟩

/-- Touching a run changes the memory's checks, the health of parcels, what a record changes, and the free value's count. -/
theorem State.touch_only (s : State) (a n : Nat) : ∃ t, s.OnlyMemRecords t ∧ s.touch a n = { t with free := s.free + 1 } := by
  unfold State.touch
  have h : ∀ (l : List Nat) (s : State), s.OnlyMemRecords (l.foldl State.touchUnit s) := by
    intro l
    induction l with
    | nil => exact .refl
    | cons u l ih => exact fun s => (s.touchUnit_only u).trans (ih _)
  refine ⟨_, h (unitsOf a n) s, ?_⟩
  have hf : ((unitsOf a n).foldl State.touchUnit s).free = s.free := by
    obtain ⟨_, _, _, _, _, _, e⟩ := h (unitsOf a n) s
    rw [e]
  unfold State.takeFree
  rw [hf]

/-- Touching a run leaves every byte of memory as it was. -/
@[simp] theorem State.touch_bytes (s : State) (a n : Nat) : (s.touch a n).mem.bytes = s.mem.bytes := by
  unfold State.touch
  rw [State.takeFree_mem]
  generalize unitsOf a n = l
  induction l generalizing s with
  | nil => rfl
  | cons u l ih => exact (ih _).trans (s.touchUnit_mem u).1

/-- Touching a run keeps memory in its canonical form. -/
theorem State.touch_wf (s : State) (a n : Nat) (h : s.mem.wf = true) : (s.touch a n).mem.wf = true := by
  unfold State.touch
  rw [State.takeFree_mem]
  generalize unitsOf a n = l
  induction l generalizing s with
  | nil => exact h
  | cons u l ih => exact ih _ ((s.touchUnit_mem u).2 h)

@[simp] theorem State.touch_cores (s : State) (a n : Nat) : (s.touch a n).cores = s.cores := by
  obtain ⟨t, h, e⟩ := s.touch_only a n
  rw [e]; exact h.cores

theorem State.rmwRecord_only (s : State) (a : Nat) : s.OnlyRecords (s.rmwRecord a) := by
  unfold State.rmwRecord
  split
  · exact .refl s
  · dsimp only
    split
    · exact s.emit_only _
    · exact s.emit_only _
    · exact s.emit_only _
    · exact .refl s

/-- The read of a partial write touches its check unit, or nothing. -/
theorem State.touchPart_only (s : State) (a n : Nat) : s.OnlyMemRecords (s.touchPart a n) := by
  unfold State.touchPart
  split
  · exact .refl s
  · split
    · exact .refl s
    · exact s.touchUnit_only _

theorem State.touchPart_mem (s : State) (a n : Nat) : s.SameBytes (s.touchPart a n) := by
  unfold State.touchPart
  split
  · exact ⟨rfl, id⟩
  · split
    · exact ⟨rfl, id⟩
    · exact s.touchUnit_mem _

theorem State.OnlyMemRecords.setMem {s t : State} (h : s.OnlyMemRecords t) (m : Mem) : s.OnlyMemRecords { t with mem := m } :=
  h.trans ⟨_, _, _, _, _, _, rfl⟩

theorem State.storePiece_only (s : State) (q : Nat × List Byte) : s.OnlyMemRecords (s.storePiece q) := by
  unfold State.storePiece
  have h := s.touchPart_only q.1 q.2.length
  revert h
  generalize s.touchPart q.1 q.2.length = t
  intro h
  dsimp only
  split
  · exact (h.setMem _).trans (State.rmwRecord_only _ _).toMem
  · exact h.setMem _

theorem State.storePiece_mem (s : State) (q : Nat × List Byte) :
    (s.storePiece q).mem = ((s.touchPart q.1 q.2.length).mem.writePiece q.1 q.2).1 := by
  unfold State.storePiece
  generalize s.touchPart q.1 q.2.length = t
  dsimp only
  split
  · exact (State.rmwRecord_only _ _).mem
  · rfl

/-- One piece of a write keeps memory in its canonical form. -/
theorem State.storePiece_wf (s : State) (q : Nat × List Byte) (h : s.mem.wf = true) : (s.storePiece q).mem.wf = true := by
  rw [s.storePiece_mem q]
  exact Mem.writePiece_wf _ _ _ ((s.touchPart_mem _ _).2 h)

/-- A store changes memory and what a record changes, and nothing else. -/
theorem State.store_only (s : State) (a : Nat) (bs : List Byte) : s.OnlyMemRecords (s.store a bs) := by
  unfold State.store
  generalize piecesAt a bs = l
  induction l generalizing s with
  | nil => exact .refl s
  | cons q l ih => exact (s.storePiece_only q).trans (ih _)

/-- A store keeps memory in its canonical form. -/
theorem State.store_wf (s : State) (a : Nat) (bs : List Byte) (h : s.mem.wf = true) : (s.store a bs).mem.wf = true := by
  unfold State.store
  generalize piecesAt a bs = l
  induction l generalizing s with
  | nil => exact h
  | cons q l ih => exact ih _ (s.storePiece_wf q h)

theorem Mem.writePiece_byte (m : Mem) (a x : Nat) (bs : List Byte) (h : Mem.sorted m.bytes = true) (hx : x < a ∨ a + bs.length ≤ x) :
    byteAt (m.writePiece a bs).1.bytes x = byteAt m.bytes x := by
  have hp : byteAt (putBytes m.bytes a bs) x = byteAt m.bytes x := by
    rw [byteAt_putBytes bs _ _ _ h, if_neg (by omega)]
  unfold Mem.writePiece
  dsimp only
  split
  · exact hp
  · split
    · rfl
    · exact hp

/-- Every piece of a write lies within the run written. -/
theorem pieces_within (u fuel : Nat) : ∀ (a : Nat) (bs : List Byte), ∀ q ∈ pieces u fuel a bs,
    a ≤ q.1 ∧ q.1 + q.2.length ≤ a + bs.length ∨ q.2 = [] := by
  induction fuel with
  | zero => intro a bs q hq; simp [pieces] at hq
  | succ fuel ih =>
    intro a bs q hq
    cases bs with
    | nil => simp [pieces] at hq
    | cons b bs =>
      simp only [pieces, List.mem_cons] at hq
      rcases hq with rfl | hq
      · left
        refine ⟨Nat.le_refl _, ?_⟩
        have := List.length_take_le' (u - a % u) (b :: bs)
        show a + ((b :: bs).take (u - a % u)).length ≤ _
        omega
      · rcases ih _ _ q hq with ⟨h1, h2⟩ | h
        · rw [List.length_drop] at h2
          by_cases hq2 : q.2 = []
          · exact .inr hq2
          · have : 0 < q.2.length := List.length_pos_iff.2 hq2
            left; omega
        · exact .inr h

/-- A store leaves every byte outside the run written as it was. -/
theorem State.store_byte (s : State) (a x : Nat) (bs : List Byte) (h : s.mem.wf = true) (hx : x < a ∨ a + bs.length ≤ x) :
    byteAt (s.store a bs).mem.bytes x = byteAt s.mem.bytes x := by
  have key : ∀ (l : List (Nat × List Byte)) (s : State), s.mem.wf = true →
      (∀ q ∈ l, a ≤ q.1 ∧ q.1 + q.2.length ≤ a + bs.length ∨ q.2 = []) →
      byteAt (l.foldl State.storePiece s).mem.bytes x = byteAt s.mem.bytes x := by
    intro l
    induction l with
    | nil => intro s _ _; rfl
    | cons q l ih =>
      intro s hs hl
      have hw : (s.storePiece q).mem.wf = true := s.storePiece_wf q hs
      refine (ih (s.storePiece q) hw (fun r hr => hl r (List.mem_cons_of_mem _ hr))).trans ?_
      rw [s.storePiece_mem q, ← (s.touchPart_mem q.1 q.2.length).1]
      refine Mem.writePiece_byte _ _ _ _ ((Mem.wf_iff _).1 ((s.touchPart_mem q.1 q.2.length).2 hs)).1 ?_
      rcases hl q (List.mem_cons_self ..) with h1 | h1
      · omega
      · rw [h1]; simp; omega
  exact key _ s h (pieces_within _ _ a bs)

theorem State.storePoison_wf (s : State) (a n : Nat) (h : s.mem.wf = true) : (s.storePoison a n).mem.wf = true :=
  Mem.poisonRange_wf _ _ _ h

/-- A write of data, poisoned or not, keeps memory in its canonical form. -/
theorem State.storeMaybe_wf (s : State) (a : Nat) (bs : List Byte) (bad : Bool) (h : s.mem.wf = true) :
    (s.storeMaybe a bs bad).mem.wf = true := by
  unfold State.storeMaybe
  split
  · exact s.storePoison_wf _ _ h
  · exact s.store_wf _ _ h

/-- A write of data, poisoned or not, changes memory and what a record changes, and nothing else. -/
theorem State.storeMaybe_only (s : State) (a : Nat) (bs : List Byte) (bad : Bool) : s.OnlyMemRecords (s.storeMaybe a bs bad) := by
  unfold State.storeMaybe
  split
  · exact ⟨_, _, _, _, _, _, rfl⟩
  · exact s.store_only _ _

end Sys2Proof.Machine
end

