-- ==== Sys2Proof/Tests/Slice0.lean ====
section
/-!
SUPPORT. Tests: the smoke test of WellFormed, results worked out by hand from the spec, and for every statement of Obligations.lean that has
hypotheses the states that meet them.
-/
namespace Sys2Proof.Tests
open Sys2Proof.Machine Sys2Proof.Claims
-- one theorem at a time: hundreds that wait on each other would ask for a thread each
set_option Elab.async false

/-- Core 0 of parcel 0 of tract 0. -/
def c0 : CoreId := { tract := 0, parcel := 0, core := 0 }
def p0 : ParcelId := { tract := 0, parcel := 0 }

/-- It runs at address 0 of a program region of 4 KiB. -/
def k0 : Core :=
  { Core.reset with
    run := .running, pwr := .run, progLimit := 0x1000, ibuf := [(0, 0), (4, 0)]
    g := (((Core.reset.g.set 1 7).set 2 0xFFFF_FFFE).set 3 0x105).set 4 0x8000_0000 }

/-- A module in which one core has the state given. -/
def withCore (k : Core) : State := { State.reset with cores := [(c0, k)] }
def s0 : State := withCore k0

/-- Core 0 issues under a guard; a1 of the first is always true. -/
def i0 : Issue := { core := c0, guard := { neg := false, pred := 0 }, fetch := false }
def iNever : Issue := { core := c0, guard := { neg := false, pred := 3 }, fetch := false }
def iBad : Issue := { core := c0, guard := { neg := true, pred := 0 }, fetch := false }

/-- What a test reads of the state a command answers. -/
def after {α : Type} (o : Host.Outcome State Fault Refusal) (f : State → α) : Option α :=
  match o with
  | .next t => some (f t)
  | _ => none

def gAfter (o : Host.Outcome State Fault Refusal) (r : BitVec 5) : Option Word := after o (fun t => (t.core c0).getG r)
def aAfter (o : Host.Outcome State Fault Refusal) (r : BitVec 4) : Option DWord := after o (fun t => (t.core c0).getA r)
def pcAfter (o : Host.Outcome State Fault Refusal) : Option (BitVec 18) := after o (fun t => (t.core c0).pc)

-- the words of a core instruction (R37, R38, R86)

/-- The base word of a major opcode with bits [21:0] low, under the issue's guard. -/
def word (i : Issue) (maj low : Nat) : Word := BitVec.ofNat 32 (2 ^ 26 * maj + 2 ^ 25 * i.guard.neg.toNat + 2 ^ 22 * i.guard.pred.toNat + low)
def lowR (rd rs1 rs2 : BitVec 5) (fn : Nat) : Nat := 2 ^ 17 * rd.toNat + 2 ^ 12 * rs1.toNat + 2 ^ 7 * rs2.toNat + fn
def lowI (rd rs1 : BitVec 5) (imm : BitVec 8) (fn : Nat) : Nat := 2 ^ 17 * rd.toNat + 2 ^ 12 * rs1.toNat + 2 ^ 8 * fn + imm.toNat
def lowM (f : FmtM) (size : Nat) : Nat := 2 ^ 17 * f.rt.toNat + 2 ^ 13 * f.ab.toNat + 2 ^ 11 * f.space.toNat + 2 ^ 8 * size + f.off8.toNat
def lowA (f : FmtA) (op : Nat) : Nat :=
  2 ^ 17 * f.rd.toNat + 2 ^ 13 * f.ab.toNat + 2 ^ 11 * f.space.toNat + 2 ^ 10 * f.size.toNat + 2 ^ 5 * f.rs.toNat + op
def lowC (f : FmtCpy) : Nat :=
  2 ^ 18 * f.ad.toNat + 2 ^ 16 * f.dspace.toNat + 2 ^ 12 * f.as_.toNat + 2 ^ 10 * f.sspace.toNat + 2 ^ 5 * f.gl.toNat + 2 ^ 2 * f.ac.toNat +
    f.reserved.toNat
def lowArr (f : FmtArr) (sub : Nat) : Nat :=
  2 ^ 20 * sub + 2 ^ 18 * f.strip.toNat + 2 ^ 14 * f.a1.toNat + 2 ^ 10 * f.a2.toNat + 2 ^ 5 * f.g.toNat + f.reserved.toNat

def wordsOf : Instr → Word × Word
  | .add i f => (word i 0x01 (lowR f.rd f.rs1 f.rs2 0), 0)
  | .sub i f => (word i 0x01 (lowR f.rd f.rs1 f.rs2 1), 0)
  | .and i f => (word i 0x01 (lowR f.rd f.rs1 f.rs2 2), 0)
  | .or i f => (word i 0x01 (lowR f.rd f.rs1 f.rs2 3), 0)
  | .xor i f => (word i 0x01 (lowR f.rd f.rs1 f.rs2 4), 0)
  | .shl i f => (word i 0x01 (lowR f.rd f.rs1 f.rs2 5), 0)
  | .shr i f => (word i 0x01 (lowR f.rd f.rs1 f.rs2 6), 0)
  | .sra i f => (word i 0x01 (lowR f.rd f.rs1 f.rs2 7), 0)
  | .mul i f => (word i 0x01 (lowR f.rd f.rs1 f.rs2 8), 0)
  | .mulhu i f => (word i 0x01 (lowR f.rd f.rs1 f.rs2 9), 0)
  | .mulhs i f => (word i 0x01 (lowR f.rd f.rs1 f.rs2 10), 0)
  | .min i f => (word i 0x01 (lowR f.rd f.rs1 f.rs2 11), 0)
  | .max i f => (word i 0x01 (lowR f.rd f.rs1 f.rs2 12), 0)
  | .minu i f => (word i 0x01 (lowR f.rd f.rs1 f.rs2 13), 0)
  | .maxu i f => (word i 0x01 (lowR f.rd f.rs1 f.rs2 14), 0)
  | .clz i f => (word i 0x01 (lowR f.rd f.rs1 f.rs2 15), 0)
  | .popc i f => (word i 0x01 (lowR f.rd f.rs1 f.rs2 16), 0)
  | .extu i f => (word i 0x01 (lowR f.rd f.rs1 f.rs2 17), 0)
  | .addi i f => (word i 0x02 (lowI f.rd f.rs1 f.imm8 0), 0)
  | .andi i f => (word i 0x02 (lowI f.rd f.rs1 f.imm8 1), 0)
  | .ori i f => (word i 0x02 (lowI f.rd f.rs1 f.imm8 2), 0)
  | .xori i f => (word i 0x02 (lowI f.rd f.rs1 f.imm8 3), 0)
  | .shli i f => (word i 0x02 (lowI f.rd f.rs1 f.imm8 4), 0)
  | .shri i f => (word i 0x02 (lowI f.rd f.rs1 f.imm8 5), 0)
  | .srai i f => (word i 0x02 (lowI f.rd f.rs1 f.imm8 6), 0)
  | .muli i f => (word i 0x02 (lowI f.rd f.rs1 f.imm8 7), 0)
  | .addi32 i f => (word i 0x22 (lowI f.rd f.rs1 f.imm8 0), f.imm32)
  | .andi32 i f => (word i 0x22 (lowI f.rd f.rs1 f.imm8 1), f.imm32)
  | .ori32 i f => (word i 0x22 (lowI f.rd f.rs1 f.imm8 2), f.imm32)
  | .xori32 i f => (word i 0x22 (lowI f.rd f.rs1 f.imm8 3), f.imm32)
  | .muli32 i f => (word i 0x22 (lowI f.rd f.rs1 f.imm8 7), f.imm32)
  | .li i f => (word i 0x22 (lowI f.rd f.rs1 f.imm8 8), f.imm32)
  | .ceq i f => (word i (if f.ext.isSome then 0x23 else 0x03) (lowR f.rd f.rs1 f.rs2 0), f.ext.getD 0)
  | .cne i f => (word i (if f.ext.isSome then 0x23 else 0x03) (lowR f.rd f.rs1 f.rs2 1), f.ext.getD 0)
  | .clt i f => (word i (if f.ext.isSome then 0x23 else 0x03) (lowR f.rd f.rs1 f.rs2 2), f.ext.getD 0)
  | .cltu i f => (word i (if f.ext.isSome then 0x23 else 0x03) (lowR f.rd f.rs1 f.rs2 3), f.ext.getD 0)
  | .cge i f => (word i (if f.ext.isSome then 0x23 else 0x03) (lowR f.rd f.rs1 f.rs2 4), f.ext.getD 0)
  | .cgeu i f => (word i (if f.ext.isSome then 0x23 else 0x03) (lowR f.rd f.rs1 f.rs2 5), f.ext.getD 0)
  | .pand i f => (word i 0x03 (lowR f.rd f.rs1 f.rs2 8), 0)
  | .por i f => (word i 0x03 (lowR f.rd f.rs1 f.rs2 9), 0)
  | .pxor i f => (word i 0x03 (lowR f.rd f.rs1 f.rs2 10), 0)
  | .pnot i f => (word i 0x03 (lowR f.rd f.rs1 f.rs2 11), 0)
  | .br i off => (word i 0x04 off.toNat, 0)
  | .call i off => (word i 0x05 off.toNat, 0)
  | .aadd i f => (word i 0x06 (lowR f.rd f.rs1 f.rs2 0), 0)
  | .aaddu i f => (word i 0x06 (lowR f.rd f.rs1 f.rs2 1), 0)
  | .amov i f => (word i 0x06 (lowR f.rd f.rs1 f.rs2 2), 0)
  | .afromg i f => (word i 0x06 (lowR f.rd f.rs1 f.rs2 3), 0)
  | .alog i f => (word i 0x06 (lowR f.rd f.rs1 f.rs2 4), 0)
  | .ahig i f => (word i 0x06 (lowR f.rd f.rs1 f.rs2 5), 0)
  | .asethi i f => (word i 0x06 (lowR f.rd f.rs1 f.rs2 6), 0)
  | .ashl i f => (word i 0x06 (lowR f.rd f.rs1 f.rs2 7), 0)
  | .gets i f => (word i 0x06 (lowR f.rd f.rs1 f.rs2 16), 0)
  | .getsa i f => (word i 0x06 (lowR f.rd f.rs1 f.rs2 17), 0)
  | .puts i f => (word i 0x06 (lowR f.rd f.rs1 f.rs2 18), 0)
  | .jmp i f => (word i 0x06 (lowR f.rd f.rs1 f.rs2 20), 0)
  | .aaddi i f => (word i 0x26 (lowR f.rd f.rs1 f.rs2 0), f.imm32)
  | .alo i f => (word i 0x26 (lowR f.rd f.rs1 f.rs2 1), f.imm32)
  | .ahi i f => (word i 0x26 (lowR f.rd f.rs1 f.rs2 2), f.imm32)
  | .ldb i f => (word i (if f.ext.isSome then 0x28 else 0x08) (lowM f 0), f.ext.getD 0)
  | .ldbs i f => (word i (if f.ext.isSome then 0x28 else 0x08) (lowM f 1), f.ext.getD 0)
  | .ldh i f => (word i (if f.ext.isSome then 0x28 else 0x08) (lowM f 2), f.ext.getD 0)
  | .ldhs i f => (word i (if f.ext.isSome then 0x28 else 0x08) (lowM f 3), f.ext.getD 0)
  | .ldw i f => (word i (if f.ext.isSome then 0x28 else 0x08) (lowM f 4), f.ext.getD 0)
  | .lda i f => (word i (if f.ext.isSome then 0x28 else 0x08) (lowM f 5), f.ext.getD 0)
  | .ldq i f => (word i (if f.ext.isSome then 0x28 else 0x08) (lowM f 6), f.ext.getD 0)
  | .stb i f => (word i (if f.ext.isSome then 0x29 else 0x09) (lowM f 0), f.ext.getD 0)
  | .sth i f => (word i (if f.ext.isSome then 0x29 else 0x09) (lowM f 2), f.ext.getD 0)
  | .stw i f => (word i (if f.ext.isSome then 0x29 else 0x09) (lowM f 4), f.ext.getD 0)
  | .sta i f => (word i (if f.ext.isSome then 0x29 else 0x09) (lowM f 5), f.ext.getD 0)
  | .stq i f => (word i (if f.ext.isSome then 0x29 else 0x09) (lowM f 6), f.ext.getD 0)
  | .atomAdd i f => (word i 0x0A (lowA f 0), 0)
  | .atomOr i f => (word i 0x0A (lowA f 1), 0)
  | .atomAnd i f => (word i 0x0A (lowA f 2), 0)
  | .atomXor i f => (word i 0x0A (lowA f 3), 0)
  | .atomMaxu i f => (word i 0x0A (lowA f 4), 0)
  | .atomMinu i f => (word i 0x0A (lowA f 5), 0)
  | .atomMax i f => (word i 0x0A (lowA f 6), 0)
  | .atomMin i f => (word i 0x0A (lowA f 7), 0)
  | .atomXchg i f => (word i 0x0A (lowA f 8), 0)
  | .cas i f x => (word i 0x2A (lowA f 0), x)
  | .cpy i f => (word i 0x0C (lowC f), 0)
  | .cpym i f x => (word i 0x2C (lowC f), x)
  | .cset i f => (word i 0x0D (2 ^ 17 * f.g.toNat + 2 ^ 14 * f.ac.toNat + 2 ^ 12 * 0 + f.reserved.toNat), 0)
  | .cget i f => (word i 0x0D (2 ^ 17 * f.g.toNat + 2 ^ 14 * f.ac.toNat + 2 ^ 12 * 1 + f.reserved.toNat), 0)
  | .cwait i f => (word i 0x0D (2 ^ 17 * f.g.toNat + 2 ^ 14 * f.ac.toNat + 2 ^ 12 * 2 + f.reserved.toNat), 0)
  | .madd i f => (word i 0x0E (2 ^ 17 * f.g.toNat + 2 ^ 13 * f.ab.toNat + 2 ^ 12 * f.remote.toNat + 2 ^ 10 * 0 + f.mark.toNat), 0)
  | .msub i f => (word i 0x0E (2 ^ 17 * f.g.toNat + 2 ^ 13 * f.ab.toNat + 2 ^ 12 * f.remote.toNat + 2 ^ 10 * 1 + f.mark.toNat), 0)
  | .mwait i f => (word i 0x0E (2 ^ 17 * f.g.toNat + 2 ^ 13 * f.ab.toNat + 2 ^ 12 * f.remote.toNat + 2 ^ 10 * 2 + f.mark.toNat), 0)
  | .mbar i f => (word i 0x0E (2 ^ 17 * f.g.toNat + 2 ^ 13 * f.ab.toNat + 2 ^ 12 * f.remote.toNat + 2 ^ 10 * 3 + f.mark.toNat), 0)
  | .take i f => (word i 0x0F (2 ^ 17 * f.gd.toNat + 2 ^ 14 * f.pd.toNat + 2 ^ 12 * 0 + f.reserved.toNat), 0)
  | .steal i f => (word i 0x0F (2 ^ 17 * f.gd.toNat + 2 ^ 14 * f.pd.toNat + 2 ^ 12 * 1 + f.reserved.toNat), 0)
  | .done i f => (word i 0x0F (2 ^ 17 * f.gd.toNat + 2 ^ 14 * f.pd.toNat + 2 ^ 12 * 2 + f.reserved.toNat), 0)
  | .sleep i f => (word i 0x10 (2 ^ 17 * f.g.toNat + 2 ^ 12 * f.g2.toNat + 2 ^ 4 * f.imm8.toNat + 0), 0)
  | .halt i f => (word i 0x10 (2 ^ 17 * f.g.toNat + 2 ^ 12 * f.g2.toNat + 2 ^ 4 * f.imm8.toNat + 1), 0)
  | .trap i f => (word i 0x10 (2 ^ 17 * f.g.toNat + 2 ^ 12 * f.g2.toNat + 2 ^ 4 * f.imm8.toNat + 2), 0)
  | .fence i f => (word i 0x10 (2 ^ 17 * f.g.toNat + 2 ^ 12 * f.g2.toNat + 2 ^ 4 * f.imm8.toNat + 3), 0)
  | .astream i f => (word i 0x11 (lowArr f 0), 0)
  | .adrain i f => (word i 0x11 (lowArr f 1), 0)
  | .aclear i f => (word i 0x11 (2 ^ 20 * 2 + 2 ^ 18 * f.strip.toNat + 2 ^ 12 * f.sb.toNat + 2 ^ 6 * f.cntM1.toNat + 2 ^ 5 * f.krst.toNat + f.reserved.toNat), 0)
  | .astat i f => (word i 0x11 (2 ^ 20 * 3 + 2 ^ 15 * f.g.toNat + 2 ^ 14 * f.clr.toNat + f.reserved.toNat), 0)
  | .amode i f => (word i 0x31 (2 ^ 17 * f.mode.toNat + 2 ^ 14 * f.layout.toNat + 2 ^ 12 * f.gang.toNat + 2 ^ 10 * f.grow.toNat + 2 ^ 8 * f.gcol.toNat +
      2 ^ 7 * f.ord6.toNat + f.reserved.toNat), f.fmts)
  | .awload i f x => (word i 0x31 (lowArr f 1), x)
  | _ => (0, 0)

/-- The state in which a core's instruction buffer holds the words of an instruction at its PC. -/
def spelling (c : CoreId) (ins : Instr) (s : State) : State :=
  s.modCore c (fun k => { k with ibuf := [(k.pc.toNat, (wordsOf ins).1), (k.pc.toNat + 4, (wordsOf ins).2)] })
/-- Core 0 runs an instruction that its words spell. -/
def run (ins : Instr) (s : State) : Host.Outcome State Fault Refusal := exec ins (spelling c0 ins s)
/-- Core 0 is ready for an instruction, which its words spell. -/
def Spelt (s : State) (ins : Instr) (n : Nat) (reads : List CReg) : Prop :=
  Ready (spelling c0 ins s) i0 n reads ∧ (spelling c0 ins s).spells i0 ins = true


-- WellFormed: one ill-formed command for each check

def shortFlit : Flit := { fec0 := true, fec1 := true, bytes := [0] }
def ctrl0 : CtrlFlit := { rxseq := 0, crMem := 0, crRsp := 0, crMgmt := 0, retry := [] }
def param0 : ParamMsg :=
  { smod := 0, sport := 0, jobId := 0, modNum := 0, flow6 := false, epoch := 0, crMem := 0, crRsp := 0, crMgmt := 0, mapsum := 0 }
def memMsg0 : MemMsg :=
  { mt := 0, op := 0, flag := false, dord := false, posted := false, w64 := false, epoch := 0, hop := 0, status := 0, smod := 0, stract := 0, tag := 0,
    addr := 0, opd := 0, cmp := 0, len := 0, pmask := 0, data := [] }
def hdr0 : FrameHdr := { kind := 0, reason := 0, table := 0, pos := 0, smod := 0, sport := 0, inst := 0, step := 0, len := 0, dmod := 0 }
def time0 : TimeFrame := { hop := 0, master := 0, mt := 0, corr := 0, valid := true }
def side0 : SideFrame := { dmod := 0, smod := 0, payload := [] }
def token0 : Token := { body := [], esig := [], lsig := [] }
def vote0 : BoundaryMsg := { smod := 0, down := false, done := 0, hasPlan := false, planId := 0, closure := true }

theorem test_ill_accesses :
    (Instr.registerWrite { offset := 0, size := 3, value := 0 }).wellFormed = false ∧
    (Instr.registerWrite { offset := 2 ^ 26 - 4, size := 8, value := 0 }).wellFormed = false ∧
    (Instr.registerWrite { offset := 0, size := 1, value := 256 }).wellFormed = false ∧
    (Instr.hostApertureAccess (.read (2 ^ 36) 1)).wellFormed = false ∧
    (Instr.hostApertureAccess (.write (2 ^ 36) [0] false)).wellFormed = false ∧
    (Instr.stagingWrite (2 ^ 25) [0]).wellFormed = false ∧ (Instr.dbgNonceRead 32 1).wellFormed = false ∧
    (Instr.unlock token0).wellFormed = false := by decide
theorem test_ill_messages :
    (Instr.flitReceive 0 shortFlit).wellFormed = false ∧ (Instr.ctrlFlit 0 { ctrl0 with rxseq := 4096 }).wellFormed = false ∧
    (Instr.param 0 { param0 with modNum := 4096 }).wellFormed = false ∧ (Instr.linkUp 0 { param0 with epoch := 256 }).wellFormed = false ∧
    (Instr.memoryMessage 0 { memMsg0 with mt := 16 }).wellFormed = false ∧ (Instr.memoryMessage 0 { memMsg0 with len := 129 }).wellFormed = false ∧
    (Instr.contentFrame 0 { hdr0 with pos := 4096 } []).wellFormed = false ∧ (Instr.emptyFrame 0 { hdr0 with len := 393217 }).wellFormed = false ∧
    (Instr.timeFrame { time0 with hop := 256 }).wellFormed = false ∧ (Instr.sideFrame { side0 with dmod := 4096 }).wellFormed = false ∧
    (Instr.timexfer 0 { phase := 0, t1 := 0, t2 := 0, t3 := 0, t4 := 0 }).wellFormed = false ∧ (Instr.abortNotice 4096 0).wellFormed = false ∧
    (Instr.boundary { vote0 with smod := 4096 }).wellFormed = false := by decide
theorem test_ill_readings :
    (Instr.patrolScrub p0 0x48_0000 .clean).wellFormed = false ∧ (Instr.junctionSample 0 []).wellFormed = false ∧
    (Instr.dramTempSample 0 []).wellFormed = false := by decide
theorem test_well_formed :
    (Instr.registerWrite { offset := 2 ^ 26 - 4, size := 4, value := 2 ^ 32 - 1 }).wellFormed = true ∧
    (Instr.memoryMessage 0 memMsg0).wellFormed = true ∧ (Instr.patrolScrub p0 0x47_FFFF .clean).wellFormed = true ∧
    (Instr.add i0 { rd := 5, rs1 := 1, rs2 := 2 }).wellFormed = true := by decide

-- scalar instructions

theorem wit_ScalarRegisterResults :
    (∀ q ∈ scalarOps, Spelt s0 (q.1 i0 { rd := 5, rs1 := 1, rs2 := 2 }) 4 [.g 1, .g 2]) ∧
    (∀ c ∈ [Instr.clz i0 { rd := 5, rs1 := 2, rs2 := 0 }, .popc i0 { rd := 5, rs1 := 2, rs2 := 0 }], Spelt s0 c 4 [.g 2]) := by unfold Spelt Ready; decide


theorem test_add_wraps : gAfter (run (.add i0 { rd := 5, rs1 := 1, rs2 := 2 }) s0) 5 = some 5 := by decide
theorem test_mulhs_sign : gAfter (run (.mulhs i0 { rd := 5, rs1 := 1, rs2 := 2 }) s0) 5 = some 0xFFFF_FFFF := by decide
def fr (rd rs1 rs2 : BitVec 5) : FmtR := { rd := rd, rs1 := rs1, rs2 := rs2 }
theorem test_popc : gAfter (run (.popc i0 (fr 5 2 0)) s0) 5 = some 31 := by decide
theorem test_clz : gAfter (run (.clz i0 (fr 5 4 0)) s0) 5 = some 0 ∧ gAfter (run (.clz i0 (fr 5 0 0)) s0) 5 = some 32 := by decide
theorem wit_ImmediateResults :
    (∀ q ∈ immediateOps, q.2.1 31 = true ∧ Spelt s0 (q.1 i0 { rd := 5, rs1 := 2, imm8 := 31 }) 4 [.g 2]) ∧
    (∀ q ∈ longOps, Spelt s0 (q.1 i0 { rd := 5, rs1 := 2, imm8 := 0, imm32 := 0xFFFF_FFFF }) 8 [.g 2]) ∧
    Spelt s0 (.li i0 { rd := 5, rs1 := 0, imm8 := 0, imm32 := 0xFFFF_FFFF }) 8 [] := by unfold Spelt Ready; decide
theorem test_addi_sign : gAfter (run (.addi i0 { rd := 5, rs1 := 1, imm8 := 0xF8 }) s0) 5 = some 0xFFFF_FFFF := by decide
theorem test_andi_zero : gAfter (run (.andi i0 { rd := 5, rs1 := 2, imm8 := 0xFF }) s0) 5 = some 0xFE := by decide
theorem test_srai : gAfter (run (.srai i0 { rd := 5, rs1 := 4, imm8 := 31 }) s0) 5 = some 0xFFFF_FFFF := by decide
theorem wit_PredicateResults : (7 : BitVec 5).toNat < 8 ∧
    (∀ q ∈ compareOps, Spelt s0 (q.1 i0 { rd := 7, rs1 := 1, rs2 := 2, ext := none }) 4 [.g 1, .g 2] ∧
      Spelt s0 (q.1 i0 { rd := 7, rs1 := 1, rs2 := 0, ext := some 9 }) 8 [.g 1]) ∧
    (∀ q ∈ predicateOps, Spelt s0 (q.1 i0 (fr 7 0 7)) 4 []) ∧ Spelt s0 (.pnot i0 (fr 7 7 0)) 4 [] := by unfold Spelt Ready; decide
theorem test_clt_signed : after (run (.clt i0 { rd := 7, rs1 := 2, rs2 := 1, ext := none }) s0) (fun t => (t.core c0).getP 7) = some true ∧
    after (run (.cltu i0 { rd := 7, rs1 := 2, rs2 := 1, ext := none }) s0) (fun t => (t.core c0).getP 7) = some false := by decide
/-- a1 is an aligned target above 2^32. -/
def sJmp : State := withCore { k0 with a := k0.a.set 1 0x5_0000_0100 }
theorem wit_BranchResults :
    Spelt sJmp (.br i0 (-1)) 4 [] ∧ Spelt sJmp (.call i0 0x1F_FFFF) 4 [] ∧ Spelt sJmp (.jmp i0 (fr 0 1 0)) 4 [] ∧
    ∀ s ∈ [spelling c0 (.jmp i0 (fr 0 1 0)) sJmp], (s.core c0).operandWait [.a 1] = none ∧ ((s.core c0).getA 1).toNat % 4 = 0 := by unfold Spelt Ready; decide
theorem test_br_back : pcAfter (run (.br i0 (-1)) sJmp) = some 0x3_FFFC := by decide
theorem test_call_links : aAfter (run (.call i0 4) sJmp) 15 = some 4 ∧ pcAfter (run (.call i0 4) sJmp) = some 16 := by decide
theorem test_jmp : pcAfter (run (.jmp i0 (fr 0 1 0)) sJmp) = some 0x100 := by decide
theorem wit_AddressResults : (15 : BitVec 5).toNat < 16 ∧
    (∀ c ∈ [Instr.aadd i0 (fr 15 1 2), .aaddu i0 (fr 15 1 2), .ashl i0 (fr 15 1 2)], Spelt sJmp c 4 [.a 1, .g 2]) ∧
    (∀ c ∈ [Instr.amov i0 (fr 15 1 0), .alog i0 (fr 5 1 0), .ahig i0 (fr 5 1 0)], Spelt sJmp c 4 [.a 1]) ∧
    Spelt sJmp (.afromg i0 (fr 15 2 0)) 4 [.g 2] := by unfold Spelt Ready; decide
theorem wit_AddressResults_long : Spelt sJmp (.asethi i0 (fr 15 2 0)) 4 [.g 2, .a 15] ∧
    Spelt sJmp (.aaddi i0 { rd := 15, rs1 := 1, rs2 := 0, imm32 := 9 }) 8 [.a 1] ∧
    ∀ c ∈ [Instr.alo i0 { rd := 15, rs1 := 0, rs2 := 0, imm32 := 9 }, .ahi i0 { rd := 15, rs1 := 0, rs2 := 0, imm32 := 9 }], Spelt sJmp c 8 [.a 15] := by unfold Spelt Ready; decide
theorem test_aadd_sign : aAfter (run (.aadd i0 (fr 15 1 2)) sJmp) 15 = some 0x5_0000_00FE := by decide
theorem test_aaddu_zero : aAfter (run (.aaddu i0 (fr 15 1 2)) sJmp) 15 = some 0x6_0000_00FE := by decide
theorem test_ahi : aAfter (run (.ahi i0 { rd := 1, rs1 := 0, rs2 := 0, imm32 := 9 }) sJmp) 1 = some 0x9_0000_0100 := by decide
/-- The last core of the module. -/
def c1 : CoreId := { tract := 11, parcel := 1359, core := 63 }
def sLast : State := { State.reset with cores := [(c1, k0)] }
theorem wit_StateRegisterAccess :
    (∀ n ∈ [(0 : BitVec 5), 1, 3, 4, 9], Spelt s0 (.gets i0 (fr 5 n 0)) 4 []) ∧ (∀ n ∈ [(6 : BitVec 5), 7, 8, 10], Spelt s0 (.getsa i0 (fr 15 n 0)) 4 []) ∧
    Spelt s0 (.puts i0 (fr 9 1 0)) 4 [.g 1] := by unfold Spelt Ready; decide
theorem test_gets_id :
    after (exec (.gets { i0 with core := c1 } (fr 5 0 0)) (spelling c1 (.gets i0 (fr 5 0 0)) sLast)) (fun t => (t.core c1).getG 5) =
      some (63 + 64 * 1359 + 2 ^ 17 * 11) := by decide
theorem test_puts_clears : after (run (.puts i0 (fr 9 1 0)) (withCore { k0 with arriveSt := 0x0A })) (fun t => (t.core c0).arriveSt) = some 0x08 := by
  decide
def fm0 : FmtM := { rt := 0, ab := 0, space := 0, off8 := 0, ext := none }
theorem wit_GuardFailsSkips :
    ∀ c ∈ [Instr.add iNever (fr 5 1 2), .li iNever { rd := 5, rs1 := 0, imm8 := 0, imm32 := 9 }, .br iNever 3, .stw iNever fm0,
      .take iNever { gd := 4, pd := 7, reserved := 0 }], ∀ s ∈ [spelling c0 c s0],
      (s.core c0).run = .running ∧ (s.core c0).pwr = .run ∧ (s.core c0).wait = none ∧ (s.parcel p0).health.retired = false ∧ s.dead 0 = false ∧
      s.fetchBad iNever 4 = false ∧ s.fetchBad iNever 8 = false ∧ (wordOffsets (s.core c0).pc.toNat 8).all (s.core c0).inProgram = true ∧
      (s.core c0).guardOk iNever.guard = false ∧ guardBad iNever.guard = false ∧ s.spells iNever c = true := by decide
theorem test_guard_skips : gAfter (run (.add iNever (fr 5 1 2)) s0) 5 = some 0 ∧ pcAfter (run (.add iNever (fr 5 1 2)) s0) = some 4 := by decide
def iBadAdd : Instr := .add iBad (fr 5 1 1)
theorem wit_ReservedEncodingsRaiseIllegal :
    ∀ q ∈ [(i0, spelling c0 (.shli i0 { rd := 5, rs1 := 1, imm8 := 32 }) s0), (i0, spelling c0 (.clz i0 (fr 5 1 1)) s0),
      (i0, spelling c0 (.li i0 { rd := 5, rs1 := 0, imm8 := 1, imm32 := 0 }) s0), (i0, spelling c0 (.fence i0 { g := 0, g2 := 0, imm8 := 64 }) s0), (iBad, spelling c0 iBadAdd s0), (i0, s0)],
      (q.2.core c0).run = .running ∧ (q.2.core c0).pwr = .run ∧ (q.2.core c0).wait = none ∧
      (q.2.parcel p0).health.retired = false ∧ q.2.dead 0 = false ∧ q.1.fetch = false ∧
      (q.2.core c0).fetchedWords q.1 8 = [] ∧ (q.2.core c0).arr.cfg = none ∧ q.2.up.restore = .idle ∧
      (wordOffsets (q.2.core c0).pc.toNat 8).all (q.2.core c0).inProgram = true ∧ (q.2.fab 0).collector = [] := by decide
theorem wit_ReservedEncodingsRaiseIllegal_forms :
    (∀ q ∈ [(i0, Instr.shli i0 { rd := 5, rs1 := 1, imm8 := 32 }), (i0, .clz i0 (fr 5 1 1)), (i0, .li i0 { rd := 5, rs1 := 0, imm8 := 1, imm32 := 0 }),
      (i0, .fence i0 { g := 0, g2 := 0, imm8 := 64 }), (iBad, iBadAdd)], (spelling c0 q.2 s0).spells q.1 q.2 = true) ∧
    guardBad iBad.guard = true ∧ (decodeCore i0 (s0.wordAt i0 0) (s0.wordAt i0 4)).isNone = true := by decide
/-- The all-zero word, words of a reserved major opcode and of a reserved FUNC, and AMODE's major with SUB 0b10 spell nothing (R37, R38, R86). -/
theorem test_reserved_words :
    (decodeCore i0 0 0).isNone = true ∧ (decodeCore i0 0x1C00_0000 0).isNone = true ∧ (decodeCore i0 0x0400_0012 0).isNone = true ∧
      (decodeCore i0 0xC420_0000 0).isNone = true := by decide
/-- ADD g5, g1, g2 and AWLOAD, bit by bit. -/
theorem test_words :
    decodeCore i0 0b000001_0_000_00101_00001_00010_0000000 0 = some (.add i0 (fr 5 1 2)) ∧
    decodeCore i0 0b110001_1_010_01_01_0001_0010_00011_00000 7 =
      some (.awload { i0 with guard := { neg := true, pred := 2 } } { strip := 1, a1 := 1, a2 := 2, g := 3, reserved := 0 } 7) := by decide
theorem test_illegal : after (run (.shli i0 { rd := 5, rs1 := 1, imm8 := 32 }) s0) (fun t => ((t.core c0).run, (t.core c0).pwr)) =
    some (.stopped, .sleep) := by decide
/-- A row that its words do not spell has no effect; the zero word raises ILLEGAL. -/
theorem test_other_word : after (exec (.add i0 (fr 5 1 2)) (spelling c0 (.sub i0 (fr 5 1 2)) s0)) (fun t => ((t.core c0).run, (t.core c0).pc)) =
      some (.running, 0) ∧ after (exec (.add i0 (fr 5 1 2)) s0) (fun t => (t.core c0).run) = some .stopped := by decide

-- memory


/-- a1 names the last 16 bytes of the local store, where 80 FF 01 02 lie; a2 a word of the commons; a3 the last word of the slice. -/
def kMem : Core := { k0 with a := ((k0.a.set 1 0x5FF0).set 2 0x40).set 3 0x47F_FFF0 }
def sMem : State :=
  { withCore kMem with
    mem := { Mem.reset with
      bytes := [(commonsKey p0 0x40, 5), (storeKey c0 0x5FF0, 0x80), (storeKey c0 0x5FF1, 0xFF), (storeKey c0 0x5FF2, 1),
        (storeKey c0 0x5FF3, 2)] } }
def fm (rt : BitVec 5) (ab : BitVec 4) (space : BitVec 2) : FmtM := { rt := rt, ab := ab, space := space, off8 := 0, ext := none }


theorem wit_LocalLoadResults :
    ∀ c ∈ [Instr.ldb i0 (fm 5 1 0), .ldbs i0 (fm 5 1 0), .ldh i0 (fm 5 1 0), .ldhs i0 (fm 5 1 0), .ldw i0 (fm 5 1 0), .lda i0 (fm 5 1 0), .ldq i0 (fm 8 1 0)],
      Spelt sMem c 4 [.a 1] ∧ ∀ s ∈ [spelling c0 c sMem],
      (s.core c0).astatQueued = none ∧ fmtMOffset (s.core c0) (fm 5 1 0) 16 % 16 = 0 ∧ fmtMOffset (s.core c0) (fm 5 1 0) 16 + 16 = 0x6000 ∧
      Clean s (storeKey c0 (fmtMOffset (s.core c0) (fm 5 1 0) 16)) 16 ∧ s.mem.wf = true := by unfold Spelt Ready Clean; decide
/-- The extended form reads at IMM32 beyond the register. -/
theorem wit_LocalLoadResults_ext : Spelt sMem (.ldw i0 { fm 5 1 0 with ext := some 0xFFFF_FFFC }) 8 [.a 1] ∧
    gAfter (run (.ldw i0 { fm 5 1 0 with ext := some 4 }) sMem) 5 = some 0 := by unfold Spelt Ready; decide
theorem test_ldbs : gAfter (run (.ldbs i0 (fm 5 1 0)) sMem) 5 = some 0xFFFF_FF80 := by decide
theorem test_ldw : gAfter (run (.ldw i0 (fm 5 1 0)) sMem) 5 = some 0x0201_FF80 := by decide
theorem test_ldq : gAfter (run (.ldq i0 (fm 4 1 0)) sMem) 4 = some 0x0201_FF80 := by decide

theorem wit_LoadsElsewhereWait :
    ∀ c ∈ [Instr.ldw i0 (fm 5 3 2), .lda i0 (fm 5 3 2), .ldq i0 (fm 4 3 2)], Spelt sMem c 4 [.a 3] ∧ ∀ s ∈ [spelling c0 c sMem],
      (s.core c0).loadsOpen < 8 ∧ fmtMOffset (s.core c0) (fm 5 3 2) 16 % 16 = 0 ∧
      fmtMOffset (s.core c0) (fm 5 3 2) 16 + 16 = spaceSize 2 := by unfold Spelt Ready; decide
theorem test_load_outstanding : after (run (.ldw i0 (fm 5 2 1)) sMem) (fun t => (t.core c0).loads.map (fun l => (l.space, l.pc, l.size))) =
    some [(1, 0, 4)] := by decide

/-- An outstanding load of g5 whose response has come. -/
def anyLoad (st : Nat) (bad : Bool) : OutLoad :=
  { atom := false, stopped := none, parts := [{ reg := .g 5, lo := 0, len := 4, sext := false }], space := 1, pc := 0, addr := 0x40, size := 4, gen := none,
    resp := some { status := st, data := [5, 0, 0, 0], poison := b2n bad } }
def sLoad (st : Nat) (bad : Bool) : State := withCore { k0 with loads := [anyLoad st bad] }

theorem wit_LoadResponseWrites :
    ∀ q ∈ [(0, false), (1, false), (0, true)], ∀ s ∈ [sLoad q.1 q.2], (s.core c0).loads[0]? = some (anyLoad q.1 q.2) ∧ (s.core c0).run = .running ∧
      (s.core c0).wait = none ∧ (s.core c0).rels = [] ∧ (s.core c0).arr.cfg = none ∧ (s.fab 0).collector = [] ∧ s.up.restore = .idle ∧
      ((anyLoad q.1 q.2).parts.map (fun x => x.reg)).Nodup ∧ (anyLoad q.1 q.2).stopped = none := by decide
theorem wit_LoadResponseWrites_stopped : ∀ s ∈ [withCore { k0 with run := .stopped, loads := [anyLoad 0 false] }],
    (s.core c0).loads[0]? = some (anyLoad 0 false) ∧ (s.core c0).run ≠ .running ∧ (s.core c0).wait = none ∧ (s.core c0).rels = [] := by decide
theorem test_load_response : gAfter (exec (.loadResponse c0 0) (sLoad 0 false)) 5 = some 5 := by decide
theorem test_load_poison : after (exec (.loadResponse c0 0) (sLoad 0 true)) (fun t => (t.core c0).run) = some .stopped := by decide

/-- The store operands of each row: rt 4 suits all five. -/
theorem wit_StoresWriteTheirBytes :
    ∀ q ∈ storeOps, q.2.2.1 4 = true ∧ Spelt sMem (q.1 i0 (fm 4 1 0)) 4 (.a 1 :: q.2.2.2.1 4) ∧ ∀ s ∈ [spelling c0 (q.1 i0 (fm 4 1 0)) sMem],
      s.mem.wf = true ∧ s.holds c0 = false ∧ fmtMOffset (s.core c0) (fm 4 1 0) 16 % 16 = 0 ∧ fmtMOffset (s.core c0) (fm 4 1 0) 16 + 16 = spaceSize 0 ∧
      Clean s (spaceKey c0 0 0x5FF0) 16 := by unfold Spelt Ready Clean; decide
theorem wit_StoresWriteTheirBytes_elsewhere :
    ∀ q ∈ [((2 : BitVec 4), (1 : BitVec 2), 0x40), (3, 2, 0x47F_FFF0)], Spelt sMem (.stq i0 (fm 4 q.1 q.2.1)) 4 [.a q.1, .g 4, .g 5, .g 6, .g 7] ∧
      ∀ s ∈ [spelling c0 (.stq i0 (fm 4 q.1 q.2.1)) sMem], fmtMOffset (s.core c0) (fm 4 q.1 q.2.1) 16 = q.2.2 ∧ s.cmOwned 0 0x40 = false ∧
      s.inReplica (spaceKey c0 2 0x47F_FFF0) 16 = false ∧ s.storesUse c0 < 16 ∧ Clean s (spaceKey c0 q.2.1 q.2.2) 16 := by
  unfold Spelt Ready Clean; decide
theorem test_stw : after (run (.stw i0 (fm 3 2 1)) sMem) (fun t => t.mem.read (commonsKey p0 0x40) 4) = some [0x05, 0x01, 0, 0] := by decide
theorem test_stb_keeps_neighbours : after (run (.stb i0 (fm 3 1 0)) sMem) (fun t => t.mem.read (storeKey c0 0x5FF0) 4) =
    some [0x05, 0xFF, 1, 2] := by decide

/-- a1 misaligned, a2 past the store, a3 in the marks, a4 of tract 12. -/
def sBad : State := withCore { k0 with a := (((k0.a.set 1 2).set 2 0x6000).set 3 0x3_F000).set 4 0xC_0000_0000_0000 }
theorem wit_BadAccessesAreStopped :
    ∀ q ∈ [((1 : BitVec 4), (0 : BitVec 2)), (2, 0), (4, 3), (3, 1)], Spelt sBad (.stw i0 (fm 5 q.1 q.2)) 4 [.a q.1, .g 5] ∧
      ∀ s ∈ [spelling c0 (.stw i0 (fm 5 q.1 q.2)) sBad], (s.core c0).fetchedWords i0 4 = [] ∧ (s.core c0).arr.cfg = none ∧ s.up.restore = .idle ∧
        (s.fab 0).collector = [] ∧ fmtMOffset (s.core c0) (fm 5 1 0) 4 % 4 ≠ 0 ∧
        (fmtMOffset (s.core c0) (fm 5 2 0) 4 % 4 = 0 ∧ spaceSize 0 < fmtMOffset (s.core c0) (fm 5 2 0) 4 + 4) ∧
        (fmtMOffset (s.core c0) (fm 5 4 3) 4 % 4 = 0 ∧ gaTract (fmtMOffset (s.core c0) (fm 5 4 3) 4) = 12) ∧
        (fmtMOffset (s.core c0) (fm 5 3 1) 4 % 4 = 0 ∧ fmtMOffset (s.core c0) (fm 5 3 1) 4 + 4 ≤ 0x4_0000 ∧
          s.cmOwned 0 (fmtMOffset (s.core c0) (fm 5 3 1) 4) = true) := by unfold Spelt Ready; decide
theorem test_bad_accesses :
    (([(fm 5 1 0, 3), (fm 5 2 0, 4), (fm 5 4 3, 6), (fm 5 3 1, 5)] : List (FmtM × Nat)).all (fun q =>
      after (run (.stw i0 q.1) sBad) (fun t => (t.fab 0).collector.map (fun r => (r.cls, fieldAt r.detail 0 1))) == some [(.coreFault, q.2)])) = true := by
  decide

def fa (rd : BitVec 5) (ab : BitVec 4) (rs : BitVec 5) : FmtA := { rd := rd, ab := ab, space := 1, size := false, rs := rs }
theorem wit_AtomicsUpdateOneWord :
    ∀ q ∈ atomOps, (spelling c0 (q.1 i0 (fa 5 2 1)) sMem).spells i0 (q.1 i0 (fa 5 2 1)) = true ∧
      AtomRuns (spelling c0 (q.1 i0 (fa 5 2 1)) sMem) i0 (fa 5 2 1) 4 [] := by unfold AtomRuns Ready Clean; decide
theorem wit_AtomicsUpdateOneWord_cas : ∀ f ∈ [fa 6 2 8, { fa 6 2 8 with size := true }],
      (spelling c0 (.cas i0 f ((4 : BitVec 5).setWidth 32)) sMem).spells i0 (.cas i0 f ((4 : BitVec 5).setWidth 32)) = true ∧
      AtomRuns (spelling c0 (.cas i0 f ((4 : BitVec 5).setWidth 32)) sMem) i0 f 8 (pairOf f.size 4) := by
  unfold AtomRuns Ready Clean; decide
theorem test_atom_add : after (run (.atomAdd i0 (fa 5 2 1)) sMem) (fun t => (wordAt t (commonsKey p0 0x40), (t.core c0).loads.length)) =
    some (12, 1) := by decide
theorem test_cas_fails : after (run (.cas i0 (fa 0 2 1) 6) sMem) (fun t => wordAt t (commonsKey p0 0x40)) = some 5 := by decide

/-- g5 a length of 16 bytes; a copy of the last 16 bytes of the local store to the commons. -/
def kCopy : Core := { kMem with g := kMem.g.set 5 16, ac := kMem.ac.set 2 0xFFFF }
def sCopy : State := { sMem with cores := [(c0, kCopy)] }
def fcpy : FmtCpy := { ad := 2, dspace := 1, as_ := 1, sspace := 0, gl := 5, ac := 2, reserved := 0 }
theorem wit_CopyInstructionsStart :
    ∀ q ∈ [(Instr.cpy i0 fcpy, 4), (.cpym i0 fcpy ((0x3FF : BitVec 10).setWidth 32), 8)], Spelt sCopy q.1 q.2 [.a 1, .a 2, .g 5] ∧
      ∀ s ∈ [spelling c0 q.1 sCopy], (s.core c0).copies.length < 32 ∧
      (s.core c0).astatQueued = none ∧ ((s.core c0).getG 5).toNat = 16 ∧ ((s.core c0).getA 1).toNat + 16 = spaceSize 0 ∧ ((s.core c0).getA 1).toNat % 4 = 0 ∧
      ((s.core c0).getA 2).toNat + 16 ≤ spaceSize 1 ∧ ((s.core c0).getA 2).toNat % 4 = 0 ∧ s.cmOwned 0 (((s.core c0).getA 2).toNat + 15) = false := by unfold Spelt Ready; decide
def fn (g : BitVec 5) (ac : BitVec 3) : FmtN := { g := g, ac := ac, reserved := 0 }
theorem wit_CopyInstructionsStart_counters :
    Spelt sCopy (.cset i0 (fn 4 7)) 4 [.g 4] ∧ Spelt sCopy (.cget i0 (fn 4 7)) 4 [] ∧
    ∀ q ∈ [((2 : BitVec 3), 2 ^ 16 - 1), (0, 0)], Spelt sCopy (.cwait i0 (fn 4 q.1)) 4 [.g 4] ∧ ∀ s ∈ [spelling c0 (.cwait i0 (fn 4 q.1)) sCopy],
      (s.core c0).rels = [] ∧ ((s.core c0).getAc q.1 - ((s.core c0).getG 4).extractLsb' 0 16).toNat = q.2 := by unfold Spelt Ready; decide
theorem test_cpy_starts : after (run (.cpy i0 fcpy) sCopy) (fun t => ((t.core c0).copies.map (fun j => (j.src, j.dst, j.len)), (t.core c0).pc)) =
    some ([(0x5FF0, 0x40, 16)], 4) := by decide
theorem test_cwait_waits : after (run (.cwait i0 { g := 4, ac := 2, reserved := 0 }) sCopy) (fun t => (t.core c0).wait) =
    some (some (.cwait 2 0)) := by decide

def jCopy : CopyJob :=
  { sspace := 0, src := 0x5FF0, dspace := 1, dst := 0x40, len := 16, ac := 2, mark := none, genS := none, genD := none, after := [], stage := .flight }
def sLand : State := { sMem with cores := [(c0, { kCopy with copies := [jCopy] })] }
theorem wit_CopyLandingMovesAndCounts :
    (sLand.core c0).copies[0]? = some jCopy ∧ jCopy.after = [] ∧ jCopy.mark = none ∧ jCopy.genS = none ∧ jCopy.genD = none ∧ sLand.mem.wf = true ∧
      sLand.dead 0 = false ∧ Settled sLand c0 ∧ (sLand.core c0).wait = none ∧ jCopy.src + jCopy.len = spaceSize 0 ∧
      sLand.holds c0 = false ∧ Clean sLand (spaceKey c0 0 0x5FF0) 16 ∧ Clean sLand (spaceKey c0 1 0x40) 16 ∧
      sLand.inReplica (spaceKey c0 1 0x40) 16 = false := by unfold Settled Clean; decide
theorem test_copy_lands : after (exec (.copyLanding c0 0 []) sLand) (fun t => (t.mem.read (commonsKey p0 0x40) 4, (t.core c0).getAc 2,
    (t.core c0).copies.length)) = some ([0x80, 0xFF, 1, 2], 0, 0) := by decide

def fk (g : BitVec 5) (mark : BitVec 10) : FmtK := { g := g, ab := 0, remote := false, mark := mark }
/-- Mark 2 of the parcel holds 0xFFFFFFFE; g1 is 7. Mark 3 is a barrier of two participants at generation 5 with no arrival; g5 is its tag with
ARRIVE, g6 its tag with ARRIVE_WAIT. -/
def kMark : Core := { k0 with g := (k0.g.set 5 0x105).set 6 5 }
def sMark (count : Byte) : State :=
  { withCore kMark with
    mem := { Mem.reset with bytes := [(markKey p0 2, 0xFE), (markKey p0 2 + 1, 0xFF), (markKey p0 2 + 2, 0xFF), (markKey p0 2 + 3, 0xFF), (markKey p0 3, 5)] ++
      (if count = 0 then [] else [(markKey p0 3 + 1, count)]) }
    regs := [(parcelRegI .markBcfg p0 0, 3 + 1024 + 2 * 65536)] }
theorem wit_CountingMarks :
    ∀ c ∈ [Instr.madd i0 (fk 1 2), .msub i0 (fk 1 2), .mwait i0 (fk 1 2)], Spelt (sMark 0) c 4 [.g 1] ∧ ∀ s ∈ [spelling c0 c (sMark 0)],
      s.barrierN p0 2 = none ∧ s.mem.wf = true ∧ (s.core c0).arr.fault = none ∧ Settled s c0 ∧ (s.parcel p0).frozen.contains 2 = false ∧
      s.markDamaged p0 2 = false ∧ 2 ^ 31 ≤ (wordAt s (markKey p0 2) - (s.core c0).getG 1).toNat := by unfold Spelt Ready Settled; decide
theorem wit_CountingMarks_reached : Spelt (sMark 0) (.mwait i0 (fk 0 0x3FF)) 4 [.g 0] ∧ ∀ s ∈ [spelling c0 (.mwait i0 (fk 0 0x3FF)) (sMark 0)],
    s.barrierN p0 0x3FF = none ∧ s.markDamaged p0 0x3FF = false ∧ (wordAt s (markKey p0 0x3FF) - (s.core c0).getG 0).toNat = 0 := by
  unfold Spelt Ready; decide
theorem test_madd_wraps : after (run (.madd i0 (fk 1 2)) (sMark 0)) (fun t => (wordAt t (markKey p0 2), wordAt t (markKey p0 3))) = some (5, 5) := by
  decide
theorem test_mwait_waits : after (run (.mwait i0 (fk 1 2)) (sMark 0)) (fun t => (t.core c0).wait) = some (some (.mwait 2 7)) := by decide
theorem wit_BarrierArrivals :
    ∀ q ∈ [((0 : Byte), (5 : BitVec 5), 261), (1, 6, 5)], Spelt (sMark q.1) (.mbar i0 (fk q.2.1 3)) 4 [.g q.2.1] ∧
      ∀ s ∈ [spelling c0 (.mbar i0 (fk q.2.1 3)) (sMark q.1)], s.barrierN p0 3 = some 2 ∧ s.mem.wf = true ∧ (s.core c0).arr.fault = none ∧
      Settled s c0 ∧ (s.parcel p0).heldArr = [] ∧ (s.parcel p0).frozen.contains 3 = false ∧ s.markDamaged p0 3 = false ∧
      bitsOf (wordAt s (markKey p0 3)).toNat 31 20 = 0 ∧ ((s.core c0).getG q.2.1).toNat = q.2.2 ∧ bitsOf (wordAt s (markKey p0 3)).toNat 7 0 = 5 ∧
      bitsOf (wordAt s (markKey p0 3)).toNat 19 8 = q.1.toNat := by unfold Spelt Ready Settled; decide
theorem test_mbar_counts : after (run (.mbar i0 (fk 5 3)) (sMark 0)) (fun t => wordAt t (markKey p0 3)) = some 0x105 := by decide
theorem test_mbar_releases : after (run (.mbar i0 (fk 6 3)) (sMark 1)) (fun t => (wordAt t (markKey p0 3), (t.core c0).pc)) = some (6, 4) := by decide

-- tiles

def p1 : ParcelId := { tract := 0, parcel := 1 }
def tile (n : Nat) : TileEntry := { bytes := BitVec.ofNat 128 n, bad := false }
/-- Parcels 0 and the one south of it belong to plot 3, whose STEAL bit and PUSH threshold are as given. -/
def inPlot (ts : List TileEntry) : Parcel := { Parcel.reset with plot := some 3, tiles := ts }
def sTile (k : Core) (ts us : List TileEntry) (cfg : Nat) : State :=
  { withCore k with parcels := [(p0, inPlot ts), ({ tract := 0, parcel := 34 }, inPlot us)], regs := [(tractRegI .plotCfg 0 3, cfg)] }
def ft (pd : BitVec 3) : FmtT := { gd := 4, pd := pd, reserved := 0 }
def heldIn (d : BitVec 128) (s : State) : State :=
  { s with parcels := [(p0, { inPlot [] with held := [(0, { desc := d, first := none, audit := none })] })] }

/-- Core 0's g4 to g7 hold a descriptor of core 0's parcel with DM and mark 2, or with neither. -/
def kDm : Core := { k0 with g := k0.g.set 7 (0x800 + 2 * 0x10000) }
def dmDesc : BitVec 128 := BitVec.ofNat 128 (2 ^ 107 + 2 * 2 ^ 112 + 0x8000_0000)
theorem wit_DoneClearsTheRecord :
    ∀ q ∈ [(kDm, dmDesc), (k0, 0x8000_0000)], ∀ s ∈ [spelling c0 (.done i0 (ft 0)) (heldIn q.2 (sTile q.1 [] [] 1))], (s.parcel p0).plot ≠ none ∧
      Ready s i0 4 [.g 4, .g 5, .g 6, .g 7] ∧ s.spells i0 (.done i0 (ft 0)) = true ∧ (s.core c0).arr.fault = none ∧ (s.core c0).rels = [] ∧
      q.2 = (s.core c0).getG 7 ++ (s.core c0).getG 6 ++ (s.core c0).getG 5 ++ (s.core c0).getG 4 ∧
      (s.parcel p0).held = [(0, { desc := q.2, first := none, audit := none })] ∧ s.mem.wf = true ∧ Settled s c0 ∧
      (q.2.getLsbD 107 = true → bitsOf q.2.toNat 106 96 = 0 ∧ Counts s p0 (q.2.extractLsb' 112 10)) := by unfold Ready Settled Counts; decide
/-- Another descriptor is held, or none. -/
theorem wit_DoneClearsTheRecord_bad : ∀ s ∈ [spelling c0 (.done i0 (ft 0)) (heldIn 1 (sTile k0 [] [] 1)), spelling c0 (.done i0 (ft 0)) (sTile k0 [] [] 1)],
    Ready s i0 4 [.g 4, .g 5, .g 6, .g 7] ∧ (s.parcel p0).held.all (fun q => q.2.desc != 0x8000_0000) = true ∧ (s.fab 0).collector = [] ∧
      s.up.restore = .idle := by unfold Ready; decide
theorem wit_DoneClearsTheRecord_refused : Spelt (sTile k0 [] [] 1) (.steal i0 (ft 3)) 4 [] ∧ ((sTile k0 [] [] 1).parcel p0).plot ≠ none ∧
      bitOf ((sTile k0 [] [] 1).plotReg p0 .plotCfg) 3 = false ∧ (s0.parcel p0).plot = none ∧ Quietly s0 c0 ∧
      Spelt s0 (.take i0 (ft 3)) 4 [] ∧ Spelt s0 (.steal i0 (ft 3)) 4 [] ∧ Spelt s0 (.done i0 (ft 0)) 4 [.g 4, .g 5, .g 6, .g 7] := by
  unfold Spelt Ready Quietly; decide
theorem test_done_marks : after (run (.done i0 (ft 0)) (heldIn dmDesc (sTile kDm [] [] 1))) (fun t => wordAt t (markKey p0 2)) = some 1 := by decide


theorem test_done_clears : after (run (.done i0 (ft 0)) (heldIn 0x8000_0000 (sTile k0 [] [] 1))) (fun t => (t.parcel p0).held.length) = some 0 := by decide

theorem test_done_bad : after (run (.done i0 (ft 0)) (heldIn 1 (sTile k0 [] [] 1))) (fun t => (t.fab 0).collector.map (fun r => r.cls)) =
    some [.tileDoneBad] := by decide

def kTake (steal : Bool) : Core := { k0 with wait := some (.tile steal 4 2) }
theorem wit_TakeTakesTheHead :
    ∀ ts ∈ [[tile 5, tile 6], []], ∀ s ∈ [spelling c0 (.take i0 (ft 2)) (sTile k0 ts [] 1)], Ready s i0 4 [] ∧ s.spells i0 (.take i0 (ft 2)) = true ∧
      (s.parcel p0).plot ≠ none ∧ (s.parcel p0).retries = [] ∧ (s.parcel p0).audits = [] ∧ bitOf (s.plotReg p0 .plotRel) 1 = false ∧
      s.holds c0 = false ∧ (s.parcel p0).tiles = ts ∧ ∀ s' ∈ [sTile (kTake false) ts [] 1], (s'.core c0).wait = some (.tile false 4 2) ∧
      (s'.parcel p0).retries = [] ∧ (s'.parcel p0).audits = [] ∧ bitOf (s'.plotReg p0 .plotRel) 1 = false ∧ s'.holds c0 = false ∧
      (s'.parcel p0).tiles = ts := by unfold Ready; decide
theorem test_take_head : after (exec (.tileListOperation c0) (sTile (kTake false) [tile 5, tile 6] [] 1)) (fun t =>
    ((t.core c0).getG 4, (t.core c0).getP 2, (t.parcel p0).tiles)) = some (5, true, [tile 6]) := by decide
theorem test_take_empty : after (exec (.tileListOperation c0) (sTile (kTake false) [] [] 1)) (fun t => ((t.core c0).getG 4, (t.core c0).getP 2)) =
    some (0x8000_0000, false) := by decide
theorem wit_DoneClearsTheRecord_held (d : BitVec 128) :
    ((heldIn d (sTile k0 [] [] 1)).parcel p0).held.find? (fun q => decide (q.1 = 0)) = some (0, { desc := d, first := none, audit := none }) := rfl

def q0 : ParcelId := { tract := 0, parcel := 34 }
def sSteal : State := sTile { kTake true with steal := 2 } [tile 9] [tile 1, tile 2, tile 3] 9
theorem wit_StealConservesTiles :
    ∀ s ∈ [sSteal, spelling c0 (.steal i0 (ft 2)) (sTile { k0 with steal := 2 } [tile 9] [tile 1, tile 2, tile 3] 9)],
      bitOf (s.plotReg p0 .plotRel) 1 = false ∧ s.neighbour p0 (s.core c0).steal.toNat = some q0 ∧ q0 ≠ p0 ∧ s.holds c0 = false ∧
      (∀ x ∈ (s.parcel q0).tiles, x.bad = false) ∧ stealTail (s.parcel q0).tiles = 3 ∧ bitOf (s.plotReg p0 .plotCfg) 3 = true ∧
      (s.parcel q0).tiles.drop ((s.parcel q0).tiles.length - min ((3 + 1) / 2) (s.tileFree p0 + 1)) = [tile 2, tile 3] := by decide
theorem wit_StealConservesTiles_issue : (sSteal.core c0).wait = some (.tile true 4 2) ∧
    ∀ us ∈ [[tile 1], []], Spelt (sTile { k0 with steal := 2 } [] us 9) (.steal i0 (ft 2)) 4 [] ∧ ((sTile { k0 with steal := 2 } [] us 9).parcel p0).plot ≠ none := by
  unfold Spelt Ready; decide
theorem wit_StealConservesTiles_none :
    ([0, 1, 2, 3].all fun d => (((sTile { k0 with steal := 2 } [] [] 9).neighbour p0 d).map fun v =>
      stealTail ((sTile { k0 with steal := 2 } [] [] 9).parcel v).tiles).getD 0 == 0) = true := by decide
theorem test_steal : after (exec (.tileListOperation c0) sSteal) (fun t => ((t.core c0).getG 4, (t.parcel p0).tiles, (t.parcel q0).tiles)) =
    some (2, [tile 9, tile 3], [tile 1]) := by decide

/-- Core 0 sleeps for a tile with its list empty; the parcel south of it has three stealable entries and PUSH 2. -/
def sPush : State := sTile { k0 with wait := some (.sleep 5 1 0) } [] [tile 1, tile 2, tile 3] (9 + 2 * 16)
theorem wit_TilePushConservesTiles :
    bitOf (sPush.plotReg q0 .plotCfg) 3 = true ∧ bitsOf (sPush.plotReg q0 .plotCfg) 11 4 = 2 ∧ stealTail (sPush.parcel q0).tiles = 3 ∧
      sPush.neighbour q0 0 = some p0 ∧ (sPush.parcel p0).tiles = [] ∧ sPush.sleepsForTile p0 = true ∧
      (∀ x ∈ (sPush.parcel q0).tiles, x.bad = false) ∧ (sPush.parcel q0).tiles.length ≤ sPush.tileFree p0 := by decide
theorem test_push : after (exec (.tilePush q0) sPush) (fun t => ((t.parcel q0).tiles, (t.parcel p0).tiles)) = some ([tile 1], [tile 2, tile 3]) := by
  decide

def fz (g g2 : BitVec 5) (imm : BitVec 8) : FmtZ := { g := g, g2 := g2, imm8 := imm }
def kSleep : Core := { k0 with g := k0.g.set 5 1, land := true }
theorem wit_ControlInstructions :
    (∀ ts ∈ [[tile 1], []], Spelt (sTile kSleep ts [] 1) (.sleep i0 (fz 6 5 0)) 4 [.g 5] ∧ ∀ s ∈ [spelling c0 (.sleep i0 (fz 6 5 0)) (sTile kSleep ts [] 1)],
      (s.core c0).getG 5 = 1 ∧ (s.parcel p0).tiles = ts ∧ (s.parcel p0).retries = [] ∧ (s.parcel p0).audits = []) ∧
    (∀ c ∈ [Instr.halt i0 (fz 0 0 0), .trap i0 (fz 0 0 255), .fence i0 (fz 0 0 0)], Spelt s0 c 4 [] ∧
      ∀ s ∈ [spelling c0 c s0], (s.core c0).arr.fault = none ∧ (s.core c0).rels = []) ∧
    Spelt (sLoad 0 false) (.fence i0 (fz 0 0 1)) 4 [] ∧
      ∀ s ∈ [spelling c0 (.fence i0 (fz 0 0 1)) (sLoad 0 false)], (s.core c0).rels = [] ∧ (s.core c0).arr.fault = none ∧
        (s.core c0).loads.any (fun l => l.space == 1) = true := by unfold Spelt Ready; decide
theorem test_sleep_tile : after (run (.sleep i0 (fz 6 5 0)) (sTile kSleep [tile 1] [] 1)) (fun t => ((t.core c0).getG 6, (t.core c0).land)) =
    some (1, false) := by decide
theorem test_sleep_waits : after (run (.sleep i0 (fz 6 5 0)) (sTile kSleep [] [] 1)) (fun t => (t.core c0).wait.isSome) = some true := by decide
theorem test_trap : after (run (.trap i0 (fz 0 0 0x42)) s0) (fun t => (t.core c0).run) = some .stopped := by decide
theorem test_fence_waits : after (run (.fence i0 (fz 0 0 1)) (sLoad 0 false)) (fun t => (t.core c0).wait) = some (some (.fence 1)) := by decide

def sHalt (cs : List CopyJob) : State := withCore { k0 with wait := some .halt, copies := cs }

theorem test_halt_completes : after (exec (.haltComplete c0) (sHalt [])) (fun t => ((t.core c0).run, (t.core c0).pwr, (t.core c0).getG 1)) =
    some (.halted, .sleep, 7) := by decide

def sMwait : State := sTile { k0 with wait := some (.mwait 2 7) } [] [] 1
def noNeeds : Needs := { gens := [], arrs := [] }
def kDeep (w : Option Wait) (r : RunState) : State := sTile { k0 with wait := w, run := r } [] [] 1
def waits4 : List Wait := [.mwait 2 7, .mbar 3 0x105 .held noNeeds, .sleep 5 1 0]
theorem wit_CorePowerStates :
    (∀ s ∈ [sMwait], (s.core c0).run = .running ∧ (s.core c0).pwr = .run ∧ (s.core c0).wait ≠ none ∧ bitOf (s.plotReg p0 .plotPwr) 0 = true) ∧
    (∀ s ∈ [kDeep none .halted, kDeep (some (.mwait 2 7)) .running, kDeep (some (.sleep 5 1 0)) .running], (s.core c0).copies = [] ∧
      (s.core c0).loads = [] ∧ s.storesOpen c0 = 0 ∧ (s.core c0).arr.queue = [] ∧ s.regBits (tractReg .easeCfg 0) 15 0 ≠ 0 ∧
      bitOf (s.plotReg p0 .plotPwr) 0 = true ∧ bitOf (s.plotReg p0 .plotPwr) 1 = true) ∧
    (∀ w ∈ [none, some (.resource 2), some (.resource 3), some (.operand 0x40 0 5)], ∀ s ∈ [withCore { k0 with pwr := .sleep, wait := w }],
      (s.core c0).run = .running ∧ (s.core c0).pwr ≠ .run ∧ (s.core c0).rels = [] ∧ (s.core c0).copies.length < 32 ∧ (s.core c0).loadsOpen < 8 ∧
      (s.core c0).loads = []) ∧
    (∀ cs ∈ [[], [jCopy]], ∀ s ∈ [sHalt cs], (s.core c0).wait = some .halt ∧ (s.core c0).copies = cs ∧ (s.core c0).arr.cfg = none) ∧
      Settled (sHalt []) c0 := by unfold Settled; decide
def full8 : List OutLoad := List.replicate 8 (anyLoad 0 false)
theorem wit_WatchdogStops :
    ∀ w ∈ [Wait.mwait 2 7, .cwait 2 0, .sleep 5 1 0, .fence 1, .tile true 4 2, .halt, .resource 2, .resource 3, .mbar 3 0x105 .held noNeeds],
      ∀ s ∈ [withCore { k0 with wait := some w, loads := full8, copies := List.replicate 32 jCopy }], (s.core c0).run = .running ∧ (s.core c0).wait = some w ∧
      Quietly s c0 ∧ 32 ≤ (s.core c0).copies.length ∧ 8 ≤ (s.core c0).loadsOpen := by unfold Quietly; decide
theorem wit_WatchdogStops_resolved : ∀ s ∈ [withCore { k0 with wait := some (.resource 2) }], (s.core c0).run = .running ∧
    (s.core c0).wait = some (.resource 2) ∧ Quietly s c0 ∧ (s.core c0).copies.length < 32 := by unfold Quietly; decide
theorem test_enter_deep : after (exec (.coreEnterDeep c0) State.reset) (fun t => (t.core c0).pwr) = some .deep := by decide

theorem test_watchdog : after (exec (.watchdog c0) sMwait) (fun t => ((t.core c0).run, (t.fab 0).collector.map (fun r => (fieldAt r.detail 0 1, fieldAt r.detail 1 1)))) =
    some (.stopped, [(0x0D, 1)]) := by decide

-- the array

/-- One strip of BF16, FP32 accumulators, no gang. -/
def gArr : ArrCfg := { mode := 0, layout := 0, gang := 0, grow := 0, gcol := 0, ord6 := false, fmts := 2 }
def fAmode : FmtAmode := { mode := 0, layout := 0, gang := 0, grow := 0, gcol := 0, ord6 := false, reserved := 0, fmts := 2 }
def far (g : BitVec 5) : FmtArr := { strip := 0, a1 := 1, a2 := 2, g := g, reserved := 0 }
/-- g5: 4 rows from slot 0, one chunk; g6 0; g7: drain 4 slots from slot 0. -/
def kArr : Core := { k0 with a := (k0.a.set 1 0x400).set 2 0x100, g := ((k0.g.set 4 0).set 6 4).set 8 256 }
def sArr : State := withCore kArr
/-- After the AMODE, and after a sequence of one weight chunk of 8 positions. -/
def sArr1 : State := (after (run (.amode i0 fAmode) sArr) id).getD sArr
def sArr2 : State := (after (run (.awload i0 (far 4) (7 * 256 + 7 * 2 ^ 14)) { sArr1 with cores := [(c0, { sArr1.core c0 with pc := 0 })] }) id).getD sArr
def srcA : Source := { addr := 0x400, scale := 0x100, rs := 0, turn := false, m := 0, kc := 8 }
def qArr : WSeqShape := { nch := 1, kc := 8, kcl := 8, next := 0 }
def fAcl : FmtAclear := { strip := 0, sb := 60, cntM1 := 3, krst := false, reserved := 0 }
def wArr : Word := 7 * 256 + 7 * 2 ^ 14
theorem wit_ArrayInstructionsQueue :
    Spelt sArr (.amode i0 fAmode) 8 [] ∧ amodeBad c0.core gArr = false ∧ amodeWide gArr = false ∧
    (∀ q ∈ [(Instr.aclear i0 fAcl, 4, []), (.astat i0 { g := 5, clr := true, reserved := 0 }, 4, []), (.awload i0 (far 4) wArr, 8, [CReg.a 1, .a 2, .g 4])],
      Spelt sArr1 q.1 q.2.1 q.2.2 ∧ ∀ s ∈ [spelling c0 q.1 sArr1], (s.core c0).arr.view.cfg = some gArr ∧ (s.core c0).arr.queue.length < 8 ∧
      (s.core c0).arr.fault = none ∧ (s.core c0).arr.view.strips[0].kpos = 0 ∧ ((s.core c0).getA 1).toNat = 0x400 ∧ ((s.core c0).getA 2).toNat = 0x100 ∧
      ((s.core c0).getG 4).toNat = 0) ∧
    gArr.cols 0 = some (0, 8) ∧ gArr.slotLimit 0 = 64 ∧ gArr.kw 0 = 8 ∧ wArr.toNat < 2 ^ 21 ∧
    qArr = { nch := wArr.toNat % 256 + 1, kc := wArr.toNat / 256 % 64 + 1, kcl := wArr.toNat / 2 ^ 14 % 64 + 1, next := 0 } ∧
    (chunkRefs qArr 0 0 1).all ChunkRef.ok = true ∧ srcA.aligned (fmtIsMx (gArr.fmt 0)) true = true ∧
    (weightRegions gArr 0 0 8 srcA 0 (chunkRefs qArr 0 0 1)).all Region.inStore = true := by unfold Spelt Ready; decide
theorem wit_ArrayInstructionsQueue_stream :
    Spelt sArr2 (.astream i0 (far 6)) 4 [.a 1, .a 2, .g 6] ∧ ((sArr2.core c0).getG 6).toNat = 4 ∧
      (((sArr2.core c0).arr.view.strips[0]).consume false 1).isSome = true ∧ (sArr2.core c0).arr.view.cfg = some gArr ∧
      ({ addr := 0x400, scale := 0x100, rs := 0, turn := false, m := 4, kc := 8 } : Source).aligned (fmtIsMx (gArr.fmt 0)) false = true ∧
      (streamRegions gArr 0 0 { addr := 0x400, scale := 0x100, rs := 0, turn := false, m := 4, kc := 8 } 0 [{ c := 0, kpos := 0, n := 8 }]).all
        Region.inStore = true := by unfold Spelt Ready; decide
theorem wit_ArrayInstructionsQueue_drain :
    Spelt sArr2 (.adrain i0 (far 8)) 4 [.a 1, .a 2, .g 8] ∧ ((sArr2.core c0).getG 8).toNat = 0 + 64 * 4 ∧ gArr.grow.toNat + 1 = gArr.size ∧
      sArr2.poisoned (storeKey c0 0x100) 32 = false ∧ drainBad gArr 0 4 (drainDesc (sArr2.peek (storeKey c0 0x100) 32)) = false ∧
      4 * gatherGroups gArr (drainDesc (sArr2.peek (storeKey c0 0x100) 32)) ≤ 64 ∧ (drainDesc (sArr2.peek (storeKey c0 0x100) 32)).bias = false ∧
      (drainRegions gArr 8 0x400 0 4 (drainDesc (sArr2.peek (storeKey c0 0x100) 32))).all Region.inStore = true := by unfold Spelt Ready; decide
theorem test_amode_queues : after (run (.amode i0 fAmode) sArr) (fun t => ((t.core c0).arr.queue.map (fun e => e.op), (t.core c0).pc)) =
    some ([.amode gArr], 8) := by decide
theorem test_astream_queues : after (run (.astream i0 (far 6)) sArr2) (fun t => (t.core c0).arr.queue.length) = some 3 := by decide

def kEnt (op : ArrOp) : Core := { k0 with arr := { ArrState.reset with cfg := some gArr, formed := true, flags := ArrState.reset.flags.set 1 3, queue := [{ id := 0, pc := 0, op := op }] } }
def sEnt (op : ArrOp) : State := withCore (kEnt op)
theorem wit_ArrayEntriesComplete :
    ∀ op ∈ [ArrOp.amode gArr, .aclear 0 60 4 false, .astat 5 true, .astat 5 false], ∀ s ∈ [sEnt op], s.dead 0 = false ∧
      (s.core c0).arr.queue = [{ id := 0, pc := 0, op := op }] ∧ (s.core c0).wait = none ∧ (s.core c0).rels = [] ∧ (s.fab 0).ra = [] ∧
      (s.core c0).arr.cfg = some gArr ∧ gArr.gang = 0 ∧ gArr.cols 0 = some (0, 8) := by decide
theorem test_astat : after (exec (.arrayEntryComplete c0) (sEnt (.astat 5 true))) (fun t => ((t.core c0).getG 5, (t.core c0).arr.flags)) =
    some (0x30, Vector.replicate 4 0) := by decide

-- engine entries

def pt0 : QPoint := { slot := 0, pos := 0, addr := 0x1000, nsp := false, next := 0, read := true }
/-- An entry that no sequencer field concerns: its body begins with the words given. -/
def ent (ws : List Nat) : QEntry :=
  { id := 0, pt := pt0, kind := .entry, bytes := List.replicate 32 0 ++ ws.flatMap (natLe 4) ++ List.replicate (96 - 4 * ws.length) 0
    started := false, work := .none }
/-- A module OWNED whose memory and one queue are given. -/
def sEng (q : QueueId) (e : QEntry) (bs : List (Nat × Byte)) : State :=
  { State.reset with
    job := { State.reset.job with state := .owned }, queues := [(q, { QueueState.reset with entries := [e] })]
    mem := { Mem.reset with bytes := bs } }
def qMov : QueueId := engQueue 0 .mover

/-- COPY of two rows of 4 bytes, 16 apart, from 0 to 0x40 of the first slice; FILL of one row of 4 bytes at 0x40; GATHER of rows 1 and none by the
list at 0x80 to 0x40 and 0x50. -/
def eCopy : QEntry := ent [0, 0, 0, 0, 0x40, 0, 2, 4, 16, 16]
def eFill : QEntry := ent [1, 0, 0, 0, 0x40, 0, 1, 4, 0, 0, 0, 0, 0, 0, 0, 0, 0, 0, 0, 0x0102_0304]
def eGather : QEntry := ent [2, 0, 0, 0, 0x40, 0, 2, 4, 16, 16, 0, 0, 0, 0, 0, 0, 0x80, 0, 2]
def movMem : List (Nat × Byte) := [(0, 1), (0x10, 2), (0x80, 1), (0x84, 0xFF), (0x85, 0xFF), (0x86, 0xFF), (0x87, 0xFF)]
def sMov (e : QEntry) : State := sEng qMov e movMem

theorem wit_Mover_begins : ∀ e ∈ [eCopy, eFill, eGather], Begins (sMov e) qMov e ∧ Quiet (sMov e) qMov e ∧ (sMov e).mem.wf = true ∧
    Unshared (sMov e) 0 ∧ (sMov e).up.badChannels = [] := by
  unfold Begins Quiet Unshared; decide
theorem wit_Mover_checks :
    ∀ q ∈ [(0, eCopy), (1, eFill), (2, eGather)], q.2.mov.op = q.1 ∧ (sMov q.2).movCheck q.2.mov = 0 ∧
      (∀ r ∈ q.2.mov.reads, ∀ w ∈ q.2.mov.writes, Apart (r.1 % 2 ^ 52) r.2 (w.1 % 2 ^ 52) w.2) ∧
      (moved (sMov q.2) q.2.mov).Pairwise (fun a b => Apart (a.1 % 2 ^ 52) a.2.length (b.1 % 2 ^ 52) b.2.length) ∧
      (∀ v ∈ moverIndex (sMov q.2) q.2.mov, q.2.mov.op = 2 ∨ q.2.mov.op = 3 → v < q.2.mov.rows ∨ v = 0xFFFF_FFFF) := by
  unfold Apart; decide
theorem test_fill : after (exec (.fill 0 []) (sMov eFill)) (fun t => t.mem.read 0x40 8) = some [4, 3, 2, 1, 0, 0, 0, 0] := by decide
theorem wit_Mover_refused : Begins (sMov (ent [7])) qMov (ent [7]) ∧ (sMov (ent [7])).movCheck (ent [7]).mov ≠ 0 := by unfold Begins; decide
def done (e : QEntry) (st : Nat) : QEntry := { e with started := true, work := .status st }
theorem wit_Mover_completes :
    ∀ st ∈ [0, 1, 9], ((sMov (done eCopy st)).queue qMov).entries = [done eCopy st] ∧ ((sMov (done eCopy st)).queue qMov).hold = none ∧
      (done eCopy st).work = .status st ∧ Quiet (sMov (done eCopy st)) qMov (done eCopy st) ∧ ((sMov (done eCopy st)).queue qMov).stopped = false ∧
      ((sMov (done eCopy st)).fab 0).collector = [] := by unfold Quiet; decide
theorem test_mover_fault : after (exec (.moverEntryComplete 0 0) (sMov (done eCopy 5))) (fun t =>
    ((t.queue qMov).stopped, (t.fab 0).collector.map (fun r => (r.cls, fieldAt r.detail 0 1)))) = some (true, [(.moverFault, 5)]) := by decide
theorem low_window (x : Nat) (h : x < 0x480_0000) : windowOf (gaOffset x) = .slice x := by
  have hx : gaOffset x = x := by unfold gaOffset bitsOf; omega
  simp [windowOf, hx, h]
theorem wit_Mover_sound : ∀ q ∈ [(0, 4), (0x10, 4), (0x40, 4), (0x50, 4), (0x80, 8)], Sound (sMov eCopy) q.1 q.2 := by
  intro q hq
  refine ⟨?_, ?_, ?_, ?_⟩
  · revert q; decide
  · revert q; decide
  · revert q; unfold Clean; decide
  · intro x off p h1 h2 h3
    have hx : x < 0x480_0000 := by revert q; simp; omega
    rw [low_window x hx] at h3
    cases h3

-- the Dispatcher

def qDisp : QueueId := engQueue 0 .dispatcher
/-- PLOT_SET of parcels 0 to 1 to plot 3, and of the last parcel to none. -/
def eSet : QEntry := ent [0x30, 2 * 2 ^ 11, 1 + 4 + 2 * 8]
def eUnset : QEntry := ent [0x1000, 1359 + 2 ^ 11]
def sDisp (e : QEntry) (bs : List (Nat × Byte)) : State :=
  { sEng qDisp e bs with parcels := [(p0, inPlot [tile 5])], regs := [(tractRegI .plotCfg 0 3, 1 + 2 ^ 12)] }
set_option exponentiation.threshold 1024 in
set_option maxRecDepth 8000 in
theorem wit_Dispatcher_begins :
    ∀ e ∈ [eSet, eUnset], Begins (sEng qDisp e []) qDisp e ∧ Quiet (sEng qDisp e []) qDisp e ∧ e.dispOp = 0 ∧
      e.bodyClean [(11, 0), (12, 12), (53, 32), (74, 64)] = true ∧ 1 ≤ e.body 53 43 ∧ e.body 42 32 + e.body 53 43 ≤ 1360 := by
  unfold Begins Quiet; decide
theorem wit_PlotSet_idle : ∀ e ∈ [eSet, eUnset], ∀ p ∈ [p0, { tract := 0, parcel := 1 }, { tract := 0, parcel := 1359 }],
    (sEng qDisp e []).parcelIdle p = true := by decide
set_option exponentiation.threshold 1024 in
set_option maxRecDepth 8000 in
theorem test_plot_set : after (exec (.plotSet 0) (sEng qDisp eSet [])) (fun t => ((t.parcel { tract := 0, parcel := 1 }).plot, (t.parcel { tract := 0, parcel := 2 }).plot)) =
    some (some 3, none) := by decide

/-- START of cores 0 and 63 of plot 3; TLOAD of one tile and TMPL_SET of one template from 0x100; TCLEAR of plot 3. -/
def eStart : QEntry := ent [0x31, 0, 0, 0x100, 0, 0x1000, 1, 0x8000_0000, 7, 0, 8, 0]
def eTload (dealt : Bool) : QEntry := ent [if dealt then 0x2032 else 0x32, 0, 0, 0, 0, 0, 0, 0, 0, 0, 0, 0, 0x100, 0, 1]
def eTmpl : QEntry := ent [3, 0, 0, 1023, 0, 0, 0, 0, 0, 0, 0, 0, 0x100, 0, 1]
def eClear : QEntry := ent [0x34]
/-- A tile whose counts are 1 and whose home is parcel 0; a template of one group. -/
def tileMem : List (Nat × Byte) := [(0x106, 1), (0x10A, 1)]
set_option exponentiation.threshold 1024 in
set_option maxRecDepth 8000 in
theorem wit_Dispatcher_start :
    Begins (sDisp eStart []) qDisp eStart ∧ Quiet (sDisp eStart []) qDisp eStart ∧ eStart.dispOp = 1 ∧
      eStart.bodyClean [(11, 0), (113, 96), (145, 128), (177, 160), (255, 192), (319, 256), (383, 320)] = true ∧ eStart.body 113 96 % 4 = 0 ∧
      eStart.body 145 128 < eStart.body 177 160 ∧ eStart.body 177 160 ≤ vectorBase ((sDisp eStart []).layout 0) ∧
      eStart.body 113 96 < vectorBase ((sDisp eStart []).layout 0) ∧ (sDisp eStart []).plotEmpty 0 (eStart.body 11 4) = false ∧
      ((sDisp eStart []).parcel p0).plot = some (BitVec.ofNat 8 (eStart.body 11 4)) ∧
      (∀ n ∈ [0, 63], eStart.body (192 + n) (192 + n) = 1) := by unfold Begins Quiet; decide
set_option exponentiation.threshold 1024 in
set_option maxRecDepth 8000 in
theorem wit_Dispatcher_tload :
    ∀ d ∈ [false, true], Begins (sDisp (eTload d) tileMem) qDisp (eTload d) ∧ Quiet (sDisp (eTload d) tileMem) qDisp (eTload d) ∧
      (eTload d).dispOp = 2 ∧ (eTload d).bodyClean [(11, 0), (13, 13), (447, 384), (479, 448)] = true ∧ 1 ≤ (eTload d).body 479 448 ∧
      (eTload d).body 479 448 ≤ 65536 ∧ (eTload d).body 447 384 % 16 = 0 ∧ (sDisp (eTload d) tileMem).plotEmpty 0 ((eTload d).body 11 4) = false ∧
      (eTload d).body 13 13 = (if d then 1 else 0) := by unfold Begins Quiet; decide
set_option exponentiation.threshold 1024 in
set_option maxRecDepth 8000 in
theorem wit_Dispatcher_tload_data (e : QEntry) :
    (sDisp e tileMem).engineFetch 0x100 16 [] = some [0, 0, 0, 0, 0, 0, 1, 0, 0, 0, 1, 0, 0, 0, 0, 0] := by rfl
theorem wit_Dispatcher_data_clean (e : QEntry) :
    Clean (sDisp e tileMem) (0x100 % 2 ^ 52) 16 ∧ Clean (sDisp e [(0x102, 1), (0x103, 1), (0x106, 1)]) (0x100 % 2 ^ 52) 16 := by
  constructor <;> (intro u _; exact ⟨List.not_mem_nil, List.not_mem_nil, List.not_mem_nil, rfl⟩)
theorem disp_flow6_start : (sDisp eStart []).flow6 = false := by decide
set_option maxRecDepth 20000 in
theorem disp_flow6 (e : QEntry) (bs : List (Nat × Byte)) : (sDisp e bs).flow6 = false := disp_flow6_start
set_option maxRecDepth 20000 in
theorem disp_engRoom (e : QEntry) (bs : List (Nat × Byte)) : (sDisp e bs).engRoom 0 .dispatcher 1 = true := by rfl
theorem disp_haMay (e : QEntry) (bs : List (Nat × Byte)) : (sDisp e bs).haMayFor 0 0 false 1 = true := by
  have hl : (sDisp e bs).listedParcels 0 = [p0] := by rfl
  have hu : (sDisp e bs).homeUse 0 false = 0 := by unfold State.homeUse; rw [hl]; rfl
  unfold State.haMayFor State.homeRoomFor
  rw [hu, disp_flow6]
  rfl
set_option maxRecDepth 8000 in
theorem wit_Dispatcher_reads (e : QEntry) (bs : List (Nat × Byte)) : DispatcherReads (sDisp e bs) 0 0x100 16 := by
  have hf : (sDisp e bs).foreignLines [(0x100, 16)] = [] := by rfl
  have ht : byTarget [(0x100, 16)] = [[(0x100, 16)]] ∧ byTarget [] = [] := by decide
  have ho : (sDisp e bs).isOwn 0x100 = true := by rfl
  have ha : (sDisp e bs).fabric.advancing = false := by rfl
  refine ⟨?_, fun x => ⟨by rfl, by rfl⟩, by rfl, fun _ => ?_, by rw [hf]; intro q hq; exact absurd hq List.not_mem_nil⟩
  · unfold State.engMay
    rw [ht.1, ht.2]
    simp [ho, ha, disp_engRoom, gaTract]
    exact fun _ => disp_haMay e bs
  · intro u _; exact ⟨List.not_mem_nil, List.not_mem_nil, List.not_mem_nil, rfl⟩
theorem wit_Dispatcher_tload_record : records16 [0, 0, 0, 0, 0, 0, 1, 0, 0, 0, 1, 0, 0, 0, 0, 0] = [0x1_0000_0001_0000_0000_0000] := by rfl
theorem wit_Dispatcher_tload_valid : tdValid 0x1_0000_0001_0000_0000_0000 = true ∧ tdHome 0x1_0000_0001_0000_0000_0000 = 0 := by decide
theorem disp_parcel (e : QEntry) (bs : List (Nat × Byte)) (p : ParcelId) :
    (sDisp e bs).parcel p = if p = p0 then inPlot [tile 5] else Parcel.reset := by
  by_cases h : p = p0
  · simp [State.parcel, sDisp, AMap.get, h]
  · simp [State.parcel, sDisp, AMap.get, h, Ne.symm h]
theorem plot_parcels (e : QEntry) (bs : List (Nat × Byte)) : ∀ p ∈ (sDisp e bs).plotParcels 0 3, p = p0 := by
  intro p hp
  simp only [State.plotParcels, List.mem_filterMap] at hp
  obtain ⟨i, -, h⟩ := hp
  split at h
  · rename_i x hx
    rw [disp_parcel] at h
    split at h <;> simp_all [Parcel.reset]
  · cases h
theorem plot_parcels_p0 (e : QEntry) (bs : List (Nat × Byte)) : p0 ∈ (sDisp e bs).plotParcels 0 3 := by
  refine List.mem_filterMap.mpr ⟨0, by simp, ?_⟩
  have h : keyParcel (keyOf (0 : Tract).val 0 0) = some p0 := by decide
  rw [h]
  simp [disp_parcel, inPlot]
set_option exponentiation.threshold 1024 in
set_option maxRecDepth 8000 in
theorem wit_Dispatcher_tmpl :
    Begins (sDisp eTmpl tileMem) qDisp eTmpl ∧ Quiet (sDisp eTmpl tileMem) qDisp eTmpl ∧ eTmpl.dispOp = 3 ∧
      eTmpl.bodyClean [(3, 0), (105, 96), (447, 384), (479, 448)] = true ∧ 1 ≤ eTmpl.body 479 448 ∧
      eTmpl.body 105 96 + eTmpl.body 479 448 = 1024 ∧ eTmpl.body 447 384 % 16 = 0 := by unfold Begins Quiet; decide
set_option exponentiation.threshold 1024 in
set_option maxRecDepth 8000 in
theorem wit_Dispatcher_tclear :
    Begins (sDisp eClear []) qDisp eClear ∧ Quiet (sDisp eClear []) qDisp eClear ∧ eClear.dispOp = 4 ∧ eClear.bodyClean [(11, 0)] = true ∧
      (sDisp eClear []).plotEmpty 0 (eClear.body 11 4) = false ∧ Begins (sDisp (ent [5]) []) qDisp (ent [5]) ∧ 5 ≤ (ent [5]).dispOp ∧
      ((sDisp (ent [5]) []).fab 0).collector = [] := by unfold Begins Quiet; decide
theorem wit_Dispatcher_tload_room (e : QEntry) (bs : List (Nat × Byte)) : ∀ p ∈ (sDisp e bs).plotParcels 0 3,
    1 ≤ (sDisp e bs).tileFree p ∧ p.parcel.val = tdHome 0x1_0000_0001_0000_0000_0000 := by
  intro p hp
  rw [plot_parcels e bs p hp]
  have hl : (sDisp e bs).layout p0.tract = 8322 := by rfl
  have hr : ((sDisp e bs).parcel p0).health.retired = false := by rfl
  have ht : ((sDisp e bs).parcel p0).tiles.length = 1 := by rfl
  exact ⟨by simp [State.tileFree, State.tileCap, hl, hr, ht, bitsOf], by rfl⟩
set_option maxRecDepth 8000 in
theorem wit_Dispatcher_tmpl_data : (sDisp eTmpl [(0x102, 1), (0x103, 1), (0x106, 1)]).engineFetch 0x100 16 [] =
    some [0, 0, 1, 1, 0, 0, 1, 0, 0, 0, 0, 0, 0, 0, 0, 0] ∧ tmValid (leNat [0, 0, 1, 1, 0, 0, 1, 0, 0, 0, 0, 0, 0, 0, 0, 0]) = true := ⟨by rfl, by decide⟩
set_option maxRecDepth 8000 in
theorem test_tclear : after (exec (.tclear 0) (sDisp eClear [])) (fun t => (t.parcel p0).tiles.length) = some 0 := by rfl

-- the start of a core

def eStarting (l : List CoreId) : QEntry := { eStart with started := true, work := .starting l }
def sStart (l : List CoreId) : State := { sDisp (eStarting l) [] with cores := [(c0, { k0 with run := .halted, copies := [jCopy] })] }
theorem wit_CoresAreStarted :
    ∀ l ∈ [[c0], [c0, c1]], ((sStart l).queue (engQueue c0.tract .dispatcher)).entries = [eStarting l] ∧ (eStarting l).work = .starting l ∧ c0 ∈ l ∧
      Quiet (sStart l) (engQueue c0.tract .dispatcher) (eStarting l) ∧ ((sStart l).core c0).run ≠ .running ∧ (sStart l).enginesRun = true ∧
      ((sStart l).core c0).arr.cfg = none ∧ ((sStart l).queue (engQueue c0.tract .dispatcher)).stopped = false ∧
      ((sStart l).fab c0.tract).collector = [] := by unfold Quiet; decide
set_option exponentiation.threshold 1024 in
set_option maxRecDepth 8000 in
theorem test_core_start : after (exec (.dispatcherCoreStart c0) (sStart [c0])) (fun t => ((t.core c0).pc, (t.core c0).arg1, (t.core c0).progLimit,
    (t.core c0).getG 1, (t.core c0).copies.length, (t.queue qDisp).entries.length)) = some (0x100, 8, 0x1000, 0, 1, 0) := by rfl
theorem test_start_timeout : after (exec (.startTimeout 0) (sStart [c0])) (fun t => (t.fab 0).collector.map (fun r => (r.cls, fieldAt r.detail 0 1))) =
    some [(.dispFault, 7)] := by rfl

-- routing

/-- A plan of one layer: 1 expert, K 1, rows of 32 bytes. -/
def layerBytes : List Byte :=
  List.replicate 28 0 ++ [1, 0] ++ List.replicate 10 0 ++ [64, 0, 0, 0] ++ List.replicate 20 0 ++
    ([0, 1, 0x200, 0, 0x300, 0, 0x400, 0, 0x500, 0, 4, 1 + 4 * 65536, 0, 0, 0, 0] : List Nat).flatMap (natLe 4)
def plan1 : PlanImage := { bytes := layerBytes, tables := [] }
def l1 : LayerRec := parseLayer layerBytes 64
def qTr : QueueId := engQueue 0 .transit
/-- A module ARMED that runs by the plan, its plot 3 of tract 0 being parcel 0. -/
def sRt (e : QEntry) : State :=
  { sEng qTr e [(0x203, 1), (0x206, 1)] with
    job := { State.reset.job with state := .armed }, plan := { State.reset.plan with inForce := some plan1, stepped := true }
    parcels := [(p0, inPlot [])], regs := [(tractRegI .plotCfg 0 3, 1 + 2 ^ 12)] }
/-- SELECT of one token: scores at 0x1000, candidates at 0x1100, record to 0x1200; RANK and SORT of an entry without tokens. -/
def eSelect : QEntry := ent [0xC000, 0, 1, 0, 0x1000, 4, 0x1100, 8, 0x1200]
def eRank : QEntry := ent [1 + 0x80_0000, 0, 1, 0, 0, 0, 0, 0, 0x1200, 0x1300]
def eSort : QEntry := ent [2 + 0xC0_0000, 0, 1, 0, 0, 0, 0, 0, 0x1200, 0, 0x1400, 16, 2 ^ 16, 0x1500, 1, 0x1600, 0, 1]
theorem wit_Routing_layer : ∀ e ∈ [eSelect, eRank, eSort], (sRt e).layerRec (routeEntry e.bytes).layer = some l1 ∧ (sRt e).mem.wf = true ∧
    (sRt e).up.restore = .idle := by
  simp only [List.mem_cons, List.mem_nil_iff, or_false]
  rintro e (rfl | rfl | rfl) <;> exact ⟨by rfl, by rfl, by rfl⟩
set_option exponentiation.threshold 1024 in
set_option maxRecDepth 8000 in
theorem wit_Routing_begins : ∀ e ∈ [eSelect, eRank, eSort], Begins (sRt e) qTr e ∧ Quiet (sRt e) qTr e ∧ (sRt e).routeBad 0 e = false ∧
    (sRt e).routeAddr 0 (routeEntry e.bytes) l1 = false := by
  simp only [List.mem_cons, List.mem_nil_iff, or_false]
  rintro e (rfl | rfl | rfl) <;> exact ⟨⟨by rfl, by rfl⟩, ⟨by rfl, by rfl, by rfl⟩, by rfl, by rfl⟩
theorem wit_Routing_ops : eSelect.xop = 0 ∧ eRank.xop = 1 ∧ eSort.xop = 2 := ⟨by rfl, by rfl, by rfl⟩
theorem rt_parcels (e : QEntry) : ∀ p ∈ (sRt e).plotParcels 0 3, p = p0 := by
  intro p hp
  simp only [State.plotParcels, List.mem_filterMap] at hp
  obtain ⟨i, -, h⟩ := hp
  split at h
  · rename_i x hx
    by_cases hx : x = p0
    · simp_all
    · simp [State.parcel, sRt, AMap.get, Ne.symm hx, Parcel.reset] at h
  · cases h
theorem wit_Routing_select : (∀ u ∈ unitsOf (sliceKey p0 0x1200) 16, u ∉ (sRt eSelect).mem.poison ∧ u ∉ (sRt eSelect).mem.ce ∧
    u ∉ (sRt eSelect).mem.ue ∧ inside u (unitSize u) (sRt eSelect).mem.par = []) ∧ (sRt eSelect).inReplica (sliceKey p0 0x1200) 16 = false ∧
    selBytes l1.k = 16 := ⟨by decide, by rfl, by rfl⟩
theorem wit_Routing_rank : (sRt eRank).rankKeys l1 ((sRt eRank).tokensOf 0 0 0x1200 1 1 true) = some [] ∧ l1.kparcel < 1360 ∧
    (sRt eRank).plan.stepped = true ∧ (∀ u : Tract, ((sRt eRank).txfer u).ranks = []) ∧ (routeEntry eRank.bytes).empty = true := by
  refine ⟨by rfl, by decide, by rfl, ?_, by rfl⟩
  intro u; rfl
theorem wit_Routing_sort : (routeEntry eSort.bytes).bwd = true ∧ ((sRt eSort).txfer 11).waits = [] := ⟨by rfl, by rfl⟩
theorem wit_Routing_hidden : NoHidden (sRt eSelect) := by unfold NoHidden; decide
theorem wit_Routing_rank_free : (sRt eRank).xferBlocked 0 (keyX 0 0) (routeEntry eRank.bytes).stabKey false = false := by rfl

/-- Every tract of the module has an empty RANK that has ended; tract 0 also waits in the scan tree. -/
def run1 : RankRun := { layer := 0, mb := 0, entry := 0, bytes := eRank.bytes, keys := 0, full := false, poison := false }
def wait1 : SortWait := { layer := 0, mb := 0, bwd := true, entry := 0, bytes := eSort.bytes }
def sRanked : State :=
  { sRt eRank with
    xfer := { State.reset.xfer with
      tracts := (List.finRange 12).map (fun t => (t, { TractXfer.reset with ranks := [run1], waits := [wait1] }))
      cuts := [{ layer := 0, mb := 0, ranked := true, cuts := [(0, 5, 6)], heard := [(0, 0)], status := 0 }] } }
theorem wit_Routing_complete :
    (∀ v : Tract, sRanked.rankOf v l1.layer 0 = some run1) ∧ run1.keys = 0 ∧ (routeEntry run1.bytes).empty = true ∧
      sRanked.layerRec l1.layer = some l1 ∧ (sRanked.cutRun l1.layer 0).ranked = true ∧ (sRanked.cutRun l1.layer 0).status = 0 ∧
      sRanked.exchQuiet (cutX l1.layer 0) = true ∧ sRanked.inWindow l1.cutGa (8 * l1.e) = true ∧
      ((sRanked.cutRun l1.layer 0).cuts.map (fun q => q.1)).Nodup ∧ (∀ q ∈ (sRanked.cutRun l1.layer 0).cuts, q.1 < l1.e) ∧
      l1.cutGa % 2 ^ 52 + 8 * l1.e < 2 ^ 52 := by
  refine ⟨?_, by rfl, by rfl, by rfl, by rfl, by rfl, by rfl, by rfl, by decide, by decide, by decide⟩
  intro v; fin_cases v <;> rfl
theorem wit_Routing_owners : sRanked.owners l1 = [(0, 0)] := by rfl
theorem wit_Routing_timeouts :
    (sRanked.queue qTr).entries = [eRank] ∧ eRank.id = run1.entry ∧ eRank.id = wait1.entry ∧ (sRanked.queue qTr).stopped = false ∧
      (sRanked.queue qTr).hold = none ∧ (sRanked.fab 0).collector = [] ∧ (sRanked.txfer 0).waits = [wait1] := ⟨by rfl, by rfl, by rfl, by rfl, by rfl, by rfl, by rfl⟩

-- exchanges

/-- DISPATCH of no token; COMBINE of no token; BCAST, GNORM of a group of this tract alone: table at 0x100, source 0x200, destination 0x300. -/
def eDisp : QEntry := ent [3 + 0x80_0000, 0, 0x1_0000, 1]
def eComb : QEntry := ent [4 + 0x80_0000, 0, 0, 0, 0, 0, 0, 0, 0, 0, 1]
def eColl (op : Nat) : QEntry := ent [op, 0, 1, 1, 0x100, 0, 0x200, 0, 0x300, 0, 16, 9]
def sX (e : QEntry) : State :=
  { sEng qTr e [(0x200, 7)] with
    job := { State.reset.job with state := .armed }
    plan := { State.reset.plan with inForce := some plan1, stepped := true }
    xfer := { State.reset.xfer with
      tracts := [(0, { TractXfer.reset with bases := [{ layer := 0, mb := 0, size := 0, spread := 1, done := true }] })] } }
theorem alone (s : State) (h : ∀ n, s.reg (modRegI .jobMap n) = 0) : s.jobIsLarge = false := by
  simp [State.jobIsLarge, State.jobModules, State.inJob, h, bitOf]
theorem wit_Exchange_alone (e : QEntry) : (sX e).jobIsLarge = false := alone _ (fun _ => rfl)
set_option exponentiation.threshold 1024 in
set_option maxRecDepth 8000 in
theorem wit_Exchange_begins : Begins (sX eDisp) qTr eDisp ∧ Begins (sX eComb) qTr eComb ∧ eDisp.xop = 3 ∧ eComb.xop = 4 ∧
    (parseXfer eDisp.bytes).op = 3 ∧ (parseXfer eComb.bytes).op = 4 ∧ (sX eDisp).layerRec (parseXfer eDisp.bytes).layer = some l1 ∧
    xferBad eDisp (parseXfer eDisp.bytes) l1 = false ∧ xferBad eComb (parseXfer eComb.bytes) l1 = false ∧ (sX eDisp).mem.wf = true ∧
    (sX eDisp).up.restore = .idle :=
  ⟨⟨by rfl, by rfl⟩, ⟨by rfl, by rfl⟩, by rfl, by rfl, by rfl, by rfl, by rfl, by rfl, by rfl, by rfl, by rfl⟩
theorem wit_Exchange_blocked (e : QEntry) : (sX e).xferBlocked 0 (parseXfer e.bytes).key (parseXfer e.bytes).stab (sX e).jobIsLarge = false := by
  rw [wit_Exchange_alone]; rfl
theorem wit_Exchange_dispatch : (parseXfer eDisp.bytes).empty = true ∧ (parseXfer eDisp.bytes).bwd = false ∧ (sX eDisp).buildBases 0 l1 0 = [] ∧
    (((sX eDisp).txfer 0).ranked.find? (fun r => decide (r.1 = 0) && decide (r.2.1 = 0))) = none := ⟨by rfl, by rfl, by rfl, by rfl⟩
theorem wit_Exchange_dispatch_sound : (sX eDisp).dispatchFault 0 (parseXfer eDisp.bytes) l1 none [] [] = 0 := by
  unfold State.dispatchFault; rw [wit_Exchange_alone]; rfl
theorem wit_Exchange_combine : (parseXfer eComb.bytes).empty = true ∧ combinePast (parseXfer eComb.bytes) l1 = false ∧
    (sX eComb).baseRun 0 0 0 = some { layer := 0, mb := 0, size := 0, spread := 1, done := true } ∧ (sX eComb).readBases 0 l1 0 0 = [] ∧
    (sX eComb).returnRows 0 (parseXfer eComb.bytes) l1 [] 1 = [] :=
  ⟨by rfl, by rfl, by rfl, by unfold State.readBases; split <;> rfl, by rfl⟩
set_option exponentiation.threshold 1024 in
set_option maxRecDepth 8000 in
theorem wit_Exchange_collective : ∀ op ∈ [6, 7, 8], Begins (sX (eColl op)) qTr (eColl op) ∧ Quiet (sX (eColl op)) qTr (eColl op) ∧
    (collEntry (eColl op).bytes).op = (eColl op).xop ∧ (eColl op).xop = op ∧ (sX (eColl op)).collBad 0 (eColl op) (collEntry (eColl op).bytes) = false ∧
    (sX (eColl op)).groupOf (collEntry (eColl op).bytes) = [(sX (eColl op)).job.moduleId.toNat] ∧ (collEntry (eColl op).bytes).tracts = [0] := by
  simp only [List.mem_cons, List.mem_nil_iff, or_false]
  rintro op (rfl | rfl | rfl) <;> exact ⟨⟨by rfl, by rfl⟩, ⟨by rfl, by rfl, by rfl⟩, by rfl, by rfl, by rfl, by rfl, by rfl⟩
theorem wit_Exchange_collective_reach : ∀ op ∈ [6, 7, 8], (sX (eColl op)).exchOf 0 { xk := 4, layer := 0, mb := 0, cid := 9 } = none ∧
    (sX (eColl op)).xfer.paths = [] ∧ (sX (eColl op)).xfer.sends = [] ∧ (sX (eColl op)).reach 0x100 2 false = 0 ∧
    memberGa (collEntry (eColl op).bytes).srcGa 0 0 = 0x200 ∧ memberGa (collEntry (eColl op).bytes).dstGa 0 0 = 0x300 ∧
    (sX (eColl op)).reach 0x200 64 false = 0 ∧ (sX (eColl op)).reach 0x300 64 true = 0 := by
  simp only [List.mem_cons, List.mem_nil_iff, or_false]
  rintro op (rfl | rfl | rfl) <;> exact ⟨by rfl, by rfl, by rfl, by rfl, by rfl, by rfl, by rfl, by rfl⟩

def hdrX (xk : Nat) : SegHdr :=
  { type := 1, xk := xk, layer := 0, mb := 0, smod := 0, stract := 1, dmod := 0, dtract := 0, expert := 0, count := 0, mbase := 0, novf := 0, status := 0, cid := 0
    uoff := 0, srank := 0 }
/-- Exchange 4 of tract 0 by the collective's entry, with a group of parcel 0 to write by a template of one entry. -/
def exch1 (e : QEntry) (xk : Nat) : Exch :=
  { tract := 0, entry := 0, key := { xk := xk, layer := 0, mb := 0, cid := 0 }, bytes := e.bytes, table := 0, nper := 0, first := 0, out := [], att := 0
    dlv := 0, ovf := 0, want := 2, got := 0, nul := 0, filled := [], data := [], bases := []
    groups := [{ parcel := 0, expert := 0, group := 0, rows := 1, wrote := 0, tmpl := 0x1_0000_0101_0000 }], heard := [], poison := false, halted := false }
def item1 (n : Nat) : XItem := { seg := { hdr := hdrX 0, rows := [] }, units := n, flight := 0, port := none }
def sPath (e : QEntry) (xk n : Nat) : State :=
  { sX { e with started := true } with
    xfer := { State.reset.xfer with exch := [exch1 e xk], paths := [((0, .tract 1), [item1 n])] } }
theorem wit_Exchange_credit : ∀ n ∈ [1, 2], ∀ s ∈ [sPath eDisp 0 n], s.xfer.paths.get (0, .tract 1) [] = [item1 n] ∧
    (s.xfer.paths.map (fun q => q.1)).Nodup ∧ s.canLand 0 (item1 n).seg = true ∧ inFlight [item1 n] = 0 ∧ (item1 n).flight < (item1 n).units ∧
    s.stoppedItem (.tract 1) (item1 n) = false := by decide
theorem wit_Exchange_timeout :
    ((sPath (eColl 7) 4 1).xfer.exch.filter (fun x => decide (x.tract = 0) && decide (x.key.xk ≤ 4)))[0]? = some (exch1 (eColl 7) 4) ∧
      ((sPath (eColl 7) 4 1).queue qTr).entries = [{ eColl 7 with started := true }] ∧ ((sPath (eColl 7) 4 1).queue qTr).stopped = false ∧
      ((sPath (eColl 7) 4 1).queue qTr).hold = none ∧ ((sPath (eColl 7) 4 1).fab 0).collector = [] ∧
      (sPath (eColl 7) 4 1).silentPeers (exch1 (eColl 7) 4) = [] ∧ (sPath (eColl 7) 4 1).regBits (tractReg .clStat 0) 0 0 = 0 :=
  ⟨by rfl, by rfl, by rfl, by rfl, by rfl, by rfl, by rfl⟩
theorem wit_Exchange_silent : (sPath (ent [7, 0, 3, 1, 0x100, 0, 0x200, 0, 0x300, 0, 16, 9]) 4 1).silentPeers
    (exch1 (ent [7, 0, 3, 1, 0x100, 0, 0x200, 0, 0x300, 0, 16, 9]) 4) = [(0, 1)] := by rfl
theorem wit_Exchange_tiles : (sPath eDisp 0 1).pendingGroup p0 = some (exch1 eDisp 0, (exch1 eDisp 0).groups[0]) ∧
    ((sPath eDisp 0 1).fab 0).collector = [] := ⟨by rfl, by rfl⟩
/-- The list of the parcel is full. -/
def sFull : State := { sPath eDisp 0 1 with parcels := [(p0, { Parcel.reset with tiles := List.replicate 2048 (tile 0) })] }
theorem wit_Exchange_full : sFull.pendingGroup p0 = some (exch1 eDisp 0, (exch1 eDisp 0).groups[0]) ∧ (sFull.fab 0).collector = [] := ⟨by rfl, by rfl⟩
theorem wit_Exchange_no_room : sFull.tileFree p0 = 0 := by
  have hl : sFull.layout p0.tract = 8322 := by rfl
  have ht : (sFull.parcel p0).tiles.length = 2048 := List.length_replicate
  simp [State.tileFree, State.tileCap, hl, ht, bitsOf]
theorem test_credit_unit : after (exec (.creditUnit 0 (.tract 1)) (sPath eDisp 0 2)) (fun t => (t.xfer.paths.get (0, .tract 1) []).map (fun i => i.units)) =
    some [1] := by rfl
theorem test_exchange_timeout : after (exec (.exchangeTimeout 0 0) (sPath (eColl 7) 4 1)) (fun t =>
    ((t.fab 0).collector.map (fun r => r.cls), t.regBits (tractReg .clStat 0) 3 1)) = some ([.closureFault], 2) := by rfl
theorem test_tile_write : after (exec (.tileEntryWrite p0) (sPath eDisp 0 1)) (fun t => (t.parcel p0).tiles.length) = some 1 := by rfl

-- plans and the step boundary

/-- A plan of 64 bytes without records, for a step. -/
def planBytes (step : Nat) : List Byte :=
  natLe 4 0x4E41_4C50 ++ [1, 0, 0, 0] ++ natLe 8 step ++ natLe 8 77 ++ natLe 4 64 ++ List.replicate 36 0
def sPlan : State :=
  { State.reset with job := { State.reset.job with state := .owned }, plan := { State.reset.plan with fetching := some 0x40 } }
theorem wit_PlansBecomePending : sPlan.plan.fetching = some 0x40 ∧ sPlan.planVerdict (planImage (planBytes 1) []) = .valid ∧
    sPlan.tablesVerdict (planImage (planBytes 1) []) = .valid ∧ sPlan.planVerdict (planImage (planBytes 0) []) = .late ∧
    sPlan.planVerdict (planImage (planBytes 2) []) = .rejected 8 none ∧ sPlan.job.state = .owned := ⟨by rfl, by rfl, by rfl, by rfl, by rfl, by rfl⟩
/-- A plan that names slot table 0, which then has no slot. -/
def slotPlan : List Byte :=
  natLe 4 0x4E41_4C50 ++ [1, 0, 0, 0] ++ natLe 8 1 ++ natLe 8 77 ++ natLe 4 80 ++ List.replicate 6 0 ++ [1] ++ List.replicate 13 0 ++ [64] ++
    List.replicate 19 0 ++ List.replicate 12 0
theorem wit_PlansBecomePending_table : sPlan.planVerdict (planImage slotPlan [[]]) = .valid ∧
    sPlan.tablesVerdict (planImage slotPlan [[]]) = .rejected 2 (some 0) := ⟨by rfl, by rfl⟩
theorem test_plan_late : after (exec (.planValidated (.ok (planBytes 0) [])) sPlan) (fun t => (t.regBits (modReg .planStat) 4 4, t.plan.pending)) =
    some (1, none) := by rfl

theorem filter_zero (n : Nat) (f : Nat → Bool) (h : ∀ m, f m = (m == 0)) : (List.range (n + 1)).filter f = [0] := by
  rw [List.range_succ_eq_map, List.filter_cons_of_pos (by simp [h])]
  simp [h]
theorem modules_alone (s : State) (hm : s.job.moduleId = 0) (h : ∀ n, s.reg (modRegI .jobMap n) = 0) : s.jobModules = [0] := by
  refine filter_zero 4095 _ ?_
  intro m; simp [State.inJob, h, hm, bitOf]
def sBnd (ph : BndPhase) (p : Option PlanImage) : State :=
  { State.reset with
    job := { State.reset.job with state := .armed }
    errs := { State.reset.errs with running := true }, regs := [(modReg .relCtl, 0)]
    mem := { Mem.reset with bytes := (List.finRange 12).map (fun t => (markKey (tract0 t) State.reset.emark, 1)) }
    plan := { State.reset.plan with stepped := true, inForce := p, bnd := { Boundary.reset with phase := ph, tA := 500 } } }
theorem wit_Boundary_alone (ph : BndPhase) (p : Option PlanImage) : Alone (sBnd ph p) := by
  have h : (sBnd ph p).jobModules = [0] := modules_alone _ rfl (fun _ => rfl)
  have hp : (sBnd ph p).treePlace = 0 := by simp [State.treePlace, h]; rfl
  exact ⟨by simp [State.treeParent, hp], by simp [State.treeKids, hp, h]⟩
theorem wit_Boundary_end : (sBnd .none none).mem.wf = true ∧ (sBnd .none none).job.state = .armed ∧ (sBnd .none none).errs.running = true ∧
    (sBnd .none none).plan.stepped = true ∧ (sBnd .none none).plan.bnd.phase = .none ∧ (sBnd .none none).errs.abort = none ∧
    (sBnd .none none).regBits (modReg .relCtl) 16 15 = 0 ∧ (sBnd .none none).snapAsked = none := ⟨by rfl, by rfl, by rfl, by rfl, by rfl, by rfl, by rfl, by rfl⟩
theorem wit_Boundary_ended : (sBnd .none none).stepEnded = true := by decide
theorem wit_Boundary_closure : (sBnd .none none).closureCheck.2 = true := by rfl
theorem wit_Boundary_snapshot : (sBnd .snapshot (some plan1)).plan.bnd.phase = .snapshot ∧ (sBnd .snapshot (some plan1)).plan.inForce ≠ none ∧
    (sBnd .none (some (planImage [0, 0, 0, 0, 0, 0, 1] []))).snapAsked ≠ none ∧ (2 ^ 32 - 1 : Nat) < 2 ^ 32 := by decide
theorem wit_Boundary_quiet : (sBnd .snapshot (some plan1)).quiet = true ∧ (sBnd .snapshot (some plan1)).regBits (modReg .relCtl) 16 15 = 0 ∧
    { sBnd .snapshot (some plan1) with engWaits := [(qMov, { key := 0, thr := 1, met := false, told := false })] }.quiet = false := by decide
def planAt (step : Nat) : PlanImage := planImage (planBytes step) []
def sVote (ph : BndPhase) (p : Option PlanImage) : State :=
  { sBnd ph (some plan1) with plan := { (sBnd ph (some plan1)).plan with pending := p, reused := true } }
theorem wit_Boundary_vote : (∀ p ∈ [none, some (planAt 1)], (sVote .agreed p).plan.bnd.phase = .agreed ∧ (sVote .agreed p).errs.abort = none ∧
    (sVote .agreed p).plan.pending = p) ∧ (planAt 1).step = (sVote .agreed none).job.step.toNat + 1 ∧ (planAt 1).planId < 2 ^ 64 ∧
    (sVote .agreed none).plan.inForce ≠ none ∧ (sVote .voted none).plan.bnd.phase = .voted ∧ (sVote .voted none).plan.reused = true ∧
    (sVote .voted none).mem.wf = true := by decide
theorem wit_Boundary_smark : ∀ t : Tract, Counts (sVote .voted none) (tract0 t) (sVote .voted none).smark := by unfold Counts; decide
theorem wit_Boundary_timeout : ∀ ph ∈ [BndPhase.agreed, .vote, .agree], (sBnd ph none).plan.bnd.phase = ph ∧ (sBnd ph none).errs.running = true := by decide

/-- The second module of a job of two, or the first: the other is its parent, or its child; one port is UP. -/
def sPair (own : BitVec 12) (ph : BndPhase) : State :=
  { sBnd ph none with job := { State.reset.job with state := .armed, moduleId := own }, regs := [(modRegI .jobMap 0, 3), (modRegI .linkStat 3, 5)] }
theorem filter_two (n : Nat) (f : Nat → Bool) (h : ∀ m, f m = (m == 0 || m == 1)) : (List.range (n + 2)).filter f = [0, 1] := by
  rw [List.range_succ_eq_map, List.filter_cons_of_pos (by simp [h]), List.range_succ_eq_map, List.map_cons, List.filter_cons_of_pos (by simp [h])]
  simp [h]
theorem modules_pair (own : BitVec 12) (ph : BndPhase) (h : own = 0 ∨ own = 1) : (sPair own ph).jobModules = [0, 1] := by
  refine filter_two 4094 _ ?_
  intro m
  have hr : (sPair own ph).reg (modRegI .jobMap (m / 64)) = if m / 64 = 0 then 3 else 0 := by
    by_cases hm : m / 64 = 0
    · rw [hm]; rfl
    · simp only [hm, if_false]
      have hk : modRegI .jobMap 0 ≠ modRegI .jobMap (m / 64) := by
        intro hh; exact hm (congrArg RegKey.i hh).symm
      have hl : modRegI .linkStat 3 ≠ modRegI .jobMap (m / 64) := by
        intro hh
        have hr : RegName.linkStat = RegName.jobMap := congrArg RegKey.r hh
        cases hr
      unfold State.reg sPair
      simp only [AMap.get, if_neg hk, if_neg hl]
      rfl
  unfold State.inJob
  rw [hr]
  have ho : (sPair own ph).job.moduleId = own := rfl
  rw [ho]
  by_cases hm : m < 64
  · have hz : m / 64 = 0 := by omega
    rw [if_pos hz, Nat.mod_eq_of_lt hm]
    rcases h with rfl | rfl
    · clear hr hz; revert m; decide
    · clear hr hz; revert m; decide
  · have hz : ¬ m / 64 = 0 := by omega
    rw [if_neg hz]
    have h0 : bitOf 0 (m % 64) = false := by simp [bitOf]
    rw [h0]
    rcases h with rfl | rfl <;> simp <;> omega
theorem wit_Boundary_records :
    (sPair 1 .agree).treeParent = some 0 ∧ (sPair 1 .agree).plan.bnd.phase = .agree ∧ 1 ∈ (sPair 0 .none).treeKids ∧ (sPair 0 .none).plan.bnd.own = none := by
  have h0 := modules_pair 0 .none (.inl rfl)
  have h1 := modules_pair 1 .agree (.inr rfl)
  have p0 : (sPair 0 .none).treePlace = 0 := by unfold State.treePlace; rw [h0]; rfl
  have p1 : (sPair 1 .agree).treePlace = 1 := by unfold State.treePlace; rw [h1]; rfl
  exact ⟨by unfold State.treeParent; rw [p1, h1]; rfl, rfl, by unfold State.treeKids; rw [p0, h0]; decide, rfl⟩
theorem wit_Boundary_up : ∀ own ∈ [0, 1], (sPair own .agree).anyUp = true := by decide
/-- The child, whose vote is for the plan of the next step; another plan, that one, or none is pending. -/
def sBallot (pend : Option PlanImage) : State :=
  { sPair 1 .vote with plan := { (sPair 1 .vote).plan with pending := pend, bnd := { (sPair 1 .vote).plan.bnd with ballot := some (planAt 1) } } }
theorem wit_Boundary_ballot : ∀ pend ∈ [none, some (planAt 1), some (planAt 2)], (sBallot pend).plan.bnd.phase = .vote ∧
    (sBallot pend).plan.bnd.ballot = some (planAt 1) ∧ (planAt 1).step = (sBallot pend).job.step.toNat + 1 ∧ 78 = (planAt 1).planId + 1 ∧
    (sBallot pend).anyUp = true := by decide
/-- A snapshot to the host, which is there or not, and to this module itself. -/
def snapPlan (k : Nat) : PlanImage := planImage ((planAt 0).bytes.set 6 (BitVec.ofNat 8 k)) []
def sSnap (k : Nat) (up : Bool) : State := { sBnd .snapshot (some (snapPlan k)) with host := { State.reset.host with up := up } }
theorem wit_Boundary_reaches : (sSnap 1 true).snapReaches (snapPlan 1) = true ∧ (sSnap 2 false).snapReaches (snapPlan 2) = true ∧
    (sSnap 1 false).snapReaches (snapPlan 1) = false ∧ (sSnap 1 false).errs.cdQueue = [] ∧ (sSnap 1 false).regBits (modReg .relCtl) 15 15 = 0 ∧
    (sSnap 1 true).quiet = true ∧ (sSnap 1 true).errs.abort = none := by decide +kernel
theorem test_boundary_timeout : after (exec .boundaryTimeout (sBnd .vote none)) (fun t => t.plan.bnd.phase) = some .broken := by rfl

-- slots

/-- Table 0: port 3 sends to module 1 and receives from it in slot 0 of 1; port 4 relays for module 2. -/
def slots1 : List Byte :=
  [0, 0, 1, 0, 3, 0, 0, 0, 0, 0, 0, 0, 0, 0, 0, 0] ++ [0, 0x30, 0, 0, 1, 0, 1, 0, 64, 0, 0, 0, 0, 0, 0, 0] ++
    [0, 0x30, 1, 0, 1, 0x30, 0, 0, 0, 0, 0, 0, 0, 0, 0, 0] ++ [0, 0x40, 3, 0, 1, 0x30, 2, 0, 0, 0, 0, 0, 0, 0, 0, 0]
def seg1 (xk : Nat) : Segment :=
  { hdr := { hdrX xk with dmod := 1, count := 1 }, rows := [{ bytes := List.replicate 32 5, poison := [] }] }
/-- A collective of modules 0 and 1 runs on tract 0 with one segment for module 1; ports 3 and 4 are up. -/
def xSlot : Exch := { exch1 (eColl 7) 4 with out := [seg1 4] }
def send1 (ph : SlotPhase) (xk : Nat) : SlotSend :=
  { inst := 9, table := 0, pos := 0, tract := some 0, key := { xk := xk, layer := 0, mb := 0, cid := 0 }, dmod := 1, limit := 64, segs := [seg1 xk], phase := ph }
def sSlot (ws : List SlotSend) : State :=
  { State.reset with
    job := { State.reset.job with state := .armed }, mem := { Mem.reset with bytes := [(0x100, 1)] }
    plan := { State.reset.plan with stepped := true, inForce := some { bytes := planBytes 1, tables := [(0, slots1)] } }
    xfer := { State.reset.xfer with exch := [xSlot], sends := [(3, ws)] }
    regs := [(modRegI .linkStat 3, 5), (modRegI .linkStat 4, 5)] }
def ent1 : SlotEnt := slotEnt slots1 16
theorem wit_Slot_stage : (sSlot []).sendAt 3 9 = none ∧ ((sSlot []).sendsOf 3).length < 8 ∧ (sSlot []).plan.stepped = true ∧
    (sSlot []).slotOwner 3 9 = some (0, ent1, some xSlot.key) ∧ ent1.relay = false ∧
    (sSlot []).xfer.exch.find? (fun x => decide (x.tract.val = ent1.stract) && decide (x.key = xSlot.key) && decide (x.first ≤ 9) && !x.halted) = some xSlot ∧
    (takeContent ((sSlot []).stageable xSlot ent1.dmod 9).1 ent1.limit).1 ≠ [] := by
  refine ⟨by rfl, by decide, by rfl, by rfl, by rfl, by rfl, ?_⟩
  decide
theorem wit_Slot_freeze : (∀ x ∈ (sSlot [send1 .staged 4]).xfer.exch, ∀ d, (sSlot [send1 .staged 4]).endsSlack x d 9 3 = false) ∧
    (sSlot [send1 .staged 4]).sendAt 3 9 = some (send1 .staged 4) ∧ (sSlot [send1 .staged 4]).portState 3 = 5 ∧
    (sSlot [send1 .staged 4]).slotOwner 3 9 = some (0, ent1, some xSlot.key) := by
  refine ⟨?_, by rfl, by rfl, by rfl⟩
  intro x hx d
  simp only [sSlot, List.mem_singleton] at hx
  subst hx; rfl
theorem wit_Slot_transmit : (∀ ph ∈ [SlotPhase.frozen, .marker true, .marker false, .sent], (sSlot [send1 ph 0]).sendAt 3 9 = some (send1 ph 0) ∧
    (send1 ph 0).phase = ph ∧ (sSlot [send1 ph 0]).portState 3 = 5) ∧ (∀ g ∈ (send1 .sent 0).segs, g.hdr.type = 1 ∧ g.hdr.xk ≤ 3) ∧
    (send1 .sent 0).table = 0 ∧ (send1 .sent 0).tract = some 0 := by
  refine ⟨?_, by decide, by rfl, by rfl⟩
  simp only [List.mem_cons, List.mem_nil_iff, or_false]
  rintro ph (rfl | rfl | rfl | rfl) <;> exact ⟨by rfl, by rfl, by rfl⟩
def frame1 (p : Nat) (dmod : Nat) : FrameHdr :=
  { kind := 1, reason := 0, table := 0, pos := 0, smod := 1, sport := p, inst := 9, step := 0, len := 0, dmod := dmod }
theorem wit_Slot_frames : (sSlot []).frameCode 3 (frame1 3 5) [] = (2, none) ∧ (sSlot []).frameCode 3 (frame1 3 0) [] = (0, some (slotEnt slots1 32)) ∧
    (sSlot []).frameCode 4 (frame1 3 2) [] = (0, some (slotEnt slots1 48)) ∧ (slotEnt slots1 48).relay = true ∧ 5 ≤ (sSlot []).portState 4 :=
  ⟨by rfl, by rfl, by rfl, by rfl, by decide⟩
def sPart (bs : List Byte) : State :=
  { State.reset with links := [(3, { (State.reset.link 3) with rx := [(0, bs)] })] }
theorem wit_Slot_incomplete : ∀ bs ∈ [[1], List.replicate 8 0 ++ natLe 8 9], (((sPart bs).link 3).rx.get 0 [] ≠ []) ∧
    ((((sPart bs).link 3).rx.get 0 []).length < 16 ∨ fieldAt (((sPart bs).link 3).rx.get 0 []) 8 8 = 9) := by decide
theorem test_slot_stage : after (exec (.slotStage 3 9) (sSlot [])) (fun t => ((t.sendsOf 3).map (fun w => (w.inst, w.segs.length)),
    t.xfer.exch.map (fun x => x.out.length))) = some ([(9, 1)], [0]) := by rfl
theorem test_sack : after (exec (.sack 3 0 9 0 0) (sSlot [send1 .sent 0])) (fun t => (t.regBits (tractReg .clSend 0) 63 32, (t.sendsOf 3).length)) =
    some (1, 0) := by rfl
theorem test_slot_marker : after (exec (.slotTransmit 3 9) (sSlot [send1 (.marker true) 0])) (fun t => ((t.sendsOf 3).length, t.out.length)) =
    some (0, 1) := by rfl

-- home agents and the fabric

def ra1 (src : RaSrc) (op : FabOp) (addr : Nat) (st : RaStage) : RaEntry :=
  { tag := 5, gen := 21, src := src, cls := 0, addr := addr, op := op, posted := false, flag := false, preds := [], arrs := [], failed := false, epoch := 0
    stamp := 0, stage := st }
/-- Tract 1's request agent holds one entry; tract 0 holds bytes at 0x80 and at the mark 2 of parcel 0. -/
def sHome (e : RaEntry) : State :=
  { State.reset with fabs := [(1, { TractFab.reset with ra := [e] })], mem := { Mem.reset with bytes := [(0x80, 3), (0x81, 4), (markKey p0 2, 9)] } }
def opsHome : List (FabOp × Nat) :=
  [(.load 8, 0x80), (.store [1, 2], 0x82), (.atom 0 false 5 0, 0x80), (.mark (.add 1), 0x10_0003_F008)]
set_option maxRecDepth 8000 in
theorem wit_Home_serve : ∀ q ∈ opsHome, MayServe (sHome (ra1 (.core c0) q.1 q.2 .ready)) 0 1 5 (ra1 (.core c0) q.1 q.2 .ready) ∧
    isClaim q.2 (q.1.home.getD (.load 0)) = false ∧ (sHome (ra1 (.core c0) q.1 q.2 .ready)).mem.wf = true := by
  unfold opsHome
  simp only [List.mem_cons, List.mem_nil_iff, or_false]
  rintro q (rfl | rfl | rfl | rfl) <;> exact ⟨⟨by rfl, by rfl, by rfl, by rfl, by rfl, by rfl, by rfl, by rfl⟩, by rfl, by rfl⟩
def sHome0 : State := sHome (ra1 (.core c0) (.load 4) 0x80 .home)
set_option maxRecDepth 8000 in
theorem wit_Home_memory : sHome0.windowStatus 0x80 8 false = 0 ∧ sHome0.homeWriteStatus 0x82 2 false = 0 ∧
    sHome0.homeWriteStatus 0x80 4 true = 0 ∧ sHome0.regionLines 0x80 8 = [] ∧ sHome0.regionLines 0x82 2 = [] ∧ sHome0.markStatus (0x10_0003_F008) = 0 ∧
    keyParcel (0x10_0003_F008) = some p0 ∧ sHome0.barrierN p0 2 = none ∧ (sHome0.parcel p0).frozen.contains 2 = false ∧
    sHome0.markDamaged p0 2 = false ∧ addrMark (0x10_0003_F008) = 2 ∧ windowOf (gaOffset 0x80) = .slice 0x80 :=
  ⟨by rfl, by rfl, by rfl, by rfl, by rfl, by rfl, by rfl, by rfl, by rfl, by rfl, by rfl, by rfl⟩
theorem wit_Home_clean : Clean sHome0 0x80 8 := by unfold Clean; decide
theorem test_home_atom : after (exec (.homeAgentRequest 0 (.tract 1 5)) (sHome (ra1 (.core c0) (.atom 0 false 0x100 0) 0x80 .ready)))
    (fun t => t.mem.read 0x80 2) = some [3, 5] := by rfl
/-- A load of 4 bytes of module 0 from another, in the inbox; an answered load; an addition that combines. Port 3 leads to module 1. -/
def load4 (epoch : Nat) : MemMsg := { memMsg0 with mt := 1, addr := 0x80, len := 4, epoch := epoch, smod := 1 }
def answer1 : Response := { status := 0, data := [1], poison := 0 }
def comb1 : CombEntry := { id := 0, addr := 0x80, orOp := false, w64 := false, opd := 5, srcs := [.agent 1 21] }
def sIn : State :=
  { sHome (ra1 (.core c0) (.load 8) 0x80 (.answered answer1)) with
    fabric := { State.reset.fabric with rtab := [(1, 8), (2, 8)] }
    fabs := [(0, { TractFab.reset with inbox := [{ port := 3, msg := load4 0, credit := true, stamp := 0 }] }),
      (1, { TractFab.reset with ra := [ra1 (.core c0) (.load 8) 0x80 (.answered answer1)], comb := [comb1] })]
    regs := [(modReg .fabCtl, 0x400), (modRegI .linkStat 3, 5), (modRegI .linkStat 4, 6)] }
theorem wit_Home_link : sIn.dead 0 = false ∧ (sIn.fab 0).inbox = [{ port := 3, msg := load4 0, credit := true, stamp := 0 }] ∧ sIn.haMay 0 0 true = true ∧
    (load4 0).epoch = sIn.fabric.epoch ∧ sIn.route (load4 0).smod (msgHash (load4 0)) = .inl 3 ∧ (load4 0).mt = 1 ∧ (sIn.fab 0).comb = [] ∧
    isClaim (load4 0).addr (.load 4) = false ∧ sIn.windowStatus 0x80 4 false = 0 ∧ sIn.mem.wf = true :=
  ⟨by rfl, by rfl, by rfl, by rfl, by rfl, by rfl, by rfl, by rfl, by rfl, by rfl⟩
theorem wit_Home_combining : sIn.dead 1 = false ∧ (sIn.fab 1).comb[0]? = some comb1 ∧ sIn.homeWriteStatus 0x80 4 true = 0 := ⟨by rfl, by rfl, by rfl⟩
theorem wit_Home_combining_clean : Clean sIn 0x80 4 := by unfold Clean; decide
theorem wit_Home_completion : (sIn.fab 1).ra.find? (fun x => decide (x.tag = 5)) = some (ra1 (.core c0) (.load 8) 0x80 (.answered answer1)) ∧
    (ra1 (.core c0) (.load 8) 0x80 (.answered answer1)).op.isData = false ∧ answer1.status = 0 ∧ (sIn.core c0).wait = none ∧ (sIn.core c0).rels = [] :=
  ⟨by rfl, by rfl, by rfl, by rfl, by rfl⟩
theorem test_home_link : after (exec (.homeAgentRequest 0 .link) sIn) (fun t => ((t.fab 0).inbox.length, t.out.length)) = some (0, 1) := by rfl

theorem wit_Fabric_request : ∀ ep ∈ [0, 1], gaTract (load4 ep).addr < 12 ∧ 5 = sIn.portState 3 ∧ (load4 ep).mt < 8 ∧
    gaModule (load4 ep).addr = sIn.job.moduleId.toNat ∧ ((load4 ep).epoch = sIn.fabric.epoch ↔ ep = 0) ∧ gaBad (load4 ep).addr = false ∧
    sIn.route (load4 ep).smod (msgHash (load4 ep)) = .inl 3 := by
  simp only [List.mem_cons, List.mem_nil_iff, or_false]
  rintro ep (rfl | rfl) <;> exact ⟨by decide, by decide, by decide, by decide, by decide, by decide, by rfl⟩
/-- A request for module 2, one hop below the limit; port 4 is in FOREIGN. -/
def load5 : MemMsg := { load4 0 with addr := 2 * 2 ^ 52 + 0x80, hop := 13 }
set_option maxRecDepth 8000 in
theorem wit_Fabric_relay : gaModule load5.addr ≠ sIn.job.moduleId.toNat ∧ load5.mt < 8 ∧ load5.epoch = sIn.fabric.epoch ∧ load5.hop < 14 ∧
    sIn.route (gaModule load5.addr) (msgHash load5) = .inl 3 ∧ sIn.portState 4 = 6 := ⟨by decide, by decide, by rfl, by decide, by rfl, by rfl⟩
def rsp4 : MemMsg := { memMsg0 with mt := 8, tag := 5 + 5 * 4096, data := [1, 2, 3, 4], len := 4 }
def sAway (src : RaSrc) (js : JobState) : State :=
  { State.reset with
    job := { State.reset.job with state := js }, fabric := { State.reset.fabric with advancing := true }
    fabs := [(0, { TractFab.reset with nextGen := 22, ra := [ra1 src (.load 4) (2 ^ 52) (.away [3])] })], regs := [(modRegI .linkStat 3, 5)] }
theorem wit_Fabric_response : 5 = (sAway (.core c0) .owned).portState 3 ∧ 8 ≤ rsp4.mt ∧ rsp4.smod = (sAway (.core c0) .owned).job.moduleId.toNat ∧ rsp4.stract = 0 ∧
    ((sAway (.core c0) .owned).fab 0).ra = [ra1 (.core c0) (.load 4) (2 ^ 52) (.away [3])] ∧ (5 : Nat) = rsp4.tag % 4096 ∧ 21 % 16 = rsp4.tag / 4096 ∧
    0 = rsp4.epoch ∧ (ra1 (.core c0) (.load 4) (2 ^ 52) (.away [3])).op.isData = false := by decide
theorem wit_Fabric_timeout : ((sAway (.engine .mover) .owned).fab 0).ra = [ra1 (.engine .mover) (.load 4) (2 ^ 52) (.away [3])] ∧
    21 < ((sAway (.engine .mover) .owned).fab 0).nextGen := by decide
theorem wit_Fabric_epoch : (sAway (.core c0) .owned).fabric.advancing = true ∧ (sAway (.core c0) .owned).job.state ≠ .armed ∧
    (sAway (.core c0) .owned).job.state.trains = true ∧ ((sAway (.core c0) .owned).fab 1).collector = [] ∧ (sAway (.core c0) .owned).up.restore = .idle := by decide
theorem test_response : after (exec (.memoryMessage 3 rsp4) (sAway (.core c0) .owned)) (fun t => (t.fab 0).ra.map (fun e => e.stage)) =
    some [.answered { status := 0, data := [1, 2, 3, 4], poison := 0 }] := by rfl
theorem test_epoch_drain : after (exec .epochDrainEnd (sAway (.core c0) .owned)) (fun t => (t.fabric.epoch, (t.fab 0).ra.map (fun e => e.stage))) =
    some (1, [.answered { status := 6, data := [], poison := 0 }]) := by rfl

/-- The host may write to the registers of tract 0; the plot of parcel 0 has STASH_CFG enabled with 4 frames of 4 KiB from 0x1000. -/
def sHost : State :=
  { State.reset with
    job := { State.reset.job with state := .owned }, parcels := [(p0, inPlot [])]
    fabs := [(0, { TractFab.reset with ra := [ra1 (.core c0) (.load 8) (0x1F_0000_0000 + 0x8000 + 8) .ready] })]
    engWaits := [(qMov, { key := markKey p0 2, thr := 1, met := false, told := false })]
    regs := [(modReg .clkStat, 0x3FFC0), (tractRegI .stashCfg 0 3, 1 + 2 ^ 8 + 4 * 2 ^ 32)] }
theorem wit_HostMarks : HostMay sHost (parcelReg .markHwr p0) ∧ HostMay sHost (parcelRegI .markBcfg p0 31) ∧ HostMay sHost (parcelReg .stashStat p0) ∧
    HostMay sHost (tractRegI .stashCfg 0 255) ∧ sHost.rwlLocked = false ∧ sHost.mem.wf = true ∧ (0x402 : DWord).getLsbD 10 = true ∧ Counts sHost p0 2 ∧
    (0x3 : DWord).getLsbD 10 = false ∧ sHost.barrierN p0 3 = none ∧ stashCfgOk (sHost.writeResult (tractRegI .stashCfg 0 255) 0).1 = true := by
  unfold HostMay Counts; decide
theorem wit_HostMarks_bcfg : sHost.bcfgOk p0 31 (sHost.writeResult (parcelRegI .markBcfg p0 31) (5 + 1024 + 2 * 65536)).1 = true ∧
    bitOf (sHost.writeResult (parcelRegI .markBcfg p0 31) (5 + 1024 + 2 * 65536)).1 10 = true ∧ bitOf (sHost.reg (parcelRegI .markBcfg p0 31)) 10 = false := by decide
theorem wit_HostMarks_wait : sHost.engWaits.find? (fun w => decide (w.1 = qMov)) = some (qMov, { key := markKey p0 2, thr := 1, met := false, told := false }) ∧
    (sHost.fab 0).collector = [] := by decide
theorem wit_HostMarks_claim : sHost.readyEntry 0 5 = some (ra1 (.core c0) (.load 8) (0x1F_0000_0000 + 0x8000 + 8) .ready) ∧
    windowOf (gaOffset (0x1F_0000_0000 + 0x8000 + 8)) = .control 0x8008 ∧ 0x8000 ≤ 0x8008 ∧ keyParcel (0x1F_0000_0000 + 0x8000 + 8) = some p0 ∧
    sHost.haBlocked 0 (ra1 (.core c0) (.load 8) (0x1F_0000_0000 + 0x8000 + 8) .ready) false = false ∧ sHost.dead 0 = false ∧
    sHost.haMay 0 0 false = true ∧ (sHost.parcel p0).plot = some 3 ∧
    bitOf (sHost.reg (tractRegI .stashCfg 0 3)) 0 = true ∧ bitOf (sHost.parcel p0).stash.full 0 = false ∧
    (sHost.parcel p0).stash.used + 2 ≤ bitsOf (sHost.reg (tractRegI .stashCfg 0 3)) 46 32 := ⟨by rfl, by rfl, by decide, by rfl, by rfl, by rfl, by rfl, by rfl, by rfl, by rfl, by decide⟩
theorem test_claim : after (exec (.stashClaim p0 0 5) sHost) (fun t => ((t.parcel p0).stash.used, (t.fab 0).ra.map (fun e => e.stage))) =
    some (2, [.answered { status := 0, data := [0, 0x10, 0, 0, 0, 0, 0, 0], poison := 0 }]) := by rfl
theorem test_mark_hwr : after (exec (.markHwr p0 0x7_0000_0402) sHost) (fun t => t.markWord p0 2) = some 7 := by rfl

-- the vector engines

/-- The bytes that are not 0 of a run of words, as memory lists them. -/
def lay (a : Nat) (ws : List Nat) : List (Nat × Byte) :=
  ((ws.flatMap (natLe 4)).zipIdx.filter (fun q => decide (q.1 ≠ 0))).map (fun q => (a + q.2, q.1))
def cmKey : Nat := 0x10_0000_0000
/-- VADD of one FP32 element, 1.0 and 2.0; VTREE of two rows; VDOT; VNOP. -/
def vAdd : List Nat := [1, 1, 0x200, 0x210, 0, 0x220, 0, 0]
def vTree : List Nat := [0x12 + 2 * 2 ^ 24, 1, 0x200, 0, 16, 0x220, 0, 0]
def vDot : List Nat := [0x10, 1, 0x200, 0x210, 0, 0x220, 0, 0]
def vFlg : List Nat := [0x14 + 2 ^ 20, 0, 0, 0, 0, 0x220, 0, 0]
def vNop : List Nat := [0, 0, 0, 0, 0, 0, 0, 0]
def vbytes (ws : List Nat) : List Byte := ws.flatMap (natLe 4)
def sVec (ws : List Nat) : State :=
  { State.reset with
    mem := { Mem.reset with bytes := lay (cmKey + 0x200) [0x3F80_0000, 0, 0, 0, 0x4000_0000] }
    parcels := [(p0, { inPlot [] with vec := { Parcel.reset.vec with list := [vbytes ws, vbytes vNop] } })] }
theorem wit_VectorOperations : ∀ q ∈ [(0, vNop), (1, vAdd), (0x12, vTree), (0x10, vDot), (0x14, vFlg)],
    ((sVec q.2).parcel p0).vec.list = [vbytes q.2, vbytes vNop] ∧ (sVec q.2).lanesBad p0 = false ∧ (parseVDesc (vbytes q.2)).vop = q.1 ∧ (sVec q.2).vecStatus p0 (parseVDesc (vbytes q.2)) = 0 ∧
      (sVec q.2).mem.wf = true := by
  simp only [List.mem_cons, List.mem_nil_iff, or_false]
  rintro q (rfl | rfl | rfl | rfl | rfl) <;> exact ⟨by rfl, by rfl, by rfl, by rfl, by rfl⟩
theorem wit_VectorOperations_apart : ∀ ws ∈ [vNop, vAdd, vTree, vDot, vFlg], (parseVDesc (vbytes ws)).operands.Pairwise
    (fun a b => a.write = true ∨ b.write = true → Apart (vecKey p0 a.sp a.off) a.len (vecKey p0 b.sp b.off) b.len) := by
  unfold Apart; decide
theorem wit_VectorOperations_clean : ∀ o ∈ (parseVDesc (vbytes vTree)).operands, ∀ u ∈ unitsOf (vecKey p0 o.sp o.off) o.len,
    u ∉ (sVec vTree).mem.poison ∧ u ∉ (sVec vTree).mem.ce ∧ u ∉ (sVec vTree).mem.ue ∧ inside u (unitSize u) (sVec vTree).mem.par = [] := by decide
theorem test_fp_add : (fpAdd 0x3F80_0000 0x4000_0000).1 = 0x4040_0000 := by decide +kernel
theorem test_vnop : after (exec (.vnop p0) (sVec vNop)) (fun t => ((t.parcel p0).vec.list.length, t.mem.bytes.length)) = some (1, 3) := by rfl

def qVec : QueueId := engQueue 0 .vector
def eVrun : QEntry := ent [0x30, 0x100]
def eOpt : QEntry := ent [0x31, 0x100, 0x400, 0, 0x440, 0]
def shard : List Nat := [1, 0x1000, 0x1010, 0x1020, 0x1030, 0x1040, 1, 0, 0, 0, 0, 0, 0, 0, 0, 0]
/-- A plan whose one tensor is a sharded master of 2 bytes at 0x1000 of parcel 0. -/
def planShard : PlanImage :=
  { bytes := List.replicate 30 0 ++ [1, 0] ++ List.replicate 20 0 ++ [64, 0, 0, 0] ++ List.replicate 8 0 ++ vbytes [5 * 2 ^ 16 + 2 ^ 25, 0, 0x1000, 0, 1, 2, 0, 0]
    tables := [] }
/-- Lists at 0x100 of the commons of parcel 0: one VADD; one shard, with the hyperparameters at 0x400 and the norm at 0x440 of its slice. -/
def memVrun : List (Nat × Byte) :=
  [(0x1000000100, 1), (0x1000000120, 1), (0x1000000124, 1), (0x1000000129, 2), (0x100000012c, 16), (0x100000012d, 2), (0x1000000134, 32),
  (0x1000000135, 2)]
def memHyper : List (Nat × Byte) :=
  [(0x402, 128), (0x403, 63), (0x407, 63), (0x40b, 63), (0x40f, 63), (0x413, 63), (0x416, 128), (0x417, 63), (0x41e, 128), (0x41f, 63),
  (0x422, 128), (0x423, 63)]
def memShard : List (Nat × Byte) :=
  [(0x1000000100, 1), (0x1000000120, 1), (0x1000000125, 16), (0x1000000128, 16), (0x1000000129, 16), (0x100000012c, 32), (0x100000012d, 16),
  (0x1000000130, 48), (0x1000000131, 16), (0x1000000134, 64), (0x1000000135, 16), (0x1000000138, 1)]
/-- Plot 3 is parcel 0. -/
def sVrun (e : QEntry) (bs : List (Nat × Byte)) : State :=
  { sEng qVec e bs with
    parcels := [(p0, inPlot [])], regs := [(tractRegI .plotCfg 0 3, 1 + 2 ^ 12)]
    plan := { State.reset.plan with inForce := some planShard } }
def sOpt : State := sVrun eOpt (memHyper ++ memShard)
def sOptInf : State := sVrun eOpt (memHyper ++ [(0x442, 0x80), (0x443, 0x7F)] ++ memShard)
set_option exponentiation.threshold 1024 in
set_option maxRecDepth 8000 in
theorem wit_VectorEntries : Begins (sVrun eVrun memVrun) qVec eVrun ∧ Begins sOpt qVec eOpt ∧ eVrun.body 3 0 = 0 ∧ eOpt.body 3 0 = 1 ∧
    eVrun.vecListAt % 32 = 0 ∧ eOpt.vecListAt % 32 = 0 ∧ (sVrun eVrun memVrun).plotEmpty 0 (3 : BitVec 8).toNat = false ∧
    sOpt.plotEmpty 0 (3 : BitVec 8).toNat = false ∧ eVrun.bodyClean [(11, 0), (49, 32)] = true ∧
    eOpt.bodyClean [(11, 0), (49, 32), (127, 64), (191, 128)] = true ∧ eOpt.body 127 64 = 0x400 ∧ eOpt.body 191 128 = 0x440 ∧ eVrun.vecPlot = 3 ∧
    eOpt.vecPlot = 3 ∧ sOpt.mem.wf = true ∧ sOpt.up.restore = .idle :=
  ⟨⟨by rfl, by rfl⟩, ⟨by rfl, by rfl⟩, by rfl, by rfl, by decide, by decide, by rfl, by rfl, by decide, by decide, by rfl, by rfl, by rfl, by rfl, by rfl, by rfl⟩
set_option maxRecDepth 8000 in
theorem vrun_parcels (e : QEntry) (bs : List (Nat × Byte)) : (sVrun e bs).plotParcels 0 3 = [p0] := by
  unfold State.plotParcels
  rw [List.range_succ_eq_map, List.filterMap_cons]
  have h0 : keyParcel (keyOf (0 : Tract).val 0 0) = some p0 := by decide
  have hp : (sVrun e bs).parcel p0 = inPlot [] := rfl
  rw [h0]
  simp only [hp]
  have hs : ((inPlot []).plot == some 3) = true := rfl
  simp only [if_pos hs, List.cons.injEq, true_and]
  rw [List.filterMap_eq_nil_iff]
  intro i hi
  split
  · rename_i p hk
    have hne : p0 ≠ p := by
      intro hh
      subst hh
      simp only [List.mem_map, List.mem_range] at hi
      obtain ⟨j, hj, rfl⟩ := hi
      unfold keyParcel at hk
      split at hk
      · split at hk
        · have := congrArg (fun q => (q.map (fun p => p.parcel.val)).getD 7) hk
          simp [p0, keyOf, gaParcel, bitsOf] at this
          omega
        · cases hk
      · cases hk
    have : (sVrun e bs).parcel p = Parcel.reset := by
      unfold State.parcel sVrun
      simp only [AMap.get, if_neg hne]
    rw [this]
    simp [Parcel.reset]
  · rfl
set_option maxRecDepth 8000 in
theorem wit_VectorEntries_vrun : (sVrun eVrun memVrun).vecEntries p0 0x100 32 4096 = .inr [vbytes vAdd] := by
  have hn : leNat ((sVrun eVrun memVrun).peek (commonsKey p0 0x100) 4) = 1 := by rfl
  have h1 : ¬ (0x100 % 32 ≠ 0 ∨ 0x4_0000 < 0x100 + 32) := by decide
  have h2 : ¬ ((sVrun eVrun memVrun).poisoned (commonsKey p0 0x100) 32 = true) := by decide
  have h3 : ¬ (4096 < 1) := by decide
  have h4 : ¬ (0x4_0000 < 0x100 + 32 + 32 * 1 ∨ (sVrun eVrun memVrun).poisoned (commonsKey p0 (0x100 + 32)) (32 * 1) = true) := by decide
  have h5 : (sVrun eVrun memVrun).peek (commonsKey p0 (0x100 + 32)) (32 * 1) = vbytes vAdd := by decide
  unfold State.vecEntries
  rw [if_neg h1, if_neg h2]
  simp only [hn]
  rw [if_neg h3, if_neg h4, h5]
  rfl
theorem wit_VectorEntries_vrun_status : (sVrun eVrun memVrun).vecStatus p0 (parseVDesc (vbytes vAdd)) = 0 ∧
    ((sVrun eVrun memVrun).parcel p0).vec.entry = none := ⟨by rfl, by rfl⟩
set_option maxRecDepth 8000 in
theorem wit_VectorEntries_opt : sOpt.vecEntries p0 0x100 64 1024 = .inr [vbytes shard] := by
  have hn : leNat (sOpt.peek (commonsKey p0 0x100) 4) = 1 := by rfl
  have h1 : ¬ (0x100 % 32 ≠ 0 ∨ 0x4_0000 < 0x100 + 32) := by decide
  have h2 : ¬ (sOpt.poisoned (commonsKey p0 0x100) 32 = true) := by decide
  have h3 : ¬ (1024 < 1) := by decide
  have h4 : ¬ (0x4_0000 < 0x100 + 32 + 64 * 1 ∨ sOpt.poisoned (commonsKey p0 (0x100 + 32)) (64 * 1) = true) := by decide
  have h5 : sOpt.peek (commonsKey p0 (0x100 + 32)) (64 * 1) = vbytes shard := by decide
  unfold State.vecEntries
  rw [if_neg h1, if_neg h2]
  simp only [hn]
  rw [if_neg h3, if_neg h4, h5]
  rfl
theorem wit_VectorEntries_opt_status : sOpt.optAddr 0x400 64 = 0 ∧ sOpt.optAddr 0x440 4 = 0 ∧ sOpt.shardStatus p0 (parseShard (vbytes shard)) = 0 ∧
    (parseShard (vbytes shard)).wk = 0 ∧ (parseShard (vbytes shard)).exp = false := ⟨by rfl, by rfl, by rfl, by rfl, by rfl⟩
theorem wit_VectorEntries_opt_data : hyperOk (sOpt.peek 0x400 64) = true ∧ leNat (sOptInf.peek 0x440 4) = 0x7F80_0000 ∧ leNat (sOpt.peek 0x440 4) = 0 ∧
    (numOf (0 : Word)).isNan = false := ⟨by rfl, by rfl, by rfl, by rfl⟩
theorem wit_VectorEntries_opt_shared : ∀ s ∈ [sOpt, sOptInf], Unshared s 0 ∧ s.lanesBad p0 = false := by unfold Unshared; decide
set_option exponentiation.threshold 1024 in
set_option maxRecDepth 8000 in
theorem opt_recs : sOpt.optRecs 0 eOpt = [(p0, parseShard (vbytes shard))] := by
  have he : eOpt.vecPlot = 3 := by rfl
  have ha : eOpt.vecListAt = 0x100 := by rfl
  have hp : sOpt.plotParcels 0 3 = [p0] := vrun_parcels eOpt (memHyper ++ memShard)
  unfold State.optRecs State.optLists
  rw [he, ha, hp]
  simp [wit_VectorEntries_opt]
set_option maxRecDepth 8000 in
theorem wit_VectorEntries_opt_may : sOpt.engMay 0 .vector (sOpt.optReadRuns 0 eOpt) (sOpt.optWriteRuns 0 eOpt) = true := by
  unfold State.optReadRuns State.optWriteRuns
  rw [opt_recs]
  rfl
theorem wit_VectorEntries_apart : (parseShard (vbytes shard)).arrays.Pairwise (fun a b => Apart a.1 a.2 b.1 b.2) := by unfold Apart; decide
def eVecDone (w : EngWork) : QEntry := { eVrun with started := true, work := w }
theorem wit_VectorEntries_complete : ∀ w ∈ [EngWork.await [0], .status 1, .status 6], ((sVrun (eVecDone w) []).queue qVec).entries = [eVecDone w] ∧
    (eVecDone w).started = true ∧ (eVecDone w).work = w ∧ Quiet (sVrun (eVecDone w) []) qVec (eVecDone w) ∧
    ((sVrun (eVecDone w) []).queue qVec).stopped = false ∧ ((sVrun (eVecDone w) []).fab 0).collector = [] ∧ ((sVrun (eVecDone w) []).fab 0).ra = [] ∧
    (∀ p ∈ (eVecDone w).vecParcels 0, ((sVrun (eVecDone w) []).parcel p).vec.list = [] ∧ ((sVrun (eVecDone w) []).parcel p).vec.bad = false) := by
  unfold Quiet; decide
theorem test_vec_fault : after (exec (.vectorEntryComplete 0 0) (sVrun (eVecDone (.status 6)) [])) (fun t =>
    (t.fab 0).collector.map (fun r => (r.cls, fieldAt r.detail 0 1))) = some [(.vecFault, 6)] := by rfl

-- links and the ring

/-- Port 3 enabled, in a state, with a port record. -/
def sLink (st : Nat) (l : LinkPort) : State :=
  { State.reset with
    job := { State.reset.job with state := .ready }, links := [(3, l)]
    regs := [(modRegI .linkStat 3, st), (modRegI .linkCtl 3, 1), (modReg .linkJob, 9)] }
def tx1 (resent : Nat) : TxFlit := { seq := 4095, vc := 3, data := [1], resent := resent, last := 0 }
def lk0 : LinkPort := LinkPort.reset
theorem wit_Links_detect : (∀ st ∈ [0, 1, 4], (sLink st lk0).mayTrain 3 = true ∧ (sLink st lk0).portState 3 = st) ∧
    5 ≤ (sLink 5 lk0).portState 3 ∧ 5 ≤ (sLink 6 lk0).portState 3 ∧ ((sLink 4 { lk0 with parked := true }).link 3).parked = true ∧
    (sLink 5 lk0).job.state.trains = true := by decide
theorem wit_Links_fall : (∃ f ∈ ((sLink 5 { lk0 with retry := [tx1 8] }).link 3).retry, f.seq = 4095 ∧ 8 ≤ f.resent) ∧
    ((sLink 5 { lk0 with retry := [tx1 0] }).link 3).retry ≠ [] := by decide
theorem wit_Links_window : 2048 ≤ ((sLink 5 { lk0 with retry := List.replicate 2048 (tx1 0) }).link 3).retry.length := by
  show 2048 ≤ (List.replicate 2048 (tx1 0)).length
  rw [List.length_replicate]
theorem test_link_foreign : after (exec (.linkUp 3 { param0 with jobId := 8 }) (sLink 4 lk0)) (fun t => t.portState 3) = some 6 := by rfl
theorem test_downreq : after (exec (.downreq 3) (sLink 5 lk0)) (fun t => (t.regBits (linkStatR 3) 7 4, t.regBits (linkStatR 3) 3 3)) = some (5, 1) := by rfl

/-- The CRC-24 with generator 0x864CFB and initial value 0xB704CE has this value over the nine digits 1 to 9. -/
theorem test_crc24 : ([0x31, 0x32, 0x33, 0x34, 0x35, 0x36, 0x37, 0x38, 0x39] : List Byte).foldl crcByte 0xB704CE = 0x21CF02 := by decide +kernel
def flit1 : Flit := { fec0 := true, fec1 := true, bytes := flitBytes 0 3 [] }
set_option maxRecDepth 100000 in
theorem wit_Flits_crc : flit1.bytes.length = 1285 ∧ flitCrc flit1.bytes = fieldAt flit1.bytes 2 3 ∧ fieldAt flit1.bytes 0 2 = 0 + 4096 * 3 := by decide +kernel
theorem wit_Flits_receive : 5 ≤ (sLink 5 lk0).portState 3 ∧ ((sLink 5 lk0).link 3).held = [] ∧ ((sLink 5 lk0).link 3).next = 0 ∧
    ((sLink 5 { lk0 with next := 2049 }).link 3).held = [] ∧ (0 + 4096 - ((sLink 5 { lk0 with next := 2049 }).link 3).next) % 4096 = 2047 ∧ shortFlit.bytes.length = 1 := by decide
/-- In the guard; and outside it with a message that waits in virtual channel 0. -/
def sGuard : State := { sLink 5 lk0 with plan := { State.reset.plan with stepped := true, start := 0 }, mtime := 992 }
def sSend : State := sLink 5 { lk0 with tx := [(0, [{ data := [7], stamp := 0, via := none }])], retry := [tx1 0] }
theorem wit_Flits_guard : 5 ≤ sGuard.portState 3 ∧ sGuard.inGuard = true ∧ ({ sGuard with mtime := 1024 } : State).inGuard = false := by decide
theorem wit_Flits_send : sSend.inGuard = false ∧ (sSend.link 3).again = [] ∧ (sSend.link 3).retry.length < 2048 ∧ (sSend.link 3).quiet < 319 := by decide
theorem wit_Flits_channel : (sSend.link 3).vcOrder.find? (fun v => !((LinkPort.fill v 1281 (sSend.link 3)).cur.get v []).isEmpty) = some 0 := by decide +kernel
def sArmed : State := { State.reset with host := { State.reset.host with up := true }, regs := [(modRegI .linkStat 3, 5)], job := { State.reset.job with state := .armed }, errs := { State.reset.errs with running := true } }
theorem wit_Flits_notice : sArmed.job.state = .armed ∧ sArmed.anyUp = true ∧ sArmed.errs.running = true ∧ sArmed.errs.abort = none ∧ (sSend.link 3).eldest = false := by decide
theorem test_ctrl : after (exec (.ctrlFlit 3 { ctrl0 with rxseq := 4095 }) sSend) (fun t => (t.link 3).retry.length) = some 0 := by rfl

/-- A member that has heard two frames that agree; a master; a master that follows the loop at port 4. -/
def sRing (ctl stat agree : Nat) : State :=
  { State.reset with
    job := { State.reset.job with state := .ready }, mtime := 1000, meridian := { State.reset.meridian with agree := agree }
    regs := [(merCtl, ctl), (merStat, stat), (modRegI .linkStat 4, 5)] }
def frameA (mt : Nat) : TimeFrame := { time0 with master := 5, mt := mt }
theorem wit_Ring_member : (sRing 0 2 2).ringHears = true ∧ (sRing 0 2 2).isMaster = false ∧ (sRing 0 2 2).coasting = false ∧ (sRing 0 2 2).meridian.master = none ∧
    (frameA 1005).valid = true ∧ (timeDiff ((sRing 0 2 2).frameTime (frameA 1005)) 1000).natAbs ≤ 5 ∧
    5 < (timeDiff ((sRing 0 2 2).frameTime (frameA 1006)) 1000).natAbs := by decide
theorem wit_Ring_master : (sRing 65 6 0).isMaster = true ∧ (frameA 0).master ≠ (sRing 65 6 0).job.moduleId.toNat ∧ (sRing 65 6 0).ringOpen = true ∧ (sRing 65 2 0).ringOpen = false ∧
    (sRing 0 4 0).regBits merStat 2 2 = 1 ∧ (sRing 0 3 0).regBits merStat 1 0 = 3 ∧ (sRing 64 6 0).ringOpen = true := by decide
theorem wit_Ring_exchange : (sRing (2 + 4 * 4) 2 0).regBits merCtl 1 0 = 2 ∧ (sRing (2 + 4 * 4) 2 0).timePort = 4 ∧ (sRing (2 + 4 * 4) 2 0).portState 4 = 5 ∧
    (sRing (2 + 4 * 4) 2 0).meridian.t1 = 0 := by decide
theorem test_lock : after (exec (.timeFrame (frameA 1005)) (sRing 0 2 2)) (fun t => (t.mtime, t.regBits merStat 2 2)) = some (1005, 1) := by rfl
theorem test_dual : after (exec (.timeFrame (frameA 1005)) (sRing 1 2 0)) (fun t => (t.mtime, t.regBits merStat 4 4)) = some (1000, 1) := by rfl

-- queues and the host

/-- Queue 0 of tract 0 with a record given; its engine has the turn, and Q_CFG has QLOG 4 and EN set. -/
def sQueue (v : QueueState) : State :=
  { State.reset with
    job := { State.reset.job with state := .owned }, host := { State.reset.host with up := true }, queues := [(qDisp, v)], seqrs := [(0, { Seqr.reset with last := 3, grant := some .dispatcher })]
    regs := [(modReg .clkStat, 0x3FFC0), (queueReg .qCfg qDisp, 4 + 2 ^ 10)] }
def q5 : QueueState := { QueueState.reset with tail := 5 }
def qStop : QueueState := { QueueState.reset with stopped := true, fault := some pt0 }
theorem wit_Queues_doorbell : (sQueue q5).job.state.trains = true ∧ (sQueue q5).tractServed 0 = true ∧
    ((16 : Word) - BitVec.ofNat 32 ((sQueue q5).queue qDisp).tail).toNat < 2 ^ 31 ∧
    ((16 : Word) - BitVec.ofNat 32 ((sQueue q5).queue qDisp).head).toNat = 2 ^ (sQueue q5).regBits (queueReg .qCfg qDisp) 4 0 ∧
    2 ^ (sQueue q5).regBits (queueReg .qCfg qDisp) 4 0 < ((17 : Word) - BitVec.ofNat 32 ((sQueue q5).queue qDisp).head).toNat ∧
    2 ^ 31 ≤ ((4 : Word) - BitVec.ofNat 32 ((sQueue q5).queue qDisp).tail).toNat ∧ ((sQueue q5).queue qDisp).stopped = false := by decide
/-- A later slot's entry had started; its NEXT ends the chain, or goes on. -/
def last0 (next : Nat) : QPoint := { pt0 with slot := 7, next := next }
theorem wit_Queues_restart : ((sQueue qStop).queue qDisp).stopped = true ∧ ((sQueue qStop).queue qDisp).busy = false ∧
    ((sQueue qStop).queue qDisp).fault = some pt0 ∧ pt0.addr ≠ 0 ∧ qStop.last = none ∧
    ((sQueue { qStop with entries := [{ ent [] with started := true }] }).queue qDisp).busy = true ∧ (2 : BitVec 2) ≠ 3 ∧
    (∀ next ∈ [0, 128], ∀ v ∈ [((sQueue { qStop with cause := 3, last := some (last0 next) }).queue qDisp)], v.stopped = true ∧ v.busy = false ∧
      v.fault = some pt0 ∧ v.cause ≠ 0 ∧ v.last = some (last0 next) ∧ pt0.slot < (last0 next).slot ∧ (last0 next).read = true ∧
      (linkBad (last0 next).next = true ↔ next = 0)) := by decide
theorem wit_Queues_turn : (sQueue q5).canFetch (engQueue 0 (engineOf (3 + 1 + 0))) = true ∧
    (∀ e ∈ [Engine.dispatcher, .mover, .transit, .vector], (sQueue qStop).canFetch (engQueue 0 e) = false) ∧
    ((sQueue q5).seqrs.get 1 Seqr.reset).grant ≠ some .dispatcher ∧
    (∀ e ∈ [Engine.dispatcher, .mover, .transit, .vector], ((sQueue q5).queue (engQueue 0 e)).sigWait = []) := by decide
def qChain : QueueState := { q5 with chain := some (0x1000, false, 65535) }
/-- An entry header of engine 0 without a mark, whose NEXT ends the chain, or names 0x80 in host memory. -/
def header (next : Nat) : List Byte := natLe 8 next ++ List.replicate 120 0
set_option maxRecDepth 8000 in
theorem wit_Queues_fetch : ((sQueue qChain).seqrs.get 0 Seqr.reset).grant = some .dispatcher ∧ (sQueue qChain).canFetch qDisp = true ∧
    ((sQueue qChain).queue qDisp).headEntry = none ∧ ((sQueue qChain).queue qDisp).chain = some (0x1000, false, 65535) ∧
    (∀ n ∈ [0, 128], (header n).length = 128 ∧ headerBad qDisp (header n) = false ∧ bitOf (fieldAt (header n) 22 2) 10 = false) ∧
    ((sQueue qChain).queue qDisp).skip = none ∧ 65535 < 65536 ∧ replyBytes .failed 128 = none := by decide
def qFull (told : Bool) : QueueState := { q5 with cplWait := [([], false)], cplTold := told }
theorem wit_Queues_full : ((sQueue (qFull false)).queue qDisp).cplWait ≠ [] ∧ ((sQueue (qFull false)).queue qDisp).cplTold = false ∧
    ((sQueue (qFull false)).fab 0).collector = [] ∧ ((sQueue (qFull true)).queue qDisp).cplTold = true := by decide
theorem test_doorbell : after (exec (.doorbell qDisp 16) (sQueue q5)) (fun t => (t.queue qDisp).tail) = some 16 := by rfl
theorem test_doorbell_bad : after (exec (.doorbell qDisp 17) (sQueue q5)) (fun t => ((t.queue qDisp).stopped, (t.queue qDisp).cause)) = some (true, 5) := by rfl
set_option maxRecDepth 8000 in
theorem test_fetch_ends : after (exec (.chainEntryFetch qDisp .failed (.ok (header 0))) (sQueue qChain)) (fun t =>
    ((t.queue qDisp).entries.length, (t.queue qDisp).chain, (t.queue qDisp).slot)) = some (1, none, 1) := by rfl

/-- Aperture 0 maps tract 0 at address 0x1000. -/
def sBar (valid : Bool) : State :=
  { State.reset with
    job := { State.reset.job with state := .ready }, host := { State.reset.host with up := true, bar2 := some 0 }
    regs := [(modReg .clkStat, 0x3FFC0), (modRegI .winMap 0, 0x1000 + (if valid then 2 ^ 63 else 0))] }
theorem wit_Host_aperture : ∀ b ∈ [true, false], ∀ s ∈ [sBar b], s.job.state.trains = true ∧ s.mem.wf = true ∧ s.apertureSize = 2 ^ 20 ∧
    0 / s.apertureSize < 1024 ∧ bitOf (s.reg (modRegI .winMap (0 / s.apertureSize))) 63 = b ∧
    (bitsOf (s.reg (modRegI .winMap (0 / s.apertureSize))) 51 0 + 0 % s.apertureSize) % 2 ^ 52 = 0x1000 ∧ 0 % s.apertureSize + 8 ≤ s.apertureSize := by
  decide
theorem wit_Host_status : (sBar true).pieceStatus (some 0x1000, 0, 8) false = 0 ∧ (sBar true).pieceStatus (some 0x1000, 0, 8) true = 0 ∧
    (sBar true).pieceStatus (some 0x10_0003_F008, 0, 4) true = 2 := by decide +kernel
/-- In step 5 of the boot the endpoint is up and serves nothing yet. -/
def sBoot5 : State :=
  { State.reset with job := { State.reset.job with state := .boot }, host := { State.reset.host with up := true }, regs := [(modReg .bootStat, 5)] }
def sPins (p : Pins) : State := { State.reset with up := { State.reset.up with pins := p } }
theorem wit_Host_link : State.reset.host.held = false ∧ ({ State.reset with host := { State.reset.host with up := false, held := true } } : State).host.held = true ∧
    sArmed.job.state = .armed ∧ sArmed.host.up = true ∧ sArmed.errs.cdQueue = [] ∧
    (sPins { State.reset.up.pins with perstFast := true }).up.pins.perstFast = true ∧
    (sPins { State.reset.up.pins with perstFast := true }).up.pins.perstLow = false ∧ (sPins { State.reset.up.pins with perstLow := true }).up.pins.perstLow = true ∧
    State.reset.job.state = .reset ∧ (sBar true).job.state ≠ .owned ∧ (sBar true).job.state ≠ .armed := by decide
theorem wit_Host_access : ∀ a ∈ [({ offset := 2, size := 4, value := 0 } : RegAccess), { offset := 0, size := 3, value := 0 }],
    (a.size ≠ 1 ∧ a.size ≠ 2 ∧ a.size ≠ 4 ∧ a.size ≠ 8) ∨ a.offset % a.size ≠ 0 := by decide
theorem wit_Host_bar : (sBar true).servesFailed = true ∧ (sBar true).host.up = true ∧ (sBar true).host.held = false ∧
    (sBar true).barRead 0x100 4 = some [0, 0, 0, 0] ∧ sBoot5.servesFailed = false ∧ sBoot5.host.up = true ∧ sBoot5.host.held = false := by decide
/-- SNAP_HOST lies at 0x5040: its low half latches the high one, which the next access returns. -/
theorem wit_Host_latch : ∀ s ∈ [{ sBar true with host := { (sBar true).host with latched := [(.reg (modReg .snapHost), 7)] } }],
    s.barPlace 20544 = .reg (modReg .snapHost) 0 ∧ s.barPlace 20548 = .reg (modReg .snapHost) 4 ∧ (modReg .snapHost).r.row.width = 64 ∧
    s.serves (modReg .snapHost) = true ∧ (s.barRead 20544 4).isSome = true ∧ (s.barRead 20548 4).isSome = true ∧ ¬0x14_1000 < 20548 + 4 ∧
    s.host.latched.find? (fun q => decide (q.1 = .reg (modReg .snapHost))) = some (.reg (modReg .snapHost), 7) := by decide
theorem wit_Host_linkup : (∀ s ∈ [sBoot5, sBar true], s.host.held = false ∧ s.job.state ≠ .reset ∧ (s.job.state = .boot → 2 ≤ s.phase)) ∧
    (∀ ph ∈ [0, 1], ({ sBoot5 with regs := [(modReg .bootStat, ph)] } : State).phase < 2) := by decide
theorem test_perst_low : after (exec (.perstN false true) State.reset) (fun t => (t.host.held, t.regBits (modReg .pinStat) 0 0)) = some (true, 1) := by rfl

/-- A module in a job state, BUSY or not. -/
def sJob (st : JobState) (busy : Bool) : State := { State.reset with job := { State.reset.job with state := st, busy := busy } }
theorem wit_Job : (∀ st ∈ [JobState.ready, .owned, .armed, .releasing], ∀ b ∈ [false, true], (sJob st b).job.state = st ∧ (sJob st b).job.busy = b ∧
    (sJob st b).updBusy = false) ∧ (sJob .releasing true).snapState ≠ 1 ∧ (sJob .releasing true).snapState ≠ 2 ∧
    (∀ q ∈ [qDisp, qMov], ((sJob .releasing true).queue q).busy = false) ∧
    ({ sJob .releasing true with regs := [(modReg .snapStat, 1)] } : State).snapState = 1 := by decide
theorem test_bind : after (exec (.bind 5) (sJob .ready false)) (fun t => (t.job.state, t.job.moduleId)) = some (.owned, 5) := by rfl
theorem test_release_idle : after (exec .release (sJob .ready false)) (fun t => t.job.state) = some .ready := by rfl
theorem test_drain : after (exec .releaseScrubDone (sJob .releasing true)) (fun t => (t.job.state, t.job.busy)) = some (.ready, false) := by rfl
theorem wit_Job_arm : (sJob .owned true).armFault = some (4, 0, none, 0) := by rfl
def sArm : State := { sJob .owned true with regs := [(modRegI .jobMap 0, 1)] }
theorem wit_Job_arm_ok : sArm.armFault = none := by
  have hp : sArm.poisoned 0 8192 = false := by
    simp [State.poisoned, Mem.badRange, Mem.badUnit, show sArm.mem = Mem.reset from rfl, Mem.reset, inside]
  have hw : sArm.windowStatus 0 8192 false = 0 := by decide
  have he : sArm.engineRead 0 8192 = some (sArm.peek 0 8192) := by
    unfold State.engineRead
    have h : (decide (gaModule 0 ≠ sArm.job.moduleId.toNat) || sArm.deadAt 0 || decide (sArm.windowStatus (0 % 2 ^ 52) 8192 false ≠ 0) ||
        sArm.poisoned (0 % 2 ^ 52) 8192) = false := by
      rw [Nat.zero_mod, hp, hw]; decide
    simp only [h]; rfl
  have hr : sArm.readRtab.isNone = false := by
    unfold State.readRtab
    rw [show sArm.reg (modReg .fabRtab) = 0 from rfl]
    simp only [he]
    rfl
  unfold State.armFault
  rw [hr]
  rfl

-- reset, boot, clocks, rails and power

/-- The module in boot at a step, held at RESET with RESET_N low, or in recovery. -/
def sBoot (st : JobState) (phase : Nat) (b : Boot) (regs : List (RegKey × Nat)) : State :=
  { State.reset with
    job := { State.reset.job with state := st }, up := { State.reset.up with boot := b }
    regs := (modReg .bootStat, phase) :: regs }
/-- A formed header: key slot 0, SVN 3, BLEN 4, slots 0 and 1 to revoke, COMMIT set or not. -/
def image (commit : Bool) : Image :=
  { header := [0x4D, 0x55, 0x4C, 0x4F, 1, 0, 0, 3, 4] ++ List.replicate 55 0 ++ [3 + (if commit then 16 else 0)] ++ List.replicate 4031 0, body := [0, 0, 0, 0] }
def img0 : Image := image true
def sImage (im : Image) : State :=
  { sBoot .ready 7 Boot.reset [] with up := { State.reset.up with sec := { State.reset.up.sec with running := some im } } }
def sNoImage : State := { sBoot .boot 3 Boot.reset [] with up := { State.reset.up with sec := { State.reset.up.sec with flash := none } } }
theorem wit_Boot_reset : (sBoot .ready 7 Boot.reset []).servesFailed = true ∧ (sBoot .boot 15 Boot.reset []).servesFailed = true ∧
    (sBoot .boot 14 Boot.reset []).servesFailed = true ∧ (0xA5C2 : BitVec 16) ≠ 0xA5C3 ∧ State.reset.up.boot.pinLow = true ∧ State.reset.up.boot.bad = [] ∧
    State.reset.up.boot.tripped = false ∧ (sBoot .ready 7 { Boot.reset with pinLow := false } []).up.boot.pinLow = false ∧
    (sBoot .reset 0 { Boot.reset with bad := [.vctl] } []).up.boot.bad ≠ [] ∧ (sBoot .reset 0 { Boot.reset with hold := .internal } []).up.boot.hold = .internal ∧
    (sBoot .reset 0 { Boot.reset with hold := .internal } []).job.state = .reset ∧ (sBoot .boot 1 Boot.reset []).job.state ≠ .reset := by decide
theorem wit_Boot_steps : (∀ n ∈ [1, 2, 3, 4, 5, 6], (sBoot .boot n Boot.reset []).job.state = .boot ∧ (sBoot .boot n Boot.reset []).phase = n) ∧
    (sBoot .boot 2 { Boot.reset with tries := 7 } []).up.boot.tries < 8 ∧ 8 ≤ (sBoot .boot 2 { Boot.reset with tries := 8 } []).up.boot.tries ∧
    (sBoot .boot 2 Boot.reset []).coasting = false ∧ (sBoot .boot 3 Boot.reset []).up.sec.flash.isSome = true ∧ sNoImage.up.sec.flash = none ∧
    sNoImage.phase = 3 ∧ [p0] ≠ [] := by decide
set_option maxRecDepth 100000 in
theorem wit_Boot_image : img0.formed = true ∧ img0.svn < 4 ∧ bitOf { Security.reset with krevoke := 1 }.krevoke img0.kslot = true ∧
    ({ Security.reset with krevoke := 1 } : Security).check img0 = 2 := by decide +kernel
theorem wit_Boot_straps : ∀ x ∈ [({ oscWait := 3, refsel := true } : Straps)], ∀ y ∈ [x, { x with refsel := false }],
    (sBoot .ready 7 { Boot.reset with pinLow := false, straps := some y } []).up.boot.pinLow = false ∧
    (sBoot .ready 7 { Boot.reset with pinLow := false, straps := some y } []).up.boot.straps = some y := by decide
theorem test_strap_chg : after (exec (.resetNRise { oscWait := 3, refsel := true }) (sBoot .ready 7 { Boot.reset with pinLow := false, straps := some { oscWait := 3, refsel := false } } []))
    (fun t => (t.regBits (modReg .pinStat) 4 4, t.job.state)) = some (1, .ready) := by rfl
set_option maxRecDepth 100000 in
theorem wit_Boot_commit : (sImage img0).job.state.trains = true ∧ (sImage img0).up.sec.running = some img0 ∧ img0.commit = true ∧
    (image false).commit = false := by decide +kernel
/-- The slot the image was signed with is not revoked by it; ARB rises to its SVN. -/
theorem test_commit : after (exec .arbCommit (sImage img0)) (fun t => (t.up.sec.arb, t.up.sec.krevoke)) = some (3, 2) := by rfl
theorem test_reset_rises : after (exec (.resetNRise { oscWait := 3, refsel := true }) State.reset) (fun t => (t.job.state, t.phase)) = some (.boot, 1) := by rfl
theorem test_boot_next : after (exec (.bootPhaseDone .done) (sBoot .boot 4 Boot.reset [])) (fun t => (t.job.state, t.phase)) = some (.boot, 5) := by rfl
theorem test_lockstep : after (exec .lockstepMismatch (sBoot .ready 7 { Boot.reset with pinLow := false } [])) (fun t =>
    (t.job.state, t.up.boot.hold, t.regBits (modReg .rstCause) 15 0)) = some (.reset, .internal, 0x111) := by rfl

def sTpwr (w : TractPower) (regs : List (RegKey × Nat)) : State :=
  { sBoot .ready 7 Boot.reset ((modReg .clkStat, 0x3FFC0) :: regs) with up := { State.reset.up with tracts := [(0, w)] } }
theorem wit_Clocks : (sTpwr TractPower.reset []).coasting = false ∧ (sBoot .ready 7 Boot.reset [(modReg .clkStat, 0x10)]).coasting = true ∧
    (sTpwr TractPower.reset []).job.state.trains = true ∧ bitsOf (0x54FB7 : Word).toNat 3 0 ≤ 7 ∧ bitsOf (0x54FB7 : Word).toNat 7 4 ≤ 11 ∧
    bitsOf (0x54FB7 : Word).toNat 18 8 ≤ 1359 ∧ 1359 < bitsOf (0x550B7 : Word).toNat 18 8 ∧ 7 < bitsOf (0x54F08 : Word).toNat 3 0 ∧
    11 < bitsOf (0xC0 : Word).toNat 7 4 := by decide
theorem wit_Rails : (sTpwr TractPower.reset []).managesRails = true ∧ (sBoot .boot 4 Boot.reset []).managesRails = true ∧
    (∀ f ∈ (sTpwr TractPower.reset []).up.vrFaults, railTract f ≠ some 0) ∧ ((sTpwr { TractPower.reset with want := some 38 } []).tpwr 0).want = some 38 ∧
    (sTpwr { TractPower.reset with want := some 38 } []).railTarget 0 ≤ 740 + 10 ∧ (549 < 550 ∨ 950 < 549) ∧ (951 < 550 ∨ 950 < 951) := by decide
theorem wit_Pins : (sPins { Pins.reset with alert := true }).up.pins.alert = true ∧ (sPins { Pins.reset with alert := true }).up.pins.alertDone = false ∧
    (sPins { Pins.reset with throtFast := true }).up.pins.throtFast = true ∧
    ({ sTpwr TractPower.reset [] with up := { State.reset.up with pins := { Pins.reset with throttle := true } } } : State).up.pins.throttle = true ∧
    (sTpwr TractPower.reset []).errs.cdQueue = [] ∧
    ({ sTpwr TractPower.reset [] with up := { State.reset.up with pins := { Pins.reset with alert := true } } } : State).managesRails = true := by decide
theorem test_port_rail : after (exec (.railFault .vportW) (sLink 5 lk0)) (fun t => (decide (t.portState 3 < 5), t.up.boot.bad)) = some (true, [.vportW]) := by rfl
theorem test_poll_high : after (exec (.pmbusPoll (.vcore 0) false 951) (sTpwr TractPower.reset [])) (fun t => t.dead 0) = some true := by rfl
theorem test_clkobs_bad : exec (.clkobsCtlWrite 0x550B7) (sTpwr TractPower.reset []) =
    .next ((sTpwr TractPower.reset []).badValue (modReg .clkobsCtl) 0x550B7 4) := by rfl

/-- Parcel 0 of tract 0 has an estimate in mW; the tract a budget in W, which the plan keeps in mW, and a target of 750 mV. -/
def sPower (est budget step : Nat) (plot : Option (BitVec 8)) : State :=
  { sTpwr { TractPower.reset with budget := 1000 * budget } [(modRegI .tractPwr 0, budget + 750 * 2 ^ 33)] with
    parcels := [(p0, { Parcel.reset with plot := plot, health := { Parcel.reset.health with estimate := est, step := step } })] }
theorem wit_Power_limiter : (sPower 5000 5 32 none).tractEstimate 0 ≤ ((sPower 5000 5 32 none).tpwr 0).budget ∧
    (sPower 5000 5 32 none).tractEstimate 0 ≤ 1600 * ((sPower 5000 5 32 none).tpwr 0).mv ∧
    ((sPower 5001 5 33 none).tpwr 0).budget < (sPower 5001 5 33 none).tractEstimate 0 ∧
    1600 * ((sPower 1360001 1400 33 none).tpwr 0).mv < (sPower 1360001 1400 33 none).tractEstimate 0 ∧
    (sPower 5001 5 33 none).working p0 = true ∧ 32 < ((sPower 5001 5 33 none).parcel p0).health.step ∧
    ¬32 < ((sPower 5001 5 32 none).parcel p0).health.step := by decide
theorem wit_Power_samples : Hottest [some 99, some 99] 100 99 ∧ Hottest [some 104, none] 100 104 ∧ Hottest [none, some 20] 100 100 ∧ Hottest [some 105] 100 105 ∧
    Hottest [some 114, some 3] 100 114 ∧ Hottest [some 115] 100 115 ∧ (sPower 1 1 1 none).up.boot.tripped = false := by
  unfold Hottest
  decide
theorem wit_Power_plots : (sPower 1 1 38 (some 7)).tractServed 0 = true ∧ bitsOf (0x130 : Word).toNat 8 3 = 38 ∧ bitsOf (0x138 : Word).toNat 8 3 = 39 := by decide
theorem test_trip : after (exec (.junctionSample 0 [some 115]) (sPower 1 1 1 none)) (fun t => (t.job.state, t.up.boot.tripped)) = some (.reset, true) := by rfl
theorem test_cool : after (exec (.junctionSample 0 [some 99]) (sTpwr { TractPower.reset with hot := true } [])) (fun t => (t.tpwr 0).hot) = some false := by rfl
set_option maxRecDepth 100000 in
theorem wit_Power_step : (sPower 5001 5 33 none).tractStep 0 ≠ 0 := by decide +kernel
def sCoast : State := sBoot .ready 7 Boot.reset [(modReg .clkStat, 0x3FFD0)]
set_option maxRecDepth 100000 in
theorem wit_Power_step0 : sCoast.coasting = true ∧ sCoast.tractStep 0 = 0 := by decide +kernel

-- DRAM, updates and debug unlock

theorem wit_Dram_sample : (sTpwr TractPower.reset []).job.state ≠ .reset ∧ Hottest [some 114, none] 105 114 ∧ Hottest [none, some 84] 105 105 ∧
    Hottest [some 115, some 3] 105 115 ∧ Hottest [some 84] 105 84 ∧ (sTpwr TractPower.reset []).up.boot.tripped = false := by
  unfold Hottest
  decide
/-- Word 0x47FFFF, the last of a slice, holds a single error or none. -/
def sDram (ce : List Nat) : State := { State.reset with mem := { Mem.reset with ce := ce } }
theorem wit_Dram_scrub : 0x47_FFFF < 0x48_0000 ∧ (∀ ce ∈ [[], [sliceKey p0 (16 * 0x47_FFFF)]], (sDram ce).mem.wf = true ∧
    sliceKey p0 (16 * 0x47_FFFF) ∉ (sDram ce).mem.poison ∧ sliceKey p0 (16 * 0x47_FFFF) ∉ (sDram ce).mem.ue ∧
    (sliceKey p0 (16 * 0x47_FFFF) ∈ (sDram ce).mem.ce ↔ ce ≠ [])) := by decide
def sTiles : State :=
  { sTpwr TractPower.reset [] with parcels := [(p0, { Parcel.reset with tiles := [{ bytes := 0, bad := false }] })] }
theorem wit_Dram_layout : (sTpwr TractPower.reset []).job.state.trains = true ∧ (sTpwr TractPower.reset []).tractServed 0 = true ∧
    (sTpwr TractPower.reset []).rwlLocked = false ∧ cmLayoutOk (0x8081 : Word).toNat = true ∧ (sTpwr TractPower.reset []).layoutIdle 0 = true ∧
    sTiles.layoutIdle 0 = false ∧ sTiles.layout 0 < 2 ^ 16 ∧ sTiles.tractServed 0 = true := by decide +kernel
/-- Region 0: 128 bytes of parcel 0 of tract 0, kept in parcel 1 at 0x1000. -/
def sRepl (en : Nat) : State :=
  sBoot .ready 7 Boot.reset [(modReg .clkStat, 0x3FFC0), (modRegI .replCtl 0, 2 + en), (modRegI .replRloc 0, 0x1000 + 2 ^ 27)]
theorem wit_Repl_ctl : (sRepl 0).job.state.trains = true ∧ (sRepl 0).rwlLocked = false ∧
    (sRepl 0).replOk 0 { (sRepl 0).replRegs 0 with ctl := ((sRepl 0).writeResult (modRegI .replCtl 0) (3 : Word).toNat).1 } = true ∧
    bitOf (3 : Word).toNat 0 ≠ ((sRepl 0).replRegs 0).enabled := by decide +kernel
def rr0 : ReplRegion := { home := 0, len := 128, parcel := 1, off := 0x1000 }
theorem wit_Repl_refill : (sRepl 1).replRegion 0 = some rr0 ∧ gaTract rr0.home ≠ 1 ∧ 128 * 0 < rr0.len ∧ (sRepl 1).mem.wf = true ∧
    (∀ y, ∀ w ∈ ((sRepl 1).fab y).replW, (0, 0) ∉ (sRepl 1).regionLines w.key w.len) ∧ ((sRepl 1).fabs.map (fun q => q.1)).Nodup ∧
    Clean (sRepl 1) (rr0.home + 128 * 0) 128 ∧ Clean (sRepl 1) (keyOf 1 rr0.parcel (rr0.off + 128 * 0)) 128 ∧
    Apart (rr0.home + 128 * 0) 128 (keyOf 1 rr0.parcel (rr0.off + 128 * 0)) 128 := by
  refine ⟨by rfl, by decide, by decide, by rfl, ?_, by decide, ?_, ?_, ?_⟩
  · intro y w h
    simp [State.fab, AMap.get, show (sRepl 1).fabs = [] from rfl, TractFab.reset] at h
  · unfold Clean; decide +kernel
  · unfold Clean; decide +kernel
  · unfold Apart; decide
theorem wit_Repl_applied : ({ State.reset with fabs := [(0, { TractFab.reset with replW := [{ src := .agent 0 0, key := 0, len := 4, resp := { status := 0, data := [], poison := 0 } }] })] } : State).fab 0
    |>.replW[0]?.isSome := by rfl
theorem test_refill : after (exec (.dramTempSample 0 [some 85]) (sTpwr TractPower.reset [(dramTherm 0, 84)])) (fun t =>
    (t.regBits (dramTherm 0) 9 8, t.regBits (dramTherm 0) 10 10)) = some (1, 1) := by rfl

def sUpd (busy : Nat) (st : JobState) (sec : Security) : State :=
  { sBoot st (if st = .boot then 14 else 7) Boot.reset [(updCtl, 2 * busy)] with up := { State.reset.up with sec := sec } }
theorem wit_Update : (sUpd 0 .ready Security.reset).updBusy = false ∧ (sUpd 1 .ready Security.reset).updBusy = true ∧
    (sUpd 0 .boot Security.reset).recovering = true ∧ (sUpd 0 .owned Security.reset).recovering = false ∧
    (sUpd 0 .ready Security.reset).up.sec.staging.Pairwise (fun a b => a.1 < b.1) ∧ 0x1FF_FFFF + [(1 : Byte)].length ≤ 0x200_0000 := by decide
theorem wit_Update_failing : (sUpd 1 .ready Security.reset).up.sec.imageCheck ≠ 0 := by decide +kernel
/-- A formed image of 4 bytes in the staging buffer. -/
def secImage : Security :=
  { Security.reset with
    staging := [(0, 0x4D), (1, 0x55), (2, 0x4C), (3, 0x4F), (4, 1), (8, 4)] }
/-- It passes where the digests agree with the fuses and the header, and the two signatures verify, which the spec leaves to the keys. -/
theorem wit_Update_passing
    (he : Config.sha384 secImage.stagedImage.epub = Config.khashE secImage.stagedImage.kslot)
    (hl : Config.sha384 secImage.stagedImage.lpub = Config.khashL secImage.stagedImage.kslot)
    (ve : Config.ecdsaOk (Config.sha384 secImage.stagedImage.epub) secImage.stagedImage.manifest secImage.stagedImage.esig = true)
    (vl : Config.hssOk (Config.sha384 secImage.stagedImage.lpub) secImage.stagedImage.manifest secImage.stagedImage.lsig = true)
    (hb : (Config.sha384 (secImage.stagedImage.body.take secImage.stagedImage.blen)).toNat = secImage.stagedImage.bhash) :
    (sUpd 1 .ready secImage).up.sec.imageCheck = 0 ∧ (sUpd 1 .ready secImage).updBusy = true := by
  refine ⟨?_, by decide⟩
  show secImage.check secImage.stagedImage = 0
  unfold Security.check
  refine (if_neg (by decide +kernel)).trans ((if_neg (by decide +kernel)).trans ((if_neg ?_).trans ((if_neg ?_).trans
    ((if_neg (by decide +kernel)).trans (if_neg ?_)))))
  · rintro (h | h)
    · exact h he
    · exact h hl
  · rw [ve, vl]; decide
  · exact fun h => h hb
theorem wit_Unlock (tok : Token) (hs : tokenSerial tok = Config.serial.toNat) (hn : tokenNonce tok = 0) (hl : tokenSlot tok = 0)
    (ve : Config.ecdsaOk (Config.khashE 0) tok.body tok.esig = true) (vl : Config.hssOk (Config.khashL 0) tok.body tok.lsig = true) :
    (sUpd 0 .ready Security.reset).job.state.trains = true ∧ (sUpd 0 .ready Security.reset).tokenOk tok = true := by
  refine ⟨by decide, ?_⟩
  unfold State.tokenOk
  rw [hs, hn, hl]
  dsimp only
  rw [ve, vl, beq_self_eq_true]
  decide
theorem wit_Unlock_refused : (sUpd 0 .owned Security.reset).tokenOk token0 = false ∧ (sUpd 0 .owned Security.reset).job.state.trains = true := ⟨by rfl, by decide⟩
theorem wit_Testmux : bitsOf (0x82A9F6F : Word).toNat 4 1 ≤ 7 ∧ bitsOf (0x82A9F6F : Word).toNat 8 5 ≤ 11 ∧ bitsOf (0x82A9F6F : Word).toNat 19 9 ≤ 1359 ∧
    bitsOf (0x82A9F6F : Word).toNat 27 24 ≤ 8 ∧ bitOf (0x82A9F6F : Word).toNat 0 = true ∧
    (sBoot .ready 7 Boot.reset [(secStat, 2 ^ 16)]).regBits secStat 16 16 = 1 ∧ (sUpd 0 .ready Security.reset).regBits secStat 16 16 = 0 := by decide
theorem test_go : after (exec .go (sUpd 0 .ready Security.reset)) (fun t => t.updBusy) = some true := by rfl
theorem test_nonce : after (exec (.dbgNonceRead 31 1) (sUpd 0 .ready Security.reset)) (fun t => t.out.length) = some 1 := by rfl

-- attestation, records, restores and the test access port

def req0 : SpdmReq := { journal := true, p384 := true, sha384 := true, version := 0x12, slot := 0, block := 0, signed := true, session := 1, body := [] }
def sSpdm (sp : Spdm) (leaf : Nat) : State := sUpd 0 .ready { Security.reset with spdm := sp, leaf := leaf }
def spdmAlgos : Spdm := { Spdm.reset with version := some 0x12, caps := true, algos := true, begun := [1] }
theorem wit_Spdm : (sUpd 0 .reset Security.reset).job.state.trains = false ∧ (sSpdm Spdm.reset 0).job.state.trains = true ∧ req0.version = 0x12 ∧
    (sSpdm Spdm.reset 0).up.sec.spdm.caps = false ∧ (sSpdm Spdm.reset 0).up.sec.spdm.algos = false ∧ (sSpdm spdmAlgos 0).up.sec.spdm.caps = true ∧
    (sSpdm spdmAlgos 0).up.sec.spdm.algos = true ∧ (sSpdm spdmAlgos 1048575).up.sec.leaf < leafTotal ∧ leafTotal ≤ (sSpdm spdmAlgos 1048576).up.sec.leaf ∧
    req0.slot = 0 ∧ { req0 with slot := 1 }.slot ≠ 0 ∧ req0.signed = true ∧ req0.block = 0 ∧ { req0 with signed := false }.signed = false ∧
    (0x11 ≠ 0x12 ∧ 0x14 ≠ 0x13) ∧ (5 < 6 ∧ 6 ≠ 0xFF) := by decide
theorem wit_Spdm_journal : (Security.reset.reserved = true ∨ req0.journal = true) ∧ Security.reset.reserved = false ∧
    { req0 with journal := false }.journal = false := by decide
theorem wit_Spdm_sessions : req0.session ∈ (sSpdm spdmAlgos 0).up.sec.spdm.begun ∧ req0.session ∉ (sSpdm Spdm.reset 0).up.sec.spdm.begun ∧
    req0.session ∈ (sSpdm { spdmAlgos with sessions := [1] } 0).up.sec.spdm.sessions ∧ req0.session ∉ (sSpdm spdmAlgos 0).up.sec.spdm.sessions := by decide
theorem test_finish : after (exec (.finish req0) (sSpdm spdmAlgos 0)) (fun t => t.up.sec.spdm.sessions) = some [1] := by rfl
theorem test_last_leaf : after (exec (.challenge req0) (sSpdm spdmAlgos 1048576)) (fun t => t.up.sec.leaf) = some 1048576 := by rfl

def rec1 : ErrRec := State.reset.recordM .hostWin
/-- A record in the collector of tract 0 or in the control die's queue, with EVR_CFG as given. -/
def sRecs (coll cd : List ErrRec) (cfg : Nat) : State :=
  { sBoot .ready 7 Boot.reset [(modReg .evrCfg, cfg)] with
    fabs := [(0, { TractFab.reset with collector := coll })], host := { State.reset.host with up := true }, errs := { Errs.reset with cdQueue := cd } }
theorem wit_Records : ((sRecs [rec1] [] 0).fab 0).collector = [rec1] ∧ ((sRecs [rec1] [] 0).fab 0).lost = 0 ∧
    (sRecs [rec1] [] 0).errs.cdQueue.length < 256 ∧ (∀ y ∈ (sRecs [rec1] [] 0).errs.cdQueue, y.sameAs rec1 = false) ∧
    (sRecs [] [rec1] 0x26).errs.cdQueue = [rec1] ∧ (sRecs [] [rec1] 0x26).errs.cdLost = 0 ∧ (sRecs [] [rec1] 0x26).ringOn = true ∧
    (sRecs [] [rec1] 0x26).ringFull = false ∧ (sRecs [] [rec1] 0x06).ringOn = false := by decide
theorem wit_Records_ring : (sRecs [] [] 6).job.state.trains = true ∧ (sRecs [] [] 6).regBits (modReg .evrCfg) 5 5 = 0 ∧
    (6 ≤ bitsOf (0x26 : Word).toNat 4 0 ∧ bitOf (0x26 : Word).toNat 5 = true) ∧ bitsOf (0x10 : Word).toNat 4 0 = 16 ∧
    bitsOf (5 : Word).toNat 4 0 < 6 ∧ 16 < bitsOf (17 : Word).toNat 4 0 := by decide
theorem test_log : after (exec (.errorRecordForward .controlDie) (sRecs [] [rec1] 0)) (fun t => (t.errs.logged, t.errs.cdQueue)) = some (1, []) := by rfl
theorem test_evr_bad : after (exec (.evrCfgWrite 5) (sRecs [] [] 6)) (fun t => t.regBits (modReg .evrCfg) 4 0) = some 6 := by rfl

def sRestore (st : JobState) (r : RestoreRun) (running : Bool) (abort : Option AbortCause) (ps : AMap ParcelId Parcel) : State :=
  { sBoot st 7 Boot.reset [] with
    parcels := ps, errs := { Errs.reset with running := running, abort := abort }, up := { State.reset.up with restore := r } }
def retired : Parcel := { Parcel.reset with health := { Parcel.reset.health with retired := true } }
def spared : Parcel := { Parcel.reset with health := { Parcel.reset.health with spare := true } }
theorem wit_Abort : (sRestore .armed .idle true none []).errs.abort = none ∧ (sRestore .armed .idle true (some (.notice 1 2)) []).errs.abort ≠ none := by decide
theorem wit_Restore : (sRestore .owned .idle false none []).job.state.trains = true ∧ (sRestore .owned .idle false none []).up.restore = .idle ∧
    (sRestore .owned .idle false none []).job.state = .owned ∧
    ((sRestore .armed .idle false none []).job.state = .armed ∧ (sRestore .armed .idle false none []).errs.running = false) ∧
    (sRestore .owned .remap false none []).up.restore ≠ .idle ∧
    ((sRestore .ready .idle false none []).job.state ≠ .owned ∧ (sRestore .ready .idle false none []).job.state ≠ .armed) ∧
    ((sRestore .armed .idle true none []).job.state = .armed ∧ (sRestore .armed .idle true none []).errs.running = true) ∧
    (sRestore .owned .restore false none []).up.restore = .restore ∧ (sRestore .owned .restore false none []).retiredParcels = [] ∧
    (sRestore .owned .restore false none []).job.state = .owned := by decide
theorem wit_Restore_marks : (List.replicate 16320 (0 : Nat)).length = 16320 := List.length_replicate
theorem wit_Remap : (sRestore .owned .remap false none []).up.restore = .remap ∧ (sRestore .owned .idle false none []).retiredParcels = [] ∧
    (sRestore .owned .idle false none []).up.restore = .idle ∧ (sRestore .owned .idle false none []).job.state = .owned ∧
    (∀ o ∈ [[], [(p1, spared)]], (sRestore .owned .idle false none ((p0, retired) :: o)).retiredParcels = [p0] ∧
      (sRestore .owned .idle false none ((p0, retired) :: o)).mem.wf = true ∧
      ((sRestore .owned .idle false none ((p0, retired) :: o)).spareFree p0 = true ↔ o = [])) := by decide +kernel
set_option maxRecDepth 100000 in
theorem test_remap_fails : after (exec .remap (sRestore .owned .idle false none [(p0, retired), (p1, spared)])) (fun t =>
    t.regBits (modReg .snapStat) 5 0) = some (3 + 4 * 5) := by rfl
set_option maxRecDepth 100000 in
theorem test_abort_keeps : after (exec .stepAbort (sRestore .armed .idle true (some (.notice 1 2)) [])) (fun t =>
    (t.job.state, t.job.aborts, t.errs.running)) = some (.armed, 1, false) := by rfl

def sTap (low : Bool) (dbglvl : Nat) : State := sBoot .ready 7 { Boot.reset with pinLow := low } [(secStat, dbglvl * 2 ^ 16)]
theorem wit_Tap : (sTap true 0).up.boot.pinLow = true ∧ (sTap false 0).up.boot.pinLow = false ∧ (sTap false 2).regBits secStat 17 17 = 1 ∧
    (sTap false 5).regBits secStat 17 17 = 0 ∧ 0x80 ≤ (0xFE : BitVec 8).toNat ∧ (0xFE : BitVec 8).toNat ≤ 0xFE ∧ 0x80 ≤ (0x80 : BitVec 8).toNat ∧
    (5 < (0x7F : BitVec 8).toNat ∧ (0x7F : BitVec 8).toNat < 0x80) := by decide
theorem test_tap : after (exec .extest (sTap false 0)) (fun t => t.up.tap) = some .bypass ∧
    after (exec (.privateInstruction 0xFE) (sTap false 2)) (fun t => t.up.tap) = some (.private_ 0xFE) := ⟨by rfl, by rfl⟩

def sLocked : State := { sTpwr TractPower.reset [(queueReg .qCfg qDisp, 198)] with job := { State.reset.job with state := .owned, locked := true } }
theorem wit_Locked : sLocked.rwlLocked = true ∧ sLocked.job.state.trains = true ∧ sLocked.tractServed qDisp.tract.val = true ∧
    (∃ f ∈ (queueReg .qCfg qDisp).r.row.fields, f.acc = .rwl ∧ bitsOf 199 f.hi f.lo ≠ sLocked.regBits (queueReg .qCfg qDisp) f.hi f.lo) ∧
    (∀ f ∈ (queueReg .qCfg qDisp).r.row.fields, f.acc = .rwl → bitsOf 198 f.hi f.lo = sLocked.regBits (queueReg .qCfg qDisp) f.hi f.lo) ∧
    qCfgOk 198 = true ∧ qCfgOk 209 = false := by decide
/-- Unlocked: PWR_CTL with LIMIT in its range, and out of it; Q_CFG; the token buffer. -/
theorem wit_Writes : (sTpwr TractPower.reset []).rwlLocked = false ∧ (sTpwr TractPower.reset []).job.state.trains = true ∧
    (sTpwr TractPower.reset []).tractServed qDisp.tract.val = true ∧ qCfgOk 198 = true ∧ qCfgOk 209 = false ∧ 0xFFC % 4 = 0 ∧
    (sTpwr TractPower.reset []).up.sec.token.Pairwise (fun a b => a.1 < b.1) ∧
    (∀ n ∈ plainRegs, (sTpwr TractPower.reset []).regOk (modReg n) n.resetValue = true ∧ n.resetValue < 2 ^ n.row.width) := by decide +kernel
theorem test_write_pwr : after (exec (.registerWrite { offset := sLocked.regPlace (modReg .pwrCtl), size := 4, value := 700 + 2 ^ 11 * 600 })
    (sTpwr TractPower.reset [])) (fun t => (t.regBits pwrCtl 10 0, t.regBits pwrCtl 21 11)) = some (700, 600) := by rfl
theorem test_token : after (exec (.registerWrite { offset := 0x14_0000, size := 4, value := 0x0403_0201 }) (sTpwr TractPower.reset []))
    (fun t => t.up.sec.token) = some [(0, 1), (1, 2), (2, 3), (3, 4)] := by rfl
theorem wit_Canonical : State.reset.mem.wf = true ∧ after (step State.reset) (fun _ => ()) = some () ∧ State.reset.pending = [] := ⟨by rfl, by rfl, by rfl⟩

/-- A core at the bounds of what it may have open, in a module in which parcel 0's tile list is full; nothing else is listed. -/
def kBound : Core :=
  { k0 with
    arr := { ArrState.reset with queue := List.replicate 8 { id := 0, pc := 0, op := .astat 5 true } }
    copies := List.replicate 32 jCopy, loads := full8 }
def sBound : State := { withCore kBound with parcels := [(p0, inPlot (List.replicate 2048 (tile 1)))] }
theorem bound_core (c : CoreId) : sBound.core c = if c = c0 then kBound else Core.reset := by
  unfold State.core sBound withCore AMap.get
  by_cases h : c = c0
  · rw [if_pos h, h]; rfl
  · rw [if_neg h, if_neg (Ne.symm h)]; rfl
theorem bound_parcel (p : ParcelId) (h : p ≠ p0) : sBound.parcel p = Parcel.reset := by
  unfold State.parcel sBound AMap.get
  rw [if_neg (Ne.symm h)]; rfl
theorem bound_caps : ∀ t : Tract, sBound.tileCap t = 2048 := by decide +kernel
theorem wit_Bounds : step sBound = .next sBound.tick ∧ sBound.pending = [] ∧
    (∀ c, (sBound.core c).arr.queue.length ≤ 8 ∧ (sBound.core c).copies.length ≤ 32 ∧ (sBound.core c).loadsOpen ≤ 8) ∧
    ∀ p, (sBound.parcel p).tiles.length ≤ sBound.tileCap p.tract := by
  refine ⟨rfl, rfl, fun c => ?_, fun p => ?_⟩
  · rw [bound_core]
    split <;> decide +kernel
  · rw [bound_caps]
    by_cases hp : p = p0
    · subst hp; decide +kernel
    · rw [bound_parcel p hp]; exact Nat.zero_le _

/-- a1 names a word of the commons of the module's tract 0, a2 one of the slice of tract 3's last parcel, a3 one of module 5; a4 an offset of the local
store; g9 is 64, a copy's length. -/
def kGl : Core :=
  { k0 with
    a := (((k0.a.set 1 (BitVec.ofNat 64 (keyOf 0 1 0x100040))).set 2 (BitVec.ofNat 64 (keyOf 3 1359 0x800))).set 3
      (BitVec.ofNat 64 (keyOf 0 1 0x100040 + 5 * 2 ^ 52))).set 4 0x40
    g := k0.g.set 9 64 }
def sGl : State := withCore kGl
def fGl (ab : BitVec 4) (rd : BitVec 5) (w64 : Bool) : FmtA := { rd := rd, ab := ab, space := 3, size := w64, rs := 2 }
def kcGl (ab : BitVec 4) : FmtK := { g := 1, ab := ab, remote := true, mark := 0 }
theorem wit_GlobalAccesses_loads : ∀ ab ∈ [(1 : BitVec 4), 2, 3], ∀ c ∈ [Instr.ldw i0 (fm 5 ab 3), .lda i0 (fm 5 ab 3), .ldq i0 (fm 4 ab 3)],
    Spelt sGl c 4 [.a ab] ∧ ∀ s ∈ [spelling c0 c sGl], s.raShort 0 2 = false ∧ s.up.badUnits = [] ∧ (s.core c0).loadsOpen < 8 ∧
      fmtMOffset (s.core c0) (fm 5 ab 3) 16 % 16 = 0 ∧ gaBad (fmtMOffset (s.core c0) (fm 5 ab 3) 16) = false := by
  unfold Spelt Ready; decide +kernel
theorem wit_GlobalAccesses_stores : ∀ ab ∈ [(1 : BitVec 4), 2, 3], ∀ q ∈ storeOps, Spelt sGl (q.1 i0 (fm 4 ab 3)) 4 (.a ab :: q.2.2.2.1 4) ∧ q.2.2.1 4 = true ∧
    (spelling c0 (q.1 i0 (fm 4 ab 3)) sGl).storesUse c0 < 16 := by unfold Spelt Ready; decide +kernel
theorem wit_GlobalAccesses_atomics : ∀ ab ∈ [(1 : BitVec 4), 2, 3], ∀ z ∈ [(false, (5 : BitVec 5)), (true, 4), (false, 0)],
    (∀ q ∈ atomOps, Spelt sGl (q.1 i0 (fGl ab z.2 z.1)) 4 (.a ab :: pairOf z.1 2)) ∧
    Spelt sGl (.cas i0 (fGl ab z.2 z.1) ((6 : BitVec 5).setWidth 32)) 8 (.a ab :: (pairOf z.1 2 ++ pairOf z.1 6)) ∧
    ((sGl.core c0).getA ab).toNat % atomSize true = 0 ∧ gaBad ((sGl.core c0).getA ab).toNat = false := by unfold Spelt Ready; decide +kernel
def cGl (ad ds as_ ss : Nat) : FmtCpy := { ad := BitVec.ofNat 4 ad, dspace := BitVec.ofNat 2 ds, as_ := BitVec.ofNat 4 as_, sspace := BitVec.ofNat 2 ss, gl := 9, ac := 2, reserved := 0 }
theorem wit_GlobalAccesses_copies : ∀ f ∈ [cGl 4 0 2 3, cGl 3 3 4 1, cGl 2 3 1 3], Spelt sGl (.cpy i0 f) 4 [.a f.as_, .a f.ad, .g 9] ∧
    ∀ s ∈ [spelling c0 (.cpy i0 f) sGl], ((s.core c0).getG 9).toNat = 64 ∧ ((s.core c0).getA f.as_).toNat % 4 = 0 ∧ ((s.core c0).getA f.ad).toNat % 4 = 0 ∧
      (s.core c0).copies.length < 32 ∧ (s.core c0).astatQueued = none ∧ ((s.core c0).getA 4).toNat + 64 ≤ spaceSize 0 := by unfold Spelt Ready; decide +kernel
theorem wit_GlobalAccesses_marks : ∀ ab ∈ [(1 : BitVec 4), 2, 3], ∀ c ∈ [Instr.madd i0 (kcGl ab), .msub i0 (kcGl ab), .mwait i0 (kcGl ab)],
    Spelt sGl c 4 [.g 1, .a ab] ∧ ((spelling c0 c sGl).core c0).arr.fault = none := by unfold Spelt Ready; decide +kernel
theorem test_global_load : after (run (.ldw i0 (fm 5 3 3)) sGl) (fun t => ((t.fab 0).ra.map (fun e => e.op), (t.core c0).loads.map (fun l => l.space))) =
    some ([.load 4], [3]) := by decide +kernel
theorem test_global_mark : after (run (.mwait i0 (kcGl 3)) sGl) (fun t => (t.core c0).wait.isSome) = some true := by decide +kernel

theorem wit_CountingMarks_damaged : ∀ s ∈ [{ sMark 0 with mem := { (sMark 0).mem with par := [markKey p0 0x3FF] } }, { sMark 0 with parcels := [(p0, { Parcel.reset with frozen := [0x3FF] })] }],
    Spelt s (.mwait i0 (fk 0 0x3FF)) 4 [.g 0] ∧ s.barrierN p0 0x3FF = none ∧ s.mem.wf = true ∧ (s.core c0).arr.fault = none ∧
      (s.markDamaged p0 0x3FF = true ∨ (s.parcel p0).frozen.contains 0x3FF = true) := by
  unfold Spelt Ready; decide +kernel
theorem test_mwait_damaged : after (run (.mwait i0 (fk 0 0x3FF)) { sMark 0 with mem := { (sMark 0).mem with par := [markKey p0 0x3FF] } })
    (fun t => (t.core c0).wait) = some (some (.mwait 0x3FF 0)) := by decide +kernel

/-- Parcel 35 has n tiles; its neighbour in direction d has none, and a core that sleeps for one. -/
def p35 : ParcelId := { tract := 0, parcel := 35 }
def pushTo (d : Nat) : ParcelId := { tract := 0, parcel := (([1, 36, 69, 34] : List (Fin 1360)).getD d 0) }
def sPushD (d n : Nat) : State :=
  { sPush with
    parcels := (p35, inPlot ((List.range n).map (fun j => tile (j + 1)))) :: ([1, 36, 69, 34] : List (Fin 1360)).map (fun m => ({ tract := 0, parcel := m }, inPlot []))
    cores := [({ tract := 0, parcel := (pushTo d).parcel, core := 5 }, { k0 with wait := some (.sleep 5 1 0) })] }
theorem wit_TilePush_directions : ∀ d ∈ [0, 1, 2, 3], ∀ n ∈ [2, 5], ∀ s ∈ [sPushD d n], bitOf (s.plotReg p35 .plotCfg) 3 = true ∧
    bitsOf (s.plotReg p35 .plotCfg) 11 4 ≠ 0 ∧ bitsOf (s.plotReg p35 .plotCfg) 11 4 ≤ stealTail (s.parcel p35).tiles ∧
    s.neighbour p35 d = some (pushTo d) ∧ pushTo d ≠ p35 ∧ (s.parcel (pushTo d)).tiles = [] ∧ s.sleepsForTile (pushTo d) = true ∧
    (∀ x ∈ (s.parcel p35).tiles, x.bad = false) ∧
    ∀ d' < d, ((s.neighbour p35 d').map (fun r => s.sleepsForTile r)).getD false = false := by decide +kernel
theorem test_push_west : after (exec (.tilePush p35) (sPushD 3 5)) (fun t => ((t.parcel p35).tiles, (t.parcel (pushTo 3)).tiles)) =
    some ([tile 1, tile 2], [tile 3, tile 4, tile 5]) := by decide +kernel

theorem wit_WatchdogStops_codes :
    (∀ w ∈ [Wait.resource 1, .resource 4, .astat 0], ∀ s ∈ [{ withCore { kBound with wait := some w } with
        fabs := [(0, { TractFab.reset with ra := List.replicate 16 (ra1 (.core c0) (.store [1]) 0x80 .ready) })] }], (s.core c0).run = .running ∧
      (s.core c0).wait = some w ∧ (s.core c0).arr.cfg = none ∧ s.up.restore = .idle ∧ (s.fab 0).collector = [] ∧
      8 ≤ (s.core c0).arr.queue.length ∧ 16 ≤ s.storesUse c0 ∧ (∃ e ∈ (s.core c0).arr.queue, e.pc = 0)) ∧
    (∀ s ∈ [withCore { kBound with wait := some (.operand 0x40 0 5) }], (∃ l ∈ (s.core c0).loads, l.addr = 0x40 ∧ l.pc = 0) ∧ Quietly s c0) ∧
    (sHalt [jCopy]).haltReady c0 = false ∧ (sHalt []).haltReady c0 = true ∧ Quietly (sHalt [jCopy]) c0 := by unfold Quietly; decide +kernel
theorem test_watchdog_copy : after (exec (.watchdog c0) (sHalt [jCopy])) (fun t => (t.fab 0).collector.map (fun r => (fieldAt r.detail 1 1, fieldAt r.detail 8 4))) =
    some [(9, 1)] := by decide +kernel

theorem wit_StateRegisterAccess_more : (∀ s ∈ [s0, sTile k0 [] [] 1], Spelt s (.gets i0 (fr 5 2 0)) 4 []) ∧ Spelt s0 (.getsa i0 (fr 15 5 0)) 4 [] ∧
    (s0.parcel p0).plot = none ∧ ((sTile k0 [] [] 1).parcel p0).plot = some 3 := by unfold Spelt Ready; decide +kernel
theorem test_gets_plot : gAfter (run (.gets i0 (fr 5 2 0)) s0) 5 = some 0x8000_0000 ∧ gAfter (run (.gets i0 (fr 5 2 0)) (sTile k0 [] [] 1)) 5 = some 3 := by
  decide +kernel

/-- g10: 4 rows with TURN, from rows of 64 bytes; g12 the same sequence once more, with REUSE. -/
def kTurn : Core := { sArr2.core c0 with g := (((sArr2.core c0).g.set 10 (4 + 8192)).set 11 64).set 12 (4 + 16384) }
def sTurn : State := { sArr2 with cores := [(c0, kTurn)] }
def sReuse : State := (after (run (.astream i0 (far 6)) { sTurn with cores := [(c0, { kTurn with pc := 0 })] }) id).getD sArr
def srcT : Source := { addr := 0x400, scale := 0x100, rs := 64, turn := true, m := 4, kc := 8 }
theorem wit_ArrayInstructionsQueue_turn :
    Spelt sTurn (.astream i0 (far 10)) 4 [.a 1, .a 2, .g 10] ∧ ((sTurn.core c0).getG 10).toNat = 4 + 8192 ∧ (sTurn.core c0).operandWait [.g 11] = none ∧
      ((sTurn.core c0).getG 11).toNat = 64 ∧ (sTurn.core c0).arr.view.cfg = some gArr ∧ (((sTurn.core c0).arr.view.strips[0]).consume false 1).isSome = true ∧
      srcT.aligned (fmtIsMx (gArr.fmt 0)) true = true ∧ fmtIsMx (gArr.fmt 0) = false ∧
      (streamRegions gArr 0 0 srcT 0 [{ c := 0, kpos := 0, n := 8 }]).all Region.inStore = true := by unfold Spelt Ready; decide +kernel
theorem wit_ArrayInstructionsQueue_reuse :
    Spelt sReuse (.astream i0 (far 12)) 4 [.a 1, .a 2, .g 12] ∧ ((sReuse.core c0).getG 12).toNat = 4 + 16384 ∧
      (sReuse.core c0).arr.view.cfg = some gArr ∧ (((sReuse.core c0).arr.view.strips[0]).consume true 1).isSome = true := by
  unfold Spelt Ready; decide +kernel

-- the witnesses of gangs, transforms, routing, landings, slots and images

/-- The configuration of a member of a gang (0: one core, 1: two rows and columns, 2: four): one strip of BF16. -/
def gTeam (gang r q : Nat) : ArrCfg := { gArr with gang := BitVec.ofNat 2 gang, grow := BitVec.ofNat 2 r, gcol := BitVec.ofNat 2 q }
def kTeam (gang r q : Nat) (op : ArrOp) (st : Strip) (sl : AMap Nat Slot) : Core :=
  { k0 with arr := { ArrState.reset with cfg := some (gTeam gang r q), formed := true, strips := Vector.replicate 4 st, slots := sl, queue := [{ id := 0, pc := 0, op := op }] } }
/-- The members stand at one instruction; nothing else is listed. -/
def sTeam (gang : Nat) (op : ArrOp) (st : Strip) (sl : AMap Nat Slot) : State :=
  let gz := 2 ^ gang
  { State.reset with
    cores := (List.range gz).flatMap (fun r => (List.range gz).map (fun q => (memberAt c0 gz r q, kTeam gang r q op st sl))) }
theorem teamAt_intro {s : State} {c : CoreId} {gz : Nat} {g : Nat → Nat → ArrCfg} {op : Nat → Nat → ArrOp}
    (h0 : s.dead c.tract.val = false ∧ s.up.restore = .idle ∧ (s.fab c.tract).ra = [] ∧ s.mem.ce = [] ∧ s.mem.ue = [] ∧ s.mem.par = [] ∧
      gangMembers c gz = (List.range (gz * gz)).map (fun j => memberAt c gz (j / gz) (j % gz)))
    (h : ∀ r < gz, ∀ q < gz, (s.core (memberAt c gz r q)).arr.cfg = some (g r q) ∧ (s.core (memberAt c gz r q)).arr.formed = true ∧
      (g r q).size = gz ∧ (g r q).grow.toNat = r ∧ (g r q).gcol.toNat = q ∧ (g r q).mode = (g 0 0).mode ∧ (g r q).fmts = (g 0 0).fmts ∧
      (g r q).ord6 = (g 0 0).ord6 ∧ (g r q).layout = (g 0 0).layout ∧
      ((s.core (memberAt c gz r q)).arr.queue.head?.map (fun e => e.op)) = some (op r q) ∧ (op 0 0).agrees (op r q) = true ∧
      (s.core (memberAt c gz r q)).wait = none ∧ (s.core (memberAt c gz r q)).rels = [] ∧ s.coreBad (memberAt c gz r q) [2, 3] = none) :
    TeamAt s c gz g op :=
  ⟨h0.1, h0.2.1, h0.2.2.1, h0.2.2.2.1, h0.2.2.2.2.1, h0.2.2.2.2.2.1, h0.2.2.2.2.2.2, fun r q hr hq => h r hr q hq⟩
/-- Two chunks of 8 K positions of each gang row, every weight 1.0; the chunk last consumed has 2.0. -/
def strip1 (gang : Nat) : Strip := { Strip.empty with
  seq := some { nch := 2, kc := 8 * 2 ^ gang, kcl := 8 * 2 ^ gang, next := 0 }
  chunks := List.replicate 2 (List.replicate 8 (List.replicate 8 { code := 0x3F80, scale := 0, bad := false }))
  last := some (0, List.replicate 8 (List.replicate 8 { code := 0x4000, scale := 0, bad := false })) }
def slot1 : AMap Nat Slot := [(0, { Slot.empty with acc := some 0x3F800000 })]
/-- A descriptor of scale 1: to FP32, and to an MX format with blocks by columns. -/
def desc1 (w : Nat) : List Byte := natLe 4 0x3F800000 ++ natLe 4 w ++ natLe 4 0 ++ natLe 4 0 ++ natLe 4 0x100 ++ natLe 4 0x1F00 ++ List.replicate 8 0
def awl : ArrOp := .awload 0 0x200 0x1000 16 2 8 5 false
def ast (turn reuse : Bool) : ArrOp := .astream 0 0x400 0x900 6 10 turn reuse (if reuse then 1 else 2) 64
def adr (w sb cnt rs : Nat) (keep : Bool) : ArrOp := .adrain 0 0x2000 (desc1 w) sb cnt keep rs
theorem wit_ArrayEntriesComplete_teams : ∀ gang ∈ [0, 1, 2], ∀ op ∈ [awl, ast false false, ast true true, adr 0 5 6 36 false, adr 772 0 64 8 true],
    TeamAt (sTeam gang op (strip1 gang) slot1) c0 (2 ^ gang) (gTeam gang) (fun _ _ => op) ∧ (gTeam gang 0 0).cols 0 = some (0, 8) ∧ 8 ≤ (gTeam gang 0 0).kw 0 := by
  intro gang hg op ho
  refine ⟨teamAt_intro ?_ ?_, ?_⟩ <;> revert op <;> revert gang <;> decide +kernel
theorem wit_ArrayEntriesComplete_streams : ∀ gang ∈ [0, 1, 2], ∀ reuse ∈ [false, true], ∀ s ∈ [sTeam gang (ast true reuse) (strip1 gang) slot1], ∀ r < 2 ^ gang, ∀ q < 2 ^ gang,
    ((s.core (memberAt c0 (2 ^ gang) r q)).arr.strips[0]) = strip1 gang ∧
      (∀ ch ∈ (strip1 gang).chunks, ch.length = 8 ∧ ∀ col ∈ ch, col.length = 8 * (gTeam gang 0 0).perCell 0) := by decide +kernel
theorem wit_ArrayEntriesComplete_drains : ∀ gang ∈ [0, 1], ∀ z ∈ [(0, 5, 6, 36, 32), (772, 0, 64, 8, 8)], ∀ g ∈ [gTeam gang 0 0],
    ∀ s ∈ [sTeam gang (adr z.1 z.2.1 z.2.2.1 z.2.2.2.1 false) (strip1 gang) slot1], ∀ d ∈ [drainDesc (desc1 z.1)], s.mem.wf = true ∧
    drainBad g 0 z.2.2.1 d = false ∧ drainBits d = z.2.2.2.2 ∧ z.2.1 + z.2.2.1 * gatherGroups g d ≤ 64 ∧
    ceilDiv (z.2.2.2.2 * (gatherGroups g d * 8)) 8 ≤ z.2.2.2.1 ∧
    0x2000 + z.2.2.1 * z.2.2.2.1 + ceilDiv (z.2.2.2.2 * (gatherGroups g d * 8)) 8 ≤ 0x6000 ∧
    (d.mx = true → z.1 = 772 ∧ d.mxdir = true ∧ d.saddr = 0x1F00 ∧ z.2.2.1 % 32 = 0 ∧ ∀ q < 2 ^ gang, ∀ m < 64,
      ∀ e ∈ drainedRow s (memberAt c0 (2 ^ gang) (2 ^ gang - 1) q) g 0 d 0 8 0 64 m, e.bad = false) := by decide +kernel
/-- Every member's AMODE of one gang at the head of its queue, none formed yet. -/
def sForm (gang : Nat) : State :=
  { State.reset with
    cores := (List.range (2 ^ gang)).flatMap (fun r => (List.range (2 ^ gang)).map (fun q => (memberAt c0 (2 ^ gang) r q,
      { k0 with arr := { ArrState.reset with queue := [{ id := 0, pc := 0, op := .amode (gTeam gang r q) }] } }))) }
theorem wit_ArrayEntriesComplete_form : ∀ gang ∈ [0, 1, 2], ∀ s ∈ [sForm gang], c0 = memberAt c0 (2 ^ gang) 0 0 ∧ s.dead 0 = false ∧ (s.fab 0).ra = [] ∧
    gangMembers c0 (2 ^ gang) = (List.range (2 ^ gang * 2 ^ gang)).map (fun j => memberAt c0 (2 ^ gang) (j / 2 ^ gang) (j % 2 ^ gang)) ∧ (s.core c0).arr.cfg = none ∧
    ∀ r < 2 ^ gang, ∀ q < 2 ^ gang, ((s.core (memberAt c0 (2 ^ gang) r q)).arr.queue.head?.map (fun e => e.op)) = some (.amode (gTeam gang r q)) ∧
      (gTeam gang r q).size = 2 ^ gang ∧ (s.core (memberAt c0 (2 ^ gang) r q)).wait = none ∧ (s.core (memberAt c0 (2 ^ gang) r q)).rels = [] ∧
      s.coreBad (memberAt c0 (2 ^ gang) r q) [2, 3] = none := by decide +kernel
/-- A member of a formed gang has no part to give: the others wait for it. -/
def sHeld : State := { sTeam 1 awl (strip1 1) slot1 with cores := (memberAt c0 2 1 0, { kTeam 1 1 0 awl (strip1 1) slot1 with arr := { (kTeam 1 1 0 awl (strip1 1) slot1).arr with queue := [] } }) :: (sTeam 1 awl (strip1 1) slot1).cores }
theorem wit_ArrayEntriesComplete_held : (sHeld.core c0).arr.cfg = some (gTeam 1 0 0) ∧ (sHeld.core c0).arr.formed = true ∧
    memberAt c0 2 1 0 ∈ gangMembers c0 (gTeam 1 0 0).size ∧ (sHeld.core (memberAt c0 2 1 0)).arr.queue = [] ∧
    ((sHeld.core c0).arr.queue.head?.map (fun e => e.op)) = some awl := by decide +kernel
theorem test_gang_forms : after (exec (.arrayEntryComplete c0) (sForm 1)) (fun t => ((t.core (memberAt c0 2 1 1)).arr.formed, (t.core (memberAt c0 2 1 1)).arr.cfg)) =
    some (true, some (gTeam 1 1 1)) := by decide +kernel
/-- Only the bottom row accumulates; the K position goes on by two chunks of 16. -/
theorem test_gang_stream : after (exec (.arrayEntryComplete c0) (sTeam 1 (ast false false) (strip1 1) slot1)) (fun t =>
    (((t.core (memberAt c0 2 1 0)).arr.strips[0]).kpos, ((t.core c0).slot 0 10).pend.isSome, ((t.core (memberAt c0 2 1 0)).slot 0 10).pend.isSome)) =
    some (32, false, true) := by decide +kernel

/-- SCATTER by the list at 0x80; TRANSPOSE of 2 rows of 4 BF16 elements; SKEW of 2 rows of 8 positions into one chunk; REBLOCK of 2 rows of 4 MXFP8
elements, scales at 0x300, along rows and transposed. -/
def eScatter : QEntry := ent [3, 0, 0, 0, 0x40, 0, 2, 4, 16, 16, 0, 0, 0, 0, 0, 0, 0x80, 0, 2]
def eTranspose : QEntry := ent [4, 2, 0, 0, 0x40, 0, 2, 4, 16, 4]
def eSkew : QEntry := ent [5, 2, 0, 0, 0x100, 0, 2, 8, 16, 0, 0, 0, 0, 0, 0, 2 + 8 * 2 ^ 7]
def eReblock (transp : Nat) : QEntry := ent [6 + 2 ^ 7 + 2 ^ 9 * transp, 4 + 256 * 4, 0, 0, 0x100, 0, 2, 4, 16, 16, 0x300, 0, 0x400, 0, 4 + 2 ^ 16 * 4]
def movRest : List QEntry := [eScatter, eTranspose, eSkew, eReblock 0, eReblock 1]
theorem wit_Mover_rest : ∀ e ∈ movRest, Begins (sMov e) qMov e ∧ (sMov e).mem.wf = true ∧ Unshared (sMov e) 0 ∧ (sMov e).up.badChannels = [] ∧
    3 ≤ e.mov.op ∧ e.mov.op ≤ 6 ∧ (sMov e).movCheck e.mov = 0 ∧
    (∀ r ∈ e.mov.reads, ∀ w ∈ e.mov.writes, Apart (r.1 % 2 ^ 52) r.2 (w.1 % 2 ^ 52) w.2) ∧
    (moved (sMov e) e.mov).Pairwise (fun a b => Apart (a.1 % 2 ^ 52) a.2.length (b.1 % 2 ^ 52) b.2.length) ∧
    (∀ v ∈ moverIndex (sMov e) e.mov, v < e.mov.rows ∨ v = 0xFFFF_FFFF) := by
  unfold Begins Unshared Apart; decide +kernel
theorem wit_Mover_rest_sound : ∀ e ∈ movRest, ∀ q ∈ e.mov.reads ++ e.mov.writes, Sound (sMov e) q.1 q.2 := by
  intro e he q hq
  refine ⟨?_, ?_, ?_, ?_⟩
  · revert q; revert e; decide +kernel
  · revert q; revert e; decide +kernel
  · revert q; revert e; unfold Clean; decide +kernel
  · intro x off p h1 h2 h3
    have hq' : q.1 % 2 ^ 52 + q.2 < 0x480_0000 := by clear h1 h2; revert q; revert e; decide +kernel
    rw [low_window x (by omega)] at h3
    cases h3

/-- The tract's one parcel offers a NaN score. -/
def nanMem : List (Nat × Byte) := putBytes (putBytes [(0x203, 1), (0x206, 1)] (sliceKey p0 0x1000) (natLe 4 0x7FC0_0000)) (sliceKey p0 0x1100) (natLe 8 0)
def sNan : State := { sRt eSelect with mem := { Mem.reset with bytes := nanMem } }
theorem wit_Routing_nan : Begins sNan qTr eSelect ∧ sNan.routeBad 0 eSelect = false ∧ sNan.routeAddr 0 (routeEntry eSelect.bytes) l1 = false ∧ NoHidden sNan ∧
    sNan.mem.wf = true ∧ (sNan.selectToken p0 (routeEntry eSelect.bytes) l1 0).nan = true := by
  unfold Begins NoHidden; decide +kernel
/-- RANK's exchange of cutoffs with every owner heard, and its exchange of keys with none. -/
def sRankX (key : XKey) (hd : List (Nat × Nat)) : State :=
  { sRanked with xfer := { sRanked.xfer with exch := [{ exch1 eRank key.xk with key := key, heard := hd }] } }
theorem wit_Routing_shortfall : ∀ s ∈ [sRankX (cutX 0 0) (allTracts.map (fun v => (0, v.val)))], ∀ x ∈ ((s.exchOf 0 (keyX 0 0)).or (s.exchOf 0 (cutX 0 0))).toList,
    s.silentPeers x = [] ∧ s.regBits (tractReg .clStat 0) 0 0 = 0 ∧ s.rankOf 0 0 0 = some run1 ∧ (s.queue qTr).entries = [eRank] ∧
      (s.queue qTr).stopped = false ∧ (s.queue qTr).hold = none ∧ (s.fab 0).collector = [] := by decide +kernel
theorem wit_Routing_silent : ∀ s ∈ [sRankX (keyX 0 0) []], ∀ x ∈ ((s.exchOf 0 (keyX 0 0)).or (s.exchOf 0 (cutX 0 0))).toList, s.silentPeers x ≠ [] := by decide +kernel
theorem test_rank_shortfall : after (exec (.rankPeerTimeout 0 0 0) (sRankX (cutX 0 0) (allTracts.map (fun v => (0, v.val))))) (fun t =>
    (t.fab 0).collector.map (fun r => r.cls)) = some [.closureFault] := by decide +kernel

/-- SORT: one layer (2) of 3 experts, K 2, rows of 32 bytes with 16 of payload. Tract 3 is the last to come; tract 0 has one parcel with two tokens in
plot 3, every other tract none. -/
def layer2 : List Byte :=
  List.replicate 28 0 ++ [1, 0] ++ List.replicate 10 0 ++ [64, 0, 0, 0] ++ List.replicate 20 0 ++
    (natLe 2 2 ++ natLe 2 2 ++ natLe 2 2 ++ natLe 2 3 ++ natLe 8 (keyOf 0 0 0x10_1000) ++ natLe 8 (keyOf 0 0 0x10_2000) ++ natLe 8 (keyOf 0 0 0x10_4000) ++
      natLe 4 0x500 ++ natLe 4 0 ++ natLe 4 4 ++ natLe 2 1 ++ natLe 2 4 ++ List.replicate 16 0)
def l2 : LayerRec := parseLayer layer2 64
def cadB (tract : Nat) (land : Nat) : List Byte := natLe 2 (4096 * tract) ++ natLe 1 3 ++ natLe 1 1 ++ natLe 2 0 ++ natLe 2 8 ++ natLe 4 (land / 128) ++ natLe 4 0
def selB (gti : Nat) (cs : List (Nat × Nat)) : List Byte :=
  natLe 4 gti ++ natLe 4 0 ++ cs.flatMap (fun q => natLe 2 q.1 ++ natLe 1 q.2 ++ [0] ++ natLe 4 0x3F80_0000)
def eSortAt (bwd : Bool) (v : Tract) : QEntry :=
  { ent [] with
    id := 7 + v.val
    bytes := List.replicate 32 0 ++ natLe 4 (2 + 16 * 2 + 2 ^ 14 * 3 + (if bwd then 2 ^ 22 else 0) + (if v = 0 then 0 else 2 ^ 23)) ++ natLe 4 5 ++ natLe 4 2 ++
      List.replicate 20 0 ++ natLe 4 0x2000 ++ natLe 4 0 ++ natLe 4 0x3000 ++ natLe 4 32 ++ natLe 2 4 ++ natLe 2 3 ++ natLe 4 0x4000 ++ natLe 4 9 ++
      natLe 8 (keyOf v.val 0 0x10_9000) ++ natLe 4 4 ++ natLe 4 0 }
def sortMem : List (Nat × Byte) :=
  [(keyOf 0 0 0x10_1000, cadB 4 0x8000), (keyOf 0 0 0x10_1010, cadB 1 0x8000), (keyOf 0 0 0x10_1020, cadB 4 0x9000),
    (sliceKey p0 0x2000, selB 10 [(2, 2), (0, 2)]), (sliceKey p0 0x2020, selB 11 [(1, 2), (2, 10)])].foldl (fun m q => putBytes m q.1 q.2) []
def waitAt (bwd : Bool) (v : Tract) : SortWait := { layer := 2, mb := 5, bwd := bwd, entry := 7 + v.val, bytes := (eSortAt bwd v).bytes }
def sSort (bwd : Bool) : State :=
  { State.reset with
    job := { State.reset.job with state := .armed }, mem := { Mem.reset with bytes := sortMem }
    queues := allTracts.map (fun v => (engQueue v .transit, { QueueState.reset with entries := [eSortAt bwd v] }))
    plan := { State.reset.plan with inForce := some { bytes := layer2, tables := [] }, stepped := true }
    parcels := [(p0, inPlot [])], regs := [(tractRegI .plotCfg 0 3, 1 + 2 ^ 12)]
    xfer := { State.reset.xfer with
      tracts := allTracts.map (fun v => (v, { TractXfer.reset with ranked := [(2, 5, 0)], waits := if v.val = 3 then [] else [waitAt bwd v] })) } }
def rAt (bwd : Bool) (v : Tract) : RouteEntry := routeEntry (eSortAt bwd v).bytes
theorem wit_Routing_sort_begins : ∀ bwd ∈ [false, true], ∀ s ∈ [sSort bwd], s.layerRec 2 = some l2 ∧ Begins s (engQueue 3 .transit) (eSortAt bwd 3) ∧
    (eSortAt bwd 3).xop = 2 ∧ s.routeBad 3 (eSortAt bwd 3) = false ∧ s.routeAddr 3 (rAt bwd 3) l2 = false ∧ s.up.badUnits = [] ∧
    (rAt bwd 3).bwd = bwd ∧ (s.txfer 3).ranked.any (fun x => x.1 == (rAt bwd 3).layer && x.2.1 == (rAt bwd 3).mb) = true ∧ (s.txfer 3).waits = [] ∧
    (∀ v, v ≠ 3 → (s.queue (engQueue v .transit)).entries = [eSortAt bwd v] ∧ (s.txfer v).waits = [waitAt bwd v]) ∧
    (∀ v, Quiet s (engQueue v .transit) (eSortAt bwd v)) ∧ (∀ v, (rAt bwd v).layer = 2) ∧ s.mem.wf = true ∧ 16 + l2.payb ≤ l2.rowb ∧ l2.rowb % 16 = 0 := by
  unfold Begins Quiet; decide +kernel
theorem wit_Routing_sort_sound : AllSound (sSort false) ∧ AllSound (sSort true) :=
  ⟨⟨by decide +kernel, rfl, rfl, rfl, rfl, fun _ _ => rfl⟩, ⟨by decide +kernel, rfl, rfl, rfl, rfl, fun _ _ => rfl⟩⟩
theorem wit_Routing_sort_tokens : ∀ bwd ∈ [false, true], ∀ s ∈ [sSort bwd],
    ((allTracts.flatMap (fun v => ((s.tokensOf v (rAt bwd v).plot (rAt bwd v).selOff l2.k (rAt bwd v).ntok (rAt bwd v).empty).filter (fun x => !x.bad)).map
      (fun x => x.gti))) = [10, 11]) ∧
    (∀ v, ∀ x ∈ s.tokensOf v (rAt bwd v).plot (rAt bwd v).selOff l2.k (rAt bwd v).ntok (rAt bwd v).empty, ∀ c ∈ x.choices, c.acc = true →
      c.expert < l2.e ∧ (s.cadOf l2 c.expert).isSome = true) := by decide +kernel
theorem wit_Routing_sort_areas : ∀ bwd ∈ [false, true], ∀ s ∈ [sSort bwd], ∀ v, ∀ r ∈ [rAt bwd v],
    (sortedRows s l2 (rAt bwd) bwd v).length ≤ r.srRows ∧ ((sortedRows s l2 (rAt bwd) bwd v).map (fun x => x.ch.expert)).dedup.length ≤ r.dirCap ∧
      0 < r.srNp ∧ r.srP0 + r.srNp ≤ 1360 ∧ r.srOff + (r.srRows / r.srNp + 1) * l2.rowb ≤ sliceSize ∧ r.srOff % 16 = 0 ∧
      r.dirGa % 16 = 0 ∧ gaTract r.dirGa = v.val ∧ s.isOwn r.dirGa = true ∧ s.reach r.dirGa (16 * r.dirCap) true = 0 ∧
      ∀ n < r.srNp, ∀ p ∈ (keyParcel (keyOf v.val (r.srP0 + n) 0)).toList,
        Apart (r.dirGa % 2 ^ 52) (16 * r.dirCap) (sliceKey p r.srOff) ((r.srRows / r.srNp + 1) * l2.rowb) := by
  unfold Apart; decide +kernel
/-- Expert 1 is of tract 1, 0 and 2 of tract 4. Forward the choice that overflowed is carried too; backward it is not. -/
theorem wit_Routing_sort_rows : [false, true].map (fun b => (sortedRows (sSort b) l2 (rAt b) b 0).map (fun x => (x.ch.expert, x.tok.gti, x.mrow))) =
    [[(1, 11, 0), (0, 10, 0), (2, 10, 0), (2, 11, 1)], [(1, 11, 0), (0, 10, 0), (2, 10, 0)]] := by decide +kernel
set_option maxRecDepth 100000 in
theorem test_sort : after (exec (.sort 3) (sSort true)) (fun t => ((t.queue (engQueue 0 .transit)).entries, (t.queue (engQueue 3 .transit)).entries)) =
    some ([], []) := by decide +kernel

/-- The landing of an exchange at tract 4, of layer 2: expert 2 there has the landing area of the parcels 0 and 7 from 0x9000 on. -/
def lp0 : ParcelId := { tract := 4, parcel := 0 }
def lp7 : ParcelId := { tract := 4, parcel := 7 }
def cSleep : CoreId := { tract := 4, parcel := 7, core := 2 }
def eLand (op spread loff sel gate ntok ret y ys ne : Nat) : QEntry :=
  ent [op + 16 * 2 + 2 ^ 14 * 3 + (if op = 4 then 2 ^ 24 else 0), 5, 2 ^ 16, spread, loff, 0, 0x700, 4, sel, gate, ntok, ret, y, ys, ne]
def hLand (type xk expert novf : Nat) : SegHdr := { hdrX xk with type := type, layer := 2, mb := 5, dtract := 4, expert := expert, novf := novf, mbase := 1 }
def xLand (e : QEntry) (xk want got : Nat) : Exch :=
  { exch1 e xk with
    tract := 4, key := { xk := xk, layer := 2, mb := 5, cid := 0 }, groups := [], want := want, got := got
    data := if xk < 2 then [] else [(0, 0), (0, 1), (1, 1)].map (fun q => (q.1, q.2, []))
    bases := [{ expert := 2, smod := 0, base := 1, acnt := 3 }, { expert := 2, smod := 7, base := 0, acnt := 1 }] }
def landMem : List (Nat × Byte) :=
  [(keyOf 0 0 0x10_1000, cadB 4 0x8000), (keyOf 0 0 0x10_1010, cadB 1 0x8000), (keyOf 0 0 0x10_1020, cadB 4 0x9000),
    (sliceKey lp0 0x2000, selB 10 [(2, 2), (0, 2)]), (sliceKey lp0 0x2020, selB 11 [(1, 6), (2, 2)]),
    (sliceKey lp0 0x2840, natLe 4 0x3F00_0000 ++ natLe 4 0x4000_0000)].foldl (fun m q => putBytes m q.1 q.2) []
def itemL (h : SegHdr) (rows : List RowData) : XItem := { seg := { hdr := h, rows := rows }, units := 1, flight := 1, port := none }
def sLanded (e : QEntry) (x : Exch) (i : XItem) : State :=
  { State.reset with
    job := { State.reset.job with state := .armed }, mem := { Mem.reset with bytes := landMem }
    queues := [(engQueue 4 .transit, { QueueState.reset with entries := [{ e with started := true, work := .await [] }] })]
    plan := { State.reset.plan with inForce := some { bytes := layer2, tables := [] }, stepped := true }
    cores := [({ tract := 4, parcel := 7, core := 0 }, Core.reset), (cSleep, { Core.reset with wait := some (.sleep 0 0 1) })]
    parcels := [(lp0, inPlot []), (lp7, inPlot [])], regs := [(tractRegI .plotCfg 4 3, 1 + 2 ^ 12)]
    xfer := { State.reset.xfer with exch := [x], paths := [((4, .portDie 3), [i])] } }
def rowL (place n : Nat) : RowData := { bytes := (List.range 14).map (fun j => BitVec.ofNat 8 (n + j)) ++ natLe 2 place ++ (List.range 16).map (fun j => BitVec.ofNat 8 (n + j)), poison := [] }
def eD : QEntry := eLand 3 1 128 0 0 0 0 0 0 0
def iRows : XItem := itemL (hLand 1 0 2 0) [rowL 0 1, rowL 1 33]
def iNull : XItem := itemL (hLand 2 0 2 2) []
theorem no_replica (s : State) (h : ∀ i < 16, s.replRegion i = none) (key n : Nat) : s.inReplica key n = false := by
  unfold State.inReplica
  rw [List.any_eq_false]
  intro i hi
  rw [h i (List.mem_range.mp hi)]
  exact Bool.false_ne_true
theorem wit_Landing_sound : ∀ i ∈ [iRows, iNull], AllSound (sLanded eD (xLand eD 0 4 0) i) := by
  intro i hi
  have h : ∀ k < 16, (sLanded eD (xLand eD 0 4 0) i).replRegion k = none := by revert i; decide +kernel
  have hm : (sLanded eD (xLand eD 0 4 0) i).mem.wf = true := by revert i; decide +kernel
  exact ⟨hm, rfl, rfl, rfl, rfl, no_replica _ h⟩
theorem wit_Landing_last : ∀ z ∈ [(eD, iRows, 0), (eD, iNull, 0)], ∀ s ∈ [sLanded z.1 (xLand z.1 z.2.2 4 0) z.2.1],
    LastUnit s 4 (.portDie 3) z.2.1 (xLand z.1 z.2.2 4 0) ∧ s.layerRec 2 = some l2 := by
  intro z hz s hs
  have h : (s.xfer.paths.get (4, .portDie 3) [] = [z.2.1] ∧ z.2.1.units = 1 ∧ z.2.1.flight = 1 ∧ s.exchOf 4 (segKey z.2.1.seg) = some (xLand z.1 z.2.2 4 0)) ∧
      s.layerRec 2 = some l2 := by revert s; revert z; decide +kernel
  exact ⟨⟨h.1.1, h.1.2.1, h.1.2.2.1, h.1.2.2.2, fun u y hu => nomatch hu⟩, h.2⟩
theorem wit_Landing_places : ∀ i ∈ [iRows, iNull], ∀ s ∈ [sLanded eD (xLand eD 0 4 0) i], ∀ pl ∈ (s.expertPlace 4 l2 2).toList,
    pl.land = 0x9000 ∧ pl.parcels = [lp0, lp7] ∧ ∀ q < 4, ∀ z ∈ (pl.slot 1 128 l2.rowb q).toList, z.1.tract = 4 ∧ z.2.1 + l2.rowb ≤ sliceSize ∧
      Apart (sliceKey z.1 z.2.1) l2.rowb (l2.cadGa % 2 ^ 52) (16 * l2.e) ∧ Apart (sliceKey z.1 z.2.1) l2.rowb ((l2.tallyGa + 16 * 2) % 2 ^ 52) 16 := by
  unfold Apart; decide +kernel
theorem wit_Landing_rows : ∀ i ∈ [iRows, iNull], ∀ s ∈ [sLanded eD (xLand eD 0 4 0) i], ∀ x ∈ [xLand eD 0 4 0],
    (x.bases.find? (fun b => decide (b.expert = 2) && decide (b.smod = 0))).isSome = true ∧ x.total 2 = 4 ∧ (s.expertPlace 4 l2 2).isSome = true ∧
    (parseXfer x.bytes).loff = 128 ∧ (parseXfer x.bytes).spread = 1 ∧ l2.cadGa % 2 ^ 52 + 16 * l2.e ≤ 2 ^ 52 ∧ l2.tallyGa % 2 ^ 52 + 16 * 4096 < 2 ^ 52 ∧
    (∀ g ∈ i.seg.rows, g.bytes.length = l2.rowb ∧ g.poison = [] ∧ 1 + fieldAt g.bytes 14 2 < 4) ∧ (i.seg.rows.map (fun g => fieldAt g.bytes 14 2)).Nodup := by
  decide +kernel
theorem test_land : after (exec (.creditUnit 4 (.portDie 3)) (sLanded eD (xLand eD 0 4 0) iRows)) (fun t => (t.regBits (tractReg .clRecv 4) 63 32,
    (t.core { tract := 4, parcel := 7, core := 0 }).land, (t.core cSleep).land)) = some (2, true, true) := by decide +kernel
/-- Return rows: two of three come while three are expected; then COMBINE's last one, after which token 0 of parcel 0 has both its choices' rows and
token 1 one of its two, the other having overflowed: 2.0 times 1.0 and 3.0. -/
def eC (op : Nat) : QEntry := eLand op 1 128 0x2000 0x2800 2 0x3000 0x5000 16 4
def rowR (choice tok n : Nat) : RowData :=
  { bytes := List.replicate 6 0x11 ++ natLe 2 (2048 * choice) ++ natLe 4 0 ++ natLe 2 tok ++ natLe 2 0 ++ natLe 4 0x3F80_0000 ++ natLe 4 n ++ List.replicate 8 0, poison := [] }
def iRet : XItem := itemL (hLand 1 2 0 0) [rowR 1 1 1, rowR 0 0 2]
def iLast : XItem := itemL (hLand 1 2 0 0) [rowR 1 1 0x4040_0000]
theorem wit_Landing_returns : ∀ z ∈ [(iRet, 0), (iLast, 2)], ∀ x ∈ [xLand (eC 4) 2 3 z.2], ∀ s ∈ [sLanded (eC 4) x z.1],
    (∀ g ∈ z.1.seg.rows, g.bytes.length = l2.rowb ∧ g.poison = [] ∧ x.data.any (fun d => (d.1, d.2.1) == returnPlace (g.bytes.take 16)) = true ∧
      x.filled.contains (returnPlace (g.bytes.take 16)) = false ∧ fieldBits g.bytes 6 2 10 0 = 0 ∧
      0x3000 + (fieldAt g.bytes 12 2 * l2.k + (returnPlace (g.bytes.take 16)).2 + 1) * l2.rowb ≤ sliceSize ∧ (returnPlace (g.bytes.take 16)).2 < l2.k) ∧
    (z.1.seg.rows.map (fun g => returnPlace (g.bytes.take 16))).Nodup := by decide +kernel
theorem wit_Landing_return_state : ∀ z ∈ [(iRet, 0), (iLast, 2)], ∀ x ∈ [xLand (eC 4) 2 3 z.2], ∀ s ∈ [sLanded (eC 4) x z.1],
    s.xfer.paths.get (4, .portDie 3) [] = [z.1] ∧ s.exchOf 4 (segKey z.1.seg) = some x ∧ s.layerRec 2 = some l2 ∧ (parseXfer x.bytes).retOff = 0x3000 ∧
    s.mem.wf = true := by decide +kernel
theorem wit_Landing_combines : ∀ x ∈ [xLand (eC 4) 2 3 2], ∀ s ∈ [sLanded (eC 4) x iLast], ∀ f ∈ [parseXfer x.bytes],
    x.got + 1 = x.want ∧ s.xfer.sends = [] ∧ x.out = [] ∧ x.halted = false ∧ x.att = x.dlv + x.ovf ∧ x.poison = false ∧ s.up.badUnits = [] ∧
    (s.queue (engQueue 4 .transit)).entries.map (fun e => e.id) = [x.entry] ∧ (eC 4).sga = 0 ∧ (eC 4).cpl = false ∧ (s.queue (engQueue 4 .transit)).hold = none ∧
    combinePast f l2 = false ∧ f.empty = false ∧ f.nelem = 4 ∧ f.ybf16 = false ∧ f.yOff % 16 = 0 ∧ f.ystride = 16 ∧
    s.plotParcels 4 (BitVec.ofNat 8 f.plot) = [lp0, lp7] := by decide +kernel
theorem wit_Landing_stored (a : Nat) (bs : List Byte) : ∀ s ∈ [sLanded (eC 4) (xLand (eC 4) 2 3 2) iLast],
    Stored s { s with mem := { s.mem with bytes := putBytes s.mem.bytes a bs } } a bs := by
  intro s hs x
  refine byteAt_putBytes bs _ a x ?_
  revert s; decide +kernel
set_option exponentiation.threshold 1024 in
set_option maxRecDepth 8000 in
/-- RSCAT of FP32 in and out. -/
theorem wit_Exchange_rscat : Begins (sX (eColl 5)) qTr (eColl 5) ∧ Quiet (sX (eColl 5)) qTr (eColl 5) ∧ (eColl 5).xop = 5 ∧
    (collEntry (eColl 5).bytes).op = 5 ∧ (sX (eColl 5)).collBad 0 (eColl 5) (collEntry (eColl 5).bytes) = false ∧
    (collEntry (eColl 5).bytes).ibf16 = false ∧ (collEntry (eColl 5).bytes).obf16 = false ∧ (collEntry (eColl 5).bytes).inBytes 1 0 = 64 ∧
    (sX (eColl 5)).groupOf (collEntry (eColl 5).bytes) = [(sX (eColl 5)).job.moduleId.toNat] ∧ (collEntry (eColl 5).bytes).tracts = [0] := by
  exact ⟨⟨by rfl, by rfl⟩, ⟨by rfl, by rfl, by rfl⟩, by rfl, by rfl, by rfl, by rfl, by rfl, by rfl, by rfl, by rfl⟩
theorem test_combine : after (exec (.creditUnit 4 (.portDie 3)) (sLanded (eC 4) (xLand (eC 4) 2 3 2) iLast)) (fun t => ((t.queue (engQueue 4 .transit)).entries,
    t.mem.read (sliceKey lp0 0x5010) 8)) = some ([], [0, 0, 0, 0x40, 0, 0, 0xC0, 0x40]) := by decide +kernel

/-- Ports 3 and 4 down; the send buffer of port 3 as given. -/
def sSlotDown (ws : List SlotSend) : State := { sSlot ws with regs := [] }
theorem wit_Slot_missed : ∀ s ∈ [sSlotDown [send1 .staged 4], sSlot [send1 .staged 4], sSlotDown [send1 .frozen 4], sSlot [send1 .sent 4]],
    s.slotOwner 3 9 = some (0, ent1, some xSlot.key) ∧ s.exchOf 0 (send1 .staged 4).key = some xSlot ∧ s.slackOver xSlot 1 9 = false ∧
      s.errs.cdQueue = [] := by
  simp only [List.mem_cons, List.mem_nil_iff, or_false]
  rintro s (rfl | rfl | rfl | rfl) <;> exact ⟨by rfl, by rfl, by rfl, by rfl⟩
theorem wit_Slot_missed_port : (sSlotDown []).portState 3 = 0 ∧ (sSlot []).portState 3 = 5 := ⟨by rfl, by rfl⟩
/-- Port 4 relays to module 2: its slot is entry 3 of the table, instance 9; the relay buffer holds segments for modules 5 and 2. -/
def relaySeg (n : Nat) : Segment := { hdr := { hdrX 0 with dmod := 2, dtract := n, count := 1 }, rows := [{ bytes := List.replicate 32 (BitVec.ofNat 8 n), poison := [] }] }
def relays1 : List RelayItem := [{ dmod := 5, segs := [relaySeg 1] }, { dmod := 2, segs := [relaySeg 1, relaySeg 2] }, { dmod := 2, segs := [relaySeg 3] }]
def relaySlots : List Byte := slots1.take 16 ++ [0, 0x40, 2, 0, 1, 0x10, 2, 0] ++ natLe 4 96 ++ [0, 0, 0, 0] ++ slots1.drop 32
def sRelay : State :=
  { sSlot [] with
    plan := { (sSlot []).plan with inForce := some { bytes := planBytes 1, tables := [(0, relaySlots)] } }
    xfer := { (sSlot []).xfer with exch := [], relays := [(portDie 4, relays1)] } }
theorem wit_Slot_relay : sRelay.sendAt 4 9 = none ∧ (sRelay.sendsOf 4).length < 8 ∧ sRelay.plan.stepped = true ∧
    sRelay.slotOwner 4 9 = some (0, slotEnt relaySlots 16, (sRelay.slotOwner 4 9).bind (fun q => q.2.2)) ∧ (slotEnt relaySlots 16).relay = true ∧
    ((sRelay.relaysOf (portDie 4)).find? (fun r => decide (r.dmod = (slotEnt relaySlots 16).dmod))).map (fun r => r.dmod) = some 2 ∧
    (takeContent [relaySeg 1, relaySeg 2] (slotEnt relaySlots 16).limit).1 ≠ [] :=
  ⟨by rfl, by decide, by rfl, by rfl, by rfl, by rfl, by decide⟩
theorem wit_Slot_content : ∀ segs ∈ [[], [relaySeg 3]], (sSlot []).frameCode 3 (frame1 3 0) segs = (0, some (slotEnt slots1 32)) ∧
    (slotEnt slots1 32).relay = false := by
  simp only [List.mem_cons, List.mem_nil_iff, or_false]
  rintro segs (rfl | rfl) <;> exact ⟨by rfl, by rfl⟩
theorem test_slot_down : after (exec (.slotTransmit 3 9) (sSlotDown [send1 .frozen 4])) (fun t => (t.out, t.regBits (xsReg 3) 31 16)) = some ([], 1) := by rfl
theorem test_sack_mismatch : after (exec (.sack 3 0 9 0 2) (sSlot [send1 .sent 4])) (fun t => t.errs.cdQueue.map (fun r => r.cls)) = some [.slotMismatch] := by rfl

/-- The head of a manifest of n regions for job 0, module 0 and 16,320 parcels, and one whose MDIGEST is that of the rest. -/
def mfHead (n : Nat) : List Byte := List.replicate 18 0 ++ natLe 2 16320 ++ natLe 4 n ++ List.replicate 184 0
def mfWhole (n : Nat) (tl : List Byte) : List Byte := mfHead n ++ (digest (mfHead n ++ tl) ++ tl)
theorem natLe_len (n v : Nat) : (natLe n v).length = n := by
  induction n generalizing v with
  | zero => rfl
  | succ n ih => simp [natLe, ih]
theorem mfHead_length (n : Nat) : (mfHead n).length = 208 := by
  unfold mfHead
  rw [List.length_append, List.length_append, List.length_append, List.length_replicate, List.length_replicate, natLe_len, natLe_len]
theorem fieldAt_head (a b : List Byte) (i n : Nat) (h : i + n ≤ a.length) : fieldAt (a ++ b) i n = fieldAt a i n := by
  unfold fieldAt
  rw [List.drop_append_of_le_length (by omega), List.take_append_of_le_length (by rw [List.length_drop]; omega)]
theorem wit_Restore_manifest (tl : List Byte) (hl : tl.length = 3840) (n : Nat) (hn : n ∈ [0, 1]) :
    fieldAt (mfWhole n tl) 20 4 = n ∧ (mfWhole n tl).take (manifestSize (fieldAt (mfWhole n tl) 20 4)) = mfWhole n tl ∧
      (sRestore .owned .restore false none []).manifestOk (mfWhole n tl) = true := by
  have hd : (digest (mfHead n ++ tl)).length = 48 := natLe_len _ _
  have hf : ∀ i k, i + k ≤ 208 → fieldAt (mfWhole n tl) i k = fieldAt (mfHead n) i k := fun i k h =>
    fieldAt_head _ _ i k (by rw [mfHead_length]; exact h)
  have h20 : fieldAt (mfHead n) 20 4 = n ∧ fieldAt (mfHead n) 8 8 = 0 ∧ fieldAt (mfHead n) 16 2 = 0 ∧ fieldAt (mfHead n) 18 2 = 16320 ∧ manifestSize n = 4096 := by
    clear hd hf; revert n; decide +kernel
  refine ⟨by rw [hf _ _ (by decide), h20.1], ?_, ?_⟩
  · rw [hf _ _ (by decide), h20.1, h20.2.2.2.2]
    refine List.take_of_length_le ?_
    rw [mfWhole, List.length_append, List.length_append, mfHead_length, hd, hl]
  · have h1 : ((mfWhole n tl).drop 208).take 48 = digest (mfHead n ++ tl) := by
      rw [mfWhole, List.drop_left' (mfHead_length n), List.take_left' hd]
    have h2 : (mfWhole n tl).take 208 = mfHead n := List.take_left' (mfHead_length n)
    have h3 : (mfWhole n tl).drop 256 = tl := by
      rw [mfWhole, ← List.append_assoc, List.drop_left' (by rw [List.length_append, mfHead_length, hd])]
    unfold State.manifestOk
    rw [h1, h2, h3, hf 8 8 (by decide), hf 16 2 (by decide), hf 18 2 (by decide), h20.2.1, h20.2.2.1, h20.2.2.2.1, beq_self_eq_true]
    rfl
/-- Without regions an image is whole; a region that the source does not give is cause 4; a manifest of zeros is none. -/
theorem wit_Restore_regions (m : List Byte) : readRegions m 0 0 [] = ([], 0, 0) ∧ readRegions m 1 0 [] = ([], 4, 0) ∧
    (sRestore .owned .restore false none []).manifestOk [] = false := ⟨rfl, rfl, by unfold State.manifestOk; rw [Bool.and_eq_false_iff]; exact .inr (by rfl)⟩
/-- A digest in the manifest that is not that of region 0. -/
theorem wit_Restore_marks_bad (r : List Byte) : ∃ tl : List Byte, tl.length = 3840 ∧ marksSound (mfWhole 1 tl) [r] = false := by
  have hd : (digest (fit regionSize r)).length = 48 := natLe_len _ _
  refine ⟨(digest (fit regionSize r)).map (fun b => b + 1) ++ List.replicate 3792 0, ?_, ?_⟩
  · rw [List.length_append, List.length_map, hd, List.length_replicate]
  · have hr : regionDigest (mfWhole 1 ((digest (fit regionSize r)).map (fun b => b + 1) ++ List.replicate 3792 0)) 0 =
        (digest (fit regionSize r)).map (fun b => b + 1) := by
      unfold regionDigest
      rw [mfWhole, ← List.append_assoc, List.drop_left' (by rw [List.length_append, mfHead_length, digest, natLe_len]),
        List.take_left' (by rw [List.length_map, hd])]
    have hne : digest (fit regionSize r) ≠ (digest (fit regionSize r)).map (fun b => b + 1) := by
      generalize digest (fit regionSize r) = l at hd
      cases l with
      | nil => cases hd
      | cons b l =>
        intro h
        have hb := (List.cons.inj h).1
        clear h hd hr; revert hb; revert b; decide
    unfold marksSound
    show ((digest (fit regionSize r) == regionDigest _ 0) && true) = false
    rw [hr, Bool.and_true, beq_eq_false_iff_ne]
    exact hne
theorem wit_Restore_one (m r : List Byte) : readRegions m 1 0 [r] = ([], 0, 0) := rfl

theorem wit_Spdm_refused : ({ req0 with p384 := false }.p384 && { req0 with p384 := false }.sha384) = false ∧ (req0.p384 && req0.sha384) = true ∧
    (sSpdm spdmAlgos 0).up.sec.reserved = false ∧ (sSpdm spdmAlgos 0).up.sec.leaf < leafTotal := by decide
/-- A signature that needs the journal's next record, which fails to be written, takes no leaf. -/
theorem test_no_journal : after (exec (.challenge { req0 with journal := false }) (sSpdm spdmAlgos 0)) (fun t => (t.up.sec.leaf, t.out)) =
    some (0, [.spdm 0x7F [5]]) := by rfl
def tokenFull : Token := { body := List.replicate 256 0, esig := List.replicate 96 0, lsig := List.replicate 2964 0 }
theorem wit_Unlock_written : tokenFull.wellFormed = true ∧ (sUpd 0 .ready Security.reset).up.sec.token.Pairwise (fun a b => a.1 < b.1) :=
  ⟨by simp only [Token.wellFormed, tokenFull, List.length_replicate]; decide, by decide⟩

end Sys2Proof.Tests
end

section
/-!
PROOFS (O60). Memory stays in its canonical form. A state is canonical where its memory's lists are (assumption log 9). One lemma per
function of the model says what it does to that: a function that leaves memory alone has the form (`↔`), one that writes it keeps the
form (an implication). An instruction's lemma follows from those of the functions it calls, and the step's from the instructions'.

Two habits of the proofs below come from the kernel. `State.Canonical` is a name of its own so that whole states are never compared
through their field mem; and where a function's branches hang on a lookup by address, `obtain ⟨f, hf⟩ : ∃ f, lookup = f` makes the lookup
opaque, since the kernel would otherwise evaluate addresses of 52 bits in unary. A function whose outermost branch is such a lookup is named
(`∃ g, @f = g`) and unfolded in that equation, for the same reason.
-/
namespace Sys2Proof.Machine

/-- Memory is in its canonical form (R2, R148, assumption log 9). A name of its own, so that no proof compares memories of whole states. -/
def State.Canonical (s : State) : Prop := s.mem.wf = true

/-- Memory is canonical in the state an outcome holds, where it holds one. -/
def Result.Canonical (r : Result) : Prop := ∀ t, r = .next t → t.Canonical

@[simp] theorem State.wf_mem_iff (s : State) : s.mem.wf = true ↔ s.Canonical := ⟨id, id⟩

/-- Only the field mem of a state counts. -/
@[simp] theorem State.canonical_mk (pending free ticks aoTime mtime mem cores parcels fabs fabric engWaits queues seqrs host regs job errs plan xfer
    links relayed meridian up out) :
    (State.mk pending free ticks aoTime mtime mem cores parcels fabs fabric engWaits queues seqrs host regs job errs plan xfer links relayed
      meridian up out).Canonical ↔ mem.wf = true := ⟨id, id⟩

@[simp] theorem State.canonical_ite (c : Prop) [Decidable c] (s t : State) :
    (if c then s else t).Canonical ↔ if c then s.Canonical else t.Canonical := by
  split
  · exact Iff.rfl
  · exact Iff.rfl

/-- A fold of steps that leave memory alone. -/
theorem State.foldl_canonical_iff {α : Type} {f : State → α → State} (hf : ∀ s x, (f s x).Canonical ↔ s.Canonical) (l : List α) (s : State) :
    (l.foldl f s).Canonical ↔ s.Canonical := by
  induction l generalizing s with
  | nil => exact Iff.rfl
  | cons x l ih => exact (ih (f s x)).trans (hf s x)

/-- A fold of steps that keep memory canonical. -/
theorem State.foldl_canonical {α : Type} {f : State → α → State} (hf : ∀ s x, s.Canonical → (f s x).Canonical) {l : List α} {s : State}
    (h : s.Canonical) : (l.foldl f s).Canonical := by
  induction l generalizing s with
  | nil => exact h
  | cons x l ih => exact ih (hf s x h)

@[simp] theorem Result.canonical_next (s : State) : Result.Canonical (.next s) ↔ s.Canonical :=
  ⟨fun h => h s rfl, fun h t e => by cases e; exact h⟩

/-- Setting the bytes of memory's list keeps its canonical form. -/
theorem Mem.putBytes_wf {m : Mem} {a : Nat} {bs : List Byte} (h : m.wf = true) : ({ m with bytes := putBytes m.bytes a bs } : Mem).wf = true := by
  obtain ⟨hb, hrest⟩ := (Mem.wf_iff m).1 h
  exact (Mem.wf_iff _).2 ⟨putBytes_sorted bs _ a hb, hrest⟩

theorem Mem.eraseCe_wf {m : Mem} (u : Nat) (h : m.wf = true) : ({ m with ce := m.ce.erase u } : Mem).wf = true := by
  obtain ⟨hb, hpoison, hce, hue, hpar⟩ := (Mem.wf_iff m).1 h
  exact (Mem.wf_iff _).2 ⟨hb, hpoison, erase_rising _ _ hce, hue, hpar⟩

/-- A 16-byte unit that is rewritten loses its poison and its parity errors (R297). -/
theorem Mem.dropChecks_wf {m : Mem} (u : Nat) (h : m.wf = true) :
    ({ m with poison := m.poison.erase u, par := outside u 16 m.par } : Mem).wf = true := by
  obtain ⟨hb, hpoison, hce, hue, hpar⟩ := (Mem.wf_iff m).1 h
  exact (Mem.wf_iff _).2 ⟨hb, erase_rising _ _ hpoison, hce, hue, filter_rising _ _ hpar⟩

/-! Of Sys2Proof/Machine/Regs.lean. -/

@[simp] theorem State.setReg_canonical (s : State) (k : RegKey) (v : Nat) : (s.setReg k v).Canonical ↔ s.Canonical := by
  simp [State.setReg]

@[simp] theorem State.setRegBits_canonical (s : State) (k : RegKey) (hi lo v : Nat) : (s.setRegBits k hi lo v).Canonical ↔ s.Canonical := by
  simp [State.setRegBits]

@[simp] theorem State.raise_canonical (s : State) (k : RegKey) (b : Nat) : (s.raise k b).Canonical ↔ s.Canonical := by
  simp [State.raise]

@[simp] theorem State.bumpReg_canonical (s : State) (k : RegKey) (hi lo n : Nat) : (s.bumpReg k hi lo n).Canonical ↔ s.Canonical := by
  simp [State.bumpReg]

/-! Of Sys2Proof/Machine/ParcelRegs.lean. -/

@[simp] theorem State.setCore_canonical (s : State) (c : CoreId) (v : Core) : (s.setCore c v).Canonical ↔ s.Canonical := by
  simp [State.setCore]

@[simp] theorem State.modCore_canonical (s : State) (c : CoreId) (f : Core → Core) : (s.modCore c f).Canonical ↔ s.Canonical := by
  simp [State.modCore]

@[simp] theorem State.setParcel_canonical (s : State) (p : ParcelId) (v : Parcel) : (s.setParcel p v).Canonical ↔ s.Canonical := by
  simp [State.setParcel]

@[simp] theorem State.modParcel_canonical (s : State) (p : ParcelId) (f : Parcel → Parcel) : (s.modParcel p f).Canonical ↔ s.Canonical := by
  simp [State.modParcel]

@[simp] theorem State.setFab_canonical (s : State) (t : Tract) (v : TractFab) : (s.setFab t v).Canonical ↔ s.Canonical := by
  simp [State.setFab]

@[simp] theorem State.modFab_canonical (s : State) (t : Tract) (f : TractFab → TractFab) : (s.modFab t f).Canonical ↔ s.Canonical := by
  simp [State.modFab]

@[simp] theorem State.modHealth_canonical (s : State) (p : ParcelId) (f : ParcelHealth → ParcelHealth) :
    (s.modHealth p f).Canonical ↔ s.Canonical := by
  simp [State.modHealth]

@[simp] theorem State.modTpwr_canonical (s : State) (t : Tract) (f : TractPower → TractPower) : (s.modTpwr t f).Canonical ↔ s.Canonical := by
  simp [State.modTpwr]

/-! Of Sys2Proof/Machine/Clock.lean. -/

@[simp] theorem State.tick_canonical (s : State) : (s.tick).Canonical ↔ s.Canonical := by
  simp [State.tick]

/-! Of Sys2Proof/Machine/Ops.lean. -/

@[simp] theorem State.takeFree_canonical (s : State) : (s.takeFree).Canonical ↔ s.Canonical := by
  simp [State.takeFree]

@[simp] theorem State.modLink_canonical (s : State) (p : Port) (f : LinkPort → LinkPort) : (s.modLink p f).Canonical ↔ s.Canonical := by
  simp [State.modLink]

@[simp] theorem State.sendFrom_canonical (s : State) (via : Option Port) (m : OutMsg) : (s.sendFrom via m).Canonical ↔ s.Canonical := by
  unfold State.sendFrom
  extract_lets s1
  have hs1 : s1.Canonical ↔ s.Canonical := by simp [s1]
  split <;> simp [hs1]

@[simp] theorem State.send_canonical (s : State) (m : OutMsg) : (s.send m).Canonical ↔ s.Canonical := by
  simp [State.send]

@[simp] theorem State.giveUnits_canonical (s : State) (p : Port) (vc n : Nat) : (s.giveUnits p vc n).Canonical ↔ s.Canonical := by
  simp [State.giveUnits]

@[simp] theorem State.leaveBuffers_canonical (s : State) (vc : Nat) (ms : List TxMsg) : (s.leaveBuffers vc ms).Canonical ↔ s.Canonical := by
  unfold State.leaveBuffers
  refine State.foldl_canonical_iff (fun s1 x => ?_) _ _
  split <;> simp

@[simp] theorem State.countLost_canonical (s : State) : (s.countLost).Canonical ↔ s.Canonical := by
  simp [State.countLost]

@[simp] theorem State.emitCd_canonical (s : State) (r : ErrRec) : (s.emitCd r).Canonical ↔ s.Canonical := by
  simp [State.emitCd]

@[simp] theorem State.emitTract_canonical (s : State) (t : Tract) (r : ErrRec) : (s.emitTract t r).Canonical ↔ s.Canonical := by
  simp [State.emitTract]

@[simp] theorem State.noteAbort_canonical (s : State) (r : ErrRec) : (s.noteAbort r).Canonical ↔ s.Canonical := by
  simp [State.noteAbort]

@[simp] theorem State.queueRec_canonical (s : State) (r : ErrRec) : (s.queueRec r).Canonical ↔ s.Canonical := by
  unfold State.queueRec
  split <;> simp

@[simp] theorem State.restoreFail_canonical (s : State) (cause : Nat) (more : List Nat) : (s.restoreFail cause more).Canonical ↔ s.Canonical := by
  simp [State.restoreFail]

@[simp] theorem State.emit_canonical (s : State) (r : ErrRec) : (s.emit r).Canonical ↔ s.Canonical := by
  simp [State.emit]

@[simp] theorem State.checkUnit_canonical (s : State) (t : Tract) (u : Checked) : (s.checkUnit t u).Canonical ↔ s.Canonical := by
  simp [State.checkUnit]

@[simp] theorem State.retire_canonical (s : State) (p : ParcelId) : (s.retire p).Canonical ↔ s.Canonical := by
  simp [State.retire]

@[simp] theorem State.suspect_canonical (s : State) (p : ParcelId) : (s.suspect p).Canonical ↔ s.Canonical := by
  simp [State.suspect]

@[simp] theorem State.transient_canonical (s : State) (p : ParcelId) : (s.transient p).Canonical ↔ s.Canonical := by
  simp [State.transient]

@[simp] theorem State.dropLine_canonical (s : State) (t : Tract) (l : Nat × Nat) : (s.dropLine t l).Canonical ↔ s.Canonical := by
  simp [State.dropLine]

@[simp] theorem State.touch_canonical {s : State} {a n : Nat} (h : s.Canonical) : (s.touch a n).Canonical := s.touch_wf a n h

@[simp] theorem State.store_canonical {s : State} {a : Nat} {bs : List Byte} (h : s.Canonical) : (s.store a bs).Canonical := s.store_wf a bs h

@[simp] theorem State.storePoison_canonical {s : State} {a n : Nat} (h : s.Canonical) : (s.storePoison a n).Canonical := s.storePoison_wf a n h

@[simp] theorem State.storeMaybe_canonical {s : State} {a : Nat} {bs : List Byte} {bad : Bool} (h : s.Canonical) :
    (s.storeMaybe a bs bad).Canonical := s.storeMaybe_wf a bs bad h

@[simp] theorem State.badValue_canonical (s : State) (k : RegKey) (value size : Nat) : (s.badValue k value size).Canonical ↔ s.Canonical := by
  simp [State.badValue]

@[simp] theorem State.regWrite_canonical (s : State) (k : RegKey) (v size : Nat) (check : Nat → Bool) :
    (s.regWrite k v size check).Canonical ↔ s.Canonical := by
  simp [State.regWrite]

@[simp] theorem State.hostWin_canonical (s : State) (bar off : Nat) (write : Bool) (size : Nat) (bad : Bool) :
    (s.hostWin bar off write size bad).Canonical ↔ s.Canonical := by
  simp [State.hostWin]

theorem State.atReg_canonical {s : State} {k : RegKey} {size : Nat} {act : State → State} (h : s.Canonical)
    (hact : ∀ t, t.Canonical → (act t).Canonical) :
    (s.atReg k size act).Canonical := by
  simp [State.atReg, h, hact]

/-! Of Sys2Proof/Machine/CoreOps.lean. -/

@[simp] theorem State.retryHeld_canonical (s : State) (c : CoreId) : (s.retryHeld c).Canonical ↔ s.Canonical := by
  unfold State.retryHeld
  extract_lets p s1
  have hs1 : s1.Canonical ↔ s.Canonical := by simp [s1]
  split
  · exact Iff.rfl
  · split <;> simp [hs1]

@[simp] theorem State.stopOn_canonical (s : State) (c : CoreId) (pc : Nat) (i : ExcInfo) : (s.stopOn c pc i).Canonical ↔ s.Canonical := by
  simp [State.stopOn]

@[simp] theorem State.gangStop_canonical (s : State) (c : CoreId) (f : GangFault) : (s.gangStop c f).Canonical ↔ s.Canonical := by
  simp [State.gangStop]

@[simp] theorem State.breakMembers_canonical (s : State) (ms : List CoreId) (f : GangFault) : (s.breakMembers ms f).Canonical ↔ s.Canonical := by
  unfold State.breakMembers
  dsimp only
  refine (State.foldl_canonical_iff (fun s1 x => ?_) _ _).trans ?_
  · split <;> simp
  · refine State.foldl_canonical_iff (fun s1 x => ?_) _ _
    simp

@[simp] theorem State.breakGang_canonical (s : State) (c : CoreId) (f : GangFault) : (s.breakGang c f).Canonical ↔ s.Canonical := by
  unfold State.breakGang
  split <;> simp

@[simp] theorem State.exception_canonical (s : State) (c : CoreId) (pc : Nat) (i : ExcInfo) : (s.exception c pc i).Canonical ↔ s.Canonical := by
  simp [State.exception]

@[simp] theorem State.raiseAt_canonical (s : State) (c : CoreId) (i : ExcInfo) : (s.raiseAt c i).Canonical ↔ s.Canonical := by
  simp [State.raiseAt]

@[simp] theorem State.deferred_canonical (s : State) (c : CoreId) (pc : Nat) (i : ExcInfo) : (s.deferred c pc i).Canonical ↔ s.Canonical := by
  simp [State.deferred]

theorem State.orGangFault_canonical {s : State} {c : CoreId} {act : State → State} (h : s.Canonical) (hact : ∀ t, t.Canonical → (act t).Canonical) :
    (s.orGangFault c act).Canonical := by
  unfold State.orGangFault
  split <;> simp [h, hact]

@[simp] theorem State.noteFetch_canonical (s : State) (i : Issue) (n : Nat) : (s.noteFetch i n).Canonical ↔ s.Canonical := by
  simp [State.noteFetch]

theorem State.issue_canonical {s : State} {i : Issue} {n : Nat} {bad : Bool} {reads : List CReg} {act : State → State} (h : s.Canonical)
    (hact : ∀ t, t.Canonical → (act t).Canonical) :
    (s.issue i n bad reads act).Canonical := by
  unfold State.issue
  extract_lets k s1
  have hs1 : s1.Canonical := by
    unfold s1
    refine State.foldl_canonical (fun s2 x hs => ?_) ?_
    · simp [hs]
    · exact h
  split <;> simp [h, hact, hs1]

theorem State.asSpelled_canonical {s : State} {i : Issue} {ins : Instr} {act : Result} (h : s.Canonical) (hact : act.Canonical) :
    Result.Canonical (s.asSpelled i ins act) := by
  unfold State.asSpelled
  extract_lets k pc w
  split
  · exact hact
  · split
    · rw [Result.canonical_next]
      exact State.issue_canonical h (fun _ hs => hs)
    · exact (Result.canonical_next s).2 h

@[simp] theorem State.issueRegs_canonical {s : State} {i : Issue} {n : Nat} {bad : Bool} {reads : List CReg} {f : Core → Core} (h : s.Canonical) :
    (s.issueRegs i n bad reads f).Canonical := by
  unfold State.issueRegs
  refine State.issue_canonical h (fun s1 hs => ?_)
  simp [hs]

@[simp] theorem State.stallAt_canonical (s : State) (c : CoreId) (w : Wait) : (s.stallAt c w).Canonical ↔ s.Canonical := by
  simp [State.stallAt]

/-! Of Sys2Proof/Machine/Marks.lean. -/

@[simp] theorem State.markParity_canonical (s : State) (p : ParcelId) (n : BitVec 10) : (s.markParity p n).Canonical ↔ s.Canonical := by
  simp [State.markParity]

@[simp] theorem State.freeze_canonical (s : State) (p : ParcelId) (n : BitVec 10) : (s.freeze p n).Canonical ↔ s.Canonical := by
  simp [State.freeze]

@[simp] theorem State.putMark_canonical {s : State} {p : ParcelId} {n : BitVec 10} {w : Word} (h : s.Canonical) : (s.putMark p n w).Canonical :=
  Mem.putBytes_wf h

@[simp] theorem State.sendResponseFrom_canonical (s : State) (via : Option Port) (p : Port) (m : MemMsg) :
    (s.sendResponseFrom via p m).Canonical ↔ s.Canonical := by
  unfold State.sendResponseFrom
  split <;> simp

@[simp] theorem State.sendResponse_canonical (s : State) (p : Port) (m : MemMsg) : (s.sendResponse p m).Canonical ↔ s.Canonical := by
  simp [State.sendResponse]

@[simp] theorem State.answer_canonical (s : State) (src : RemoteSrc) (r : Response) : (s.answer src r).Canonical ↔ s.Canonical := by
  unfold State.answer
  split <;> simp

@[simp] theorem State.sleepCheck_canonical (s : State) (c : CoreId) : (s.sleepCheck c).Canonical ↔ s.Canonical := by
  unfold State.sleepCheck
  split <;> simp

@[simp] theorem State.noteLand_canonical (s : State) (p : ParcelId) : (s.noteLand p).Canonical ↔ s.Canonical := by
  unfold State.noteLand
  refine State.foldl_canonical_iff (fun s1 x => ?_) _ _
  simp

@[simp] theorem State.reclaim_canonical (s : State) (t : Tract) : (s.reclaim t).Canonical ↔ s.Canonical := by
  simp [State.reclaim]

@[simp] theorem State.releaseWaiters_canonical (s : State) (p : ParcelId) (n : BitVec 10) : (s.releaseWaiters p n).Canonical ↔ s.Canonical := by
  unfold State.releaseWaiters
  extract_lets w bar s1 out s2 s3
  have hs1 : s1.Canonical ↔ s.Canonical := by
    unfold s1
    refine State.foldl_canonical_iff (fun s4 x => ?_) _ _
    dsimp only
    split <;> simp
  have hs2 : s2.Canonical ↔ s.Canonical := by simp [s2, hs1]
  have hs3 : s3.Canonical ↔ s.Canonical := by
    unfold s3
    refine (State.foldl_canonical_iff (fun s4 x => ?_) _ _).trans ?_
    · simp
    · exact hs2
  simp [hs3]

@[simp] theorem State.markUpdate_canonical {s : State} {p : ParcelId} {n : BitVec 10} {f : Word → Word} (h : s.Canonical) :
    (s.markUpdate p n f).Canonical := by
  simp [State.markUpdate, h]

@[simp] theorem State.typeError_canonical (s : State) (p : ParcelId) : (s.typeError p).Canonical ↔ s.Canonical := by
  simp [State.typeError]

@[simp] theorem State.markAdd_canonical {s : State} {p : ParcelId} {n : BitVec 10} {v : Word} (h : s.Canonical) : (s.markAdd p n v).Canonical := by
  simp [State.markAdd, h]

@[simp] theorem State.barRelease_canonical {s : State} {p : ParcelId} {n : BitVec 10} {parts fuel : Nat} (h : s.Canonical) :
    (s.barRelease p n parts fuel).1.Canonical := by
  induction fuel generalizing s with
  | zero => exact h
  | succ fuel ih =>
    unfold State.barRelease
    extract_lets w s1
    split
    · exact ih (by simp [s1, h])
    · exact h

@[simp] theorem State.arrivalCounted_canonical (s : State) (p : ParcelId) (h : HeldArrival) : (s.arrivalCounted p h).Canonical ↔ s.Canonical := by
  unfold State.arrivalCounted
  extract_lets w
  split <;> simp

@[simp] theorem State.arrivalRefused_canonical (s : State) (p : ParcelId) (h : HeldArrival) : (s.arrivalRefused p h).Canonical ↔ s.Canonical := by
  unfold State.arrivalRefused
  split <;> simp

@[simp] theorem State.barSettle_canonical {s : State} {p : ParcelId} {n : BitVec 10} {parts fuel : Nat} (h : s.Canonical) :
    (s.barSettle p n parts fuel).Canonical := by
  induction fuel generalizing s with
  | zero => exact h
  | succ fuel ih =>
    unfold State.barSettle
    extract_lets s1
    have hs1 : s1.Canonical := State.barRelease_canonical h
    split
    · exact hs1
    · split
      · exact ih (by simp [hs1])
      · exact ih (by simp [hs1])
      · exact hs1

@[simp] theorem State.arrive_canonical {s : State} {p : ParcelId} {h : HeldArrival} (hs : s.Canonical) : (s.arrive p h).Canonical := by
  unfold State.arrive
  extract_lets s1
  have hs1 : s1.Canonical := by simp [s1, hs]
  split
  · simp [hs]
  · split
    · simp [hs]
    · split
      · simp [hs]
      · split <;> simp [hs1]
      · simp [hs]

@[simp] theorem State.mbarAct_canonical {s : State} {c : CoreId} {n : BitVec 10} {opd : Word} {nd : Needs} (h : s.Canonical) :
    (s.mbarAct c n opd nd).Canonical := by
  simp [State.mbarAct, h]

@[simp] theorem State.settleRels_canonical {s : State} {c : CoreId} {rs : List HeldRel} (h : s.Canonical) : (s.settleRels c rs).Canonical := by
  induction rs generalizing s with
  | nil => exact h
  | cons r rs ih => exact ih (by simp [h])

@[simp] theorem State.settle_canonical {s : State} {c : CoreId} (h : s.Canonical) : (s.settle c).Canonical := by
  unfold State.settle
  extract_lets s1
  have hs1 : s1.Canonical := by simp [s1, h]
  split <;> simp [hs1]

/-! Of Sys2Proof/Machine/Agent.lean. -/

@[simp] theorem State.staleLines_canonical (s : State) (key n : Nat) : (s.staleLines key n).Canonical ↔ s.Canonical := by
  unfold State.staleLines
  split <;> simp

@[simp] theorem State.replicaRecord_canonical (s : State) (t : Tract) (key : Nat) : (s.replicaRecord t key).Canonical ↔ s.Canonical := by
  simp [State.replicaRecord]

@[simp] theorem State.haProtect_canonical (s : State) (t : Tract) (key : Nat) : (s.haProtect t key).Canonical ↔ s.Canonical := by
  simp [State.haProtect]

@[simp] theorem State.setEntry_canonical (s : State) (t : Tract) (gen : Nat) (f : RaEntry → RaEntry) :
    (s.setEntry t gen f).Canonical ↔ s.Canonical := by
  simp [State.setEntry]

@[simp] theorem State.sendRouted_canonical (s : State) (m : MemMsg) : (s.sendRouted m).Canonical ↔ s.Canonical := by
  unfold State.sendRouted
  split
  · split <;> simp
  · exact Iff.rfl

@[simp] theorem State.raSendData_canonical (s : State) (t : Tract) (e : RaEntry) : (s.raSendData t e).Canonical ↔ s.Canonical := by
  unfold State.raSendData
  split
  · extract_lets lines ways ports s1
    have hs1 : s1.Canonical ↔ s.Canonical := by simp [s1]
    split <;> simp [hs1]
  · dsimp only
    split
    · simp
    · split
      · simp
      · refine State.foldl_canonical_iff (fun s1 x => ?_) _ _
        simp

@[simp] theorem State.raSend_canonical (s : State) (t : Tract) (e : RaEntry) : (s.raSend t e).Canonical ↔ s.Canonical := by
  unfold State.raSend
  extract_lets done writes
  split
  · simp
  · split
    · simp [done]
    · split
      · simp [done]
      · split <;> simp [done]

@[simp] theorem State.raPump_canonical (s : State) (t : Tract) : (s.raPump t).Canonical ↔ s.Canonical := by
  unfold State.raPump
  refine State.foldl_canonical_iff (fun s1 x => ?_) _ _
  split <;> simp

@[simp] theorem State.raIssue_canonical (s : State) (t : Tract) (src : RaSrc) (cls addr : Nat) (op : FabOp) (posted : Bool) (nd : Needs) :
    (s.raIssue t src cls addr op posted nd).1.Canonical ↔ s.Canonical := by
  simp [State.raIssue]

@[simp] theorem State.raFinish_canonical (s : State) (t : Tract) (gen status : Nat) : (s.raFinish t gen status).Canonical ↔ s.Canonical := by
  simp [State.raFinish]

@[simp] theorem State.homeCount_canonical (s : State) (t : Tract) : (s.homeCount t).Canonical ↔ s.Canonical := by
  simp [State.homeCount]

@[simp] theorem State.homeTake_canonical (s : State) (t : Tract) (gen : Nat) : (s.homeTake t gen).Canonical ↔ s.Canonical := by
  unfold State.homeTake
  split
  · exact Iff.rfl
  · split <;> simp

@[simp] theorem State.giveCredit_canonical (s : State) (p : Port) (m : MemMsg) : (s.giveCredit p m).Canonical ↔ s.Canonical := by
  simp [State.giveCredit]

@[simp] theorem State.leaveInbox_canonical (s : State) (ms : List InReq) : (s.leaveInbox ms).Canonical ↔ s.Canonical := by
  unfold State.leaveInbox
  refine State.foldl_canonical_iff (fun s1 x => ?_) _ _
  simp

@[simp] theorem State.applyComb_canonical {s : State} {t : Tract} {c : CombEntry} (h : s.Canonical) : (s.applyComb t c).Canonical := by
  unfold State.applyComb
  extract_lets s1 key n s2 s3
  have hs1 : s1.Canonical := by simp [s1, h]
  have hs2 : s2.Canonical := by simp [s2, hs1]
  have hs3 : s3.Canonical := by simp [s3, hs2]
  refine State.foldl_canonical (fun s4 x hs => ?_) ?_
  · simp [hs]
  · exact hs3

@[simp] theorem State.closeLine_canonical {s : State} {t : Tract} {addr : Nat} {keep : CombEntry → Bool} (h : s.Canonical) :
    (s.closeLine t addr keep).Canonical := by
  unfold State.closeLine
  refine State.foldl_canonical (fun s1 x hs => ?_) ?_
  · simp [hs]
  · exact h

@[simp] theorem State.closeRun_canonical {s : State} {key n : Nat} (h : s.Canonical) : (s.closeRun key n).Canonical := by
  unfold State.closeRun
  split
  · extract_lets t
    refine State.foldl_canonical (fun s1 x hs => ?_) ?_
    · simp [hs]
    · exact h
  · exact h

@[simp] theorem State.touchVia_canonical {s : State} {t : Tract} {key n : Nat} (h : s.Canonical) : (s.touchVia t key n).Canonical := by
  unfold State.touchVia
  split
  · simp [h]
  · refine State.foldl_canonical (fun s1 x hs => ?_) ?_
    · split <;> simp [hs]
    · exact h

@[simp] theorem State.sendStores_canonical (s : State) (t : Tract) (e : RaEntry) (ga : Nat) (bs : List (Byte × Bool)) :
    (s.sendStores t e ga bs).Canonical ↔ s.Canonical := by
  unfold State.sendStores
  refine State.foldl_canonical_iff (fun s1 x => ?_) _ _
  simp

@[simp] theorem State.postedRecord_canonical (s : State) (t : Tract) (src : Option CoreId) (addr status : Nat) :
    (s.postedRecord t src addr status).Canonical ↔ s.Canonical := by
  simp [State.postedRecord]

@[simp] theorem State.coreIssue_canonical (s : State) (c : CoreId) (addr : Nat) (op : FabOp) (posted : Bool) :
    (s.coreIssue c addr op posted).1.Canonical ↔ s.Canonical := by
  simp [State.coreIssue]

/-! Of Sys2Proof/Machine/Operands.lean. -/

@[simp] theorem State.sign_canonical (s : State) (c : CoreId) (addr : Nat) (bs : List Byte) : (s.sign c addr bs).Canonical ↔ s.Canonical := by
  simp [State.sign]

/-! Of Sys2Proof/Machine/MarkIns.lean. -/

@[simp] theorem State.remoteMark_canonical {s : State} {c : CoreId} {addr : Nat} {op : MarkOp} {posted : Bool} {next : Nat → Core → Core}
    (h : s.Canonical) :
    (s.remoteMark c addr op posted next).Canonical := by
  unfold State.remoteMark
  split
  · simp [h]
  · refine State.orGangFault_canonical h (fun s1 hs => ?_)
    simp [hs]

@[simp] theorem State.markAddAct_canonical {s : State} {c : CoreId} {f : FmtK} {sub : Bool} (h : s.Canonical) :
    (s.markAddAct c f sub).Canonical := by
  unfold State.markAddAct
  extract_lets k v
  split
  · simp [h]
  · split
    · simp [h]
    · refine State.orGangFault_canonical h (fun s1 hs => ?_)
      simp [hs]

@[simp] theorem execMadd_canonical {i : Issue} {f : FmtK} {s : State} (h : s.Canonical) : Result.Canonical (execMadd i f s) := by
  unfold execMadd
  refine State.asSpelled_canonical h ?_
  rw [Result.canonical_next]
  refine State.issue_canonical h (fun s1 hs => ?_)
  simp [hs]

@[simp] theorem execMsub_canonical {i : Issue} {f : FmtK} {s : State} (h : s.Canonical) : Result.Canonical (execMsub i f s) := by
  unfold execMsub
  refine State.asSpelled_canonical h ?_
  rw [Result.canonical_next]
  refine State.issue_canonical h (fun s1 hs => ?_)
  simp [hs]

@[simp] theorem State.mwaitAct_canonical (s : State) (c : CoreId) (f : FmtK) : (s.mwaitAct c f).Canonical ↔ s.Canonical := by
  unfold State.mwaitAct
  extract_lets k p thr addr
  split <;> split <;> simp

@[simp] theorem execMwait_canonical {i : Issue} {f : FmtK} {s : State} (h : s.Canonical) : Result.Canonical (execMwait i f s) := by
  unfold execMwait
  refine State.asSpelled_canonical h ?_
  rw [Result.canonical_next]
  refine State.issue_canonical h (fun s1 hs => ?_)
  simp [hs]

@[simp] theorem State.mbarIssue_canonical {s : State} {c : CoreId} {f : FmtK} (h : s.Canonical) : (s.mbarIssue c f).Canonical := by
  unfold State.mbarIssue
  extract_lets k opd tag addr op
  split
  · simp [h]
  · split
    · simp [h]
    · split
      · simp [h]
      · refine State.orGangFault_canonical h (fun s1 hs => ?_)
        simp [hs]

@[simp] theorem execMbar_canonical {i : Issue} {f : FmtK} {s : State} (h : s.Canonical) : Result.Canonical (execMbar i f s) := by
  unfold execMbar
  refine State.asSpelled_canonical h ?_
  rw [Result.canonical_next]
  refine State.issue_canonical h (fun s1 hs => ?_)
  simp [hs]

/-! Of Sys2Proof/Machine/ArrayView.lean. -/

@[simp] theorem State.arrFault_canonical (s : State) (c : CoreId) (f : ArrFault) : (s.arrFault c f).Canonical ↔ s.Canonical := by
  simp [State.arrFault]

@[simp] theorem State.arrEnqueue_canonical (s : State) (c : CoreId) (op : ArrOp) (n : Nat) (v : ArrView) (f : Core → Core) :
    (s.arrEnqueue c op n v f).Canonical ↔ s.Canonical := by
  simp [State.arrEnqueue]

theorem State.orUnconfigured_canonical {s : State} {c : CoreId} {act : ArrCfg → ArrView → State → State} (h : s.Canonical)
    (hact : ∀ x y t, t.Canonical → (act x y t).Canonical) :
    (s.orUnconfigured c act).Canonical := by
  unfold State.orUnconfigured
  split
  · simp [h]
  · refine State.orGangFault_canonical h (fun s1 hs => ?_)
    simp [hact, hs]

theorem State.orAbsent_canonical {s : State} {c : CoreId} {g : ArrCfg} {i : Fin 4} {act : Nat → Nat → State → State} (h : s.Canonical)
    (hact : ∀ x y t, t.Canonical → (act x y t).Canonical) :
    (s.orAbsent c g i act).Canonical := by
  unfold State.orAbsent
  split <;> simp [h, hact]

@[simp] theorem execAmode_canonical {i : Issue} {f : FmtAmode} {s : State} (h : s.Canonical) : Result.Canonical (execAmode i f s) := by
  unfold execAmode
  extract_lets g old
  refine State.asSpelled_canonical h ?_
  rw [Result.canonical_next]
  refine State.issue_canonical h (fun s1 hs => ?_)
  refine State.orGangFault_canonical hs (fun s2 hs1 => ?_)
  simp [hs1]

@[simp] theorem State.awloadAct_canonical {s : State} {c : CoreId} {f : FmtArr} {ext : Word} (h : s.Canonical) :
    (s.awloadAct c f ext).Canonical := by
  unfold State.awloadAct
  extract_lets i turn q
  refine State.orUnconfigured_canonical h (fun x y s1 hs => ?_)
  extract_lets kpos cs mx old
  refine State.orAbsent_canonical hs (fun x1 y1 s2 hs1 => ?_)
  simp [hs1]

@[simp] theorem execAwload_canonical {i : Issue} {f : FmtArr} {ext : Word} {s : State} (h : s.Canonical) :
    Result.Canonical (execAwload i f ext s) := by
  unfold execAwload
  refine State.asSpelled_canonical h ?_
  rw [Result.canonical_next]
  refine State.issue_canonical h (fun s1 hs => ?_)
  simp [hs]

@[simp] theorem State.astreamAct_canonical {s : State} {c : CoreId} {f : FmtArr} (h : s.Canonical) : (s.astreamAct c f).Canonical := by
  unfold State.astreamAct
  extract_lets i
  refine State.orUnconfigured_canonical h (fun x y s1 hs => ?_)
  extract_lets mx
  refine State.orAbsent_canonical hs (fun x1 y1 s2 hs1 => ?_)
  extract_lets k w1 m sb turn reuse rs2
  split
  · simp [hs1]
  · split
    · simp [hs1]
    · split
      · simp [hs1]
      · split
        · simp [hs1]
        · split <;> simp [hs1]

@[simp] theorem execAstream_canonical {i : Issue} {f : FmtArr} {s : State} (h : s.Canonical) : Result.Canonical (execAstream i f s) := by
  unfold execAstream
  refine State.asSpelled_canonical h ?_
  rw [Result.canonical_next]
  refine State.issue_canonical h (fun s1 hs => ?_)
  simp [hs]

@[simp] theorem State.adrainAct_canonical {s : State} {c : CoreId} {f : FmtArr} (h : s.Canonical) : (s.adrainAct c f).Canonical := by
  unfold State.adrainAct
  extract_lets i
  refine State.orUnconfigured_canonical h (fun x y s1 hs => ?_)
  extract_lets bottom
  refine State.orAbsent_canonical hs (fun x1 y1 s2 hs1 => ?_)
  simp [hs1]

@[simp] theorem execAdrain_canonical {i : Issue} {f : FmtArr} {s : State} (h : s.Canonical) : Result.Canonical (execAdrain i f s) := by
  unfold execAdrain
  refine State.asSpelled_canonical h ?_
  rw [Result.canonical_next]
  refine State.issue_canonical h (fun s1 hs => ?_)
  simp [hs]

@[simp] theorem State.aclearAct_canonical {s : State} {c : CoreId} {f : FmtAclear} (h : s.Canonical) : (s.aclearAct c f).Canonical := by
  unfold State.aclearAct
  extract_lets cnt
  refine State.orUnconfigured_canonical h (fun x y s1 hs => ?_)
  refine State.orAbsent_canonical hs (fun x1 y1 s2 hs1 => ?_)
  simp [hs1]

@[simp] theorem execAclear_canonical {i : Issue} {f : FmtAclear} {s : State} (h : s.Canonical) : Result.Canonical (execAclear i f s) := by
  unfold execAclear
  refine State.asSpelled_canonical h ?_
  rw [Result.canonical_next]
  refine State.issue_canonical h (fun s1 hs => ?_)
  simp [hs]

@[simp] theorem execAstat_canonical {i : Issue} {f : FmtAstat} {s : State} (h : s.Canonical) : Result.Canonical (execAstat i f s) := by
  unfold execAstat
  refine State.asSpelled_canonical h ?_
  rw [Result.canonical_next]
  refine State.issue_canonical h (fun s1 hs => ?_)
  refine State.orUnconfigured_canonical hs (fun x y s2 hs1 => ?_)
  simp [hs1]

/-! Of Sys2Proof/Machine/ArrayRun.lean. -/

@[simp] theorem State.arrFlags_canonical (s : State) (c : CoreId) (i : Fin 4) (fl : FlagSet) : (s.arrFlags c i fl).Canonical ↔ s.Canonical := by
  simp [State.arrFlags]

@[simp] theorem State.arrPoison_canonical (s : State) (c : CoreId) (i : Fin 4) (mask : Nat) : (s.arrPoison c i mask).Canonical ↔ s.Canonical := by
  simp [State.arrPoison]

@[simp] theorem State.touchRegions_canonical {s : State} {c : CoreId} {rs : List Region} (h : s.Canonical) : (s.touchRegions c rs).Canonical := by
  unfold State.touchRegions
  refine State.foldl_canonical (fun s1 x hs => ?_) ?_
  · simp [hs]
  · exact h

@[simp] theorem State.runAwload_canonical {s : State} {c : CoreId} {g : ArrCfg} {i : Fin 4} {src : Source} {q : WSeqShape} (h : s.Canonical) :
    (s.runAwload c g i src q).Canonical := by
  simp [State.runAwload, h]

@[simp] theorem State.runAstream_canonical {s : State} {ms : List CoreId} {g : ArrCfg} {i : Fin 4} {m sb : Nat} {reuse : Bool} {nch : Nat}
    (h : s.Canonical) :
    (s.runAstream ms g i m sb reuse nch).Canonical := by
  unfold State.runAstream
  extract_lets gz west bottom use kc refs weights refs1 first rows s1
  have hs1 : s1.Canonical := by
    unfold s1
    refine State.foldl_canonical (fun s2 x hs => ?_) ?_
    · split <;> simp [hs]
    · exact h
  split
  · extract_lets s2
    have hs2 : s2.Canonical := by
      unfold s2
      refine State.foldl_canonical (fun s3 x hs => ?_) ?_
      · split <;> simp [hs]
      · exact hs1
    refine State.foldl_canonical (fun s3 x hs => ?_) ?_
    · simp [hs]
    · exact hs2

@[simp] theorem State.writeDrainRow_canonical {s : State} {c : CoreId} {bits off : Nat} {row : DrainRow} (h : s.Canonical) :
    (s.writeDrainRow c bits off row).Canonical := by
  unfold State.writeDrainRow
  extract_lets v s1
  have hs1 : s1.Canonical := by simp [s1, h]
  refine State.foldl_canonical (fun s2 x hs => ?_) ?_
  · simp [hs]
  · exact hs1

@[simp] theorem State.runAdrain_canonical {s : State} {bottom : List CoreId} {g : ArrCfg} {i : Fin 4} (h : s.Canonical) :
    (s.runAdrain bottom g i).Canonical := by
  unfold State.runAdrain
  extract_lets opOf
  split
  · extract_lets s1 elems whole
    have hs1 : s1.Canonical := by
      unfold s1
      refine State.foldl_canonical (fun s2 x hs => ?_) ?_
      · simp [hs]
      · exact h
    refine State.foldl_canonical (fun s2 x hs => ?_) ?_
    · extract_lets own
      split
      · extract_lets s3
        have hs3 : s3.Canonical := by simp [s3, hs]
        split
        · extract_lets s4 s5 s6 s7
          have hs4 : s4.Canonical := by
            unfold s4
            refine State.foldl_canonical (fun s8 x1 hs2 => ?_) ?_
            · simp [hs2]
            · exact hs3
          have hs5 : s5.Canonical := by
            unfold s5
            refine State.foldl_canonical (fun s8 x1 hs2 => ?_) ?_
            · simp [hs2]
            · exact hs4
          have hs6 : s6.Canonical := by simp [s6, hs5]
          have hs7 : s7.Canonical := by simp [s7, hs6]
          simp [hs7]
    · exact hs1

@[simp] theorem State.runArr_canonical {s : State} {ms : List CoreId} {g : ArrCfg} {op : ArrOp} (h : s.Canonical) :
    (s.runArr ms g op).Canonical := by
  unfold State.runArr
  split
  · dsimp only
    refine State.foldl_canonical (fun s1 x hs => ?_) ?_
    · split
      · split <;> simp [hs]
      · exact hs
    · exact h
  · dsimp only
    refine State.foldl_canonical (fun s1 x hs => ?_) ?_
    · split
      · split <;> simp [hs]
      · exact hs
    · exact h
  · simp [h]
  · simp [h]
  · dsimp only
    refine State.foldl_canonical (fun s1 x hs => ?_) ?_
    · split <;> simp [hs]
    · exact h
  · dsimp only
    refine State.foldl_canonical (fun s1 x hs => ?_) ?_
    · split
      · split <;> simp [hs]
      · exact hs
    · exact h

@[simp] theorem execArrayEntryComplete_canonical {c : CoreId} {s : State} (h : s.Canonical) : Result.Canonical (execArrayEntryComplete c s) := by
  unfold execArrayEntryComplete
  extract_lets formed
  rw [Result.canonical_next]
  split
  · exact h
  · split
    · exact h
    · extract_lets ms heads faults g s1 s2
      have hs1 : s1.Canonical := by simp [s1, h]
      have hs2 : s2.Canonical := by
        unfold s2
        refine State.foldl_canonical (fun s3 x hs => ?_) ?_
        · simp [hs]
        · exact hs1
      split
      · exact h
      · split
        · rw [State.raPump_canonical]
          refine State.foldl_canonical (fun s3 x hs => ?_) ?_
          · simp [hs]
          · exact h
        · split
          · rw [State.raPump_canonical]
            refine State.foldl_canonical (fun s3 x hs => ?_) ?_
            · simp [hs]
            · exact hs2
          · simp [h]

/-! Of Sys2Proof/Machine/Memory.lean. -/

@[simp] theorem State.loadAct_canonical {s : State} {c : CoreId} {space : BitVec 2} {off size n : Nat} {parts : List LoadPart} (h : s.Canonical) :
    (s.loadAct c space off size n parts).Canonical := by
  unfold State.loadAct
  extract_lets pc addr outstanding key data key1 r
  split
  · simp [h]
  · split <;> simp [outstanding, h]

theorem loadM_canonical {i : Issue} {f : FmtM} {size : Nat} {bad : Bool} {parts : List LoadPart} {s : State} (h : s.Canonical) :
    Result.Canonical (loadM i f size bad parts s) := by
  unfold loadM
  rw [Result.canonical_next]
  refine State.issue_canonical h (fun s1 hs => ?_)
  simp [hs]

theorem loadG_canonical {i : Issue} {f : FmtM} {size : Nat} {sext : Bool} {s : State} (h : s.Canonical) :
    Result.Canonical (loadG i f size sext s) := by
  unfold loadG
  exact loadM_canonical h

@[simp] theorem execLdb_canonical {i : Issue} {f : FmtM} {s : State} (h : s.Canonical) : Result.Canonical (execLdb i f s) :=
  State.asSpelled_canonical h (loadG_canonical h)

@[simp] theorem execLdbs_canonical {i : Issue} {f : FmtM} {s : State} (h : s.Canonical) : Result.Canonical (execLdbs i f s) :=
  State.asSpelled_canonical h (loadG_canonical h)

@[simp] theorem execLdh_canonical {i : Issue} {f : FmtM} {s : State} (h : s.Canonical) : Result.Canonical (execLdh i f s) :=
  State.asSpelled_canonical h (loadG_canonical h)

@[simp] theorem execLdhs_canonical {i : Issue} {f : FmtM} {s : State} (h : s.Canonical) : Result.Canonical (execLdhs i f s) :=
  State.asSpelled_canonical h (loadG_canonical h)

@[simp] theorem execLdw_canonical {i : Issue} {f : FmtM} {s : State} (h : s.Canonical) : Result.Canonical (execLdw i f s) :=
  State.asSpelled_canonical h (loadG_canonical h)

@[simp] theorem execLda_canonical {i : Issue} {f : FmtM} {s : State} (h : s.Canonical) : Result.Canonical (execLda i f s) :=
  State.asSpelled_canonical h (loadM_canonical h)

@[simp] theorem execLdq_canonical {i : Issue} {f : FmtM} {s : State} (h : s.Canonical) : Result.Canonical (execLdq i f s) :=
  State.asSpelled_canonical h (loadM_canonical h)

@[simp] theorem State.storeAct_canonical {s : State} {c : CoreId} {space : BitVec 2} {off n : Nat} {data : List Byte} (h : s.Canonical) :
    (s.storeAct c space off n data).Canonical := by
  unfold State.storeAct
  extract_lets s1 key s2
  have hs1 : s1.Canonical := by simp [s1, h]
  have hs2 : s2.Canonical := by simp [s2, hs1]
  split
  · simp [h]
  · split <;> simp [h, hs2]

theorem storeM_canonical {i : Issue} {f : FmtM} {size : Nat} {bad : Bool} {reads : List CReg} {data : Core → Nat} {s : State} (h : s.Canonical) :
    Result.Canonical (storeM i f size bad reads data s) := by
  unfold storeM
  rw [Result.canonical_next]
  refine State.issue_canonical h (fun s1 hs => ?_)
  simp [hs]

theorem storeG_canonical {i : Issue} {f : FmtM} {size : Nat} {s : State} (h : s.Canonical) : Result.Canonical (storeG i f size s) := by
  unfold storeG
  exact storeM_canonical h

@[simp] theorem execStb_canonical {i : Issue} {f : FmtM} {s : State} (h : s.Canonical) : Result.Canonical (execStb i f s) :=
  State.asSpelled_canonical h (storeG_canonical h)

@[simp] theorem execSth_canonical {i : Issue} {f : FmtM} {s : State} (h : s.Canonical) : Result.Canonical (execSth i f s) :=
  State.asSpelled_canonical h (storeG_canonical h)

@[simp] theorem execStw_canonical {i : Issue} {f : FmtM} {s : State} (h : s.Canonical) : Result.Canonical (execStw i f s) :=
  State.asSpelled_canonical h (storeG_canonical h)

@[simp] theorem execSta_canonical {i : Issue} {f : FmtM} {s : State} (h : s.Canonical) : Result.Canonical (execSta i f s) :=
  State.asSpelled_canonical h (storeM_canonical h)

@[simp] theorem execStq_canonical {i : Issue} {f : FmtM} {s : State} (h : s.Canonical) : Result.Canonical (execStq i f s) :=
  State.asSpelled_canonical h (storeM_canonical h)

@[simp] theorem State.atomAct_canonical {s : State} {c : CoreId} {f : FmtA} {op n opd cmp : Nat} (h : s.Canonical) :
    (s.atomAct c f op n opd cmp).Canonical := by
  unfold State.atomAct
  extract_lets off size posted pc addr back key old bad s1
  have hs1 : s1.Canonical := by simp [s1, h]
  split
  · simp [h]
  · split <;> simp [back, h, hs1]

theorem atomic_canonical {i : Issue} {f : FmtA} {op : Nat} {s : State} (h : s.Canonical) : Result.Canonical (atomic i f op s) := by
  unfold atomic
  rw [Result.canonical_next]
  refine State.issue_canonical h (fun s1 hs => ?_)
  simp [hs]

@[simp] theorem execAtomAdd_canonical {i : Issue} {f : FmtA} {s : State} (h : s.Canonical) : Result.Canonical (execAtomAdd i f s) :=
  State.asSpelled_canonical h (atomic_canonical h)

@[simp] theorem execAtomOr_canonical {i : Issue} {f : FmtA} {s : State} (h : s.Canonical) : Result.Canonical (execAtomOr i f s) :=
  State.asSpelled_canonical h (atomic_canonical h)

@[simp] theorem execAtomAnd_canonical {i : Issue} {f : FmtA} {s : State} (h : s.Canonical) : Result.Canonical (execAtomAnd i f s) :=
  State.asSpelled_canonical h (atomic_canonical h)

@[simp] theorem execAtomXor_canonical {i : Issue} {f : FmtA} {s : State} (h : s.Canonical) : Result.Canonical (execAtomXor i f s) :=
  State.asSpelled_canonical h (atomic_canonical h)

@[simp] theorem execAtomMaxu_canonical {i : Issue} {f : FmtA} {s : State} (h : s.Canonical) : Result.Canonical (execAtomMaxu i f s) :=
  State.asSpelled_canonical h (atomic_canonical h)

@[simp] theorem execAtomMinu_canonical {i : Issue} {f : FmtA} {s : State} (h : s.Canonical) : Result.Canonical (execAtomMinu i f s) :=
  State.asSpelled_canonical h (atomic_canonical h)

@[simp] theorem execAtomMax_canonical {i : Issue} {f : FmtA} {s : State} (h : s.Canonical) : Result.Canonical (execAtomMax i f s) :=
  State.asSpelled_canonical h (atomic_canonical h)

@[simp] theorem execAtomMin_canonical {i : Issue} {f : FmtA} {s : State} (h : s.Canonical) : Result.Canonical (execAtomMin i f s) :=
  State.asSpelled_canonical h (atomic_canonical h)

@[simp] theorem execAtomXchg_canonical {i : Issue} {f : FmtA} {s : State} (h : s.Canonical) : Result.Canonical (execAtomXchg i f s) :=
  State.asSpelled_canonical h (atomic_canonical h)

@[simp] theorem execCas_canonical {i : Issue} {f : FmtA} {ext : Word} {s : State} (h : s.Canonical) : Result.Canonical (execCas i f ext s) := by
  unfold execCas
  extract_lets rc
  refine State.asSpelled_canonical h ?_
  rw [Result.canonical_next]
  refine State.issue_canonical h (fun s1 hs => ?_)
  simp [hs]

/-! Of Sys2Proof/Machine/Tiles.lean. -/

@[simp] theorem State.wakeSleepers_canonical (s : State) (p : ParcelId) : (s.wakeSleepers p).Canonical ↔ s.Canonical := by
  unfold State.wakeSleepers
  refine State.foldl_canonical_iff (fun s1 x => ?_) _ _
  simp

@[simp] theorem State.tileAppend_canonical (s : State) (p : ParcelId) (es : List TileEntry) : (s.tileAppend p es).Canonical ↔ s.Canonical := by
  simp [State.tileAppend]

@[simp] theorem State.tileParity_canonical (s : State) (p : ParcelId) : (s.tileParity p).Canonical ↔ s.Canonical := by
  simp [State.tileParity]

@[simp] theorem State.tileParities_canonical (s : State) (p : ParcelId) (n : Nat) : (s.tileParities p n).Canonical ↔ s.Canonical := by
  induction n generalizing s with
  | zero => exact Iff.rfl
  | succ n ih => exact (ih _).trans (by simp)

@[simp] theorem State.setHeld_canonical (s : State) (c : CoreId) (h : Held) : (s.setHeld c h).Canonical ↔ s.Canonical := by
  simp [State.setHeld]

@[simp] theorem State.auditTake_canonical (s : State) (c : CoreId) (d : BitVec 128) : (s.auditTake c d).1.Canonical ↔ s.Canonical := by
  unfold State.auditTake
  extract_lets p id e
  split
  · exact Iff.rfl
  · split
    · simp
    · split <;> simp

@[simp] theorem State.tileReturn_canonical (s : State) (c : CoreId) (gd : BitVec 5) (pd : BitVec 3) (h : Held) :
    (s.tileReturn c gd pd h).Canonical ↔ s.Canonical := by
  simp [State.tileReturn]

@[simp] theorem State.tileNone_canonical (s : State) (c : CoreId) (pd : BitVec 3) : (s.tileNone c pd).Canonical ↔ s.Canonical := by
  simp [State.tileNone]

theorem State.takeRetry_canonical {s t : State} {c : CoreId} {h : Held} (e : s.takeRetry c = some (h, t)) : t.Canonical ↔ s.Canonical := by
  unfold State.takeRetry at e
  extract_lets p at e
  split at e
  · cases e; simp
  · split at e
    · cases e; simp
    · cases e

@[simp] theorem State.takeOp_canonical (s : State) (c : CoreId) (gd : BitVec 5) (pd : BitVec 3) : (s.takeOp c gd pd).Canonical ↔ s.Canonical := by
  unfold State.takeOp
  split
  · rename_i t e
    simp [State.takeRetry_canonical e]
  · dsimp only
    split <;> simp

@[simp] theorem State.moveTail_canonical (s : State) (v : ParcelId) (h : Nat) : (s.moveTail v h).1.Canonical ↔ s.Canonical := by
  simp [State.moveTail]

@[simp] theorem State.stealOp_canonical (s : State) (c : CoreId) (gd : BitVec 5) (pd : BitVec 3) (dir : BitVec 2) (n : Nat) :
    (s.stealOp c gd pd dir n).Canonical ↔ s.Canonical := by
  induction n generalizing s dir with
  | zero => simp [State.stealOp]
  | succ n ih =>
    unfold State.stealOp
    dsimp only
    split
    · exact ih s _
    · split
      · exact ih s _
      · split <;> simp [ih]

theorem State.orPlotNone_canonical {s : State} {c : CoreId} {act : State → State} (h : s.Canonical) (hact : ∀ t, t.Canonical → (act t).Canonical) :
    (s.orPlotNone c act).Canonical := by
  simp [State.orPlotNone, h, hact]

@[simp] theorem execTake_canonical {i : Issue} {f : FmtT} {s : State} (h : s.Canonical) : Result.Canonical (execTake i f s) := by
  unfold execTake
  refine State.asSpelled_canonical h ?_
  rw [Result.canonical_next]
  refine State.issue_canonical h (fun s1 hs => ?_)
  refine State.orPlotNone_canonical hs (fun s2 hs1 => ?_)
  simp [hs1]

@[simp] theorem execSteal_canonical {i : Issue} {f : FmtT} {s : State} (h : s.Canonical) : Result.Canonical (execSteal i f s) := by
  unfold execSteal
  refine State.asSpelled_canonical h ?_
  rw [Result.canonical_next]
  refine State.issue_canonical h (fun s1 hs => ?_)
  refine State.orPlotNone_canonical hs (fun s2 hs1 => ?_)
  simp [hs1]

@[simp] theorem execTileListOperation_canonical {c : CoreId} {s : State} (h : s.Canonical) : Result.Canonical (execTileListOperation c s) := by
  unfold execTileListOperation
  rw [Result.canonical_next]
  split <;> simp [h]

@[simp] theorem State.doneMark_canonical (s : State) (c : CoreId) (d : BitVec 128) : (s.doneMark c d).Canonical ↔ s.Canonical := by
  unfold State.doneMark
  split
  · split <;> simp
  · exact Iff.rfl

@[simp] theorem State.auditDone_canonical (s : State) (c : CoreId) (e : AuditEntry) : (s.auditDone c e).Canonical ↔ s.Canonical := by
  unfold State.auditDone
  dsimp only
  split <;> simp

@[simp] theorem State.doneMatch_canonical (s : State) (c : CoreId) (h : Held) : (s.doneMatch c h).Canonical ↔ s.Canonical := by
  unfold State.doneMatch
  extract_lets p s1 s2
  have hs1 : s1.Canonical ↔ s.Canonical := by
    unfold s1
    split <;> simp
  have hs2 : s2.Canonical ↔ s.Canonical := by
    unfold s2
    split <;> simp [hs1]
  simp [hs2]

@[simp] theorem execDone_canonical {i : Issue} {f : FmtT} {s : State} (h : s.Canonical) : Result.Canonical (execDone i f s) := by
  unfold execDone
  extract_lets c
  refine State.asSpelled_canonical h ?_
  rw [Result.canonical_next]
  refine State.issue_canonical h (fun s1 hs => ?_)
  refine State.orPlotNone_canonical hs (fun s2 hs1 => ?_)
  refine State.orGangFault_canonical hs1 (fun s3 hs2 => ?_)
  extract_lets d s4
  have hs4 : s4.Canonical := by
    unfold s4
    split <;> simp [hs2]
  simp [hs4]

@[simp] theorem execTilePush_canonical {p : ParcelId} {s : State} (h : s.Canonical) : Result.Canonical (execTilePush p s) := by
  unfold execTilePush
  extract_lets cfg len
  rw [Result.canonical_next]
  split
  · exact h
  · split <;> simp [h]

/-! Of Sys2Proof/Machine/Control.lean. -/

@[simp] theorem State.sleepAct_canonical (s : State) (c : CoreId) (f : FmtZ) : (s.sleepAct c f).Canonical ↔ s.Canonical := by
  unfold State.sleepAct
  extract_lets k mask mark
  split
  · simp
  · split
    · simp
    · split <;> simp

@[simp] theorem execSleep_canonical {i : Issue} {f : FmtZ} {s : State} (h : s.Canonical) : Result.Canonical (execSleep i f s) := by
  unfold execSleep
  refine State.asSpelled_canonical h ?_
  rw [Result.canonical_next]
  refine State.issue_canonical h (fun s1 hs => ?_)
  simp [hs]

@[simp] theorem execHalt_canonical {i : Issue} {f : FmtZ} {s : State} (h : s.Canonical) : Result.Canonical (execHalt i f s) := by
  unfold execHalt
  refine State.asSpelled_canonical h ?_
  rw [Result.canonical_next]
  refine State.issue_canonical h (fun s1 hs => ?_)
  refine State.orGangFault_canonical hs (fun s2 hs1 => ?_)
  simp [hs1]

@[simp] theorem execTrap_canonical {i : Issue} {f : FmtZ} {s : State} (h : s.Canonical) : Result.Canonical (execTrap i f s) := by
  unfold execTrap
  refine State.asSpelled_canonical h ?_
  rw [Result.canonical_next]
  refine State.issue_canonical h (fun s1 hs => ?_)
  simp [hs]

@[simp] theorem execFence_canonical {i : Issue} {f : FmtZ} {s : State} (h : s.Canonical) : Result.Canonical (execFence i f s) := by
  unfold execFence
  extract_lets act
  refine State.asSpelled_canonical h ?_
  rw [Result.canonical_next]
  refine State.issue_canonical h (fun s1 hs => ?_)
  split
  · refine State.orGangFault_canonical hs (fun s2 hs1 => ?_)
    simp [act, hs1]
  · simp [act, hs]

@[simp] theorem execHaltComplete_canonical {c : CoreId} {s : State} (h : s.Canonical) : Result.Canonical (execHaltComplete c s) := by
  unfold execHaltComplete
  rw [Result.canonical_next]
  split <;> simp [h]

/-! Of Sys2Proof/Machine/CopyUnit.lean. -/

@[simp] theorem State.copyEnd_canonical (s : State) (c : CoreId) (space : BitVec 2) (addr len : Nat) (write : Bool) :
    (s.copyEnd c space addr len write).1.Canonical ↔ s.Canonical := by
  unfold State.copyEnd
  split <;> simp

@[simp] theorem State.copyAct_canonical (s : State) (c : CoreId) (f : FmtCpy) (mark : Option (Bool × BitVec 10)) (n : Nat) :
    (s.copyAct c f mark n).Canonical ↔ s.Canonical := by
  unfold State.copyAct
  extract_lets k src dst len after
  split
  · simp
  · split <;> simp

@[simp] theorem execCpy_canonical {i : Issue} {f : FmtCpy} {s : State} (h : s.Canonical) : Result.Canonical (execCpy i f s) := by
  unfold execCpy
  refine State.asSpelled_canonical h ?_
  rw [Result.canonical_next]
  refine State.issue_canonical h (fun s1 hs => ?_)
  simp [hs]

@[simp] theorem execCpym_canonical {i : Issue} {f : FmtCpy} {ext : Word} {s : State} (h : s.Canonical) : Result.Canonical (execCpym i f ext s) := by
  unfold execCpym
  extract_lets remote
  refine State.asSpelled_canonical h ?_
  rw [Result.canonical_next]
  refine State.issue_canonical h (fun s1 hs => ?_)
  simp [hs]

@[simp] theorem execCset_canonical {i : Issue} {f : FmtN} {s : State} (h : s.Canonical) : Result.Canonical (execCset i f s) := by
  unfold execCset
  refine State.asSpelled_canonical h ?_
  simp [h]

@[simp] theorem execCget_canonical {i : Issue} {f : FmtN} {s : State} (h : s.Canonical) : Result.Canonical (execCget i f s) := by
  unfold execCget
  refine State.asSpelled_canonical h ?_
  simp [h]

@[simp] theorem execCwait_canonical {i : Issue} {f : FmtN} {s : State} (h : s.Canonical) : Result.Canonical (execCwait i f s) := by
  unfold execCwait
  refine State.asSpelled_canonical h ?_
  rw [Result.canonical_next]
  refine State.issue_canonical h (fun s1 hs => ?_)
  simp [hs]

@[simp] theorem State.copyUnits_canonical {s : State} {d : CopyData} {i : Nat} {l : List (Nat × List Byte)} (h : s.Canonical) :
    (s.copyUnits d i l).Canonical := by
  induction l generalizing s i with
  | nil => exact h
  | cons q l ih =>
    refine ih ?_
    split <;> simp [h]

@[simp] theorem State.copyWrite_canonical {s : State} {c : CoreId} {j : CopyJob} {d : CopyData} (h : s.Canonical) :
    (s.copyWrite c j d).1.Canonical := by
  unfold State.copyWrite
  split
  · dsimp only
    split <;> simp [h]
  · split
    · exact h
    · split
      · split
        · dsimp only
          split
          · simp [h]
          · split
            · exact h
            · split <;> simp [h]
        · dsimp only
          split
          · exact h
          · split
            · exact h
            · split <;> simp [h]
      · extract_lets own
        split <;> simp [h]

@[simp] theorem State.copyEndDone_canonical (s : State) (c : CoreId) (gen : Option Nat) (addr status : Nat) :
    (s.copyEndDone c gen addr status).Canonical ↔ s.Canonical := by
  unfold State.copyEndDone
  extract_lets s1
  have hs1 : s1.Canonical ↔ s.Canonical := by simp [s1]
  split <;> simp [hs1]

@[simp] theorem State.copyMark_canonical {s : State} {c : CoreId} {j : CopyJob} (h : s.Canonical) : (s.copyMark c j).1.Canonical := by
  unfold State.copyMark
  split
  · exact h
  · simp [h]
  · extract_lets addr
    split
    · split <;> simp [h]
    · simp [h]

@[simp] theorem State.setStage_canonical (s : State) (c : CoreId) (n : Nat) (g : CopyStage) : (s.setStage c n g).Canonical ↔ s.Canonical := by
  simp [State.setStage]

@[simp] theorem State.copyCount_canonical {s : State} {c : CoreId} {n : Nat} {j : CopyJob} {err : Bool} (h : s.Canonical) :
    (s.copyCount c n j err).Canonical := by
  simp [State.copyCount, h]

@[simp] theorem State.copyEnds_canonical {s : State} {c : CoreId} {n : Nat} {j : CopyJob} {st : Nat} {err : Bool} (h : s.Canonical) :
    (s.copyEnds c n j st err).Canonical := by
  have hm : ((s.copyEndDone c j.genD j.dst st).copyMark c j).1.Canonical := State.copyMark_canonical (by simpa using h)
  unfold State.copyEnds
  split
  all_goals
    rename_i e
    rw [e] at hm
    simp [hm]

@[simp] theorem State.copyMove_canonical {s : State} {c : CoreId} {n : Nat} {j : CopyJob} {net : Option NetReply} (h : s.Canonical) :
    (s.copyMove c n j net).Canonical := by
  unfold State.copyMove
  extract_lets take close s1 d s2 s3
  have htake : ∀ (s : State) (g : Option Nat), s.Canonical → (take s g).Canonical := by
    intro s g hs
    cases g <;> simp [take, hs]
  have hclose : ∀ (s : State) (space addr : Nat), s.Canonical → (close s space addr).Canonical := by
    intro s space addr hs
    simp [close, hs]
  have hs1 : s1.Canonical := hclose _ _ _ (hclose _ _ _ (htake _ _ (htake _ _ h)))
  have hs2 : s2.Canonical := by simp [s2, hs1]
  have hs3 : s3.Canonical := by simp [s3, hs2]
  dsimp only
  split <;> simp [hs3]

@[simp] theorem execCopyLanding_canonical {c : CoreId} {n : Nat} {net : List NetReply} {s : State} (h : s.Canonical) :
    Result.Canonical (execCopyLanding c n net s) := by
  unfold execCopyLanding
  rw [Result.canonical_next]
  split
  · exact h
  · extract_lets srcAway waits
    split
    · simp [h]
    · split <;> simp [h]
    · simp [h]

/-! Of Sys2Proof/Machine/EngOps.lean. -/

@[simp] theorem State.engOne_canonical {s : State} {t : Tract} {g : Engine} {id : Nat} {write : Bool} {rs : List (Nat × Nat)} (h : s.Canonical) :
    (s.engOne t g id write rs).Canonical := by
  unfold State.engOne
  split
  · exact h
  · dsimp only
    refine State.foldl_canonical (fun s1 x hs => ?_) ?_
    · simp [hs]
    · simp [h]

@[simp] theorem State.engIssue_canonical {s : State} {t : Tract} {g : Engine} {id : Nat} {rs : List (Nat × Nat)} {write : Bool} (h : s.Canonical) :
    (s.engIssue t g id rs write).Canonical := by
  unfold State.engIssue
  refine State.foldl_canonical (fun s1 x hs => ?_) ?_
  · simp [hs]
  · exact h

@[simp] theorem State.engEnter_canonical {s : State} {t : Tract} {g : Engine} {id : Nat} {reads writes : List (Nat × Nat)} (h : s.Canonical) :
    (s.engEnter t g id reads writes).Canonical := by
  simp [State.engEnter, h]

@[simp] theorem State.engAnswered_canonical (s : State) (t : Tract) (g : Engine) (id : Nat) (write : Bool) (ga : Nat) (reply : Option NetReply) :
    (s.engAnswered t g id write ga reply).Canonical ↔ s.Canonical := by
  unfold State.engAnswered
  split
  · exact Iff.rfl
  · split <;> simp
  · exact Iff.rfl

@[simp] theorem State.engReplies_canonical (s : State) (t : Tract) (g : Engine) (id : Nat) (rs : List (Nat × Nat)) (net : List NetReply) :
    (s.engReplies t g id rs net).Canonical ↔ s.Canonical := by
  unfold State.engReplies
  refine State.foldl_canonical_iff (fun s1 x => ?_) _ _
  simp

@[simp] theorem State.engFinish_canonical (s : State) (t : Tract) (xs : List RaEntry) : (s.engFinish t xs).1.Canonical ↔ s.Canonical := by
  unfold State.engFinish
  dsimp only
  rw [State.raPump_canonical]
  refine State.foldl_canonical_iff (fun s1 x => ?_) _ _
  simp

@[simp] theorem State.engClose_canonical (s : State) (t : Tract) (g : Engine) (id : Nat) : (s.engClose t g id).1.Canonical ↔ s.Canonical := by
  simp [State.engClose]

/-! Of Sys2Proof/Machine/Queues.lean. -/

@[simp] theorem State.setQueue_canonical (s : State) (q : QueueId) (v : QueueState) : (s.setQueue q v).Canonical ↔ s.Canonical := by
  simp [State.setQueue]

@[simp] theorem State.modQueue_canonical (s : State) (q : QueueId) (f : QueueState → QueueState) : (s.modQueue q f).Canonical ↔ s.Canonical := by
  simp [State.modQueue]

@[simp] theorem State.hostWrite_canonical (s : State) (addr : Nat) (data : List Byte) : (s.hostWrite addr data).Canonical ↔ s.Canonical := by
  simp [State.hostWrite]

@[simp] theorem State.msix_canonical (s : State) (v : Nat) : (s.msix v).Canonical ↔ s.Canonical := by
  simp [State.msix]

@[simp] theorem State.chainFault_canonical (s : State) (q : QueueId) (cause slot third addr : Nat) :
    (s.chainFault q cause slot third addr).Canonical ↔ s.Canonical := by
  simp [State.chainFault]

@[simp] theorem State.putCpl_canonical (s : State) (q : QueueId) (rec_ : List Byte) (irq : Bool) :
    (s.putCpl q rec_ irq).Canonical ↔ s.Canonical := by
  simp [State.putCpl]

@[simp] theorem State.drainCpl_canonical (s : State) (q : QueueId) : (s.drainCpl q).Canonical ↔ s.Canonical := by
  unfold State.drainCpl
  extract_lets l
  refine State.foldl_canonical_iff (fun s1 x => ?_) _ _
  simp

@[simp] theorem State.stopQueue_canonical (s : State) (q : QueueId) (cause : Nat) (pt : QPoint) :
    (s.stopQueue q cause pt).Canonical ↔ s.Canonical := by
  simp [State.stopQueue]

@[simp] theorem State.stopAtHead_canonical (s : State) (q : QueueId) (e : QEntry) (cause : Nat) (barrier : Bool) :
    (s.stopAtHead q e cause barrier).Canonical ↔ s.Canonical := by
  simp [State.stopAtHead]

@[simp] theorem State.armHead_canonical (s : State) (q : QueueId) : (s.armHead q).Canonical ↔ s.Canonical := by
  unfold State.armHead
  split
  · exact Iff.rfl
  · split
    · exact Iff.rfl
    · split
      · simp
      · simp
      · split
        · exact Iff.rfl
        · split <;> simp

@[simp] theorem State.sigPump_canonical (s : State) (q : QueueId) : (s.sigPump q).Canonical ↔ s.Canonical := by
  unfold State.sigPump
  split <;> simp

@[simp] theorem execSequencerTurn_canonical {t : Tract} {s : State} (h : s.Canonical) : Result.Canonical (execSequencerTurn t s) := by
  unfold execSequencerTurn
  extract_lets s1 v
  have hs1 : s1.Canonical := by simp [s1, h]
  rw [Result.canonical_next]
  split <;> simp [hs1]

@[simp] theorem State.engineTouch_canonical {s : State} {ga n : Nat} (h : s.Canonical) : (s.engineTouch ga n).Canonical := by
  simp [State.engineTouch, h]

@[simp] theorem State.fetchRead_canonical {s : State} {q : QueueId} {addr : Nat} (h : s.Canonical) : (s.fetchRead q addr).Canonical := by
  simp [State.fetchRead, h]

@[simp] theorem State.fetchEntry_canonical {s : State} {q : QueueId} {addr : Nat} {nsp : Bool} {pos : Nat} {reply : HostReply} (h : s.Canonical) :
    (s.fetchEntry q addr nsp pos reply).Canonical := by
  simp [State.fetchEntry, h]

@[simp] theorem execChainEntryFetch_canonical {q : QueueId} {slot entry : HostReply} {s : State} (h : s.Canonical) :
    Result.Canonical (execChainEntryFetch q slot entry s) := by
  unfold execChainEntryFetch
  extract_lets sq s1 v pt s2
  have hs1 : s1.Canonical := by simp [s1, h]
  have hs2 : s2.Canonical := by
    unfold s2
    split
    · simp [hs1]
    · split <;> simp [hs1]
  simp [h, hs2]

@[simp] theorem State.qTailPut_canonical (s : State) (q : QueueId) (tail : Nat) : (s.qTailPut q tail).Canonical ↔ s.Canonical := by
  simp [State.qTailPut]

@[simp] theorem execDoorbell_canonical {q : QueueId} {tail : Word} {s : State} (h : s.Canonical) : Result.Canonical (execDoorbell q tail s) := by
  unfold execDoorbell
  rw [Result.canonical_next]
  refine State.atReg_canonical h (fun s1 hs => ?_)
  simp [hs]

@[simp] theorem State.qRestartPut_canonical (s : State) (q : QueueId) (v size : Nat) : (s.qRestartPut q v size).Canonical ↔ s.Canonical := by
  simp [State.qRestartPut]

@[simp] theorem execQRestart_canonical {q : QueueId} {action : BitVec 2} {s : State} (h : s.Canonical) :
    Result.Canonical (execQRestart q action s) := by
  unfold execQRestart
  rw [Result.canonical_next]
  refine State.atReg_canonical h (fun s1 hs => ?_)
  simp [hs]

@[simp] theorem execCplFull_canonical {q : QueueId} {s : State} (h : s.Canonical) : Result.Canonical (execCplFull q s) := by
  simp [execCplFull, h]

@[simp] theorem execEngMarkWait_canonical {q : QueueId} {s : State} (h : s.Canonical) : Result.Canonical (execEngMarkWait q s) := by
  unfold execEngMarkWait
  rw [Result.canonical_next]
  split <;> simp [h]

@[simp] theorem State.leaveEntry_canonical (s : State) (q : QueueId) (e : QEntry) (f : QEntry → QEntry) :
    (s.leaveEntry q e f).Canonical ↔ s.Canonical := by
  simp [State.leaveEntry]

@[simp] theorem State.startEntry_canonical (s : State) (q : QueueId) (e : QEntry) : (s.startEntry q e).Canonical ↔ s.Canonical := by
  simp [State.startEntry]

@[simp] theorem State.startPassed_canonical (s : State) (q : QueueId) (e : QEntry) : (s.startPassed q e).Canonical ↔ s.Canonical := by
  simp [State.startPassed]

@[simp] theorem State.setWork_canonical (s : State) (q : QueueId) (id : Nat) (w : EngWork) : (s.setWork q id w).Canonical ↔ s.Canonical := by
  simp [State.setWork]

@[simp] theorem State.signal_canonical {s : State} {q : QueueId} {e : QEntry} (h : s.Canonical) : (s.signal q e).Canonical := by
  unfold State.signal
  extract_lets fail
  split
  · exact h
  · split
    · split <;> simp [fail, h]
    · simp [h]

@[simp] theorem State.completeWith_canonical {s : State} {q : QueueId} {e : QEntry} {status : Nat} {fault : Option ErrRec} (h : s.Canonical) :
    (s.completeWith q e status fault).Canonical := by
  unfold State.completeWith
  extract_lets s1 s2 s3 s4 v
  have hs1 : s1.Canonical := by simp [s1, h]
  have hs2 : s2.Canonical := by
    unfold s2
    split <;> simp [hs1]
  have hs3 : s3.Canonical := by simp [s3, hs2]
  have hs4 : s4.Canonical := by simp [s4, hs3]
  split <;> simp [hs4]

@[simp] theorem State.completeEntry_canonical {s : State} {q : QueueId} {e : QEntry} {status : Nat} {fault : Option ErrRec} (h : s.Canonical) :
    (s.completeEntry q e status fault).Canonical := by
  simp [State.completeEntry, h]

@[simp] theorem State.finishEntry_canonical {s : State} {q : QueueId} {e : QEntry} {status : Nat} {isFault : Bool} (h : s.Canonical) :
    (s.finishEntry q e status isFault).Canonical := by
  simp [State.finishEntry, h]

/-! Of Sys2Proof/Machine/Dispatcher.lean. -/

@[simp] theorem State.dispDone_canonical {s : State} {t : Tract} {e : QEntry} {st : DispStatus} (h : s.Canonical) :
    (s.dispDone t e st).Canonical := by
  simp [State.dispDone, h]

theorem State.dispStart_canonical {s : State} {t : Tract} {op : Nat} {act : State → QEntry → State} {may : QEntry → Bool} (h : s.Canonical)
    (hact : ∀ t x, t.Canonical → (act t x).Canonical) :
    (s.dispStart t op act may).Canonical := by
  unfold State.dispStart
  split <;> simp [h, hact]

@[simp] theorem State.countPlot_canonical (s : State) (t : Tract) (n : BitVec 8) : (s.countPlot t n).Canonical ↔ s.Canonical := by
  simp [State.countPlot]

@[simp] theorem State.ledgerReset_canonical (s : State) (p : ParcelId) : (s.ledgerReset p).Canonical ↔ s.Canonical := by
  simp [State.ledgerReset]

@[simp] theorem State.movePlot_canonical (s : State) (p : ParcelId) (n : Option (BitVec 8)) : (s.movePlot p n).Canonical ↔ s.Canonical := by
  unfold State.movePlot
  split
  · exact Iff.rfl
  · dsimp only
    split <;> simp

@[simp] theorem State.plotSetAct_canonical {s : State} {t : Tract} {e : QEntry} (h : s.Canonical) : (s.plotSetAct t e).Canonical := by
  unfold State.plotSetAct
  extract_lets none_ n p0 np bad ps s1 k s2
  have hs1 : s1.Canonical := by
    unfold s1
    refine State.foldl_canonical (fun s3 x hs => ?_) ?_
    · simp [hs]
    · exact h
  have hs2 : s2.Canonical := by simp [s2, hs1]
  simp [h, hs2]

@[simp] theorem execPlotSet_canonical {t : Tract} {s : State} (h : s.Canonical) : Result.Canonical (execPlotSet t s) := by
  unfold execPlotSet
  rw [Result.canonical_next]
  refine State.dispStart_canonical h (fun s1 x hs => ?_)
  simp [hs]

@[simp] theorem State.programStart_canonical (s : State) (c : CoreId) (e : QEntry) : (s.programStart c e).Canonical ↔ s.Canonical := by
  simp [State.programStart]

@[simp] theorem State.startAct_canonical {s : State} {t : Tract} {e : QEntry} (h : s.Canonical) : (s.startAct t e).Canonical := by
  simp [State.startAct, h]

@[simp] theorem execStart_canonical {t : Tract} {s : State} (h : s.Canonical) : Result.Canonical (execStart t s) := by
  unfold execStart
  rw [Result.canonical_next]
  refine State.dispStart_canonical h (fun s1 x hs => ?_)
  simp [hs]

@[simp] theorem execDispatcherCoreStart_canonical {c : CoreId} {s : State} (h : s.Canonical) : Result.Canonical (execDispatcherCoreStart c s) := by
  unfold execDispatcherCoreStart
  extract_lets q
  rw [Result.canonical_next]
  split <;> simp [h]

@[simp] theorem execStartTimeout_canonical {t : Tract} {s : State} (h : s.Canonical) : Result.Canonical (execStartTimeout t s) := by
  unfold execStartTimeout
  rw [Result.canonical_next]
  split <;> simp [h]

theorem State.dispRead_canonical {s : State} {t : Tract} {e : QEntry} {src n : Nat} {net : List NetReply}
    {act : State → Option (List Byte) → State} (h : s.Canonical) (hact : ∀ t x, t.Canonical → (act t x).Canonical) :
    (s.dispRead t e src n net act).Canonical := by
  simp [State.dispRead, h, hact]

@[simp] theorem State.tloadAct_canonical {s : State} {t : Tract} {e : QEntry} {net : List NetReply} (h : s.Canonical) :
    (s.tloadAct t e net).Canonical := by
  unfold State.tloadAct
  extract_lets n deal src cnt bad
  split
  · simp [h]
  · split
    · simp [h]
    · refine State.dispRead_canonical h (fun s1 x hs => ?_)
      extract_lets ps target
      split
      · simp [hs]
      · extract_lets ds plan s2
        have hs2 : s2.Canonical := by
          unfold s2
          refine State.foldl_canonical (fun s3 x hs1 => ?_) ?_
          · simp [hs1]
          · exact hs
        simp [hs, hs2]

@[simp] theorem execTload_canonical {t : Tract} {net : List NetReply} {s : State} (h : s.Canonical) : Result.Canonical (execTload t net s) := by
  unfold execTload
  rw [Result.canonical_next]
  refine State.dispStart_canonical h (fun s1 x hs => ?_)
  simp [hs]

@[simp] theorem State.tmplSetAct_canonical {s : State} {t : Tract} {e : QEntry} {net : List NetReply} (h : s.Canonical) :
    (s.tmplSetAct t e net).Canonical := by
  unfold State.tmplSetAct
  extract_lets src cnt i0 bad
  split
  · simp [h]
  · refine State.dispRead_canonical h (fun s1 x hs => ?_)
    split
    · simp [hs]
    · extract_lets ts
      split
      · simp [hs]
      · refine State.dispDone_canonical ?_
        refine State.foldl_canonical (fun s2 x hs1 => ?_) ?_
        · simp [hs1]
        · exact hs

@[simp] theorem execTmplSet_canonical {t : Tract} {net : List NetReply} {s : State} (h : s.Canonical) : Result.Canonical (execTmplSet t net s) := by
  unfold execTmplSet
  rw [Result.canonical_next]
  refine State.dispStart_canonical h (fun s1 x hs => ?_)
  simp [hs]

@[simp] theorem execTclear_canonical {t : Tract} {s : State} (h : s.Canonical) : Result.Canonical (execTclear t s) := by
  unfold execTclear
  rw [Result.canonical_next]
  refine State.dispStart_canonical h (fun s1 x hs => ?_)
  extract_lets n
  split
  · simp [hs]
  · split
    · simp [hs]
    · refine State.dispDone_canonical ?_
      refine State.foldl_canonical (fun s2 x1 hs1 => ?_) ?_
      · simp [hs1]
      · exact hs

/-! Of Sys2Proof/Machine/EngData.lean. -/

@[simp] theorem State.touchAt_canonical {s : State} {t : Tract} {ga n : Nat} (h : s.Canonical) : (s.touchAt t ga n).Canonical := by
  simp [State.touchAt, h]

@[simp] theorem State.mstorePiece_canonical {s : State} {q : Nat × List MByte} (h : s.Canonical) : (s.mstorePiece q).Canonical := by
  simp [State.mstorePiece, h]

@[simp] theorem State.mstore_canonical {s : State} {key : Nat} {bs : List MByte} (h : s.Canonical) : (s.mstore key bs).Canonical := by
  unfold State.mstore
  rw [State.staleLines_canonical]
  refine State.foldl_canonical (fun s1 x hs => ?_) ?_
  · simp [hs]
  · exact h

@[simp] theorem State.engWrite_canonical {s : State} {t : Tract} {g : Engine} {id ga : Nat} {bs : List MByte} {net : List NetReply}
    (h : s.Canonical) :
    (s.engWrite t g id ga bs net).1.Canonical := by
  unfold State.engWrite
  split
  · exact h
  · split
    · exact h
    · split
      · simp [h]
      · split
        · split <;> simp [h]
        · exact h

@[simp] theorem State.tractFlags_canonical (s : State) (t : Tract) (group : Nat) (fl : FlagSet) :
    (s.tractFlags t group fl).Canonical ↔ s.Canonical := by
  simp [State.tractFlags]

@[simp] theorem State.convFlags_canonical (s : State) (t : Tract) (fl : FlagSet) : (s.convFlags t fl).Canonical ↔ s.Canonical := by
  simp [State.convFlags]

@[simp] theorem State.redFlags_canonical (s : State) (t : Tract) (fl : FlagSet) : (s.redFlags t fl).Canonical ↔ s.Canonical := by
  simp [State.redFlags]

/-! Of Sys2Proof/Machine/Plan.lean. -/

@[simp] theorem State.touchCad_canonical {s : State} {l : LayerRec} {es : List Nat} (h : s.Canonical) : (s.touchCad l es).Canonical := by
  unfold State.touchCad
  refine State.foldl_canonical (fun s1 x hs => ?_) ?_
  · simp [hs]
  · exact h

@[simp] theorem State.touchPlan_canonical {s : State} {p : PlanImage} (h : s.Canonical) : (s.touchPlan p).Canonical := by
  unfold State.touchPlan
  extract_lets n
  refine State.foldl_canonical (fun s1 x hs => ?_) ?_
  · simp [hs]
  · exact h

@[simp] theorem State.planReject_canonical (s : State) (off table state : Nat) : (s.planReject off table state).Canonical ↔ s.Canonical := by
  simp [State.planReject]

@[simp] theorem State.touchChecked_canonical {s : State} {p : PlanImage} (h : s.Canonical) : (s.touchChecked p).Canonical := by
  simp [State.touchChecked, h]

@[simp] theorem State.planDecide_canonical (s : State) (p : PlanImage) (v : PlanVerdict) : (s.planDecide p v).Canonical ↔ s.Canonical := by
  unfold State.planDecide
  extract_lets old
  split <;> simp

@[simp] theorem State.planDbPut_canonical (s : State) : (s.planDbPut).Canonical ↔ s.Canonical := by
  simp [State.planDbPut]

@[simp] theorem execPlanDb_canonical {_value : Word} {s : State} (h : s.Canonical) : Result.Canonical (execPlanDb _value s) := by
  unfold execPlanDb
  rw [Result.canonical_next]
  refine State.atReg_canonical h (fun s1 hs => ?_)
  simp [hs]

@[simp] theorem execPlanValidated_canonical {r : PlanFetch} {s : State} (h : s.Canonical) : Result.Canonical (execPlanValidated r s) := by
  unfold execPlanValidated
  extract_lets old s1
  have hs1 : s1.Canonical := by simp [s1, h]
  rw [Result.canonical_next]
  split
  · exact h
  · split
    · simp [hs1]
    · split
      · simp [hs1]
      · extract_lets p
        split <;> simp [hs1]
      · extract_lets p
        split <;> simp [hs1]

/-! Of Sys2Proof/Machine/Route.lean. -/

@[simp] theorem State.routeDone_canonical {s : State} {t : Tract} {id st : Nat} (h : s.Canonical) : (s.routeDone t id st).Canonical := by
  unfold State.routeDone
  extract_lets q
  split <;> simp [h]

theorem State.routeStart_canonical {s : State} {t : Tract} {e : QEntry} {act : State → RouteEntry → LayerRec → State} (h : s.Canonical)
    (hact : ∀ t x y, t.Canonical → (act t x y).Canonical) :
    (s.routeStart t e act).Canonical := by
  unfold State.routeStart
  extract_lets r
  split
  · simp [h]
  · split <;> simp [h, hact]

theorem State.xferStart_canonical {s : State} {t : Tract} {op : Nat} {blocked : State → QEntry → Bool} {act : State → QEntry → State}
    (h : s.Canonical) (hact : ∀ t x, t.Canonical → (act t x).Canonical) :
    (s.xferStart t op blocked act).Canonical := by
  unfold State.xferStart
  extract_lets q
  split <;> simp [h, hact]

@[simp] theorem State.xstore_canonical {s : State} {p : ParcelId} {off : Nat} {bs : List MByte} (h : s.Canonical) :
    (s.xstore p off bs).Canonical := by
  simp [State.xstore, h]

@[simp] theorem State.xland_canonical {s : State} {p : ParcelId} {off : Nat} {bs : List MByte} (h : s.Canonical) :
    (s.xland p off bs).Canonical := by
  simp [State.xland, h]

@[simp] theorem State.touchSlice_canonical {s : State} {p : ParcelId} {off n : Nat} (h : s.Canonical) : (s.touchSlice p off n).Canonical := by
  simp [State.touchSlice, h]

@[simp] theorem State.touchToken_canonical {s : State} {p : ParcelId} {r : RouteEntry} {l : LayerRec} {i : Nat} {x : Selected} (h : s.Canonical) :
    (s.touchToken p r l i x).Canonical := by
  unfold State.touchToken
  refine State.foldl_canonical (fun s1 x1 hs => ?_) ?_
  · simp [hs]
  · simp [h]

@[simp] theorem State.selectAct_canonical {s : State} {t : Tract} {e : QEntry} {r : RouteEntry} {l : LayerRec} (h : s.Canonical) :
    (s.selectAct t e r l).Canonical := by
  unfold State.selectAct
  extract_lets s1 ps toks res s2 s3 s4
  have hs1 : s1.Canonical := by simp [s1, h]
  have hs2 : s2.Canonical := by
    unfold s2
    refine State.foldl_canonical (fun s5 x hs => ?_) ?_
    · simp [hs]
    · exact hs1
  have hs3 : s3.Canonical := by
    unfold s3
    refine State.foldl_canonical (fun s5 x hs => ?_) ?_
    · simp [hs]
    · exact hs2
  have hs4 : s4.Canonical := by simp [s4, hs3]
  simp [hs4]

@[simp] theorem execSelect_canonical {t : Tract} {s : State} (h : s.Canonical) : Result.Canonical (execSelect t s) := by
  unfold execSelect
  rw [Result.canonical_next]
  refine State.xferStart_canonical h (fun s1 x hs => ?_)
  refine State.routeStart_canonical hs (fun s2 x1 y hs1 => ?_)
  simp [hs1]

@[simp] theorem State.touchTokens_canonical {s : State} {t : Tract} {plot selOff k ntok : Nat} {empty : Bool} (h : s.Canonical) :
    (s.touchTokens t plot selOff k ntok empty).Canonical := by
  unfold State.touchTokens
  split
  · exact h
  · refine State.foldl_canonical (fun s1 x hs => ?_) ?_
    · refine State.foldl_canonical (fun s2 x1 hs1 => ?_) ?_
      · simp [hs1]
      · exact hs
    · exact h

@[simp] theorem State.modTxfer_canonical (s : State) (t : Tract) (f : TractXfer → TractXfer) : (s.modTxfer t f).Canonical ↔ s.Canonical := by
  simp [State.modTxfer]

@[simp] theorem State.grantCredits_canonical (s : State) (dst : Tract) : (s.grantCredits dst).Canonical ↔ s.Canonical := by
  unfold State.grantCredits
  refine State.foldl_canonical_iff (fun s1 x => ?_) _ _
  simp

@[simp] theorem State.pushPath_canonical (s : State) (dst : Tract) (src : CreditSrc) (g : Segment) (port : Option (Nat × Nat)) :
    (s.pushPath dst src g port).Canonical ↔ s.Canonical := by
  simp [State.pushPath]

@[simp] theorem State.setExch_canonical (s : State) (x : Exch) : (s.setExch x).Canonical ↔ s.Canonical := by
  simp [State.setExch]

@[simp] theorem State.dropExch_canonical (s : State) (t : Tract) (k : XKey) : (s.dropExch t k).Canonical ↔ s.Canonical := by
  simp [State.dropExch]

@[simp] theorem State.takeKeys_canonical {s : State} {t : Tract} {layer mb : Nat} {ks : List (List Byte)} (h : s.Canonical) :
    (s.takeKeys t layer mb ks).Canonical := by
  unfold State.takeKeys
  obtain ⟨place, hplace⟩ : ∃ f, LayerRec.keyPlace = f := ⟨_, rfl⟩
  rw [hplace]
  split
  · exact h
  · split
    · extract_lets room s1
      have hs1 : s1.Canonical := State.foldl_canonical (fun s x hs => by simp [hs]) h
      simp [hs1]
    · exact h

@[simp] theorem State.sendSegs_canonical (s : State) (t : Tract) (k : XKey) (gs : List Segment) : (s.sendSegs t k gs).Canonical ↔ s.Canonical := by
  unfold State.sendSegs
  refine State.foldl_canonical_iff (fun s1 x => ?_) _ _
  split <;> split <;> simp

@[simp] theorem State.rankAct_canonical {s : State} {t : Tract} {e : QEntry} {r : RouteEntry} {l : LayerRec} (h : s.Canonical) :
    (s.rankAct t e r l).Canonical := by
  unfold State.rankAct
  dsimp only
  split
  · refine State.routeDone_canonical ?_
    simp [h]
  · refine State.foldl_canonical (fun s1 x hs => ?_) ?_
    · split
      · exact State.takeKeys_canonical hs
      · simp [hs]
    · simp [h]

@[simp] theorem execRank_canonical {t : Tract} {s : State} (h : s.Canonical) : Result.Canonical (execRank t s) := by
  unfold execRank
  rw [Result.canonical_next]
  refine State.xferStart_canonical h (fun s1 x hs => ?_)
  refine State.routeStart_canonical hs (fun s2 x1 y hs1 => ?_)
  simp [hs1]

@[simp] theorem State.tallyPut_canonical {s : State} {l : LayerRec} {e : Nat} {f : List Byte → List Byte} (h : s.Canonical) :
    (s.tallyPut l e f).Canonical := by
  unfold State.tallyPut
  extract_lets key s1 bad
  have hs1 : s1.Canonical := by
    unfold s1
    split <;> simp [h]
  simp [hs1]

@[simp] theorem State.tally_canonical {s : State} {l : LayerRec} {e routed acc ovf : Nat} (h : s.Canonical) :
    (s.tally l e routed acc ovf).Canonical := by
  simp [State.tally, h]

@[simp] theorem State.tallyMove_canonical {s : State} {l : LayerRec} {e n : Nat} (h : s.Canonical) : (s.tallyMove l e n).Canonical := by
  simp [State.tallyMove, h]

@[simp] theorem State.rankToken_canonical {s : State} {r : RouteEntry} {k : Nat} {cuts : List (Nat × Nat × Nat)} {x : Token} (h : s.Canonical) :
    (s.rankToken r k cuts x).Canonical := by
  unfold State.rankToken
  refine State.foldl_canonical (fun s1 x1 hs => ?_) ?_
  · simp [hs]
  · exact h

@[simp] theorem State.rankEnd_canonical {s : State} {t : Tract} {r : RankRun} {st : Nat} (h : s.Canonical) : (s.rankEnd t r st).Canonical := by
  simp [State.rankEnd, h]

@[simp] theorem State.setCutRun_canonical (s : State) (c : CutRun) : (s.setCutRun c).Canonical ↔ s.Canonical := by
  simp [State.setCutRun]

@[simp] theorem State.rankOwners_canonical {s : State} {l : LayerRec} {mb : Nat} (h : s.Canonical) : (s.rankOwners l mb).Canonical := by
  unfold State.rankOwners
  extract_lets own c st cuts s1 s2 k
  have hs1 : s1.Canonical := by
    unfold s1
    refine State.foldl_canonical (fun s3 x hs => ?_) ?_
    · split <;> simp [hs]
    · simp [h]
  have hs2 : s2.Canonical := by simp [s2, hs1]
  refine State.foldl_canonical (fun s3 x hs => ?_) ?_
  · extract_lets s4 old mine
    have hs4 : s4.Canonical := by simp [s4, hs]
    split
    · exact hs
    · extract_lets old1 s5
      have hs5 : s5.Canonical := by simp [s5, hs4]
      refine State.foldl_canonical (fun s6 x1 hs3 => ?_) ?_
      · simp [hs3]
      · exact hs5
  · exact hs2

@[simp] theorem State.rankFinish_canonical {s : State} {l : LayerRec} {mb : Nat} (h : s.Canonical) : (s.rankFinish l mb).Canonical := by
  unfold State.rankFinish
  extract_lets c runs s1 s2 s3 s4 old s5
  have hs1 : s1.Canonical := by
    unfold s1
    refine State.foldl_canonical (fun s6 x hs => ?_) ?_
    · simp [hs]
    · exact h
  have hs2 : s2.Canonical := by
    unfold s2
    refine State.foldl_canonical (fun s6 x hs => ?_) ?_
    · extract_lets r s7
      have hs7 : s7.Canonical := by simp [s7, hs]
      refine State.foldl_canonical (fun s8 x1 hs2 => ?_) ?_
      · simp [hs2]
      · exact hs7
    · exact hs1
  have hs3 : s3.Canonical := by
    unfold s3
    refine State.foldl_canonical (fun s6 x hs => ?_) ?_
    · extract_lets ks
      refine State.foldl_canonical (fun s7 x1 hs3 => ?_) ?_
      · simp [hs3]
      · exact hs
    · exact hs2
  have hs4 : s4.Canonical := by
    unfold s4
    split
    · exact h
    · refine State.foldl_canonical (fun s6 x hs => ?_) ?_
      · simp [hs]
      · exact hs3
  have hs5 : s5.Canonical := by simp [s5, hs4]
  refine State.foldl_canonical (fun s6 x hs => ?_) ?_
  · simp [hs]
  · exact hs5

@[simp] theorem execRankComplete_canonical {layer mb : Nat} {s : State} (h : s.Canonical) : Result.Canonical (execRankComplete layer mb s) := by
  unfold execRankComplete
  extract_lets inUse
  rw [Result.canonical_next]
  split <;> simp [h]

@[simp] theorem State.sortTract_canonical {s : State} {t : Tract} {w : SortWait} {l : LayerRec} {rows : List SortRow} {total : Nat → Nat}
    {poison : Bool} (h : s.Canonical) :
    (s.sortTract t w l rows total poison).Canonical := by
  unfold State.sortTract
  extract_lets r rs experts body s1 s2 s3 run s4
  have hs1 : s1.Canonical := by
    unfold s1
    refine State.foldl_canonical (fun s5 x hs => ?_) ?_
    · simp [hs]
    · exact h
  have hs2 : s2.Canonical := by
    unfold s2
    refine State.foldl_canonical (fun s5 x hs => ?_) ?_
    · split <;> simp [hs]
    · exact hs1
  have hs3 : s3.Canonical := by
    unfold s3
    refine State.foldl_canonical (fun s5 x hs => ?_) ?_
    · extract_lets first
      split <;> simp [hs]
    · exact hs2
  have hs4 : s4.Canonical := by simp [s4, hs3]
  simp [h, hs4]

@[simp] theorem State.sortAll_canonical {s : State} {l : LayerRec} {ws : List (Tract × SortWait)} (h : s.Canonical) :
    (s.sortAll l ws).Canonical := by
  unfold State.sortAll
  extract_lets s1 toks rows s2 s3 numbered good total
  have hs1 : s1.Canonical := by
    unfold s1
    refine State.foldl_canonical (fun s4 x hs => ?_) ?_
    · simp [hs]
    · exact h
  have hs2 : s2.Canonical := by
    unfold s2
    refine State.foldl_canonical (fun s4 x hs => ?_) ?_
    · simp [hs]
    · exact hs1
  have hs3 : s3.Canonical := by simp [s3, hs2]
  split
  · refine State.foldl_canonical (fun s4 x hs => ?_) ?_
    · simp [hs]
    · exact hs3
  · refine State.foldl_canonical (fun s4 x hs => ?_) ?_
    · simp [hs]
    · exact hs3

@[simp] theorem State.sortAct_canonical {s : State} {t : Tract} {e : QEntry} {r : RouteEntry} {l : LayerRec} (h : s.Canonical) :
    (s.sortAct t e r l).Canonical := by
  simp [State.sortAct, h]

@[simp] theorem execSort_canonical {t : Tract} {s : State} (h : s.Canonical) : Result.Canonical (execSort t s) := by
  unfold execSort
  rw [Result.canonical_next]
  refine State.xferStart_canonical h (fun s1 x hs => ?_)
  refine State.routeStart_canonical hs (fun s2 x1 y hs1 => ?_)
  simp [hs1]

@[simp] theorem execScanTreeTimeout_canonical {t : Tract} {s : State} (h : s.Canonical) : Result.Canonical (execScanTreeTimeout t s) := by
  unfold execScanTreeTimeout
  rw [Result.canonical_next]
  split <;> simp [h]

/-! Of Sys2Proof/Machine/Landing.lean. -/

@[simp] theorem State.countCl_canonical (s : State) (t : Tract) (r : RegName) (high : Bool) (n : Nat) :
    (s.countCl t r high n).Canonical ↔ s.Canonical := by
  simp [State.countCl]

@[simp] theorem State.closureRaise_canonical (s : State) (t : Tract) (k : XKey) (peer : Nat × Nat) (cause want had : Nat) (boundary : Bool) :
    (s.closureRaise t k peer cause want had boundary).Canonical ↔ s.Canonical := by
  simp [State.closureRaise]

@[simp] theorem State.xferDrop_canonical (s : State) (x : Exch) : (s.xferDrop x).Canonical ↔ s.Canonical := by
  simp [State.xferDrop]

@[simp] theorem State.xferComplete_canonical {s : State} {t : Tract} {id st : Nat} (h : s.Canonical) : (s.xferComplete t id st).Canonical := by
  unfold State.xferComplete
  extract_lets q
  split <;> simp [h]

@[simp] theorem State.xferEnd_canonical {s : State} {x : Exch} {st : Nat} (h : s.Canonical) : (s.xferEnd x st).Canonical := by
  simp [State.xferEnd, h]

@[simp] theorem State.excess_canonical {s : State} {x : Exch} {peer : Nat × Nat} (h : s.Canonical) : (s.excess x peer).Canonical := by
  simp [State.excess, h]

@[simp] theorem State.fillPosition_canonical {s : State} {x : Exch} {l : LayerRec} {e q : Nat} {row : List MByte} {isNull : Bool} (h : s.Canonical) :
    (s.fillPosition x l e q row isNull).Canonical := by
  unfold State.fillPosition
  extract_lets f s1 s2
  have hs1 : s1.Canonical := by
    unfold s1
    split <;> simp [h]
  have hs2 : s2.Canonical := by simp [s2, hs1]
  simp [hs2]

@[simp] theorem State.landDispatch_canonical {s : State} {t : Tract} {k : XKey} {l : LayerRec} {h : SegHdr} {n : Nat} {row : List MByte}
    {isNull : Bool} (hs : s.Canonical) :
    (s.landDispatch t k l h n row isNull).Canonical := by
  unfold State.landDispatch
  split
  · exact hs
  · split <;> simp [hs]

@[simp] theorem State.landDispatchSeg_canonical {s : State} {t : Tract} {k : XKey} {l : LayerRec} {g : Segment} (h : s.Canonical) :
    (s.landDispatchSeg t k l g).Canonical := by
  unfold State.landDispatchSeg
  extract_lets s1
  have hs1 : s1.Canonical := by simp [s1, h]
  split
  · refine State.foldl_canonical (fun s2 x hs => ?_) ?_
    · simp [hs]
    · exact hs1
  · refine State.foldl_canonical (fun s2 x hs => ?_) ?_
    · simp [hs]
    · exact h

@[simp] theorem State.landReturn_canonical {s : State} {t : Tract} {k : XKey} {l : LayerRec} {h : SegHdr} {row : List MByte} (hs : s.Canonical) :
    (s.landReturn t k l h row).Canonical := by
  unfold State.landReturn
  extract_lets tag pos
  split
  · exact hs
  · extract_lets f expected s1 s2
    have hs1 : s1.Canonical := by
      unfold s1
      split <;> simp [hs]
    have hs2 : s2.Canonical := by simp [s2, hs1]
    simp [hs, hs2]

@[simp] theorem State.landUnits_canonical {s : State} {t : Tract} {k : XKey} {g : Segment} (h : s.Canonical) : (s.landUnits t k g).Canonical := by
  unfold State.landUnits
  extract_lets bs lo
  split <;> simp [h]

@[simp] theorem State.rankClosure_canonical {s : State} {t : Tract} {layer mb : Nat} (h : s.Canonical) : (s.rankClosure t layer mb).Canonical := by
  unfold State.rankClosure
  extract_lets s1
  have hs1 : s1.Canonical := by simp [s1, h]
  split <;> simp [h, hs1]

@[simp] theorem State.landCuts_canonical {s : State} {t : Tract} {l : LayerRec} {g : Segment} (h : s.Canonical) :
    (s.landCuts t l g).Canonical := by
  simp [State.landCuts, h]

@[simp] theorem State.hear_canonical (s : State) (t : Tract) (k : XKey) (peer : Nat × Nat) : (s.hear t k peer).Canonical ↔ s.Canonical := by
  unfold State.hear
  split <;> simp

@[simp] theorem State.landSegment_canonical {s : State} {t : Tract} {g : Segment} (h : s.Canonical) : (s.landSegment t g).Canonical := by
  unfold State.landSegment
  extract_lets k s1
  have hs1 : s1.Canonical := by simp [s1, h]
  split
  · simp [hs1]
  · split
    · exact hs1
    · split
      · simp [hs1]
      · simp [hs1]
      · refine State.foldl_canonical (fun s2 x hs => ?_) ?_
        · simp [hs]
        · exact hs1
      · refine State.foldl_canonical (fun s2 x hs => ?_) ?_
        · simp [hs]
        · exact hs1
      · exact State.takeKeys_canonical hs1
      · simp [hs1]

@[simp] theorem State.delivered_canonical (s : State) (t : Tract) (g : Segment) : (s.delivered t g).Canonical ↔ s.Canonical := by
  unfold State.delivered
  extract_lets s1
  have hs1 : s1.Canonical ↔ s.Canonical := by simp [s1]
  split
  · exact Iff.rfl
  · split <;> simp [hs1]

@[simp] theorem State.combineFinish_canonical {s : State} {x : Exch} {l : LayerRec} (h : s.Canonical) : (s.combineFinish x l).Canonical := by
  unfold State.combineFinish
  extract_lets f toks rows s1 s2 s3 s4
  have hs1 : s1.Canonical := by simp [s1, h]
  have hs2 : s2.Canonical := by
    unfold s2
    refine State.foldl_canonical (fun s5 x1 hs => ?_) ?_
    · split
      · exact hs
      · refine State.foldl_canonical (fun s6 x2 hs2 => ?_) ?_
        · simp [hs2]
        · exact hs
    · exact hs1
  have hs3 : s3.Canonical := by
    unfold s3
    refine State.foldl_canonical (fun s5 x1 hs => ?_) ?_
    · simp [hs]
    · exact hs2
  have hs4 : s4.Canonical := by simp [s4, hs3]
  simp [hs4]

@[simp] theorem State.dispatchFinish_canonical {s : State} {x : Exch} (h : s.Canonical) : (s.dispatchFinish x).Canonical := by
  simp [State.dispatchFinish, h]

@[simp] theorem State.collFinish_canonical {s : State} {x : Exch} {c : CollEntry} {m : Nat} (h : s.Canonical) :
    (s.collFinish x c m).Canonical := by
  unfold State.collFinish
  extract_lets dst
  split
  · extract_lets s1 s2
    have hs1 : s1.Canonical := by
      unfold s1
      refine State.foldl_canonical (fun s3 x1 hs => ?_) ?_
      · extract_lets key
        split
        · simp [hs]
        · split <;> simp [hs]
      · exact h
    have hs2 : s2.Canonical := by simp [s2, hs1]
    simp [hs2]

@[simp] theorem State.xferFinish_canonical {s : State} {x : Exch} (h : s.Canonical) : (s.xferFinish x).Canonical := by
  unfold State.xferFinish
  extract_lets c
  split
  · simp [h]
  · simp [h]
  · split <;> simp [h]
  · split <;> simp [h]
  · simp [h]
  · exact h

@[simp] theorem State.xferCheck_canonical {s : State} {t : Tract} {k : XKey} (h : s.Canonical) : (s.xferCheck t k).Canonical := by
  unfold State.xferCheck
  split
  · exact h
  · split
    · exact h
    · split
      · simp [h]
      · split <;> simp [h]

/-! Of Sys2Proof/Machine/Transit.lean. -/

@[simp] theorem State.xferFail_canonical {s : State} {t : Tract} {id st : Nat} (h : s.Canonical) : (s.xferFail t id st).Canonical := by
  unfold State.xferFail
  extract_lets q
  split <;> simp [h]

@[simp] theorem State.beginExch_canonical (s : State) (x : Exch) : (s.beginExch x).Canonical ↔ s.Canonical := by
  simp [State.beginExch]

@[simp] theorem State.attempt_canonical {s : State} {t : Tract} {k : XKey} {g : Segment} (h : s.Canonical) : (s.attempt t k g).Canonical := by
  unfold State.attempt
  extract_lets n s1 s2
  have hs1 : s1.Canonical := by simp [s1, h]
  have hs2 : s2.Canonical := by
    unfold s2
    split <;> simp [hs1]
  simp [hs2]

@[simp] theorem State.touchSend_canonical {s : State} {t : Tract} {r : SortRun} {rowb : Nat} (h : s.Canonical) :
    (s.touchSend t r rowb).Canonical := by
  unfold State.touchSend
  refine State.foldl_canonical (fun s1 x hs => ?_) ?_
  · extract_lets at_ d
    refine State.foldl_canonical (fun s2 x1 hs1 => ?_) ?_
    · extract_lets n
      split <;> simp [hs1]
    · simp [hs]
  · exact h

@[simp] theorem State.touchBases_canonical {s : State} {t : Tract} {l : LayerRec} {f : XferEntry} {keys held : Nat} {bases : List BaseEnt}
    (h : s.Canonical) : (s.touchBases t l f keys held bases).Canonical := by
  obtain ⟨g, hg⟩ : ∃ g, @State.touchBases = g := ⟨_, rfl⟩
  obtain ⟨place, hplace⟩ : ∃ f, LayerRec.keyPlace = f := ⟨_, rfl⟩
  rw [hg]
  delta State.touchBases at hg
  rw [hplace] at hg
  subst hg
  dsimp only
  split
  · exact h
  · split
    · refine State.foldl_canonical (fun s1 x hs => ?_) (by simp [h])
      split
      · exact hs
      · refine State.foldl_canonical (fun s2 x1 hs1 => ?_) hs
        split <;> simp [hs1]
    · exact State.foldl_canonical (fun s1 x hs => by simp [hs]) (by simp [h])

@[simp] theorem State.dispatchAct_canonical {s : State} {t : Tract} {e : QEntry} (h : s.Canonical) : (s.dispatchAct t e).Canonical := by
  unfold State.dispatchAct
  extract_lets f run keys held k old
  split
  · simp [h]
  · extract_lets bases segs want nulls s1 s2 s3 s4 s5 s6 s7
    have hs1 : s1.Canonical := by
      unfold s1
      exact State.touchBases_canonical h
    have hs2 : s2.Canonical := by
      unfold s2
      split <;> simp [hs1]
    have hs3 : s3.Canonical := by simp [s3, hs2]
    have hs4 : s4.Canonical := by
      unfold s4
      split
      · exact hs2
      · split
        · refine State.foldl_canonical (fun s8 x hs => ?_) ?_
          · simp [hs]
          · exact hs3
        · exact hs3
    have hs5 : s5.Canonical := by simp [s5, hs4]
    have hs6 : s6.Canonical := by simp [s6, hs5]
    have hs7 : s7.Canonical := by
      unfold s7
      refine State.foldl_canonical (fun s8 x hs => ?_) ?_
      · split <;> simp [hs]
      · exact hs6
    split
    · simp [h]
    · split
      · refine State.xferCheck_canonical ?_
        refine State.foldl_canonical (fun s8 x hs => ?_) ?_
        · simp [hs]
        · exact hs7
      · simp [h]

@[simp] theorem execDispatch_canonical {t : Tract} {s : State} (h : s.Canonical) : Result.Canonical (execDispatch t s) := by
  unfold execDispatch
  rw [Result.canonical_next]
  refine State.xferStart_canonical h (fun s1 x hs => ?_)
  simp [hs]

@[simp] theorem State.touchReturns_canonical {s : State} {t : Tract} {f : XferEntry} {l : LayerRec} {bases : List BaseEnt} {spread : Nat}
    (h : s.Canonical) :
    (s.touchReturns t f l bases spread).Canonical := by
  unfold State.touchReturns
  extract_lets s1
  have hs1 : s1.Canonical := by
    unfold s1
    split <;> simp [h]
  refine State.foldl_canonical (fun s2 x hs => ?_) ?_
  · split
    · exact hs
    · refine State.foldl_canonical (fun s3 x1 hs2 => ?_) ?_
      · split <;> simp [hs2]
      · exact hs
  · exact hs1

@[simp] theorem State.combineAct_canonical {s : State} {t : Tract} {e : QEntry} (h : s.Canonical) : (s.combineAct t e).Canonical := by
  unfold State.combineAct
  extract_lets f k old
  split
  · simp [h]
  · extract_lets want
    split
    · simp [h]
    · split
      · simp [h]
      · split
        · simp [h]
        · extract_lets bases rows s1 s2 s3 dests
          have hs1 : s1.Canonical := by simp [s1, h]
          have hs2 : s2.Canonical := by simp [s2, hs1]
          have hs3 : s3.Canonical := by simp [s3, hs2]
          split
          · simp [h]
          · split
            · simp [h]
            · refine State.xferCheck_canonical ?_
              refine State.foldl_canonical (fun s4 x hs => ?_) ?_
              · refine State.foldl_canonical (fun s5 x1 hs4 => ?_) ?_
                · simp [hs4]
                · exact hs
              · exact hs3

@[simp] theorem execCombine_canonical {t : Tract} {s : State} (h : s.Canonical) : Result.Canonical (execCombine t s) := by
  unfold execCombine
  rw [Result.canonical_next]
  refine State.xferStart_canonical h (fun s1 x hs => ?_)
  simp [hs]

@[simp] theorem State.collAct_canonical {s : State} {t : Tract} {e : QEntry} (h : s.Canonical) : (s.collAct t e).Canonical := by
  unfold State.collAct
  extract_lets c own ms m rank src sends k input s1 old s2 s3 own_ s4 s5
  have hs1 : s1.Canonical := by simp [s1, h]
  have hs2 : s2.Canonical := by simp [s2, hs1]
  have hs3 : s3.Canonical := by simp [s3, hs2]
  have hs4 : s4.Canonical := by simp [s4, hs3]
  have hs5 : s5.Canonical := by
    unfold s5
    split
    · exact hs4
    · refine State.foldl_canonical (fun s6 x hs => ?_) ?_
      · extract_lets old1 h1
        refine State.foldl_canonical (fun s7 x1 hs5 => ?_) ?_
        · simp [hs5]
        · exact hs
      · exact hs4
  simp [h, hs5]

@[simp] theorem State.collStart_canonical {s : State} {t : Tract} {op : Nat} (h : s.Canonical) : (s.collStart t op).Canonical := by
  unfold State.collStart
  refine State.xferStart_canonical h (fun s1 x hs => ?_)
  simp [hs]

@[simp] theorem execRscat_canonical {t : Tract} {s : State} (h : s.Canonical) : Result.Canonical (execRscat t s) := by
  simp [execRscat, h]

@[simp] theorem execAgath_canonical {t : Tract} {s : State} (h : s.Canonical) : Result.Canonical (execAgath t s) := by
  simp [execAgath, h]

@[simp] theorem execBcast_canonical {t : Tract} {s : State} (h : s.Canonical) : Result.Canonical (execBcast t s) := by
  simp [execBcast, h]

@[simp] theorem execGnorm_canonical {t : Tract} {s : State} (h : s.Canonical) : Result.Canonical (execGnorm t s) := by
  simp [execGnorm, h]

@[simp] theorem execCreditUnit_canonical {dst : Tract} {src : CreditSrc} {s : State} (h : s.Canonical) :
    Result.Canonical (execCreditUnit dst src s) := by
  unfold execCreditUnit
  extract_lets s1 l put
  have hs1 : s1.Canonical := by simp [s1, h]
  rw [Result.canonical_next]
  split
  · exact hs1
  · extract_lets n k s2 s3 s4
    have hs2 : s2.Canonical := by
      unfold s2
      split <;> simp [hs1]
    have hs3 : s3.Canonical := by simp [s3, put, hs2]
    have hs4 : s4.Canonical := by
      unfold s4
      split <;> simp [hs3]
    simp [put, hs2, hs4]

@[simp] theorem execTileEntryWrite_canonical {p : ParcelId} {s : State} (h : s.Canonical) : Result.Canonical (execTileEntryWrite p s) := by
  unfold execTileEntryWrite
  extract_lets room
  rw [Result.canonical_next]
  split <;> simp [h]

@[simp] theorem execTileOverflow_canonical {p : ParcelId} {s : State} (h : s.Canonical) : Result.Canonical (execTileOverflow p s) := by
  unfold execTileOverflow
  rw [Result.canonical_next]
  split <;> simp [h]

@[simp] theorem execExchangeTimeout_canonical {t : Tract} {k : Nat} {s : State} (h : s.Canonical) : Result.Canonical (execExchangeTimeout t k s) := by
  unfold execExchangeTimeout
  extract_lets q d
  rw [Result.canonical_next]
  split
  · exact h
  · split
    · extract_lets r
      split <;> simp [h]
    · simp [h]

@[simp] theorem execRankPeerTimeout_canonical {t : Tract} {layer mb : Nat} {s : State} (h : s.Canonical) :
    Result.Canonical (execRankPeerTimeout t layer mb s) := by
  unfold execRankPeerTimeout
  rw [Result.canonical_next]
  split
  · exact h
  · split <;> simp [h]

/-! Of Sys2Proof/Machine/Slots.lean. -/

@[simp] theorem State.setSends_canonical (s : State) (p : Port) (l : List SlotSend) : (s.setSends p l).Canonical ↔ s.Canonical := by
  simp [State.setSends]

@[simp] theorem State.dropSend_canonical (s : State) (p : Port) (inst : Nat) : (s.dropSend p inst).Canonical ↔ s.Canonical := by
  simp [State.dropSend]

@[simp] theorem State.putSend_canonical (s : State) (p : Port) (w : SlotSend) : (s.putSend p w).Canonical ↔ s.Canonical := by
  simp [State.putSend]

@[simp] theorem State.modSeen_canonical (s : State) (p : Port) (f : SlotSeen → SlotSeen) : (s.modSeen p f).Canonical ↔ s.Canonical := by
  simp [State.modSeen]

@[simp] theorem State.setRelays_canonical (s : State) (d : Fin 8) (l : List RelayItem) : (s.setRelays d l).Canonical ↔ s.Canonical := by
  simp [State.setRelays]

@[simp] theorem execSlotStage_canonical {p : Port} {inst : Nat} {s : State} (h : s.Canonical) : Result.Canonical (execSlotStage p inst s) := by
  unfold execSlotStage
  extract_lets l
  rw [Result.canonical_next]
  split
  · exact h
  · split
    · exact h
    · extract_lets base i
      split
      · split
        · exact h
        · split <;> simp [h]
      · split
        · exact h
        · split
          · exact h
          · split
            split <;> simp [h]

@[simp] theorem State.overflowSeg_canonical {s : State} {t : Tract} {k : XKey} {g : Segment} (h : s.Canonical) :
    (s.overflowSeg t k g).Canonical := by
  unfold State.overflowSeg
  obtain ⟨parcelOf, hparcel⟩ : ∃ f, keyParcel = f := ⟨_, rfl⟩
  rw [hparcel]
  split
  · extract_lets f s1 n s2
    have hs1 : s1.Canonical := by
      refine State.foldl_canonical (fun s3 x hs => ?_) h
      extract_lets pc
      split <;> simp [hs]
    have hs2 : s2.Canonical := by simp [s2, hs1]
    split <;> simp [hs2]
  · exact h

@[simp] theorem State.overflowRows_canonical {s : State} {t : Tract} {k : XKey} {dmod : Nat} (h : s.Canonical) :
    (s.overflowRows t k dmod).Canonical := by
  unfold State.overflowRows
  extract_lets hit
  split
  · exact h
  · extract_lets s1
    have hs1 : s1.Canonical := by simp [s1, h]
    refine State.xferCheck_canonical ?_
    refine State.foldl_canonical (fun s2 x hs => ?_) ?_
    · exact State.overflowSeg_canonical hs
    · exact hs1

@[simp] theorem State.returnContent_canonical {s : State} {p : Port} {w : SlotSend} (h : s.Canonical) : (s.returnContent p w).Canonical := by
  unfold State.returnContent
  extract_lets s1
  have hs1 : s1.Canonical := by simp [s1, h]
  split
  · simp [hs1]
  · split <;> simp [hs1]

@[simp] theorem State.slackEnds_canonical {s : State} {p : Port} {inst : Nat} (h : s.Canonical) : (s.slackEnds p inst).Canonical := by
  unfold State.slackEnds
  refine State.foldl_canonical (fun s1 x hs => ?_) ?_
  · split <;> simp [hs]
  · exact h

@[simp] theorem execSlotFreeze_canonical {p : Port} {inst : Nat} {staged : Bool} {s : State} (h : s.Canonical) :
    Result.Canonical (execSlotFreeze p inst staged s) := by
  unfold execSlotFreeze
  extract_lets up
  rw [Result.canonical_next]
  split
  · exact h
  · extract_lets mark
    split <;> simp [mark, h]

@[simp] theorem execSlotTransmit_canonical {p : Port} {inst : Nat} {s : State} (h : s.Canonical) : Result.Canonical (execSlotTransmit p inst s) := by
  unfold execSlotTransmit
  extract_lets up
  rw [Result.canonical_next]
  split
  · exact h
  · split <;> simp [h]

@[simp] theorem execContentFrame_canonical {p : Port} {h : FrameHdr} {segs : List Segment} {s : State} (hs : s.Canonical) :
    Result.Canonical (execContentFrame p h segs s) := by
  unfold execContentFrame
  rw [Result.canonical_next]
  split
  · exact hs
  · split
    · split
      · simp [hs]
      · extract_lets s1
        have hs1 : s1.Canonical := by
          unfold s1
          split
          · simp [hs]
          · refine State.foldl_canonical (fun s2 x hs1 => ?_) ?_
            · split <;> simp [hs1]
            · exact hs
        simp [hs1]

@[simp] theorem execEmptyFrame_canonical {p : Port} {f : FrameHdr} {s : State} (h : s.Canonical) : Result.Canonical (execEmptyFrame p f s) := by
  simp [execEmptyFrame, h]

@[simp] theorem State.ackContent_canonical {s : State} {w : SlotSend} (h : s.Canonical) : (s.ackContent w).Canonical := by
  unfold State.ackContent
  split
  · exact h
  · extract_lets s1
    have hs1 : s1.Canonical := by
      unfold s1
      refine State.foldl_canonical (fun s2 x hs => ?_) ?_
      · simp [hs]
      · exact h
    simp [hs1]

@[simp] theorem execSack_canonical {p : Port} {table inst step code : Nat} {s : State} (h : s.Canonical) :
    Result.Canonical (execSack p table inst step code s) := by
  unfold execSack
  rw [Result.canonical_next]
  split
  · exact h
  · extract_lets s1 s2 old
    have hs1 : s1.Canonical := by
      unfold s1
      split
      · refine State.foldl_canonical (fun s3 x hs => ?_) ?_
        · simp [hs]
        · exact h
      · exact h
    have hs2 : s2.Canonical := by simp [s2, hs1]
    simp [h, hs2]

@[simp] theorem State.linkFaultOf_canonical {s : State} {t : Tract} {k : XKey} (h : s.Canonical) : (s.linkFaultOf t k).Canonical := by
  unfold State.linkFaultOf
  extract_lets q
  split
  · exact h
  · extract_lets s1
    have hs1 : s1.Canonical := by simp [s1, h]
    split
    · simp [h]
    · split <;> simp [hs1]

@[simp] theorem State.linkFaults_canonical {s : State} {p : Port} (h : s.Canonical) : (s.linkFaults p).Canonical := by
  unfold State.linkFaults
  extract_lets l s1
  have hs1 : s1.Canonical := by simp [s1, h]
  refine State.foldl_canonical (fun s2 x hs => ?_) ?_
  · split <;> simp [hs]
  · exact hs1

/-! Of Sys2Proof/Machine/Links.lean. -/

@[simp] theorem State.setPort_canonical (s : State) (p : Port) (st : Nat) : (s.setPort p st).Canonical ↔ s.Canonical := by
  simp [State.setPort]

@[simp] theorem State.judgePort_canonical (s : State) (p : Port) (m : ParamMsg) : (s.judgePort p m).Canonical ↔ s.Canonical := by
  simp [State.judgePort]

@[simp] theorem State.linksReeval_canonical (s : State) : (s.linksReeval).Canonical ↔ s.Canonical := by
  unfold State.linksReeval
  refine State.foldl_canonical_iff (fun s1 x => ?_) _ _
  split
  · exact Iff.rfl
  · dsimp only
    split <;> simp

@[simp] theorem State.trainTo_canonical (s : State) (p : Port) (n : Nat) : (s.trainTo p n).Canonical ↔ s.Canonical := by
  simp [State.trainTo]

@[simp] theorem execLinkDetect_canonical {p : Port} {s : State} (h : s.Canonical) : Result.Canonical (execLinkDetect p s) := by
  simp [execLinkDetect, h]

@[simp] theorem execLinkUp_canonical {p : Port} {m : ParamMsg} {s : State} (h : s.Canonical) : Result.Canonical (execLinkUp p m s) := by
  simp [execLinkUp, h]

@[simp] theorem State.forgetBuffer_canonical (s : State) (p : Port) : (s.forgetBuffer p).Canonical ↔ s.Canonical := by
  simp [State.forgetBuffer]

@[simp] theorem State.memLost_canonical (s : State) (p : Port) : (s.memLost p).Canonical ↔ s.Canonical := by
  unfold State.memLost
  extract_lets own s1 lost s2 s3 old
  have hs1 : s1.Canonical ↔ s.Canonical := by
    unfold s1
    refine State.foldl_canonical_iff (fun s4 x => ?_) _ _
    simp
  have hs2 : s2.Canonical ↔ s.Canonical := by simp [s2, hs1]
  have hs3 : s3.Canonical ↔ s.Canonical := by
    unfold s3
    refine (State.foldl_canonical_iff (fun s4 x => ?_) _ _).trans ?_
    · split <;> simp
    · exact hs2
  simp [hs3]

@[simp] theorem State.dropPort_canonical {s : State} {p : Port} {cause : Nat} (h : s.Canonical) : (s.dropPort p cause).Canonical := by
  unfold State.dropPort
  extract_lets auto s1 s2 s3 s4 old s5 old1
  have hs1 : s1.Canonical := by simp [s1, h]
  have hs2 : s2.Canonical := by simp [s2, hs1]
  have hs3 : s3.Canonical := by simp [s3, hs2]
  have hs4 : s4.Canonical := by
    unfold s4
    refine State.foldl_canonical (fun s6 x hs => ?_) ?_
    · simp [hs]
    · exact hs3
  have hs5 : s5.Canonical := by simp [s5, hs4]
  simp [hs5]

@[simp] theorem State.takeDown_canonical {s : State} {p : Port} {cause : Nat} (h : s.Canonical) : (s.takeDown p cause).Canonical := by
  simp [State.takeDown, h]

@[simp] theorem execPortDown_canonical {p : Port} {s : State} (h : s.Canonical) : Result.Canonical (execPortDown p s) := by
  simp [execPortDown, h]

@[simp] theorem execResendLimit_canonical {p : Port} {seq : Nat} {s : State} (h : s.Canonical) : Result.Canonical (execResendLimit p seq s) := by
  simp [execResendLimit, h]

@[simp] theorem execAckProgressTimeout_canonical {p : Port} {s : State} (h : s.Canonical) : Result.Canonical (execAckProgressTimeout p s) := by
  simp [execAckProgressTimeout, h]

@[simp] theorem execWindowFullTimeout_canonical {p : Port} {s : State} (h : s.Canonical) : Result.Canonical (execWindowFullTimeout p s) := by
  simp [execWindowFullTimeout, h]

@[simp] theorem execSlotAckTimeout_canonical {p : Port} {inst : Nat} {s : State} (h : s.Canonical) :
    Result.Canonical (execSlotAckTimeout p inst s) := by
  unfold execSlotAckTimeout
  rw [Result.canonical_next]
  split <;> simp [h]

@[simp] theorem execFrameIncompleteTimeout_canonical {p : Port} {inst : Nat} {s : State} (h : s.Canonical) :
    Result.Canonical (execFrameIncompleteTimeout p inst s) := by
  simp [execFrameIncompleteTimeout, h]

@[simp] theorem State.relayMgmt_canonical (s : State) (p : Port) (m : List Byte) : (s.relayMgmt p m).Canonical ↔ s.Canonical := by
  unfold State.relayMgmt
  extract_lets dmod bits taken
  have htaken : taken.Canonical ↔ s.Canonical := by simp [taken]
  split
  · exact htaken
  · split <;> simp [htaken]

@[simp] theorem execFlitReceive_canonical {p : Port} {f : Flit} {s : State} (h : s.Canonical) : Result.Canonical (execFlitReceive p f s) := by
  unfold execFlitReceive
  extract_lets w seq vc l r
  rw [Result.canonical_next]
  split
  · exact h
  · split
    · simp [h]
    · split
      · exact h
      · split
        · exact h
        · split
          · exact h
          · refine State.foldl_canonical (fun s1 x hs => ?_) ?_
            · simp [hs]
            · simp [h]

@[simp] theorem execCtrlFlit_canonical {p : Port} {f : CtrlFlit} {s : State} (h : s.Canonical) : Result.Canonical (execCtrlFlit p f s) := by
  simp [execCtrlFlit, h]

@[simp] theorem execFlitSend_canonical {p : Port} {s : State} (h : s.Canonical) : Result.Canonical (execFlitSend p s) := by
  unfold execFlitSend
  extract_lets l ctrl has
  have hctrl : ctrl.Canonical := by simp [ctrl, h]
  rw [Result.canonical_next]
  split
  · exact h
  · split
    · exact hctrl
    · split
      · simp [h]
      · split
        · exact hctrl
        · split <;> simp [h, hctrl]

@[simp] theorem execParam_canonical {p : Port} {m : ParamMsg} {s : State} (h : s.Canonical) : Result.Canonical (execParam p m s) := by
  simp [execParam, h]

@[simp] theorem execDownreq_canonical {p : Port} {s : State} (h : s.Canonical) : Result.Canonical (execDownreq p s) := by
  simp [execDownreq, h]

@[simp] theorem State.linkDownPut_canonical {s : State} {p : Port} (h : s.Canonical) : (s.linkDownPut p).Canonical := by
  simp [State.linkDownPut, h]

@[simp] theorem execLinkCtlDown_canonical {p : Port} {s : State} (h : s.Canonical) : Result.Canonical (execLinkCtlDown p s) := by
  unfold execLinkCtlDown
  rw [Result.canonical_next]
  refine State.atReg_canonical h (fun s1 hs => ?_)
  simp [hs]

@[simp] theorem execAbortNotice_canonical {smod seq : Nat} {s : State} (h : s.Canonical) : Result.Canonical (execAbortNotice smod seq s) := by
  simp [execAbortNotice, h]

/-! Of Sys2Proof/Machine/Ring.lean. -/

@[simp] theorem State.setRing_canonical (s : State) (st : Nat) : (s.setRing st).Canonical ↔ s.Canonical := by
  simp [State.setRing]

@[simp] theorem State.forwardTime_canonical (s : State) (f : TimeFrame) : (s.forwardTime f).Canonical ↔ s.Canonical := by
  simp [State.forwardTime]

@[simp] theorem State.takeTime_canonical (s : State) (f : TimeFrame) : (s.takeTime f).Canonical ↔ s.Canonical := by
  simp [State.takeTime]

@[simp] theorem execTimeFrame_canonical {f : TimeFrame} {s : State} (h : s.Canonical) : Result.Canonical (execTimeFrame f s) := by
  unfold execTimeFrame
  extract_lets home
  have hhome : home.Canonical := by simp [home, h]
  rw [Result.canonical_next]
  split
  · simp [h]
  · split
    · simp [h, hhome]
    · split <;> simp [h]

@[simp] theorem execSideFrame_canonical {f : SideFrame} {s : State} (h : s.Canonical) : Result.Canonical (execSideFrame f s) := by
  simp [execSideFrame, h]

@[simp] theorem execMasterTimeSend_canonical {s : State} (h : s.Canonical) : Result.Canonical (execMasterTimeSend s) := by
  simp [execMasterTimeSend, h]

@[simp] theorem execTimexferPeriod_canonical {s : State} (h : s.Canonical) : Result.Canonical (execTimexferPeriod s) := by
  simp [execTimexferPeriod, h]

@[simp] theorem execTimexfer_canonical {p : Port} {m : TimeXfer} {s : State} (h : s.Canonical) : Result.Canonical (execTimexfer p m s) := by
  unfold execTimexfer
  extract_lets mine old s1 d
  have hs1 : s1.Canonical := by simp [s1, h]
  rw [Result.canonical_next]
  split
  · exact h
  · split <;> simp [h, hs1]

@[simp] theorem execHoldover_canonical {s : State} (h : s.Canonical) : Result.Canonical (execHoldover s) := by
  simp [execHoldover, h]

@[simp] theorem execTimeLost_canonical {s : State} (h : s.Canonical) : Result.Canonical (execTimeLost s) := by
  simp [execTimeLost, h]

/-! Of Sys2Proof/Machine/MarkHost.lean. -/

@[simp] theorem State.rewriteMark_canonical {s : State} {p : ParcelId} {n : BitVec 10} {w : Word} (h : s.Canonical) :
    (s.rewriteMark p n w).Canonical := by
  unfold State.rewriteMark
  extract_lets u others s1 m s2
  have hs1 : s1.Canonical := (State.foldl_canonical_iff (fun s x => State.freeze_canonical s p x) _ s).2 h
  have hs2 : s2.Canonical := Mem.dropChecks_wf u hs1
  simp [hs2]

@[simp] theorem State.markHwrAct_canonical {s : State} {p : ParcelId} {value : DWord} (h : s.Canonical) : (s.markHwrAct p value).Canonical := by
  unfold State.markHwrAct
  extract_lets n v s'
  have hs' : s'.Canonical := by simp [s', h]
  split
  · simp [h]
  · split <;> simp [hs']

@[simp] theorem State.markHwrPut_canonical {s : State} {p : ParcelId} {value : DWord} {size : Nat} (h : s.Canonical) :
    (s.markHwrPut p value size).Canonical := by
  simp [State.markHwrPut, h]

@[simp] theorem execMarkHwr_canonical {p : ParcelId} {value : DWord} {s : State} (h : s.Canonical) : Result.Canonical (execMarkHwr p value s) := by
  unfold execMarkHwr
  rw [Result.canonical_next]
  refine State.atReg_canonical h (fun s1 hs => ?_)
  simp [hs]

@[simp] theorem State.markBcfgPut_canonical {s : State} {p : ParcelId} {b v size : Nat} (h : s.Canonical) :
    (s.markBcfgPut p b v size).Canonical := by
  simp [State.markBcfgPut, h]

@[simp] theorem execMarkBcfgWrite_canonical {p : ParcelId} {b : Fin 32} {value : DWord} {s : State} (h : s.Canonical) :
    Result.Canonical (execMarkBcfgWrite p b value s) := by
  unfold execMarkBcfgWrite
  rw [Result.canonical_next]
  refine State.atReg_canonical h (fun s1 hs => ?_)
  simp [hs]

/-! Of Sys2Proof/Machine/Scalar.lean. -/

theorem scalarR_canonical {i : Issue} {f : FmtR} {op : Word → Word → Word} {s : State} (h : s.Canonical) :
    Result.Canonical (scalarR i f op s) := by
  simp [scalarR, h]

theorem scalarR1_canonical {i : Issue} {f : FmtR} {op : Word → Word} {s : State} (h : s.Canonical) : Result.Canonical (scalarR1 i f op s) := by
  simp [scalarR1, h]

theorem scalarI_canonical {i : Issue} {f : FmtI} {bad : Bool} {op : Word → BitVec 8 → Word} {s : State} (h : s.Canonical) :
    Result.Canonical (scalarI i f bad op s) := by
  simp [scalarI, h]

theorem scalarIX_canonical {i : Issue} {f : FmtIX} {op : Word → Word → Word} {s : State} (h : s.Canonical) :
    Result.Canonical (scalarIX i f op s) := by
  simp [scalarIX, h]

@[simp] theorem execAdd_canonical {i : Issue} {f : FmtR} {s : State} (h : s.Canonical) : Result.Canonical (execAdd i f s) :=
  State.asSpelled_canonical h (scalarR_canonical h)

@[simp] theorem execSub_canonical {i : Issue} {f : FmtR} {s : State} (h : s.Canonical) : Result.Canonical (execSub i f s) :=
  State.asSpelled_canonical h (scalarR_canonical h)

@[simp] theorem execAnd_canonical {i : Issue} {f : FmtR} {s : State} (h : s.Canonical) : Result.Canonical (execAnd i f s) :=
  State.asSpelled_canonical h (scalarR_canonical h)

@[simp] theorem execOr_canonical {i : Issue} {f : FmtR} {s : State} (h : s.Canonical) : Result.Canonical (execOr i f s) :=
  State.asSpelled_canonical h (scalarR_canonical h)

@[simp] theorem execXor_canonical {i : Issue} {f : FmtR} {s : State} (h : s.Canonical) : Result.Canonical (execXor i f s) :=
  State.asSpelled_canonical h (scalarR_canonical h)

@[simp] theorem execShl_canonical {i : Issue} {f : FmtR} {s : State} (h : s.Canonical) : Result.Canonical (execShl i f s) :=
  State.asSpelled_canonical h (scalarR_canonical h)

@[simp] theorem execShr_canonical {i : Issue} {f : FmtR} {s : State} (h : s.Canonical) : Result.Canonical (execShr i f s) :=
  State.asSpelled_canonical h (scalarR_canonical h)

@[simp] theorem execSra_canonical {i : Issue} {f : FmtR} {s : State} (h : s.Canonical) : Result.Canonical (execSra i f s) :=
  State.asSpelled_canonical h (scalarR_canonical h)

@[simp] theorem execMul_canonical {i : Issue} {f : FmtR} {s : State} (h : s.Canonical) : Result.Canonical (execMul i f s) :=
  State.asSpelled_canonical h (scalarR_canonical h)

@[simp] theorem execMulhu_canonical {i : Issue} {f : FmtR} {s : State} (h : s.Canonical) : Result.Canonical (execMulhu i f s) :=
  State.asSpelled_canonical h (scalarR_canonical h)

@[simp] theorem execMulhs_canonical {i : Issue} {f : FmtR} {s : State} (h : s.Canonical) : Result.Canonical (execMulhs i f s) :=
  State.asSpelled_canonical h (scalarR_canonical h)

@[simp] theorem execMin_canonical {i : Issue} {f : FmtR} {s : State} (h : s.Canonical) : Result.Canonical (execMin i f s) :=
  State.asSpelled_canonical h (scalarR_canonical h)

@[simp] theorem execMax_canonical {i : Issue} {f : FmtR} {s : State} (h : s.Canonical) : Result.Canonical (execMax i f s) :=
  State.asSpelled_canonical h (scalarR_canonical h)

@[simp] theorem execMinu_canonical {i : Issue} {f : FmtR} {s : State} (h : s.Canonical) : Result.Canonical (execMinu i f s) :=
  State.asSpelled_canonical h (scalarR_canonical h)

@[simp] theorem execMaxu_canonical {i : Issue} {f : FmtR} {s : State} (h : s.Canonical) : Result.Canonical (execMaxu i f s) :=
  State.asSpelled_canonical h (scalarR_canonical h)

@[simp] theorem execClz_canonical {i : Issue} {f : FmtR} {s : State} (h : s.Canonical) : Result.Canonical (execClz i f s) :=
  State.asSpelled_canonical h (scalarR1_canonical h)

@[simp] theorem execPopc_canonical {i : Issue} {f : FmtR} {s : State} (h : s.Canonical) : Result.Canonical (execPopc i f s) :=
  State.asSpelled_canonical h (scalarR1_canonical h)

@[simp] theorem execExtu_canonical {i : Issue} {f : FmtR} {s : State} (h : s.Canonical) : Result.Canonical (execExtu i f s) :=
  State.asSpelled_canonical h (scalarR_canonical h)

@[simp] theorem execAddi_canonical {i : Issue} {f : FmtI} {s : State} (h : s.Canonical) : Result.Canonical (execAddi i f s) :=
  State.asSpelled_canonical h (scalarI_canonical h)

@[simp] theorem execAndi_canonical {i : Issue} {f : FmtI} {s : State} (h : s.Canonical) : Result.Canonical (execAndi i f s) :=
  State.asSpelled_canonical h (scalarI_canonical h)

@[simp] theorem execOri_canonical {i : Issue} {f : FmtI} {s : State} (h : s.Canonical) : Result.Canonical (execOri i f s) :=
  State.asSpelled_canonical h (scalarI_canonical h)

@[simp] theorem execXori_canonical {i : Issue} {f : FmtI} {s : State} (h : s.Canonical) : Result.Canonical (execXori i f s) :=
  State.asSpelled_canonical h (scalarI_canonical h)

@[simp] theorem execShli_canonical {i : Issue} {f : FmtI} {s : State} (h : s.Canonical) : Result.Canonical (execShli i f s) :=
  State.asSpelled_canonical h (scalarI_canonical h)

@[simp] theorem execShri_canonical {i : Issue} {f : FmtI} {s : State} (h : s.Canonical) : Result.Canonical (execShri i f s) :=
  State.asSpelled_canonical h (scalarI_canonical h)

@[simp] theorem execSrai_canonical {i : Issue} {f : FmtI} {s : State} (h : s.Canonical) : Result.Canonical (execSrai i f s) :=
  State.asSpelled_canonical h (scalarI_canonical h)

@[simp] theorem execMuli_canonical {i : Issue} {f : FmtI} {s : State} (h : s.Canonical) : Result.Canonical (execMuli i f s) :=
  State.asSpelled_canonical h (scalarI_canonical h)

@[simp] theorem execAddi32_canonical {i : Issue} {f : FmtIX} {s : State} (h : s.Canonical) : Result.Canonical (execAddi32 i f s) :=
  State.asSpelled_canonical h (scalarIX_canonical h)

@[simp] theorem execAndi32_canonical {i : Issue} {f : FmtIX} {s : State} (h : s.Canonical) : Result.Canonical (execAndi32 i f s) :=
  State.asSpelled_canonical h (scalarIX_canonical h)

@[simp] theorem execOri32_canonical {i : Issue} {f : FmtIX} {s : State} (h : s.Canonical) : Result.Canonical (execOri32 i f s) :=
  State.asSpelled_canonical h (scalarIX_canonical h)

@[simp] theorem execXori32_canonical {i : Issue} {f : FmtIX} {s : State} (h : s.Canonical) : Result.Canonical (execXori32 i f s) :=
  State.asSpelled_canonical h (scalarIX_canonical h)

@[simp] theorem execMuli32_canonical {i : Issue} {f : FmtIX} {s : State} (h : s.Canonical) : Result.Canonical (execMuli32 i f s) :=
  State.asSpelled_canonical h (scalarIX_canonical h)

@[simp] theorem execLi_canonical {i : Issue} {f : FmtIX} {s : State} (h : s.Canonical) : Result.Canonical (execLi i f s) := by
  unfold execLi
  refine State.asSpelled_canonical h ?_
  simp [h]

theorem compare_canonical {i : Issue} {f : FmtC} {op : Word → Word → Bool} {s : State} (h : s.Canonical) :
    Result.Canonical (compare i f op s) := by
  unfold compare
  split <;> simp [h]

@[simp] theorem execCeq_canonical {i : Issue} {f : FmtC} {s : State} (h : s.Canonical) : Result.Canonical (execCeq i f s) :=
  State.asSpelled_canonical h (compare_canonical h)

@[simp] theorem execCne_canonical {i : Issue} {f : FmtC} {s : State} (h : s.Canonical) : Result.Canonical (execCne i f s) :=
  State.asSpelled_canonical h (compare_canonical h)

@[simp] theorem execClt_canonical {i : Issue} {f : FmtC} {s : State} (h : s.Canonical) : Result.Canonical (execClt i f s) :=
  State.asSpelled_canonical h (compare_canonical h)

@[simp] theorem execCltu_canonical {i : Issue} {f : FmtC} {s : State} (h : s.Canonical) : Result.Canonical (execCltu i f s) :=
  State.asSpelled_canonical h (compare_canonical h)

@[simp] theorem execCge_canonical {i : Issue} {f : FmtC} {s : State} (h : s.Canonical) : Result.Canonical (execCge i f s) :=
  State.asSpelled_canonical h (compare_canonical h)

@[simp] theorem execCgeu_canonical {i : Issue} {f : FmtC} {s : State} (h : s.Canonical) : Result.Canonical (execCgeu i f s) :=
  State.asSpelled_canonical h (compare_canonical h)

theorem predOp_canonical {i : Issue} {f : FmtR} {op : Bool → Bool → Bool} {s : State} (h : s.Canonical) : Result.Canonical (predOp i f op s) := by
  simp [predOp, h]

@[simp] theorem execPand_canonical {i : Issue} {f : FmtR} {s : State} (h : s.Canonical) : Result.Canonical (execPand i f s) :=
  State.asSpelled_canonical h (predOp_canonical h)

@[simp] theorem execPor_canonical {i : Issue} {f : FmtR} {s : State} (h : s.Canonical) : Result.Canonical (execPor i f s) :=
  State.asSpelled_canonical h (predOp_canonical h)

@[simp] theorem execPxor_canonical {i : Issue} {f : FmtR} {s : State} (h : s.Canonical) : Result.Canonical (execPxor i f s) :=
  State.asSpelled_canonical h (predOp_canonical h)

@[simp] theorem execPnot_canonical {i : Issue} {f : FmtR} {s : State} (h : s.Canonical) : Result.Canonical (execPnot i f s) := by
  unfold execPnot
  refine State.asSpelled_canonical h ?_
  simp [h]

@[simp] theorem execBr_canonical {i : Issue} {off : BitVec 22} {s : State} (h : s.Canonical) : Result.Canonical (execBr i off s) := by
  unfold execBr
  refine State.asSpelled_canonical h ?_
  rw [Result.canonical_next]
  refine State.issue_canonical h (fun s1 hs => ?_)
  simp [hs]

@[simp] theorem execCall_canonical {i : Issue} {off : BitVec 22} {s : State} (h : s.Canonical) : Result.Canonical (execCall i off s) := by
  unfold execCall
  refine State.asSpelled_canonical h ?_
  rw [Result.canonical_next]
  refine State.issue_canonical h (fun s1 hs => ?_)
  simp [hs]

theorem addrOp_canonical {i : Issue} {bad : Bool} {reads : List CReg} {f : Core → Core} {s : State} (h : s.Canonical) :
    Result.Canonical (addrOp i bad reads f s) := by
  simp [addrOp, h]

@[simp] theorem execAadd_canonical {i : Issue} {f : FmtR} {s : State} (h : s.Canonical) : Result.Canonical (execAadd i f s) :=
  State.asSpelled_canonical h (addrOp_canonical h)

@[simp] theorem execAaddu_canonical {i : Issue} {f : FmtR} {s : State} (h : s.Canonical) : Result.Canonical (execAaddu i f s) :=
  State.asSpelled_canonical h (addrOp_canonical h)

@[simp] theorem execAmov_canonical {i : Issue} {f : FmtR} {s : State} (h : s.Canonical) : Result.Canonical (execAmov i f s) :=
  State.asSpelled_canonical h (addrOp_canonical h)

@[simp] theorem execAfromg_canonical {i : Issue} {f : FmtR} {s : State} (h : s.Canonical) : Result.Canonical (execAfromg i f s) :=
  State.asSpelled_canonical h (addrOp_canonical h)

@[simp] theorem execAlog_canonical {i : Issue} {f : FmtR} {s : State} (h : s.Canonical) : Result.Canonical (execAlog i f s) :=
  State.asSpelled_canonical h (addrOp_canonical h)

@[simp] theorem execAhig_canonical {i : Issue} {f : FmtR} {s : State} (h : s.Canonical) : Result.Canonical (execAhig i f s) :=
  State.asSpelled_canonical h (addrOp_canonical h)

@[simp] theorem execAsethi_canonical {i : Issue} {f : FmtR} {s : State} (h : s.Canonical) : Result.Canonical (execAsethi i f s) :=
  State.asSpelled_canonical h (addrOp_canonical h)

@[simp] theorem execAshl_canonical {i : Issue} {f : FmtR} {s : State} (h : s.Canonical) : Result.Canonical (execAshl i f s) :=
  State.asSpelled_canonical h (addrOp_canonical h)

@[simp] theorem execGets_canonical {i : Issue} {f : FmtR} {s : State} (h : s.Canonical) : Result.Canonical (execGets i f s) := by
  unfold execGets
  extract_lets v
  refine State.asSpelled_canonical h ?_
  simp [h]

@[simp] theorem execGetsa_canonical {i : Issue} {f : FmtR} {s : State} (h : s.Canonical) : Result.Canonical (execGetsa i f s) := by
  unfold execGetsa
  extract_lets v
  refine State.asSpelled_canonical h ?_
  simp [h]

@[simp] theorem execPuts_canonical {i : Issue} {f : FmtR} {s : State} (h : s.Canonical) : Result.Canonical (execPuts i f s) := by
  unfold execPuts
  refine State.asSpelled_canonical h ?_
  simp [h]

@[simp] theorem execJmp_canonical {i : Issue} {f : FmtR} {s : State} (h : s.Canonical) : Result.Canonical (execJmp i f s) := by
  unfold execJmp
  extract_lets rsv
  refine State.asSpelled_canonical h ?_
  rw [Result.canonical_next]
  refine State.issue_canonical h (fun s1 hs => ?_)
  simp [hs]

@[simp] theorem execAaddi_canonical {i : Issue} {f : FmtRX} {s : State} (h : s.Canonical) : Result.Canonical (execAaddi i f s) := by
  unfold execAaddi
  refine State.asSpelled_canonical h ?_
  simp [h]

@[simp] theorem execAlo_canonical {i : Issue} {f : FmtRX} {s : State} (h : s.Canonical) : Result.Canonical (execAlo i f s) := by
  unfold execAlo
  refine State.asSpelled_canonical h ?_
  simp [h]

@[simp] theorem execAhi_canonical {i : Issue} {f : FmtRX} {s : State} (h : s.Canonical) : Result.Canonical (execAhi i f s) := by
  unfold execAhi
  refine State.asSpelled_canonical h ?_
  simp [h]

/-! Of Sys2Proof/Machine/Snapshot.lean. -/

@[simp] theorem State.buddyWrite_canonical (s : State) (ga : Nat) (bs : List Byte) : (s.buddyWrite ga bs).Canonical ↔ s.Canonical := by
  unfold State.buddyWrite
  refine State.foldl_canonical_iff (fun s1 x => ?_) _ _
  simp

@[simp] theorem State.snapWrite_canonical {s : State} {p : PlanImage} {off : Nat} {bs : List Byte} (h : s.Canonical) :
    (s.snapWrite p off bs).Canonical := by
  simp [State.snapWrite, h]

@[simp] theorem State.snapWrites_canonical {s : State} {p : PlanImage} (h : s.Canonical) : (s.snapWrites p).Canonical := by
  unfold State.snapWrites
  extract_lets rs base s'
  have hs' : s'.Canonical := by
    unfold s'
    refine State.foldl_canonical (fun s1 x hs => ?_) ?_
    · simp [hs]
    · exact h
  simp [hs']

@[simp] theorem State.setAdvice_canonical (s : State) : (s.setAdvice).Canonical ↔ s.Canonical := by
  simp [State.setAdvice]

@[simp] theorem State.setStep_canonical (s : State) (p : ParcelId) (n : Nat) : (s.setStep p n).Canonical ↔ s.Canonical := by
  simp [State.setStep]

@[simp] theorem State.replanParcel_canonical (s : State) (p : ParcelId) : (s.replanParcel p).Canonical ↔ s.Canonical := by
  unfold State.replanParcel
  extract_lets s1 s2 h
  have hs1 : s1.Canonical ↔ s.Canonical := by
    unfold s1
    refine State.foldl_canonical_iff (fun s3 x => ?_) _ _
    simp
  have hs2 : s2.Canonical ↔ s.Canonical := by simp [s2, hs1]
  simp [hs2]

@[simp] theorem State.ageReplan_canonical (s : State) : (s.ageReplan).Canonical ↔ s.Canonical := by
  unfold State.ageReplan
  extract_lets s1 old
  have hs1 : s1.Canonical ↔ s.Canonical := by
    unfold s1
    refine State.foldl_canonical_iff (fun s2 x => ?_) _ _
    simp
  simp [hs1]

@[simp] theorem State.screen_canonical (s : State) (p : ParcelId) : (s.screen p).Canonical ↔ s.Canonical := by
  unfold State.screen
  refine State.foldl_canonical_iff (fun s1 x => ?_) _ _
  simp

@[simp] theorem State.screenFailed_canonical (s : State) (p : ParcelId) : (s.screenFailed p).Canonical ↔ s.Canonical := by
  simp [State.screenFailed]

/-! Of Sys2Proof/Machine/Boundary.lean. -/

@[simp] theorem State.modBnd_canonical (s : State) (f : Boundary → Boundary) : (s.modBnd f).Canonical ↔ s.Canonical := by
  simp [State.modBnd]

@[simp] theorem State.bndBreak_canonical (s : State) : (s.bndBreak).Canonical ↔ s.Canonical := by
  simp [State.bndBreak]

@[simp] theorem State.sendBoundary_canonical (s : State) (dst : Nat) (m : BoundaryMsg) : (s.sendBoundary dst m).Canonical ↔ s.Canonical := by
  unfold State.sendBoundary
  split <;> simp

@[simp] theorem State.applyChanges_canonical {s : State} {p : PlanImage} (h : s.Canonical) : (s.applyChanges p).Canonical := by
  unfold State.applyChanges
  refine State.foldl_canonical (fun s1 x hs => ?_) ?_
  · extract_lets o
    split <;> simp [hs]
  · exact h

@[simp] theorem State.ownTallies_canonical {s : State} {p : PlanImage} (h : s.Canonical) : (s.ownTallies p).Canonical := by
  unfold State.ownTallies
  refine State.foldl_canonical (fun s1 x hs => ?_) ?_
  · refine State.foldl_canonical (fun s2 x1 hs1 => ?_) ?_
    · refine State.foldl_canonical (fun s3 x2 hs2 => ?_) ?_
      · simp [hs2]
      · exact hs1
    · exact hs
  · exact h

@[simp] theorem State.agreed_canonical (s : State) (m : BoundaryMsg) : (s.agreed m).Canonical ↔ s.Canonical := by
  simp [State.agreed]

@[simp] theorem State.voted_canonical {s : State} {m : BoundaryMsg} (h : s.Canonical) : (s.voted m).Canonical := by
  unfold State.voted
  extract_lets left old s1 old1 s2 old2
  have hs1 : s1.Canonical := by simp [s1, h]
  have hs2 : s2.Canonical := by simp [s2, hs1]
  split <;> simp [h, hs2]

@[simp] theorem State.bndResult_canonical {s : State} {m : BoundaryMsg} (h : s.Canonical) : (s.bndResult m).Canonical := by
  unfold State.bndResult
  dsimp only
  split
  · rw [State.agreed_canonical]
    rw [State.modBnd_canonical]
    refine State.foldl_canonical (fun s1 x hs => ?_) ?_
    · simp [hs]
    · exact h
  · refine State.voted_canonical ?_
    rw [State.modBnd_canonical]
    refine State.foldl_canonical (fun s1 x hs => ?_) ?_
    · simp [hs]
    · exact h
  · rw [State.modBnd_canonical]
    refine State.foldl_canonical (fun s1 x hs => ?_) ?_
    · simp [hs]
    · exact h

@[simp] theorem State.bndPump_canonical {s : State} (h : s.Canonical) : (s.bndPump).Canonical := by
  unfold State.bndPump
  extract_lets b
  split
  · exact h
  · extract_lets all
    split
    · split <;> simp [h]
    · exact h

@[simp] theorem State.beginAgree_canonical {s : State} (h : s.Canonical) : (s.beginAgree).Canonical := by
  simp [State.beginAgree, h]

@[simp] theorem State.closureCheck_canonical (s : State) : (s.closureCheck).1.Canonical ↔ s.Canonical := by
  unfold State.closureCheck
  dsimp only
  refine (State.foldl_canonical_iff (fun s1 x => ?_) _ _).trans ?_
  · simp
  · refine State.foldl_canonical_iff (fun s1 x => ?_) _ _
    simp

@[simp] theorem State.postTally_canonical {s : State} {p : PlanImage} {i : Nat} {l : LayerRec} {e : Nat} (h : s.Canonical) :
    (s.postTally p i l e).Canonical := by
  simp [State.postTally, h]

@[simp] theorem State.postTallies_canonical {s : State} (h : s.Canonical) : (s.postTallies).Canonical := by
  unfold State.postTallies
  split
  · exact h
  · refine State.foldl_canonical (fun s1 x hs => ?_) ?_
    · refine State.foldl_canonical (fun s2 x1 hs1 => ?_) ?_
      · split <;> simp [hs1]
      · exact hs
    · exact h

@[simp] theorem execStepEnd_canonical {s : State} (h : s.Canonical) : Result.Canonical (execStepEnd s) := by
  unfold execStepEnd
  rw [Result.canonical_next]
  split
  · exact h
  · dsimp only
    split
    · simp [h]
    · split <;> simp [h]

@[simp] theorem execSnapshotDone_canonical {r : SnapResult} {s : State} (h : s.Canonical) : Result.Canonical (execSnapshotDone r s) := by
  unfold execSnapshotDone
  extract_lets s1
  have hs1 : s1.Canonical := by simp [s1, h]
  rw [Result.canonical_next]
  split
  · extract_lets failed
    have hfailed : failed.Canonical := by simp [failed, hs1]
    split
    · exact h
    · split
      · exact hfailed
      · extract_lets s2 old s3 old1 s4 on now s5 bad
        have hs2 : s2.Canonical := by simp [s2, hs1]
        have hs3 : s3.Canonical := by simp [s3, hs2]
        have hs4 : s4.Canonical := by simp [s4, hs3]
        have hs5 : s5.Canonical := by
          unfold s5
          refine State.foldl_canonical (fun s6 x hs => ?_) ?_
          · simp [hs]
          · exact hs4
        split
        · exact hfailed
        · split
          · exact h
          · split
            · simp [hs5]
            · rw [State.bndBreak_canonical]
              refine State.foldl_canonical (fun s6 x hs => ?_) ?_
              · simp [hs]
              · exact hs5
  · exact h

@[simp] theorem execBoundary_canonical {m : BoundaryMsg} {s : State} (h : s.Canonical) : Result.Canonical (execBoundary m s) := by
  simp [execBoundary, h]

@[simp] theorem execPlanVote_canonical {s : State} (h : s.Canonical) : Result.Canonical (execPlanVote s) := by
  simp [execPlanVote, h]

@[simp] theorem State.staleStart_canonical (s : State) : (s.staleStart).Canonical ↔ s.Canonical := by
  simp [State.staleStart]

@[simp] theorem execStepStart_canonical {s : State} (h : s.Canonical) : Result.Canonical (execStepStart s) := by
  unfold execStepStart
  extract_lets s1 old s2 s3 base s4 old1 old2 old3 old4
  have hs1 : s1.Canonical := by simp [s1, h]
  have hs2 : s2.Canonical := by simp [s2, hs1]
  have hs3 : s3.Canonical := by simp [s3, hs2]
  have hs4 : s4.Canonical := by
    unfold s4
    refine State.foldl_canonical (fun s5 x hs => ?_) ?_
    · simp [hs]
    · exact hs3
  simp [h, hs4]

@[simp] theorem execBoundaryTimeout_canonical {s : State} (h : s.Canonical) : Result.Canonical (execBoundaryTimeout s) := by
  simp [execBoundaryTimeout, h]

/-! Of Sys2Proof/Machine/Home.lean. -/

@[simp] theorem State.refuseWrite_canonical (s : State) (t : Tract) (src : RemoteSrc) (key st : Nat) :
    (s.refuseWrite t src key st).Canonical ↔ s.Canonical := by
  unfold State.refuseWrite
  extract_lets s1
  have hs1 : s1.Canonical ↔ s.Canonical := by
    unfold s1
    split <;> simp
  simp [hs1]

@[simp] theorem State.homeWritten_canonical (s : State) (t : Tract) (src : RemoteSrc) (key n : Nat) (r : Response) :
    (s.homeWritten t src key n r).Canonical ↔ s.Canonical := by
  simp [State.homeWritten]

@[simp] theorem State.homeLoad_canonical {s : State} {src : RemoteSrc} {key n : Nat} (h : s.Canonical) : (s.homeLoad src key n).Canonical := by
  unfold State.homeLoad
  split
  · simp [h]
  · split <;> simp [h]

@[simp] theorem State.homeStore_canonical {s : State} {t : Tract} {src : RemoteSrc} {key : Nat} {bs : List MByte} (h : s.Canonical) :
    (s.homeStore t src key bs).Canonical := by
  unfold State.homeStore
  split
  · rw [State.homeWritten_canonical]
    refine State.foldl_canonical (fun s1 x hs => ?_) ?_
    · simp [hs]
    · exact h
  · simp [h]

@[simp] theorem State.homeAtom_canonical {s : State} {t : Tract} {src : RemoteSrc} {key op : Nat} {w64 : Bool} {opd cmp : Nat} (h : s.Canonical) :
    (s.homeAtom t src key op w64 opd cmp).Canonical := by
  unfold State.homeAtom
  extract_lets n old bad s1
  have hs1 : s1.Canonical := by simp [s1, h]
  split <;> simp [h, hs1]

@[simp] theorem State.homeMark_canonical {s : State} {src : RemoteSrc} {addr : Nat} {op : MarkOp} (h : s.Canonical) :
    (s.homeMark src addr op).Canonical := by
  unfold State.homeMark
  extract_lets n
  split
  · extract_lets frozen next wait
    split <;> simp [next, wait, h]
  · simp [h]
  · simp [h]

@[simp] theorem State.homeApply_canonical {s : State} {t : Tract} {src : RemoteSrc} {addr : Nat} {op : HomeOp} (h : s.Canonical) :
    (s.homeApply t src addr op).Canonical := by
  unfold State.homeApply
  extract_lets key
  split <;> simp [h]

@[simp] theorem State.homeServe_canonical {s : State} {t : Tract} {src : RemoteSrc} {addr : Nat} {op : HomeOp} {posted : Bool} (h : s.Canonical) :
    (s.homeServe t src addr op posted).Canonical := by
  unfold State.homeServe
  extract_lets s1
  have hs1 : s1.Canonical := by simp [s1, h]
  split <;> simp [hs1]

@[simp] theorem State.replicaLoad_canonical {s : State} {t : Tract} {src : RemoteSrc} {key n i : Nat} {r : ReplRegion} (h : s.Canonical) :
    (s.replicaLoad t src key n i r).Canonical := by
  simp [State.replicaLoad, h]

@[simp] theorem State.claim_canonical (s : State) (p : ParcelId) (off : Nat) : (s.claim p off).1.Canonical ↔ s.Canonical := by
  unfold State.claim
  extract_lets k n v cfg l full s1 old at_
  have hs1 : s1.Canonical ↔ s.Canonical := by simp [s1]
  split
  · exact Iff.rfl
  · split
    · exact Iff.rfl
    · split <;> simp [hs1]

@[simp] theorem State.claimAnswer_canonical (s : State) (src : RemoteSrc) (addr : Nat) : (s.claimAnswer src addr).Canonical ↔ s.Canonical := by
  unfold State.claimAnswer
  split <;> simp

@[simp] theorem State.haTake_canonical {s : State} {t st : Tract} {e : RaEntry} (h : s.Canonical) : (s.haTake t st e).Canonical := by
  unfold State.haTake
  extract_lets key home repl
  have hhome : home.Canonical := by simp [home, h]
  split
  · exact h
  · split
    · exact h
    · split <;> simp [h, hhome]

@[simp] theorem State.haServeLink_canonical {s : State} {t : Tract} {q : InReq} (h : s.Canonical) : (s.haServeLink t q).Canonical := by
  simp [State.haServeLink, h]

@[simp] theorem execHomeAgentRequest_canonical {t : Tract} {src : HaSource} {s : State} (h : s.Canonical) :
    Result.Canonical (execHomeAgentRequest t src s) := by
  unfold execHomeAgentRequest
  rw [Result.canonical_next]
  split
  · exact h
  · split <;> split <;> simp [h]

@[simp] theorem execCombiningEntryApply_canonical {t : Tract} {k : Nat} {s : State} (h : s.Canonical) :
    Result.Canonical (execCombiningEntryApply t k s) := by
  unfold execCombiningEntryApply
  rw [Result.canonical_next]
  split <;> simp [h]

@[simp] theorem execStashClaim_canonical {p : ParcelId} {src : Tract} {tag : Nat} {s : State} (h : s.Canonical) :
    Result.Canonical (execStashClaim p src tag s) := by
  unfold execStashClaim
  rw [Result.canonical_next]
  split
  · exact h
  · split <;> simp [h]

@[simp] theorem State.waitAnswer_canonical (s : State) (c : CoreId) (gen : Nat) (r : Response) :
    (s.waitAnswer c gen r).Canonical ↔ s.Canonical := by
  unfold State.waitAnswer
  extract_lets pc s1
  have hs1 : s1.Canonical ↔ s.Canonical := by simp [s1]
  split <;> simp [hs1]

@[simp] theorem State.signalAnswer_canonical (s : State) (q : QueueId) (gen addr status : Nat) :
    (s.signalAnswer q gen addr status).Canonical ↔ s.Canonical := by
  unfold State.signalAnswer
  extract_lets s1
  have hs1 : s1.Canonical ↔ s.Canonical := by simp [s1]
  split <;> simp [hs1]

@[simp] theorem State.engFailed_canonical {s : State} {t : Tract} {g : Engine} {id : Nat} {write : Bool} {addr status : Nat} (h : s.Canonical) :
    (s.engFailed t g id write addr status).Canonical := by
  unfold State.engFailed
  extract_lets q
  split
  · exact h
  · split
    · extract_lets code
      split <;> simp [code, h]
    · extract_lets code
      split <;> simp [code, h]

@[simp] theorem State.complete_canonical {s : State} {t : Tract} {e : RaEntry} {r : Response} (h : s.Canonical) :
    (s.complete t e r).Canonical := by
  unfold State.complete
  extract_lets s1 s2
  have hs1 : s1.Canonical := by
    unfold s1
    split <;> simp [h]
  have hs2 : s2.Canonical := by simp [s2, hs1]
  split <;> simp [hs2]

@[simp] theorem State.raCheck_canonical (s : State) (t : Tract) : (s.raCheck t).Canonical ↔ s.Canonical := by
  simp [State.raCheck]

@[simp] theorem execFabricCompletion_canonical {t : Tract} {tag : Nat} {s : State} (h : s.Canonical) :
    Result.Canonical (execFabricCompletion t tag s) := by
  unfold execFabricCompletion
  rw [Result.canonical_next]
  split
  · exact h
  · split <;> simp [h]

@[simp] theorem execEngineOperationTimeout_canonical {t : Tract} {tag : Nat} {s : State} (h : s.Canonical) :
    Result.Canonical (execEngineOperationTimeout t tag s) := by
  unfold execEngineOperationTimeout
  rw [Result.canonical_next]
  split
  · exact h
  · split <;> simp [h]

@[simp] theorem State.relay_canonical (s : State) (p : Port) (m : MemMsg) : (s.relay p m).Canonical ↔ s.Canonical := by
  unfold State.relay
  extract_lets refuse
  split
  · simp [refuse]
  · split
    · simp [refuse]
    · split
      · simp [refuse]
      · split <;> simp

@[simp] theorem State.takeIn_canonical (s : State) (p : Port) (m : MemMsg) : (s.takeIn p m).Canonical ↔ s.Canonical := by
  unfold State.takeIn
  extract_lets refuse old
  split
  · simp [refuse]
  · split
    · simp [refuse]
    · split <;> simp

@[simp] theorem State.takeResponse_canonical (s : State) (p : Port) (m : MemMsg) : (s.takeResponse p m).Canonical ↔ s.Canonical := by
  unfold State.takeResponse
  extract_lets s1 same back s2
  have hs1 : s1.Canonical ↔ s.Canonical := by simp [s1]
  have hs2 : s2.Canonical ↔ s.Canonical := by simp [s2]
  split
  · split <;> simp [hs1]
  · split
    · simp [hs2]
    · split <;> simp [hs2]

@[simp] theorem execMemoryMessage_canonical {p : Port} {m : MemMsg} {s : State} (h : s.Canonical) : Result.Canonical (execMemoryMessage p m s) := by
  simp [execMemoryMessage, h]

@[simp] theorem State.rtabRecord_canonical (s : State) : (s.rtabRecord).Canonical ↔ s.Canonical := by
  simp [State.rtabRecord]

@[simp] theorem State.advancePut_canonical (s : State) : (s.advancePut).Canonical ↔ s.Canonical := by
  simp [State.advancePut]

@[simp] theorem execEpochAdvance_canonical {s : State} (h : s.Canonical) : Result.Canonical (execEpochAdvance s) := by
  unfold execEpochAdvance
  rw [Result.canonical_next]
  refine State.atReg_canonical h (fun s1 hs => ?_)
  simp [hs]

@[simp] theorem State.drainAway_canonical (s : State) : (s.drainAway).Canonical ↔ s.Canonical := by
  simp [State.drainAway]

@[simp] theorem execEpochDrainEnd_canonical {s : State} (h : s.Canonical) : Result.Canonical (execEpochDrainEnd s) := by
  unfold execEpochDrainEnd
  extract_lets s1 old s2 s3 old1 s4
  have hs1 : s1.Canonical := by simp [s1, h]
  have hs2 : s2.Canonical := by
    unfold s2
    split
    · exact hs1
    · split <;> simp [hs1]
  have hs3 : s3.Canonical := by simp [s3, hs2]
  have hs4 : s4.Canonical := by simp [s4, hs3]
  rw [Result.canonical_next]
  split
  · exact h
  · refine State.foldl_canonical (fun s5 x hs => ?_) ?_
    · simp [hs]
    · exact hs4

@[simp] theorem execFabStall_canonical {t : Tract} {s : State} (h : s.Canonical) : Result.Canonical (execFabStall t s) := by
  simp [execFabStall, h]

/-! Of Sys2Proof/Machine/Errors.lean. -/

@[simp] theorem State.writeRecord_canonical (s : State) (r : ErrRec) : (s.writeRecord r).Canonical ↔ s.Canonical := by
  simp [State.writeRecord]

@[simp] theorem State.cdLostNote_canonical (s : State) : (s.cdLostNote).Canonical ↔ s.Canonical := by
  simp [State.cdLostNote]

@[simp] theorem State.cdForward_canonical (s : State) : (s.cdForward).Canonical ↔ s.Canonical := by
  unfold State.cdForward
  extract_lets old
  split <;> simp

@[simp] theorem State.tractLostNote_canonical (s : State) (t : Tract) : (s.tractLostNote t).Canonical ↔ s.Canonical := by
  simp [State.tractLostNote]

@[simp] theorem State.tractForward_canonical (s : State) (t : Tract) : (s.tractForward t).Canonical ↔ s.Canonical := by
  unfold State.tractForward
  split <;> simp

@[simp] theorem execErrorRecordForward_canonical {c : CollectorId} {s : State} (h : s.Canonical) : Result.Canonical (execErrorRecordForward c s) := by
  unfold execErrorRecordForward
  rw [Result.canonical_next]
  split <;> simp [h]

@[simp] theorem State.evrCfgPut_canonical (s : State) (v size : Nat) : (s.evrCfgPut v size).Canonical ↔ s.Canonical := by
  simp [State.evrCfgPut]

@[simp] theorem execEvrCfgWrite_canonical {value : Word} {s : State} (h : s.Canonical) : Result.Canonical (execEvrCfgWrite value s) := by
  unfold execEvrCfgWrite
  rw [Result.canonical_next]
  refine State.atReg_canonical h (fun s1 hs => ?_)
  simp [hs]

@[simp] theorem State.endPrograms_canonical (s : State) : (s.endPrograms).Canonical ↔ s.Canonical := by
  unfold State.endPrograms
  extract_lets s1 s2
  have hs1 : s1.Canonical ↔ s.Canonical := by simp [s1]
  have hs2 : s2.Canonical ↔ s.Canonical := by
    unfold s2
    refine State.foldl_canonical_iff (fun s3 x => ?_) _ _
    simp
  simp [hs2]

@[simp] theorem State.returnBuffers_canonical (s : State) : (s.returnBuffers).Canonical ↔ s.Canonical := by
  unfold State.returnBuffers
  dsimp only
  refine (State.foldl_canonical_iff (fun s1 x => ?_) _ _).trans ?_
  · simp
  · refine State.foldl_canonical_iff (fun s1 x => ?_) _ _
    simp

@[simp] theorem State.clearCounters_canonical (s : State) : (s.clearCounters).Canonical ↔ s.Canonical := by
  unfold State.clearCounters
  refine State.foldl_canonical_iff (fun s1 x => ?_) _ _
  simp

@[simp] theorem State.drainCollector_canonical (s : State) (t : Tract) : (s.drainCollector t).Canonical ↔ s.Canonical := by
  unfold State.drainCollector
  extract_lets f s1
  have hs1 : s1.Canonical ↔ s.Canonical := by
    unfold s1
    refine State.foldl_canonical_iff (fun s2 x => ?_) _ _
    simp
  simp [hs1]

@[simp] theorem State.flush_canonical (s : State) : (s.flush).Canonical ↔ s.Canonical := by
  unfold State.flush
  dsimp only
  refine (State.foldl_canonical_iff (fun s1 x => ?_) _ _).trans ?_
  · simp
  · rw [State.clearCounters_canonical]
    refine (State.foldl_canonical_iff (fun s1 x => ?_) _ _).trans ?_
    · simp
    · simp

@[simp] theorem State.sendNotices_canonical (s : State) (seq : Nat) : (s.sendNotices seq).Canonical ↔ s.Canonical := by
  unfold State.sendNotices
  refine State.foldl_canonical_iff (fun s1 x => ?_) _ _
  split <;> simp

@[simp] theorem State.abortEnd_canonical (s : State) (detail : List Nat) : (s.abortEnd detail).Canonical ↔ s.Canonical := by
  simp [State.abortEnd]

@[simp] theorem execStepAbort_canonical {s : State} (h : s.Canonical) : Result.Canonical (execStepAbort s) := by
  unfold execStepAbort
  extract_lets s1
  have hs1 : s1.Canonical := by simp [s1, h]
  rw [Result.canonical_next]
  split <;> simp [h, hs1]

@[simp] theorem State.bringIn_canonical (s : State) (ps : List ParcelId) : (s.bringIn ps).1.Canonical ↔ s.Canonical := by
  induction ps generalizing s with
  | nil => exact Iff.rfl
  | cons p ps ih =>
    unfold State.bringIn
    split
    · exact (ih _).trans (by simp)
    · exact Iff.rfl

@[simp] theorem State.emptyWork_canonical (s : State) : (s.emptyWork).Canonical ↔ s.Canonical := by
  simp [State.emptyWork]

@[simp] theorem State.setSnapState_canonical (s : State) (n : Nat) : (s.setSnapState n).Canonical ↔ s.Canonical := by
  simp [State.setSnapState]

@[simp] theorem State.restoreBusy_canonical (s : State) : (s.restoreBusy).Canonical ↔ s.Canonical := by
  simp [State.restoreBusy]

@[simp] theorem State.bringSpares_canonical {s : State} (h : s.Canonical) : s.bringSpares.1.Canonical := by
  have hb : (s.bringIn s.retiredParcels).1.Canonical := (State.bringIn_canonical s _).2 h
  unfold State.bringSpares
  extract_lets old
  generalize s.bringIn old = r at hb ⊢
  exact Mem.clearIf_wf _ _ hb

@[simp] theorem State.restoreBegin_canonical {s : State} {run : RestoreRun} (h : s.Canonical) : (s.restoreBegin run).Canonical := by
  unfold State.restoreBegin
  extract_lets s1
  have hs1 : s1.Canonical := by simp [s1, h]
  have hb : ({ s1 with up := { s1.up with restore := run } } : State).bringSpares.1.Canonical := State.bringSpares_canonical (by simp [hs1])
  generalize ({ s1 with up := { s1.up with restore := run } } : State).bringSpares = r at hb ⊢
  obtain ⟨t, ok⟩ := r
  have ht : ({ t with mem := t.mem.clearIf t.softwareByte } : State).Canonical := Mem.clearIf_wf _ _ hb
  dsimp only at hb ⊢
  split
  · simp [hb]
  · split
    · exact ht
    · exact hb

@[simp] theorem State.askRestore_canonical {s : State} (h : s.Canonical) : (s.askRestore).Canonical := by
  simp [State.askRestore, h]

@[simp] theorem execRestore_canonical {s : State} (h : s.Canonical) : Result.Canonical (execRestore s) := by
  unfold execRestore
  rw [Result.canonical_next]
  refine State.atReg_canonical h (fun s1 hs => ?_)
  simp [hs]

@[simp] theorem State.askRemap_canonical {s : State} (h : s.Canonical) : (s.askRemap).Canonical := by
  simp [State.askRemap, h]

@[simp] theorem execRemap_canonical {s : State} (h : s.Canonical) : Result.Canonical (execRemap s) := by
  unfold execRemap
  rw [Result.canonical_next]
  refine State.atReg_canonical h (fun s1 hs => ?_)
  simp [hs]

@[simp] theorem State.restoreEnd_canonical (s : State) (word : Nat) : (s.restoreEnd word).Canonical ↔ s.Canonical := by
  simp [State.restoreEnd]

@[simp] theorem State.clearMarks_canonical {s : State} (h : s.Canonical) : s.clearMarks.Canonical := Mem.clearIf_wf _ _ h

@[simp] theorem State.putMarks_canonical {s : State} {bs : List Byte} (h : s.Canonical) : (s.putMarks bs).Canonical := by
  unfold State.putMarks
  refine State.foldl_canonical (fun s1 x hs => ?_) ?_
  · extract_lets b
    refine State.foldl_canonical (fun s2 x1 hs1 => ?_) ?_
    · simp [hs1]
    · simp [hs]
  · exact h

@[simp] theorem State.clearFlags_canonical (s : State) : (s.clearFlags).Canonical ↔ s.Canonical := by
  simp [State.clearFlags]

@[simp] theorem State.putPieces_canonical {s : State} {ps : List (Option Nat × Nat)} {bs : List Byte} (h : s.Canonical) :
    (s.putPieces ps bs).Canonical := by
  induction ps generalizing s bs with
  | nil => exact h
  | cons q ps ih =>
    refine ih ?_
    split <;> simp [h]

@[simp] theorem State.restoreMarks_canonical {s : State} {m : List Byte} {regions : List (List Byte)} (h : s.Canonical) :
    (s.restoreMarks m regions).Canonical := by
  simp [State.restoreMarks, h]

@[simp] theorem State.restoreImage_canonical {s : State} {manifest : List Byte} {regions : List (List Byte)} (h : s.Canonical) :
    (s.restoreImage manifest regions).Canonical := by
  unfold State.restoreImage
  extract_lets nreg m
  split
  · simp [h]
  · obtain ⟨⟨body, cause, k⟩, hr⟩ : ∃ r, readRegions m nreg 0 regions = r := ⟨_, rfl⟩
    rw [hr]
    have hs1 : (s.putPieces (s.imagePlan body).pieces body).Canonical := State.putPieces_canonical h
    by_cases hc : cause = 0
    · simp [hc, hs1]
    · simp [hc, hs1]

@[simp] theorem execRestored_canonical {r : RestoreImage} {s : State} (h : s.Canonical) : Result.Canonical (execRestored r s) := by
  unfold execRestored
  rw [Result.canonical_next]
  split <;> simp [h]

/-! Of Sys2Proof/Machine/Identity.lean. -/

@[simp] theorem State.modSec_canonical (s : State) (f : Security → Security) : (s.modSec f).Canonical ↔ s.Canonical := by
  simp [State.modSec]

@[simp] theorem State.modBoot_canonical (s : State) (f : Boot → Boot) : (s.modBoot f).Canonical ↔ s.Canonical := by
  simp [State.modBoot]

@[simp] theorem State.modPins_canonical (s : State) (f : Pins → Pins) : (s.modPins f).Canonical ↔ s.Canonical := by
  simp [State.modPins]

@[simp] theorem State.leafFlags_canonical (s : State) : (s.leafFlags).Canonical ↔ s.Canonical := by
  simp [State.leafFlags]

@[simp] theorem State.journalFails_canonical (s : State) : (s.journalFails).Canonical ↔ s.Canonical := by
  simp [State.journalFails]

@[simp] theorem State.bootIdentity_canonical (s : State) : (s.bootIdentity).Canonical ↔ s.Canonical := by
  simp [State.bootIdentity]

/-! Of Sys2Proof/Machine/Boot.lean. -/

@[simp] theorem State.setPhase_canonical (s : State) (n : Nat) : (s.setPhase n).Canonical ↔ s.Canonical := by
  simp [State.setPhase]

@[simp] theorem State.moduleReset_canonical (s : State) (cause : Nat) (hold : ResetHold) : (s.moduleReset cause hold).Canonical := Mem.reset_wf

@[simp] theorem State.powerOn_canonical (s : State) : s.powerOn.Canonical := Mem.reset_wf

@[simp] theorem execPowerOn_canonical (s : State) : Result.Canonical (execPowerOn s) := by
  simp [execPowerOn]

@[simp] theorem execResetNLow_canonical (s : State) : Result.Canonical (execResetNLow s) := by
  simp [execResetNLow]

@[simp] theorem State.startBoot_canonical (s : State) : (s.startBoot).Canonical ↔ s.Canonical := by
  simp [State.startBoot]

@[simp] theorem execResetNRise_canonical {x : Straps} {s : State} (h : s.Canonical) : Result.Canonical (execResetNRise x s) := by
  simp [execResetNRise, h]

@[simp] theorem State.rstReqPut_canonical {s : State} {key size : Nat} (h : s.Canonical) : (s.rstReqPut key size).Canonical := by
  simp [State.rstReqPut, h]

@[simp] theorem execRstReq_canonical {key : BitVec 16} {s : State} (h : s.Canonical) : Result.Canonical (execRstReq key s) := by
  simp [execRstReq, h]

@[simp] theorem execLockstepMismatch_canonical (s : State) : Result.Canonical (execLockstepMismatch s) := by
  simp [execLockstepMismatch]

@[simp] theorem execInternalResetEnd_canonical {s : State} (h : s.Canonical) : Result.Canonical (execInternalResetEnd s) := by
  simp [execInternalResetEnd, h]

@[simp] theorem execOscWaitEnd_canonical {s : State} (h : s.Canonical) : Result.Canonical (execOscWaitEnd s) := by
  simp [execOscWaitEnd, h]

@[simp] theorem execPllLockRetry_canonical {s : State} (h : s.Canonical) : Result.Canonical (execPllLockRetry s) := by
  simp [execPllLockRetry, h]

@[simp] theorem State.setLocks_canonical (s : State) (on : Bool) : (s.setLocks on).Canonical ↔ s.Canonical := by
  simp [State.setLocks]

@[simp] theorem State.bootFails_canonical (s : State) (ps : List ParcelId) : (s.bootFails ps).Canonical ↔ s.Canonical := by
  induction ps generalizing s with
  | nil => exact Iff.rfl
  | cons p ps ih => exact (ih _).trans (by simp)

@[simp] theorem State.enterReady_canonical (s : State) : (s.enterReady).Canonical ↔ s.Canonical := by
  simp [State.enterReady]

@[simp] theorem State.enterRecovery_canonical (s : State) (check : Nat) : (s.enterRecovery check).Canonical ↔ s.Canonical := by
  simp [State.enterRecovery]

@[simp] theorem State.bootStep_canonical (s : State) : (s.bootStep).Canonical ↔ s.Canonical := by
  unfold State.bootStep
  split
  · simp
  · split
    · split <;> simp
    · simp
  · simp
  · simp

@[simp] theorem execBootPhaseDone_canonical {r : BootResult} {s : State} (h : s.Canonical) : Result.Canonical (execBootPhaseDone r s) := by
  unfold execBootPhaseDone
  rw [Result.canonical_next]
  split
  · exact h
  · split <;> simp [h]

@[simp] theorem execBootOverrun_canonical {s : State} (h : s.Canonical) : Result.Canonical (execBootOverrun s) := by
  simp [execBootOverrun, h]

@[simp] theorem execArbCommit_canonical {s : State} (h : s.Canonical) : Result.Canonical (execArbCommit s) := by
  unfold execArbCommit
  rw [Result.canonical_next]
  split <;> simp [h]

/-! Of Sys2Proof/Machine/CoreEvents.lean. -/

@[simp] theorem execLoadResponse_canonical {c : CoreId} {n : Nat} {s : State} (h : s.Canonical) : Result.Canonical (execLoadResponse c n s) := by
  unfold execLoadResponse
  extract_lets s1
  have hs1 : s1.Canonical := by simp [s1, h]
  rw [Result.canonical_next]
  split
  · exact h
  · split
    · exact h
    · split <;> simp [hs1]

@[simp] theorem State.withdraw_canonical (s : State) (c : CoreId) (w : Wait) : (s.withdraw c w).Canonical ↔ s.Canonical := by
  unfold State.withdraw
  split
  · simp
  · split
    · simp
    · split <;> simp
  · exact Iff.rfl

@[simp] theorem execWatchdog_canonical {c : CoreId} {s : State} (h : s.Canonical) : Result.Canonical (execWatchdog c s) := by
  unfold execWatchdog
  rw [Result.canonical_next]
  split <;> simp [h]

@[simp] theorem execCoreEnterSleep_canonical {c : CoreId} {s : State} (h : s.Canonical) : Result.Canonical (execCoreEnterSleep c s) := by
  simp [execCoreEnterSleep, h]

@[simp] theorem execCoreEnterDeep_canonical {c : CoreId} {s : State} (h : s.Canonical) : Result.Canonical (execCoreEnterDeep c s) := by
  simp [execCoreEnterDeep, h]

@[simp] theorem execCoreWake_canonical {c : CoreId} {s : State} (h : s.Canonical) : Result.Canonical (execCoreWake c s) := by
  simp [execCoreWake, h]

/-! Of Sys2Proof/Machine/Power.lean. -/

@[simp] theorem State.dropPorts_canonical {s : State} {ps : List Port} (h : s.Canonical) : (s.dropPorts ps).Canonical := by
  unfold State.dropPorts
  refine State.foldl_canonical (fun s1 x hs => ?_) ?_
  · simp [hs]
  · exact h

@[simp] theorem execReferenceLost_canonical {s : State} (h : s.Canonical) : Result.Canonical (execReferenceLost s) := by
  simp [execReferenceLost, h]

@[simp] theorem execReferenceRestored_canonical {s : State} (h : s.Canonical) : Result.Canonical (execReferenceRestored s) := by
  simp [execReferenceRestored, h]

@[simp] theorem execClkobsCtlWrite_canonical {value : Word} {s : State} (h : s.Canonical) : Result.Canonical (execClkobsCtlWrite value s) := by
  unfold execClkobsCtlWrite
  rw [Result.canonical_next]
  refine State.atReg_canonical h (fun s1 hs => ?_)
  simp [hs]

@[simp] theorem State.applyGrant_canonical (s : State) (t : Tract) (k : Nat) : (s.applyGrant t k).Canonical ↔ s.Canonical := by
  unfold State.applyGrant
  refine State.foldl_canonical_iff (fun s1 x => ?_) _ _
  simp

@[simp] theorem State.setRail_canonical (s : State) (t : Tract) (mv : Nat) : (s.setRail t mv).Canonical ↔ s.Canonical := by
  simp [State.setRail]

@[simp] theorem State.railFollow_canonical (s : State) (t : Tract) : (s.railFollow t).Canonical ↔ s.Canonical := by
  simp [State.railFollow]

@[simp] theorem State.grant_canonical (s : State) (t : Tract) (k : Nat) : (s.grant t k).Canonical ↔ s.Canonical := by
  simp [State.grant]

@[simp] theorem State.planTract_canonical (s : State) (t : Tract) (budget share keep : Nat) :
    (s.planTract t budget share keep).Canonical ↔ s.Canonical := by
  simp [State.planTract]

@[simp] theorem execPowerBudgetPlan_canonical {s : State} (h : s.Canonical) : Result.Canonical (execPowerBudgetPlan s) := by
  unfold execPowerBudgetPlan
  extract_lets limit fixed s1 keep s2 share ests s3
  have hs1 : s1.Canonical := by simp [s1, h]
  have hs2 : s2.Canonical := by simp [s2, hs1]
  have hs3 : s3.Canonical := by simp [s3, hs2]
  rw [Result.canonical_next]
  split
  · exact h
  · refine State.foldl_canonical (fun s4 x hs => ?_) ?_
    · simp [hs]
    · exact hs3

@[simp] theorem execParcelEstimate_canonical {p : ParcelId} {count : Nat} {s : State} (h : s.Canonical) :
    Result.Canonical (execParcelEstimate p count s) := by
  simp [execParcelEstimate, h]

@[simp] theorem State.setLimiting_canonical (s : State) : (s.setLimiting).Canonical ↔ s.Canonical := by
  simp [State.setLimiting]

@[simp] theorem State.limitDown_canonical (s : State) (t : Tract) : (s.limitDown t).Canonical ↔ s.Canonical := by
  unfold State.limitDown
  extract_lets ps boosted down
  refine State.foldl_canonical_iff (fun s1 x => ?_) _ _
  simp

@[simp] theorem execLimiterWindow_canonical {t : Tract} {s : State} (h : s.Canonical) : Result.Canonical (execLimiterWindow t s) := by
  simp [execLimiterWindow, h]

@[simp] theorem execCoefficientCorrection_canonical {p : ParcelId} {coeff : Nat} {s : State} (h : s.Canonical) :
    Result.Canonical (execCoefficientCorrection p coeff s) := by
  simp [execCoefficientCorrection, h]

@[simp] theorem State.stepZero_canonical (s : State) (t : Tract) : (s.stepZero t).Canonical ↔ s.Canonical := by
  unfold State.stepZero
  refine State.foldl_canonical_iff (fun s1 x => ?_) _ _
  simp

@[simp] theorem State.thermTrip_canonical {s : State} (h : s.Canonical) : (s.thermTrip).Canonical := by
  simp [State.thermTrip, h]

@[simp] theorem State.junctionRules_canonical (s : State) (t : Tract) (tj : Nat) : (s.junctionRules t tj).Canonical ↔ s.Canonical := by
  unfold State.junctionRules
  extract_lets k w s1 s2 s3 s4 s5
  have hs1 : s1.Canonical ↔ s.Canonical := by simp [s1]
  have hs2 : s2.Canonical ↔ s.Canonical := by simp [s2, hs1]
  have hs3 : s3.Canonical ↔ s.Canonical := by simp [s3, hs1, hs2]
  have hs4 : s4.Canonical ↔ s.Canonical := by simp [s4, hs3]
  have hs5 : s5.Canonical ↔ s.Canonical := by simp [s5, hs4]
  simp [hs3, hs5]

@[simp] theorem execJunctionSample_canonical {t : Tract} {readings : List (Option Nat)} {s : State} (h : s.Canonical) :
    Result.Canonical (execJunctionSample t readings s) := by
  simp [execJunctionSample, h]

@[simp] theorem State.dramRules_canonical (s : State) (t : Tract) (tm : Nat) : (s.dramRules t tm).Canonical ↔ s.Canonical := by
  unfold State.dramRules
  extract_lets w s1
  have hs1 : s1.Canonical ↔ s.Canonical := by simp [s1]
  simp [hs1]

@[simp] theorem State.plotPwrPut_canonical (s : State) (t : Tract) (n v size : Nat) : (s.plotPwrPut t n v size).Canonical ↔ s.Canonical := by
  unfold State.plotPwrPut
  dsimp only
  refine (State.foldl_canonical_iff (fun s1 x => ?_) _ _).trans ?_
  · simp
  · simp

@[simp] theorem execPlotPwrWrite_canonical {t : Tract} {n : Fin 256} {value : Word} {s : State} (h : s.Canonical) :
    Result.Canonical (execPlotPwrWrite t n value s) := by
  unfold execPlotPwrWrite
  rw [Result.canonical_next]
  refine State.atReg_canonical h (fun s1 hs => ?_)
  simp [hs]

@[simp] theorem execAvsCurrentRead_canonical {t : Tract} {amps : Nat} {s : State} (h : s.Canonical) :
    Result.Canonical (execAvsCurrentRead t amps s) := by
  simp [execAvsCurrentRead, h]

@[simp] theorem State.regulatorFault_canonical (s : State) (r : Rail) : (s.regulatorFault r).Canonical ↔ s.Canonical := by
  unfold State.regulatorFault
  extract_lets old s1
  have hs1 : s1.Canonical ↔ s.Canonical := by simp [s1]
  split
  · exact Iff.rfl
  · split <;> simp [hs1]

@[simp] theorem State.regulatorGood_canonical (s : State) (r : Rail) : (s.regulatorGood r).Canonical ↔ s.Canonical := by
  simp [State.regulatorGood]

@[simp] theorem State.markRail_canonical (s : State) (r : Rail) : (s.markRail r).Canonical ↔ s.Canonical := by
  simp [State.markRail]

@[simp] theorem State.sideLost_canonical {s : State} {west : Bool} (h : s.Canonical) : (s.sideLost west).Canonical := by
  simp [State.sideLost, h]

@[simp] theorem State.railReading_canonical {s : State} {r : Rail} {mv : Nat} (h : s.Canonical) : (s.railReading r mv).Canonical := by
  unfold State.railReading
  extract_lets old old1 s1
  have hs1 : s1.Canonical := by simp [s1, h]
  split <;> simp [hs1]

@[simp] theorem execPmbusPoll_canonical {r : Rail} {fault : Bool} {mv : Nat} {s : State} (h : s.Canonical) :
    Result.Canonical (execPmbusPoll r fault mv s) := by
  simp [execPmbusPoll, h]

@[simp] theorem execPmbAlertN_canonical {faults : List Rail} {s : State} (h : s.Canonical) : Result.Canonical (execPmbAlertN faults s) := by
  unfold execPmbAlertN
  extract_lets s1
  have hs1 : s1.Canonical := by simp [s1, h]
  rw [Result.canonical_next]
  split
  · refine State.foldl_canonical (fun s2 x hs => ?_) ?_
    · simp [hs]
    · refine State.foldl_canonical (fun s2 x hs => ?_) ?_
      · simp [hs]
      · exact hs1
  · exact hs1

@[simp] theorem execAlertStuck_canonical {s : State} (h : s.Canonical) : Result.Canonical (execAlertStuck s) := by
  simp [execAlertStuck, h]

@[simp] theorem execRegulatorTimeout_canonical {r : Rail} {s : State} (h : s.Canonical) : Result.Canonical (execRegulatorTimeout r s) := by
  simp [execRegulatorTimeout, h]

@[simp] theorem execRailFault_canonical {r : Rail} {s : State} (h : s.Canonical) : Result.Canonical (execRailFault r s) := by
  unfold execRailFault
  rw [Result.canonical_next]
  split <;> simp [h]

@[simp] theorem execRailRestored_canonical {r : Rail} {s : State} (h : s.Canonical) : Result.Canonical (execRailRestored r s) := by
  unfold execRailRestored
  extract_lets s1
  have hs1 : s1.Canonical := by simp [s1, h]
  rw [Result.canonical_next]
  split <;> simp [hs1]

@[simp] theorem execNewVoltageReported_canonical {t : Tract} {mv : Nat} {s : State} (h : s.Canonical) :
    Result.Canonical (execNewVoltageReported t mv s) := by
  unfold execNewVoltageReported
  extract_lets s1
  have hs1 : s1.Canonical := by simp [s1, h]
  rw [Result.canonical_next]
  split
  · exact h
  · split <;> simp [hs1]

@[simp] theorem execThrottleN_canonical {high fast : Bool} {s : State} (h : s.Canonical) : Result.Canonical (execThrottleN high fast s) := by
  simp [execThrottleN, h]

@[simp] theorem execThrottleNHoldEnd_canonical {s : State} (h : s.Canonical) : Result.Canonical (execThrottleNHoldEnd s) := by
  simp [execThrottleNHoldEnd, h]

@[simp] theorem execThrotStuck_canonical {s : State} (h : s.Canonical) : Result.Canonical (execThrotStuck s) := by
  simp [execThrotStuck, h]

@[simp] theorem execPathDelayReport_canonical {p : ParcelId} {slackPermille : Nat} {s : State} (h : s.Canonical) :
    Result.Canonical (execPathDelayReport p slackPermille s) := by
  simp [execPathDelayReport, h]

@[simp] theorem execScreenDue_canonical {s : State} (h : s.Canonical) : Result.Canonical (execScreenDue s) := by
  unfold execScreenDue
  extract_lets old s1
  have hs1 : s1.Canonical := by simp [s1, h]
  rw [Result.canonical_next]
  split
  · exact h
  · refine State.foldl_canonical (fun s2 x hs => ?_) ?_
    · simp [hs]
    · exact hs1

/-! Of Sys2Proof/Machine/Dram.lean. -/

@[simp] theorem State.refreshRule_canonical (s : State) (t : Tract) (tm : Nat) : (s.refreshRule t tm).Canonical ↔ s.Canonical := by
  unfold State.refreshRule
  extract_lets k cur
  split
  · simp
  · split
    · simp
    · split <;> simp

@[simp] theorem State.overtemp_canonical (s : State) (t : Tract) (tm : Nat) (was : Bool) (failed : List Nat) :
    (s.overtemp t tm was failed).Canonical ↔ s.Canonical := by
  unfold State.overtemp
  split
  · split
    · dsimp only
      refine State.foldl_canonical_iff (fun s1 x => ?_) _ _
      simp
    · dsimp only
      refine State.foldl_canonical_iff (fun s1 x => ?_) _ _
      simp
  · split
    · split
      · dsimp only
        refine State.foldl_canonical_iff (fun s1 x => ?_) _ _
        simp
      · dsimp only
        refine State.foldl_canonical_iff (fun s1 x => ?_) _ _
        simp
    · split
      · dsimp only
        refine (State.foldl_canonical_iff (fun s1 x => ?_) _ _).trans ?_
        · simp
        · simp
      · dsimp only
        refine (State.foldl_canonical_iff (fun s1 x => ?_) _ _).trans ?_
        · simp
        · simp

@[simp] theorem execDramTempSample_canonical {t : Tract} {readings : List (Option Nat)} {s : State} (h : s.Canonical) :
    Result.Canonical (execDramTempSample t readings s) := by
  simp [execDramTempSample, h]

@[simp] theorem execCatchupEnd_canonical {t : Tract} {s : State} (h : s.Canonical) : Result.Canonical (execCatchupEnd t s) := by
  simp [execCatchupEnd, h]

@[simp] theorem execDramRefresh_canonical {_p : ParcelId} {_layer : Fin 3} {_bank : Fin 16} {s : State} (h : s.Canonical) :
    Result.Canonical (execDramRefresh _p _layer _bank s) := by
  simp [execDramRefresh, h]

@[simp] theorem State.scrubUe_canonical {s : State} {p : ParcelId} {off : Nat} (h : s.Canonical) : (s.scrubUe p off).Canonical := by
  unfold State.scrubUe
  extract_lets u line s1
  have hs1 : s1.Canonical := by
    unfold s1
    cases line with
    | none => exact h
    | some l => simp [h]
  have hs2 : ({ s1 with mem := s1.mem.poisonUnit u } : State).Canonical := Mem.poisonUnit_wf _ _ hs1
  simp [hs2]

@[simp] theorem execPatrolScrub_canonical {p : ParcelId} {word : Nat} {found : EccFinding} {s : State} (h : s.Canonical) :
    Result.Canonical (execPatrolScrub p word found s) := by
  unfold execPatrolScrub
  extract_lets u
  have hce : ({ s with mem := { s.mem with ce := s.mem.ce.erase u } } : State).Canonical := Mem.eraseCe_wf u h
  rw [Result.canonical_next]
  split
  · exact h
  · split
    · simp [h]
    · split
      · exact (State.modHealth_canonical _ _ _).2 hce
      · exact h

@[simp] theorem State.leaveTiles_canonical {s : State} {p : ParcelId} {base : Nat} (h : s.Canonical) : (s.leaveTiles p base).Canonical := by
  unfold State.leaveTiles
  extract_lets low left
  have hb : ({ s with mem := { s.mem with bytes := putBytes s.mem.bytes (commonsKey p low) left } } : State).Canonical := Mem.putBytes_wf h
  split
  · exact (State.modParcel_canonical _ _ _).2 hb
  · exact h

@[simp] theorem State.cmLayoutPut_canonical {s : State} {t : Tract} {v size : Nat} (h : s.Canonical) : (s.cmLayoutPut t v size).Canonical := by
  unfold State.cmLayoutPut
  extract_lets k r s1 base
  have hs1 : s1.Canonical := by simp [s1, h]
  split
  · simp [h]
  · split
    · exact hs1
    · rw [State.takeFree_canonical]
      refine State.foldl_canonical (fun s2 x hs => ?_) ?_
      · simp [hs]
      · exact hs1

@[simp] theorem execCmLayoutWrite_canonical {t : Tract} {value : Word} {s : State} (h : s.Canonical) :
    Result.Canonical (execCmLayoutWrite t value s) := by
  unfold execCmLayoutWrite
  rw [Result.canonical_next]
  refine State.atReg_canonical h (fun s1 hs => ?_)
  simp [hs]

@[simp] theorem State.dropRegion_canonical (s : State) (i : Nat) : (s.dropRegion i).Canonical ↔ s.Canonical := by
  simp [State.dropRegion]

@[simp] theorem State.replPut_canonical (s : State) (i : Nat) (k : RegKey) (v size : Nat) : (s.replPut i k v size).Canonical ↔ s.Canonical := by
  simp [State.replPut]

@[simp] theorem execReplCtlWrite_canonical {i : Fin 16} {value : Word} {s : State} (h : s.Canonical) :
    Result.Canonical (execReplCtlWrite i value s) := by
  unfold execReplCtlWrite
  rw [Result.canonical_next]
  refine State.atReg_canonical h (fun s1 hs => ?_)
  simp [hs]

@[simp] theorem execReplicaRefill_canonical {t : Tract} {i : Fin 16} {line : Nat} {s : State} (h : s.Canonical) :
    Result.Canonical (execReplicaRefill t i line s) := by
  unfold execReplicaRefill
  extract_lets l pending
  rw [Result.canonical_next]
  split
  · exact h
  · extract_lets src dst s1 s2
    have hs1 : s1.Canonical := by simp [s1, h]
    have hs2 : s2.Canonical := by
      unfold s2
      refine State.foldl_canonical (fun s3 x hs => ?_) ?_
      · simp [hs]
      · exact hs1
    simp [h, hs2]

@[simp] theorem execReplicaWriteApplied_canonical {t : Tract} {tag : Nat} {s : State} (h : s.Canonical) :
    Result.Canonical (execReplicaWriteApplied t tag s) := by
  unfold execReplicaWriteApplied
  rw [Result.canonical_next]
  split <;> simp [h]

/-! Of Sys2Proof/Machine/Job.lean. -/

@[simp] theorem State.jobBusy_canonical (s : State) (value : Nat) : (s.jobBusy value).Canonical ↔ s.Canonical := by
  simp [State.jobBusy]

@[simp] theorem State.bindJob_canonical (s : State) (modnum : BitVec 12) (value : Nat) : (s.bindJob modnum value).Canonical ↔ s.Canonical := by
  simp [State.bindJob]

@[simp] theorem State.armJob_canonical (s : State) (value : Nat) : (s.armJob value).Canonical ↔ s.Canonical := by
  simp [State.armJob]

@[simp] theorem State.beginRelease_canonical (s : State) : (s.beginRelease).Canonical ↔ s.Canonical := by
  simp [State.beginRelease]

@[simp] theorem State.releaseJob_canonical (s : State) (value : Nat) : (s.releaseJob value).Canonical ↔ s.Canonical := by
  simp [State.releaseJob]

@[simp] theorem execBind_canonical {modnum : BitVec 12} {s : State} (h : s.Canonical) : Result.Canonical (execBind modnum s) := by
  simp [execBind, h]

@[simp] theorem execArm_canonical {s : State} (h : s.Canonical) : Result.Canonical (execArm s) := by
  simp [execArm, h]

@[simp] theorem execRelease_canonical {s : State} (h : s.Canonical) : Result.Canonical (execRelease s) := by
  simp [execRelease, h]

@[simp] theorem State.jobCtlPut_canonical (s : State) (v size : Nat) : (s.jobCtlPut v size).Canonical ↔ s.Canonical := by
  unfold State.jobCtlPut
  split <;> simp

@[simp] theorem execFlr_canonical {s : State} (h : s.Canonical) : Result.Canonical (execFlr s) := by
  simp [execFlr, h]

@[simp] theorem State.armReject_canonical (s : State) (f : Nat × Nat × Option ParcelId × Nat) : (s.armReject f).Canonical ↔ s.Canonical := by
  simp [State.armReject]

@[simp] theorem execArmValidated_canonical {s : State} (h : s.Canonical) : Result.Canonical (execArmValidated s) := by
  unfold execArmValidated
  extract_lets old s1 old1 old2 s2
  have hs1 : s1.Canonical := by simp [s1, h]
  have hs2 : s2.Canonical := by simp [s2, hs1]
  rw [Result.canonical_next]
  split
  · exact h
  · split <;> simp [hs1, hs2]

@[simp] theorem State.abortEntries_canonical (s : State) (q : QueueId) : (s.abortEntries q).Canonical ↔ s.Canonical := by
  unfold State.abortEntries
  refine State.foldl_canonical_iff (fun s1 x => ?_) _ _
  simp

@[simp] theorem execReleaseDrainTimeout_canonical {s : State} (h : s.Canonical) : Result.Canonical (execReleaseDrainTimeout s) := by
  unfold execReleaseDrainTimeout
  rw [Result.canonical_next]
  split
  · refine State.foldl_canonical (fun s1 x hs => ?_) ?_
    · simp [hs]
    · exact h
  · exact h

@[simp] theorem State.scrub_canonical (s : State) : s.scrub.Canonical := Mem.reset_wf

@[simp] theorem execReleaseScrubDone_canonical {s : State} (h : s.Canonical) : Result.Canonical (execReleaseScrubDone s) := by
  simp [execReleaseScrubDone, h]

/-! Of Sys2Proof/Machine/Security.lean. -/

@[simp] theorem State.goPut_canonical (s : State) : (s.goPut).Canonical ↔ s.Canonical := by
  simp [State.goPut]

@[simp] theorem execGo_canonical {s : State} (h : s.Canonical) : Result.Canonical (execGo s) := by
  simp [execGo, h]

@[simp] theorem State.updateFailed_canonical (s : State) (check : Nat) : (s.updateFailed check).Canonical ↔ s.Canonical := by
  simp [State.updateFailed]

@[simp] theorem execUpdateVerifyDone_canonical {failedCheck : Nat} {s : State} (h : s.Canonical) :
    Result.Canonical (execUpdateVerifyDone failedCheck s) := by
  unfold execUpdateVerifyDone
  extract_lets im s1 s2
  have hs1 : s1.Canonical := by simp [s1, h]
  have hs2 : s2.Canonical := by simp [s2, hs1]
  rw [Result.canonical_next]
  split
  · exact h
  · split <;> simp [hs1, hs2]

@[simp] theorem State.stagingPut_canonical (s : State) (off : Nat) (data : List Byte) : (s.stagingPut off data).Canonical ↔ s.Canonical := by
  simp [State.stagingPut]

@[simp] theorem execStagingWrite_canonical {offset : Nat} {data : List Byte} {s : State} (h : s.Canonical) :
    Result.Canonical (execStagingWrite offset data s) := by
  simp [execStagingWrite, h]

@[simp] theorem State.newNonce_canonical (s : State) : (s.newNonce).Canonical ↔ s.Canonical := by
  simp [State.newNonce]

@[simp] theorem State.unlockToken_canonical (s : State) (tok : Sys2Proof.Token) : (s.unlockToken tok).Canonical ↔ s.Canonical := by
  simp [State.unlockToken]

@[simp] theorem State.putToken_canonical (s : State) (tok : Sys2Proof.Token) : (s.putToken tok).Canonical ↔ s.Canonical := by
  simp [State.putToken]

@[simp] theorem execUnlock_canonical {tok : Sys2Proof.Token} {s : State} (h : s.Canonical) : Result.Canonical (execUnlock tok s) := by
  unfold execUnlock
  rw [Result.canonical_next]
  refine State.atReg_canonical h (fun s1 hs => ?_)
  simp [hs]

@[simp] theorem execDbgNonceRead_canonical {offset size : Nat} {s : State} (h : s.Canonical) : Result.Canonical (execDbgNonceRead offset size s) := by
  simp [execDbgNonceRead, h]

@[simp] theorem State.modSpdm_canonical (s : State) (f : Spdm → Spdm) : (s.modSpdm f).Canonical ↔ s.Canonical := by
  simp [State.modSpdm]

@[simp] theorem State.spdmError_canonical (s : State) (code : Nat) : (s.spdmError code).Canonical ↔ s.Canonical := by
  simp [State.spdmError]

theorem State.spdmServe_canonical {s : State} {r : SpdmReq} {ready : Spdm → Bool} {act : State → State} (h : s.Canonical)
    (hact : ∀ t, t.Canonical → (act t).Canonical) :
    (s.spdmServe r ready act).Canonical := by
  simp [State.spdmServe, h, hact]

@[simp] theorem State.spdmSigned_canonical (s : State) (r : SpdmReq) (code : Nat) (body : List Byte) :
    (s.spdmSigned r code body).Canonical ↔ s.Canonical := by
  simp [State.spdmSigned]

@[simp] theorem execGetVersion_canonical {r : SpdmReq} {s : State} (h : s.Canonical) : Result.Canonical (execGetVersion r s) := by
  unfold execGetVersion
  extract_lets old
  rw [Result.canonical_next]
  refine State.spdmServe_canonical h (fun s1 hs => ?_)
  simp [hs]

@[simp] theorem execGetCapabilities_canonical {r : SpdmReq} {s : State} (h : s.Canonical) : Result.Canonical (execGetCapabilities r s) := by
  unfold execGetCapabilities
  rw [Result.canonical_next]
  refine State.spdmServe_canonical h (fun s1 hs => ?_)
  simp [hs]

@[simp] theorem execNegotiateAlgorithms_canonical {r : SpdmReq} {s : State} (h : s.Canonical) : Result.Canonical (execNegotiateAlgorithms r s) := by
  unfold execNegotiateAlgorithms
  rw [Result.canonical_next]
  refine State.spdmServe_canonical h (fun s1 hs => ?_)
  simp [hs]

@[simp] theorem execGetDigests_canonical {r : SpdmReq} {s : State} (h : s.Canonical) : Result.Canonical (execGetDigests r s) := by
  unfold execGetDigests
  rw [Result.canonical_next]
  refine State.spdmServe_canonical h (fun s1 hs => ?_)
  simp [hs]

@[simp] theorem execGetCertificate_canonical {r : SpdmReq} {s : State} (h : s.Canonical) : Result.Canonical (execGetCertificate r s) := by
  unfold execGetCertificate
  rw [Result.canonical_next]
  refine State.spdmServe_canonical h (fun s1 hs => ?_)
  simp [hs]

@[simp] theorem execChallenge_canonical {r : SpdmReq} {s : State} (h : s.Canonical) : Result.Canonical (execChallenge r s) := by
  unfold execChallenge
  rw [Result.canonical_next]
  refine State.spdmServe_canonical h (fun s1 hs => ?_)
  simp [hs]

@[simp] theorem execGetMeasurements_canonical {r : SpdmReq} {s : State} (h : s.Canonical) : Result.Canonical (execGetMeasurements r s) := by
  unfold execGetMeasurements
  rw [Result.canonical_next]
  refine State.spdmServe_canonical h (fun s1 hs => ?_)
  split
  · simp [hs]
  · split
    · simp [hs]
    · split
      · dsimp only
        split <;> simp [hs]
      · dsimp only
        split <;> simp [hs]

@[simp] theorem execKeyExchange_canonical {r : SpdmReq} {s : State} (h : s.Canonical) : Result.Canonical (execKeyExchange r s) := by
  unfold execKeyExchange
  rw [Result.canonical_next]
  refine State.spdmServe_canonical h (fun s1 hs => ?_)
  simp [hs]

@[simp] theorem execFinish_canonical {r : SpdmReq} {s : State} (h : s.Canonical) : Result.Canonical (execFinish r s) := by
  unfold execFinish
  rw [Result.canonical_next]
  refine State.spdmServe_canonical h (fun s1 hs => ?_)
  simp [hs]

@[simp] theorem execHeartbeat_canonical {r : SpdmReq} {s : State} (h : s.Canonical) : Result.Canonical (execHeartbeat r s) := by
  unfold execHeartbeat
  rw [Result.canonical_next]
  refine State.spdmServe_canonical h (fun s1 hs => ?_)
  simp [hs]

@[simp] theorem execEndSession_canonical {r : SpdmReq} {s : State} (h : s.Canonical) : Result.Canonical (execEndSession r s) := by
  unfold execEndSession
  rw [Result.canonical_next]
  refine State.spdmServe_canonical h (fun s1 hs => ?_)
  simp [hs]

/-! Of Sys2Proof/Machine/Stash.lean. -/

@[simp] theorem State.stashCfgPut_canonical (s : State) (t : Tract) (n v size : Nat) : (s.stashCfgPut t n v size).Canonical ↔ s.Canonical := by
  unfold State.stashCfgPut
  dsimp only
  split
  · refine (State.foldl_canonical_iff (fun s1 x => ?_) _ _).trans ?_
    · simp
    · simp
  · simp

@[simp] theorem execStashRst_canonical {p : ParcelId} {s : State} (h : s.Canonical) : Result.Canonical (execStashRst p s) := by
  unfold execStashRst
  rw [Result.canonical_next]
  refine State.atReg_canonical h (fun s1 hs => ?_)
  simp [hs]

@[simp] theorem execStashCfgWrite_canonical {t : Tract} {n : Fin 256} {value : DWord} {s : State} (h : s.Canonical) :
    Result.Canonical (execStashCfgWrite t n value s) := by
  unfold execStashCfgWrite
  rw [Result.canonical_next]
  refine State.atReg_canonical h (fun s1 hs => ?_)
  simp [hs]

/-! Of Sys2Proof/Machine/TestPort.lean. -/

@[simp] theorem execTestmuxSelWrite_canonical {value : Word} {s : State} (h : s.Canonical) : Result.Canonical (execTestmuxSelWrite value s) := by
  unfold execTestmuxSelWrite
  rw [Result.canonical_next]
  refine State.atReg_canonical h (fun s1 hs => ?_)
  simp [hs]

@[simp] theorem State.tapTake_canonical (s : State) (ok : Bool) (i : TapInstr) : (s.tapTake ok i).Canonical ↔ s.Canonical := by
  simp [State.tapTake]

@[simp] theorem execIdcode_canonical {s : State} (h : s.Canonical) : Result.Canonical (execIdcode s) := by
  simp [execIdcode, h]

@[simp] theorem State.capture_canonical (s : State) : (s.capture).Canonical ↔ s.Canonical := by
  simp [State.capture]

@[simp] theorem execSamplePreload_canonical {s : State} (h : s.Canonical) : Result.Canonical (execSamplePreload s) := by
  simp [execSamplePreload, h]

@[simp] theorem execExtest_canonical {s : State} (h : s.Canonical) : Result.Canonical (execExtest s) := by
  simp [execExtest, h]

@[simp] theorem execClamp_canonical {s : State} (h : s.Canonical) : Result.Canonical (execClamp s) := by
  simp [execClamp, h]

@[simp] theorem execHighz_canonical {s : State} (h : s.Canonical) : Result.Canonical (execHighz s) := by
  simp [execHighz, h]

@[simp] theorem execPrivateInstruction_canonical {code : BitVec 8} {s : State} (h : s.Canonical) :
    Result.Canonical (execPrivateInstruction code s) := by
  simp [execPrivateInstruction, h]

@[simp] theorem execBypass_canonical {s : State} (h : s.Canonical) : Result.Canonical (execBypass s) := by
  simp [execBypass, h]

@[simp] theorem execTapReset_canonical {s : State} (h : s.Canonical) : Result.Canonical (execTapReset s) := by
  simp [execTapReset, h]

/-! Of Sys2Proof/Machine/RegWrite.lean. -/

@[simp] theorem State.ringTurn_canonical (s : State) (was : Nat) : (s.ringTurn was).Canonical ↔ s.Canonical := by
  simp [State.ringTurn]

@[simp] theorem State.linkCtlPut_canonical {s : State} {k : RegKey} {v size : Nat} (h : s.Canonical) : (s.linkCtlPut k v size).Canonical := by
  simp [State.linkCtlPut, h]

@[simp] theorem State.snapCtlPut_canonical {s : State} {k : RegKey} {v size : Nat} (h : s.Canonical) : (s.snapCtlPut k v size).Canonical := by
  simp [State.snapCtlPut, h]

@[simp] theorem State.parcelPut_canonical {s : State} {k : RegKey} {p : ParcelId} {v size : Nat} (h : s.Canonical) :
    (s.parcelPut k p v size).Canonical := by
  unfold State.parcelPut
  extract_lets s1
  have hs1 : s1.Canonical := by simp [s1, h]
  split <;> simp [h, hs1]

@[simp] theorem State.queuePut_canonical (s : State) (k : RegKey) (q : QueueId) (v size : Nat) :
    (s.queuePut k q v size).Canonical ↔ s.Canonical := by
  unfold State.queuePut
  split <;> simp

@[simp] theorem State.tractPut_canonical {s : State} {k : RegKey} {t : Tract} {v size : Nat} (h : s.Canonical) :
    (s.tractPut k t v size).Canonical := by
  unfold State.tractPut
  split <;> simp [h]

@[simp] theorem State.modulePut_canonical {s : State} {k : RegKey} {v size : Nat} (h : s.Canonical) : (s.modulePut k v size).Canonical := by
  unfold State.modulePut
  extract_lets s' s'1 s1 s2 was ok s3
  have hs' : s'.Canonical := by simp [s', h]
  have hs'1 : s'1.Canonical := hs'
  have hs1 : s1.Canonical := hs'1
  have hs2 : s2.Canonical := hs1
  have hs3 : s3.Canonical := by simp [s3, h]
  split <;> simp [h, hs', hs'1, hs1, hs2, hs3]

@[simp] theorem State.regPut_canonical {s : State} {k : RegKey} {v size : Nat} (h : s.Canonical) : (s.regPut k v size).Canonical := by
  unfold State.regPut
  generalize k.r.row.scope = scope
  cases scope with
  | module => simp [h]
  | tract =>
    generalize k.tract = t
    cases t <;> simp [h]
  | queue =>
    generalize k.queue = q
    cases q <;> simp [h]
  | parcel =>
    generalize k.parcel = p
    cases p <;> simp [h]

@[simp] theorem State.slotPut_canonical {s : State} {k : RegKey} {byte size v : Nat} (h : s.Canonical) : (s.slotPut k byte size v).Canonical := by
  unfold State.slotPut
  split
  · exact State.regPut_canonical h
  · split
    · split
      · split <;> simp [h]
      · split <;> exact State.regPut_canonical h
    · exact h

@[simp] theorem State.barRefuse_canonical (s : State) (bar off size : Nat) : (s.barRefuse bar off size).Canonical ↔ s.Canonical := by
  simp [State.barRefuse]

@[simp] theorem State.wordPut_canonical {s : State} {place : Nat → BarPlace} {bar off size v : Nat} (h : s.Canonical) :
    (s.wordPut place bar off size v).Canonical := by
  unfold State.wordPut
  split
  · extract_lets second
    split <;> simp [second, h]
  · extract_lets second
    split <;> simp [second, h]

@[simp] theorem State.narrowPut_canonical {s : State} {place : Nat → BarPlace} {bar off size v : Nat} (h : s.Canonical) :
    (s.narrowPut place bar off size v).Canonical := by
  unfold State.narrowPut
  extract_lets old
  split <;> simp [h]

@[simp] theorem State.barWrite_canonical {s : State} {place : Nat → BarPlace} {bar off size v : Nat} (h : s.Canonical) :
    (s.barWrite place bar off size v).Canonical := by
  simp [State.barWrite, h]

@[simp] theorem execRegisterWrite_canonical {a : RegAccess} {s : State} (h : s.Canonical) : Result.Canonical (execRegisterWrite a s) := by
  simp [execRegisterWrite, h]

/-! Of Sys2Proof/Machine/BarRead.lean. -/

@[simp] theorem State.latch_canonical (s : State) (place : BarPlace) (size : Nat) : (s.latch place size).Canonical ↔ s.Canonical := by
  unfold State.latch
  extract_lets without old
  split <;> simp

@[simp] theorem State.hostBarRead_canonical (s : State) (off size : Nat) : (s.hostBarRead off size).Canonical ↔ s.Canonical := by
  unfold State.hostBarRead
  extract_lets fresh s1
  have hs1 : s1.Canonical ↔ s.Canonical := by simp [s1]
  split
  · exact Iff.rfl
  · split <;> simp [hs1]

/-! Of Sys2Proof/Machine/Host.lean. -/

@[simp] theorem State.configRead_canonical (s : State) (off n : Nat) : (s.configRead off n).Canonical ↔ s.Canonical := by
  simp [State.configRead]

@[simp] theorem State.bar2Size_canonical (s : State) (k : Nat) : (s.bar2Size k).Canonical ↔ s.Canonical := by
  simp [State.bar2Size]

@[simp] theorem State.apertureRefuse_canonical (s : State) (off n : Nat) (write bad : Bool) :
    (s.apertureRefuse off n write bad).Canonical ↔ s.Canonical := by
  simp [State.apertureRefuse]

@[simp] theorem State.apertureRead_canonical {s : State} {off n : Nat} (h : s.Canonical) : (s.apertureRead off n).Canonical := by
  unfold State.apertureRead
  extract_lets ps bs s1
  have hs1 : s1.Canonical := by
    unfold s1
    refine State.foldl_canonical (fun s2 x hs => ?_) ?_
    · split
      · extract_lets s3
        have hs3 : s3.Canonical := by simp [s3, hs]
        split <;> simp [hs3]
      · exact hs
    · exact h
  simp [h, hs1]

@[simp] theorem State.pieceWrite_canonical {s : State} {off : Nat} {data : List Byte} {q : Option Nat × Nat × Nat} (h : s.Canonical) :
    (s.pieceWrite off data q).Canonical := by
  unfold State.pieceWrite
  extract_lets bs
  split
  · simp [h]
  · split <;> simp [h]
  · split <;> simp [h]
  · split <;> simp [h]
  · exact h

@[simp] theorem State.apertureWrite_canonical {s : State} {off : Nat} {data : List Byte} {bad : Bool} (h : s.Canonical) :
    (s.apertureWrite off data bad).Canonical := by
  unfold State.apertureWrite
  extract_lets ps
  split
  · simp [h]
  · refine State.foldl_canonical (fun s1 x hs => ?_) ?_
    · simp [hs]
    · exact h

@[simp] theorem execHostApertureAccess_canonical {a : HostAccess} {s : State} (h : s.Canonical) : Result.Canonical (execHostApertureAccess a s) := by
  unfold execHostApertureAccess
  rw [Result.canonical_next]
  split <;> simp [h]

@[simp] theorem State.linkLost_canonical (s : State) : (s.linkLost).Canonical ↔ s.Canonical := by
  simp [State.linkLost]

@[simp] theorem execPcieLinkDown_canonical {s : State} (h : s.Canonical) : Result.Canonical (execPcieLinkDown s) := by
  simp [execPcieLinkDown, h]

@[simp] theorem execPcieLinkUp_canonical {s : State} (h : s.Canonical) : Result.Canonical (execPcieLinkUp s) := by
  simp [execPcieLinkUp, h]

@[simp] theorem execPerstN_canonical {high fast : Bool} {s : State} (h : s.Canonical) : Result.Canonical (execPerstN high fast s) := by
  simp [execPerstN, h]

@[simp] theorem execPerstNHoldEnd_canonical {s : State} (h : s.Canonical) : Result.Canonical (execPerstNHoldEnd s) := by
  simp [execPerstNHoldEnd, h]

/-! Of Sys2Proof/Machine/Audit.lean. -/

@[simp] theorem State.laneReport_canonical (s : State) (p : ParcelId) (found : List Nat) : (s.laneReport p found).Canonical ↔ s.Canonical := by
  unfold State.laneReport
  refine (State.foldl_canonical_iff (fun s1 x => ?_) _ _).trans ?_
  · split <;> simp
  · simp

@[simp] theorem State.channelRun_canonical (s : State) (t : Tract) (ga : Nat) (bs : List MByte) :
    (s.channelRun t ga bs).1.Canonical ↔ s.Canonical := by
  unfold State.channelRun
  extract_lets first err picks out
  split
  · exact Iff.rfl
  · dsimp only
    refine State.foldl_canonical_iff (fun s1 x => ?_) _ _
    split <;> simp

/-! Of Sys2Proof/Machine/Mover.lean. -/

@[simp] theorem MovRun.put_canonical {r : MovRun} {keep : Bool} {ga : Nat} {bs : List MByte} (hr : r.s.Canonical) :
    (r.put keep ga bs).s.Canonical := by
  unfold MovRun.put
  split <;> simp [hr]

/-- The runs of an entry, written in order. -/
theorem MovRun.foldl_canonical {α : Type} {f : MovRun → α → MovRun} (hf : ∀ r x, r.s.Canonical → (f r x).s.Canonical) {l : List α} {r : MovRun}
    (h : r.s.Canonical) : (l.foldl f r).s.Canonical :=
  List.foldlRecOn (motive := fun r => r.s.Canonical) l f h (fun r hr x _ => hf r x hr)

@[simp] theorem State.movPerform_canonical {s : State} {t : Tract} {id : Nat} {e : MovEntry} {net : List NetReply} (h : s.Canonical) :
    (s.movPerform t id e net).1.Canonical := by
  unfold State.movPerform
  extract_lets byIdx s1
  have hs1 : s1.Canonical := by simp [s1, h]
  split
  rename_i il net0 hread
  have hs2 : (if byIdx then s1.touchAt t e.idx (4 * e.idxcnt) else s1).Canonical := by simp [hs1]
  split
  · exact hs2
  · extract_lets idx runs s3
    have hs3 : s3.Canonical := (State.engReplies_canonical _ _ _ _ _ _).2 hs2
    split
    rename_i away came net1 hfetch
    refine (State.convFlags_canonical _ _ _).2 (MovRun.foldl_canonical (fun r x hr => MovRun.put_canonical hr) ?_)
    refine (State.takeFree_canonical _).2 (State.foldl_canonical (fun s x hs => ?_) ?_)
    · simp [hs]
    · exact hs3

@[simp] theorem State.movReplica_canonical (s : State) (t : Tract) (e : MovEntry) : (s.movReplica t e).Canonical ↔ s.Canonical := by
  unfold State.movReplica
  split <;> simp

@[simp] theorem State.movStart_canonical {s : State} {t : Tract} {op : Nat} {net : List NetReply} (h : s.Canonical) :
    (s.movStart t op net).Canonical := by
  unfold State.movStart
  extract_lets q busy
  split <;> simp [h]

@[simp] theorem execCopy_canonical {t : Tract} {net : List NetReply} {s : State} (h : s.Canonical) : Result.Canonical (execCopy t net s) := by
  simp [execCopy, h]

@[simp] theorem execFill_canonical {t : Tract} {net : List NetReply} {s : State} (h : s.Canonical) : Result.Canonical (execFill t net s) := by
  simp [execFill, h]

@[simp] theorem execGather_canonical {t : Tract} {net : List NetReply} {s : State} (h : s.Canonical) : Result.Canonical (execGather t net s) := by
  simp [execGather, h]

@[simp] theorem execScatter_canonical {t : Tract} {net : List NetReply} {s : State} (h : s.Canonical) : Result.Canonical (execScatter t net s) := by
  simp [execScatter, h]

@[simp] theorem execTranspose_canonical {t : Tract} {net : List NetReply} {s : State} (h : s.Canonical) :
    Result.Canonical (execTranspose t net s) := by
  simp [execTranspose, h]

@[simp] theorem execSkew_canonical {t : Tract} {net : List NetReply} {s : State} (h : s.Canonical) : Result.Canonical (execSkew t net s) := by
  simp [execSkew, h]

@[simp] theorem execReblock_canonical {t : Tract} {net : List NetReply} {s : State} (h : s.Canonical) : Result.Canonical (execReblock t net s) := by
  simp [execReblock, h]

@[simp] theorem execMoverEntryComplete_canonical {t : Tract} {k : Nat} {s : State} (h : s.Canonical) :
    Result.Canonical (execMoverEntryComplete t k s) := by
  unfold execMoverEntryComplete
  extract_lets q
  rw [Result.canonical_next]
  split <;> simp [h]

/-! Of Sys2Proof/Machine/Vector.lean. -/

@[simp] theorem State.touchList_canonical {s : State} {p : ParcelId} {list size cap : Nat} (h : s.Canonical) :
    (s.touchList p list size cap).Canonical := by
  simp [State.touchList, h]

@[simp] theorem State.vecReplica_canonical (s : State) (t : Tract) (st : Nat) (ws : List (Nat × Nat)) :
    (s.vecReplica t st ws).Canonical ↔ s.Canonical := by
  unfold State.vecReplica
  split <;> simp

@[simp] theorem State.vecFlags_canonical (s : State) (p : ParcelId) (fl : FlagSet) : (s.vecFlags p fl).Canonical ↔ s.Canonical := by
  simp [State.vecFlags]

@[simp] theorem VDesc.group_canonical {d : VDesc} {old : State} {draw : Nat} {p : ParcelId} {fix : Nat → Nat → Nat} {r : VRun} {g : Nat × Nat}
    (hr : r.s.Canonical) : (d.group old draw p fix r g).s.Canonical := by
  simp [VDesc.group, hr]

@[simp] theorem State.vecDotRun_canonical (s : State) (p : ParcelId) (acc : Option Word) (ps : List (Num × Num)) :
    (s.vecDotRun p acc ps).1.Canonical ↔ s.Canonical := by
  unfold State.vecDotRun
  extract_lets l old
  split <;> simp

@[simp] theorem State.vecScalar_canonical {s : State} {key : Nat} {w : Word} {bad : Bool} (h : s.Canonical) :
    (s.vecScalar key w bad).Canonical := by
  simp [State.vecScalar, h]

/-- The results of a descriptor, written group by group. -/
theorem VRun.foldl_canonical {α : Type} {f : VRun → α → VRun} (hf : ∀ r x, r.s.Canonical → (f r x).s.Canonical) {l : List α} {r : VRun}
    (h : r.s.Canonical) : (l.foldl f r).s.Canonical :=
  List.foldlRecOn (motive := fun r => r.s.Canonical) l f h (fun r hr x _ => hf r x hr)

@[simp] theorem State.vecRun_canonical {s : State} {p : ParcelId} {d : VDesc} (h : s.Canonical) : (s.vecRun p d).1.Canonical := by
  unfold State.vecRun
  extract_lets s1 draw s2 elems nums l r0 r
  have hs1 : s1.Canonical := State.foldl_canonical (fun s x hs => by simp [hs]) h
  have hs2 : s2.Canonical := by simp [s2, hs1]
  have hr0 : r0.s.Canonical := VRun.foldl_canonical (fun r x hr => VDesc.group_canonical hr) hs2
  have hr : r.s.Canonical := by simp [r, hr0]
  split
  · split
    · simp [hr]
    · exact hr
  · split
    · simp [hs2]
    · split
      · simp [hs2]
      · split
        · refine (State.canonical_ite _ _ _).2 ?_
          split
          · exact (State.modParcel_canonical _ _ _).2 (State.vecScalar_canonical hs2)
          · exact State.vecScalar_canonical hs2
        · exact hs2

@[simp] theorem State.vecStep_canonical {s : State} {p : ParcelId} {vop : Nat} (h : s.Canonical) : (s.vecStep p vop).Canonical := by
  unfold State.vecStep
  split <;> simp [h]

@[simp] theorem execVnop_canonical {p : ParcelId} {s : State} (h : s.Canonical) : Result.Canonical (execVnop p s) := by
  simp [execVnop, h]

@[simp] theorem execVadd_canonical {p : ParcelId} {s : State} (h : s.Canonical) : Result.Canonical (execVadd p s) := by
  simp [execVadd, h]

@[simp] theorem execVsub_canonical {p : ParcelId} {s : State} (h : s.Canonical) : Result.Canonical (execVsub p s) := by
  simp [execVsub, h]

@[simp] theorem execVmul_canonical {p : ParcelId} {s : State} (h : s.Canonical) : Result.Canonical (execVmul p s) := by
  simp [execVmul, h]

@[simp] theorem execVfma_canonical {p : ParcelId} {s : State} (h : s.Canonical) : Result.Canonical (execVfma p s) := by
  simp [execVfma, h]

@[simp] theorem execVaxpy_canonical {p : ParcelId} {s : State} (h : s.Canonical) : Result.Canonical (execVaxpy p s) := by
  simp [execVaxpy, h]

@[simp] theorem execVdiv_canonical {p : ParcelId} {s : State} (h : s.Canonical) : Result.Canonical (execVdiv p s) := by
  simp [execVdiv, h]

@[simp] theorem execVsqrt_canonical {p : ParcelId} {s : State} (h : s.Canonical) : Result.Canonical (execVsqrt p s) := by
  simp [execVsqrt, h]

@[simp] theorem execVmin_canonical {p : ParcelId} {s : State} (h : s.Canonical) : Result.Canonical (execVmin p s) := by
  simp [execVmin, h]

@[simp] theorem execVmax_canonical {p : ParcelId} {s : State} (h : s.Canonical) : Result.Canonical (execVmax p s) := by
  simp [execVmax, h]

@[simp] theorem execVcmp_canonical {p : ParcelId} {s : State} (h : s.Canonical) : Result.Canonical (execVcmp p s) := by
  simp [execVcmp, h]

@[simp] theorem execVcvt_canonical {p : ParcelId} {s : State} (h : s.Canonical) : Result.Canonical (execVcvt p s) := by
  simp [execVcvt, h]

@[simp] theorem execVexp_canonical {p : ParcelId} {s : State} (h : s.Canonical) : Result.Canonical (execVexp p s) := by
  simp [execVexp, h]

@[simp] theorem execVlog_canonical {p : ParcelId} {s : State} (h : s.Canonical) : Result.Canonical (execVlog p s) := by
  simp [execVlog, h]

@[simp] theorem execVtanh_canonical {p : ParcelId} {s : State} (h : s.Canonical) : Result.Canonical (execVtanh p s) := by
  simp [execVtanh, h]

@[simp] theorem execVrsqrt_canonical {p : ParcelId} {s : State} (h : s.Canonical) : Result.Canonical (execVrsqrt p s) := by
  simp [execVrsqrt, h]

@[simp] theorem execVdot_canonical {p : ParcelId} {s : State} (h : s.Canonical) : Result.Canonical (execVdot p s) := by
  simp [execVdot, h]

@[simp] theorem execVrmax_canonical {p : ParcelId} {s : State} (h : s.Canonical) : Result.Canonical (execVrmax p s) := by
  simp [execVrmax, h]

@[simp] theorem execVtree_canonical {p : ParcelId} {s : State} (h : s.Canonical) : Result.Canonical (execVtree p s) := by
  simp [execVtree, h]

@[simp] theorem execVfin_canonical {p : ParcelId} {s : State} (h : s.Canonical) : Result.Canonical (execVfin p s) := by
  simp [execVfin, h]

@[simp] theorem execVflg_canonical {p : ParcelId} {s : State} (h : s.Canonical) : Result.Canonical (execVflg p s) := by
  simp [execVflg, h]

theorem State.vecStart_canonical {s : State} {t : Tract} {op : Nat} {act : State → QEntry → State} {may : QEntry → Bool} (h : s.Canonical)
    (hact : ∀ t x, t.Canonical → (act t x).Canonical) :
    (s.vecStart t op act may).Canonical := by
  unfold State.vecStart
  extract_lets q
  split <;> simp [h, hact]

@[simp] theorem State.vrunAct_canonical {s : State} {t : Tract} {e : QEntry} (h : s.Canonical) : (s.vrunAct t e).Canonical := by
  obtain ⟨g, hg⟩ : ∃ g, @State.vrunAct = g := ⟨_, rfl⟩
  obtain ⟨least, hleast⟩ : ∃ f, minStatus = f := ⟨_, rfl⟩
  rw [hg]
  delta State.vrunAct at hg
  rw [hleast] at hg
  subst hg
  beta_reduce
  extract_lets q ps s1 lists st early
  have hs1 : s1.Canonical := State.foldl_canonical (fun s x hs => by simp [hs]) h
  split
  · refine (State.setWork_canonical _ _ _ _).2 (State.foldl_canonical (fun s x hs => ?_) hs1)
    split <;> simp [hs]
  · simp [hs1]

@[simp] theorem execVrun_canonical {t : Tract} {s : State} (h : s.Canonical) : Result.Canonical (execVrun t s) := by
  unfold execVrun
  rw [Result.canonical_next]
  refine State.vecStart_canonical h (fun s1 x hs => ?_)
  exact State.vrunAct_canonical hs

@[simp] theorem State.vecClose_canonical (s : State) (t : Tract) (id : Nat) : (s.vecClose t id).Canonical ↔ s.Canonical := by
  unfold State.vecClose
  extract_lets xs s1
  have hs1 : s1.Canonical ↔ s.Canonical := by
    unfold s1
    refine State.foldl_canonical_iff (fun s2 x => ?_) _ _
    simp
  simp [hs1]

@[simp] theorem execVectorEntryComplete_canonical {t : Tract} {k : Nat} {s : State} (h : s.Canonical) :
    Result.Canonical (execVectorEntryComplete t k s) := by
  unfold execVectorEntryComplete
  extract_lets q
  rw [Result.canonical_next]
  split
  · exact h
  · extract_lets free s1
    have hs1 : s1.Canonical := by
      unfold s1
      refine State.foldl_canonical (fun s2 x hs => ?_) ?_
      · simp [hs]
      · exact h
    split <;> simp [h, hs1]

/-! Of Sys2Proof/Machine/Optimizer.lean. -/

@[simp] theorem State.optGroup_canonical {h : Hyper} {clip : Word} {p : ParcelId} {r : ShardRec} {zero bad : Bool} {fix : Nat → Nat → Nat}
    {o : OptRun} {i0 : Nat} (ho : o.s.Canonical) :
    (State.optGroup h clip p r zero bad fix o i0).s.Canonical := by
  unfold State.optGroup
  extract_lets n at_ num one es col s s1 s2 s3
  have hs : s.Canonical := by simp [s, col, ho]
  have hs1 : s1.Canonical := by simp [s1, col, hs]
  have hs2 : s2.Canonical := by simp [s2, col, hs1]
  have hs3 : s3.Canonical := by simp [s3, col, hs2]
  exact hs3

@[simp] theorem State.workRow_canonical {s : State} {t : Tract} {id : Nat} {r : ShardRec} {q : Nat} {ws : List (Nat × Bool)}
    {net : List NetReply} (h : s.Canonical) :
    (s.workRow t id r q ws net).1.Canonical := by
  simp [State.workRow, h]

/-- The groups of a shard, updated in order. -/
theorem OptRun.foldl_canonical {α : Type} {f : OptRun → α → OptRun} (hf : ∀ o x, o.s.Canonical → (f o x).s.Canonical) {l : List α} {o : OptRun}
    (h : o.s.Canonical) : (l.foldl f o).s.Canonical :=
  List.foldlRecOn (motive := fun o => o.s.Canonical) l f h (fun o ho x _ => hf o x ho)

/-- A fold whose accumulator carries the state first. -/
theorem State.foldl_fst_canonical {α β : Type} {f : State × β → α → State × β} (hf : ∀ q x, q.1.Canonical → (f q x).1.Canonical) {l : List α}
    {q : State × β} (h : q.1.Canonical) : (l.foldl f q).1.Canonical :=
  List.foldlRecOn (motive := fun q => q.1.Canonical) l f h (fun q hq x _ => hf q x hq)

@[simp] theorem State.optShard_canonical {h : Hyper} {clip : Word} {id : Nat} {p : ParcelId} {bad : Bool} {q : State × Bool × List NetReply}
    {r : ShardRec} (hq : q.1.Canonical) : (State.optShard h clip id p bad q r).1.Canonical := by
  unfold State.optShard
  extract_lets s s1 l o0 o
  have hs1 : s1.Canonical := State.foldl_canonical (fun s x hs => by simp [hs]) hq
  have ho0 : o0.s.Canonical := OptRun.foldl_canonical (fun o x ho => State.optGroup_canonical ho) hs1
  have ho : o.s.Canonical := by simp [o, ho0]
  split
  · exact hq
  · split
    · exact (State.bumpReg_canonical _ _ _ _ _).2 hq
    · refine (State.vecFlags_canonical _ _ _).2 ?_
      split
      · exact ho
      · refine State.foldl_fst_canonical (fun a x ha => ?_) ho
        show (a.1.workRow p.tract id r x.2 x.1 a.2.2).1.Canonical
        exact State.workRow_canonical ha

theorem State.canonical_fst {β : Type} {s : State} (b : β) (h : s.Canonical) : (s, b).1.Canonical := h

@[simp] theorem State.optPass_canonical {s : State} {t : Tract} {e : QEntry} {h : Hyper} {total : Word} {bad : Bool} {net : List NetReply}
    (hs : s.Canonical) : (s.optPass t e h total bad net).Canonical := by
  obtain ⟨g, hg⟩ : ∃ g, @State.optPass = g := ⟨_, rfl⟩
  obtain ⟨clipOf, hclip⟩ : ∃ f, clipFactor = f := ⟨_, rfl⟩
  obtain ⟨shard, hshard⟩ : ∃ f, State.optShard = f := ⟨_, rfl⟩
  obtain ⟨recsOf, hrecs⟩ : ∃ f, State.optRecs = f := ⟨_, rfl⟩
  have hcan : ∀ h clip id p bad q r, q.1.Canonical → (shard h clip id p bad q r).1.Canonical := by
    rw [← hshard]
    exact fun h clip id p bad q r => State.optShard_canonical
  rw [hg]
  delta State.optPass at hg
  rw [hclip, hshard, hrecs] at hg
  subst hg
  beta_reduce
  extract_lets s1
  have hs1 : s1.Canonical := by simp [s1, hs]
  split
  rename_i clip fl _
  extract_lets s2
  have hs2 : s2.Canonical := (State.foldl_canonical_iff (fun s p => by simp) _ s1).2 hs1
  split
  rename_i s3 poisoned net1 hfold
  refine (State.setWork_canonical _ _ _ _).2 ?_
  have hstep : ∀ (a : State × Bool × List NetReply) (r : ParcelId × ShardRec), a.1.Canonical → (shard h clip e.id r.1 bad a r.2).1.Canonical :=
    fun a r ha => hcan h clip e.id r.1 bad a r.2 ha
  have hall := State.foldl_fst_canonical hstep (l := recsOf s1 t e) (State.canonical_fst (false, net) hs2)
  exact (congrArg (fun q => q.1.Canonical) hfold).mp hall

@[simp] theorem State.optAct_canonical {s : State} {t : Tract} {e : QEntry} {net : List NetReply} (h : s.Canonical) :
    (s.optAct t e net).Canonical := by
  unfold State.optAct
  extract_lets q s1 st reads s2 s3
  have hs1 : s1.Canonical := by
    unfold s1
    refine State.foldl_canonical (fun s4 x hs => ?_) ?_
    · simp [hs]
    · exact h
  have hs2 : s2.Canonical := by simp [s2, hs1]
  have hs3 : s3.Canonical := by
    unfold s3
    refine State.foldl_canonical (fun s4 x hs => ?_) ?_
    · simp [hs]
    · exact hs2
  simp [hs1, hs3]

@[simp] theorem execOpt_canonical {t : Tract} {net : List NetReply} {s : State} (h : s.Canonical) : Result.Canonical (execOpt t net s) := by
  unfold execOpt
  rw [Result.canonical_next]
  refine State.vecStart_canonical h (fun s1 x hs => ?_)
  simp [hs]

/-! The step. -/

/-- Every instruction keeps memory canonical, by its own lemma. -/
theorem exec_canonical (i : Instr) {s : State} (h : s.Canonical) : Result.Canonical (exec i s) := by
  cases i <;> simp [exec, h]

theorem step_canonical {s : State} (h : s.Canonical) : Result.Canonical (step s) := by
  unfold step
  split
  · simp [h]
  · exact exec_canonical _ (by simp [h])

/-- Settles O60: the step keeps the form, whatever command stands at the front of the queue. -/
theorem stepKeepsMemoryCanonical : Obligations.StepKeepsMemoryCanonical :=
  fun _ t h ht => step_canonical h t ht

end Sys2Proof.Machine
end

section
/-!
PROOFS (O57, O58). Bit fields of a number, and what a host write leaves in the fields of a register (R3 to R7, R474).
-/
namespace Sys2Proof.Machine

/-! Bit fields. -/

theorem bitsOf_eq_mod_div {v hi lo : Nat} (h : lo ≤ hi + 1) : bitsOf v hi lo = v % 2 ^ (hi + 1) / 2 ^ lo := by
  rw [bitsOf, ← Nat.mod_mul_right_div_self, ← Nat.pow_add, Nat.add_sub_cancel' h]

theorem bitsOf_lt (v hi lo : Nat) : bitsOf v hi lo < 2 ^ (hi + 1 - lo) := Nat.mod_lt _ (Nat.two_pow_pos _)

/-- A field below bit n depends on the bits below n only. -/
theorem bitsOf_congr_mod {a b hi lo n : Nat} (hle : lo ≤ hi + 1) (hn : hi < n) (h : a % 2 ^ n = b % 2 ^ n) : bitsOf a hi lo = bitsOf b hi lo := by
  have hd : 2 ^ (hi + 1) ∣ 2 ^ n := Nat.pow_dvd_pow 2 hn
  rw [bitsOf_eq_mod_div hle, bitsOf_eq_mod_div hle, ← Nat.mod_mod_of_dvd a hd, ← Nat.mod_mod_of_dvd b hd, h]

/-- A field from bit n up depends on the bits from n up only. -/
theorem bitsOf_congr_div {a b hi lo n : Nat} (hn : n ≤ lo) (h : a / 2 ^ n = b / 2 ^ n) : bitsOf a hi lo = bitsOf b hi lo := by
  have split (v : Nat) : v / 2 ^ lo = v / 2 ^ n / 2 ^ (lo - n) := by
    rw [Nat.div_div_eq_div_mul, ← Nat.pow_add, Nat.add_sub_cancel' hn]
  rw [bitsOf, bitsOf, split a, split b, h]

/-- A number cut at a field: what lies above it, the field, what lies below it. -/
theorem setBits_eq (v hi lo x : Nat) :
    setBits v hi lo x = 2 ^ lo * (2 ^ (hi + 1 - lo) * (v / 2 ^ lo / 2 ^ (hi + 1 - lo)) + x % 2 ^ (hi + 1 - lo)) + v % 2 ^ lo := by
  have h1 := Nat.div_add_mod v (2 ^ lo)
  have h2 := Nat.div_add_mod (v / 2 ^ lo) (2 ^ (hi + 1 - lo))
  rw [setBits, bitsOf]
  generalize 2 ^ (hi + 1 - lo) = w at *
  generalize 2 ^ lo = l at *
  generalize v / l / w = q at *
  generalize v / l % w = m at *
  generalize v / l = d at *
  generalize v % l = r at *
  subst h2
  subst h1
  rw [Nat.mul_comm m l, Nat.mul_add, Nat.mul_add, Nat.mul_comm _ l]
  omega

@[simp] theorem setBits_div (v hi lo x : Nat) :
    setBits v hi lo x / 2 ^ lo = 2 ^ (hi + 1 - lo) * (v / 2 ^ lo / 2 ^ (hi + 1 - lo)) + x % 2 ^ (hi + 1 - lo) := by
  rw [setBits_eq, Nat.mul_add_div (Nat.two_pow_pos lo), Nat.div_eq_of_lt (Nat.mod_lt v (Nat.two_pow_pos lo)), Nat.add_zero]

theorem bitsOf_setBits_same (v hi lo x : Nat) : bitsOf (setBits v hi lo x) hi lo = x % 2 ^ (hi + 1 - lo) := by
  rw [bitsOf, setBits_div, Nat.mul_add_mod, Nat.mod_mod]

/-- The bits below a field stay when it is set. -/
theorem setBits_mod (v hi lo x : Nat) : setBits v hi lo x % 2 ^ lo = v % 2 ^ lo := by
  rw [setBits_eq, Nat.mul_add_mod, Nat.mod_mod]

/-- The bits above a field stay when it is set. -/
theorem setBits_div_above {v hi lo x : Nat} (h : lo ≤ hi + 1) : setBits v hi lo x / 2 ^ (hi + 1) = v / 2 ^ (hi + 1) := by
  have cut (a : Nat) : a / 2 ^ (hi + 1) = a / 2 ^ lo / 2 ^ (hi + 1 - lo) := by
    rw [Nat.div_div_eq_div_mul, ← Nat.pow_add, Nat.add_sub_cancel' h]
  rw [cut, cut, setBits_div, Nat.mul_add_div (Nat.two_pow_pos _), Nat.div_eq_of_lt (Nat.mod_lt x (Nat.two_pow_pos _)), Nat.add_zero]

/-! The fields of a register. -/

/-- Two fields of a row share no bit. -/
abbrev RegField.Apart (f g : RegField) : Prop := f.lo ≤ f.hi ∧ g.lo ≤ g.hi ∧ (f.hi < g.lo ∨ g.hi < f.lo)

theorem RegName.fields_apart (n : RegName) : n.row.fields.Pairwise RegField.Apart := by
  cases n <;> decide

theorem bitsOf_setBits_apart {f g : RegField} (h : f.Apart g) (v x : Nat) : bitsOf (setBits v f.hi f.lo x) g.hi g.lo = bitsOf v g.hi g.lo := by
  obtain ⟨hf, hg, hb | ha⟩ := h
  · exact bitsOf_congr_div hb (setBits_div_above (by omega))
  · exact bitsOf_congr_mod (by omega) ha (setBits_mod ..)

/-- One field of a write's result (R3, R4, R474): the step of State.writeResult. -/
def fieldStep (locked : Bool) (v old : Nat) (acc : Nat × Bool) (f : RegField) : Nat × Bool :=
  match f.acc with
  | .rw => (setBits acc.1 f.hi f.lo (bitsOf v f.hi f.lo), acc.2)
  | .rwl =>
    if locked then (acc.1, acc.2 || bitsOf v f.hi f.lo != bitsOf old f.hi f.lo) else (setBits acc.1 f.hi f.lo (bitsOf v f.hi f.lo), acc.2)
  | .w1c => (setBits acc.1 f.hi f.lo (bitsOf old f.hi f.lo - (bitsOf old f.hi f.lo &&& bitsOf v f.hi f.lo)), acc.2)
  | _ => acc

/-- What a write leaves in a field: v is the value written, old the value the register held. -/
def fieldResult (locked : Bool) (f : RegField) (v old : Nat) : Nat :=
  if f.acc = .rwl ∧ locked = false then bitsOf v f.hi f.lo else Claims.lockedField f v old

theorem writeResult_eq_foldl (s : State) (k : RegKey) (v : Nat) :
    s.writeResult k v = k.r.row.fields.foldl (fieldStep s.rwlLocked v (s.reg k)) (s.reg k, false) := rfl

section
variable {locked : Bool} {v old : Nat}

theorem fieldStep_apart {f g : RegField} (h : f.Apart g) (acc : Nat × Bool) :
    bitsOf (fieldStep locked v old acc f).1 g.hi g.lo = bitsOf acc.1 g.hi g.lo := by
  unfold fieldStep
  split
  · exact bitsOf_setBits_apart h ..
  · split
    · rfl
    · exact bitsOf_setBits_apart h ..
  · exact bitsOf_setBits_apart h ..
  · rfl

theorem fieldStep_same {f : RegField} {acc : Nat × Bool} (h : bitsOf acc.1 f.hi f.lo = bitsOf old f.hi f.lo) :
    bitsOf (fieldStep locked v old acc f).1 f.hi f.lo = fieldResult locked f v old := by
  have hlt (x : Nat) := Nat.mod_eq_of_lt (bitsOf_lt x f.hi f.lo)
  have hcleared : (bitsOf old f.hi f.lo - (bitsOf old f.hi f.lo &&& bitsOf v f.hi f.lo)) % 2 ^ (f.hi + 1 - f.lo) = _ :=
    Nat.mod_eq_of_lt ((Nat.sub_le _ _).trans_lt (bitsOf_lt old f.hi f.lo))
  cases hacc : f.acc <;> cases locked <;> simp [fieldStep, fieldResult, Claims.lockedField, hacc, bitsOf_setBits_same, hlt, hcleared, h]

theorem foldl_fieldStep_apart {g : RegField} {l : List RegField} (h : ∀ f ∈ l, f.Apart g) (acc : Nat × Bool) :
    bitsOf (l.foldl (fieldStep locked v old) acc).1 g.hi g.lo = bitsOf acc.1 g.hi g.lo := by
  induction l generalizing acc with
  | nil => rfl
  | cons f l ih => rw [List.foldl_cons, ih (fun x hx => h x (.tail _ hx)), fieldStep_apart (h f (.head _))]

/-- Each field of a row gets its own result, since no two share a bit. -/
theorem foldl_fieldStep_fst {l : List RegField} (hl : l.Pairwise RegField.Apart) {acc : Nat × Bool}
    (h : ∀ f ∈ l, bitsOf acc.1 f.hi f.lo = bitsOf old f.hi f.lo) {g : RegField} (hg : g ∈ l) :
    bitsOf (l.foldl (fieldStep locked v old) acc).1 g.hi g.lo = fieldResult locked g v old := by
  induction l generalizing acc with
  | nil => cases hg
  | cons f l ih =>
    obtain ⟨hf, hl⟩ := List.pairwise_cons.1 hl
    rw [List.foldl_cons]
    cases hg with
    | head =>
      have hlater : ∀ x ∈ l, x.Apart g := fun x hx => by
        obtain ⟨h1, h2, h3⟩ := hf x hx
        exact ⟨h2, h1, h3.symm⟩
      rw [foldl_fieldStep_apart hlater, fieldStep_same (h g (.head _))]
    | tail _ hg =>
      refine ih hl (fun x hx => ?_) hg
      rw [fieldStep_apart (hf x hx), h x (.tail _ hx)]

/-- A write meets the lock where it would change a locked field. -/
theorem foldl_fieldStep_snd (l : List RegField) (acc : Nat × Bool) :
    (l.foldl (fieldStep locked v old) acc).2 =
      (acc.2 || l.any (fun f => locked && f.acc == .rwl && bitsOf v f.hi f.lo != bitsOf old f.hi f.lo)) := by
  induction l generalizing acc with
  | nil => simp
  | cons f l ih =>
    rw [List.foldl_cons, ih, List.any_cons, ← Bool.or_assoc]
    congr 1
    cases hacc : f.acc <;> cases locked <;> simp [fieldStep, hacc]

end

/-- What a write leaves in each field of a register (R3, R4, R474). -/
theorem State.writeResult_fst (s : State) (k : RegKey) (v : Nat) {f : RegField} (hf : f ∈ k.r.row.fields) :
    bitsOf (s.writeResult k v).1 f.hi f.lo = fieldResult s.rwlLocked f v (s.reg k) := by
  rw [writeResult_eq_foldl]
  exact foldl_fieldStep_fst (acc := (s.reg k, false)) k.r.fields_apart (fun _ _ => rfl) hf

/-- A write asks for a REG_LOCKED record where RWL fields are locked and it would change one (R474). -/
theorem State.writeResult_snd (s : State) (k : RegKey) (v : Nat) :
    (s.writeResult k v).2 = true ↔
      s.rwlLocked = true ∧ ∃ f ∈ k.r.row.fields, f.acc = .rwl ∧ bitsOf v f.hi f.lo ≠ s.regBits k f.hi f.lo := by
  rw [writeResult_eq_foldl, foldl_fieldStep_snd]
  simp only [Bool.false_or, List.any_eq_true, Bool.and_eq_true, beq_iff_eq, bne_iff_ne, State.regBits]
  exact ⟨fun ⟨f, hf, ⟨hl, ha⟩, hne⟩ => ⟨hl, f, hf, ha, hne⟩, fun ⟨hl, f, hf, ha, hne⟩ => ⟨f, hf, ⟨hl, ha⟩, hne⟩⟩

/-- A register write, by what it leaves and whether it meets the lock. -/
theorem State.regWrite_eq (s : State) (k : RegKey) (v size : Nat) (check : Nat → Bool) :
    s.regWrite k v size check =
      (let u := if (s.writeResult k v).2 then s.emit (s.regRecord .regLocked k v size) else s
      if check (s.writeResult k v).1 then u.setReg k (s.writeResult k v).1 else u.badValue k v size) := rfl

@[simp] theorem State.regRecord_cls (s : State) (cls : RecClass) (k : RegKey) (v size : Nat) : (s.regRecord cls k v size).cls = cls := by
  unfold State.regRecord
  obtain ⟨sc, hsc⟩ : ∃ x, k.r.row.scope = x := ⟨_, rfl⟩
  rw [hsc]
  cases sc <;> rfl

end Sys2Proof.Machine
end

section
namespace Sys2Proof.Machine

/-! A host write that reaches a register. -/

/-- A write of a register's whole width at its place is a write of the register (R442, R444). -/
theorem State.barWrite_reg {s : State} {place : Nat → BarPlace} {bar off size v : Nat} {k : RegKey} (hplace : place off = .reg k 0)
    (htrains : s.job.state.trains = true) (hwidth : k.r.row.width / 8 = size) (hsize : size = 4 ∨ size = 8) (halign : off % size = 0)
    (hv : v < 2 ^ (8 * size)) : s.barWrite place bar off size v = s.regPut k v size := by
  have hserves : s.serves k = true := by simp [State.serves, htrains]
  have hone : ¬(size = 8 ∧ k.r.row.width = 32) := fun ⟨h8, h32⟩ => by simp [← hwidth, h32] at h8
  have hcontains : ([1, 2, 4, 8] : List Nat).contains size = true := by rcases hsize with rfl | rfl <;> rfl
  have hbig : ¬size < 4 := by omega
  simp only [State.barWrite, hcontains, halign, hbig, Nat.mod_eq_of_lt hv, State.wordPut, hplace, hserves, hone, State.slotPut, hwidth]
  simp

theorem State.barPlace_module {s : State} {off : Nat} (h : off < 0x10_0000) : s.barPlace off = placeIn .module off modRegI := by
  simp [State.barPlace, h]

/-- Where the five registers stand, and that an access of their width is aligned there (R456). -/
theorem plainRegs_place : ∀ n ∈ Claims.plainRegs, n.row.scope = .module ∧ n.row.offset < 0x10_0000 ∧
    placeIn .module n.row.offset modRegI = .reg (modReg n) 0 ∧ (n.row.width / 8 = 4 ∨ n.row.width / 8 = 8) ∧
    n.row.offset % (n.row.width / 8) = 0 ∧ 8 * (n.row.width / 8) = n.row.width := by decide

theorem State.modulePut_plain {s : State} {n : RegName} (hn : n ∈ Claims.plainRegs) (v size : Nat) :
    s.modulePut (modReg n) v size = s.regWrite (modReg n) v size (s.regOk (modReg n)) := by
  simp only [Claims.plainRegs, List.mem_cons, List.not_mem_nil, or_false] at hn
  obtain rfl | rfl | rfl | rfl | rfl := hn <;> rfl

theorem exec_registerWrite (off size v : Nat) (s : State) :
    exec (.registerWrite { offset := off, size := size, value := v }) s = .next (s.barWrite s.barPlace 0 off size v) := rfl

/-- REGISTER_WRITE of one of the five registers is a register write by its access codes and its rule. -/
theorem exec_registerWrite_plain {s : State} (htrains : s.job.state.trains = true) {n : RegName} (hn : n ∈ Claims.plainRegs) {x : Nat}
    (hx : x < 2 ^ n.row.width) :
    exec (.registerWrite { offset := s.regPlace (modReg n), size := n.row.width / 8, value := x }) s =
      .next (s.regWrite (modReg n) x (n.row.width / 8) (s.regOk (modReg n))) := by
  obtain ⟨hscope, hoff, hplace, hsize, halign, hwidth⟩ := plainRegs_place n hn
  have hat : s.regPlace (modReg n) = n.row.offset := by simp [State.regPlace, modReg, hscope]
  have hput : s.regPut (modReg n) x (n.row.width / 8) = s.modulePut (modReg n) x (n.row.width / 8) := by
    simp only [State.regPut, modReg, hscope]
  have hwrite : s.barWrite s.barPlace 0 n.row.offset (n.row.width / 8) x = s.regPut (modReg n) x (n.row.width / 8) :=
    State.barWrite_reg ((State.barPlace_module hoff).trans hplace) htrains rfl hsize halign (hwidth.symm ▸ hx)
  rw [exec_registerWrite, hat, hwrite, hput, State.modulePut_plain hn]

theorem engineOf_engineNum (e : Engine) : engineOf (engineNum e) = e := by cases e <;> rfl

theorem engineNum_lt (e : Engine) : engineNum e < 4 := by cases e <;> decide

theorem queueReg_queue (r : RegName) (q : QueueId) : (queueReg r q).queue = some q := by
  simp [RegKey.queue, queueReg, engineOf_engineNum]

/-- Q_CFG of queue q lies at 0x10 of its 4 KB (R458). -/
theorem State.regPlace_qCfg (s : State) (q : QueueId) :
    s.regPlace (queueReg .qCfg q) = 0x100_0000 + q.tract.val * 0x10_0000 + 0xF_0000 + engineNum q.engine * 0x1000 + 0x10 := by
  simp [State.regPlace, queueReg, RegName.row]

theorem tractPlace_queue {t e : Nat} (he : e < 4) :
    tractPlace t (0xF_0000 + e * 0x1000 + 0x10) = .reg { r := .qCfg, t := t, p := 0, i := e } 0 := by
  have hhigh : ¬0xF_0000 + e * 0x1000 + 0x10 < 0xF_0000 := by omega
  have hlow : 0xF_0000 + e * 0x1000 + 0x10 < 0xF_4000 := by omega
  have hblock : (0xF_0000 + e * 0x1000 + 0x10) % 0x1000 = 0x10 := by omega
  have hengine : (0xF_0000 + e * 0x1000 + 0x10 - 0xF_0000) / 0x1000 = e := by omega
  have hreg : regAt .queue 0x10 = some (.qCfg, 0) := by decide
  rw [tractPlace, if_neg hhigh, if_pos hlow, hblock, hengine, placeIn, hreg]
  rfl

/-- The blocks of the tracts in the map of BAR0 (R441, R446). -/
theorem State.barPlace_tract {s : State} {t o : Nat} (ht : t < 12) (ho : o < 0x10_0000) (h : s.tractServed t = true) :
    s.barPlace (0x100_0000 + t * 0x10_0000 + o) = tractPlace t o := by
  have htract : (0x100_0000 + t * 0x10_0000 + o - 0x100_0000) / 0x10_0000 = t := by omega
  have hin : (0x100_0000 + t * 0x10_0000 + o) % 0x10_0000 = o := by omega
  have hlow : 0x100_0000 ≤ 0x100_0000 + t * 0x10_0000 + o ∧ 0x100_0000 + t * 0x10_0000 + o < 0x1C0_0000 := by omega
  rw [State.barPlace, if_neg (by omega), if_neg (by omega), if_neg (by omega), if_neg (by omega), if_neg (by omega), if_neg (by omega),
    if_neg (by omega), if_pos hlow]
  simp only [htract, hin, h, if_true]

/-- REGISTER_WRITE of a queue's Q_CFG is a register write by its access codes and its rule (R370). -/
theorem exec_registerWrite_qCfg {s : State} (htrains : s.job.state.trains = true) {q : QueueId} (h : s.tractServed q.tract.val = true) (v : Word) :
    exec (.registerWrite { offset := s.regPlace (queueReg .qCfg q), size := 4, value := v.toNat }) s =
      .next (s.regWrite (queueReg .qCfg q) v.toNat 4 qCfgOk) := by
  have he := engineNum_lt q.engine
  have hplace : s.barPlace (s.regPlace (queueReg .qCfg q)) = .reg (queueReg .qCfg q) 0 := by
    rw [State.regPlace_qCfg, Nat.add_assoc, Nat.add_assoc, State.barPlace_tract q.tract.isLt (by omega) h, ← Nat.add_assoc, tractPlace_queue he]
    rfl
  have halign : s.regPlace (queueReg .qCfg q) % 4 = 0 := by rw [State.regPlace_qCfg]; omega
  have hput : s.regPut (queueReg .qCfg q) v.toNat 4 = s.queuePut (queueReg .qCfg q) q v.toNat 4 := by
    simp only [State.regPut, queueReg_queue]
    rfl
  have hwrite : s.barWrite s.barPlace 0 (s.regPlace (queueReg .qCfg q)) 4 v.toNat = s.regPut (queueReg .qCfg q) v.toNat 4 :=
    State.barWrite_reg hplace htrains (by simp [queueReg, RegName.row]) (.inl rfl) halign v.isLt
  rw [exec_registerWrite, hwrite, hput]
  rfl

/-- While RWL fields are locked, a write leaves each field as its access code and the lock say (R474). -/
theorem regWrite_locked {s : State} (hlock : s.rwlLocked = true) (k : RegKey) (v size : Nat) (check : Nat → Bool) : ∃ (r : Nat) (u : State),
    (∀ f ∈ k.r.row.fields, bitsOf r f.hi f.lo = Claims.lockedField f v (s.reg k)) ∧
    ((∃ f ∈ k.r.row.fields, f.acc = .rwl ∧ bitsOf v f.hi f.lo ≠ s.regBits k f.hi f.lo) → ∃ d, d.cls = .regLocked ∧ u = s.emit d) ∧
    ((∀ f ∈ k.r.row.fields, f.acc = .rwl → bitsOf v f.hi f.lo = s.regBits k f.hi f.lo) → u = s) ∧
    (check r = true → s.regWrite k v size check = u.setReg k r) ∧
    (check r = false → ∃ d, d.cls = .regBadValue ∧ s.regWrite k v size check = u.emit d) := by
  refine ⟨(s.writeResult k v).1, if (s.writeResult k v).2 then s.emit (s.regRecord .regLocked k v size) else s, ?_, ?_, ?_, ?_, ?_⟩
  · intro f hf
    rw [State.writeResult_fst s k v hf, fieldResult, hlock]
    simp
  · intro hdiff
    have hmeets := (State.writeResult_snd s k v).2 ⟨hlock, hdiff⟩
    exact ⟨_, State.regRecord_cls .., if_pos hmeets⟩
  · intro hsame
    have hmeets : ¬(s.writeResult k v).2 = true := fun hm => by
      obtain ⟨-, f, hf, ha, hne⟩ := (State.writeResult_snd s k v).1 hm
      exact hne (hsame f hf ha)
    exact if_neg hmeets
  · intro hcheck
    rw [State.regWrite_eq, hcheck]
    rfl
  · intro hcheck
    rw [State.regWrite_eq, hcheck]
    exact ⟨_, State.regRecord_cls .., rfl⟩

/-- Settles O57: the register write field by field, and the commands that are such a write. -/
theorem lockedFieldsKeepTheirValue : Obligations.LockedFieldsKeepTheirValue := fun _ hlock =>
  ⟨regWrite_locked hlock, fun htrains v => ⟨fun _ hq => exec_registerWrite_qCfg htrains hq v, fun _ hn _ => exec_registerWrite_plain htrains hn⟩⟩

end Sys2Proof.Machine
end

section
namespace Sys2Proof.Machine

/-! A register write while RWL fields are unlocked. -/

theorem regWrite_unlocked {s : State} (hlock : s.rwlLocked = false) (k : RegKey) (v size : Nat) (check : Nat → Bool) :
    s.regWrite k v size check = if check (s.writeResult k v).1 then s.setReg k (s.writeResult k v).1 else s.badValue k v size := by
  have hmeets : ¬(s.writeResult k v).2 = true := fun hm => by
    rw [State.writeResult_snd, hlock] at hm
    exact Bool.false_ne_true hm.1
  rw [State.regWrite_eq, if_neg hmeets]

/-- A field the host writes takes the bits written. -/
theorem writeResult_unlocked {s : State} (hlock : s.rwlLocked = false) (k : RegKey) (v : Nat) {f : RegField} (hf : f ∈ k.r.row.fields)
    (hacc : f.acc = .rw ∨ f.acc = .rwl) : bitsOf (s.writeResult k v).1 f.hi f.lo = bitsOf v f.hi f.lo := by
  rw [State.writeResult_fst s k v hf, hlock]
  rcases hacc with hacc | hacc <;> simp [fieldResult, Claims.lockedField, hacc]

/-- A write the rule admits changes the register alone; the rule may be asked of the value written where it looks at fields only. -/
theorem regWrite_admitted {s : State} (hlock : s.rwlLocked = false) {k : RegKey} {v size : Nat} {check : Nat → Bool}
    (hcheck : check (s.writeResult k v).1 = check v) :
    (check v = true → s.regWrite k v size check = s.setReg k (s.writeResult k v).1) ∧
    (check v = false → s.regWrite k v size check = s.badValue k v size) := by
  rw [regWrite_unlocked hlock, hcheck]
  exact ⟨fun h => by simp [h], fun h => by simp [h]⟩

theorem plainRegs_acc : ∀ n ∈ Claims.plainRegs, ∀ f ∈ n.row.fields, f.acc = .rw ∨ f.acc = .rwl := by decide

/-- The rules of the five registers look at their fields only (R216, R382, R444). -/
theorem State.regOk_congr (s : State) {n : RegName} (hn : n ∈ Claims.plainRegs) {a b : Nat}
    (h : ∀ f ∈ n.row.fields, bitsOf a f.hi f.lo = bitsOf b f.hi f.lo) : s.regOk (modReg n) a = s.regOk (modReg n) b := by
  simp only [Claims.plainRegs, List.mem_cons, List.not_mem_nil, or_false] at hn
  obtain rfl | rfl | rfl | rfl | rfl := hn
  · rfl
  · simp only [RegName.row, fld, List.forall_mem_cons] at h
    simp [State.regOk, modReg, stepCfgOk, h]
  · simp only [RegName.row, fld, List.forall_mem_cons] at h
    simp [State.regOk, modReg, fabCtlOk, h]
  · simp only [RegName.row, fld, List.forall_mem_cons] at h
    simp [State.regOk, modReg, pwrCtlOk, h]
  · simp only [RegName.row, fld, List.forall_mem_cons] at h
    simp [State.regOk, modReg, relCtlOk, h]

/-- Q_CFG's three fields fill its low 11 bits. -/
theorem qCfg_low {a b : Nat} (h : ∀ f ∈ RegName.qCfg.row.fields, bitsOf a f.hi f.lo = bitsOf b f.hi f.lo) :
    qCfgOk a = qCfgOk b ∧ bitsOf a 10 0 = bitsOf b 10 0 := by
  simp only [RegName.row, fld, List.forall_mem_cons] at h
  obtain ⟨hlog, hclog, hen, -⟩ := h
  refine ⟨by simp [qCfgOk, hlog, hclog], ?_⟩
  simp only [bitsOf] at hlog hclog hen ⊢
  omega

theorem qCfg_acc : ∀ f ∈ RegName.qCfg.row.fields, f.acc = .rw ∨ f.acc = .rwl := by decide

/-! The token buffer (R453). -/

/-- Addresses of a list of bytes rise strictly. -/
abbrev Rising (l : List (Nat × Byte)) : Prop := l.Pairwise (fun a b => a.1 < b.1)

theorem byteAt_of_lt {l : List (Nat × Byte)} {a : Nat} (h : ∀ q ∈ l, a < q.1) : byteAt l a = 0 := by
  cases l with
  | nil => rfl
  | cons q l =>
    have hq := h q (.head _)
    simp [byteAt, hq, Nat.ne_of_gt hq]

/-- In a rising list an entry counts at its own address only. -/
theorem byteAt_cons_ne {k x : Nat} {v : Byte} {l : List (Nat × Byte)} (h : Rising ((k, v) :: l)) (hx : x ≠ k) :
    byteAt ((k, v) :: l) x = byteAt l x := by
  by_cases hlt : x < k
  · rw [byteAt, if_neg hx.symm, if_pos hlt, byteAt_of_lt fun q hq => hlt.trans ((List.pairwise_cons.1 h).1 q hq)]
  · rw [byteAt, if_neg hx.symm, if_neg hlt]

theorem byteAt_cons_self (k : Nat) (v : Byte) (l : List (Nat × Byte)) : byteAt ((k, v) :: l) k = v := if_pos rfl

theorem putByte_rising {l : List (Nat × Byte)} (h : Rising l) (a : Nat) (b : Byte) : Rising (putByte l a b) := by
  induction l with
  | nil => unfold putByte; split <;> simp
  | cons q l ih =>
    obtain ⟨k, v⟩ := q
    obtain ⟨hq, hl⟩ := List.pairwise_cons.1 h
    rcases Nat.lt_trichotomy a k with hlt | rfl | hgt
    · have hbelow : ∀ x ∈ (k, v) :: l, a < x.1 := List.forall_mem_cons.2 ⟨hlt, fun x hx => hlt.trans (hq x hx)⟩
      rw [putByte, if_pos hlt]
      split
      · exact h
      · exact List.pairwise_cons.2 ⟨hbelow, h⟩
    · rw [putByte, if_neg (Nat.lt_irrefl a), if_pos rfl]
      split
      · exact hl
      · exact List.pairwise_cons.2 ⟨hq, hl⟩
    · rw [putByte, if_neg (Nat.not_lt_of_gt hgt), if_neg (Nat.ne_of_gt hgt)]
      refine List.pairwise_cons.2 ⟨fun x hx => ?_, ih hl⟩
      rcases putByte_fst l a b x hx with hx | ⟨rfl, -⟩
      · exact hq x hx
      · exact hgt

/-- byteAt_putByte for a list that may hold zeros: the order is all it needs. -/
theorem byteAt_putByte_rising {l : List (Nat × Byte)} (h : Rising l) (a x : Nat) (b : Byte) :
    byteAt (putByte l a b) x = if x = a then b else byteAt l x := by
  induction l with
  | nil =>
    by_cases hb : b = 0
    · subst hb
      simp [putByte, byteAt]
    · rw [putByte, if_neg hb]
      split
      · next hx => rw [hx, byteAt_cons_self]
      · next hx => rw [byteAt_cons_ne (List.pairwise_singleton ..) hx]
  | cons q l ih =>
    obtain ⟨k, v⟩ := q
    obtain ⟨hq, hl⟩ := List.pairwise_cons.1 h
    have hput := putByte_rising h a b
    rcases Nat.lt_trichotomy a k with hlt | rfl | hgt
    · have hbelow : ∀ x ∈ (k, v) :: l, a < x.1 := List.forall_mem_cons.2 ⟨hlt, fun x hx => hlt.trans (hq x hx)⟩
      rw [putByte, if_pos hlt] at hput ⊢
      by_cases hb : b = 0
      · rw [if_pos hb]
        split
        · next hx => rw [hx, byteAt_of_lt hbelow, hb]
        · rfl
      · rw [if_neg hb] at hput ⊢
        split
        · next hx => rw [hx, byteAt_cons_self]
        · next hx => rw [byteAt_cons_ne hput hx]
    · rw [putByte, if_neg (Nat.lt_irrefl a), if_pos rfl] at hput ⊢
      by_cases hb : b = 0
      · rw [if_pos hb]
        split
        · next hx => rw [hx, byteAt_of_lt hq, hb]
        · next hx => rw [byteAt_cons_ne h hx]
      · rw [if_neg hb] at hput ⊢
        split
        · next hx => rw [hx, byteAt_cons_self]
        · next hx => rw [byteAt_cons_ne hput hx, byteAt_cons_ne h hx]
    · rw [putByte, if_neg (Nat.not_lt_of_gt hgt), if_neg (Nat.ne_of_gt hgt)] at hput ⊢
      by_cases hx : x = k
      · rw [hx, byteAt_cons_self, byteAt_cons_self, if_neg (Nat.ne_of_lt hgt)]
      · rw [byteAt_cons_ne hput hx, byteAt_cons_ne h hx, ih hl]

theorem byteAt_putBytes_rising (bs : List Byte) {l : List (Nat × Byte)} (h : Rising l) (a x : Nat) :
    byteAt (putBytes l a bs) x = if a ≤ x ∧ x < a + bs.length then bs.getD (x - a) 0 else byteAt l x := by
  induction bs generalizing l a with
  | nil => simp [putBytes]
  | cons b bs ih =>
    rw [putBytes, ih (putByte_rising h a b), byteAt_putByte_rising h]
    rcases Nat.lt_trichotomy x a with hlt | rfl | hgt
    · rw [if_neg (by omega), if_neg (by omega), if_neg (by omega)]
    · rw [if_neg (by omega), if_pos rfl, if_pos (by simp), Nat.sub_self, List.getD_cons_zero]
    · obtain ⟨d, rfl⟩ : ∃ d, x = a + 1 + d := ⟨x - (a + 1), by omega⟩
      have hsub : a + 1 + d - a = d + 1 := by omega
      have hsub' : a + 1 + d - (a + 1) = d := by omega
      have hrange : (a ≤ a + 1 + d ∧ a + 1 + d < a + (b :: bs).length) ↔ (a + 1 ≤ a + 1 + d ∧ a + 1 + d < a + 1 + bs.length) := by
        simp only [List.length_cons]
        omega
      rw [if_neg (by omega : a + 1 + d ≠ a), hsub, hsub', List.getD_cons_succ]
      simp only [hrange]

theorem natLe_length (n v : Nat) : (natLe n v).length = n := by
  induction n generalizing v with
  | zero => rfl
  | succ n ih => rw [natLe, List.length_cons, ih]

/-- A write of 4 bytes at an offset of the token buffer (R441, R453). -/
theorem exec_registerWrite_token {s : State} (htrains : s.job.state.trains = true) {o : Nat} (halign : o % 4 = 0) (ho : o < 0x1000) (v : Word) :
    exec (.registerWrite { offset := 0x14_0000 + o, size := 4, value := v.toNat }) s =
      .next (s.modSec (fun w => { w with token := putBytes w.token o (natLe 4 v.toNat) })) := by
  have hplace : s.barPlace (0x14_0000 + o) = .token o := by
    rw [State.barPlace, if_neg (by omega), if_neg (by omega), if_pos (by omega), Nat.add_sub_cancel_left]
  have hmod : (0x14_0000 + o) % 4 = 0 := by omega
  have hv : v.toNat % 2 ^ (8 * 4) = v.toNat := Nat.mod_eq_of_lt v.isLt
  rw [exec_registerWrite, State.barWrite, hmod, hv, State.wordPut, hplace]
  simp [htrains]

/-- Settles O58: an admitted write leaves its bits in the fields, a refused one its record, and the token buffer its bytes. -/
theorem registerWritesTakeEffect : Obligations.RegisterWritesTakeEffect := by
  intro s hlock htrains
  refine ⟨fun n hn x hx => ?_, fun q v hq => ?_, fun o v halign ho hrise => ?_⟩
  · have hfields : ∀ f ∈ n.row.fields, bitsOf (s.writeResult (modReg n) x).1 f.hi f.lo = bitsOf x f.hi f.lo :=
      fun f hf => writeResult_unlocked hlock (modReg n) x hf (plainRegs_acc n hn f hf)
    obtain ⟨hok, hbad⟩ := regWrite_admitted (size := n.row.width / 8) hlock (s.regOk_congr hn hfields)
    rw [exec_registerWrite_plain htrains hn hx]
    refine ⟨fun h => ⟨_, congrArg _ (hok h), rfl, fun f hf => ?_, fun k hk => ?_⟩, fun h => congrArg _ (hbad h)⟩
    · rw [State.regBits, State.reg_setReg, if_pos rfl, hfields f hf]
    · rw [State.reg_setReg, if_neg hk]
  · have hfields : ∀ f ∈ RegName.qCfg.row.fields, bitsOf (s.writeResult (queueReg .qCfg q) v.toNat).1 f.hi f.lo = bitsOf v.toNat f.hi f.lo :=
      fun f hf => writeResult_unlocked hlock (queueReg .qCfg q) v.toNat hf (qCfg_acc f hf)
    obtain ⟨hcheck, hlow⟩ := qCfg_low hfields
    obtain ⟨hok, hbad⟩ := regWrite_admitted (size := 4) hlock hcheck
    rw [exec_registerWrite_qCfg htrains hq]
    refine ⟨fun h => ⟨_, congrArg _ (hok h), rfl, ?_, fun k hk => ?_⟩, fun h => congrArg _ (hbad h)⟩
    · rw [State.regBits, State.reg_setReg, if_pos rfl, hlow]
    · rw [State.reg_setReg, if_neg hk]
  · refine ⟨_, exec_registerWrite_token htrains halign ho v, rfl, rfl, fun a => ?_⟩
    have hbytes := byteAt_putBytes_rising (natLe 4 v.toNat) hrise o a
    rwa [natLe_length] at hbytes

end Sys2Proof.Machine
end

section
/-!
PROOFS (O48). Job control: what the messages of links and of the host change, what a record changes in the registers, and the requests of
R21, R22 and R448.
-/
namespace Sys2Proof.Machine

/-! Messages. -/

/-- Messages have gone out and ports have changed, and nothing else has. -/
def State.OnlyTraffic (s t : State) : Prop := ∃ regs links host out, t = { s with regs := regs, links := links, host := host, out := out }

theorem State.OnlyTraffic.refl (s : State) : s.OnlyTraffic s := ⟨s.regs, s.links, s.host, s.out, rfl⟩

theorem State.OnlyTraffic.trans {s t u : State} (h : s.OnlyTraffic t) (h' : t.OnlyTraffic u) : s.OnlyTraffic u := by
  obtain ⟨_, _, _, _, rfl⟩ := h
  obtain ⟨regs, links, host, out, rfl⟩ := h'
  exact ⟨regs, links, host, out, rfl⟩

theorem State.OnlyTraffic.foldl {α : Type} {f : State → α → State} (hf : ∀ (s : State) x, s.OnlyTraffic (f s x)) (l : List α) (s : State) :
    s.OnlyTraffic (l.foldl f s) :=
  List.foldlRecOn (motive := s.OnlyTraffic) l f (.refl s) (fun u hu x _ => hu.trans (hf u x))

section
variable {s t : State} (h : s.OnlyTraffic t)
include h
theorem State.OnlyTraffic.mem : t.mem = s.mem := by obtain ⟨_, _, _, _, rfl⟩ := h; rfl
theorem State.OnlyTraffic.cores : t.cores = s.cores := by obtain ⟨_, _, _, _, rfl⟩ := h; rfl
theorem State.OnlyTraffic.parcels : t.parcels = s.parcels := by obtain ⟨_, _, _, _, rfl⟩ := h; rfl
theorem State.OnlyTraffic.queues : t.queues = s.queues := by obtain ⟨_, _, _, _, rfl⟩ := h; rfl
theorem State.OnlyTraffic.job : t.job = s.job := by obtain ⟨_, _, _, _, rfl⟩ := h; rfl
theorem State.OnlyTraffic.plan : t.plan = s.plan := by obtain ⟨_, _, _, _, rfl⟩ := h; rfl
end

theorem State.setRegBits_traffic (s : State) (k : RegKey) (hi lo v : Nat) : s.OnlyTraffic (s.setRegBits k hi lo v) := ⟨_, _, _, _, rfl⟩

theorem State.modLink_traffic (s : State) (p : Port) (f : LinkPort → LinkPort) : s.OnlyTraffic (s.modLink p f) := ⟨_, _, _, _, rfl⟩

theorem State.send_traffic (s : State) (m : OutMsg) : s.OnlyTraffic (s.send m) := by
  have hout : s.OnlyTraffic { s with out := s.out ++ [m] } := ⟨_, _, _, _, rfl⟩
  unfold State.send State.sendFrom
  dsimp only
  split
  · exact hout.trans (State.modLink_traffic ..)
  · exact hout

theorem State.msix_traffic (s : State) (v : Nat) : s.OnlyTraffic (s.msix v) := by
  unfold State.msix
  split
  · exact s.send_traffic _
  · exact .refl s

theorem State.hostWrite_traffic (s : State) (addr : Nat) (data : List Byte) : s.OnlyTraffic (s.hostWrite addr data) := by
  unfold State.hostWrite
  split
  · exact s.send_traffic _
  · exact ⟨_, _, _, _, rfl⟩

theorem State.setPort_traffic (s : State) (p : Port) (st : Nat) : s.OnlyTraffic (s.setPort p st) := by
  unfold State.setPort
  split
  · exact .refl s
  · exact (s.setRegBits_traffic ..).trans (State.msix_traffic ..)

theorem State.judgePort_traffic (s : State) (p : Port) (m : ParamMsg) : s.OnlyTraffic (s.judgePort p m) :=
  (((s.modLink_traffic ..).trans (State.setRegBits_traffic ..)).trans (State.setRegBits_traffic ..)).trans (State.setPort_traffic ..)

theorem State.linksReeval_traffic (s : State) : s.OnlyTraffic s.linksReeval := by
  refine State.OnlyTraffic.foldl (fun u p => ?_) _ s
  split
  · exact .refl u
  · dsimp only
    split
    · exact (u.send_traffic _).trans (State.judgePort_traffic ..)
    · exact u.send_traffic _

theorem State.giveUnits_traffic (s : State) (p : Port) (vc n : Nat) : s.OnlyTraffic (s.giveUnits p vc n) := s.modLink_traffic ..

theorem State.leaveBuffers_traffic (s : State) (vc : Nat) (ms : List TxMsg) : s.OnlyTraffic (s.leaveBuffers vc ms) := by
  refine State.OnlyTraffic.foldl (fun u m => ?_) ms s
  split
  · exact u.giveUnits_traffic ..
  · exact .refl u

theorem State.leaveInbox_traffic (s : State) (ms : List InReq) : s.OnlyTraffic (s.leaveInbox ms) := by
  refine State.OnlyTraffic.foldl (fun u m => ?_) ms s
  split
  · exact u.giveUnits_traffic ..
  · exact .refl u

theorem State.returnBuffers_traffic (s : State) : s.OnlyTraffic s.returnBuffers := by
  have hinbox := State.OnlyTraffic.foldl (f := fun (u : State) (q : Tract × TractFab) => u.leaveInbox q.2.inbox)
    (fun u q => u.leaveInbox_traffic _) s.fabs s
  exact hinbox.trans (State.OnlyTraffic.foldl (fun u q => (u.leaveBuffers_traffic ..).trans (State.leaveBuffers_traffic ..)) _ _)

theorem State.sendBoundary_traffic (s : State) (dst : Nat) (m : BoundaryMsg) : s.OnlyTraffic (s.sendBoundary dst m) := by
  unfold State.sendBoundary
  split
  · exact s.send_traffic _
  · exact .refl s

/-! Registers that records leave alone. -/

section
variable {k : RegKey} (hErr : k ≠ modReg .errStat) (hSnap : k ≠ modReg .snapStat)
include hErr

theorem State.countLost_reg (s : State) : s.countLost.reg k = s.reg k := by
  simp [State.countLost, State.raise, State.bumpReg, hErr]

theorem State.emitCd_reg (s : State) (r : ErrRec) : (s.emitCd r).reg k = s.reg k := by
  unfold State.emitCd
  dsimp only
  split
  · rw [State.countLost_reg hErr]; rfl
  · rfl

theorem State.emitTract_reg (s : State) (t : Tract) (r : ErrRec) : (s.emitTract t r).reg k = s.reg k := by
  unfold State.emitTract
  dsimp only
  split
  · rw [State.countLost_reg hErr]; rfl
  · rfl

theorem State.queueRec_reg (s : State) (r : ErrRec) : (s.queueRec r).reg k = s.reg k := by
  unfold State.queueRec
  split
  · split
    · exact s.emitCd_reg hErr r
    · exact s.emitTract_reg hErr _ r
  · exact s.emitCd_reg hErr r

include hSnap

theorem State.restoreFail_reg (s : State) (cause : Nat) (more : List Nat) : (s.restoreFail cause more).reg k = s.reg k := by
  unfold State.restoreFail
  dsimp only
  rw [State.queueRec_reg hErr]
  show ((s.setRegBits (modReg .snapStat) 1 0 3).setRegBits (modReg .snapStat) 5 2 cause).reg k = s.reg k
  simp [hSnap]

/-- A record changes no registers but ERR_STAT and, where it stops a restore, SNAP_STAT (R417, R439). -/
theorem State.emit_reg (s : State) (r : ErrRec) : (s.emit r).reg k = s.reg k := by
  have hqueue : ((s.noteAbort r).queueRec r).reg k = s.reg k := by
    rw [State.queueRec_reg hErr]
    unfold State.noteAbort
    split <;> rfl
  unfold State.emit
  dsimp only
  split
  · rw [State.restoreFail_reg hErr hSnap, hqueue]
  · exact hqueue
end

/-! BIND, ARM and RELEASE (R448). -/

theorem State.jobBusy_only (s : State) (value : Nat) : s.OnlyRecords (s.jobBusy value) := s.emit_only _

theorem State.bindJob_ready {s : State} (hstate : s.job.state = .ready) (hbusy : s.job.busy = false) (hupd : s.updBusy = false) (m : BitVec 12)
    (value : Nat) : s.bindJob m value =
      ({ s with job := { s.job with state := .owned, moduleId := m, armedTime := 0, aborts := 0, wasArmed := false } } : State).linksReeval := by
  simp [State.bindJob, hstate, hbusy, hupd, JobState.trains]

theorem State.bindJob_refused {s : State} (htrains : s.job.state.trains = true) (hstate : s.job.state ≠ .ready) (m : BitVec 12) (value : Nat) :
    s.bindJob m value = s.jobBusy value := by
  simp [State.bindJob, hstate, htrains]

theorem State.armJob_owned {s : State} (hstate : s.job.state = .owned) (hbusy : s.job.busy = false) (hupd : s.updBusy = false) (value : Nat) :
    s.armJob value = { s with job := { s.job with busy := true } } := by
  simp [State.armJob, hstate, hbusy, hupd, JobState.trains]

theorem State.armJob_refused {s : State} (htrains : s.job.state.trains = true) (hstate : s.job.state ≠ .owned) (value : Nat) :
    s.armJob value = s.jobBusy value := by
  simp [State.armJob, hstate, htrains]

theorem State.releaseJob_ready {s : State} (hstate : s.job.state = .ready) (value : Nat) : s.releaseJob value = s := by
  simp [State.releaseJob, hstate]

/-- A release in OWNED or ARMED is accepted unless BUSY. -/
theorem State.releaseJob_active {s : State} (hstate : s.job.state = .owned ∨ s.job.state = .armed) (value : Nat) :
    s.releaseJob value = if s.job.busy then s.jobBusy value else s.beginRelease := by
  rcases hstate with hstate | hstate <;> simp [State.releaseJob, hstate, JobState.trains]

/-! ARM_VALIDATED. -/

/-- The state once Milulo has validated (R448). -/
def State.validated (s : State) : State := { s with job := { s.job with busy := false } }

/-- The state a valid configuration leaves, before the first agreement (R5, R256, R345, R448). -/
def State.nowArmed (s : State) : State :=
  { s with
    job := { s.job with state := .armed, locked := true, wasArmed := true, skip := s.regBits (modReg .optCtl) 0 0 == 1 }
    fabric := { s.fabric with rtab := s.readRtab.getD [], epoch := 0 } }

/-- ARM_VALIDATED of a configuration; what validation looks at does not depend on BUSY. -/
theorem exec_armValidated_owned {s : State} (hstate : s.job.state = .owned) (hbusy : s.job.busy = true) :
    exec .armValidated s = .next (match s.armFault with
      | some f => s.validated.armReject f
      | none => s.validated.nowArmed.beginAgree) := by
  have hfault : s.validated.armFault = s.armFault := rfl
  rw [← hfault]
  show execArmValidated s = _
  unfold execArmValidated
  rw [if_neg (by simp [hstate, hbusy])]
  rfl

theorem exec_armValidated_other {s : State} (hstate : s.job.state ≠ .owned) : exec .armValidated s = .next s := by
  show execArmValidated s = _
  unfold execArmValidated
  rw [if_pos (by simp [hstate])]

/-- Messages have gone out and the plan's state has changed, and nothing else has. -/
def State.OnlyBoundary (s t : State) : Prop :=
  ∃ plan regs links host out, t = { s with plan := plan, regs := regs, links := links, host := host, out := out }

theorem State.OnlyBoundary.trans {s t u : State} (h : s.OnlyBoundary t) (h' : t.OnlyBoundary u) : s.OnlyBoundary u := by
  obtain ⟨_, _, _, _, _, rfl⟩ := h
  obtain ⟨plan, regs, links, host, out, rfl⟩ := h'
  exact ⟨plan, regs, links, host, out, rfl⟩

theorem State.OnlyTraffic.boundary {s t : State} (h : s.OnlyTraffic t) : s.OnlyBoundary t := by
  obtain ⟨regs, links, host, out, rfl⟩ := h
  exact ⟨s.plan, regs, links, host, out, rfl⟩

theorem State.modBnd_boundary (s : State) (f : Boundary → Boundary) : s.OnlyBoundary (s.modBnd f) := ⟨_, _, _, _, _, rfl⟩

theorem State.agreed_boundary (s : State) (m : BoundaryMsg) : s.OnlyBoundary (s.agreed m) := by
  unfold State.agreed
  split
  · exact s.modBnd_boundary _
  · exact s.modBnd_boundary _

/-- The root of the agreement's tree tells its children and takes the result. -/
theorem State.bndResult_boundary {s : State} (h : s.plan.bnd.phase = .agree) (m : BoundaryMsg) : s.OnlyBoundary (s.bndResult m) := by
  unfold State.bndResult
  extract_lets s1 phase s2
  have hs1 : s.OnlyTraffic s1 := State.OnlyTraffic.foldl (fun u k => u.sendBoundary_traffic ..) _ s
  have hphase : phase = .agree := (congrArg (fun p => p.bnd.phase) hs1.plan).trans h
  rw [hphase]
  exact (hs1.boundary.trans (s1.modBnd_boundary _)).trans (s2.agreed_boundary m)

theorem State.bndPump_boundary {s : State} (h : s.plan.bnd.phase = .agree) : s.OnlyBoundary s.bndPump := by
  have hself : s.OnlyBoundary s := (State.OnlyTraffic.refl s).boundary
  unfold State.bndPump
  dsimp only
  split
  · exact hself
  · split
    · split
      · exact State.bndResult_boundary h _
      · exact (s.sendBoundary_traffic ..).boundary.trans (State.modBnd_boundary ..)
    · exact hself

/-- The first agreement sends messages and enters its phase, and changes nothing else (R215, R218). -/
theorem State.beginAgree_boundary (s : State) : s.OnlyBoundary s.beginAgree := by
  unfold State.beginAgree
  split
  · exact (State.OnlyTraffic.refl s).boundary
  · exact (s.modBnd_boundary _).trans (State.bndPump_boundary rfl)

/-- A rejected arm request sets ARM_REJ (R21, R413). -/
theorem State.armReject_jobStat (s : State) (f : Nat × Nat × Option ParcelId × Nat) : (s.armReject f).regBits (modReg .jobStat) 4 4 = 1 := by
  unfold State.armReject
  rw [State.regBits, State.emit_reg (by decide) (by decide), State.raise, State.setRegBits, State.reg_setReg, if_pos rfl, bitsOf_setBits_same]
  rfl

theorem State.armReject_job (s : State) (f : Nat × Nat × Option ParcelId × Nat) : (s.armReject f).job = s.job := State.emit_job ..

theorem State.armReject_mem (s : State) (f : Nat × Nat × Option ParcelId × Nat) : (s.armReject f).mem = s.mem := State.emit_mem ..

/-! RELEASE_DRAIN_TIMEOUT. -/

theorem State.queue_modQueue (s : State) (q q' : QueueId) (f : QueueState → QueueState) :
    (s.modQueue q f).queue q' = if q' = q then f (s.queue q) else s.queue q' := AMap.get_put ..

theorem State.OnlyTraffic.queue {s t : State} (h : s.OnlyTraffic t) (q : QueueId) : t.queue q = s.queue q := by
  rw [State.queue, h.queues, State.queue]

/-- Memory, the job and the entries of every queue are as they were. -/
structure State.SameEntries (s t : State) : Prop where
  mem : t.mem = s.mem
  job : t.job = s.job
  entries : ∀ q, (t.queue q).entries = (s.queue q).entries

theorem State.SameEntries.trans {s t u : State} (h : s.SameEntries t) (h' : t.SameEntries u) : s.SameEntries u :=
  ⟨h'.mem.trans h.mem, h'.job.trans h.job, fun q => (h'.entries q).trans (h.entries q)⟩

theorem State.OnlyTraffic.sameEntries {s t : State} (h : s.OnlyTraffic t) : s.SameEntries t :=
  ⟨h.mem, h.job, fun q => congrArg _ (h.queue q)⟩

/-- A change of a queue that leaves its entries. -/
theorem State.modQueue_sameEntries (s : State) (q : QueueId) {f : QueueState → QueueState} (hf : ∀ v, (f v).entries = v.entries) :
    s.SameEntries (s.modQueue q f) := by
  refine ⟨rfl, rfl, fun q' => ?_⟩
  rw [State.queue_modQueue]
  split
  · next hq => rw [hf, hq]
  · rfl

theorem State.putCpl_sameEntries (s : State) (q : QueueId) (rec_ : List Byte) (irq : Bool) : s.SameEntries (s.putCpl q rec_ irq) := by
  unfold State.putCpl
  extract_lets c clog chead ph bs s1 s2
  split
  · exact s.modQueue_sameEntries q (fun _ => rfl)
  · have hs1 : s.SameEntries s1 := s.modQueue_sameEntries q (fun _ => rfl)
    have hs2 : s.SameEntries s2 := hs1.trans (s1.hostWrite_traffic ..).sameEntries
    split
    · exact hs2.trans (s2.msix_traffic _).sameEntries
    · exact hs2

/-- The abort of one entry (R22): it leaves its queue with a completion record. -/
def State.abortEntry (s : State) (q : QueueId) (e : QEntry) : State :=
  let st := 1 + s.freeVal.toNat % 255
  let s := s.takeFree.modQueue q (fun v => { v with entries := v.entries.filter (fun x => x.id ≠ e.id) })
  s.putCpl q (s.cplBytes e.tag st e.pt.slot) e.irq

theorem State.abortEntries_eq_foldl (s : State) (q : QueueId) :
    s.abortEntries q = ((s.queue q).entries.filter (fun e => e.started)).foldl (fun s e => s.abortEntry q e) s := rfl

/-- Memory and the job are as they were, and no queue has gained an entry. -/
structure State.FewerEntries (s t : State) : Prop where
  mem : t.mem = s.mem
  job : t.job = s.job
  entries : ∀ q, ∀ x ∈ (t.queue q).entries, x ∈ (s.queue q).entries

theorem State.FewerEntries.refl (s : State) : s.FewerEntries s := ⟨rfl, rfl, fun _ _ hx => hx⟩

theorem State.FewerEntries.trans {s t u : State} (h : s.FewerEntries t) (h' : t.FewerEntries u) : s.FewerEntries u :=
  ⟨h'.mem.trans h.mem, h'.job.trans h.job, fun q x hx => h.entries q x (h'.entries q x hx)⟩

theorem State.abortEntry_queue (s : State) (q q' : QueueId) (e : QEntry) :
    ((s.abortEntry q e).queue q').entries =
      if q' = q then (s.queue q).entries.filter (fun x => x.id ≠ e.id) else (s.queue q').entries := by
  unfold State.abortEntry
  extract_lets st s1
  rw [(s1.putCpl_sameEntries ..).entries, State.queue_modQueue]
  split <;> rfl

theorem State.abortEntry_fewer (s : State) (q : QueueId) (e : QEntry) : s.FewerEntries (s.abortEntry q e) := by
  refine ⟨?_, ?_, fun q' x hx => ?_⟩
  · exact (State.putCpl_sameEntries ..).mem
  · exact (State.putCpl_sameEntries ..).job
  · rw [State.abortEntry_queue] at hx
    split at hx
    · next hq => exact hq ▸ List.mem_of_mem_filter hx
    · exact hx

/-- Once the entries of a list have been aborted, their queue holds none of their numbers. -/
theorem State.foldl_abortEntry (q : QueueId) (l : List QEntry) (s : State) :
    s.FewerEntries (l.foldl (fun s e => s.abortEntry q e) s) ∧
      ∀ e ∈ l, ∀ x ∈ ((l.foldl (fun s e => s.abortEntry q e) s).queue q).entries, x.id ≠ e.id := by
  induction l generalizing s with
  | nil => exact ⟨.refl s, by simp⟩
  | cons e l ih =>
    obtain ⟨hfewer, hgone⟩ := ih (s.abortEntry q e)
    refine ⟨(s.abortEntry_fewer q e).trans hfewer, List.forall_mem_cons.2 ⟨fun x hx => ?_, hgone⟩⟩
    have hleft := hfewer.entries q x hx
    rw [State.abortEntry_queue, if_pos rfl] at hleft
    simpa using (List.mem_filter.1 hleft).2

theorem State.abortEntries_fewer (s : State) (q : QueueId) : s.FewerEntries (s.abortEntries q) := by
  rw [State.abortEntries_eq_foldl]
  exact (State.foldl_abortEntry q _ s).1

/-- No entry of the queue is in progress any more (R22). -/
theorem State.abortEntries_started (s : State) (q : QueueId) : ∀ x ∈ ((s.abortEntries q).queue q).entries, x.started = false := by
  intro x hx
  have hold := (s.abortEntries_fewer q).entries q x hx
  rw [State.abortEntries_eq_foldl] at hx
  refine Bool.eq_false_iff.2 fun hstarted => ?_
  exact (State.foldl_abortEntry q _ s).2 x (List.mem_filter.2 ⟨hold, hstarted⟩) x hx rfl

theorem State.foldl_abortEntries (l : List QueueId) (s : State) :
    s.FewerEntries (l.foldl State.abortEntries s) ∧ ∀ q ∈ l, ∀ x ∈ ((l.foldl State.abortEntries s).queue q).entries, x.started = false := by
  induction l generalizing s with
  | nil => exact ⟨.refl s, by simp⟩
  | cons q l ih =>
    obtain ⟨hfewer, hnone⟩ := ih (s.abortEntries q)
    exact ⟨(s.abortEntries_fewer q).trans hfewer,
      List.forall_mem_cons.2 ⟨fun x hx => s.abortEntries_started q x (hfewer.entries q x hx), hnone⟩⟩

theorem mem_allQueues (q : QueueId) : q ∈ allQueues := by
  obtain ⟨t, e⟩ := q
  refine List.mem_flatMap.2 ⟨t, List.mem_finRange t, ?_⟩
  cases e <;> simp [engQueue]

/-! RELEASE_SCRUB_DONE. -/

theorem AMap.get_map_snd {κ υ : Type} [DecidableEq κ] (m : AMap κ υ) (f : υ → υ) (k : κ) (d : υ) :
    AMap.get (m.map (fun q => (q.1, f q.2))) k (f d) = f (m.get k d) := by
  induction m with
  | nil => rfl
  | cons q m ih =>
    simp only [List.map_cons, AMap.get, ih]
    split <;> rfl

theorem State.core_scrub (s : State) (c : CoreId) : s.scrub.core c = (s.core c).released := by
  have hcores := s.returnBuffers_traffic.cores
  show AMap.get (s.returnBuffers.cores.map _) c Core.reset = _
  rw [hcores]
  exact AMap.get_map_snd s.cores Core.released c Core.reset

theorem State.parcel_scrub (s : State) (p : ParcelId) : s.scrub.parcel p = (s.parcel p).released := by
  have hparcels := s.returnBuffers_traffic.parcels
  show AMap.get (s.returnBuffers.parcels.map _) p Parcel.reset = _
  rw [hparcels]
  exact AMap.get_map_snd s.parcels Parcel.released p Parcel.reset

theorem exec_releaseScrubDone_waits {s : State} (h : s.snapState = 1 ∨ s.snapState = 2) : exec .releaseScrubDone s = .next s :=
  congrArg Host.Outcome.next (if_pos (.inr (h.imp_right .inl)))

/-- The scrub comes to its end once nothing is in progress. -/
theorem exec_releaseScrubDone_ends {s : State} (hstate : s.job.state = .releasing) (h1 : s.snapState ≠ 1) (h2 : s.snapState ≠ 2)
    (hidle : ∀ q, (s.queue q).busy = false) : exec .releaseScrubDone s = .next s.scrub.linksReeval := by
  have hnone : allQueues.any (fun q => (s.queue q).busy) = false := by simp [hidle]
  exact congrArg Host.Outcome.next (if_neg (by simp [hstate, h1, h2, hnone]))

theorem State.releaseScrubDone_leaves (s : State) :
    s.scrub.linksReeval.job = { Job.reset with state := .ready } ∧ s.scrub.linksReeval.mem = Mem.reset ∧ s.scrub.linksReeval.queues = [] ∧
      (∀ c, s.scrub.linksReeval.core c = (s.core c).released) ∧ s.scrub.linksReeval.plan = PlanState.reset ∧
      ∀ p, s.scrub.linksReeval.parcel p = (s.parcel p).released := by
  have h := s.scrub.linksReeval_traffic
  refine ⟨h.job, h.mem, h.queues, fun c => ?_, h.plan, fun p => ?_⟩
  · rw [State.core, h.cores, ← State.core, State.core_scrub]
  · rw [State.parcel, h.parcels, ← State.parcel, State.parcel_scrub]

/-- Settles O48: request by request, each by the state it is made in. -/
theorem jobControl : Obligations.JobControl := by
  intro s
  refine ⟨fun m => ⟨fun hready hbusy hupd => ?_, fun hstate => ?_⟩, fun hown hbusy hupd => ?_, fun hstate => ?_,
    fun hown hbusy => ⟨fun hfault => ?_, fun f hfault => ?_⟩, exec_armValidated_other, fun hstate => ⟨fun hbusy => ?_, fun hbusy => ?_⟩,
    fun hready => congrArg Host.Outcome.next (State.releaseJob_ready hready _), fun hrel => ?_, fun hrel => congrArg Host.Outcome.next (if_neg hrel),
    fun hrel h1 h2 hidle => ?_, exec_releaseScrubDone_waits⟩
  · have h := State.linksReeval_traffic
      { s with job := { s.job with state := .owned, moduleId := m, armedTime := 0, aborts := 0, wasArmed := false } }
    exact ⟨_, congrArg Host.Outcome.next (State.bindJob_ready hready hbusy hupd m _), by rw [h.job], by rw [h.job], by rw [h.job],
      by rw [h.job, hbusy], h.mem, h.cores⟩
  · have hrefused := s.bindJob_refused (by rcases hstate with h | h | h <;> simp [h, JobState.trains])
      (by rcases hstate with h | h | h <;> simp [h]) m (1 + 65536 * m.toNat)
    exact ⟨_, congrArg Host.Outcome.next hrefused, (s.jobBusy_only _).job, (s.jobBusy_only _).mem⟩
  · exact congrArg Host.Outcome.next (State.armJob_owned hown hbusy hupd _)
  · have hrefused := s.armJob_refused (by rcases hstate with h | h | h <;> simp [h, JobState.trains])
      (by rcases hstate with h | h | h <;> simp [h]) 2
    exact ⟨_, congrArg Host.Outcome.next hrefused, (s.jobBusy_only _).job, (s.jobBusy_only _).mem⟩
  · have hexec := exec_armValidated_owned hown hbusy
    rw [hfault] at hexec
    obtain ⟨_, _, _, _, _, ht⟩ := s.validated.nowArmed.beginAgree_boundary
    rw [ht] at hexec
    exact ⟨_, hexec, rfl, rfl, rfl, rfl, rfl, rfl⟩
  · have hexec := exec_armValidated_owned hown hbusy
    rw [hfault] at hexec
    exact ⟨_, hexec, s.validated.armReject_job f, s.validated.armReject_jobStat f, s.validated.armReject_mem f⟩
  · have hrelease : s.releaseJob 4 = s.beginRelease := by rw [State.releaseJob_active hstate, hbusy]; rfl
    exact ⟨_, congrArg Host.Outcome.next hrelease, rfl, rfl, rfl, rfl, rfl⟩
  · have hrelease : s.releaseJob 4 = s.jobBusy 4 := by rw [State.releaseJob_active hstate, hbusy]; rfl
    exact ⟨_, congrArg Host.Outcome.next hrelease, (s.jobBusy_only _).job, (s.jobBusy_only _).mem⟩
  · obtain ⟨hfewer, hnone⟩ := State.foldl_abortEntries allQueues s
    exact ⟨_, congrArg Host.Outcome.next (if_pos hrel), hfewer.mem, hfewer.job, fun q => hnone q (mem_allQueues q)⟩
  · obtain ⟨hjob, hmem, hqueues, hcore, hplan, hparcel⟩ := s.releaseScrubDone_leaves
    refine ⟨_, exec_releaseScrubDone_ends hrel h1 h2 hidle, hjob, hmem, hqueues, fun c => ?_, hplan, fun p => ?_⟩
    · rw [hcore c]
      exact ⟨rfl, rfl, rfl, rfl, rfl, rfl, rfl, rfl, rfl⟩
    · rw [hparcel p]
      exact ⟨rfl, rfl⟩

end Sys2Proof.Machine
end

section
/-!
PROOFS (O1, O46, O55). The step's two cases; the entries that a restart abandons, which O46 says stay; and what a restore leaves of a memory that is
not in its canonical form, over which O55 ranges too.
-/
namespace Sys2Proof.Machine

/-! The step (assumption logs 1 and 2). -/

theorem step_cons (c : Instr) (rest : List Instr) (s : State) : step { s with pending := c :: rest } = exec c { s with pending := rest } := rfl

theorem step_of_pending_nil {s : State} (h : s.pending = []) : step s = .next s.tick := by
  unfold step
  rw [h]

/-- One AOCLK period moves the clocks and the counts of time, and nothing else (R12, R360, R395). -/
theorem State.tick_eq (s : State) : ∃ ticks armedTime coastTicks, s.tick =
    { s with
      ticks := ticks, aoTime := (s.aoTime + 1) % 2 ^ 64, mtime := (s.mtime + 40) % 2 ^ 64
      job := { s.job with armedTime := armedTime }, up := { s.up with coastTicks := coastTicks } } := by
  unfold State.tick
  dsimp only
  split
  · split
    · exact ⟨_, _, _, rfl⟩
    · exact ⟨_, _, _, rfl⟩
  · split
    · exact ⟨_, _, _, rfl⟩
    · exact ⟨_, _, _, rfl⟩

/-- Settles O1: the two cases of the step, by whether a command waits. -/
theorem stepRunsFrontCommand : Obligations.StepRunsFrontCommand := by
  refine ⟨step_cons, fun s hs => ⟨s.tick, step_of_pending_nil hs, ?_⟩⟩
  obtain ⟨ticks, armedTime, coastTicks, htick⟩ := s.tick_eq
  rw [htick]
  exact ⟨rfl, rfl, rfl, rfl, rfl, rfl, rfl, rfl, rfl⟩

/-! Q_RESTART (R478). -/

/-- A restart of a stopped queue with no entry in progress takes effect at once. -/
theorem exec_qRestart_stopped {s : State} {q : QueueId} (htrains : s.job.state.trains = true) (hserved : s.tractServed q.tract.val = true)
    {action : BitVec 2} (haction : action ≠ 3) (hstopped : (s.queue q).stopped = true) (hidle : (s.queue q).busy = false) :
    exec (.qRestart q action) s = .next (s.modQueue q (fun v => v.restart action)) := by
  have hvalue : BitVec.ofNat 2 action.toNat = action := by simp
  have hreg : s.atReg (queueReg .qRestart q) 4 (fun s => s.qRestartPut q action.toNat 4) = s.qRestartPut q action.toNat 4 := by
    simp [State.atReg, htrains, queueReg, hserved]
  have hput : s.qRestartPut q action.toNat 4 = s.modQueue q (fun v => v.restart action) := by
    rw [State.qRestartPut, hvalue, if_neg haction, hstopped, hidle]
    rfl
  exact congrArg Host.Outcome.next (hreg.trans hput)

theorem QueueState.after_entries (v : QueueState) (pt : QPoint) : (v.after pt).entries = v.entries := by
  unfold QueueState.after
  split
  · rfl
  · rfl

/-- ACTION 0 abandons the entries of the faulting chain that had not started: the queue keeps those of the other slots (R478). -/
theorem QueueState.restart_zero_entries {v : QueueState} {pt : QPoint} (hfault : v.fault = some pt) :
    (v.restart 0).entries = v.entries.filter (fun e => e.pt.slot ≠ pt.slot) := by
  unfold QueueState.restart
  rw [hfault]
  extract_lets w rerun w1
  have hw1 : w1.entries = v.entries := by
    unfold w1
    split
    · rfl
    · rfl
  rw [← hw1]
  dsimp only
  generalize (if rerun then none else v.last.filter pt.before) = past
  generalize past.filter (fun l => pt.slot < l.slot) = later
  cases later with
  | none => rfl
  | some l => exact QueueState.after_entries ..

/-- A place of the chain that slot 0 begins. -/
def chainPoint (pos addr next : Nat) : QPoint := { slot := 0, pos := pos, addr := addr, nsp := false, next := next, read := true }

/-- The bytes of a RANK entry: NEXT, and the number of the Transit engine, in its header (R367); operation 1 (R207). -/
def rankEntryBytes : List Byte := natLe 8 0x1080 ++ List.replicate 15 0 ++ [0x40] ++ List.replicate 8 0 ++ [1] ++ List.replicate 95 0

/-- The queue of an engine that passed over a RANK, whose layer has one in progress (R198), and then stopped at a fault of the chain's second entry: the
RANK is still there, since a stop drops only what the engine had not come to. -/
def stoppedPastRank : QueueState :=
  { QueueState.reset with
    tail := 1, nextId := 2, stopped := true, cause := 3
    fault := some (chainPoint 1 0x1080 0), last := some (chainPoint 1 0x1080 0)
    entries := [{ id := 0, pt := chainPoint 0 0x1000 0x1080, kind := .entry, bytes := rankEntryBytes, started := false, work := .waits }] }

/-- A module OWNED, its tracts served, whose Transit queue of tract 0 stands so. -/
def ownedPastRank : State :=
  { State.reset with
    job := { Job.reset with state := .owned }, regs := [(modReg .clkStat, 0x3FFC0)], queues := [(engQueue 0 .transit, stoppedPastRank)] }

/-- Refutes O46: it says that a restart keeps the entries of its queue. Under ACTION 0 the entries of the faulting chain that had not started are
abandoned (R478), and a queue can hold one that its engine has passed over. -/
theorem not_queuesAreFetched : ¬ Obligations.QueuesAreFetched := by
  intro h
  have hserved : ownedPastRank.tractServed 0 = true := by decide
  obtain ⟨hregs, -⟩ := h (engQueue 0 .transit) ownedPastRank
  obtain ⟨-, -, -, hrestart⟩ := hregs rfl hserved
  obtain ⟨-, -, hidle⟩ := hrestart 0 (by decide)
  obtain ⟨t, hexec, -, -, hkept, -⟩ := hidle rfl rfl
  rw [exec_qRestart_stopped rfl hserved (by decide) rfl rfl] at hexec
  obtain rfl := Host.Outcome.next.inj hexec
  have habandoned : (stoppedPastRank.restart 0).entries = [] :=
    (QueueState.restart_zero_entries (pt := chainPoint 1 0x1080 0) rfl).trans (by decide)
  rw [State.queue_modQueue, if_pos rfl] at hkept
  exact List.cons_ne_nil _ _ (hkept.symm.trans habandoned)

/-! RESTORE (R438). -/

/-- A module OWNED whose memory lists a byte of a local store before one of a slice, against the order of their addresses: byteAt looks for the second no
further than the first, and reads 0 for it. -/
def ownedUnsorted : State :=
  { State.reset with
    job := { Job.reset with state := .owned }
    mem := { Mem.reset with bytes := [(storeKey { tract := 0, parcel := 0, core := 0 } 0, 1), (sliceKey { tract := 0, parcel := 0 } 0x10, 1)] } }

/-- The restore takes the local store's byte from the list, and the slice's byte behind it then reads 1. -/
theorem restore_ownedUnsorted :
    byteAt ownedUnsorted.mem.bytes 0x10 = 0 ∧ ownedUnsorted.softwareByte 0x10 = false ∧
      byteAt (ownedUnsorted.atReg (modReg .snapCtl) 8 State.askRestore).mem.bytes 0x10 = 1 := by
  decide +kernel

/-- Refutes O55: what it says of the bytes after RESTORE it says of every memory, also of one that is not in its canonical form (assumption log 9), where
a byte can stand hidden behind one that the restore removes. Its clause on REMAP has the premise that this clause lacks. -/
theorem not_recordsAndRestores : ¬ Obligations.RecordsAndRestores := by
  intro h
  obtain ⟨-, -, -, -, -, hruns, -⟩ := h ownedUnsorted
  obtain ⟨hrestore, -⟩ := hruns rfl
  obtain ⟨t, hexec, -, -, -, -, hbytes⟩ := hrestore rfl (.inl rfl) rfl
  obtain rfl : ownedUnsorted.atReg (modReg .snapCtl) 8 State.askRestore = t := Host.Outcome.next.inj hexec
  obtain ⟨hbefore, hsoftware, hafter⟩ := restore_ownedUnsorted
  have hkept := hbytes 0x10
  rw [hsoftware, hbefore, hafter] at hkept
  exact absurd hkept (by decide)

end Sys2Proof.Machine
end

section
/-!
PROOFS (O3 to O9). The rules of a core's registers, and what the issue of an instruction comes to where the core is ready for it (R26, R37, R38).
-/
namespace Sys2Proof.Machine
open Sys2Proof.Claims

/-! Registers: what a read returns after a write (R26). -/

theorem AMap.put_put {κ υ : Type} [DecidableEq κ] (m : AMap κ υ) (k : κ) (v w : υ) : (m.put k v).put k w = m.put k w := by
  induction m with
  | nil => simp [AMap.put]
  | cons q m ih =>
    obtain ⟨k', v'⟩ := q
    by_cases h : k' = k
    · simp [AMap.put, h]
    · simp [AMap.put, h, ih]

theorem State.setCore_setCore (s : State) (c : CoreId) (v w : Core) : (s.setCore c v).setCore c w = s.setCore c w := by
  simp [State.setCore, AMap.put_put]

theorem State.modCore_eq (s : State) (c : CoreId) (f : Core → Core) : s.modCore c f = s.setCore c (f (s.core c)) := rfl

theorem State.setCore_modCore (s : State) (c : CoreId) (v : Core) (f : Core → Core) : (s.setCore c v).modCore c f = s.setCore c (f v) := by
  simp [State.modCore_eq, State.setCore_setCore]

theorem State.core_setCore_self (s : State) (c : CoreId) (v : Core) : (s.setCore c v).core c = v := by simp

theorem State.setCore_only (s : State) (c : CoreId) (v : Core) : OnlyCore s (s.setCore c v) c :=
  ⟨rfl, fun c' h => by simp [h]⟩

theorem Core.getG_setG (k : Core) (rd r : BitVec 5) (v : Word) :
    (k.setG rd v).getG r = if r = rd then (if rd = 0 then 0 else v) else k.getG r := by
  by_cases h0 : rd = 0
  · subst h0
    rw [Core.setG, if_pos rfl]
    by_cases hr : r = 0
    · rw [if_pos hr, if_pos rfl, hr]
      rfl
    · rw [if_neg hr]
  · rw [Core.setG, if_neg h0, if_neg h0]
    by_cases hr : r = rd
    · subst hr
      rw [if_pos rfl, Core.getG, if_neg h0]
      exact Vector.getElem_set_self _
    · have hne : rd.toNat ≠ r.toNat := fun e => hr (BitVec.eq_of_toNat_eq e.symm)
      rw [if_neg hr, Core.getG, Core.getG, Vector.getElem_set_ne _ _ hne]

theorem Core.getA_setA (k : Core) (rd r : BitVec 4) (v : DWord) : (k.setA rd v).getA r = if r = rd then v else k.getA r := by
  by_cases hr : r = rd
  · subst hr; simp [Core.setA, Core.getA]
  · have hne : rd.toNat ≠ r.toNat := fun e => hr (BitVec.eq_of_toNat_eq e.symm)
    simp [hr, Core.setA, Core.getA, Vector.getElem_set_ne _ _ hne]

theorem Core.getP_setP (k : Core) (pd r : BitVec 3) (v : Bool) :
    (k.setP pd v).getP r = if r = pd then (if pd = 0 then true else v) else k.getP r := by
  by_cases h0 : pd = 0
  · subst h0
    rw [Core.setP, if_pos rfl]
    by_cases hr : r = 0
    · rw [if_pos hr, if_pos rfl, hr]
      rfl
    · rw [if_neg hr]
  · rw [Core.setP, if_neg h0, if_neg h0]
    by_cases hr : r = pd
    · subst hr
      rw [if_pos rfl, Core.getP, if_neg h0]
      exact Vector.getElem_set_self _
    · have hne : pd.toNat ≠ r.toNat := fun e => hr (BitVec.eq_of_toNat_eq e.symm)
      rw [if_neg hr, Core.getP, Core.getP, Vector.getElem_set_ne _ _ hne]

theorem Core.getAc_setAc (k : Core) (n m : BitVec 3) (v : BitVec 16) : (k.setAc n v).getAc m = if m = n then v else k.getAc m := by
  by_cases hr : m = n
  · subst hr; simp [Core.setAc, Core.getAc]
  · have hne : n.toNat ≠ m.toNat := fun e => hr (BitVec.eq_of_toNat_eq e.symm)
    simp [hr, Core.setAc, Core.getAc, Vector.getElem_set_ne _ _ hne]

/-- A write of a g-register changes the file of g-registers alone. -/
theorem Core.setG_eq (k : Core) (rd : BitVec 5) (v : Word) : ∃ g, k.setG rd v = { k with g := g } := by
  unfold Core.setG
  split
  · exact ⟨k.g, rfl⟩
  · exact ⟨_, rfl⟩

/-- A write of a predicate changes the file of predicates alone. -/
theorem Core.setP_eq (k : Core) (pd : BitVec 3) (v : Bool) : ∃ p, k.setP pd v = { k with p := p } := by
  unfold Core.setP
  split
  · exact ⟨k.p, rfl⟩
  · exact ⟨_, rfl⟩

/-! The issue of an instruction. -/

theorem State.asSpelled_of_spells {s : State} {i : Issue} {ins : Instr} {act : Result} (h : s.spells i ins = true) :
    s.asSpelled i ins act = act := by
  simp [State.asSpelled, h]

theorem guardBad_of_guardOk {k : Core} {g : Guard} (h : k.guardOk g = true) : guardBad g = false := by
  obtain ⟨neg, pred⟩ := g
  by_cases hp : pred = 0 <;> cases neg <;> simp_all [Core.guardOk, guardBad, Core.getP]

/-- The words an issue reads join the core's buffer, and nothing else changes (R56). -/
theorem State.noteFetch_eq (s : State) (i : Issue) (n : Nat) :
    ∃ ib, s.noteFetch i n = s.setCore i.core { s.core i.core with ibuf := ib } := ⟨_, rfl⟩

theorem issueCheck_of_ready {s : State} {i : Issue} {n : Nat} {reads : List CReg} (h : Ready s i n reads) :
    s.issueCheck i n false reads = .go := by
  obtain ⟨hrun, hpwr, hwait, hret, hdead, hfetch, hprog, hguard, hopd, hbad⟩ := h
  simp [State.issueCheck, Core.mayIssue, hrun, hpwr, hwait, hret, hdead, hfetch, hprog, hguard, hopd, hbad, guardBad_of_guardOk hguard]

theorem issue_of_ready {s : State} {i : Issue} {n : Nat} {reads : List CReg} (h : Ready s i n reads) (act : State → State) :
    s.issue i n false reads act = act (s.noteFetch i n) := by
  simp [State.issue, issueCheck_of_ready h]

/-- An instruction on its core's registers alone, at a core that is ready for it. -/
theorem issueRegs_of_ready {s : State} {i : Issue} {n : Nat} {reads : List CReg} (h : Ready s i n reads) (f : Core → Core) :
    ∃ ib, s.issueRegs i n false reads f = s.setCore i.core ((f { s.core i.core with ibuf := ib }).retire n) := by
  obtain ⟨ib, hib⟩ := s.noteFetch_eq i n
  exact ⟨ib, by rw [State.issueRegs, issue_of_ready h, hib, State.setCore_modCore]⟩

/-- A core that has written g(rd) and gone on n bytes. -/
theorem wroteG_setCore (s : State) (c : CoreId) (n : Nat) (rd : BitVec 5) (v : Word) (ib : List (Nat × Word)) :
    WroteG s (s.setCore c ((({ s.core c with ibuf := ib } : Core).putG rd v).retire n)) c n rd v := by
  have hget (r : BitVec 5) : ((({ s.core c with ibuf := ib } : Core).putG rd v).retire n).getG r =
      if r = rd then (if rd = 0 then 0 else v) else (s.core c).getG r := Core.getG_setG _ rd r v
  refine ⟨State.setCore_only s c _, ?_⟩
  rw [State.core_setCore_self, hget, if_pos rfl]
  refine ⟨?_, rfl, fun r hr => (hget r).trans (if_neg hr), ?_⟩
  all_goals
    obtain ⟨g, hg⟩ := Core.setG_eq (({ s.core c with ibuf := ib } : Core).supersede (.g rd)) rd v
    rw [Core.putG, hg]
    and_intros <;> rfl

/-- A core that has written a(rd) and gone on n bytes. -/
theorem wroteA_setCore (s : State) (c : CoreId) (n : Nat) (rd : BitVec 4) (v : DWord) (ib : List (Nat × Word)) :
    WroteA s (s.setCore c ((({ s.core c with ibuf := ib } : Core).putA rd v).retire n)) c n rd v := by
  have hget (r : BitVec 4) : ((({ s.core c with ibuf := ib } : Core).putA rd v).retire n).getA r =
      if r = rd then v else (s.core c).getA r := Core.getA_setA _ rd r v
  refine ⟨State.setCore_only s c _, ?_⟩
  rw [State.core_setCore_self, hget, if_pos rfl]
  refine ⟨?_, rfl, fun r hr => (hget r).trans (if_neg hr), ?_⟩ <;> and_intros <;> rfl

/-- A core that has written predicate pd and gone on n bytes. -/
theorem wroteP_setCore (s : State) (c : CoreId) (n : Nat) (pd : BitVec 3) (v : Bool) (ib : List (Nat × Word)) :
    WroteP s (s.setCore c ((({ s.core c with ibuf := ib } : Core).setP pd v).retire n)) c n pd v := by
  have hget (r : BitVec 3) : ((({ s.core c with ibuf := ib } : Core).setP pd v).retire n).getP r =
      if r = pd then (if pd = 0 then true else v) else (s.core c).getP r := Core.getP_setP _ pd r v
  refine ⟨State.setCore_only s c _, ?_⟩
  rw [State.core_setCore_self, hget, if_pos rfl]
  refine ⟨?_, rfl, fun r hr => (hget r).trans (if_neg hr), ?_⟩
  all_goals
    obtain ⟨p, hp⟩ := Core.setP_eq ({ s.core c with ibuf := ib } : Core) pd v
    rw [hp]
    and_intros <;> rfl

section
variable {s : State} {i : Issue} {n : Nat} {bad : Bool} {reads : List CReg} {f : Core → Core}

/-- An instruction whose core is ready for it and whose encoding is sound, and which writes a g-register with what its operands give. -/
theorem issueRegs_wroteG (h : Ready s i n reads) (hbad : bad = false) {rd : BitVec 5} {v : Word}
    (hf : ∀ ib, f { s.core i.core with ibuf := ib } = ({ s.core i.core with ibuf := ib } : Core).putG rd v) :
    WroteG s (s.issueRegs i n bad reads f) i.core n rd v := by
  obtain ⟨ib, hib⟩ := issueRegs_of_ready h f
  rw [hbad, hib, hf]
  exact wroteG_setCore s i.core n rd v ib

/-- The same of an a-register. -/
theorem issueRegs_wroteA (h : Ready s i n reads) (hbad : bad = false) {rd : BitVec 4} {v : DWord}
    (hf : ∀ ib, f { s.core i.core with ibuf := ib } = ({ s.core i.core with ibuf := ib } : Core).putA rd v) :
    WroteA s (s.issueRegs i n bad reads f) i.core n rd v := by
  obtain ⟨ib, hib⟩ := issueRegs_of_ready h f
  rw [hbad, hib, hf]
  exact wroteA_setCore s i.core n rd v ib

/-- The same of a predicate. -/
theorem issueRegs_wroteP (h : Ready s i n reads) (hbad : bad = false) {pd : BitVec 3} {v : Bool}
    (hf : ∀ ib, f { s.core i.core with ibuf := ib } = ({ s.core i.core with ibuf := ib } : Core).setP pd v) :
    WroteP s (s.issueRegs i n bad reads f) i.core n pd v := by
  obtain ⟨ib, hib⟩ := issueRegs_of_ready h f
  rw [hbad, hib, hf]
  exact wroteP_setCore s i.core n pd v ib

end

/-! The SCALAR class (R40). -/

section
variable {s : State} {i : Issue}

theorem scalarR_wroteG {f : FmtR} (h : Ready s i 4 [.g f.rs1, .g f.rs2]) (op : Word → Word → Word) :
    ∃ t : State, scalarR i f op s = .next t ∧ WroteG s t i.core 4 f.rd (op ((s.core i.core).getG f.rs1) ((s.core i.core).getG f.rs2)) :=
  ⟨_, rfl, issueRegs_wroteG h rfl (fun _ => rfl)⟩

theorem scalarR1_wroteG {f : FmtR} (hrs2 : f.rs2 = 0) (h : Ready s i 4 [.g f.rs1]) (op : Word → Word) :
    ∃ t : State, scalarR1 i f op s = .next t ∧ WroteG s t i.core 4 f.rd (op ((s.core i.core).getG f.rs1)) :=
  ⟨_, rfl, issueRegs_wroteG h (by simp [hrs2]) (fun _ => rfl)⟩

theorem scalarI_wroteG {f : FmtI} {bad : Bool} (hbad : bad = false) (h : Ready s i 4 [.g f.rs1]) (op : Word → BitVec 8 → Word) :
    ∃ t : State, scalarI i f bad op s = .next t ∧ WroteG s t i.core 4 f.rd (op ((s.core i.core).getG f.rs1) f.imm8) :=
  ⟨_, rfl, issueRegs_wroteG h hbad (fun _ => rfl)⟩

theorem scalarIX_wroteG {f : FmtIX} (himm : f.imm8 = 0) (h : Ready s i 8 [.g f.rs1]) (op : Word → Word → Word) :
    ∃ t : State, scalarIX i f op s = .next t ∧ WroteG s t i.core 8 f.rd (op ((s.core i.core).getG f.rs1) f.imm32) :=
  ⟨_, rfl, issueRegs_wroteG h (by simp [himm]) (fun _ => rfl)⟩

end

end Sys2Proof.Machine
end

section
/-!
PROOFS (O3, O4, O5). The SCALAR class operation by operation: what the model computes is what the table of R40 says.
-/
namespace Sys2Proof.Machine
open Sys2Proof.Claims

/-! Arithmetic of the operations. -/

theorem mulhu_eq (x y : Word) : BitVec.ofNat 32 (x.toNat * y.toNat / 2 ^ 32) = (x.setWidth 64 * y.setWidth 64).extractLsb' 32 32 := by
  have hlt : x.toNat * y.toNat < 2 ^ 64 := by
    have := Nat.mul_lt_mul'' x.isLt y.isLt
    omega
  apply BitVec.eq_of_toNat_eq
  have hx : x.toNat % 2 ^ 64 = x.toNat := Nat.mod_eq_of_lt (by omega)
  have hy : y.toNat % 2 ^ 64 = y.toNat := Nat.mod_eq_of_lt (by omega)
  rw [BitVec.toNat_ofNat, BitVec.extractLsb'_toNat, BitVec.toNat_mul, BitVec.toNat_setWidth, BitVec.toNat_setWidth, hx, hy,
    Nat.mod_eq_of_lt hlt, Nat.shiftRight_eq_div_pow]

theorem signExtend_mul (x y : Word) : x.signExtend 64 * y.signExtend 64 = BitVec.ofInt 64 (x.toInt * y.toInt) := by
  rw [BitVec.ofInt_mul, BitVec.signExtend, BitVec.signExtend]

theorem mulhs_eq (x y : Word) : BitVec.ofInt 32 (x.toInt * y.toInt / 2 ^ 32) = (x.signExtend 64 * y.signExtend 64).extractLsb' 32 32 := by
  rw [signExtend_mul]
  generalize x.toInt * y.toInt = p
  apply BitVec.eq_of_toNat_eq
  rw [BitVec.extractLsb'_toNat, BitVec.toNat_ofInt, BitVec.toNat_ofInt, Nat.shiftRight_eq_div_pow]
  norm_num
  omega

theorem extu_eq (x y : Word) :
    extu32 x y = (x >>> (y.toNat % 32)) &&& BitVec.ofNat 32 (2 ^ (y.toNat / 32 % 32 + 1) - 1) := by
  have hn : y.toNat / 32 % 32 + 1 ≤ 32 := by omega
  have hpow : 2 ^ (y.toNat / 32 % 32 + 1) ≤ 2 ^ 32 := Nat.pow_le_pow_right (by omega) hn
  have hpos : 0 < 2 ^ (y.toNat / 32 % 32 + 1) := Nat.two_pow_pos _
  have hb : bitsOf y.toNat 9 5 = y.toNat / 32 % 32 := rfl
  apply BitVec.eq_of_toNat_eq
  rw [extu32, hb, shAmt, BitVec.toNat_ofNat, BitVec.toNat_and, BitVec.toNat_ushiftRight, BitVec.toNat_ofNat, Nat.shiftRight_eq_div_pow,
    Nat.mod_eq_of_lt (a := 2 ^ (y.toNat / 32 % 32 + 1) - 1) (by omega), Nat.and_two_pow_sub_one_eq_mod]
  exact Nat.mod_eq_of_lt (lt_of_lt_of_le (Nat.mod_lt _ hpos) hpow)

theorem firstIdx_eq_findIdx {α : Type} (p : α → Bool) (l : List α) : firstIdx p l = l.findIdx p := by
  induction l with
  | nil => rfl
  | cons x xs ih => rw [firstIdx, List.findIdx_cons, ih]; cases p x <;> rfl

/-- CLZ counts the zeros above the highest 1. -/
theorem clz32_spec (v : Word) : clz32 v ≤ 32 ∧ (∀ j, j < clz32 v → v.getLsbD (31 - j) = false) ∧
    (clz32 v < 32 → v.getLsbD (31 - clz32 v) = true) := by
  rw [clz32, firstIdx_eq_findIdx]
  have hle := List.findIdx_le_length (p := fun i => v.getLsbD (31 - i)) (xs := List.range 32)
  rw [List.length_range] at hle
  refine ⟨hle, fun j hj => ?_, fun hlt => ?_⟩
  · simpa using List.not_of_lt_findIdx hj
  · have hw : (List.range 32).findIdx (fun i => v.getLsbD (31 - i)) < (List.range 32).length := by rwa [List.length_range]
    have hbit := List.findIdx_getElem (w := hw)
    rwa [List.getElem_range] at hbit

theorem popc32_eq (v : Word) : popc32 v = (List.finRange 32).countP (fun j => v.getLsbD j.val) := by
  have h : List.range 32 = (List.finRange 32).map (fun j => j.val) := by decide
  rw [popc32, ← List.countP_eq_length_filter, h, List.countP_map]
  rfl

/-! The operations. -/

theorem exec_scalarOps : ∀ q ∈ scalarOps, ∀ (i : Issue) (f : FmtR) (s : State), s.spells i (q.1 i f) = true →
    exec (q.1 i f) s = scalarR i f q.2 s := by
  have hmin : (fun x y : Word => if x.slt y then x else y) = fun x y => if x.toInt < y.toInt then x else y := by
    funext x y; simp [BitVec.slt]
  have hmax : (fun x y : Word => if x.slt y then y else x) = fun x y => if x.toInt < y.toInt then y else x := by
    funext x y; simp [BitVec.slt]
  simp only [scalarOps, List.forall_mem_cons, List.not_mem_nil, false_implies, implies_true, and_true]
  refine ⟨fun _ _ _ h => State.asSpelled_of_spells h, fun _ _ _ h => State.asSpelled_of_spells h, fun _ _ _ h => State.asSpelled_of_spells h,
    fun _ _ _ h => State.asSpelled_of_spells h, fun _ _ _ h => State.asSpelled_of_spells h, fun _ _ _ h => State.asSpelled_of_spells h,
    fun _ _ _ h => State.asSpelled_of_spells h, fun _ _ _ h => State.asSpelled_of_spells h, fun _ _ _ h => State.asSpelled_of_spells h,
    fun i f s h => (State.asSpelled_of_spells h).trans ?_, fun i f s h => (State.asSpelled_of_spells h).trans ?_,
    fun i f s h => (State.asSpelled_of_spells h).trans ?_, fun i f s h => (State.asSpelled_of_spells h).trans ?_,
    fun _ _ _ h => State.asSpelled_of_spells h, fun _ _ _ h => State.asSpelled_of_spells h,
    fun i f s h => (State.asSpelled_of_spells h).trans ?_⟩
  · exact congrArg (scalarR i f · s) (funext₂ mulhu_eq)
  · exact congrArg (scalarR i f · s) (funext₂ mulhs_eq)
  · exact congrArg (scalarR i f · s) hmin
  · exact congrArg (scalarR i f · s) hmax
  · exact congrArg (scalarR i f · s) (funext₂ extu_eq)

/-- Settles O3. -/
theorem scalarRegisterResults : Obligations.ScalarRegisterResults := by
  refine ⟨fun q hq i f s h hs => ?_, fun i f s hrs2 h => ⟨fun hs => ?_, fun hs => ?_⟩⟩
  · rw [exec_scalarOps q hq i f s hs]
    exact scalarR_wroteG h q.2
  · obtain ⟨t, ht, hw⟩ := scalarR1_wroteG hrs2 h (fun x => BitVec.ofNat 32 (clz32 x))
    exact ⟨t, _, (State.asSpelled_of_spells hs).trans ht, hw, clz32_spec _⟩
  · obtain ⟨t, ht, hw⟩ := scalarR1_wroteG hrs2 h (fun x => BitVec.ofNat 32 (popc32 x))
    exact ⟨t, (State.asSpelled_of_spells hs).trans ht, popc32_eq _ ▸ hw⟩

/-! Immediate operations (R40). -/

theorem exec_immediateOps : ∀ q ∈ immediateOps, ∀ (i : Issue) (f : FmtI) (s : State), q.2.1 f.imm8 = true → s.spells i (q.1 i f) = true →
    exec (q.1 i f) s = scalarI i f false q.2.2 s := by
  have hshift (f : FmtI) (h : decide (f.imm8.toNat < 32) = true) : immShiftBad f = false := by
    have := of_decide_eq_true h
    exact decide_eq_false (by omega)
  simp only [immediateOps, List.forall_mem_cons, List.not_mem_nil, false_implies, implies_true, and_true]
  refine ⟨fun _ _ _ _ h => State.asSpelled_of_spells h, fun _ _ _ _ h => State.asSpelled_of_spells h,
    fun _ _ _ _ h => State.asSpelled_of_spells h, fun _ _ _ _ h => State.asSpelled_of_spells h, fun _ _ _ _ h => State.asSpelled_of_spells h,
    fun i f s hm h => (State.asSpelled_of_spells h).trans ?_, fun i f s hm h => (State.asSpelled_of_spells h).trans ?_,
    fun i f s hm h => (State.asSpelled_of_spells h).trans ?_⟩
  all_goals rw [hshift f hm]

theorem exec_longOps : ∀ q ∈ longOps, ∀ (i : Issue) (f : FmtIX) (s : State), s.spells i (q.1 i f) = true →
    exec (q.1 i f) s = scalarIX i f q.2 s := by
  simp only [longOps, List.forall_mem_cons, List.not_mem_nil, false_implies, implies_true, and_true]
  exact ⟨fun _ _ _ h => State.asSpelled_of_spells h, fun _ _ _ h => State.asSpelled_of_spells h, fun _ _ _ h => State.asSpelled_of_spells h,
    fun _ _ _ h => State.asSpelled_of_spells h, fun _ _ _ h => State.asSpelled_of_spells h⟩

/-- Settles O4. -/
theorem immediateResults : Obligations.ImmediateResults := by
  refine ⟨fun q hq i f s hm h hs => ?_, fun q hq i f s himm h hs => ?_, fun i f s himm hrs1 h hs => ?_⟩
  · rw [exec_immediateOps q hq i f s hm hs]
    exact scalarI_wroteG rfl h q.2.2
  · rw [exec_longOps q hq i f s hs]
    exact scalarIX_wroteG himm h q.2
  · exact ⟨_, State.asSpelled_of_spells hs, issueRegs_wroteG h (by simp [himm, hrs1]) (fun _ => rfl)⟩

/-! Compares and predicate operations (R40). -/

theorem slotPBad_of_lt {r : BitVec 5} (h : r.toNat < 8) : slotPBad r = false := decide_eq_false (by omega)

theorem slotABad_of_lt {r : BitVec 5} (h : r.toNat < 16) : slotABad r = false := decide_eq_false (by omega)

theorem exec_compareOps : ∀ q ∈ compareOps, ∀ (i : Issue) (f : FmtC) (s : State), s.spells i (q.1 i f) = true →
    exec (q.1 i f) s = compare i f q.2 s := by
  have hcge (x y : Word) : (!x.slt y) = decide (y.toInt ≤ x.toInt) := by
    rw [BitVec.slt, ← decide_not, decide_eq_decide]; exact Int.not_lt
  have hcgeu (x y : Word) : (!x.ult y) = decide (y.toNat ≤ x.toNat) := by
    rw [BitVec.ult, ← decide_not, decide_eq_decide]; exact Nat.not_lt
  have hcne (x y : Word) : (x != y) = decide (x ≠ y) := by by_cases h : x = y <;> simp [h]
  simp only [compareOps, List.forall_mem_cons, List.not_mem_nil, false_implies, implies_true, and_true]
  refine ⟨fun _ _ _ h => State.asSpelled_of_spells h, fun i f s h => (State.asSpelled_of_spells h).trans ?_,
    fun _ _ _ h => State.asSpelled_of_spells h, fun _ _ _ h => State.asSpelled_of_spells h,
    fun i f s h => (State.asSpelled_of_spells h).trans ?_, fun i f s h => (State.asSpelled_of_spells h).trans ?_⟩
  · exact congrArg (compare i f · s) (funext₂ hcne)
  · exact congrArg (compare i f · s) (funext₂ hcge)
  · exact congrArg (compare i f · s) (funext₂ hcgeu)

theorem exec_predicateOps : ∀ q ∈ predicateOps, ∀ (i : Issue) (f : FmtR) (s : State), s.spells i (q.1 i f) = true →
    exec (q.1 i f) s = predOp i f q.2 s := by
  simp only [predicateOps, List.forall_mem_cons, List.not_mem_nil, false_implies, implies_true, and_true]
  refine ⟨fun _ _ _ h => State.asSpelled_of_spells h, fun _ _ _ h => State.asSpelled_of_spells h,
    fun i f s h => (State.asSpelled_of_spells h).trans ?_⟩
  exact congrArg (predOp i f · s) (funext₂ fun x y => by cases x <;> cases y <;> rfl)

/-- Settles O5. -/
theorem predicateResults : Obligations.PredicateResults := by
  refine ⟨fun q hq i rd rs1 rs2 s hrd h hs => ?_, fun q hq i rd rs1 imm s hrd h hs => ?_, fun q hq i f s hrd hrs1 hrs2 h hs => ?_,
    fun i f s hrd hrs1 hrs2 h hs => ?_⟩
  · exact ⟨_, exec_compareOps q hq i _ s hs, issueRegs_wroteP h (slotPBad_of_lt hrd) (fun _ => rfl)⟩
  · exact ⟨_, exec_compareOps q hq i _ s hs, issueRegs_wroteP h (by simp [slotPBad_of_lt hrd]) (fun _ => rfl)⟩
  · exact ⟨_, exec_predicateOps q hq i f s hs,
      issueRegs_wroteP h (by simp [slotPBad_of_lt hrd, slotPBad_of_lt hrs1, slotPBad_of_lt hrs2]) (fun _ => rfl)⟩
  · exact ⟨_, State.asSpelled_of_spells hs, issueRegs_wroteP h (by simp [slotPBad_of_lt hrd, slotPBad_of_lt hrs1, hrs2]) (fun _ => rfl)⟩

end Sys2Proof.Machine
end

section
/-!
PROOFS (O6, O7, O8). Branches, address operations and state registers (R29, R40, R41).
-/
namespace Sys2Proof.Machine
open Sys2Proof.Claims

/-! Branches (R41). -/

/-- PC plus four times a signed offset, in 18 bits. -/
theorem branchTarget_toNat (k : Core) (off : BitVec 22) :
    ((branchTarget k off).toNat : Int) = ((k.pc.toNat : Int) + 4 * off.toInt) % 2 ^ 18 := by
  have hsext : (off.signExtend 32 * 4 : BitVec 32) = BitVec.ofInt 32 (4 * off.toInt) := by
    rw [BitVec.signExtend, show (4 : BitVec 32) = BitVec.ofInt 32 4 from rfl, ← BitVec.ofInt_mul, Int.mul_comm]
  rw [branchTarget, hsext, BitVec.toNat_add, BitVec.toNat_setWidth, BitVec.toNat_ofInt]
  generalize off.toInt = d
  omega

section
variable {s : State} {i : Issue} {n : Nat} {reads : List CReg}

/-- An instruction whose effect, once issued, is on its core's record. -/
theorem issue_modCore_of_ready (h : Ready s i n reads) (f : Core → Core) :
    ∃ ib, s.issue i n false reads (fun s => s.modCore i.core f) = s.setCore i.core (f { s.core i.core with ibuf := ib }) := by
  obtain ⟨ib, hib⟩ := s.noteFetch_eq i n
  exact ⟨ib, by rw [issue_of_ready h, hib, State.setCore_modCore]⟩

theorem exec_br (h : Ready s i 4 []) {off : BitVec 22} (hs : s.spells i (.br i off) = true) :
    ∃ ib, exec (.br i off) s = .next (s.setCore i.core { s.core i.core with ibuf := ib, pc := branchTarget (s.core i.core) off, wait := none }) := by
  obtain ⟨ib, hib⟩ := issue_modCore_of_ready h (fun k => { k with pc := branchTarget k off, wait := none })
  exact ⟨ib, (State.asSpelled_of_spells hs).trans (congrArg _ hib)⟩

theorem exec_call (h : Ready s i 4 []) {off : BitVec 22} (hs : s.spells i (.call i off) = true) :
    ∃ ib, exec (.call i off) s = .next (s.setCore i.core
      { ({ s.core i.core with ibuf := ib } : Core).putA 15 ((s.core i.core).pc.setWidth 64 + 4) with
        pc := branchTarget (s.core i.core) off, wait := none }) := by
  obtain ⟨ib, hib⟩ := issue_modCore_of_ready h
    (fun k => { k.putA 15 (k.pc.setWidth 64 + 4) with pc := branchTarget k off, wait := none })
  exact ⟨ib, (State.asSpelled_of_spells hs).trans (congrArg _ hib)⟩

theorem ready_of_operands (h : Ready s i n []) {rs : List CReg} (hrs : (s.core i.core).operandWait rs = none) : Ready s i n rs := by
  obtain ⟨hrun, hpwr, hwait, hret, hdead, hfetch, hprog, hguard, -, hbad⟩ := h
  exact ⟨hrun, hpwr, hwait, hret, hdead, hfetch, hprog, hguard, hrs, hbad⟩

theorem exec_jmp {f : FmtR} (hrd : f.rd = 0) (hrs2 : f.rs2 = 0) (hrs1 : f.rs1.toNat < 16) (h : Ready s i 4 [.a (f.rs1.setWidth 4)])
    (halign : ((s.core i.core).getA (f.rs1.setWidth 4)).toNat % 4 = 0) (hs : s.spells i (.jmp i f) = true) :
    exec (.jmp i f) s = .next (s.setCore i.core
      { s.core i.core with pc := ((s.core i.core).getA (f.rs1.setWidth 4)).setWidth 18, ibuf := [], wait := none }) := by
  obtain ⟨ib, hib⟩ := s.noteFetch_eq i 4
  have hslot : slotABad f.rs1 = false := slotABad_of_lt hrs1
  have hget : (({ s.core i.core with ibuf := ib } : Core).getA (slotA f.rs1)).toNat % 4 = 0 := halign
  refine (State.asSpelled_of_spells hs).trans (congrArg _ ?_)
  simp only [hrd, hrs2, hslot, bne_self_eq_false, Bool.or_self, Bool.false_and, Bool.false_eq_true, if_false]
  refine (issue_of_ready h _).trans ?_
  rw [hib, State.core_setCore_self, if_neg (not_not.2 hget), State.setCore_modCore]
  rfl

end

/-- Settles O6. -/
theorem branchResults : Obligations.BranchResults := by
  refine fun i s h => ⟨fun off hs => ?_, fun off hs => ?_, fun f hrd hrs2 hrs1 hrs halign hs => ?_⟩
  · obtain ⟨ib, ht⟩ := exec_br h hs
    refine ⟨_, ht, State.setCore_only .., ?_⟩
    rw [State.core_setCore_self]
    refine ⟨?_, ?_, rfl, branchTarget_toNat _ _⟩ <;> and_intros <;> rfl
  · obtain ⟨ib, ht⟩ := exec_call h hs
    refine ⟨_, ht, State.setCore_only .., ?_⟩
    rw [State.core_setCore_self]
    have hget (r : BitVec 4) := Core.getA_setA (({ s.core i.core with ibuf := ib } : Core).supersede (.a 15)) 15 r ((s.core i.core).pc.setWidth 64 + 4)
    refine ⟨?_, (congrArg _ ((hget 15).trans (if_pos rfl))).trans ?_, fun r hr => (hget r).trans (if_neg hr), rfl, rfl, branchTarget_toNat _ _⟩
    · and_intros <;> rfl
    · have hpc := (s.core i.core).pc.isLt
      rw [BitVec.toNat_add, BitVec.toNat_setWidth, show (4 : DWord).toNat = 4 from rfl]
      omega
  · refine ⟨_, exec_jmp hrd hrs2 hrs1 (ready_of_operands h hrs) halign hs, State.setCore_only .., ?_⟩
    rw [State.core_setCore_self]
    refine ⟨?_, ?_, rfl, rfl⟩ <;> and_intros <;> rfl

/-! Address operations (R40). -/

/-- Settles O7. -/
theorem addressResults : Obligations.AddressResults := by
  refine fun i s => ⟨fun f hrd hrs1 h => ⟨fun hs => ?_, fun hs => ?_, fun hs => ?_⟩, fun f hrd hrs1 hrs2 h hs => ?_, fun f hrd hrs2 h hs => ?_,
    fun f hrs1 hrs2 h => ⟨fun hs => ?_, fun hs => ?_⟩, fun f hrd hrs2 h hs => ?_, fun f hrd hrs1 hrs2 h hs => ?_,
    fun f hrd hrs1 hrs2 h => ⟨fun hs => ?_, fun hs => ?_⟩⟩
  · exact ⟨_, State.asSpelled_of_spells hs, issueRegs_wroteA h (by simp [slotABad_of_lt hrd, slotABad_of_lt hrs1]) (fun _ => rfl)⟩
  · exact ⟨_, State.asSpelled_of_spells hs, issueRegs_wroteA h (by simp [slotABad_of_lt hrd, slotABad_of_lt hrs1]) (fun _ => rfl)⟩
  · exact ⟨_, State.asSpelled_of_spells hs, issueRegs_wroteA h (by simp [slotABad_of_lt hrd, slotABad_of_lt hrs1]) (fun _ => rfl)⟩
  · exact ⟨_, State.asSpelled_of_spells hs, issueRegs_wroteA h (by simp [slotABad_of_lt hrd, slotABad_of_lt hrs1, hrs2]) (fun _ => rfl)⟩
  · exact ⟨_, State.asSpelled_of_spells hs, issueRegs_wroteA h (by simp [slotABad_of_lt hrd, hrs2]) (fun _ => rfl)⟩
  · exact ⟨_, State.asSpelled_of_spells hs, issueRegs_wroteG h (by simp [slotABad_of_lt hrs1, hrs2]) (fun _ => congrArg _ (by simp [slotA]; rfl))⟩
  · exact ⟨_, State.asSpelled_of_spells hs, issueRegs_wroteG h (by simp [slotABad_of_lt hrs1, hrs2]) (fun _ => rfl)⟩
  · exact ⟨_, State.asSpelled_of_spells hs, issueRegs_wroteA h (by simp [slotABad_of_lt hrd, hrs2]) (fun _ => congrArg _ (by simp [slotA]; rfl))⟩
  · exact ⟨_, State.asSpelled_of_spells hs, issueRegs_wroteA h (by simp [slotABad_of_lt hrd, slotABad_of_lt hrs1, hrs2]) (fun _ => rfl)⟩
  · exact ⟨_, State.asSpelled_of_spells hs, issueRegs_wroteA h (by simp [slotABad_of_lt hrd, hrs1, hrs2]) (fun _ => rfl)⟩
  · exact ⟨_, State.asSpelled_of_spells hs, issueRegs_wroteA h (by simp [slotABad_of_lt hrd, hrs1, hrs2]) (fun _ => congrArg _ (by simp [slotA]; rfl))⟩

/-! State registers (R29). -/

section
variable {s : State} {i : Issue}

theorem gets_wroteG (h : Ready s i 4 []) {rd rs1 : BitVec 5} {v : Word} (hv : s.stateReg32 i.core rs1.toNat = some v)
    (hs : s.spells i (.gets i { rd := rd, rs1 := rs1, rs2 := 0 }) = true) :
    ∃ t : State, exec (.gets i { rd := rd, rs1 := rs1, rs2 := 0 }) s = .next t ∧ WroteG s t i.core 4 rd v :=
  ⟨_, State.asSpelled_of_spells hs, issueRegs_wroteG h (by simp [hv]) (fun _ => by simp [hv])⟩

theorem getsa_wroteA (h : Ready s i 4 []) {rd rs1 : BitVec 5} {v : DWord} (hrd : rd.toNat < 16) (hv : s.stateReg64 i.core rs1.toNat = some v)
    (hs : s.spells i (.getsa i { rd := rd, rs1 := rs1, rs2 := 0 }) = true) :
    ∃ t : State, exec (.getsa i { rd := rd, rs1 := rs1, rs2 := 0 }) s = .next t ∧ WroteA s t i.core 4 (rd.setWidth 4) v :=
  ⟨_, State.asSpelled_of_spells hs, issueRegs_wroteA h (by simp [hv, slotABad_of_lt hrd]) (fun _ => by simp [hv, slotA])⟩

end

theorem State.cycles_eq (s : State) (p : ParcelId) : s.cycles p = BitVec.ofNat 64 ((s.parcel p).health.cycBase +
    (s.ticks - (s.parcel p).health.cycSince) * (8 + 2 * (s.parcel p).health.step) + 8 * s.up.coastTicks) := by
  rw [State.cycles, cclkCycles, cclkCycles, Nat.mul_zero, Nat.add_zero, Nat.mul_comm s.up.coastTicks]

/-- Settles O8. -/
theorem stateRegisterAccess : Obligations.StateRegisterAccess := by
  refine fun i s => ⟨fun rd h => ⟨gets_wroteG h ?_, gets_wroteG h ?_, gets_wroteG h ?_, gets_wroteG h ?_, gets_wroteG h ?_, gets_wroteG h ?_⟩,
    fun rd hrd h => ⟨getsa_wroteA h hrd ?_, getsa_wroteA h hrd ?_, getsa_wroteA h hrd ?_, getsa_wroteA h hrd ?_, getsa_wroteA h hrd ?_⟩,
    fun rs1 h hs => ?_⟩
  case refine_1 =>
    show some (BitVec.ofNat 32 (i.core.core.val + i.core.parcel.val * 64 + i.core.tract.val * 2 ^ 17)) = _
    rw [Nat.mul_comm i.core.parcel.val, Nat.mul_comm i.core.tract.val]
  case refine_3 => cases hp : (s.parcel (coreParcel i.core)).plot <;> simp [State.stateReg32, hp]
  case refine_7 => exact congrArg some (s.cycles_eq _)
  case refine_12 =>
    obtain ⟨ib, hib⟩ := issueRegs_of_ready h (fun k => { k with arriveSt := k.arriveSt &&& ~~~((k.getG rs1).setWidth 8) })
    refine ⟨_, (State.asSpelled_of_spells hs).trans (congrArg _ hib), State.setCore_only .., ?_⟩
    rw [State.core_setCore_self]
    refine ⟨?_, rfl, rfl, rfl, rfl, rfl, fun n hn => ?_⟩
    · and_intros <;> rfl
    · show ((s.core i.core).arriveSt &&& ~~~(((s.core i.core).getG rs1).setWidth 8)).getLsbD n = _
      simp [hn]
  all_goals rfl

end Sys2Proof.Machine
end

section
/-!
PROOFS (O9, O10, O15). An instruction whose guard fails, and the exceptions of a core: the record that joins its tract's collector and what the
stop leaves (R37, R58, R413, R416, R476).
-/
namespace Sys2Proof.Machine
open Sys2Proof.Claims

/-! Numbers as bytes (R2). -/

theorem leNat_natLe (n v : Nat) : leNat (natLe n v) = v % 256 ^ n := by
  induction n generalizing v with
  | zero => simp [natLe, leNat, Nat.mod_one]
  | succ n ih =>
    have hpow : 256 ^ (n + 1) = 256 * 256 ^ n := Nat.pow_succ'
    rw [natLe, leNat, ih, BitVec.toNat_ofNat, hpow, Nat.mod_mul]

/-! Exceptions. -/

/-- A record of severity that matters to no restore joins the empty collector of its tract alone (R416, R420). -/
theorem State.emit_quiet {s : State} {t : Tract} {r : ErrRec} (htract : r.tract = t.val) (hunit : r.unit < 14)
    (hcol : (s.fab t).collector = []) (hrest : s.up.restore = .idle) :
    ∃ errs, s.emit r = { s.modFab t (fun f => { f with collector := [r] }) with errs := errs } := by
  have hqueue (e : Errs) : ({ s with errs := e } : State).queueRec r = { s.modFab t (fun f => { f with collector := [r] }) with errs := e } := by
    have ht : r.tract < 12 := htract ▸ t.isLt
    have hu : (r.unit == 14 || r.unit == 15 || r.unit == 17) = false := by
      simp only [Bool.or_eq_false_iff, beq_eq_false_iff_ne]; omega
    have hfin : (⟨r.tract, ht⟩ : Tract) = t := Fin.ext htract
    rw [State.queueRec, dif_pos ht, hu, hfin]
    have hcol' : (({ s with errs := e } : State).fab t).collector = [] := hcol
    simp only [State.emitTract, hcol', enqueueRec, List.any_nil, List.length_nil, List.nil_append, b2n, Bool.false_eq_true, if_false]
    rfl
  have hnote : ∃ e, s.noteAbort r = { s with errs := e } := by
    unfold State.noteAbort
    split
    · exact ⟨_, rfl⟩
    · exact ⟨s.errs, rfl⟩
  obtain ⟨e, he⟩ := hnote
  refine ⟨e, ?_⟩
  have hidle : (({ s.modFab t (fun f => { f with collector := [r] }) with errs := e } : State).up.restore == RestoreRun.restore) = false := by
    show (s.up.restore == RestoreRun.restore) = false
    rw [hrest]; rfl
  rw [State.emit, he, hqueue e, hidle, Bool.and_false]
  rfl

/-- The record of a core's exception names the core, its cause and its PC (R413). -/
theorem State.faultRecord_spec (s : State) (c : CoreId) (pc : Nat) (e : ExcInfo) (hcause : e.cause ≠ .coreParity) :
    (s.faultRecord c pc e).cls = .coreFault ∧ (s.faultRecord c pc e).parcel = some c.parcel.val ∧ (s.faultRecord c pc e).core = some c.core.val ∧
      (s.faultRecord c pc e).tract = c.tract.val ∧ (s.faultRecord c pc e).unit = 0 ∧
      (s.faultRecord c pc e).detail = natLe 1 e.cause.code ++ natLe 1 e.sub ++ natLe 1 e.code ++ natLe 1 0 ++ natLe 4 pc ++ natLe 4 e.w2 ++ natLe 4 e.w3 := by
  rw [State.faultRecord, if_neg hcause]
  exact ⟨rfl, rfl, rfl, rfl, rfl, rfl⟩

theorem Cause.code_lt (k : Cause) : k.code < 256 := by cases k <;> decide

/-- The state in which a core has stopped in SLEEP, with one record in its tract's collector and a new error log. -/
def State.stoppedWith (s : State) (c : CoreId) (r : ErrRec) (errs : Errs) : State :=
  { (s.modFab c.tract (fun f => { f with collector := [r] })).setCore c { s.core c with run := .stopped, wait := none, pwr := .sleep } with
    errs := errs }

theorem State.stoppedWith_core (s : State) (c c' : CoreId) (r : ErrRec) (errs : Errs) :
    (s.stoppedWith c r errs).core c' = if c' = c then { s.core c with run := .stopped, wait := none, pwr := .sleep } else s.core c' :=
  State.core_setCore ..

theorem State.stoppedWith_core_self (s : State) (c : CoreId) (r : ErrRec) (errs : Errs) :
    (s.stoppedWith c r errs).core c = { s.core c with run := .stopped, wait := none, pwr := .sleep } :=
  (s.stoppedWith_core c c r errs).trans (if_pos rfl)

theorem State.stoppedWith_collector (s : State) (c : CoreId) (r : ErrRec) (errs : Errs) :
    ((s.stoppedWith c r errs).fab c.tract).collector = [r] := by
  show ((s.modFab c.tract (fun f => { f with collector := [r] })).fab c.tract).collector = [r]
  rw [State.fab_modFab, if_pos rfl]

/-- A core in a quiet tract stops on an exception that no plot re-runs: one record joins the collector, the core stands in SLEEP, and what the
error log notes changes (R58, R416). -/
theorem State.exception_quiet {s : State} {c : CoreId} (hq : Quietly s c) {e : ExcInfo} (he : e.cause.retryable = false) (pc : Nat) :
    ∃ errs, s.exception c pc e = s.stoppedWith c (s.faultRecord c pc e) errs := by
  obtain ⟨hcfg, hrest, hcol⟩ := hq
  have hcause : e.cause ≠ .coreParity := fun h => by rw [h] at he; cases he
  obtain ⟨-, -, -, htract, hunit, -⟩ := s.faultRecord_spec c pc e hcause
  obtain ⟨errs, hemit⟩ := State.emit_quiet htract (by omega) hcol hrest
  refine ⟨errs, ?_⟩
  have hstop : s.stopOn c pc e = s.stoppedWith c (s.faultRecord c pc e) errs := by
    simp only [State.stopOn, he, Bool.false_and, Bool.false_eq_true, if_false, hemit]
    rfl
  rw [State.exception, hstop, State.breakGang, State.stoppedWith_core_self]
  dsimp only
  rw [hcfg]

/-- The fields of a record of an exception in DETAIL: its cause and its PC. -/
theorem faultDetail_cause (s : State) (c : CoreId) (pc : Nat) (e : ExcInfo) (hcause : e.cause ≠ .coreParity) :
    fieldAt (s.faultRecord c pc e).detail 0 1 = e.cause.code ∧ fieldAt (s.faultRecord c pc e).detail 4 4 = pc % 2 ^ 32 := by
  obtain ⟨-, -, -, -, -, hdetail⟩ := s.faultRecord_spec c pc e hcause
  rw [hdetail]
  refine ⟨?_, leNat_natLe 4 pc⟩
  exact (leNat_natLe 1 _).trans (Nat.mod_eq_of_lt e.cause.code_lt)

/-- A precise exception of a core in a quiet tract (R58, R413). -/
theorem raiseAt_raised {s : State} {c : CoreId} (hq : Quietly s c) {e : ExcInfo} (he : e.cause.retryable = false) :
    Raised s (s.raiseAt c e) c e.cause.code := by
  have hcause : e.cause ≠ .coreParity := fun h => by rw [h] at he; cases he
  obtain ⟨errs, ht⟩ := State.exception_quiet hq he (s.core c).pc.toNat
  obtain ⟨hcls, hparcel, hcore, -, -, -⟩ := s.faultRecord_spec c (s.core c).pc.toNat e hcause
  obtain ⟨hdc, hdp⟩ := faultDetail_cause s c (s.core c).pc.toNat e hcause
  rw [State.raiseAt, ht]
  refine ⟨?_, ?_, ?_, ?_, rfl, _, State.stoppedWith_collector .., hcls, hparcel, hcore, hdc, ?_⟩
  · rw [State.stoppedWith_core_self]
  · rw [State.stoppedWith_core_self]
  · rw [State.stoppedWith_core_self]
  · rw [State.stoppedWith_core_self]
    exact ⟨rfl, rfl, rfl, rfl, rfl, rfl, rfl⟩
  · rw [hdp]
    exact Nat.mod_eq_of_lt ((s.core c).pc.isLt.trans (by decide))

/-- What an exception leaves does not depend on the words the core's buffer holds. -/
theorem raised_of_fetched {s t : State} {c : CoreId} {ib : List (Nat × Word)} {cause : Nat}
    (h : Raised (s.setCore c { s.core c with ibuf := ib }) t c cause) : Raised s t c cause := by
  simp only [Raised, SameRegs, State.core_setCore_self] at h
  exact h

theorem quietly_fetched {s : State} {c : CoreId} (hq : Quietly s c) (ib : List (Nat × Word)) :
    Quietly (s.setCore c { s.core c with ibuf := ib }) c := by
  obtain ⟨hcfg, hrest, hcol⟩ := hq
  exact ⟨by rw [State.core_setCore_self]; exact hcfg, hrest, hcol⟩

/-! Issues that come to nothing but a step behind, or to an exception. -/

theorem issueCheck_skip {s : State} {i : Issue} {n : Nat} {bad : Bool} {reads : List CReg} (hrun : (s.core i.core).run = .running)
    (hpwr : (s.core i.core).pwr = .run) (hwait : (s.core i.core).wait = none) (hret : (s.parcel (coreParcel i.core)).health.retired = false)
    (hdead : s.dead i.core.tract.val = false) (hfetch : s.fetchBad i n = false)
    (hprog : (wordOffsets (s.core i.core).pc.toNat n).all (s.core i.core).inProgram = true) (hguard : (s.core i.core).guardOk i.guard = false)
    (hgbad : guardBad i.guard = false) (hbad : bad = false) (hcore : s.coreBad i.core [0, 1, 4] = none) :
    s.issueCheck i n bad reads = .skip := by
  simp [State.issueCheck, Core.mayIssue, hrun, hpwr, hwait, hret, hdead, hfetch, hprog, hguard, hgbad, hbad, hcore]

/-- An instruction whose guard does not let it execute: the PC lies behind it, and its words are in the buffer (R37). -/
theorem issue_of_skip {s : State} {i : Issue} {n : Nat} {bad : Bool} {reads : List CReg} {act : State → State}
    (h : s.issueCheck i n bad reads = .skip) :
    ∃ ib, s.issue i n bad reads act = s.setCore i.core (({ s.core i.core with ibuf := ib } : Core).retire n) := by
  obtain ⟨ib, hib⟩ := s.noteFetch_eq i n
  exact ⟨ib, by rw [State.issue, h]; dsimp only; rw [hib, State.setCore_modCore]⟩

theorem wordOffsets_four_of_eight {pc : Nat} {p : Nat → Bool} (h : (wordOffsets pc 8).all p = true) : (wordOffsets pc 4).all p = true := by
  have h8 : p pc = true ∧ p (pc + 4) = true := by simpa [wordOffsets] using h
  simpa [wordOffsets] using h8.1

/-- The commands O9 names each issue with an encoding that is sound. -/
theorem exec_guarded {i : Issue} {s : State} {c : Instr} {n : Nat}
    (hc : (∃ q ∈ scalarOps, ∃ f, c = q.1 i f ∧ n = 4) ∨ (∃ rd imm, c = .li i { rd := rd, rs1 := 0, imm8 := 0, imm32 := imm } ∧ n = 8) ∨
        (∃ off, c = .br i off ∧ n = 4) ∨ (∃ f, f.ext = none ∧ c = .stw i f ∧ n = 4) ∨ (∃ pd, c = .take i { gd := 4, pd := pd, reserved := 0 } ∧ n = 4))
    (hs : s.spells i c = true) : (n = 4 ∨ n = 8) ∧ ∃ bad reads act, bad = false ∧ exec c s = .next (s.issue i n bad reads act) := by
  rcases hc with ⟨q, hq, f, rfl, rfl⟩ | ⟨rd, imm, rfl, rfl⟩ | ⟨off, rfl, rfl⟩ | ⟨f, hext, rfl, rfl⟩ | ⟨pd, rfl, rfl⟩
  · exact ⟨.inl rfl, _, _, _, rfl, exec_scalarOps q hq i f s hs⟩
  · exact ⟨.inr rfl, _, _, _, rfl, State.asSpelled_of_spells hs⟩
  · exact ⟨.inl rfl, _, _, _, rfl, State.asSpelled_of_spells hs⟩
  · obtain ⟨rt, ab, space, off8, ext⟩ := f
    cases (hext : ext = none)
    exact ⟨.inl rfl, _, _, _, rfl, State.asSpelled_of_spells hs⟩
  · exact ⟨.inl rfl, _, _, _, by simp [fmtTBad, quadBad], State.asSpelled_of_spells hs⟩

/-- Settles O9. -/
theorem guardFailsSkips : Obligations.GuardFailsSkips := by
  intro i s hrun hpwr hwait hret hdead hfetch4 hfetch8 hprog hguard hgbad hcore c n hc hs
  obtain ⟨hn, bad, reads, act, hbad, hexec⟩ := exec_guarded hc hs
  have hskip : s.issueCheck i n bad reads = .skip := by
    rcases hn with rfl | rfl
    · exact issueCheck_skip hrun hpwr hwait hret hdead hfetch4 (wordOffsets_four_of_eight hprog) hguard hgbad hbad hcore
    · exact issueCheck_skip hrun hpwr hwait hret hdead hfetch8 hprog hguard hgbad hbad hcore
  obtain ⟨ib, ht⟩ := issue_of_skip (act := act) hskip
  refine ⟨_, hexec.trans (congrArg _ ht), State.setCore_only .., ?_⟩
  rw [State.core_setCore_self]
  refine ⟨?_, ?_, rfl, rfl⟩ <;> and_intros <;> rfl

/-! Reserved encodings (R38). -/

section
variable {s : State} {i : Issue} {n : Nat} {bad : Bool} {reads : List CReg} {act : State → State}

theorem fetchBad_of_fetchedWords (hf : (s.core i.core).fetchedWords i n = []) : s.fetchBad i n = false := by
  rw [State.fetchBad, hf]
  rfl

theorem fetchedWords_four_of_eight {k : Core} (hf : k.fetchedWords i 8 = []) : k.fetchedWords i 4 = [] := by
  have h8 : [k.pc.toNat, k.pc.toNat + 4].filter (fun o => i.fetch || !k.ibuf.any (fun q => q.1 = o)) = [] := hf
  show [k.pc.toNat].filter (fun o => i.fetch || !k.ibuf.any (fun q => q.1 = o)) = []
  rw [List.filter_eq_nil_iff] at h8 ⊢
  exact fun a ha => h8 a (List.mem_cons.2 (.inl (List.mem_singleton.1 ha)))

/-- An instruction with a reserved encoding or guard, whose words the buffer holds, raises ILLEGAL. -/
theorem issue_illegal (hrun : (s.core i.core).run = .running) (hpwr : (s.core i.core).pwr = .run) (hwait : (s.core i.core).wait = none)
    (hret : (s.parcel (coreParcel i.core)).health.retired = false) (hdead : s.dead i.core.tract.val = false)
    (hf : (s.core i.core).fetchedWords i n = []) (hprog : (wordOffsets (s.core i.core).pc.toNat n).all (s.core i.core).inProgram = true)
    (hcore : s.coreBad i.core [0, 1, 4] = none) (hbad : (bad || guardBad i.guard) = true) :
    s.issue i n bad reads act = s.raiseAt i.core { cause := .illegal } := by
  have hcheck : s.issueCheck i n bad reads = .raise .illegal := by
    simp [State.issueCheck, Core.mayIssue, hrun, hpwr, hwait, hret, hdead, fetchBad_of_fetchedWords hf, hprog, hcore, hbad]
  rw [State.issue, hcheck]
  dsimp only
  rw [hf]
  rfl

/-- Words that spell nothing: ILLEGAL, whatever the row (R38, assumption log 1). -/
theorem asSpelled_of_none {ins : Instr} {r : Result}
    (hnone : decodeCore i (s.wordAt i (s.core i.core).pc.toNat) (s.wordAt i ((s.core i.core).pc.toNat + 4)) = none)
    (hf : s.fetchBad i 4 = false) (hprog : (s.core i.core).inProgram (s.core i.core).pc.toNat = true) :
    s.asSpelled i ins r = .next (s.issue i (wordLen (s.wordAt i (s.core i.core).pc.toNat)) true [] id) := by
  simp [State.asSpelled, State.spells, hnone, hf, hprog]

end

/-- A command of those O10 names issues with a reserved encoding or under the reserved guard. -/
theorem exec_reserved {i : Issue} {s : State} {c : Instr} (hs : s.spells i c = true)
    (hc : (∃ f, 32 ≤ f.imm8.toNat ∧ (c = .shli i f ∨ c = .shri i f ∨ c = .srai i f)) ∨ (∃ f, f.rs2 ≠ 0 ∧ (c = .clz i f ∨ c = .popc i f)) ∨
        (∃ f, f.imm8 ≠ 0 ∧ c = .li i f) ∨ (∃ f, 64 ≤ f.imm8.toNat ∧ c = .fence i f) ∨ (guardBad i.guard = true ∧ ∃ f, c = .add i f)) :
    ∃ n bad reads act, (n = 4 ∨ n = 8) ∧ (bad || guardBad i.guard) = true ∧ exec c s = .next (s.issue i n bad reads act) := by
  rcases hc with ⟨f, hf, rfl | rfl | rfl⟩ | ⟨f, hf, rfl | rfl⟩ | ⟨f, hf, rfl⟩ | ⟨f, hf, rfl⟩ | ⟨hg, f, rfl⟩
  · exact ⟨4, _, _, _, .inl rfl, by simp [immShiftBad, hf], State.asSpelled_of_spells hs⟩
  · exact ⟨4, _, _, _, .inl rfl, by simp [immShiftBad, hf], State.asSpelled_of_spells hs⟩
  · exact ⟨4, _, _, _, .inl rfl, by simp [immShiftBad, hf], State.asSpelled_of_spells hs⟩
  · exact ⟨4, _, _, _, .inl rfl, by rw [bne_iff_ne.2 hf]; rfl, State.asSpelled_of_spells hs⟩
  · exact ⟨4, _, _, _, .inl rfl, by rw [bne_iff_ne.2 hf]; rfl, State.asSpelled_of_spells hs⟩
  · exact ⟨8, _, _, _, .inr rfl, by rw [bne_iff_ne.2 hf]; rfl, State.asSpelled_of_spells hs⟩
  · exact ⟨4, _, _, _, .inl rfl, by simp [hf], State.asSpelled_of_spells hs⟩
  · exact ⟨4, false, _, _, .inl rfl, hg, State.asSpelled_of_spells hs⟩

/-- Settles O10. -/
theorem reservedEncodingsRaiseIllegal : Obligations.ReservedEncodingsRaiseIllegal := by
  intro i s hrun hpwr hwait hret hdead _ hf8 hcfg hrest hcore hprog8 hcol c hc
  have hf4 := fetchedWords_four_of_eight hf8
  have hprog4 := wordOffsets_four_of_eight hprog8
  have hin : (s.core i.core).inProgram (s.core i.core).pc.toNat = true := List.all_eq_true.1 hprog4 _ (List.mem_singleton.2 rfl)
  have hexec : exec c s = .next (s.raiseAt i.core { cause := .illegal }) := by
    have hissue (n : Nat) (hn : n = 4 ∨ n = 8) (bad : Bool) (reads : List CReg) (act : State → State) (hb : (bad || guardBad i.guard) = true) :
        s.issue i n bad reads act = s.raiseAt i.core { cause := .illegal } := by
      rcases hn with rfl | rfl
      · exact issue_illegal hrun hpwr hwait hret hdead hf4 hprog4 hcore hb
      · exact issue_illegal hrun hpwr hwait hret hdead hf8 hprog8 hcore hb
    rcases hc with ⟨hs, hres⟩ | ⟨hnone, hrow⟩
    · obtain ⟨n, bad, reads, act, hn, hb, hexec⟩ := exec_reserved hs hres
      rw [hexec, hissue n hn bad reads act hb]
    · have hspelled (ins : Instr) (r : Result) : s.asSpelled i ins r = .next (s.raiseAt i.core { cause := .illegal }) := by
        rw [asSpelled_of_none hnone (fetchBad_of_fetchedWords hf4) hin, hissue _ _ true [] id rfl]
        unfold wordLen
        split <;> simp
      rcases hrow with ⟨f, rfl⟩ | ⟨f, rfl⟩ | ⟨f, rfl⟩ | ⟨f, rfl⟩ <;> exact hspelled _ _
  obtain ⟨h1, h2, h3, h4, h5, d, h6, h7, h8, h9, h10, h11⟩ := raiseAt_raised (e := { cause := .illegal }) ⟨hcfg, hrest, hcol⟩ rfl
  exact ⟨_, d, hexec, h1, h2, h3, h4, h5, h6, h7, h8, h9, h10, h11⟩

/-! Accesses that are refused (R476). -/

theorem Core.operandWait_cons {k : Core} {r : CReg} {rs : List CReg} :
    k.operandWait (r :: rs) = none ↔ k.loadOf r = none ∧ k.astatOf r = none ∧ k.operandWait rs = none := by
  rw [Core.operandWait]
  cases k.loadOf r <;> cases k.astatOf r <;> simp

section
variable {s : State} {i : Issue} {n : Nat} {r : CReg} {reads : List CReg}

theorem ready_tail (h : Ready s i n (r :: reads)) : Ready s i n reads := by
  obtain ⟨hrun, hpwr, hwait, hret, hdead, hfetch, hprog, hguard, hopd, hbad⟩ := h
  exact ⟨hrun, hpwr, hwait, hret, hdead, hfetch, hprog, hguard, (Core.operandWait_cons.1 hopd).2.2, hbad⟩

theorem ready_init (h : Ready s i n (r :: reads)) : Ready s i n [r] := by
  obtain ⟨hrun, hpwr, hwait, hret, hdead, hfetch, hprog, hguard, hopd, hbad⟩ := h
  obtain ⟨hload, hastat, -⟩ := Core.operandWait_cons.1 hopd
  exact ⟨hrun, hpwr, hwait, hret, hdead, hfetch, hprog, hguard, Core.operandWait_cons.2 ⟨hload, hastat, rfl⟩, hbad⟩

end

/-- What the checks of an access say does not depend on a core's record (R476). -/
theorem accessFault_setCore (s : State) (c c' : CoreId) (k : Core) (space : BitVec 2) (off n : Nat) (write : Bool) :
    (s.setCore c' k).accessFault c space off n write = s.accessFault c space off n write := rfl

/-- The exception of a word access, by the first of its checks that fails (R476). -/
theorem accessFault_cause {s : State} {c : CoreId} {space : BitVec 2} {off code : Nat} {write : Bool}
    (h : (off % 4 ≠ 0 ∧ code = 3) ∨ (off % 4 = 0 ∧ space ≠ 3 ∧ spaceSize space < off + 4 ∧ code = 4) ∨
      (off % 4 = 0 ∧ space = 3 ∧ (12 ≤ gaTract off ∨ 1360 ≤ gaParcel off) ∧ code = 6) ∨
      (write = true ∧ off % 4 = 0 ∧ space = 1 ∧ off + 4 ≤ 0x4_0000 ∧ s.cmOwned c.tract off = true ∧ code = 5)) :
    ∃ e, s.accessFault c space off 4 write = some e ∧ e.cause.retryable = false ∧ e.cause.code = code := by
  unfold State.accessFault
  rcases h with ⟨halign, rfl⟩ | ⟨halign, hsp, hrange, rfl⟩ | ⟨halign, hsp, hga, rfl⟩ | ⟨hw, halign, rfl, hrange, hown, rfl⟩
  · exact ⟨_, if_pos halign, rfl, rfl⟩
  · exact ⟨_, (if_neg (not_not.2 halign)).trans ((if_neg hsp).trans (if_pos hrange)), rfl, rfl⟩
  · have hbad : gaBad off = true := by simpa [gaBad] using hga
    exact ⟨_, (if_neg (not_not.2 halign)).trans ((if_pos hsp).trans (if_pos hbad)), rfl, rfl⟩
  · have hsize : ¬ spaceSize 1 < off + 4 := by simp [spaceSize]; omega
    refine ⟨_, (if_neg (not_not.2 halign)).trans ((if_neg (by decide)).trans ((if_neg hsize).trans (if_pos ?_))), rfl, rfl⟩
    simp [hw, hown]

/-- A load or store whose access is refused stops its core before anything is moved. -/
theorem loadAct_fault {s : State} {c : CoreId} {space : BitVec 2} {off size n : Nat} {parts : List LoadPart} {e : ExcInfo}
    (h : s.accessFault c space off size false = some e) : s.loadAct c space off size n parts = s.raiseAt c e := by
  rw [State.loadAct, h]

theorem storeAct_fault {s : State} {c : CoreId} {space : BitVec 2} {off n : Nat} {data : List Byte} {e : ExcInfo}
    (h : s.accessFault c space off data.length true = some e) : s.storeAct c space off n data = s.raiseAt c e := by
  rw [State.storeAct, h]

/-- A word access of format M without extension word, at a core that is ready for it: the store or the load itself. -/
theorem exec_wordAccess {s : State} {i : Issue} {f : FmtM} (store : Bool) (hext : f.ext = none) (h : Ready s i 4 [.a f.ab, .g f.rt])
    (hs : s.spells i (if store then .stw i f else .ldw i f) = true) :
    ∃ ib, exec (if store then .stw i f else .ldw i f) s = .next (
      if store then (s.setCore i.core { s.core i.core with ibuf := ib }).storeAct i.core f.space (fmtMOffset (s.core i.core) f 4) 4
          (natLe 4 ((s.core i.core).getG f.rt).toNat)
        else (s.setCore i.core { s.core i.core with ibuf := ib }).loadAct i.core f.space (fmtMOffset (s.core i.core) f 4) 4 4
          [{ reg := .g f.rt, lo := 0, len := 4, sext := false }]) := by
  obtain ⟨ib, hib⟩ := s.noteFetch_eq i 4
  obtain ⟨rt, ab, space, off8, ext⟩ := f
  cases (hext : ext = none)
  refine ⟨ib, ?_⟩
  cases store
  · refine (State.asSpelled_of_spells hs).trans (congrArg _ ((issue_of_ready (ready_init h) _).trans ?_))
    dsimp only
    rw [hib, State.core_setCore_self]
    rfl
  · refine (State.asSpelled_of_spells hs).trans (congrArg _ ((issue_of_ready h _).trans ?_))
    dsimp only
    rw [hib, State.core_setCore_self]
    rfl

/-- Settles O15. -/
theorem badAccessesAreStopped : Obligations.BadAccessesAreStopped := by
  intro i f store s hext _ _ h hcfg hrest hcol code hcode hs
  obtain ⟨ib, hexec⟩ := exec_wordAccess store hext h hs
  have hcode' := hcode
  obtain ⟨e, he, hret, hcause⟩ := accessFault_cause (s := s.setCore i.core { s.core i.core with ibuf := ib }) (c := i.core) (write := store) hcode
  have hact : exec (if store then .stw i f else .ldw i f) s = .next ((s.setCore i.core { s.core i.core with ibuf := ib }).raiseAt i.core e) := by
    rw [hexec]
    cases store
    · exact congrArg _ (loadAct_fault he)
    · exact congrArg _ (storeAct_fault (by rw [natLe_length]; exact he))
  obtain ⟨hrun, -, hpc, hregs, hmem, d, hd, hcls, -, -, hdc, -⟩ := raised_of_fetched (raiseAt_raised (quietly_fetched ⟨hcfg, hrest, hcol⟩ ib) hret)
  exact ⟨_, d, hact, hmem, hrun, hpc, hregs, hd, hcls, hdc.trans hcause⟩

end Sys2Proof.Machine
end

section
/-!
PROOFS (O25, O26). The CONTROL class as it issues, and the power states of a core (R54 to R57, R379 to R381).
-/
namespace Sys2Proof.Machine
open Sys2Proof.Claims

section
variable {s : State} {c : CoreId}

/-! A core that goes on, or waits, with no addition held. -/

/-- A core that has waited since its instruction issued waits at it, and nothing else has changed. -/
theorem waitsAt_setCore (s : State) (c : CoreId) (w : Wait) (ib : List (Nat × Word)) :
    WaitsAt s (s.setCore c { s.core c with ibuf := ib, wait := some w }) c w := by
  refine ⟨State.setCore_only .., ?_⟩
  rw [State.core_setCore_self]
  refine ⟨?_, ?_, rfl, rfl⟩ <;> and_intros <;> rfl

theorem State.stallAt_fetched (s : State) (c : CoreId) (w : Wait) (ib : List (Nat × Word)) :
    (s.setCore c { s.core c with ibuf := ib }).stallAt c w = s.setCore c { s.core c with ibuf := ib, wait := some w } :=
  State.setCore_modCore ..

theorem State.orGangFault_of_none {act : State → State} (h : (s.core c).arr.fault = none) : s.orGangFault c act = act s := by
  rw [State.orGangFault, h]

theorem State.settle_of_no_wait (hrels : (s.core c).rels = []) (hwait : (s.core c).wait = none) : s.settle c = s := by
  simp only [State.settle, hrels, State.settleRels, hwait]

theorem State.settle_of_fence {mask : BitVec 8} (hrels : (s.core c).rels = []) (hwait : (s.core c).wait = some (.fence mask)) :
    s.settle c = if s.fenceOpen c mask = 0 then s.modCore c (fun k => k.fenceDone mask) else s := by
  simp only [State.settle, hrels, State.settleRels, hwait]

theorem State.sleepCheck_of_sleep {dst : BitVec 5} {mask thr : Word} (hwait : (s.core c).wait = some (.sleep dst mask thr)) :
    s.sleepCheck c = if (s.sleepHolds c mask thr).extractLsb' 0 4 = 0 then s
      else s.modCore c (fun k => k.sleepReturn dst (s.sleepHolds c mask thr &&& 0xF)) := by
  simp only [State.sleepCheck, hwait]

/-! SLEEP (R54). -/

/-- Whether a core that sleeps for a tile finds one: an entry of the list, of the retry queue or of an audit (R54). -/
def State.tileThere (s : State) (c : CoreId) : Bool :=
  !(s.parcel (coreParcel c)).tiles.isEmpty || (s.parcel (coreParcel c)).retries.any (fun r => r.first ≠ c.core) ||
    (s.parcel (coreParcel c)).audits.any (fun e => e.ready && !e.taken.contains c.core)

theorem State.sleepHolds_tile (s : State) (c : CoreId) (thr : Word) : s.sleepHolds c 1 thr = BitVec.ofNat 32 (b2n (s.tileThere c)) := by
  have hmask : ∀ t l a m : Bool, (1 : Word) &&& BitVec.ofNat 32 (b2n t + 2 * b2n l + 4 * b2n a + 8 * b2n m) = BitVec.ofNat 32 (b2n t) := by decide
  exact hmask ..

theorem sleepMask_tile : sleepMaskBad 1 = false ∧ (1 : Word).getLsbD 3 = false := by decide

/-- SLEEP for a tile alone, at a core that reads its mask. -/
theorem sleepAct_tile {f : FmtZ} {ib : List (Nat × Word)} (hmask : (s.core c).getG f.g2 = 1) :
    ∃ thr, (s.setCore c { s.core c with ibuf := ib }).sleepAct c f =
      (s.setCore c { s.core c with ibuf := ib, wait := some (.sleep f.g 1 thr) }).sleepCheck c := by
  refine ⟨(s.core c).getG (f.g2 + 1), ?_⟩
  have hmask' : ((s.setCore c { s.core c with ibuf := ib }).core c).getG f.g2 = 1 := by rw [State.core_setCore_self]; exact hmask
  have hthr : ((s.setCore c { s.core c with ibuf := ib }).core c).getG (f.g2 + 1) = (s.core c).getG (f.g2 + 1) := by
    rw [State.core_setCore_self]; rfl
  simp only [State.sleepAct, hmask', sleepMask_tile, Bool.false_and, Bool.or_self, Bool.false_eq_true, if_false, State.stallAt_fetched, hthr]

theorem sleepReturn_getG (k : Core) (dst r : BitVec 5) (held : Word) :
    (k.sleepReturn dst held).getG r = if r = dst then (if dst = 0 then 0 else held) else k.getG r :=
  Core.getG_setG (k.supersede (.g dst)) dst r held

theorem sleepReturn_frame (k : Core) (dst : BitVec 5) (held : Word) :
    (k.sleepReturn dst held).land = false ∧ (k.sleepReturn dst held).arrive = false ∧ (k.sleepReturn dst held).pc = k.pc + 4 ∧
      (k.sleepReturn dst held).wait = none := by
  obtain ⟨g, hg⟩ := Core.setG_eq (k.supersede (.g dst)) dst held
  rw [Core.sleepReturn, Core.putG, hg]
  and_intros <;> rfl

/-! An exception, whatever the core's gang and its tract's collector hold (R58, R78). -/

/-- A core has stopped in SLEEP at its PC, memory being m. -/
def State.StoppedAt (s : State) (c : CoreId) (pc : BitVec 18) (m : Mem) : Prop :=
  (s.core c).run = .stopped ∧ (s.core c).pwr = .sleep ∧ (s.core c).pc = pc ∧ s.mem = m

theorem State.core_emit (s : State) (r : ErrRec) (c : CoreId) : (s.emit r).core c = s.core c := by
  rw [State.core, State.core, State.emit_cores]

/-- A stop that no plot re-runs: a record, and the core's run state. -/
theorem State.stopOn_of_not_retryable (s : State) (c : CoreId) (pc : Nat) {e : ExcInfo} (he : e.cause.retryable = false) :
    s.stopOn c pc e = (s.emit (s.faultRecord c pc e)).modCore c (fun k => { k with run := .stopped, wait := none, pwr := .sleep }) := by
  simp [State.stopOn, he]

theorem breakArray_frame (k : Core) (f : GangFault) :
    (k.breakArray f).run = k.run ∧ (k.breakArray f).pwr = k.pwr ∧ (k.breakArray f).pc = k.pc := by
  unfold Core.breakArray
  refine List.foldlRecOn (motive := fun (k' : Core) => k'.run = k.run ∧ k'.pwr = k.pwr ∧ k'.pc = k.pc) k.arr.queue _ ⟨rfl, rfl, rfl⟩ ?_
  intro k' h e _
  split
  next n _ _ =>
    obtain ⟨g, hg⟩ := Core.setG_eq k' n (BitVec.ofNat 32 (2 ^ 31 + k'.arr.flagWord))
    rw [hg]
    exact h
  next => exact h

/-- The break of a gang leaves a core that has stopped as it stands. -/
theorem State.breakGang_stoppedAt {pc : BitVec 18} {m : Mem} (h : s.StoppedAt c pc m) (f : GangFault) : (s.breakGang c f).StoppedAt c pc m := by
  have hbreak (s : State) (x : CoreId) (h : s.StoppedAt c pc m) : (s.modCore x (fun k => k.breakArray f)).StoppedAt c pc m := by
    obtain ⟨hrun, hpwr, hpc, hmem⟩ := h
    obtain ⟨brun, bpwr, bpc⟩ := breakArray_frame (s.core x) f
    rw [State.StoppedAt, State.core_modCore]
    split
    next hx => subst hx; exact ⟨brun.trans hrun, bpwr.trans hpwr, bpc.trans hpc, hmem⟩
    next => exact ⟨hrun, hpwr, hpc, hmem⟩
  have hstop (s : State) (x : CoreId) (h : s.StoppedAt c pc m) (hx : (s.core x).run = .running) : (s.gangStop x f).StoppedAt c pc m := by
    obtain ⟨hrun, hpwr, hpc, hmem⟩ := h
    have hne : c ≠ x := fun e => by rw [e, hx] at hrun; cases hrun
    unfold State.gangStop
    dsimp only
    rw [State.stopOn_of_not_retryable (he := rfl)]
    simp only [State.StoppedAt, State.core_modCore, if_neg hne, State.core_emit]
    exact ⟨hrun, hpwr, hpc, by simpa using hmem⟩
  have hall (ms : List CoreId) (s : State) (h : s.StoppedAt c pc m) : (s.breakMembers ms f).StoppedAt c pc m := by
    rw [State.breakMembers]
    refine List.foldlRecOn (motive := fun (s : State) => s.StoppedAt c pc m) ms _ ?_ ?_
    · exact List.foldlRecOn (motive := fun (s : State) => s.StoppedAt c pc m) ms _ h (fun s h x _ => hbreak s x h)
    · intro s h x _
      split
      · split
        next hx => exact hstop s x h (by simp at hx; exact hx.2)
        next => exact h
      · exact h
  unfold State.breakGang
  split
  · split
    · exact hall _ s h
    · exact h
  · exact h

theorem State.raiseAt_stoppedAt (s : State) (c : CoreId) {e : ExcInfo} (he : e.cause.retryable = false) :
    (s.raiseAt c e).StoppedAt c (s.core c).pc s.mem := by
  refine State.breakGang_stoppedAt ?_ _
  rw [State.stopOn_of_not_retryable _ _ _ he, State.StoppedAt, State.core_modCore, if_pos rfl, State.core_emit]
  exact ⟨rfl, rfl, rfl, by simp⟩

/-! FENCE (R56). -/

theorem fenceOpen_zero (s : State) (c : CoreId) : s.fenceOpen c 0 = 0 := by
  simp [State.fenceOpen, bitOf]

/-- A FENCE without bit 3 at a core that is ready for it waits, and goes on where nothing it waits for is open. -/
theorem exec_fence {s : State} {i : Issue} {f : FmtZ} {ib : List (Nat × Word)} (hg : f.g = 0) (hg2 : f.g2 = 0) (hlt : f.imm8.toNat < 64)
    (hbit : f.imm8.getLsbD 3 = false) (h : Ready s i 4 []) (hs : s.spells i (.fence i f) = true)
    (hib : s.noteFetch i 4 = s.setCore i.core { s.core i.core with ibuf := ib }) :
    exec (.fence i f) s = .next ((s.setCore i.core { s.core i.core with ibuf := ib, wait := some (.fence f.imm8) }).settle i.core) := by
  refine (State.asSpelled_of_spells hs).trans (congrArg _ ?_)
  rw [show (f.g != 0 || f.g2 != 0 || decide (64 ≤ f.imm8.toNat)) = false by simp [hg, hg2, hlt], issue_of_ready h]
  dsimp only
  rw [hbit, if_neg Bool.false_ne_true, hib, State.stallAt_fetched]

theorem fenceOpen_one (h : (s.core c).loads.any (fun l => l.space == 1) = true) : s.fenceOpen c 1 ≠ 0 := by
  simp [State.fenceOpen, h, bitOf]

end

/-- Settles O25. -/
theorem controlInstructions : Obligations.ControlInstructions := by
  intro i f s
  obtain ⟨ib, hib⟩ := s.noteFetch_eq i 4
  have hcore : (s.noteFetch i 4).core i.core = { s.core i.core with ibuf := ib } := by rw [hib, State.core_setCore_self]
  refine ⟨fun himm h hmask hg => ?_, fun hg hg2 h hfault => ⟨fun himm hs => ?_, fun hs => ?_, fun himm hrels hs => ?_, fun himm hrels hload hs => ?_⟩⟩
  · obtain ⟨thr, hact⟩ := sleepAct_tile (c := i.core) (ib := ib) hmask
    have hexec (hs : s.spells i (.sleep i f) = true) : exec (.sleep i f) s =
        .next ((s.setCore i.core { s.core i.core with ibuf := ib, wait := some (.sleep f.g 1 thr) }).sleepCheck i.core) := by
      refine (State.asSpelled_of_spells hs).trans (congrArg _ ?_)
      rw [show (f.imm8 != 0) = false by simp [himm], issue_of_ready h, hib, hact]
    have hcheck := State.sleepCheck_of_sleep (s := s.setCore i.core { s.core i.core with ibuf := ib, wait := some (.sleep f.g 1 thr) })
      (c := i.core) (by rw [State.core_setCore_self])
    rw [State.sleepHolds_tile] at hcheck
    constructor
    · intro htiles hs
      have hthere : (s.setCore i.core { s.core i.core with ibuf := ib, wait := some (.sleep f.g 1 thr) }).tileThere i.core = true := by
        show s.tileThere i.core = true
        simp [State.tileThere, htiles]
      rw [hthere, if_neg (by decide), State.setCore_modCore, show BitVec.ofNat 32 (b2n true) &&& 0xF = 1 by decide] at hcheck
      obtain ⟨hland, harrive, hpc, hwait⟩ := sleepReturn_frame { s.core i.core with ibuf := ib, wait := some (.sleep f.g 1 thr) } f.g 1
      refine ⟨_, hexec hs, ?_⟩
      rw [hcheck, State.core_setCore_self]
      refine ⟨State.setCore_only .., ?_, fun r hr => ?_, hland, harrive, hpc, hwait⟩
      · rw [sleepReturn_getG, if_pos rfl, if_neg hg]
      · rw [sleepReturn_getG, if_neg hr]; rfl
    · intro htiles hretries haudits hs
      have hthere : (s.setCore i.core { s.core i.core with ibuf := ib, wait := some (.sleep f.g 1 thr) }).tileThere i.core = false := by
        show s.tileThere i.core = false
        simp [State.tileThere, htiles, hretries, haudits]
      rw [hthere, if_pos (by decide)] at hcheck
      exact ⟨_, thr, (hexec hs).trans (congrArg _ hcheck), waitsAt_setCore ..⟩
  · have hfault' : ((s.noteFetch i 4).core i.core).arr.fault = none := by rw [hcore]; exact hfault
    refine ⟨_, (State.asSpelled_of_spells hs).trans (congrArg _ ?_), waitsAt_setCore s i.core .halt ib⟩
    rw [show (f.g != 0 || f.g2 != 0 || f.imm8 != 0) = false by simp [hg, hg2, himm], issue_of_ready h, State.orGangFault_of_none hfault', hib,
      State.stallAt_fetched]
  · obtain ⟨hrun, hpwr, hpc, hmem⟩ := (s.noteFetch i 4).raiseAt_stoppedAt i.core (e := { cause := .trap, code := f.imm8.toNat }) rfl
    refine ⟨_, (State.asSpelled_of_spells hs).trans (congrArg _ ?_), hrun, hpwr, hpc.trans (by rw [hcore]), hmem⟩
    rw [show (f.g != 0 || f.g2 != 0) = false by simp [hg, hg2], issue_of_ready h]
  · have hexec := exec_fence hg hg2 (by rw [himm]; decide) (by rw [himm]; decide) h hs hib
    rw [himm, State.settle_of_fence (mask := 0) (by rw [State.core_setCore_self]; exact hrels) (by rw [State.core_setCore_self]),
      fenceOpen_zero, if_pos rfl, State.setCore_modCore] at hexec
    refine ⟨_, hexec, State.setCore_only .., ?_⟩
    rw [State.core_setCore_self, Core.fenceDone, if_neg (by decide)]
    refine ⟨?_, ?_, rfl⟩ <;> and_intros <;> rfl
  · have hexec := exec_fence hg hg2 (by rw [himm]; decide) (by rw [himm]; decide) h hs hib
    rw [himm, State.settle_of_fence (mask := 1) (by rw [State.core_setCore_self]; exact hrels) (by rw [State.core_setCore_self]),
      if_neg (fenceOpen_one (by rw [State.core_setCore_self]; exact hload))] at hexec
    exact ⟨_, hexec, waitsAt_setCore s i.core (.fence 1) ib⟩

/-! Power states (R379 to R381). -/

theorem State.breakGang_of_no_config {s : State} {c : CoreId} (h : (s.core c).arr.cfg = none) (f : GangFault) : s.breakGang c f = s := by
  rw [State.breakGang, h]

theorem State.reclaim_frame (s : State) (t : Tract) :
    (s.reclaim t).cores = s.cores ∧ (s.reclaim t).mem = s.mem ∧ (s.reclaim t).parcels = s.parcels ∧ (s.reclaim t).fabs = s.fabs := by
  unfold State.reclaim
  dsimp only
  split
  · exact ⟨rfl, rfl, rfl, rfl⟩
  · simp only [State.setRegBits_cores, State.setRegBits_mem, State.setRegBits_parcels, State.setRegBits_fabs]
    exact ⟨rfl, rfl, rfl, rfl⟩

/-- A wait on a resource or an operand is no release's, no counter's, no fence's and no SLEEP's: nothing that the core holds acts. -/
theorem State.settle_of_reissues {s : State} {c : CoreId} {w : Wait} (hrels : (s.core c).rels = []) (hwait : (s.core c).wait = some w)
    (hw : w.reissues = true) : s.settle c = s := by
  cases w <;> simp [Wait.reissues] at hw <;> simp only [State.settle, hrels, State.settleRels, hwait]

theorem coreEnterSleep_eq {s : State} {c : CoreId} (hrun : (s.core c).run = .running) (hpwr : (s.core c).pwr = .run)
    (hwait : (s.core c).wait ≠ none) (hplot : bitOf (s.plotReg (coreParcel c) .plotPwr) 0 = true) :
    exec (.coreEnterSleep c) s = .next (s.setCore c { s.core c with pwr := .sleep }) :=
  congrArg Host.Outcome.next (if_pos (by simp [hrun, hpwr, hplot, Option.isSome_iff_ne_none.2 hwait]))

theorem coreEnterDeep_eq {s : State} {c : CoreId}
    (hwaits : (((s.core c).run == .running && (((s.core c).wait.map Wait.mayDeep).getD false)) || (s.core c).run == .halted) = true)
    (hcopies : (s.core c).copies = []) (hloads : (s.core c).loads = []) (hstores : s.storesOpen c = 0) (hqueue : (s.core c).arr.queue = [])
    (hlend : s.regBits (tractReg .easeCfg c.tract) 15 0 ≠ 0) (hsleep : bitOf (s.plotReg (coreParcel c) .plotPwr) 0 = true)
    (hdeep : bitOf (s.plotReg (coreParcel c) .plotPwr) 1 = true) :
    exec (.coreEnterDeep c) s = .next (s.setCore c { s.core c with pwr := .deep, ibuf := [] }) :=
  congrArg Host.Outcome.next (if_pos (by rw [hwaits]; simp [hcopies, hloads, hstores, hqueue, hlend, hsleep, hdeep]))

/-- Whether what a core waits for is over. -/
theorem stallOpen_of_over {s : State} {c : CoreId} {w : Wait} (hwait : (s.core c).wait = some w)
    (h : (s.core c).wait = none ∨ ((s.core c).wait = some (.resource 2) ∧ (s.core c).copies.length < 32) ∨
      ((s.core c).wait = some (.resource 3) ∧ (s.core c).loadsOpen < 8) ∨
      ∃ addr pc reg, (s.core c).wait = some (.operand addr pc reg) ∧ ∀ l ∈ (s.core c).loads, l.addr ≠ addr) :
    w.reissues = true ∧ s.stallOpen c w = false := by
  rcases h with hnone | ⟨hw, hlt⟩ | ⟨hw, hlt⟩ | ⟨addr, pc, reg, hw, hloads⟩
  · rw [hnone] at hwait; cases hwait
  · obtain rfl := Option.some.inj (hwait.symm.trans hw)
    exact ⟨rfl, by simp [State.stallOpen, hlt]⟩
  · obtain rfl := Option.some.inj (hwait.symm.trans hw)
    exact ⟨rfl, by simp [State.stallOpen, hlt]⟩
  · obtain rfl := Option.some.inj (hwait.symm.trans hw)
    refine ⟨rfl, ?_⟩
    simp only [State.stallOpen, List.any_eq_false, Bool.and_eq_true, decide_eq_true_eq, not_and]
    exact fun l hl e => absurd e (hloads l hl)

theorem coreWake_eq {s : State} {c : CoreId} (hrun : (s.core c).run = .running) (hpwr : (s.core c).pwr ≠ .run) (hrels : (s.core c).rels = [])
    (h : (s.core c).wait = none ∨ ((s.core c).wait = some (.resource 2) ∧ (s.core c).copies.length < 32) ∨
      ((s.core c).wait = some (.resource 3) ∧ (s.core c).loadsOpen < 8) ∨
      ∃ addr pc reg, (s.core c).wait = some (.operand addr pc reg) ∧ ∀ l ∈ (s.core c).loads, l.addr ≠ addr) :
    exec (.coreWake c) s = .next ((s.setCore c { s.core c with pwr := .run }).reclaim c.tract) := by
  have hsettle : s.settle c = s := by
    cases hwait : (s.core c).wait with
    | none => exact State.settle_of_no_wait hrels hwait
    | some w => exact State.settle_of_reissues hrels hwait (stallOpen_of_over hwait h).1
  have hover : (match (s.core c).wait with
      | none => true
      | some w => !s.stallOpen c w) = true := by
    cases hwait : (s.core c).wait with
    | none => rfl
    | some w => simp [(stallOpen_of_over hwait h).2]
  refine congrArg Host.Outcome.next ?_
  dsimp only
  rw [hsettle]
  refine if_pos ?_
  rw [Bool.and_eq_true, Bool.and_eq_true]
  exact ⟨⟨by simp [hrun], by simp [hpwr]⟩, hover⟩

theorem storesOpen_of_no_entries {s : State} {c : CoreId} (h : (s.fab c.tract).ra = []) : s.storesOpen c = 0 := by
  simp [State.storesOpen, h]

theorem haltReady_of_settled {s : State} {c : CoreId} (h : Settled s c) (hcopies : (s.core c).copies = []) : s.haltReady c = true := by
  obtain ⟨hrels, hqueue, hra⟩ := h
  simp [State.haltReady, hrels, hqueue, hcopies, storesOpen_of_no_entries hra]

theorem haltComplete_eq {s : State} {c : CoreId} (hwait : (s.core c).wait = some .halt) :
    exec (.haltComplete c) s = .next (if s.haltReady c then
      (s.setCore c { s.core c with run := .halted, pwr := .sleep, wait := none }).breakGang c .broken else s) := by
  refine congrArg Host.Outcome.next ?_
  rw [hwait]
  rfl

/-- Settles O26. -/
theorem corePowerStates : Obligations.CorePowerStates := by
  intro c s
  refine ⟨fun hrun hpwr hwait hplot => ?_, fun hwaits hcopies hloads hstores hqueue hlend hsleep hdeep => ?_, fun hrun hpwr hrels hover => ?_,
    fun hwait => ⟨fun hset hcopies hcfg => ?_, fun hcopies => ?_⟩⟩
  · exact ⟨_, coreEnterSleep_eq hrun hpwr hwait hplot, State.setCore_only .., State.core_setCore_self ..⟩
  · refine ⟨_, coreEnterDeep_eq ?_ hcopies hloads hstores hqueue hlend hsleep hdeep, State.setCore_only .., State.core_setCore_self ..⟩
    rcases hwaits with hhalt | ⟨hrun, ⟨_, _, hw⟩ | ⟨_, _, _, _, hw⟩ | ⟨_, _, _, _, hw⟩ | ⟨_, _, _, hw⟩⟩
    · simp [hhalt]
    all_goals simp [hrun, hw, Wait.mayDeep]
  · obtain ⟨hcores, hmem, hparcels, hfabs⟩ := (s.setCore c { s.core c with pwr := .run }).reclaim_frame c.tract
    have hcore (c' : CoreId) : ((s.setCore c { s.core c with pwr := .run }).reclaim c.tract).core c' =
        (s.setCore c { s.core c with pwr := .run }).core c' := by rw [State.core, hcores]; rfl
    refine ⟨_, coreWake_eq hrun hpwr hrels hover, (hcore c).trans (State.core_setCore_self ..), fun c' hc' => ?_, hmem, hparcels, hfabs⟩
    rw [hcore, State.core_setCore, if_neg hc']
  · refine ⟨_, haltComplete_eq hwait, ?_⟩
    rw [if_pos (haltReady_of_settled hset hcopies), State.breakGang_of_no_config (by rw [State.core_setCore_self]; exact hcfg)]
    refine ⟨State.setCore_only .., ?_⟩
    rw [State.core_setCore_self]
    refine ⟨rfl, rfl, rfl, ?_, rfl⟩
    and_intros <;> rfl
  · rw [haltComplete_eq hwait, if_neg (by simp [State.haltReady, hcopies])]

end Sys2Proof.Machine
end

section
/-!
PROOFS (O11, O14, O16). Keys of memory, and what a read and a write of sound memory come to (R2, R30, R148, R149).
-/
namespace Sys2Proof.Machine
open Sys2Proof.Claims

/-! The fields of a key (R149). -/

section
variable {t p off : Nat}

theorem gaOffset_keyOf (ho : off < 2 ^ 37) : gaOffset (keyOf t p off) = off := by
  have hk : keyOf t p off = t * 281474976710656 + p * 137438953472 + off := rfl
  have hg : gaOffset (keyOf t p off) = keyOf t p off % 137438953472 := by simp [gaOffset, bitsOf]
  rw [hg, hk]
  omega

theorem gaParcel_keyOf (hp : p < 2048) (ho : off < 2 ^ 37) : gaParcel (keyOf t p off) = p := by
  have hk : keyOf t p off = t * 281474976710656 + p * 137438953472 + off := rfl
  have hg : gaParcel (keyOf t p off) = keyOf t p off / 137438953472 % 2048 := by simp [gaParcel, bitsOf]
  rw [hg, hk]
  omega

theorem gaTract_keyOf (ht : t < 16) (hp : p < 2048) (ho : off < 2 ^ 37) : gaTract (keyOf t p off) = t := by
  have hk : keyOf t p off = t * 281474976710656 + p * 137438953472 + off := rfl
  have hg : gaTract (keyOf t p off) = keyOf t p off / 281474976710656 % 16 := by simp [gaTract, bitsOf]
  rw [hg, hk]
  omega

end

theorem keyParcel_keyOf (p : ParcelId) {off : Nat} (ho : off < 2 ^ 37) : keyParcel (keyOf p.tract.val p.parcel.val off) = some p := by
  have ht : gaTract (keyOf p.tract.val p.parcel.val off) = p.tract.val := gaTract_keyOf (by omega) (by omega) ho
  have hp : gaParcel (keyOf p.tract.val p.parcel.val off) = p.parcel.val := gaParcel_keyOf (by omega) ho
  simp only [keyParcel, ht, hp, p.tract.isLt, p.parcel.isLt, dif_pos]

/-- The offset within a parcel at which an offset of a local space lies (R30, R149). -/
def spaceOffset (c : CoreId) (space : BitVec 2) (off : Nat) : Nat :=
  if space = 0 then 0x14_0000_0000 + c.core.val * 0x1_0000 + off else if space = 1 then 0x10_0000_0000 + off else off

theorem spaceKey_eq (c : CoreId) (space : BitVec 2) (off : Nat) :
    spaceKey c space off = keyOf c.tract.val c.parcel.val (spaceOffset c space off) := by
  unfold spaceKey spaceOffset
  split_ifs <;> rfl

theorem spaceKey_add (c : CoreId) (space : BitVec 2) (off i : Nat) : spaceKey c space off + i = spaceKey c space (off + i) := by
  unfold spaceKey storeKey commonsKey sliceKey keyOf
  split_ifs <;> omega

section
variable {c : CoreId} {space : BitVec 2} {off : Nat}

theorem spaceOffset_lt (h : off < spaceSize space) : spaceOffset c space off < 2 ^ 37 := by
  have hc := c.core.isLt
  unfold spaceSize at h
  unfold spaceOffset
  split_ifs at h ⊢ <;> omega

theorem keyParcel_spaceKey (h : off < spaceSize space) : keyParcel (spaceKey c space off) = some (coreParcel c) := by
  rw [spaceKey_eq]
  exact keyParcel_keyOf (coreParcel c) (spaceOffset_lt h)

/-- The window in which an offset of a local space lies. -/
theorem windowOf_spaceKey (h : off < spaceSize space) : windowOf (gaOffset (spaceKey c space off)) =
    if space = 0 then .store c.core.val off else if space = 1 then .commons off else .slice off := by
  have hc := c.core.isLt
  rw [spaceKey_eq, gaOffset_keyOf (spaceOffset_lt h)]
  unfold spaceSize at h
  unfold spaceOffset
  split_ifs at h ⊢
  · have h1 : (0x14_0000_0000 + c.core.val * 0x1_0000 + off - 0x14_0000_0000) % 0x1_0000 = off := by omega
    have h2 : (0x14_0000_0000 + c.core.val * 0x1_0000 + off - 0x14_0000_0000) / 0x1_0000 = c.core.val := by omega
    unfold windowOf
    rw [if_neg (by omega), if_neg (by simp; omega), if_pos (by simp; omega)]
    simp only [h1, h2, if_pos h]
  · unfold windowOf
    rw [if_neg (by omega), if_pos (by simp; omega), Nat.add_sub_cancel_left]
  · unfold windowOf
    rw [if_pos h]

end

/-- Check units do not straddle 16 bytes: the size of a unit is that of every byte of its 16 (R148). -/
theorem unitSize_of_div {a b : Nat} (h : a / 16 = b / 16) : unitSize a = unitSize b := by
  have hg (x : Nat) : gaOffset x = x % 137438953472 := by simp [gaOffset, bitsOf]
  have hsame : ∀ x y : Nat, x / 16 = y / 16 →
      (match windowOf x with | .store _ _ => 4 | _ => 16) = (match windowOf y with | .store _ _ => 4 | _ => 16) := by
    intro x y hxy
    unfold windowOf
    simp only [Bool.and_eq_true, decide_eq_true_eq]
    split_ifs <;> simp only <;> omega
  have := hsame (gaOffset a) (gaOffset b) (by rw [hg, hg]; omega)
  unfold unitSize
  exact this

theorem unitSize_cases (a : Nat) : unitSize a = 4 ∨ unitSize a = 16 := by
  unfold unitSize
  split
  · exact .inl rfl
  · exact .inr rfl

theorem unitSize_unitBase (a : Nat) : unitSize (unitBase a) = unitSize a := by
  refine unitSize_of_div ?_
  unfold unitBase
  rcases unitSize_cases a with h | h <;> rw [h] <;> omega

/-! Sound memory: what reads and writes come to where no check unit of the run holds an error (R131 to R148). -/

/-- A check unit that is neither poisoned nor holds an error not yet found. -/
def Mem.soundUnit (m : Mem) (u : Nat) : Prop := u ∉ m.poison ∧ u ∉ m.ce ∧ u ∉ m.ue ∧ inside u (unitSize u) m.par = []

/-- Every byte of a run lies in a check unit of one size. -/
def OneSize (a n : Nat) : Prop := ∀ i, i < n → unitSize (a + i) = unitSize a

theorem mem_unitsOf {a n x : Nat} (hsize : OneSize a n) (hax : a ≤ x) (hxn : x < a + n) : unitBase x ∈ unitsOf a n := by
  have hx : unitSize x = unitSize a := by
    have := hsize (x - a) (by omega)
    rwa [Nat.add_sub_cancel' hax] at this
  have hn : n ≠ 0 := by omega
  have hle : a / unitSize a ≤ x / unitSize a := Nat.div_le_div_right hax
  have hle' : x / unitSize a ≤ (a + n - 1) / unitSize a := Nat.div_le_div_right (by omega)
  rw [unitsOf, if_neg hn, unitBase, hx]
  refine List.mem_map.2 ⟨x / unitSize a - a / unitSize a, List.mem_range.2 (by omega), ?_⟩
  rw [Nat.add_sub_cancel' hle]

section
variable {s : State} {a n : Nat}

theorem soundUnit_of_clean (h : Clean s a n) {u : Nat} (hu : u ∈ unitsOf a n) : s.mem.soundUnit u := h u hu

theorem badUnit_of_sound {m : Mem} {u : Nat} (h : m.soundUnit u) : m.badUnit u = false := by
  obtain ⟨hpoison, -, hue, hpar⟩ := h
  simp [Mem.badUnit, hpoison, hue, hpar]

theorem poisoned_of_clean (h : Clean s a n) : s.poisoned a n = false := by
  rw [State.poisoned, Mem.badRange, List.any_eq_false]
  exact fun u hu => by simp [badUnit_of_sound (soundUnit_of_clean h hu)]

/-- A read of a sound check unit changes nothing. -/
theorem touchUnit_of_sound {u : Nat} (h : s.mem.soundUnit u) : s.touchUnit u = s := by
  obtain ⟨-, hce, hue, hpar⟩ := h
  unfold State.touchUnit
  split
  · simp [hce, hue]
  · simp [hce, hue]
  next off p hw _ =>
    have hsize : unitSize u = 16 := by rw [unitSize, hw]
    rw [hsize] at hpar
    simp [hpar]
  · rfl

/-- A read of sound memory uses up a free value and changes nothing else. -/
theorem touch_of_clean (h : Clean s a n) : s.touch a n = s.takeFree := by
  have hfold (us : List Nat) (hus : ∀ u ∈ us, s.mem.soundUnit u) : us.foldl State.touchUnit s = s := by
    induction us with
    | nil => rfl
    | cons u us ih =>
      rw [List.foldl_cons, touchUnit_of_sound (hus u (List.mem_cons_self ..))]
      exact ih (fun v hv => hus v (List.mem_cons_of_mem _ hv))
  rw [State.touch, hfold _ (fun u hu => soundUnit_of_clean h hu)]

/-- A read outside control windows and the tile list region returns what memory holds. -/
theorem peek_of_plain (h : ∀ i, i < n → s.peekByte (a + i) = byteAt s.mem.bytes (a + i)) : s.peek a n = s.mem.read a n :=
  List.map_congr_left fun i hi => h i (List.mem_range.1 hi)

end

/-! Writes. -/

theorem putBytes_append (bs cs : List Byte) : ∀ (l : List (Nat × Byte)) (a : Nat),
    putBytes l a (bs ++ cs) = putBytes (putBytes l a bs) (a + bs.length) cs := by
  induction bs with
  | nil => intro l a; rfl
  | cons b bs ih =>
    intro l a
    rw [List.cons_append, putBytes, putBytes, ih, List.length_cons, Nat.add_assoc, Nat.add_comm 1]

theorem inside_unit_of_within {u sz lo n : Nat} {l : List Nat} (h : inside u sz l = []) (hlo : u ≤ lo) (hn : lo + n ≤ u + sz) : outside lo n l = l := by
  rw [outside, List.filter_eq_self]
  intro x hx
  have := List.filter_eq_nil_iff.1 h x hx
  simp at this ⊢
  omega

/-- A piece of a write that lies in a sound check unit replaces its bytes alone. -/
theorem writePiece_of_sound {m : Mem} {a : Nat} {bs : List Byte} (h : m.soundUnit (unitBase a)) (hlen : a % unitSize a + bs.length ≤ unitSize a) :
    m.writePiece a bs = ({ m with bytes := putBytes m.bytes a bs }, false) := by
  obtain ⟨hpoison, hce, hue, hpar⟩ := h
  rw [unitSize_unitBase] at hpar
  have hbase : unitBase a + a % unitSize a = a := by rw [unitBase, Nat.mul_comm]; exact Nat.div_add_mod _ _
  rw [Mem.writePiece]
  split_ifs with hfull hrej
  · rw [List.erase_of_not_mem hpoison, List.erase_of_not_mem hce, List.erase_of_not_mem hue, inside_unit_of_within hpar (by omega) (by omega)]
  · simp [Mem.rejectsPart, hpoison, hue] at hrej
  · rw [inside_unit_of_within hpar (by omega) (by omega)]

section
variable {s : State} {a : Nat} {bs : List Byte}

/-- Memory with a run of bytes put in it as they are. -/
def State.putMem (s : State) (a : Nat) (bs : List Byte) : State := { s with mem := { s.mem with bytes := putBytes s.mem.bytes a bs } }

theorem storePiece_of_sound (h : s.mem.soundUnit (unitBase a)) (hlen : a % unitSize a + bs.length ≤ unitSize a) :
    s.storePiece (a, bs) = s.putMem a bs := by
  have htouch : s.touchPart a bs.length = s := by
    unfold State.touchPart
    split
    · rfl
    · split
      · rfl
      · exact touchUnit_of_sound h
  rw [State.storePiece]
  dsimp only
  rw [htouch, writePiece_of_sound h hlen]
  rfl

/-- A write of sound memory puts its bytes, and changes nothing else (R148). -/
theorem store_of_clean (h : Clean s a bs.length) (hsize : OneSize a bs.length) : s.store a bs = s.putMem a bs := by
  have hpieces (fuel : Nat) : ∀ (s : State) (a' : Nat) (bs' : List Byte), bs'.length ≤ fuel → a ≤ a' → a' + bs'.length ≤ a + bs.length →
      (∀ u ∈ unitsOf a bs.length, s.mem.soundUnit u) → (pieces (unitSize a) fuel a' bs').foldl State.storePiece s = s.putMem a' bs' := by
    induction fuel with
    | zero =>
      intro s a' bs' hfuel _ _ _
      obtain rfl := List.length_eq_zero_iff.1 (Nat.le_zero.1 hfuel)
      rfl
    | succ fuel ih =>
      intro s a' bs' hfuel hlo hhi hsound
      cases bs' with
      | nil => rfl
      | cons b bs' =>
        have hsz : unitSize a' = unitSize a := by
          have := hsize (a' - a) (by simp at hhi; omega)
          rwa [Nat.add_sub_cancel' hlo] at this
        have hpos : 0 < unitSize a := by rcases unitSize_cases a with h | h <;> omega
        have hmod : a' % unitSize a < unitSize a := Nat.mod_lt _ hpos
        have htake : ((b :: bs').take (unitSize a - a' % unitSize a)).length = min (unitSize a - a' % unitSize a) (bs'.length + 1) := by simp
        have hu : s.mem.soundUnit (unitBase a') := hsound _ (mem_unitsOf hsize hlo (by simp at hhi; omega))
        have hunfold : pieces (unitSize a) (fuel + 1) a' (b :: bs') = (a', (b :: bs').take (unitSize a - a' % unitSize a)) ::
            pieces (unitSize a) fuel (a' + (unitSize a - a' % unitSize a)) ((b :: bs').drop (unitSize a - a' % unitSize a)) := rfl
        rw [hunfold, List.foldl_cons, storePiece_of_sound hu (by rw [hsz, htake]; omega)]
        by_cases hall : bs'.length + 1 ≤ unitSize a - a' % unitSize a
        · have hdrop : (b :: bs').drop (unitSize a - a' % unitSize a) = [] := List.drop_eq_nil_of_le (by simpa using hall)
          have hfull : (b :: bs').take (unitSize a - a' % unitSize a) = b :: bs' := List.take_of_length_le (by simpa using hall)
          rw [hdrop, hfull]
          cases fuel <;> rfl
        · have hrest := ih (s.putMem a' ((b :: bs').take (unitSize a - a' % unitSize a))) (a' + (unitSize a - a' % unitSize a))
            ((b :: bs').drop (unitSize a - a' % unitSize a)) (by simp at hfuel ⊢; omega) (by omega) (by simp at hhi ⊢; omega) hsound
          rw [hrest]
          simp only [State.putMem]
          conv_rhs => rw [← List.take_append_drop (unitSize a - a' % unitSize a) (b :: bs'), putBytes_append]
          rw [htake, Nat.min_eq_left (by omega)]
  exact hpieces bs.length s a bs (Nat.le_refl _) (Nat.le_refl _) (Nat.le_refl _) h

theorem putMem_stored (h : s.mem.wf = true) : Stored s (s.putMem a bs) a bs :=
  fun x => byteAt_putBytes bs _ a x ((Mem.wf_iff s.mem).1 h).1

end

/-- A run of bytes of a local space lies in check units of one size. -/
theorem oneSize_spaceKey {c : CoreId} {space : BitVec 2} {off n : Nat} (h : off + n ≤ spaceSize space) : OneSize (spaceKey c space off) n := by
  have hsize (x : Nat) (hx : x < spaceSize space) : unitSize (spaceKey c space x) = if space = 0 then 4 else 16 := by
    rw [unitSize, windowOf_spaceKey hx]
    split_ifs <;> rfl
  intro i hi
  rw [spaceKey_add, hsize _ (by omega), hsize _ (by omega)]

/-- What a read of a local space returns outside the tile list region is what memory holds. -/
theorem peek_spaceKey {s : State} {c : CoreId} {space : BitVec 2} {off n : Nat} (h : off + n ≤ spaceSize space)
    (htile : ∀ i, i < n → space = 1 → s.cmTile (coreParcel c) (off + i) = false) : s.peek (spaceKey c space off) n = s.mem.read (spaceKey c space off) n := by
  refine peek_of_plain fun i hi => ?_
  have hw := windowOf_spaceKey (c := c) (space := space) (off := off + i) (by omega)
  have hp := keyParcel_spaceKey (c := c) (space := space) (off := off + i) (by omega)
  rw [spaceKey_add, State.peekByte, hw, hp]
  split_ifs with h0 h1
  · rfl
  · simp [htile i hi h1]
  · rfl

/-- Software's part of the commons lies below the tile list region. -/
theorem cmTile_of_not_owned {s : State} {p : ParcelId} {off n i : Nat} (h : s.cmOwned p.tract off = false) (hn : n ∣ 0x1000) (halign : off % n = 0)
    (hi : i < n) : s.cmTile p (off + i) = false := by
  obtain ⟨k, hk⟩ := hn
  have hbase : vectorBase (s.layout p.tract) ≤ tileBase (s.layout p.tract) := by unfold vectorBase stagingBase; omega
  have hvb : n ∣ vectorBase (s.layout p.tract) := by
    have h4 : 0x1000 ∣ vectorBase (s.layout p.tract) := by
      unfold vectorBase stagingBase tileBase markBase
      omega
    exact (Dvd.intro k hk.symm).trans h4
  obtain ⟨q, hq⟩ := hvb
  obtain ⟨r, hr⟩ := Nat.dvd_of_mod_eq_zero halign
  have hlt : off < vectorBase (s.layout p.tract) := by simpa [State.cmOwned] using h
  have hrq : r + 1 ≤ q := by
    by_contra hc
    have : n * q ≤ n * r := Nat.mul_le_mul_left n (by omega)
    omega
  have hnext : n * r + n ≤ n * q := by
    calc n * r + n = n * (r + 1) := by rw [Nat.mul_succ]
      _ ≤ n * q := Nat.mul_le_mul_left n hrq
  have hlow : off + i < tileBase (s.layout p.tract) := by omega
  simp only [State.cmTile, Bool.and_eq_false_iff, decide_eq_false_iff_not]
  exact .inl (by omega)

end Sys2Proof.Machine
end

section
/-!
PROOFS (O11 to O14, O16). Loads, stores and atomics of a core's local spaces (R30 to R33, R42, R43, R59, R60).
-/
namespace Sys2Proof.Machine
open Sys2Proof.Claims

/-! The value of a piece of load data. -/

theorem leNat_lt (bs : List Byte) : leNat bs < 256 ^ bs.length := by
  induction bs with
  | nil => simp [leNat]
  | cons b bs ih =>
    have hb := b.isLt
    rw [leNat, List.length_cons, Nat.pow_succ]
    omega

theorem fieldAt_lt (bs : List Byte) (i n : Nat) : fieldAt bs i n < 2 ^ (8 * n) := by
  have hle : ((bs.drop i).take n).length ≤ n := List.length_take_le ..
  have hpow : (2 : Nat) ^ (8 * n) = 256 ^ n := by rw [Nat.pow_mul]
  rw [hpow]
  exact (leNat_lt _).trans_le (Nat.pow_le_pow_right (by decide) hle)

/-- Sign extension of the number v of n bits to 64 bits, cut to w of them. -/
theorem ofNat_sext (w n v : Nat) (hw : w ≤ 64) (hv : v < 2 ^ n) :
    BitVec.ofNat w (if bitOf v (n - 1) then v + (2 ^ 64 - 2 ^ n) else v) = (BitVec.ofNat n v).signExtend w := by
  have h64 : (2 : Int) ^ w ∣ 2 ^ 64 := pow_dvd_pow _ hw
  rcases Nat.eq_zero_or_pos n with rfl | hn
  · obtain rfl : v = 0 := by simpa using hv
    simp [bitOf, BitVec.signExtend]
  have hpow : 2 ^ n = 2 * 2 ^ (n - 1) := by rw [← Nat.pow_succ', Nat.succ_eq_add_one, Nat.sub_add_cancel hn]
  have hbit : bitOf v (n - 1) = decide (2 ^ n ≤ 2 * v) := by
    have hlt : v / 2 ^ (n - 1) < 2 := Nat.div_lt_of_lt_mul (by omega)
    have hge : 2 ^ (n - 1) ≤ v ↔ 1 ≤ v / 2 ^ (n - 1) := by rw [Nat.le_div_iff_mul_le (Nat.two_pow_pos _), Nat.one_mul]
    rw [bitOf, Nat.mod_eq_of_lt hlt]
    by_cases h : 2 ^ n ≤ 2 * v
    · have : v / 2 ^ (n - 1) = 1 := by have := hge.1 (by omega); omega
      simp [this, h]
    · have : v / 2 ^ (n - 1) = 0 := by
        by_contra hc
        have := hge.2 (Nat.one_le_iff_ne_zero.2 hc)
        omega
      simp [this, h]
  have hofNat (x : Nat) : BitVec.ofNat w x = BitVec.ofInt w (x : Int) := by simp
  have hcongr {x y : Int} (h : (2 : Int) ^ w ∣ x - y) : BitVec.ofInt w x = BitVec.ofInt w y := by
    apply BitVec.eq_of_toInt_eq
    rw [BitVec.toInt_ofInt, BitVec.toInt_ofInt]
    exact Int.bmod_eq_bmod_iff_bmod_sub_eq_zero.2 (Int.bmod_eq_zero_of_dvd (by exact_mod_cast h))
  rw [BitVec.signExtend, hofNat, hbit, BitVec.toInt_eq_toNat_cond, BitVec.toNat_ofNat, Nat.mod_eq_of_lt hv]
  by_cases h : 2 ^ n ≤ 2 * v
  · rw [if_pos (by simpa using h), if_neg (by omega)]
    refine hcongr ?_
    rcases Nat.le_total n 64 with hn64 | hn64
    · have hle : 2 ^ n ≤ 2 ^ 64 := Nat.pow_le_pow_right (by decide) hn64
      rw [Nat.cast_add, Nat.cast_sub hle]
      refine (show ((v : Int) + (((2 ^ 64 : Nat) : Int) - ((2 ^ n : Nat) : Int)) - ((v : Int) - ((2 ^ n : Nat) : Int))) = (2 : Int) ^ 64 by push_cast; ring) ▸ h64
    · have hle : 2 ^ 64 ≤ 2 ^ n := Nat.pow_le_pow_right (by decide) hn64
      have hdvd : (2 : Int) ^ w ∣ 2 ^ n := pow_dvd_pow _ (hw.trans hn64)
      rw [Nat.sub_eq_zero_of_le hle, Nat.add_zero]
      refine (show ((v : Int) - ((v : Int) - ((2 ^ n : Nat) : Int))) = (2 : Int) ^ n by push_cast; ring) ▸ hdvd
  · rw [if_neg (by simpa using h), if_pos (by omega)]

/-- A piece of load data as a register holds it. -/
theorem ofNat_partValue (w : Nat) (hw : w ≤ 64) (q : LoadPart) (data : List Byte) : BitVec.ofNat w (partValue q data) =
    if q.sext then (BitVec.ofNat (8 * q.len) (fieldAt data q.lo q.len)).signExtend w else BitVec.ofNat w (fieldAt data q.lo q.len) := by
  unfold partValue
  cases q.sext
  · simp
  · simpa using ofNat_sext w (8 * q.len) _ hw (fieldAt_lt data q.lo q.len)

/-! Loads (R42). -/

/-- What a load writes once its data is there: the registers of its parts, and the PC. -/
def Core.loaded (k : Core) (parts : List LoadPart) (data : List Byte) (n : Nat) : Core :=
  ((parts.foldl (fun k q => k.supersede q.reg) k).writeParts parts data).retire n

section
variable {s : State} {i : Issue} {f : FmtM}

theorem fmtMBad_of_ext (hext : f.ext.isSome = true → f.off8 = 0) : fmtMBad f = false := by
  unfold fmtMBad
  cases h : f.ext.isSome
  · rfl
  · simp [hext h]

theorem loadM_of_ready {size : Nat} {bad : Bool} {parts : List LoadPart} (hext : f.ext.isSome = true → f.off8 = 0) (hbad : bad = false)
    (h : Ready s i (extLen f.ext) [.a f.ab]) : ∃ ib, loadM i f size bad parts s = .next ((s.setCore i.core { s.core i.core with ibuf := ib }).loadAct
      i.core f.space (fmtMOffset (s.core i.core) f size) size (extLen f.ext) parts) := by
  obtain ⟨ib, hib⟩ := s.noteFetch_eq i (extLen f.ext)
  refine ⟨ib, congrArg Host.Outcome.next ?_⟩
  rw [hbad, fmtMBad_of_ext hext, Bool.or_self, issue_of_ready h, hib, State.core_setCore_self]
  rfl

/-- A load of one g-register has one part, whose value is the one the table gives. -/
theorem exec_loadOps (q : (Issue → FmtM → Instr) × Nat × (Nat → Word)) (hq : q ∈ loadOps) (hs : s.spells i (q.1 i f) = true) :
    ∃ sext, exec (q.1 i f) s = loadM i f q.2.1 false [{ reg := .g f.rt, lo := 0, len := q.2.1, sext := sext }] s ∧
      ∀ v, v < 2 ^ (8 * q.2.1) → (if sext then (BitVec.ofNat (8 * q.2.1) v).signExtend 32 else BitVec.ofNat 32 v) = q.2.2 v := by
  simp only [loadOps, List.mem_cons, List.not_mem_nil, or_false] at hq
  rcases hq with rfl | rfl | rfl | rfl | rfl
  · exact ⟨false, State.asSpelled_of_spells hs, fun _ _ => rfl⟩
  · exact ⟨true, State.asSpelled_of_spells hs, fun _ _ => rfl⟩
  · exact ⟨false, State.asSpelled_of_spells hs, fun _ _ => rfl⟩
  · exact ⟨true, State.asSpelled_of_spells hs, fun _ _ => rfl⟩
  · exact ⟨false, State.asSpelled_of_spells hs, fun _ _ => rfl⟩

end

section
variable {s : State} {c : CoreId} {off size n : Nat} {parts : List LoadPart}

/-- An aligned access inside a local space, to a region that software may write where it is a write, raises nothing (R476). -/
theorem accessFault_none {space : BitVec 2} {write : Bool} (halign : off % size = 0) (hspace : space ≠ 3) (hrange : off + size ≤ spaceSize space)
    (hown : write = true → space = 1 → s.cmOwned c.tract off = false) : s.accessFault c space off size write = none := by
  have hprotect : ¬(write && space == 1 && s.cmOwned c.tract off) = true := by
    simp only [Bool.and_eq_true, beq_iff_eq, not_and, Bool.not_eq_true]
    exact fun h => hown h.1 h.2
  rw [State.accessFault, if_neg (by simpa using halign), if_neg hspace, if_neg (by omega), if_neg hprotect]

/-- A load from the local store writes its registers at once (R42). -/
theorem loadAct_store (halign : off % size = 0) (hrange : off + size ≤ 0x6000) (hastat : (s.core c).astatQueued = none)
    (hclean : Clean s (storeKey c off) size) :
    s.loadAct c 0 off size n parts = s.takeFree.setCore c ((s.core c).loaded parts (s.mem.read (storeKey c off) size) n) := by
  have hpeek : s.peek (storeKey c off) size = s.mem.read (storeKey c off) size :=
    peek_spaceKey (c := c) (space := 0) hrange (fun _ _ h => absurd h (by decide))
  have hstall : s.loadStall c 0 = none := by rw [State.loadStall, if_pos rfl, hastat]; rfl
  rw [State.loadAct, accessFault_none (space := 0) halign (by decide) hrange (fun h => absurd h (by decide)), hstall]
  dsimp only
  rw [if_pos rfl, poisoned_of_clean hclean, if_neg Bool.false_ne_true, touch_of_clean hclean, hpeek]
  rfl

end

theorem loaded_one (k : Core) (r : BitVec 5) (size : Nat) (sext : Bool) (data : List Byte) (n : Nat) (hlen : data.length ≤ size) :
    k.loaded [{ reg := .g r, lo := 0, len := size, sext := sext }] data n =
      (k.putG r (if sext then (BitVec.ofNat (8 * size) (leNat data)).signExtend 32 else BitVec.ofNat 32 (leNat data))).retire n := by
  have hval := ofNat_partValue 32 (by decide) { reg := .g r, lo := 0, len := size, sext := sext } data
  have hdata : fieldAt data 0 size = leNat data := by rw [fieldAt, List.drop_zero, List.take_of_length_le hlen]
  simp only [hdata] at hval
  rw [← hval]
  rfl

theorem read_length (m : Mem) (a n : Nat) : (m.read a n).length = n := by simp [Mem.read, tabulate]

/-! Four registers in a row. -/

/-- The g-registers after v has been written to r, as a map of their numbers. -/
def wroteAt (G : BitVec 5 → Word) (r : BitVec 5) (v : Word) (x : BitVec 5) : Word := if x = r then (if r = 0 then 0 else v) else G x

theorem getG_setG_fun (k : Core) (r : BitVec 5) (v : Word) : (k.setG r v).getG = wroteAt k.getG r v :=
  funext fun x => Core.getG_setG k r x v

/-- Writes to the four registers of a quad, in order. -/
theorem quad_wroteAt (G : BitVec 5 → Word) (r : BitVec 5) (v : Nat → Word) (hr : r.toNat % 4 = 0) (h0 : r ≠ 0) :
    (∀ j : Fin 4, ((List.range 4).foldl (fun G j => wroteAt G (r + BitVec.ofNat 5 j) (v j)) G) (r + BitVec.ofNat 5 j.val) = v j) ∧
      ∀ x : BitVec 5, x.toNat / 4 ≠ r.toNat / 4 → ((List.range 4).foldl (fun G j => wroteAt G (r + BitVec.ofNat 5 j) (v j)) G) x = G x := by
  have hrlt := r.isLt
  have hrpos : r.toNat ≠ 0 := fun h => h0 (BitVec.eq_of_toNat_eq h)
  have hnum (j : Nat) (hj : j < 4) : (r + BitVec.ofNat 5 j).toNat = r.toNat + j := by
    rw [BitVec.toNat_add, BitVec.toNat_ofNat, Nat.mod_eq_of_lt (by omega : j < 2 ^ 5)]
    exact Nat.mod_eq_of_lt (by omega)
  have hne (x : BitVec 5) (j : Nat) (hj : j < 4) (hx : x.toNat ≠ r.toNat + j) : x ≠ r + BitVec.ofNat 5 j := fun e => hx (e ▸ hnum j hj)
  have hzero (j : Nat) (hj : j < 4) : r + BitVec.ofNat 5 j ≠ 0 := fun e => by
    have := hnum j hj
    rw [e] at this
    simp at this
    omega
  have hfold : (List.range 4).foldl (fun G j => wroteAt G (r + BitVec.ofNat 5 j) (v j)) G =
      wroteAt (wroteAt (wroteAt (wroteAt G (r + BitVec.ofNat 5 0) (v 0)) (r + BitVec.ofNat 5 1) (v 1)) (r + BitVec.ofNat 5 2) (v 2)) (r + BitVec.ofNat 5 3) (v 3) := rfl
  rw [hfold]
  constructor
  · intro ⟨j, hj⟩
    have hself (G : BitVec 5 → Word) : wroteAt G (r + BitVec.ofNat 5 j) (v j) (r + BitVec.ofNat 5 j) = v j := by
      rw [wroteAt, if_pos rfl, if_neg (hzero j hj)]
    have hskip (m : Nat) (hm : m < 4) (hjm : j ≠ m) (G : BitVec 5 → Word) :
        wroteAt G (r + BitVec.ofNat 5 m) (v m) (r + BitVec.ofNat 5 j) = G (r + BitVec.ofNat 5 j) :=
      if_neg (hne _ m hm (by rw [hnum j hj]; omega))
    match j, hj with
    | 0, _ => rw [hskip 3 (by decide) (by decide), hskip 2 (by decide) (by decide), hskip 1 (by decide) (by decide), hself]
    | 1, _ => rw [hskip 3 (by decide) (by decide), hskip 2 (by decide) (by decide), hself]
    | 2, _ => rw [hskip 3 (by decide) (by decide), hself]
    | 3, _ => exact hself _
  · intro x hx
    have hskip (m : Nat) (hm : m < 4) (G : BitVec 5 → Word) : wroteAt G (r + BitVec.ofNat 5 m) (v m) x = G x :=
      if_neg (hne _ m hm (by omega))
    rw [hskip 3 (by decide), hskip 2 (by decide), hskip 1 (by decide), hskip 0 (by decide)]

/-- The word at 4 j of a run of bytes that memory holds. -/
theorem fieldAt_read (s : State) (a n j : Nat) (hj : 4 * j + 4 ≤ n) : BitVec.ofNat 32 (fieldAt (s.mem.read a n) (4 * j) 4) = wordAt s (a + 4 * j) := by
  have hslice : ((s.mem.read a n).drop (4 * j)).take 4 = s.mem.read (a + 4 * j) 4 := by
    apply List.ext_getElem
    · simp [Mem.read, tabulate]; omega
    · intro x h1 h2
      simp [Mem.read, tabulate, Nat.add_assoc]
  rw [fieldAt, hslice]
  rfl

/-- Writes of g-registers by the parts of a load change the g-registers alone. -/
theorem writeParts_quad (k : Core) (r : BitVec 5) (data : List Byte) : ∃ g, k.writeParts (quadParts r) data = { k with g := g } := by
  have hfold (parts : List LoadPart) (hparts : ∀ q ∈ parts, ∃ n, q.reg = .g n) (k : Core) : ∃ g, k.writeParts parts data = { k with g := g } := by
    induction parts generalizing k with
    | nil => exact ⟨k.g, rfl⟩
    | cons q qs ih =>
      obtain ⟨n, hn⟩ := hparts q (List.mem_cons_self ..)
      obtain ⟨g, hg⟩ := Core.setG_eq k n (BitVec.ofNat 32 (partValue q data))
      obtain ⟨g', hg'⟩ := ih (fun x hx => hparts x (List.mem_cons_of_mem _ hx)) (k.setG n (BitVec.ofNat 32 (partValue q data)))
      refine ⟨g', ?_⟩
      have hstep : k.writeParts (q :: qs) data = (k.setG n (BitVec.ofNat 32 (partValue q data))).writeParts qs data := by
        rw [Core.writeParts, List.foldl_cons, hn]
        rfl
      rw [hstep, hg', hg]
  refine hfold _ (fun q hq => ?_) k
  obtain ⟨j, -, rfl⟩ := List.mem_map.1 hq
  exact ⟨_, rfl⟩

theorem writeParts_quad_getG (k : Core) (r : BitVec 5) (data : List Byte) : (k.writeParts (quadParts r) data).getG =
    (List.range 4).foldl (fun G j => wroteAt G (r + BitVec.ofNat 5 j) (BitVec.ofNat 32 (fieldAt data (4 * j) 4))) k.getG := by
  show ((((k.setG (r + BitVec.ofNat 5 0) (BitVec.ofNat 32 (fieldAt data 0 4))).setG (r + BitVec.ofNat 5 1) (BitVec.ofNat 32 (fieldAt data 4 4))).setG
    (r + BitVec.ofNat 5 2) (BitVec.ofNat 32 (fieldAt data 8 4))).setG (r + BitVec.ofNat 5 3) (BitVec.ofNat 32 (fieldAt data 12 4))).getG = _
  rw [getG_setG_fun, getG_setG_fun, getG_setG_fun, getG_setG_fun]
  rfl

/-- Results that no longer reach a register leave everything of a core but its loads, whose number stays, and its array queue. -/
theorem supersede_all (parts : List LoadPart) (k : Core) :
    ∃ ls ar, parts.foldl (fun k q => k.supersede q.reg) k = { k with loads := ls, arr := ar } ∧ ls.length = k.loads.length := by
  induction parts generalizing k with
  | nil => exact ⟨k.loads, k.arr, rfl, rfl⟩
  | cons q qs ih =>
    obtain ⟨ls, ar, h, hlen⟩ := ih (k.supersede q.reg)
    exact ⟨ls, ar, by rw [List.foldl_cons, h]; rfl, hlen.trans (List.length_map ..)⟩

/-- Settles O11. -/
theorem localLoadResults : Obligations.LocalLoadResults := by
  intro i f s hspace hext hastat h
  have hload {size : Nat} {bad : Bool} {parts : List LoadPart} (hbad : bad = false) (halign : fmtMOffset (s.core i.core) f size % size = 0)
      (hrange : fmtMOffset (s.core i.core) f size + size ≤ 0x6000) (hclean : Clean s (storeKey i.core (fmtMOffset (s.core i.core) f size)) size) :
      ∃ ib, loadM i f size bad parts s = .next (({ s with free := s.free + 1 } : State).setCore i.core
        (({ s.core i.core with ibuf := ib } : Core).loaded parts (s.mem.read (storeKey i.core (fmtMOffset (s.core i.core) f size)) size) (extLen f.ext))) := by
    obtain ⟨ib, hib⟩ := loadM_of_ready (size := size) (parts := parts) hext hbad h
    refine ⟨ib, hib.trans (congrArg _ ?_)⟩
    have hact := loadAct_store (s := s.setCore i.core { s.core i.core with ibuf := ib }) (c := i.core) (n := extLen f.ext) (parts := parts) halign hrange
      (by rw [State.core_setCore_self]; exact hastat) hclean
    rw [hspace, hact, State.core_setCore_self]
    exact State.setCore_setCore ({ s with free := s.free + 1 } : State) ..
  refine ⟨fun q hq halign hrange hclean hs => ?_, fun hrt halign hrange hclean hs => ?_, fun hquad h0 halign hrange hclean hs => ?_⟩
  · obtain ⟨sext, hexec, hval⟩ := exec_loadOps q hq hs
    obtain ⟨ib, ht⟩ := hload (parts := [{ reg := .g f.rt, lo := 0, len := q.2.1, sext := sext }]) rfl halign hrange hclean
    have hlen := read_length s.mem (storeKey i.core (fmtMOffset (s.core i.core) f q.2.1)) q.2.1
    have hlt := leNat_lt (s.mem.read (storeKey i.core (fmtMOffset (s.core i.core) f q.2.1)) q.2.1)
    rw [hlen, show (256 : Nat) = 2 ^ 8 from rfl, ← Nat.pow_mul] at hlt
    refine ⟨_, hexec.trans ht, rfl, ?_⟩
    rw [loaded_one _ _ _ _ _ _ hlen.le, hval _ hlt]
    exact wroteG_setCore ..
  · obtain ⟨ib, ht⟩ := hload (bad := slotABad f.rt) (parts := [{ reg := .a (slotA f.rt), lo := 0, len := 8, sext := false }])
      (by simp [slotABad]; omega) halign hrange hclean
    refine ⟨_, (State.asSpelled_of_spells hs).trans ht, rfl, ?_⟩
    exact wroteA_setCore ({ s with free := s.free + 1 } : State) i.core (extLen f.ext) (f.rt.setWidth 4)
      (BitVec.ofNat 64 (leNat (s.mem.read (storeKey i.core (fmtMOffset (s.core i.core) f 8)) 8))) ib
  · obtain ⟨ib, ht⟩ := hload (bad := quadBad f.rt) (parts := quadParts f.rt)
      (by simp [quadBad, hquad]; exact fun e => h0 (BitVec.eq_of_toNat_eq e)) halign hrange hclean
    obtain ⟨ls, ar, hsup, -⟩ := supersede_all (quadParts f.rt) { s.core i.core with ibuf := ib }
    have hget := writeParts_quad_getG { s.core i.core with ibuf := ib, loads := ls, arr := ar } f.rt
      (s.mem.read (storeKey i.core (fmtMOffset (s.core i.core) f 16)) 16)
    obtain ⟨hwrote, hkept⟩ := quad_wroteAt (s.core i.core).getG f.rt
      (fun j => BitVec.ofNat 32 (fieldAt (s.mem.read (storeKey i.core (fmtMOffset (s.core i.core) f 16)) 16) (4 * j) 4)) hquad h0
    obtain ⟨g, hg⟩ := writeParts_quad { s.core i.core with ibuf := ib, loads := ls, arr := ar } f.rt
      (s.mem.read (storeKey i.core (fmtMOffset (s.core i.core) f 16)) 16)
    refine ⟨_, (State.asSpelled_of_spells hs).trans ht, rfl, State.setCore_only .., ?_⟩
    rw [State.core_setCore_self, Core.loaded, hsup]
    have hget' (x : BitVec 5) : ((({ s.core i.core with ibuf := ib, loads := ls, arr := ar } : Core).writeParts (quadParts f.rt)
        (s.mem.read (storeKey i.core (fmtMOffset (s.core i.core) f 16)) 16)).retire (extLen f.ext)).getG x = _ := congrFun hget x
    refine ⟨?_, ?_, ?_, ?_, fun j => ?_, fun x hx => ?_⟩
    · rw [hg]; and_intros <;> rfl
    · rw [hg]; rfl
    · rw [hg]; rfl
    · rw [hg]; rfl
    · rw [hget']
      exact (hwrote j).trans (fieldAt_read s _ 16 j.val (by omega))
    · rw [hget']
      exact hkept x hx

/-! Stores (R42). -/

/-- The registers of a quad as one number, the first lowest. -/
theorem Core.quad_eq (k : Core) (r : BitVec 5) : k.quad r = (k.getG (r + 3) ++ k.getG (r + 2) ++ k.getG (r + 1) ++ k.getG r).toNat := by
  have hpair {n m : Nat} (x : BitVec n) (y : BitVec m) : (x ++ y).toNat = x.toNat * 2 ^ m + y.toNat := by
    rw [BitVec.toNat_append, ← Nat.shiftLeft_add_eq_or_of_lt y.isLt, Nat.shiftLeft_eq]
  rw [hpair, hpair, hpair, Core.quad]
  omega

theorem State.staleLines_eq (s : State) (key n : Nat) : ∃ fs, s.staleLines key n = { s with fabs := fs } := by
  unfold State.staleLines
  split
  · exact ⟨s.fabs, rfl⟩
  · exact ⟨_, rfl⟩

theorem State.sign_of_not_holds {s : State} {c : CoreId} (h : s.holds c = false) (addr : Nat) (bs : List Byte) : s.sign c addr bs = s := by
  rw [State.sign, h, if_neg Bool.false_ne_true]

section
variable {s : State} {c : CoreId} {space : BitVec 2} {off n : Nat} {data : List Byte}

theorem storeStall_none (hspace : space ≠ 3) (huse : space ≠ 0 → s.storesUse c < 16) : s.storeStall c space = none := by
  unfold State.storeStall
  split_ifs with h0 h16 h3
  · rfl
  · exact absurd (huse h0) (by omega)
  · exact absurd (of_decide_eq_true (Bool.and_eq_true_iff.1 h3).1) hspace
  · rfl

/-- A store to sound memory of a local space puts its bytes at once; where they lie in a region with replicas these become invalid (R42, R153). -/
theorem storeAct_local (halign : off % data.length = 0) (hspace : space ≠ 3) (hrange : off + data.length ≤ spaceSize space)
    (hown : space = 1 → s.cmOwned c.tract off = false) (hrepl : space = 2 → s.inReplica (spaceKey c 2 off) data.length = false)
    (huse : space ≠ 0 → s.storesUse c < 16) (hholds : s.holds c = false) (hclean : Clean s (spaceKey c space off) data.length) :
    ∃ fs, s.storeAct c space off n data =
      ({ s.putMem (spaceKey c space off) data with fabs := fs } : State).setCore c ((s.core c).retire n) := by
  have hstore : s.store (spaceKey c space off) data = s.putMem (spaceKey c space off) data := store_of_clean hclean (oneSize_spaceKey hrange)
  have hsign : (if space = 0 then s else s.sign c (s.spaceAddr c space off) data) = s := by
    split_ifs
    · rfl
    · exact State.sign_of_not_holds hholds ..
  obtain ⟨fs, hfs⟩ := (s.putMem (spaceKey c space off) data).staleLines_eq (spaceKey c space off) data.length
  rw [State.storeAct, accessFault_none halign hspace hrange (fun _ => hown), storeStall_none hspace huse]
  simp only [hsign]
  rw [if_neg hspace, hstore]
  by_cases h2 : space = 2
  · subst h2
    rw [hrepl rfl, Bool.and_false, if_neg Bool.false_ne_true, if_pos (by decide), hfs]
    exact ⟨fs, rfl⟩
  · rw [beq_eq_false_iff_ne.2 h2, Bool.false_and, if_neg Bool.false_ne_true, if_neg Bool.false_ne_true]
    exact ⟨s.fabs, rfl⟩

end

/-- A store of the table issues with its own registers, data and checks. -/
theorem exec_storeOps {i : Issue} {f : FmtM} {s : State} (hext : f.ext.isSome = true → f.off8 = 0)
    (q : (Issue → FmtM → Instr) × Nat × (BitVec 5 → Bool) × (BitVec 5 → List CReg) × (Core → BitVec 5 → Nat)) (hq : q ∈ storeOps)
    (hrt : q.2.2.1 f.rt = true) (h : Ready s i (extLen f.ext) (.a f.ab :: q.2.2.2.1 f.rt)) (hs : s.spells i (q.1 i f) = true) :
    ∃ ib, exec (q.1 i f) s = .next ((s.setCore i.core { s.core i.core with ibuf := ib }).storeAct i.core f.space (fmtMOffset (s.core i.core) f q.2.1)
      (extLen f.ext) (natLe q.2.1 (q.2.2.2.2 (s.core i.core) f.rt))) := by
  obtain ⟨ib, hib⟩ := s.noteFetch_eq i (extLen f.ext)
  have hissue {size : Nat} {bad : Bool} {reads : List CReg} {data : Core → Nat} (hbad : bad = false) (h : Ready s i (extLen f.ext) (.a f.ab :: reads)) :
      storeM i f size bad reads data s = .next ((s.setCore i.core { s.core i.core with ibuf := ib }).storeAct i.core f.space
        (fmtMOffset (s.core i.core) f size) (extLen f.ext) (natLe size (data { s.core i.core with ibuf := ib }))) := by
    refine congrArg Host.Outcome.next ?_
    rw [hbad, fmtMBad_of_ext hext, Bool.or_self, issue_of_ready h, hib, State.core_setCore_self]
    rfl
  simp only [storeOps, List.mem_cons, List.not_mem_nil, or_false] at hq
  rcases hq with rfl | rfl | rfl | rfl | rfl
  · exact ⟨ib, (State.asSpelled_of_spells hs).trans (hissue rfl h)⟩
  · exact ⟨ib, (State.asSpelled_of_spells hs).trans (hissue rfl h)⟩
  · exact ⟨ib, (State.asSpelled_of_spells hs).trans (hissue rfl h)⟩
  · exact ⟨ib, (State.asSpelled_of_spells hs).trans (hissue (by simpa [slotABad] using hrt) h)⟩
  · have hquad : quadBad f.rt = false := by
      have hrt' : f.rt.toNat % 4 = 0 ∧ f.rt ≠ 0 := by simpa using hrt
      simp [quadBad, hrt'.1]
      exact fun e => hrt'.2 (BitVec.eq_of_toNat_eq e)
    refine ⟨ib, (State.asSpelled_of_spells hs).trans ((hissue hquad h).trans ?_)⟩
    rw [Core.quad_eq]
    rfl

/-- Settles O14. -/
theorem storesWriteTheirBytes : Obligations.StoresWriteTheirBytes := by
  intro q hq i f s hspace hext hrt hwf h hholds halign hrange hown hrepl huse hclean hs
  obtain ⟨ib, hexec⟩ := exec_storeOps hext q hq hrt h hs
  have hlen : (natLe q.2.1 (q.2.2.2.2 (s.core i.core) f.rt)).length = q.2.1 := natLe_length ..
  have huse' : f.space ≠ 0 → (s.setCore i.core { s.core i.core with ibuf := ib }).storesUse i.core < 16 := by
    intro h0
    rw [State.storesUse, State.core_setCore_self]
    exact huse h0
  obtain ⟨fs, hact⟩ := storeAct_local (s := s.setCore i.core { s.core i.core with ibuf := ib }) (c := i.core) (space := f.space) (n := extLen f.ext)
    (off := fmtMOffset (s.core i.core) f q.2.1) (data := natLe q.2.1 (q.2.2.2.2 (s.core i.core) f.rt)) (by rw [hlen]; exact halign) hspace
    (by rw [hlen]; exact hrange) hown (by rw [hlen]; exact hrepl) huse' hholds (by rw [hlen]; exact hclean)
  refine ⟨_, hexec.trans (congrArg _ hact), fun x => putMem_stored (s := s) hwf x, rfl, fun c' hc' => ?_, ?_⟩
  · rw [State.core_setCore, if_neg hc']
    exact (State.core_setCore ..).trans (if_neg hc')
  · rw [State.core_setCore_self, State.core_setCore_self]
    refine ⟨?_, ?_, rfl⟩ <;> and_intros <;> rfl

/-! Parts of a sound run. -/

theorem unitsOf_sub {a n lo len u : Nat} (hsize : OneSize a n) (hlo : a ≤ lo) (hhi : lo + len ≤ a + n) (hu : u ∈ unitsOf lo len) : u ∈ unitsOf a n := by
  unfold unitsOf at hu
  split_ifs at hu with hlen
  · exact absurd hu (List.not_mem_nil)
  obtain ⟨j, hj, rfl⟩ := List.mem_map.1 hu
  have hj' : j < (lo + len - 1) / unitSize lo - lo / unitSize lo + 1 := List.mem_range.1 hj
  have hpos : 0 < unitSize lo := by rcases unitSize_cases lo with h | h <;> omega
  have hszlo : unitSize lo = unitSize a := by
    have := hsize (lo - a) (by omega)
    rwa [Nat.add_sub_cancel' hlo] at this
  have hx : ∃ x, lo ≤ x ∧ x < lo + len ∧ x / unitSize lo = lo / unitSize lo + j := by
    rcases Nat.eq_zero_or_pos j with rfl | hjpos
    · exact ⟨lo, Nat.le_refl _, by omega, rfl⟩
    · have hle : (lo / unitSize lo + j) * unitSize lo ≤ lo + len - 1 := by
        rw [← Nat.le_div_iff_mul_le hpos]
        have := Nat.div_le_div_right (c := unitSize lo) (show lo ≤ lo + len - 1 by omega)
        omega
      have hge : lo < (lo / unitSize lo + j) * unitSize lo := by
        have h1 : lo < (lo / unitSize lo + 1) * unitSize lo := by rw [Nat.mul_comm]; exact Nat.lt_mul_div_succ lo hpos
        exact h1.trans_le (Nat.mul_le_mul_right _ (by omega))
      exact ⟨_, hge.le, by omega, Nat.mul_div_cancel _ hpos⟩
  obtain ⟨x, hx1, hx2, hx3⟩ := hx
  have hbase : unitBase x = (lo / unitSize lo + j) * unitSize lo := by
    have hszx : unitSize x = unitSize lo := by
      have := hsize (x - a) (by omega)
      rw [Nat.add_sub_cancel' (by omega)] at this
      rw [this, hszlo]
    rw [unitBase, hszx, hx3]
  rw [← hbase]
  exact mem_unitsOf hsize (by omega) (by omega)

theorem clean_sub {s : State} {a n lo len : Nat} (h : Clean s a n) (hsize : OneSize a n) (hlo : a ≤ lo) (hhi : lo + len ≤ a + n) : Clean s lo len :=
  fun u hu => h u (unitsOf_sub hsize hlo hhi hu)

theorem poisonMask_of_clean {s : State} {a n : Nat} (h : Clean s a n) (hsize : OneSize a n) : s.poisonMask a n = 0 := by
  have hpart (i : Nat) : s.poisoned (max a (a / 16 * 16 + 16 * i)) (min (a + n) (a / 16 * 16 + 16 * i + 16) - max a (a / 16 * 16 + 16 * i)) = false := by
    rcases Nat.eq_zero_or_pos (min (a + n) (a / 16 * 16 + 16 * i + 16) - max a (a / 16 * 16 + 16 * i)) with h0 | hpos
    · rw [h0]
      rfl
    · exact poisoned_of_clean (clean_sub h hsize (by omega) (by omega))
  simp only [State.poisonMask, hpart, Bool.false_eq_true, if_false]
  simp

/-! Atomics (R43). -/

/-- A core with a load or an atomic outstanding behind the others, its registers awaiting it. -/
def Core.awaiting (k : Core) (l : OutLoad) (n : Nat) : Core :=
  Core.retire { l.parts.foldl (fun k q => k.supersede q.reg) k with loads := (l.parts.foldl (fun k q => k.supersede q.reg) k).loads ++ [l] } n

theorem awaiting_eq (k : Core) (l : OutLoad) (n : Nat) :
    ∃ ls ar, k.awaiting l n = ({ k with loads := ls ++ [l], arr := ar } : Core).retire n ∧ ls.length = k.loads.length := by
  obtain ⟨ls, ar, h, hlen⟩ := supersede_all l.parts k
  exact ⟨ls, ar, by rw [Core.awaiting, h], hlen⟩

theorem atomSize_cases (w64 : Bool) : atomSize w64 = 4 ∨ atomSize w64 = 8 := by cases w64 <;> simp [atomSize]

/-- The operand of an atomic as the number that it acts with. -/
theorem atomOperand_eq (k : Core) (w64 : Bool) (r : BitVec 5) : k.atomOperand w64 r = (atomOpd k w64 r).toNat := by
  have hr := (k.getG r).isLt
  have hr1 := (k.getG (r + 1)).isLt
  cases w64
  · simp only [Core.atomOperand, atomOpd, atomSize, Bool.false_eq_true, if_false, BitVec.toNat_ofNat]
    omega
  · have hpair : (k.getG (r + 1) ++ k.getG r).toNat = (k.getG (r + 1)).toNat * 2 ^ 32 + (k.getG r).toNat := by
      rw [BitVec.toNat_append, ← Nat.shiftLeft_add_eq_or_of_lt hr, Nat.shiftLeft_eq]
    simp only [Core.atomOperand, atomOpd, atomSize, if_true, BitVec.toNat_ofNat, hpair]
    omega

theorem toSigned_toInt {w : Nat} (hw : 0 < w) (x : BitVec w) : toSigned w x.toNat = x.toInt := by
  have hpow : 2 ^ w = 2 * 2 ^ (w - 1) := by rw [← Nat.pow_succ', Nat.succ_eq_add_one, Nat.sub_add_cancel hw]
  have hcond : x.toNat < 2 ^ (w - 1) ↔ 2 * x.toNat < 2 ^ w := by rw [hpow]; omega
  rw [toSigned, BitVec.toInt_eq_toNat_cond]
  simp only [hcond]
  split_ifs <;> simp

/-- What the atomics of the table do to a word or doubleword of w bits (R43). -/
theorem atomNew_eq (w64 : Bool) (q : ((Issue → FmtA → Instr) × ((w : Nat) → BitVec w → BitVec w → BitVec w)) × Nat) (hq : q ∈ atomOps.zipIdx)
    (m x : BitVec (8 * atomSize w64)) : atomNew q.2 w64 m.toNat x.toNat 0 = (q.1.2 _ m x).toNat := by
  have hbits : (if w64 then 64 else 32) = 8 * atomSize w64 := by cases w64 <;> rfl
  have hpos : 0 < 8 * atomSize w64 := by cases w64 <;> decide
  simp only [atomOps, List.zipIdx, List.mem_cons, List.not_mem_nil, or_false] at hq
  rcases hq with rfl | rfl | rfl | rfl | rfl | rfl | rfl | rfl | rfl <;> simp only [atomNew, hbits]
  · exact (BitVec.toNat_add ..).symm
  · exact (BitVec.toNat_or ..).symm
  · exact (BitVec.toNat_and ..).symm
  · exact (BitVec.toNat_xor ..).symm
  · split_ifs <;> omega
  · split_ifs <;> omega
  · rw [toSigned_toInt hpos, toSigned_toInt hpos]
    split_ifs <;> rfl
  · rw [toSigned_toInt hpos, toSigned_toInt hpos]
    split_ifs <;> rfl

theorem exec_atomOps {i : Issue} {f : FmtA} {s : State} (q : ((Issue → FmtA → Instr) × ((w : Nat) → BitVec w → BitVec w → BitVec w)) × Nat)
    (hq : q ∈ atomOps.zipIdx) (hs : s.spells i (q.1.1 i f) = true) : exec (q.1.1 i f) s = atomic i f q.2 s := by
  simp only [atomOps, List.zipIdx, List.mem_cons, List.not_mem_nil, or_false] at hq
  rcases hq with rfl | rfl | rfl | rfl | rfl | rfl | rfl | rfl | rfl <;> exact State.asSpelled_of_spells hs

section
variable {s : State} {c : CoreId} {f : FmtA} {n op opd cmp : Nat}

/-- The load that an atomic with a return leaves outstanding. -/
def atomLoad (s : State) (c : CoreId) (f : FmtA) (gen : Option Nat) (r : Option Response) : OutLoad :=
  { parts := atomParts f.size f.rd, space := f.space.toNat, pc := (s.core c).pc.toNat, addr := s.spaceAddr c f.space ((s.core c).getA f.ab).toNat,
    size := atomSize f.size, gen := gen, resp := r, atom := true, stopped := none }

/-- What an atomic of n bytes leaves of its core: with rd g0 nothing comes back. -/
def Core.afterAtom (k : Core) (f : FmtA) (l : OutLoad) (n : Nat) : Core := if f.rd == 0 then k.retire n else k.awaiting l n

/-- An atomic on sound memory of the commons or the slice replaces the old value at once, which comes back (R43). -/
theorem atomAct_local (hspace : f.space = 1 ∨ f.space = 2) (huse : s.storesUse c < 16) (halign : ((s.core c).getA f.ab).toNat % atomSize f.size = 0)
    (hrange : ((s.core c).getA f.ab).toNat + atomSize f.size ≤ spaceSize f.space)
    (hown : f.space = 1 → s.cmOwned c.tract ((s.core c).getA f.ab).toNat = false)
    (hrepl : f.space = 2 → s.inReplica (spaceKey c 2 ((s.core c).getA f.ab).toNat) (atomSize f.size) = false)
    (hclean : Clean s (spaceKey c f.space ((s.core c).getA f.ab).toNat) (atomSize f.size)) :
    ∃ fs, s.atomAct c f op n opd cmp = ({ s.takeFree.putMem (spaceKey c f.space ((s.core c).getA f.ab).toNat) (natLe (atomSize f.size)
          (atomNew op f.size (leNat (s.mem.read (spaceKey c f.space ((s.core c).getA f.ab).toNat) (atomSize f.size))) opd cmp)) with fabs := fs } : State).setCore c
      ((s.core c).afterAtom f (atomLoad s c f none (some { status := 0, data := s.mem.read (spaceKey c f.space ((s.core c).getA f.ab).toNat) (atomSize f.size), poison := 0 })) n) := by
  have h3 : f.space ≠ 3 := by rcases hspace with h | h <;> rw [h] <;> decide
  have h0 : f.space ≠ 0 := by rcases hspace with h | h <;> rw [h] <;> decide
  have hdvd : atomSize f.size ∣ 0x1000 := by rcases atomSize_cases f.size with h | h <;> rw [h] <;> decide
  have hsize := oneSize_spaceKey (c := c) hrange
  have hpeek : s.peek (spaceKey c f.space ((s.core c).getA f.ab).toNat) (atomSize f.size) =
      s.mem.read (spaceKey c f.space ((s.core c).getA f.ab).toNat) (atomSize f.size) :=
    peek_spaceKey hrange (fun i hi h1 => cmTile_of_not_owned (p := coreParcel c) (hown h1) hdvd halign hi)
  have hrepl' : (f.space == 2 && s.inReplica (spaceKey c f.space ((s.core c).getA f.ab).toNat) (atomSize f.size)) = false := by
    rcases hspace with h | h
    · rw [h]; rfl
    · rw [h, hrepl h]; rfl
  have hstore (bs : List Byte) (hbs : bs.length = atomSize f.size) : s.takeFree.store (spaceKey c f.space ((s.core c).getA f.ab).toNat) bs =
      s.takeFree.putMem (spaceKey c f.space ((s.core c).getA f.ab).toNat) bs :=
    store_of_clean (by rw [hbs]; exact hclean) (by rw [hbs]; exact hsize)
  rw [State.atomAct, accessFault_none halign h3 hrange (fun _ => hown), storeStall_none h3 (fun _ => huse)]
  simp only [hpeek, poisonMask_of_clean hclean hsize, hrepl', touch_of_clean hclean, hstore _ (natLe_length _ _)]
  rw [if_neg h3, if_neg Bool.false_ne_true]
  have hstale (X : State) (key size : Nat) : ∃ fs, (if f.space = 2 then X.staleLines key size else X) = { X with fabs := fs } := by
    split_ifs
    · exact X.staleLines_eq key size
    · exact ⟨X.fabs, rfl⟩
  obtain ⟨fs, hfs⟩ := hstale (s.takeFree.putMem (spaceKey c f.space ((s.core c).getA f.ab).toNat) (natLe (atomSize f.size)
    (atomNew op f.size (leNat (s.mem.read (spaceKey c f.space ((s.core c).getA f.ab).toNat) (atomSize f.size))) opd cmp)))
      (spaceKey c f.space ((s.core c).getA f.ab).toNat) (atomSize f.size)
  rw [hfs]
  refine ⟨fs, ?_⟩
  unfold Core.afterAtom
  cases f.rd == 0 <;> rfl

end

theorem afterAtom_frame (k : Core) (f : FmtA) (l : OutLoad) (n : Nat) :
    (k.afterAtom f l n).g = k.g ∧ (k.afterAtom f l n).a = k.a ∧ (k.afterAtom f l n).p = k.p ∧ (k.afterAtom f l n).pc = k.pc + BitVec.ofNat 18 n ∧
      (k.afterAtom f l n).wait = none ∧ (f.rd = 0 → (k.afterAtom f l n).loads = k.loads) ∧
      (f.rd ≠ 0 → (k.afterAtom f l n).loads.getLast? = some l ∧ (k.afterAtom f l n).loads.length = k.loads.length + 1) := by
  unfold Core.afterAtom
  by_cases hrd : f.rd = 0
  · rw [if_pos (beq_iff_eq.2 hrd)]
    exact ⟨rfl, rfl, rfl, rfl, rfl, fun _ => rfl, fun h => absurd hrd h⟩
  · obtain ⟨ls, ar, h, hlen⟩ := awaiting_eq k l n
    rw [if_neg (fun e => hrd (beq_iff_eq.1 e)), h]
    refine ⟨rfl, rfl, rfl, rfl, rfl, fun h => absurd h hrd, fun _ => ⟨List.getLast?_concat, ?_⟩⟩
    exact (List.length_append ..).trans (by rw [hlen]; rfl)

theorem atomParts_regs (w64 : Bool) (r : BitVec 5) : (atomParts w64 r).map (fun x => x.reg) = pairOf w64 r := by cases w64 <;> rfl

theorem atomBad_of_even {f : FmtA} (hspace : f.space ≠ 0) (heven : f.size = true → f.rd.toNat % 2 = 0 ∧ f.rs.toNat % 2 = 0) : atomBad f = false := by
  rw [atomBad, beq_eq_false_iff_ne.2 hspace, Bool.false_or]
  cases hsize : f.size
  · rfl
  · obtain ⟨hrd, hrs⟩ := heven hsize
    simp [oddReg, hrd, hrs]

/-- An atomic of the commons or the slice that nothing refuses or holds, at a core that is ready for it. -/
theorem atomRan_of_runs {s : State} {i : Issue} {f : FmtA} {n op opd cmp : Nat} {reads : List CReg} {new : BitVec (8 * atomSize f.size)} {ib : List (Nat × Word)}
    (h : AtomRuns s i f n reads) (hnew : atomNew op f.size (atomOld s i f).toNat opd cmp = new.toNat) :
    AtomRan s ((s.setCore i.core { s.core i.core with ibuf := ib }).atomAct i.core f op n opd cmp) i f n new := by
  obtain ⟨hspace, hwf, huse, -, -, halign, hrange, hown, hrepl, hclean⟩ := h
  have hget : ((s.setCore i.core { s.core i.core with ibuf := ib }).core i.core).getA f.ab = (s.core i.core).getA f.ab := by
    rw [State.core_setCore_self]; rfl
  have huse' : (s.setCore i.core { s.core i.core with ibuf := ib }).storesUse i.core < 16 := by
    rw [State.storesUse, State.core_setCore_self]; exact huse
  obtain ⟨fs, hact⟩ := atomAct_local (s := s.setCore i.core { s.core i.core with ibuf := ib }) (c := i.core) (f := f) (n := n) (op := op) (opd := opd)
    (cmp := cmp) hspace huse' (by rw [hget]; exact halign) (by rw [hget]; exact hrange) (by rw [hget]; exact hown) (by rw [hget]; exact hrepl)
    (by rw [hget]; exact hclean)
  rw [hget, State.core_setCore_self] at hact
  have hself : ((s.setCore i.core { s.core i.core with ibuf := ib }).atomAct i.core f op n opd cmp).core i.core =
      ({ s.core i.core with ibuf := ib } : Core).afterAtom f (atomLoad (s.setCore i.core { s.core i.core with ibuf := ib }) i.core f none
        (some ⟨0, s.mem.read (spaceKey i.core f.space ((s.core i.core).getA f.ab).toNat) (atomSize f.size), 0⟩)) n :=
    (congrArg (fun t => t.core i.core) hact).trans (State.core_setCore_self ..)
  have hold : (atomOld s i f).toNat = leNat (s.mem.read (spaceKey i.core f.space ((s.core i.core).getA f.ab).toNat) (atomSize f.size)) := by
    have hlt := leNat_lt (s.mem.read (spaceKey i.core f.space ((s.core i.core).getA f.ab).toNat) (atomSize f.size))
    rw [read_length, show (256 : Nat) = 2 ^ 8 from rfl, ← Nat.pow_mul] at hlt
    rw [atomOld, BitVec.toNat_ofNat, Nat.mod_eq_of_lt hlt]
  rw [hold] at hnew
  obtain ⟨hg, ha, hp, hpc, -, hzero, hload⟩ := afterAtom_frame { s.core i.core with ibuf := ib } f
    (atomLoad (s.setCore i.core { s.core i.core with ibuf := ib }) i.core f none
      (some ⟨0, s.mem.read (spaceKey i.core f.space ((s.core i.core).getA f.ab).toNat) (atomSize f.size), 0⟩)) n
  rw [← hself] at hg ha hp hpc hzero hload
  refine ⟨?_, hg, ha, hp, hpc, fun c' hc' => ?_, hzero, fun h0 => ⟨_, _, (hload h0).1, atomParts_regs .., rfl, rfl, rfl, rfl⟩⟩
  · have hst := putMem_stored (s := s) (a := spaceKey i.core f.space ((s.core i.core).getA f.ab).toNat)
      (bs := natLe (atomSize f.size) (atomNew op f.size (leNat (s.mem.read (spaceKey i.core f.space ((s.core i.core).getA f.ab).toNat) (atomSize f.size))) opd cmp)) hwf
    rw [← hnew, hact]
    exact hst
  · rw [hact, State.core_setCore, if_neg hc']
    exact (State.core_setCore ..).trans (if_neg hc')

/-- Settles O16. -/
theorem atomicsUpdateOneWord : Obligations.AtomicsUpdateOneWord := by
  have hne {f : FmtA} (h : f.space = 1 ∨ f.space = 2) : f.space ≠ 0 := by rcases h with h | h <;> rw [h] <;> decide
  constructor
  · intro q hq i f s hruns hs
    obtain ⟨ib, hib⟩ := s.noteFetch_eq i 4
    obtain ⟨k, hk, hqk⟩ := List.getElem_of_mem hq
    have hz : (q, k) ∈ atomOps.zipIdx := List.mem_zipIdx_iff_getElem?.2 (List.getElem?_eq_some_iff.2 ⟨hk, hqk⟩)
    obtain ⟨hspace, -, -, heven, hready, -⟩ := id hruns
    rw [List.append_nil] at hready
    refine ⟨_, (exec_atomOps (q, k) hz hs).trans (congrArg Host.Outcome.next ?_), atomRan_of_runs (op := k) (ib := ib)
      (opd := (atomOpd (s.core i.core) f.size f.rs).toNat) (cmp := 0) hruns (atomNew_eq f.size (q, k) hz ..)⟩
    rw [atomBad_of_even (hne hspace) heven]
    refine (issue_of_ready hready _).trans ?_
    dsimp only
    rw [hib, State.core_setCore_self, ← atomOperand_eq]
    rfl
  · intro i f rc s hruns hrc hs
    obtain ⟨ib, hib⟩ := s.noteFetch_eq i 8
    obtain ⟨hspace, -, -, heven, hready, -⟩ := id hruns
    have hext : (rc.setWidth 32).setWidth 5 = rc := BitVec.setWidth_setWidth_of_le rc (by decide) |>.trans (BitVec.setWidth_eq rc)
    have hlt : ¬ (rc.setWidth 32).toNat ≥ 32 := by
      have := rc.isLt
      rw [BitVec.toNat_setWidth]
      omega
    have hbad : (atomBad f || decide ((rc.setWidth 32).toNat ≥ 32) || (f.size && oddReg ((rc.setWidth 32).setWidth 5))) = false := by
      rw [atomBad_of_even (hne hspace) heven, hext, decide_eq_false hlt, Bool.false_or, Bool.false_or]
      cases hsize : f.size
      · rfl
      · simp [oddReg, hrc hsize]
    have hnew : atomNew 9 f.size (atomOld s i f).toNat (atomOpd (s.core i.core) f.size f.rs).toNat (atomOpd (s.core i.core) f.size rc).toNat =
        (if atomOld s i f = atomOpd (s.core i.core) f.size rc then atomOpd (s.core i.core) f.size f.rs else atomOld s i f).toNat := by
      simp only [atomNew, BitVec.toNat_inj]
      split_ifs <;> rfl
    refine ⟨_, (State.asSpelled_of_spells hs).trans (congrArg Host.Outcome.next ?_), atomRan_of_runs (op := 9) (ib := ib) hruns hnew⟩
    rw [hbad, hext]
    refine (issue_of_ready hready _).trans ?_
    dsimp only
    rw [hib, State.core_setCore_self, ← atomOperand_eq, ← atomOperand_eq]
    rfl

/-! Responses to loads (R59, R60). -/

/-- A register of a core has what a part of a load's data gives it. -/
theorem writePart_filled (k : Core) (q : LoadPart) (data : List Byte) : Filled (k.writeParts [q] data) data q := by
  obtain ⟨reg, lo, len, sext⟩ := q
  cases reg with
  | g r =>
    have hget := (Core.getG_setG k r r (BitVec.ofNat 32 (partValue ⟨.g r, lo, len, sext⟩ data))).trans (if_pos rfl)
    refine hget.trans ?_
    rw [ofNat_partValue 32 (by decide)]
  | a r =>
    have hget := (Core.getA_setA k r r (BitVec.ofNat 64 (partValue ⟨.a r, lo, len, sext⟩ data))).trans (if_pos rfl)
    refine hget.trans ?_
    rw [ofNat_partValue 64 (by decide)]

/-- The data of a load reaches the registers of its parts and no other. -/
theorem writeParts_frame (parts : List LoadPart) (data : List Byte) (k : Core) :
    (∃ g a, k.writeParts parts data = { k with g := g, a := a }) ∧
      (∀ x, (.g x) ∉ parts.map (fun q => q.reg) → (k.writeParts parts data).getG x = k.getG x) ∧
      (∀ x, (.a x) ∉ parts.map (fun q => q.reg) → (k.writeParts parts data).getA x = k.getA x) := by
  induction parts generalizing k with
  | nil => exact ⟨⟨k.g, k.a, rfl⟩, fun _ _ => rfl, fun _ _ => rfl⟩
  | cons q qs ih =>
    obtain ⟨⟨g, a, heq⟩, hg, ha⟩ := ih (k.writeParts [q] data)
    have hstep : k.writeParts (q :: qs) data = (k.writeParts [q] data).writeParts qs data := rfl
    have hone : (∃ g a, k.writeParts [q] data = { k with g := g, a := a }) ∧ (∀ x, .g x ≠ q.reg → (k.writeParts [q] data).getG x = k.getG x) ∧
        (∀ x, .a x ≠ q.reg → (k.writeParts [q] data).getA x = k.getA x) := by
      obtain ⟨reg, lo, len, sext⟩ := q
      cases reg with
      | g r =>
        obtain ⟨g', hg'⟩ := Core.setG_eq k r (BitVec.ofNat 32 (partValue ⟨.g r, lo, len, sext⟩ data))
        refine ⟨⟨g', k.a, hg'⟩, fun x hx => ?_, fun x _ => ?_⟩
        · exact (Core.getG_setG k r x _).trans (if_neg fun e => hx (congrArg CReg.g e))
        · exact (congrArg (fun k' => Core.getA k' x) hg').trans rfl
      | a r => exact ⟨⟨k.g, _, rfl⟩, fun _ _ => rfl, fun x hx => (Core.getA_setA k r x _).trans (if_neg fun e => hx (congrArg CReg.a e))⟩
    obtain ⟨⟨g1, a1, hone⟩, hg1, ha1⟩ := hone
    rw [hstep]
    refine ⟨⟨g, a, by rw [heq, hone]⟩, fun x hx => ?_, fun x hx => ?_⟩
    · rw [List.map_cons, List.mem_cons, not_or] at hx
      rw [hg x hx.2, hg1 x hx.1]
    · rw [List.map_cons, List.mem_cons, not_or] at hx
      rw [ha x hx.2, ha1 x hx.1]

theorem writeParts_filled {parts : List LoadPart} (hnodup : (parts.map (fun q => q.reg)).Nodup) (data : List Byte) (k : Core) :
    ∀ q ∈ parts, Filled (k.writeParts parts data) data q := by
  induction parts generalizing k with
  | nil => exact fun q hq => absurd hq List.not_mem_nil
  | cons q qs ih =>
    rw [List.map_cons, List.nodup_cons] at hnodup
    have hstep : k.writeParts (q :: qs) data = (k.writeParts [q] data).writeParts qs data := rfl
    obtain ⟨-, hg, ha⟩ := writeParts_frame qs data (k.writeParts [q] data)
    have hfilled := writePart_filled k q data
    rw [hstep]
    intro x hx
    rcases List.mem_cons.1 hx with rfl | hx
    · obtain ⟨reg, lo, len, sext⟩ := x
      cases reg with
      | g r => exact (hg r hnodup.1).trans hfilled
      | a r => exact (ha r hnodup.1).trans hfilled
    · exact ih hnodup.2 _ x hx

section
variable {s : State} {c : CoreId} {n : Nat} {l : OutLoad} {r : Response}

/-- The core without the load that has been answered. -/
def Core.without (k : Core) (n : Nat) : Core := { k with loads := dropIdx k.loads n }

theorem State.settle_of_operand (hrels : (s.core c).rels = [])
    (hwait : (s.core c).wait = none ∨ ∃ addr pc reg, (s.core c).wait = some (.operand addr pc reg)) : s.settle c = s := by
  rcases hwait with hwait | ⟨addr, pc, reg, hwait⟩
  · exact State.settle_of_no_wait hrels hwait
  · exact State.settle_of_reissues hrels hwait rfl

variable (hl : (s.core c).loads[n]? = some l) (hr : l.resp = some r)
include hl hr

theorem loadResponse_ok (hrels : (s.core c).rels = [])
    (hwait : (s.core c).wait = none ∨ ∃ addr pc reg, (s.core c).wait = some (.operand addr pc reg)) (hst : r.status = 0) (hp : r.poison = 0) :
    exec (.loadResponse c n) s = .next (s.setCore c (if (s.core c).run = .running then ((s.core c).without n).writeParts l.parts r.data else (s.core c).without n)) := by
  have hrun : ((s.setCore c ((s.core c).without n)).core c).run = (s.core c).run := by rw [State.core_setCore_self]; rfl
  refine congrArg Host.Outcome.next ?_
  rw [hl]
  dsimp only
  rw [hr]
  dsimp only
  rw [if_neg (not_not.2 hst), if_neg (not_not.2 hp)]
  show (if (((s.setCore c ((s.core c).without n)).core c).run == .running) = true then
    (s.setCore c ((s.core c).without n)).modCore c (fun k => k.writeParts l.parts r.data) else s.setCore c ((s.core c).without n)).settle c = _
  rw [hrun]
  by_cases h : (s.core c).run = .running
  · rw [if_pos (beq_iff_eq.2 h), if_pos h, State.setCore_modCore]
    obtain ⟨⟨g, a, heq⟩, -⟩ := writeParts_frame l.parts r.data ((s.core c).without n)
    exact State.settle_of_operand (by rw [State.core_setCore_self, heq]; exact hrels) (by rw [State.core_setCore_self, heq]; exact hwait)
  · rw [if_neg (fun e => h (beq_iff_eq.1 e)), if_neg h]
    exact State.settle_of_operand (by rw [State.core_setCore_self]; exact hrels) (by rw [State.core_setCore_self]; exact hwait)

/-- The deferred exception of a response that failed, with a record of its load's PC. -/
theorem loadResponse_fail (hstop : l.stopped = none) (hrun : (s.core c).run = .running) (hbad : r.status ≠ 0 ∨ r.poison ≠ 0) :
    ∃ e : ExcInfo, e.cause = (if r.status ≠ 0 then .remoteErr else .poison) ∧
      exec (.loadResponse c n) s = .next (((s.setCore c ((s.core c).without n)).exception c l.pc e).settle c) := by
  have hrun' : ((s.setCore c ((s.core c).without n)).core c).run == .running := by rw [State.core_setCore_self]; exact beq_iff_eq.2 hrun
  have hdeferred (e : ExcInfo) : (s.setCore c ((s.core c).without n)).deferred c l.pc e = (s.setCore c ((s.core c).without n)).exception c l.pc
      { e with w2 := ((s.setCore c ((s.core c).without n)).core c).pc.toNat } := if_pos hrun'
  have hexec : exec (.loadResponse c n) s = .next ((if r.status ≠ 0 then (s.setCore c ((s.core c).without n)).deferred c l.pc { cause := .remoteErr, addr := l.addr }
      else (s.setCore c ((s.core c).without n)).deferred c l.pc { cause := .poison, addr := l.addr }).settle c) := by
    refine congrArg Host.Outcome.next ?_
    rw [hl]
    dsimp only
    rw [hr]
    dsimp only
    rw [hstop]
    by_cases hst : r.status ≠ 0
    · rw [if_pos hst, if_pos hst]; rfl
    · rw [if_neg hst, if_neg hst, if_pos (hbad.resolve_left hst)]; rfl
  by_cases hst : r.status ≠ 0
  · exact ⟨_, (if_pos hst).symm, hexec.trans (by rw [if_pos hst, hdeferred])⟩
  · exact ⟨_, (if_neg hst).symm, hexec.trans (by rw [if_neg hst, hdeferred])⟩

end

/-- Settles O13. -/
theorem loadResponseWrites : Obligations.LoadResponseWrites := by
  intro c n l r s hl hr hrels hwait
  refine ⟨fun hrun hst hp hnodup => ?_, fun hrun hstop hcfg hbad hcol hrest => ?_, fun hrun hst hp => ?_⟩
  · obtain ⟨⟨g, a, heq⟩, hg, ha⟩ := writeParts_frame l.parts r.data ((s.core c).without n)
    have hfilled := writeParts_filled hnodup r.data ((s.core c).without n)
    refine ⟨_, loadResponse_ok hl hr hrels hwait hst hp, State.setCore_only .., ?_⟩
    rw [State.core_setCore_self, if_pos hrun]
    refine ⟨?_, hfilled, hg, ha, ?_, ?_, ?_, ?_⟩ <;> rw [heq] <;> and_intros <;> rfl
  · obtain ⟨e, hcause, hexec⟩ := loadResponse_fail hl hr hstop hrun hbad
    have hret : e.cause.retryable = false := by rw [hcause]; split_ifs <;> rfl
    have hpar : e.cause ≠ .coreParity := by rw [hcause]; split_ifs <;> decide
    have hq : Quietly (s.setCore c ((s.core c).without n)) c := ⟨by rw [State.core_setCore_self]; exact hcfg, hrest, hcol⟩
    obtain ⟨errs, hexc⟩ := State.exception_quiet hq hret l.pc
    have hcore : ((s.setCore c ((s.core c).without n)).stoppedWith c ((s.setCore c ((s.core c).without n)).faultRecord c l.pc e) errs).core c =
        { (s.core c).without n with run := .stopped, wait := none, pwr := .sleep } := by
      rw [State.stoppedWith_core_self, State.core_setCore_self]
    rw [hexc, State.settle_of_no_wait (by rw [hcore]; exact hrels) (by rw [hcore])] at hexec
    obtain ⟨hcls, -⟩ := State.faultRecord_spec (s.setCore c ((s.core c).without n)) c l.pc e hpar
    obtain ⟨hdc, hdp⟩ := faultDetail_cause (s.setCore c ((s.core c).without n)) c l.pc e hpar
    refine ⟨_, _, hexec, ?_, ?_, ?_, ?_, ?_, rfl, State.stoppedWith_collector .., hcls, ?_, hdp⟩
    · rw [hcore]
    · rw [hcore]; rfl
    · rw [hcore]; rfl
    · rw [hcore]; rfl
    · rw [hcore]; rfl
    · rw [hdc, hcause]; split_ifs <;> rfl
  · refine ⟨_, loadResponse_ok hl hr hrels hwait hst hp, State.setCore_only .., ?_⟩
    rw [State.core_setCore_self, if_neg hrun]
    rfl

end Sys2Proof.Machine
end

section
/-!
PROOFS (O17, O18, O19). Marks of a parcel and what their updates leave alone, copies as they start and land (R44 to R54, R281 to R297).
-/
namespace Sys2Proof.Machine
open Sys2Proof.Claims

/-! What an event leaves of memory and of a core that waits for nothing. -/

/-- Memory and a core are as they were. -/
def State.Spares (s t : State) (c : CoreId) : Prop := t.mem = s.mem ∧ t.core c = s.core c

section
variable {s t u : State} {c : CoreId}

theorem State.Spares.refl (s : State) (c : CoreId) : s.Spares s c := ⟨rfl, rfl⟩

theorem State.Spares.trans (h : s.Spares t c) (h' : t.Spares u c) : s.Spares u c := ⟨h'.1.trans h.1, h'.2.trans h.2⟩

theorem State.Spares.foldl {α : Type} {f : State → α → State} {l : List α} (hf : ∀ t x, s.Spares t c → s.Spares (f t x) c) : s.Spares (l.foldl f s) c :=
  List.foldlRecOn (motive := fun t => s.Spares t c) l f (.refl s c) (fun t ht x _ => hf t x ht)

theorem State.spares_of_cores (hmem : t.mem = s.mem) (hcores : t.cores = s.cores) : s.Spares t c :=
  ⟨hmem, by rw [State.core, State.core, hcores]⟩

theorem State.OnlyTraffic.spares (h : s.OnlyTraffic t) : s.Spares t c := State.spares_of_cores h.mem h.cores

/-- A change of another core's record spares a core. -/
theorem State.modCore_spares {c' : CoreId} (f : Core → Core) (h : c' = c → f (s.core c) = s.core c) : s.Spares (s.modCore c' f) c := by
  refine ⟨rfl, ?_⟩
  rw [State.core_modCore]
  split
  next hc => subst hc; exact h rfl
  next => rfl

theorem State.sendFrom_traffic (s : State) (via : Option Port) (m : OutMsg) : s.OnlyTraffic (s.sendFrom via m) := by
  have hout : s.OnlyTraffic { s with out := s.out ++ [m] } := ⟨_, _, _, _, rfl⟩
  unfold State.sendFrom
  dsimp only
  split
  · exact hout.trans (State.modLink_traffic ..)
  · exact hout

theorem State.sendResponse_traffic (s : State) (p : Port) (m : MemMsg) : s.OnlyTraffic (s.sendResponse p m) := by
  unfold State.sendResponse State.sendResponseFrom
  split
  · exact State.sendFrom_traffic ..
  · exact State.sendFrom_traffic ..

theorem State.answer_spares (s : State) (src : RemoteSrc) (r : Response) : s.Spares (s.answer src r) c := by
  cases src with
  | agent t gen => exact State.spares_of_cores rfl rfl
  | link m p => exact (State.sendResponse_traffic ..).spares

/-- A SLEEP that returns changes the core that sleeps alone. -/
theorem State.sleepCheck_spares (s : State) (c' : CoreId) (h : (s.core c).wait = none) : s.Spares (s.sleepCheck c') c := by
  unfold State.sleepCheck
  split
  next dst mask thr hw =>
    dsimp only
    split
    · exact .refl s c
    · refine State.modCore_spares _ fun hc => ?_
      rw [hc, h] at hw
      cases hw
  next => exact .refl s c

theorem markRelease_of_no_wait {k : Core} (h : k.wait = none) (n : BitVec 10) (w : Word) (bar : Bool) : k.markRelease n w bar = k := by
  simp only [Core.markRelease, h]

/-- The release of a mark's waiters leaves memory, and a core that waits for nothing (R284). -/
theorem State.releaseWaiters_spares (s : State) (p : ParcelId) (n : BitVec 10) (h : (s.core c).wait = none) : s.Spares (s.releaseWaiters p n) c := by
  have hwait {t : State} (ht : s.Spares t c) : (t.core c).wait = none := by rw [ht.2, h]
  have hrelease (t : State) (c' : CoreId) (w : Word) (bar : Bool) (ht : s.Spares t c) : s.Spares (t.modCore c' (fun k => k.markRelease n w bar)) c :=
    ht.trans (State.modCore_spares _ fun _ => markRelease_of_no_wait (hwait ht) ..)
  unfold State.releaseWaiters
  dsimp only
  generalize hF : List.foldl _ s (s.coresOf p) = F
  have hcores : s.Spares F c := by
    rw [← hF]
    refine State.Spares.foldl fun t c' ht => ?_
    have h1 := hrelease t c' (s.markWord p n) (s.barrierN p n).isSome ht
    split
    · split
      · exact h1.trans (State.sleepCheck_spares _ _ (hwait h1))
      · exact h1
    · exact h1
  have hparcel (f : Parcel → Parcel) : F.Spares (F.modParcel p f) c := State.spares_of_cores rfl rfl
  have hanswer {G : State} {rs : List RemoteWait} : G.Spares (rs.foldl (fun s r => s.answer r.src okResponse) G) c :=
    State.Spares.foldl fun u r hu => hu.trans (State.answer_spares ..)
  exact ((hcores.trans (hparcel _)).trans hanswer).trans ⟨rfl, rfl⟩

theorem State.markAdd_eq (s : State) {p : ParcelId} {n : BitVec 10} (v : Word) (hbar : s.barrierN p n = none)
    (hfrozen : (s.parcel p).frozen.contains n = false) (hdamaged : s.markDamaged p n = false) :
    s.markAdd p n v = (s.putMem (markKey p n) (natLe 4 (Claims.wordAt s (markKey p n) + v).toNat)).releaseWaiters p n := by
  rw [State.markAdd, hbar, if_neg (by simp), State.markUpdate, hfrozen, hdamaged, if_neg (by simp)]
  rfl

/-- An addition to a mark that counts and is sound writes its word and nothing else of memory; a core that waits for nothing stays (R282). -/
theorem State.markAdd_counts (s : State) {p : ParcelId} {n : BitVec 10} (v : Word) (hbar : s.barrierN p n = none)
    (hfrozen : (s.parcel p).frozen.contains n = false) (hdamaged : s.markDamaged p n = false) (hwait : (s.core c).wait = none) :
    (s.putMem (markKey p n) (natLe 4 (Claims.wordAt s (markKey p n) + v).toNat)).Spares (s.markAdd p n v) c := by
  rw [State.markAdd_eq s v hbar hfrozen hdamaged]
  exact State.releaseWaiters_spares _ p n hwait

/-- A held addition of a core that waits for nothing else is made at once (R51). -/
theorem State.settle_one_eq {r : HeldRel} (hrels : (s.core c).rels = [r]) (hneeds : s.needsOpen c r.needs = false) (hwait : (s.core c).wait = none)
    (hbar : s.barrierN r.parcel r.mark = none) (hfrozen : (s.parcel r.parcel).frozen.contains r.mark = false)
    (hdamaged : s.markDamaged r.parcel r.mark = false) :
    s.settle c = (s.setCore c { s.core c with rels := [] }).markAdd r.parcel r.mark r.value := by
  have hdrop : dropFirst (fun x => x == r) (s.core c).rels = [] := by simp [hrels, dropFirst]
  have hcore : ((s.setCore c { s.core c with rels := [] }).markAdd r.parcel r.mark r.value).core c = { s.core c with rels := [] } :=
    (State.markAdd_counts (c := c) (s.setCore c { s.core c with rels := [] }) r.value hbar hfrozen hdamaged
      (by rw [State.core_setCore_self]; exact hwait)).2.trans (State.core_setCore_self ..)
  rw [State.settle, hrels]
  simp only [State.settleRels, hneeds, Bool.false_eq_true, if_false]
  rw [State.modCore_eq, hdrop, hcore, hwait]

theorem State.settle_one {r : HeldRel} (hrels : (s.core c).rels = [r]) (hneeds : s.needsOpen c r.needs = false) (hwait : (s.core c).wait = none)
    (hbar : s.barrierN r.parcel r.mark = none) (hfrozen : (s.parcel r.parcel).frozen.contains r.mark = false)
    (hdamaged : s.markDamaged r.parcel r.mark = false) :
    (s.settle c).mem = (s.putMem (markKey r.parcel r.mark) (natLe 4 (Claims.wordAt s (markKey r.parcel r.mark) + r.value).toNat)).mem ∧
      (s.settle c).core c = { s.core c with rels := [] } := by
  obtain ⟨hmem, hcore⟩ := State.markAdd_counts (c := c) (s.setCore c { s.core c with rels := [] }) r.value hbar hfrozen
    hdamaged (by rw [State.core_setCore_self]; exact hwait)
  rw [State.settle_one_eq hrels hneeds hwait hbar hfrozen hdamaged]
  exact ⟨hmem, hcore.trans (State.core_setCore_self ..)⟩

end

/-! MADD, MSUB and MWAIT on a mark of the core's parcel (R50, R51, R283). -/

section
variable {s : State} {c : CoreId} {f : FmtK}

theorem markTypeFault_counting {n : BitVec 10} (h : s.barrierN (coreParcel c) n = none) : s.markTypeFault c n false = none := by
  rw [State.markTypeFault, h]
  rfl

theorem releaseNeeds_settled (hset : Settled s c) : s.releaseNeeds c = { gens := [], arrs := [] } := by
  obtain ⟨-, hqueue, hra⟩ := hset
  simp [State.releaseNeeds, State.storeGens, hqueue, hra]

/-- An addition to a mark of the core's parcel by a core with nothing earlier open is made at once. -/
theorem markAddAct_local (sub : Bool) (hremote : f.remote = false) (hbar : s.barrierN (coreParcel c) f.mark = none)
    (hfault : (s.core c).arr.fault = none) (hset : Settled s c) (hfrozen : (s.parcel (coreParcel c)).frozen.contains f.mark = false)
    (hdamaged : s.markDamaged (coreParcel c) f.mark = false) :
    (s.markAddAct c f sub).mem = (s.putMem (markKey (coreParcel c) f.mark) (natLe 4 (Claims.wordAt s (markKey (coreParcel c) f.mark) +
        (if sub then -(s.core c).getG f.g else (s.core c).getG f.g)).toNat)).mem ∧
      (s.markAddAct c f sub).core c = { (s.core c).retire 4 with rels := [] } := by
  have hact : s.markAddAct c f sub = (s.setCore c { (s.core c).retire 4 with rels := [⟨⟨[], []⟩, coreParcel c, f.mark,
      if sub then -(s.core c).getG f.g else (s.core c).getG f.g⟩] }).settle c := by
    rw [State.markAddAct, hremote, markTypeFault_counting hbar]
    simp only [Bool.false_eq_true, if_false]
    rw [State.orGangFault_of_none hfault, releaseNeeds_settled hset, State.modCore_eq, hset.1]
    rfl
  rw [hact]
  obtain ⟨hmem, hcore⟩ := State.settle_one (s := s.setCore c { (s.core c).retire 4 with rels := [⟨⟨[], []⟩, coreParcel c, f.mark,
      if sub then -(s.core c).getG f.g else (s.core c).getG f.g⟩] }) (c := c)
    (r := ⟨⟨[], []⟩, coreParcel c, f.mark, if sub then -(s.core c).getG f.g else (s.core c).getG f.g⟩)
    (by rw [State.core_setCore_self]) (by simp [State.needsOpen]) (by rw [State.core_setCore_self]; rfl) hbar hfrozen hdamaged
  exact ⟨hmem, hcore.trans (by rw [State.core_setCore_self])⟩

/-- An MWAIT on a mark of the core's parcel goes on, or waits. -/
theorem mwaitAct_local (hremote : f.remote = false) (hbar : s.barrierN (coreParcel c) f.mark = none) :
    s.mwaitAct c f = if reached (Claims.wordAt s (markKey (coreParcel c) f.mark)) ((s.core c).getG f.g) &&
        !((s.parcel (coreParcel c)).frozen.contains f.mark || s.markDamaged (coreParcel c) f.mark) then s.setCore c ((s.core c).retire 4)
      else s.stallAt c (.mwait f.mark ((s.core c).getG f.g)) := by
  rw [State.mwaitAct, hremote, markTypeFault_counting hbar]
  rfl

theorem fmtKBad_local (hremote : f.remote = false) (hab : f.ab = 0) : fmtKBad f = false := by
  rw [fmtKBad, hremote, if_neg Bool.false_ne_true, hab]
  rfl

end

/-- Settles O19. -/
theorem countingMarks : Obligations.CountingMarks := by
  intro i f s hremote hab h hbar hwf hfault
  obtain ⟨ib, hib⟩ := s.noteFetch_eq i 4
  have hreads : fmtKReads f = [.g f.g] := by rw [fmtKReads, hremote]; rfl
  have hget : ((s.setCore i.core { s.core i.core with ibuf := ib }).core i.core).getG f.g = (s.core i.core).getG f.g := by
    rw [State.core_setCore_self]; rfl
  have hissue (act : State → State) : s.issue i 4 (fmtKBad f) (fmtKReads f) act = act (s.setCore i.core { s.core i.core with ibuf := ib }) := by
    rw [fmtKBad_local hremote hab, hreads, issue_of_ready h, hib]
  have hadd (sub : Bool) (hset : Settled s i.core) (hfrozen : (s.parcel (coreParcel i.core)).frozen.contains f.mark = false)
      (hdamaged : s.markDamaged (coreParcel i.core) f.mark = false) :
      Stored s ((s.setCore i.core { s.core i.core with ibuf := ib }).markAddAct i.core f sub) (markKey (coreParcel i.core) f.mark)
          (natLe 4 (Claims.wordAt s (markKey (coreParcel i.core) f.mark) + (if sub then -(s.core i.core).getG f.g else (s.core i.core).getG f.g)).toNat) ∧
        (((s.setCore i.core { s.core i.core with ibuf := ib }).markAddAct i.core f sub).core i.core).pc = (s.core i.core).pc + 4 ∧
        (((s.setCore i.core { s.core i.core with ibuf := ib }).markAddAct i.core f sub).core i.core).g = (s.core i.core).g ∧
        (((s.setCore i.core { s.core i.core with ibuf := ib }).markAddAct i.core f sub).core i.core).rels = [] := by
    obtain ⟨hrels, hqueue, hra⟩ := hset
    obtain ⟨hmem, hcore⟩ := markAddAct_local (s := s.setCore i.core { s.core i.core with ibuf := ib }) (c := i.core) (f := f) sub hremote hbar
      (by rw [State.core_setCore_self]; exact hfault)
      ⟨by rw [State.core_setCore_self]; exact hrels, by rw [State.core_setCore_self]; exact hqueue, hra⟩ hfrozen hdamaged
    rw [hget] at hmem
    rw [State.core_setCore_self] at hcore
    have hpc := congrArg Core.pc hcore
    have hg := congrArg Core.g hcore
    have hr := congrArg Core.rels hcore
    refine ⟨fun x => ?_, hpc, hg, hr⟩
    rw [hmem]
    exact putMem_stored (s := s) hwf x
  have hwait (hs : s.spells i (.mwait i f) = true) : exec (.mwait i f) s =
      .next (if reached (Claims.wordAt s (markKey (coreParcel i.core) f.mark)) ((s.core i.core).getG f.g) &&
        !((s.parcel (coreParcel i.core)).frozen.contains f.mark || s.markDamaged (coreParcel i.core) f.mark) then
          s.setCore i.core (({ s.core i.core with ibuf := ib } : Core).retire 4)
        else s.setCore i.core { s.core i.core with ibuf := ib, wait := some (.mwait f.mark ((s.core i.core).getG f.g)) }) := by
    refine (State.asSpelled_of_spells hs).trans (congrArg _ ((hissue _).trans ?_))
    rw [mwaitAct_local (s := s.setCore i.core { s.core i.core with ibuf := ib }) hremote hbar, hget, State.core_setCore_self, State.setCore_setCore, State.stallAt_fetched]
    rfl
  refine ⟨fun hset hfrozen hdamaged => ⟨fun hs => ?_, fun hs => ?_⟩, fun hfrozen hdamaged hreach hs => ?_, fun hcond hs => ?_⟩
  · exact ⟨_, (State.asSpelled_of_spells hs).trans (congrArg _ (hissue _)), hadd false hset hfrozen hdamaged⟩
  · have hsub := hadd true hset hfrozen hdamaged
    rw [if_pos rfl, ← BitVec.sub_eq_add_neg] at hsub
    exact ⟨_, (State.asSpelled_of_spells hs).trans (congrArg _ (hissue _)), hsub⟩
  · refine ⟨_, (hwait hs).trans (congrArg _ (if_pos ?_)), State.setCore_only .., ?_⟩
    · rw [hfrozen, hdamaged, Bool.and_eq_true]
      exact ⟨decide_eq_true hreach, rfl⟩
    · rw [State.core_setCore_self]
      refine ⟨?_, rfl, rfl⟩
      and_intros <;> rfl
  · refine ⟨_, (hwait hs).trans (congrArg _ (if_neg ?_)), waitsAt_setCore ..⟩
    rw [Bool.and_eq_true, reached, decide_eq_true_eq, Bool.not_eq_true', Bool.or_eq_false_iff]
    rintro ⟨hlt, hf, hd⟩
    rcases hcond with hge | hfrozen | hdamaged
    · omega
    · rw [hfrozen] at hf; cases hf
    · rw [hdamaged] at hd; cases hd

/-! Copies as they issue (R44, R47, R49). -/

section
variable {s : State} {c : CoreId}

/-- The copy that CPY or CPYM starts between local spaces. -/
def localJob (k : Core) (f : FmtCpy) (mark : Option (Bool × BitVec 10)) : CopyJob :=
  { sspace := f.sspace.toNat, src := (k.getA f.as_).toNat, dspace := f.dspace.toNat, dst := (k.getA f.ad).toNat, len := (k.getG f.gl).toNat, ac := f.ac,
    mark := mark, genS := none, genD := none, after := [], stage := .flight }

/-- A copy between local spaces with sound operands is in flight, and its core goes on. -/
theorem copyAct_local {f : FmtCpy} {mark : Option (Bool × BitVec 10)} {n : Nat} (hs3 : f.sspace ≠ 3) (hd3 : f.dspace ≠ 3)
    (hcopies : (s.core c).copies.length < 32) (hastat : (s.core c).astatQueued = none) (hlen4 : ((s.core c).getG f.gl).toNat % 4 = 0)
    (hlo : 4 ≤ ((s.core c).getG f.gl).toNat) (hhi : ((s.core c).getG f.gl).toNat ≤ 1048576) (hsrc4 : ((s.core c).getA f.as_).toNat % 4 = 0)
    (hdst4 : ((s.core c).getA f.ad).toNat % 4 = 0) (hsrc : ((s.core c).getA f.as_).toNat + ((s.core c).getG f.gl).toNat ≤ spaceSize f.sspace)
    (hdst : ((s.core c).getA f.ad).toNat + ((s.core c).getG f.gl).toNat ≤ spaceSize f.dspace)
    (hown : f.dspace = 1 → s.cmOwned c.tract (((s.core c).getA f.ad).toNat + ((s.core c).getG f.gl).toNat - 1) = false) :
    s.copyAct c f mark n = s.setCore c (Core.retire { s.core c with copies := (s.core c).copies ++ [localJob (s.core c) f mark] } n) := by
  have hrange (space : BitVec 2) (off len : Nat) (write : Bool) (h3 : space ≠ 3) (h : off + len ≤ spaceSize space)
      (hown : write = true → space = 1 → s.cmOwned c.tract (off + len - 1) = false) : s.copyRange c space off len write = none := by
    have hprotect : ¬(write && space == 1 && s.cmOwned c.tract (off + len - 1)) = true := by
      simp only [Bool.and_eq_true, beq_iff_eq, not_and, Bool.not_eq_true]
      exact fun h => hown h.1 h.2
    rw [State.copyRange, if_neg h3, if_neg (by omega), if_neg hprotect]
  have hfault : s.copyFault c f ((s.core c).getA f.as_).toNat ((s.core c).getA f.ad).toNat ((s.core c).getG f.gl).toNat = none := by
    have hbad : ¬(decide (((s.core c).getG f.gl).toNat % 4 ≠ 0) || decide (((s.core c).getG f.gl).toNat < 4) ||
        decide (1048576 < ((s.core c).getG f.gl).toNat) || decide (((s.core c).getA f.as_).toNat % 4 ≠ 0) ||
        decide (((s.core c).getA f.ad).toNat % 4 ≠ 0)) = true := by
      simp only [Bool.or_eq_true, decide_eq_true_eq]
      omega
    rw [State.copyFault, if_neg hbad, if_neg (fun h => hs3 (of_decide_eq_true (Bool.and_eq_true_iff.1 h).1)),
      if_neg (fun h => hd3 (of_decide_eq_true (Bool.and_eq_true_iff.1 h).1)),
      hrange _ _ _ _ hs3 hsrc (fun h => absurd h (by decide)), hrange _ _ _ _ hd3 hdst (fun _ => hown)]
  have hstall : s.copyStall c f = none := by
    have hnone : (if f.sspace = 0 || f.dspace = 0 then (s.core c).astatQueued else none) = none := by rw [hastat]; split_ifs <;> rfl
    rw [State.copyStall]
    dsimp only
    rw [hnone, beq_eq_false_iff_ne.2 hs3, beq_eq_false_iff_ne.2 hd3]
    dsimp only
    rw [if_neg (by omega), if_neg (by simp [b2n])]
  have hend (s : State) (space : BitVec 2) (addr len : Nat) (write : Bool) (h3 : space ≠ 3) : s.copyEnd c space addr len write = (s, none) := if_neg h3
  rw [State.copyAct]
  dsimp only
  rw [hfault, hstall]
  dsimp only
  rw [if_neg hs3, hend _ _ _ _ _ hs3]
  dsimp only
  rw [hend _ _ _ _ _ hd3]
  rfl

/-- CWAIT at a core without a held addition goes on, or waits (R47). -/
theorem settle_of_cwait {ac : BitVec 3} {target : BitVec 16} (hrels : (s.core c).rels = []) (hwait : (s.core c).wait = some (.cwait ac target)) :
    s.settle c = if counterReached ((s.core c).getAc ac) target then s.modCore c (fun k => k.retire 4) else s := by
  simp only [State.settle, hrels, State.settleRels, hwait]

theorem setWidth_sixteen (x : Word) : x.setWidth 16 = x.extractLsb' 0 16 := by
  apply BitVec.eq_of_toNat_eq
  simp

end

/-- Settles O17. -/
theorem copyInstructionsStart : Obligations.CopyInstructionsStart := by
  intro i s
  refine ⟨fun f hres hs3 hd3 hcopies hastat hlen4 hlo hhi hsrc4 hdst4 hsrc hdst hown => ?_, fun f hres => ⟨fun h hs => ?_, fun h hs => ?_, fun h hrels => ?_⟩⟩
  · have hact (mark : Option (Bool × BitVec 10)) (n : Nat) (ib : List (Nat × Word)) :
        (s.setCore i.core { s.core i.core with ibuf := ib }).copyAct i.core f mark n = s.setCore i.core (Core.retire { s.core i.core with
          ibuf := ib, copies := (s.core i.core).copies ++ [localJob (s.core i.core) f mark] } n) := by
      have hcore : (s.setCore i.core { s.core i.core with ibuf := ib }).core i.core = { s.core i.core with ibuf := ib } := State.core_setCore_self ..
      have hg : ((s.setCore i.core { s.core i.core with ibuf := ib }).core i.core).getG f.gl = (s.core i.core).getG f.gl := by rw [hcore]; rfl
      have ha (r : BitVec 4) : ((s.setCore i.core { s.core i.core with ibuf := ib }).core i.core).getA r = (s.core i.core).getA r := by rw [hcore]; rfl
      have hlocal := copyAct_local (s := s.setCore i.core { s.core i.core with ibuf := ib }) (c := i.core) (f := f) (mark := mark) (n := n) hs3 hd3
        (by rw [hcore]; exact hcopies) (by rw [hcore]; exact hastat) (by rw [hg]; exact hlen4) (by rw [hg]; exact hlo) (by rw [hg]; exact hhi)
        (by rw [ha]; exact hsrc4) (by rw [ha]; exact hdst4) (by rw [ha, hg]; exact hsrc) (by rw [ha, hg]; exact hdst) (by rw [ha, hg]; exact hown)
      rw [hlocal, hcore]
      exact State.setCore_setCore ..
    constructor
    · intro h hs
      obtain ⟨ib, hib⟩ := s.noteFetch_eq i 4
      have hexec : exec (.cpy i f) s = .next ((s.setCore i.core { s.core i.core with ibuf := ib }).copyAct i.core f none 4) := by
        refine (State.asSpelled_of_spells hs).trans (congrArg _ ?_)
        rw [show (f.reserved != 0) = false by simp [hres]]
        exact (issue_of_ready h _).trans (by rw [hib])
      rw [hact] at hexec
      refine ⟨_, localJob (s.core i.core) f none, hexec, State.setCore_only .., rfl, ?_⟩
      rw [State.core_setCore_self]
      refine ⟨rfl, rfl, rfl, rfl, ?_, rfl⟩
      and_intros <;> rfl
    · intro mark h hs
      obtain ⟨ib, hib⟩ := s.noteFetch_eq i 8
      have hmark : (mark.setWidth 32).setWidth 10 = mark := BitVec.setWidth_setWidth_of_le mark (by decide) |>.trans (BitVec.setWidth_eq mark)
      have hmlt := mark.isLt
      have hbit : (mark.setWidth 32).getLsbD 10 = false := by simp
      have hlt : decide (2 ^ 11 ≤ (mark.setWidth 32).toNat) = false := by
        rw [BitVec.toNat_setWidth]
        exact decide_eq_false (by omega)
      have hexec : exec (.cpym i f (mark.setWidth 32)) s =
          .next ((s.setCore i.core { s.core i.core with ibuf := ib }).copyAct i.core f (some (false, mark)) 8) := by
        refine (State.asSpelled_of_spells hs).trans (congrArg _ ?_)
        rw [show (f.reserved != 0) = false by simp [hres], hlt, hbit, hmark]
        exact (issue_of_ready h _).trans (by rw [hib])
      rw [hact] at hexec
      refine ⟨_, localJob (s.core i.core) f (some (false, mark)), hexec, State.setCore_only .., ?_⟩
      rw [State.core_setCore_self]
      refine ⟨rfl, rfl, rfl, ?_, rfl⟩
      and_intros <;> rfl
  · obtain ⟨ib, hib⟩ := issueRegs_of_ready h (fun k => { k.setAc f.ac ((k.getG f.g).setWidth 16) with arrive := k.arrive || k.getAc f.ac != (k.getG f.g).setWidth 16 })
    have hexec : exec (.cset i f) s = .next (s.setCore i.core (Core.retire { ({ s.core i.core with ibuf := ib } : Core).setAc f.ac
        (((s.core i.core).getG f.g).setWidth 16) with arrive := (s.core i.core).arrive || (s.core i.core).getAc f.ac != ((s.core i.core).getG f.g).setWidth 16 } 4)) := by
      refine (State.asSpelled_of_spells hs).trans (congrArg _ ?_)
      rw [show (f.reserved != 0) = false by simp [hres]]
      exact hib
    have hget (m : BitVec 3) := Core.getAc_setAc ({ s.core i.core with ibuf := ib } : Core) f.ac m (((s.core i.core).getG f.g).setWidth 16)
    refine ⟨_, hexec, State.setCore_only .., ?_⟩
    rw [State.core_setCore_self, ← setWidth_sixteen]
    refine ⟨(hget f.ac).trans (if_pos rfl), ?_, fun m hm => (hget m).trans (if_neg hm), rfl, rfl⟩
    show ((s.core i.core).arrive || (s.core i.core).getAc f.ac != ((s.core i.core).getG f.g).setWidth 16) = _
    by_cases he : (s.core i.core).getAc f.ac = ((s.core i.core).getG f.g).setWidth 16 <;> simp [he]
  · exact ⟨_, State.asSpelled_of_spells hs, issueRegs_wroteG h (by simp [hres]) (fun _ => rfl)⟩
  · obtain ⟨ib, hib⟩ := s.noteFetch_eq i 4
    have hexec (hs : s.spells i (.cwait i f) = true) : exec (.cwait i f) s =
        .next (if counterReached ((s.core i.core).getAc f.ac) (((s.core i.core).getG f.g).extractLsb' 0 16) then
            s.setCore i.core (Core.retire { s.core i.core with ibuf := ib, wait := some (.cwait f.ac (((s.core i.core).getG f.g).extractLsb' 0 16)) } 4)
          else s.setCore i.core { s.core i.core with ibuf := ib, wait := some (.cwait f.ac (((s.core i.core).getG f.g).extractLsb' 0 16)) }) := by
      refine (State.asSpelled_of_spells hs).trans (congrArg _ ?_)
      rw [show (f.reserved != 0) = false by simp [hres], issue_of_ready h, hib, State.core_setCore_self, State.stallAt_fetched, setWidth_sixteen]
      refine (settle_of_cwait (by rw [State.core_setCore_self]; exact hrels) (by rw [State.core_setCore_self])).trans ?_
      rw [State.core_setCore_self, State.setCore_modCore]
      rfl
    constructor
    · intro hreach hs
      refine ⟨_, (hexec hs).trans (congrArg _ (if_pos (decide_eq_true hreach))), State.setCore_only .., ?_⟩
      rw [State.core_setCore_self]
      refine ⟨?_, rfl, rfl⟩
      and_intros <;> rfl
    · intro hfar hs
      exact ⟨_, (hexec hs).trans (congrArg _ (if_neg (fun e => absurd (of_decide_eq_true e) (by omega)))), waitsAt_setCore ..⟩

/-! The landing of a copy (R45, R47, R54). -/

section
variable {s : State} {c : CoreId}

theorem storeLost_of_clean {a : Nat} {bs : List Byte} (h : Clean s a bs.length) (hsize : OneSize a bs.length) : s.storeLost a bs = false := by
  have hpieces (fuel : Nat) : ∀ (a' : Nat) (bs' : List Byte), a ≤ a' → a' + bs'.length ≤ a + bs.length →
      (pieces (unitSize a) fuel a' bs').any (fun q => (s.mem.writePiece q.1 q.2).2) = false := by
    induction fuel with
    | zero => intro a' bs' _ _; rfl
    | succ fuel ih =>
      intro a' bs' hlo hhi
      cases bs' with
      | nil => rfl
      | cons b bs' =>
        have hsz : unitSize a' = unitSize a := by
          have := hsize (a' - a) (by simp at hhi; omega)
          rwa [Nat.add_sub_cancel' hlo] at this
        have hpos : 0 < unitSize a := by rcases unitSize_cases a with h | h <;> omega
        have hmod : a' % unitSize a < unitSize a := Nat.mod_lt _ hpos
        have htake : ((b :: bs').take (unitSize a - a' % unitSize a)).length = min (unitSize a - a' % unitSize a) (bs'.length + 1) := by simp
        have hunfold : pieces (unitSize a) (fuel + 1) a' (b :: bs') = (a', (b :: bs').take (unitSize a - a' % unitSize a)) ::
            pieces (unitSize a) fuel (a' + (unitSize a - a' % unitSize a)) ((b :: bs').drop (unitSize a - a' % unitSize a)) := rfl
        have hu : s.mem.soundUnit (unitBase a') := h _ (mem_unitsOf hsize hlo (by simp at hhi; omega))
        rw [hunfold, List.any_cons, writePiece_of_sound hu (by rw [hsz, htake]; omega), Bool.false_or]
        by_cases hall : bs'.length + 1 ≤ unitSize a - a' % unitSize a
        · rw [List.drop_eq_nil_of_le (by simpa using hall)]
          cases fuel <;> rfl
        · exact ih _ _ (by omega) (by simp at hhi ⊢; omega)
  exact hpieces bs.length a bs (Nat.le_refl _) (Nat.le_refl _)

/-- The bytes of a copy, written 16-byte unit by unit to sound memory, none of them poisoned. -/
theorem copyUnits_of_clean {d : CopyData} {a n : Nat} (hbad : ∀ j m, j + m ≤ n → d.bad j m = false) (fuel : Nat) :
    ∀ (s : State) (a' : Nat) (bs : List Byte) (i : Nat), bs.length ≤ fuel → a ≤ a' → a' + bs.length ≤ a + n → i + bs.length ≤ n → OneSize a n → Clean s a n →
      s.copyUnits d i (pieces 16 fuel a' bs) = s.putMem a' bs ∧ s.copyLost d i (pieces 16 fuel a' bs) = false := by
  induction fuel with
  | zero =>
    intro s a' bs i hfuel _ _ _ _ _
    obtain rfl := List.length_eq_zero_iff.1 (Nat.le_zero.1 hfuel)
    exact ⟨rfl, rfl⟩
  | succ fuel ih =>
    intro s a' bs i hfuel hlo hhi hi hsize hclean
    cases bs with
    | nil => exact ⟨rfl, rfl⟩
    | cons b bs =>
      have hmod : a' % 16 < 16 := Nat.mod_lt _ (by decide)
      have htake : ((b :: bs).take (16 - a' % 16)).length = min (16 - a' % 16) (bs.length + 1) := by simp
      have hunfold : pieces 16 (fuel + 1) a' (b :: bs) =
          (a', (b :: bs).take (16 - a' % 16)) :: pieces 16 fuel (a' + (16 - a' % 16)) ((b :: bs).drop (16 - a' % 16)) := rfl
      rw [List.length_cons] at hfuel hhi hi
      have hbad' : d.bad i ((b :: bs).take (16 - a' % 16)).length = false := hbad _ _ (by rw [htake]; omega)
      have hclean' : Clean s a' ((b :: bs).take (16 - a' % 16)).length := clean_sub hclean hsize hlo (by rw [htake]; omega)
      have hsize' : OneSize a' ((b :: bs).take (16 - a' % 16)).length := by
        intro x hx
        have h1 := hsize (a' - a + x) (by rw [htake] at hx; omega)
        have h2 := hsize (a' - a) (by omega)
        rw [show a + (a' - a + x) = a' + x by omega] at h1
        rw [show a + (a' - a) = a' by omega] at h2
        rw [h1, h2]
      rw [hunfold, State.copyUnits, State.copyLost, hbad', if_neg Bool.false_ne_true, store_of_clean hclean' hsize', storeLost_of_clean hclean' hsize',
        Bool.and_false, Bool.false_or]
      by_cases hall : bs.length + 1 ≤ 16 - a' % 16
      · have hdrop : (b :: bs).drop (16 - a' % 16) = [] := List.drop_eq_nil_of_le (by simpa using hall)
        have hfull : (b :: bs).take (16 - a' % 16) = b :: bs := List.take_of_length_le (by simpa using hall)
        rw [hdrop, hfull]
        cases fuel <;> exact ⟨rfl, rfl⟩
      · have hlen : ((b :: bs).drop (16 - a' % 16)).length = bs.length + 1 - (16 - a' % 16) := by simp
        obtain ⟨hput, -⟩ := ih (s.putMem a' ((b :: bs).take (16 - a' % 16))) (a' + (16 - a' % 16)) ((b :: bs).drop (16 - a' % 16))
          (i + ((b :: bs).take (16 - a' % 16)).length) (by rw [hlen]; omega) (by omega) (by rw [hlen]; omega) (by rw [hlen, htake]; omega) hsize hclean
        obtain ⟨-, hlost⟩ := ih s (a' + (16 - a' % 16)) ((b :: bs).drop (16 - a' % 16))
          (i + ((b :: bs).take (16 - a' % 16)).length) (by rw [hlen]; omega) (by omega) (by rw [hlen]; omega) (by rw [hlen, htake]; omega) hsize hclean
        refine ⟨hput.trans ?_, hlost⟩
        simp only [State.putMem]
        conv_rhs => rw [← List.take_append_drop (16 - a' % 16) (b :: bs), putBytes_append]
        rw [htake, Nat.min_eq_left (by omega)]

theorem raPump_of_empty {t : Tract} (h : (s.fab t).ra = []) : s.raPump t = s := by
  rw [State.raPump, h]
  rfl

theorem staleLines_ra (s : State) (key n : Nat) (t : Tract) (h : (s.fab t).ra = []) : ((s.staleLines key n).fab t).ra = [] := by
  unfold State.staleLines
  split
  · exact h
  · have hget := AMap.get_map_snd s.fabs (fun v => { v with replOk := v.replOk.filter (fun l => !(s.regionLines key n).contains l) }) t TractFab.reset
    exact (congrArg TractFab.ra hget).trans h

/-- A copy that nothing keeps from landing and that follows nothing, at an empty request agent. -/
theorem copyLanding_moves {n : Nat} {net : List NetReply} {j : CopyJob} (hj : (s.core c).copies[n]? = some j) (hs3 : j.sspace ≠ 3) (hd3 : j.dspace ≠ 3)
    (hstage : j.stage = .flight) (hafter : j.after = []) (hdead : s.dead c.tract.val = false) (hra : (s.fab c.tract).ra = []) :
    exec (.copyLanding c n net) s = .next (s.copyMove c n j net.head?) := by
  have hfree : s.copyFree c j = true := by simp [State.copyFree, hra, hstage, State.needsOpen, hafter, hdead, hs3, hd3]
  have hmay : s.endsMay c j = true := by simp [State.endsMay, hra]
  refine congrArg Host.Outcome.next ?_
  rw [hj]
  dsimp only
  rw [hstage]
  dsimp only
  rw [hfree, hmay, decide_eq_false hs3]
  rfl

/-- A copy is counted at a core that waits for nothing, with nothing held, at an empty request agent. -/
theorem copyCount_idle {n : Nat} {j : CopyJob} (hrels : (s.core c).rels = []) (hwait : (s.core c).wait = none) (hra : (s.fab c.tract).ra = []) :
    s.copyCount c n j false = s.setCore c (Core.countLanding { s.core c with copies := dropIdx (s.core c).copies n } j.ac false) := by
  have hmod : (s.modCore c (fun k => { k with copies := dropIdx k.copies n })).modCore c (fun k => k.countLanding j.ac false) =
      s.setCore c (Core.countLanding { s.core c with copies := dropIdx (s.core c).copies n } j.ac false) := State.setCore_modCore ..
  have hpump (v : Core) : (s.setCore c v).raPump c.tract = s.setCore c v := raPump_of_empty hra
  rw [State.copyCount]
  dsimp only
  rw [hmod, hpump]
  exact State.settle_of_no_wait (by rw [State.core_setCore_self]; exact hrels) (by rw [State.core_setCore_self]; exact hwait)

/-- The move of a copy between local spaces on sound memory: its bytes arrive, and it is counted. -/
theorem copyMove_local {n : Nat} {net : Option NetReply} {j : CopyJob} (hs3 : j.sspace < 3) (hd3 : j.dspace < 3) (hmark : j.mark = none)
    (hgs : j.genS = none) (hgd : j.genD = none) (hholds : s.holds c = false)
    (hpeek : s.peek (spaceKey c (BitVec.ofNat 2 j.sspace) j.src) j.len = s.mem.read (spaceKey c (BitVec.ofNat 2 j.sspace) j.src) j.len)
    (hsrc : j.src + j.len ≤ spaceSize (BitVec.ofNat 2 j.sspace)) (hdst : j.dst + j.len ≤ spaceSize (BitVec.ofNat 2 j.dspace))
    (hcs : Clean s (spaceKey c (BitVec.ofNat 2 j.sspace) j.src) j.len) (hcd : Clean s (spaceKey c (BitVec.ofNat 2 j.dspace) j.dst) j.len)
    (hrepl : s.inReplica (spaceKey c (BitVec.ofNat 2 j.dspace) j.dst) j.len = false) :
    s.copyMove c n j net = ((s.takeFree.putMem (spaceKey c (BitVec.ofNat 2 j.dspace) j.dst)
      (s.mem.read (spaceKey c (BitVec.ofNat 2 j.sspace) j.src) j.len)).staleLines (spaceKey c (BitVec.ofNat 2 j.dspace) j.dst) j.len).copyCount c n j false := by
  have hlen := read_length s.mem (spaceKey c (BitVec.ofNat 2 j.sspace) j.src) j.len
  have hsizeS := oneSize_spaceKey (c := c) hsrc
  have hbad (i m : Nat) (h : i + m ≤ j.len) : s.poisoned (spaceKey c (BitVec.ofNat 2 j.sspace) j.src + i) m = false :=
    poisoned_of_clean (clean_sub hcs hsizeS (by omega) (by omega))
  have hread : s.copyRead c j net = ⟨0, s.mem.read (spaceKey c (BitVec.ofNat 2 j.sspace) j.src) j.len,
      fun i m => s.poisoned (spaceKey c (BitVec.ofNat 2 j.sspace) j.src + i) m⟩ := by
    rw [← hpeek]
    exact if_pos (by omega)
  obtain ⟨hput, hlost⟩ := copyUnits_of_clean (d := ⟨0, s.mem.read (spaceKey c (BitVec.ofNat 2 j.sspace) j.src) j.len,
      fun i m => s.poisoned (spaceKey c (BitVec.ofNat 2 j.sspace) j.src + i) m⟩) (a := spaceKey c (BitVec.ofNat 2 j.dspace) j.dst) (n := j.len)
    hbad j.len s.takeFree (spaceKey c (BitVec.ofNat 2 j.dspace) j.dst) (s.mem.read (spaceKey c (BitVec.ofNat 2 j.sspace) j.src) j.len) 0
    (by rw [hlen]) (Nat.le_refl _) (by rw [hlen]) (by rw [hlen]; omega) (oneSize_spaceKey hdst) hcd
  have hwrite : s.takeFree.copyWrite c j ⟨0, s.mem.read (spaceKey c (BitVec.ofNat 2 j.sspace) j.src) j.len,
      fun i m => s.poisoned (spaceKey c (BitVec.ofNat 2 j.sspace) j.src + i) m⟩ = ((s.takeFree.putMem (spaceKey c (BitVec.ofNat 2 j.dspace) j.dst)
      (s.mem.read (spaceKey c (BitVec.ofNat 2 j.sspace) j.src) j.len)).staleLines (spaceKey c (BitVec.ofNat 2 j.dspace) j.dst) j.len, 0) := by
    rw [State.copyWrite]
    dsimp only
    rw [if_pos (by omega), if_neg (by rw [show s.takeFree.inReplica _ _ = false from hrepl]; exact Bool.false_ne_true), hlen, hput]
  have hkey : s.takeFree.copyKey c j = some (spaceKey c (BitVec.ofNat 2 j.dspace) j.dst) := if_pos (by omega)
  have hsign : (if j.dspace = 0 then s.takeFree else s.takeFree.sign c (s.takeFree.spaceAddr c (BitVec.ofNat 2 j.dspace) j.dst)
      (s.mem.read (spaceKey c (BitVec.ofNat 2 j.sspace) j.src) j.len)) = s.takeFree := by
    split_ifs
    · rfl
    · exact State.sign_of_not_holds (s := s.takeFree) hholds ..
  have hbad0 : s.poisoned (spaceKey c (BitVec.ofNat 2 j.sspace) j.src + 0) j.len = false := hbad 0 j.len (by omega)
  rw [State.copyMove]
  simp only [hgs, hgd, decide_eq_false (show ¬j.sspace = 3 by omega), decide_eq_false (show ¬j.dspace = 3 by omega), Bool.false_and, Bool.and_false,
    Bool.false_eq_true, if_false, hread, if_pos (show j.sspace ≠ 3 by omega), touch_of_clean hcs, hsign, hwrite, hkey, hlen, hlost, hbad0, State.copyEndDone,
    bne_self_eq_false, Bool.or_self, State.copyEnds, State.copyMark, hmark]

end

/-- Settles O18. -/
theorem copyLandingMovesAndCounts : Obligations.CopyLandingMovesAndCounts := by
  intro c n net j s hj hs3 hd3 hstage hafter hmark hgs hgd hwf hdead hset hwait hholds _ _ _ _ hsrc hdst hcs hcd hrepl htile
  obtain ⟨hrels, -, hra⟩ := hset
  have hpeek : s.peek (spaceKey c (BitVec.ofNat 2 j.sspace) j.src) j.len = s.mem.read (spaceKey c (BitVec.ofNat 2 j.sspace) j.src) j.len := by
    refine peek_spaceKey hsrc fun o ho h1 => htile o ho ?_
    have := congrArg BitVec.toNat h1
    simp at this
    omega
  have hexec := copyLanding_moves (net := net) hj (by omega) (by omega) hstage hafter hdead hra
  rw [copyMove_local hs3 hd3 hmark hgs hgd hholds hpeek hsrc hdst hcs hcd hrepl] at hexec
  have hstale := staleLines_ra (s.takeFree.putMem (spaceKey c (BitVec.ofNat 2 j.dspace) j.dst)
    (s.mem.read (spaceKey c (BitVec.ofNat 2 j.sspace) j.src) j.len)) (spaceKey c (BitVec.ofNat 2 j.dspace) j.dst) j.len c.tract hra
  obtain ⟨fs, hfs⟩ := (s.takeFree.putMem (spaceKey c (BitVec.ofNat 2 j.dspace) j.dst)
    (s.mem.read (spaceKey c (BitVec.ofNat 2 j.sspace) j.src) j.len)).staleLines_eq (spaceKey c (BitVec.ofNat 2 j.dspace) j.dst) j.len
  rw [hfs] at hexec hstale
  rw [copyCount_idle (by exact hrels) (by exact hwait) (by exact hstale)] at hexec
  have hget (m : BitVec 3) := Core.getAc_setAc ({ s.core c with copies := dropIdx (s.core c).copies n } : Core) j.ac m ((s.core c).getAc j.ac + 1)
  refine ⟨_, hexec, fun x => putMem_stored (s := s) hwf x, ?_⟩
  rw [State.core_setCore_self]
  exact ⟨rfl, (hget j.ac).trans (if_pos rfl), fun m hm => (hget m).trans (if_neg hm), rfl, rfl, rfl, rfl⟩

end Sys2Proof.Machine
end

section
/-!
PROOFS (O21, O22, O23). The TILE class and the tile list unit: TAKE, STEAL and DONE (R53, R166 to R177).
-/
namespace Sys2Proof.Machine
open Sys2Proof.Claims

/-! A core's held record. -/

section
variable {κ υ : Type} [DecidableEq κ]

theorem AMap.find?_put (m : AMap κ υ) (k : κ) (v : υ) : (m.put k v).find? (fun q => decide (q.1 = k)) = some (k, v) := by
  induction m with
  | nil => simp [AMap.put]
  | cons q m ih =>
    obtain ⟨k', v'⟩ := q
    by_cases h : k' = k
    · simp [AMap.put, h]
    · simp only [AMap.put, if_neg h, List.find?_cons, decide_eq_false h]
      exact ih

theorem AMap.any_erase (m : AMap κ υ) (k : κ) : (m.erase k).any (fun q => decide (q.1 = k)) = false := by
  simp [AMap.erase]

end

section
variable {s : State} {c : CoreId} {gd : BitVec 5} {pd : BitVec 3} {h : Held}

theorem State.parcel_setCore (s : State) (c : CoreId) (k : Core) (p : ParcelId) : (s.setCore c k).parcel p = s.parcel p := rfl

/-- A parcel with a core's record held. -/
def Parcel.holding (v : Parcel) (n : CoreNo) (h : Held) : Parcel := { v with held := v.held.put n h }

/-- The registers that a returned entry writes, and the step behind the instruction (R53, R176). -/
def Core.gotTile (k : Core) (gd : BitVec 5) (pd : BitVec 3) (d : BitVec 128) : Core :=
  (((List.range 4).foldl (fun (k : Core) j => k.putG (gd + BitVec.ofNat 5 j) (d.extractLsb' (32 * j) 32)) { k with tsig := 0 }).setP pd true).retire 4

/-- An entry returned to a core that holds no tile: its registers, and its parcel's held record (R176). -/
theorem tileReturn_eq (hholds : s.holds c = false) :
    s.tileReturn c gd pd h = (s.modParcel (coreParcel c) (fun v => v.holding c.core h)).setCore c ((s.core c).gotTile gd pd h.desc) := by
  have hset : s.setHeld c h = (s.modParcel (coreParcel c) (fun v => v.holding c.core h)).setCore c { s.core c with tsig := 0 } := by
    rw [State.setHeld, hholds, if_neg Bool.false_ne_true]
    rfl
  rw [State.tileReturn, hset, State.setCore_modCore]
  rfl

theorem putG_getG_fun (k : Core) (r : BitVec 5) (v : Word) : (k.putG r v).getG = wroteAt k.getG r v := getG_setG_fun (k.supersede (.g r)) r v

theorem gotTile_getG (k : Core) (gd : BitVec 5) (pd : BitVec 3) (d : BitVec 128) : (k.gotTile gd pd d).getG =
    (List.range 4).foldl (fun G j => wroteAt G (gd + BitVec.ofNat 5 j) (d.extractLsb' (32 * j) 32)) k.getG := by
  obtain ⟨p, hp⟩ := Core.setP_eq ((List.range 4).foldl (fun (k : Core) j => k.putG (gd + BitVec.ofNat 5 j) (d.extractLsb' (32 * j) 32)) { k with tsig := 0 }) pd true
  rw [Core.gotTile, hp]
  show (((((({ k with tsig := 0 } : Core).putG (gd + BitVec.ofNat 5 0) (d.extractLsb' (32 * 0) 32)).putG (gd + BitVec.ofNat 5 1) (d.extractLsb' (32 * 1) 32)).putG
    (gd + BitVec.ofNat 5 2) (d.extractLsb' (32 * 2) 32)).putG (gd + BitVec.ofNat 5 3) (d.extractLsb' (32 * 3) 32))).getG = _
  rw [putG_getG_fun, putG_getG_fun, putG_getG_fun, putG_getG_fun]
  rfl

theorem putG_eq (k : Core) (r : BitVec 5) (v : Word) : ∃ g ls ar, k.putG r v = { k with g := g, loads := ls, arr := ar } := by
  obtain ⟨g, hg⟩ := Core.setG_eq (k.supersede (.g r)) r v
  exact ⟨g, _, _, hg⟩

theorem gotTile_frame (k : Core) (gd : BitVec 5) (pd : BitVec 3) (d : BitVec 128) :
    (k.gotTile gd pd d).a = k.a ∧ (k.gotTile gd pd d).getP pd = true ∧ (∀ q, q ≠ pd → (k.gotTile gd pd d).getP q = k.getP q) ∧
      (k.gotTile gd pd d).pc = k.pc + 4 ∧ (k.gotTile gd pd d).wait = none ∧ (k.gotTile gd pd d).tsig = 0 := by
  have hregs : ∃ g ls ar, (List.range 4).foldl (fun (k : Core) j => k.putG (gd + BitVec.ofNat 5 j) (d.extractLsb' (32 * j) 32)) ({ k with tsig := 0 } : Core) =
      { k with tsig := 0, g := g, loads := ls, arr := ar } := by
    refine List.foldlRecOn (motive := fun (k' : Core) => ∃ g ls ar, k' = { k with tsig := 0, g := g, loads := ls, arr := ar }) (List.range 4) _
      ⟨k.g, k.loads, k.arr, rfl⟩ ?_
    rintro k' ⟨g, ls, ar, rfl⟩ j _
    obtain ⟨g', ls', ar', hput⟩ := putG_eq { k with tsig := 0, g := g, loads := ls, arr := ar } (gd + BitVec.ofNat 5 j) (d.extractLsb' (32 * j) 32)
    exact ⟨g', ls', ar', hput⟩
  obtain ⟨g, ls, ar, hregs⟩ := hregs
  have hp (q : BitVec 3) := Core.getP_setP { k with tsig := 0, g := g, loads := ls, arr := ar } pd q true
  obtain ⟨p, hset⟩ := Core.setP_eq { k with tsig := 0, g := g, loads := ls, arr := ar } pd true
  rw [Core.gotTile, hregs]
  refine ⟨by rw [hset]; rfl, ?_, fun q hq => (hp q).trans (if_neg hq), by rw [hset]; rfl, by rw [hset]; rfl, by rw [hset]; rfl⟩
  refine (hp pd).trans ?_
  rw [if_pos rfl]
  split_ifs <;> rfl

/-- What a returned entry leaves, of a state in which its core and its parcel's held record are those of tileReturn. -/
theorem gotTile_of {t : State} {d : BitVec 128} (hgd : gd.toNat % 4 = 0) (h0 : gd ≠ 0) {k : Core} (hcore : t.core c = k.gotTile gd pd d)
    (hk : k.getG = (s.core c).getG ∧ k.a = (s.core c).a ∧ k.getP = (s.core c).getP ∧ k.pc = (s.core c).pc) {m : AMap CoreNo Held}
    (hheld : (t.parcel (coreParcel c)).held = m.put c.core h) (hd : h.desc = d) : GotTile s t c gd pd d := by
  obtain ⟨hG, hA, hP, hPC⟩ := hk
  obtain ⟨ha, hpd, hp, hpc, hwait, htsig⟩ := gotTile_frame k gd pd d
  obtain ⟨hquad, hrest⟩ := quad_wroteAt k.getG gd (fun j => d.extractLsb' (32 * j) 32) hgd h0
  rw [GotTile, hcore, gotTile_getG]
  refine ⟨hquad, fun r hr => (hrest r hr).trans (by rw [hG]), ha.trans hA, hpd, fun q hq => (hp q hq).trans (by rw [hP]), hpc.trans (by rw [hPC]), hwait, htsig,
    h, ?_, hd⟩
  rw [hheld]
  exact AMap.find?_put m c.core h

/-- What an operation without an entry leaves. -/
theorem gotNone_of {t : State} {k : Core} (hcore : t.core c = (k.setP pd false).retire 4)
    (hk : k.g = (s.core c).g ∧ k.a = (s.core c).a ∧ k.getP = (s.core c).getP ∧ k.pc = (s.core c).pc) : GotNone s t c pd := by
  obtain ⟨hG, hA, hP, hPC⟩ := hk
  have hp (q : BitVec 3) := Core.getP_setP k pd q false
  obtain ⟨p, hset⟩ := Core.setP_eq k pd false
  rw [GotNone, hcore]
  refine ⟨by rw [hset]; exact hG, by rw [hset]; exact hA, ?_, fun q hq => (hp q).trans ((if_neg hq).trans (by rw [hP])), by rw [hset, ← hPC]; rfl, by rw [hset]; rfl⟩
  refine (hp pd).trans ?_
  rw [if_pos rfl]
  by_cases h0 : pd = 0 <;> simp [h0]

end

/-! TAKE (R53, R169, R170, R176). -/

section
variable {s : State} {c : CoreId} {gd : BitVec 5} {pd : BitVec 3}

theorem takeRetry_none (hretries : (s.parcel (coreParcel c)).retries = []) (haudits : (s.parcel (coreParcel c)).audits = []) : s.takeRetry c = none := by
  simp only [State.takeRetry, hretries, haudits, List.find?_nil]

theorem auditTake_none {d : BitVec 128} (h : bitOf (s.plotReg (coreParcel c) .plotRel) 1 = false) : s.auditTake c d = (s, none) := by
  rw [State.auditTake, h]
  rfl

/-- A change of a parcel's record that keeps its plot leaves the plot's registers. -/
theorem plotReg_modParcel {p : ParcelId} {f : Parcel → Parcel} (hf : (f (s.parcel p)).plot = (s.parcel p).plot) (q : ParcelId) (r : RegName) :
    (s.modParcel p f).plotReg q r = s.plotReg q r := by
  have hplot : ((s.modParcel p f).parcel q).plot = (s.parcel q).plot := by
    rw [State.parcel_modParcel]
    split
    next hq => subst hq; exact hf
    next => rfl
  simp only [State.plotReg, hplot]
  rfl

theorem holds_modParcel {p : ParcelId} {f : Parcel → Parcel} (hf : (f (s.parcel p)).held = (s.parcel p).held) : (s.modParcel p f).holds c = s.holds c := by
  rw [State.holds, State.holds, State.parcel_modParcel]
  split
  next hq => rw [hf, ← hq]
  next => rfl

/-- The list operation of a TAKE that finds an undamaged entry at the head of its list. -/
theorem takeOp_head {e : TileEntry} {rest : List TileEntry} (hretries : (s.parcel (coreParcel c)).retries = [])
    (haudits : (s.parcel (coreParcel c)).audits = []) (hplot : bitOf (s.plotReg (coreParcel c) .plotRel) 1 = false) (hholds : s.holds c = false)
    (htiles : (s.parcel (coreParcel c)).tiles = e :: rest) (he : e.bad = false) : s.takeOp c gd pd =
      ((s.modParcel (coreParcel c) (fun v => { v with tiles := rest })).modParcel (coreParcel c)
        (fun v => v.holding c.core { desc := e.bytes, first := none, audit := none })).setCore c ((s.core c).gotTile gd pd e.bytes) := by
  have haudit : (s.modParcel (coreParcel c) (fun v => { v with tiles := rest })).auditTake c e.bytes =
      (s.modParcel (coreParcel c) (fun v => { v with tiles := rest }), none) :=
    auditTake_none (by rw [plotReg_modParcel (f := fun v => { v with tiles := rest }) rfl]; exact hplot)
  have hholds' : (s.modParcel (coreParcel c) (fun v => { v with tiles := rest })).holds c = false := (holds_modParcel rfl).trans hholds
  have hhead : takeHead (e :: rest) 0 = (some e, rest, 0) := by rw [takeHead, he, if_neg Bool.false_ne_true]
  rw [State.takeOp, takeRetry_none hretries haudits]
  dsimp only
  rw [htiles, hhead]
  dsimp only
  rw [State.tileParities, haudit]
  exact tileReturn_eq hholds'

/-- The list operation of a TAKE that finds its list empty. -/
theorem takeOp_empty (hretries : (s.parcel (coreParcel c)).retries = []) (haudits : (s.parcel (coreParcel c)).audits = [])
    (htiles : (s.parcel (coreParcel c)).tiles = []) : s.takeOp c gd pd =
      (s.modParcel (coreParcel c) (fun v => { v with tiles := [] })).setCore c (((s.core c).setP pd false).retire 4) := by
  rw [State.takeOp, takeRetry_none hretries haudits]
  dsimp only
  rw [htiles]
  rfl

theorem tileListOperation_eq {steal : Bool} (hwait : (s.core c).wait = some (.tile steal gd pd)) :
    exec (.tileListOperation c) s = .next (if steal then s.stealOp c gd pd (s.core c).steal 4 else s.takeOp c gd pd) := by
  refine congrArg Host.Outcome.next ?_
  rw [hwait]

/-- What the list operation of a core that waits in TAKE does with an undamaged head. -/
theorem takeOp_got {k : Core} {u : State} {e : TileEntry} {rest : List TileEntry} (hgd : gd.toNat % 4 = 0) (h0 : gd ≠ 0)
    (hretries : (s.parcel (coreParcel c)).retries = []) (haudits : (s.parcel (coreParcel c)).audits = [])
    (hplot : bitOf (s.plotReg (coreParcel c) .plotRel) 1 = false) (hholds : s.holds c = false)
    (htiles : (s.parcel (coreParcel c)).tiles = e :: rest) (he : e.bad = false)
    (hk : (s.core c) = k) (hu : k.getG = (u.core c).getG ∧ k.a = (u.core c).a ∧ k.getP = (u.core c).getP ∧ k.pc = (u.core c).pc) :
    GotTile u (s.takeOp c gd pd) c gd pd e.bytes ∧ ((s.takeOp c gd pd).parcel (coreParcel c)).tiles = rest ∧ (s.takeOp c gd pd).mem = s.mem ∧
      ∀ c', c' ≠ c → (s.takeOp c gd pd).core c' = s.core c' := by
  have hparcel : ((s.takeOp c gd pd).parcel (coreParcel c)) =
      ({ s.parcel (coreParcel c) with tiles := rest } : Parcel).holding c.core { desc := e.bytes, first := none, audit := none } := by
    rw [takeOp_head hretries haudits hplot hholds htiles he]
    rw [State.parcel_setCore, State.parcel_modParcel, if_pos rfl, State.parcel_modParcel, if_pos rfl]
  have hcore : (s.takeOp c gd pd).core c = k.gotTile gd pd e.bytes := by
    rw [takeOp_head hretries haudits hplot hholds htiles he, State.core_setCore_self, hk]
  refine ⟨gotTile_of hgd h0 hcore hu (by rw [hparcel]; rfl) rfl, by rw [hparcel]; rfl, ?_, fun c' hc' => ?_⟩
  · rw [takeOp_head hretries haudits hplot hholds htiles he]
    rfl
  · rw [takeOp_head hretries haudits hplot hholds htiles he, State.core_setCore, if_neg hc']
    rfl

theorem takeOp_none {k : Core} {u : State} (hretries : (s.parcel (coreParcel c)).retries = []) (haudits : (s.parcel (coreParcel c)).audits = [])
    (htiles : (s.parcel (coreParcel c)).tiles = [])
    (hk : (s.core c) = k) (hu : k.g = (u.core c).g ∧ k.a = (u.core c).a ∧ k.getP = (u.core c).getP ∧ k.pc = (u.core c).pc) :
    GotNone u (s.takeOp c gd pd) c pd ∧ ((s.takeOp c gd pd).parcel (coreParcel c)).tiles = [] ∧ (s.takeOp c gd pd).mem = s.mem ∧
      ∀ c', c' ≠ c → (s.takeOp c gd pd).core c' = s.core c' := by
  rw [takeOp_empty hretries haudits htiles]
  refine ⟨gotNone_of (State.core_setCore_self ..) (by rw [hk]; exact hu), ?_, rfl, fun c' hc' => ?_⟩
  · rw [State.parcel_setCore, State.parcel_modParcel, if_pos rfl]
  · rw [State.core_setCore, if_neg hc']
    rfl

end

theorem fmtTBad_of {f : FmtT} (hgd : f.gd.toNat % 4 = 0) (h0 : f.gd ≠ 0) (hres : f.reserved = 0) : fmtTBad f = false := by
  have hne : f.gd.toNat ≠ 0 := fun e => h0 (BitVec.eq_of_toNat_eq e)
  simp [fmtTBad, quadBad, hgd, hne, hres]

theorem State.orPlotNone_of_plot {s : State} {c : CoreId} {act : State → State} (h : (s.parcel (coreParcel c)).plot ≠ none) : s.orPlotNone c act = act s := by
  rw [State.orPlotNone, if_neg (by simpa using h)]

/-- Settles O22. -/
theorem takeTakesTheHead : Obligations.TakeTakesTheHead := by
  constructor
  · intro i f s hgd h0 hres h hs hplot hretries haudits hrel hholds
    obtain ⟨ib, hib⟩ := s.noteFetch_eq i 4
    have hexec : exec (.take i f) s = .next (s.setCore i.core { s.core i.core with ibuf := ib, wait := some (.tile false f.gd f.pd) }) := by
      refine (State.asSpelled_of_spells hs).trans (congrArg _ ?_)
      rw [fmtTBad_of hgd h0 hres, issue_of_ready h, hib, State.orPlotNone_of_plot (s := s.setCore i.core { s.core i.core with ibuf := ib }) hplot, State.stallAt_fetched]
    have hcore : (s.setCore i.core { s.core i.core with ibuf := ib, wait := some (.tile false f.gd f.pd) }).core i.core =
      { s.core i.core with ibuf := ib, wait := some (.tile false f.gd f.pd) } := State.core_setCore_self ..
    have hop := tileListOperation_eq (s := s.setCore i.core { s.core i.core with ibuf := ib, wait := some (.tile false f.gd f.pd) }) (c := i.core) (by rw [hcore])
    have hother (c' : CoreId) (hc' : c' ≠ i.core) : (s.setCore i.core { s.core i.core with ibuf := ib, wait := some (.tile false f.gd f.pd) }).core c' =
      s.core c' := by rw [State.core_setCore, if_neg hc']
    refine ⟨fun e rest htiles he => ?_, fun htiles => ?_⟩
    · obtain ⟨hgot, hrest, hmem, hcores⟩ := takeOp_got (u := s) hgd h0 (s := s.setCore i.core { s.core i.core with ibuf := ib, wait := some (.tile false f.gd f.pd) }) (pd := f.pd) hretries haudits hrel hholds htiles he hcore ⟨rfl, rfl, rfl, rfl⟩
      exact ⟨_, _, hexec, waitsAt_setCore .., hop, hgot, hrest, hmem, fun c' hc' => (hcores c' hc').trans (hother c' hc')⟩
    · obtain ⟨hgot, hrest, hmem, hcores⟩ := takeOp_none (u := s) (s := s.setCore i.core { s.core i.core with ibuf := ib, wait := some (.tile false f.gd f.pd) }) (gd := f.gd) (pd := f.pd) hretries haudits htiles hcore ⟨rfl, rfl, rfl, rfl⟩
      exact ⟨_, _, hexec, waitsAt_setCore .., hop, hgot, hrest, hmem, fun c' hc' => (hcores c' hc').trans (hother c' hc')⟩
  · intro c gd pd s hwait hgd h0 hretries haudits hrel
    have hop := tileListOperation_eq hwait
    refine ⟨fun e rest htiles he hholds => ?_, fun htiles => ?_⟩
    · obtain ⟨hgot, hrest, hmem, -⟩ := takeOp_got (u := s) (pd := pd) hgd h0 hretries haudits hrel hholds htiles he rfl ⟨rfl, rfl, rfl, rfl⟩
      exact ⟨_, hop, hgot, hrest, hmem⟩
    · obtain ⟨hgot, hrest, hmem, -⟩ := takeOp_none (u := s) (gd := gd) (pd := pd) hretries haudits htiles rfl ⟨rfl, rfl, rfl, rfl⟩
      exact ⟨_, hop, hgot, hrest, hmem⟩

/-! STEAL (R53, R171 to R173). -/

section
variable {s : State} {c : CoreId} {gd : BitVec 5} {pd : BitVec 3}

theorem ceilDiv_two (n : Nat) : ceilDiv n 2 = (n + 1) / 2 := by
  rw [ceilDiv]
  omega

/-- A parcel's record without the last h entries of its list. -/
def Parcel.withoutTail (v : Parcel) (h : Nat) : Parcel :=
  { v with tiles := v.tiles.take (v.tiles.length - h), moved := (v.moved + (v.tiles.drop (v.tiles.length - h)).length) % 65536 }

theorem moveTail_of_sound {v : ParcelId} (h : Nat) (hsound : ∀ x ∈ (s.parcel v).tiles, x.bad = false) :
    s.moveTail v h = (s.modParcel v (fun _ => (s.parcel v).withoutTail h), (s.parcel v).tiles.drop ((s.parcel v).tiles.length - h)) := by
  have hgood : ((s.parcel v).tiles.drop ((s.parcel v).tiles.length - h)).filter (fun e => !e.bad) = (s.parcel v).tiles.drop ((s.parcel v).tiles.length - h) :=
    List.filter_eq_self.mpr fun x hx => by rw [hsound x (List.mem_of_mem_drop hx)]; rfl
  rw [State.moveTail, hgood, Nat.sub_self]
  rfl

/-- Sleepers that look at their conditions again leave memory, the parcels, and a core that does not wait. -/
theorem wakeSleepers_spares (p : ParcelId) (hwait : (s.core c).wait = none) :
    s.Spares (s.wakeSleepers p) c ∧ (s.wakeSleepers p).parcels = s.parcels := by
  refine List.foldlRecOn (motive := fun t => s.Spares t c ∧ t.parcels = s.parcels) (s.coresOf p) State.sleepCheck ⟨.refl s c, rfl⟩ ?_
  rintro t ⟨hspares, hparcels⟩ c' _
  refine ⟨hspares.trans (State.sleepCheck_spares t c' (by rw [hspares.2]; exact hwait)), ?_⟩
  rw [← hparcels]
  unfold State.sleepCheck
  split
  · dsimp only
    split <;> rfl
  · rfl

theorem gotTile_wait (k : Core) (gd : BitVec 5) (pd : BitVec 3) (d : BitVec 128) : (k.gotTile gd pd d).wait = none :=
  (gotTile_frame k gd pd d).2.2.2.2.1

/-- Entries appended to the list of a parcel leave memory and a core that does not wait; of the parcels they change its own record's list. -/
theorem tileAppend_spares (p : ParcelId) (es : List TileEntry) (hwait : (s.core c).wait = none) :
    s.Spares (s.tileAppend p es) c ∧ ((s.tileAppend p es).parcel p).tiles = (s.parcel p).tiles ++ es ∧
      ((s.tileAppend p es).parcel p).held = (s.parcel p).held ∧ ∀ q, q ≠ p → (s.tileAppend p es).parcel q = s.parcel q := by
  obtain ⟨hspares, hparcels⟩ := wakeSleepers_spares (s := s.modParcel p (fun v =>
    { v with tiles := v.tiles ++ es, tileLow := if es.isEmpty then v.tileLow else min v.tileLow (tileBase (s.layout p.tract)) })) (c := c) p hwait
  have hparcel (q : ParcelId) : (s.tileAppend p es).parcel q = (s.modParcel p (fun v =>
      { v with tiles := v.tiles ++ es, tileLow := if es.isEmpty then v.tileLow else min v.tileLow (tileBase (s.layout p.tract)) })).parcel q := by
    rw [State.parcel, State.parcel, State.tileAppend, hparcels]
  refine ⟨hspares, ?_, ?_, fun q hq => ?_⟩
  · rw [hparcel, State.parcel_modParcel, if_pos rfl]
  · rw [hparcel, State.parcel_modParcel, if_pos rfl]
  · rw [hparcel, State.parcel_modParcel, if_neg hq]

/-- A neighbour's stolen tail: the state before the entries after the first are appended. -/
def State.stolen (s : State) (c : CoreId) (gd : BitVec 5) (pd : BitVec 3) (dir : BitVec 2) (v : ParcelId) (h : Nat) (e : TileEntry) : State :=
  ((s.modParcel v (fun _ => (s.parcel v).withoutTail h)).modParcel (coreParcel c)
    (fun v => v.holding c.core { desc := e.bytes, first := none, audit := none })).setCore c (({ s.core c with steal := dir } : Core).gotTile gd pd e.bytes)

/-- The state in which the tail has left the neighbour and the pointer is set. -/
def State.afterTail (s : State) (c : CoreId) (dir : BitVec 2) (v : ParcelId) (h : Nat) : State :=
  (s.modParcel v (fun _ => (s.parcel v).withoutTail h)).setCore c { (s.modParcel v (fun _ => (s.parcel v).withoutTail h)).core c with steal := dir }

theorem stealOp_finds {dir : BitVec 2} {v : ParcelId} {e : TileEntry} {rest : List TileEntry} (n : Nat)
    (hv : s.neighbour (coreParcel c) dir.toNat = some v) (hplot : bitOf (s.plotReg (coreParcel c) .plotRel) 1 = false) (hholds : s.holds c = false)
    (hsound : ∀ x ∈ (s.parcel v).tiles, x.bad = false) (htail : 0 < stealTail (s.parcel v).tiles)
    (hes : (s.parcel v).tiles.drop ((s.parcel v).tiles.length - min ((stealTail (s.parcel v).tiles + 1) / 2) (s.tileFree (coreParcel c) + 1)) = e :: rest) :
    s.stealOp c gd pd dir (n + 1) =
      (s.stolen c gd pd dir v (min ((stealTail (s.parcel v).tiles + 1) / 2) (s.tileFree (coreParcel c) + 1)) e).tileAppend (coreParcel c) rest := by
  rw [State.stealOp]
  dsimp only
  rw [hv]
  dsimp only
  rw [if_neg (Nat.ne_of_gt htail), ceilDiv_two, moveTail_of_sound _ hsound]
  dsimp only
  rw [hes]
  dsimp only
  generalize min ((stealTail (s.parcel v).tiles + 1) / 2) (s.tileFree (coreParcel c) + 1) = h
  have hplot' : bitOf ((s.afterTail c dir v h).plotReg (coreParcel c) .plotRel) 1 = false :=
    (congrArg (bitOf · 1) (plotReg_modParcel (s := s) (p := v) (f := fun _ => (s.parcel v).withoutTail h) rfl ..)).trans hplot
  have hholds' : (s.afterTail c dir v h).holds c = false :=
    (holds_modParcel (s := s) (p := v) (f := fun _ => (s.parcel v).withoutTail h) rfl).trans hholds
  rw [State.modCore_eq, ← State.afterTail, auditTake_none hplot', tileReturn_eq hholds', State.afterTail, State.core_setCore_self]
  exact congrArg (fun t : State => t.tileAppend (coreParcel c) rest) (State.setCore_setCore ((s.modParcel v (fun _ => (s.parcel v).withoutTail h)).modParcel
    (coreParcel c) (fun v => v.holding c.core { desc := e.bytes, first := none, audit := none })) c { s.core c with steal := dir }
    (({ s.core c with steal := dir } : Core).gotTile gd pd e.bytes))

/-- A neighbour's tail, moved: the first entry to the core, the others behind the parcel's own, and none lost (R172). -/
theorem stealOp_conserves {k : Core} {u : State} {dir : BitVec 2} {v : ParcelId} {e : TileEntry} {rest : List TileEntry} (n : Nat)
    (hgd : gd.toNat % 4 = 0) (h0 : gd ≠ 0)
    (hv : s.neighbour (coreParcel c) dir.toNat = some v) (hne : v ≠ coreParcel c) (hplot : bitOf (s.plotReg (coreParcel c) .plotRel) 1 = false)
    (hholds : s.holds c = false) (hsound : ∀ x ∈ (s.parcel v).tiles, x.bad = false) (htail : 0 < stealTail (s.parcel v).tiles)
    (hes : (s.parcel v).tiles.drop ((s.parcel v).tiles.length - min ((stealTail (s.parcel v).tiles + 1) / 2) (s.tileFree (coreParcel c) + 1)) = e :: rest)
    (hk : s.core c = k) (hu : k.getG = (u.core c).getG ∧ k.a = (u.core c).a ∧ k.getP = (u.core c).getP ∧ k.pc = (u.core c).pc) :
    GotTile u (s.stealOp c gd pd dir (n + 1)) c gd pd e.bytes ∧ ((s.stealOp c gd pd dir (n + 1)).parcel v).tiles ++ e :: rest = (s.parcel v).tiles ∧
      ((s.stealOp c gd pd dir (n + 1)).parcel (coreParcel c)).tiles = (s.parcel (coreParcel c)).tiles ++ rest ∧ (s.stealOp c gd pd dir (n + 1)).mem = s.mem := by
  rw [stealOp_finds n hv hplot hholds hsound htail hes]
  obtain ⟨⟨hmem, hcore⟩, htiles, hheld, hother⟩ := tileAppend_spares (c := c)
    (s := s.stolen c gd pd dir v (min ((stealTail (s.parcel v).tiles + 1) / 2) (s.tileFree (coreParcel c) + 1)) e) (coreParcel c) rest
    (by rw [State.stolen, State.core_setCore_self, gotTile_wait])
  refine ⟨gotTile_of (k := { k with steal := dir }) hgd h0 ?_ hu (m := (s.parcel (coreParcel c)).held)
    (h := { desc := e.bytes, first := none, audit := none }) ?_ rfl, ?_, ?_, hmem⟩
  · rw [hcore, State.stolen, State.core_setCore_self, hk]
  · rw [hheld, State.stolen, State.parcel_setCore, State.parcel_modParcel, if_pos rfl, State.parcel_modParcel, if_neg (Ne.symm hne)]
    rfl
  · rw [hother v hne, State.stolen, State.parcel_setCore, State.parcel_modParcel, if_neg hne, State.parcel_modParcel, if_pos rfl, ← hes]
    exact List.take_append_drop ..
  · rw [htiles, State.stolen, State.parcel_setCore, State.parcel_modParcel, if_pos rfl, State.parcel_modParcel, if_neg (Ne.symm hne)]
    rfl

/-- Where no neighbour has a stealable tail, whatever directions are still to try. -/
theorem stealOp_none (hnone : ∀ d v, s.neighbour (coreParcel c) d = some v → stealTail (s.parcel v).tiles = 0) (n : Nat) :
    ∀ dir, s.stealOp c gd pd dir n = (s.modCore c (fun k => { k with steal := k.steal + 1 })).tileNone c pd := by
  induction n with
  | zero => intro dir; rfl
  | succ n ih =>
    intro dir
    rw [State.stealOp]
    dsimp only
    split
    next => exact ih _
    next v hv => rw [if_pos (hnone _ v hv), ih]

end

theorem exec_steal {i : Issue} {f : FmtT} {s : State} (hgd : f.gd.toNat % 4 = 0) (h0 : f.gd ≠ 0) (hres : f.reserved = 0) (h : Ready s i 4 [])
    (hs : s.spells i (.steal i f) = true) (hplot : (s.parcel (coreParcel i.core)).plot ≠ none) :
    ∃ ib, exec (.steal i f) s = .next (if bitOf (s.plotReg (coreParcel i.core) .plotCfg) 3
      then s.setCore i.core { s.core i.core with ibuf := ib, wait := some (.tile true f.gd f.pd) }
      else (s.setCore i.core { s.core i.core with ibuf := ib }).tileNone i.core f.pd) := by
  obtain ⟨ib, hib⟩ := s.noteFetch_eq i 4
  refine ⟨ib, (State.asSpelled_of_spells hs).trans (congrArg _ ?_)⟩
  rw [fmtTBad_of hgd h0 hres, issue_of_ready h, hib, State.orPlotNone_of_plot (s := s.setCore i.core { s.core i.core with ibuf := ib }) hplot]
  have hcfg : (s.setCore i.core { s.core i.core with ibuf := ib }).plotCfg (coreParcel i.core) = s.plotReg (coreParcel i.core) .plotCfg := rfl
  rw [hcfg]
  split
  · exact State.stallAt_fetched ..
  · rfl

/-- A parcel's neighbours depend on the parcels and on where they stand. -/
theorem neighbour_congr {s t : State} (hsite : t.site = s.site) (hspare : t.spareSite = s.spareSite) (hparcel : t.parcel = s.parcel) :
    t.neighbour = s.neighbour := by
  have hat : t.parcelAt = s.parcelAt := by
    funext tr x y
    unfold State.parcelAt
    rw [hsite, hspare, hparcel]
  funext p d
  unfold State.neighbour
  rw [hsite, hat, hparcel]

theorem neighbour_setCore (s : State) (c : CoreId) (k : Core) : (s.setCore c k).neighbour = s.neighbour := neighbour_congr rfl rfl rfl

theorem tileFree_setCore (s : State) (c : CoreId) (k : Core) (p : ParcelId) : (s.setCore c k).tileFree p = s.tileFree p := rfl

/-- Settles O23. -/
theorem stealConservesTiles : Obligations.StealConservesTiles := by
  constructor
  · intro i f s hgd h0 hres h hs hplot hsteal hrel hholds
    obtain ⟨ib, hexec⟩ := exec_steal hgd h0 hres h hs hplot
    rw [if_pos hsteal] at hexec
    have hcore : (s.setCore i.core { s.core i.core with ibuf := ib, wait := some (.tile true f.gd f.pd) }).core i.core =
      { s.core i.core with ibuf := ib, wait := some (.tile true f.gd f.pd) } := State.core_setCore_self ..
    have hop := tileListOperation_eq (s := s.setCore i.core { s.core i.core with ibuf := ib, wait := some (.tile true f.gd f.pd) }) (c := i.core) (by rw [hcore])
    have hptr : ((s.setCore i.core { s.core i.core with ibuf := ib, wait := some (.tile true f.gd f.pd) }).core i.core).steal = (s.core i.core).steal := by
      rw [hcore]
    rw [if_pos rfl, hptr] at hop
    refine ⟨fun v e rest hv hne hsound htail hes => ?_, fun hnone => ?_⟩
    · obtain ⟨hgot, hvt, hpt, hmem⟩ := stealOp_conserves (u := s) (pd := f.pd) (v := v) (dir := (s.core i.core).steal)
        (s := s.setCore i.core { s.core i.core with ibuf := ib, wait := some (.tile true f.gd f.pd) }) 3 hgd h0 (by rw [neighbour_setCore]; exact hv)
        hne hrel hholds hsound htail (by rw [tileFree_setCore]; exact hes) hcore ⟨rfl, rfl, rfl, rfl⟩
      exact ⟨_, _, hexec, waitsAt_setCore .., hop, hgot, hvt, hpt, hmem⟩
    · refine ⟨_, _, hexec, waitsAt_setCore .., hop, ?_⟩
      rw [stealOp_none (s := s.setCore i.core { s.core i.core with ibuf := ib, wait := some (.tile true f.gd f.pd) })
        (by rw [neighbour_setCore]; exact hnone), State.tileNone, State.modCore_eq,
        State.modCore_eq]
      exact ⟨gotNone_of (State.core_setCore_self ..) (by rw [State.core_setCore_self, hcore]; exact ⟨rfl, rfl, rfl, rfl⟩), rfl, rfl⟩
  · intro c gd pd v e rest s hwait hgd h0 hrel hv hne hholds hsound htail hes
    have hop := tileListOperation_eq hwait
    rw [if_pos rfl] at hop
    obtain ⟨hgot, hvt, hpt, hmem⟩ := stealOp_conserves (u := s) (pd := pd) 3 hgd h0 hv hne hrel hholds hsound htail hes rfl ⟨rfl, rfl, rfl, rfl⟩
    exact ⟨_, hop, hgot, hvt, hpt, hmem⟩

/-! DONE (R53, R177). -/

section
variable {s : State} {c : CoreId}

theorem State.sleepCheck_parcels (s : State) (c' : CoreId) : (s.sleepCheck c').parcels = s.parcels := by
  unfold State.sleepCheck
  split
  · dsimp only
    split <;> rfl
  · rfl

theorem State.answer_parcels (s : State) (src : RemoteSrc) (r : Response) : (s.answer src r).parcels = s.parcels := by
  cases src with
  | agent t gen => rfl
  | link m p =>
    obtain ⟨regs, links, host, out, h⟩ := State.sendResponse_traffic s p (rspMsg m r)
    rw [State.answer, h]

/-- The release of a mark's waiters takes no core's record (R284). -/
theorem State.releaseWaiters_held (s : State) (p : ParcelId) (n : BitVec 10) (q : ParcelId) :
    ((s.releaseWaiters p n).parcel q).held = (s.parcel q).held := by
  have hparcels {t u : State} (h : u.parcels = t.parcels) : (u.parcel q).held = (t.parcel q).held := by rw [State.parcel, State.parcel, h]
  unfold State.releaseWaiters
  dsimp only
  generalize hF : List.foldl _ s (s.coresOf p) = F
  have hcores : F.parcels = s.parcels := by
    rw [← hF]
    refine List.foldlRecOn (motive := fun (t : State) => t.parcels = s.parcels) _ _ rfl fun t ht c' _ => ?_
    split
    · split
      · exact (State.sleepCheck_parcels ..).trans ht
      · exact ht
    · exact ht
  have hanswer (G : State) (rs : List RemoteWait) : (rs.foldl (fun s r => s.answer r.src okResponse) G).parcels = G.parcels :=
    List.foldlRecOn (motive := fun (t : State) => t.parcels = G.parcels) _ _ rfl fun t ht r _ => (State.answer_parcels ..).trans ht
  refine (hparcels (hanswer _ _)).trans ?_
  rw [State.parcel_modParcel]
  split
  next hq => subst hq; exact hparcels hcores
  next => exact hparcels hcores

/-- A held addition that is made takes no core's record (R51, R176). -/
theorem State.settle_one_held {r : HeldRel} (hrels : (s.core c).rels = [r]) (hneeds : s.needsOpen c r.needs = false) (hwait : (s.core c).wait = none)
    (hbar : s.barrierN r.parcel r.mark = none) (hfrozen : (s.parcel r.parcel).frozen.contains r.mark = false)
    (hdamaged : s.markDamaged r.parcel r.mark = false) (q : ParcelId) : ((s.settle c).parcel q).held = (s.parcel q).held := by
  rw [State.settle_one_eq hrels hneeds hwait hbar hfrozen hdamaged, State.markAdd_eq (s.setCore c { s.core c with rels := [] }) _ hbar hfrozen hdamaged]
  exact State.releaseWaiters_held ..

theorem holds_congr {t : State} (h : (t.parcel (coreParcel c)).held = (s.parcel (coreParcel c)).held) : t.holds c = s.holds c := by
  rw [State.holds, State.holds, h]

/-- A parcel's record without the record of a core. -/
def Parcel.letGo (v : Parcel) (n : CoreNo) : Parcel := { v with held := v.held.erase n }

theorem holds_letGo (s : State) (c : CoreId) : (s.modParcel (coreParcel c) (fun v => v.letGo c.core)).holds c = false := by
  rw [State.holds, State.parcel_modParcel, if_pos rfl]
  exact AMap.any_erase ..

theorem doneMatch_plain {h : Held} (hfirst : h.first = none) (haudit : h.audit = none) :
    s.doneMatch c h = (s.doneMark c h.desc).modParcel (coreParcel c) (fun v => v.letGo c.core) := by
  rw [State.doneMatch, hfirst, haudit]
  rfl

theorem doneMark_none {d : BitVec 128} (h : d.getLsbD 107 = false) : s.doneMark c d = s := by
  rw [State.doneMark, tdDm, h]
  rfl

theorem doneMark_home {d : BitVec 128} {p : ParcelId} (h : d.getLsbD 107 = true) (htract : p.tract = c.tract) (hp : p.parcel.val = bitsOf d.toNat 106 96)
    (hset : Settled s c) : s.doneMark c d = s.setCore c { s.core c with rels := [⟨⟨[], []⟩, p, d.extractLsb' 112 10, 1⟩] } := by
  have hkey : keyParcel (keyOf c.tract.val (tdHome d) 0) = some p := by
    rw [← htract, tdHome, ← hp]
    exact keyParcel_keyOf p (by decide)
  rw [State.doneMark, tdDm, h, if_pos rfl, hkey]
  dsimp only
  rw [releaseNeeds_settled hset, State.modCore_eq, hset.1]
  rfl

end

/-- DONE with a descriptor, against the record that the core holds. -/
def State.doneRecord (s : State) (c : CoreId) (d : BitVec 128) : State :=
  match (s.parcel (coreParcel c)).held.find? (fun q => decide (q.1 = c.core)) with
  | some (_, h) => if h.desc = d then s.doneMatch c h else s.emit (s.recordC .tileDoneBad 5 c)
  | none => s.emit (s.recordC .tileDoneBad 5 c)

theorem doneRecord_found {s : State} {c : CoreId} {d : BitVec 128} {h : Held}
    (hfind : (s.parcel (coreParcel c)).held.find? (fun q => decide (q.1 = c.core)) = some (c.core, h)) (hd : h.desc = d) :
    s.doneRecord c d = s.doneMatch c h := by
  rw [State.doneRecord, hfind]
  exact if_pos hd

theorem doneRecord_other {s : State} {c : CoreId} {d : BitVec 128}
    (hd : ∀ h : Held, (s.parcel (coreParcel c)).held.find? (fun q => decide (q.1 = c.core)) = some (c.core, h) → h.desc ≠ d) :
    s.doneRecord c d = s.emit (s.recordC .tileDoneBad 5 c) := by
  unfold State.doneRecord
  split
  next n h hfind =>
    have hn : n = c.core := by simpa using List.find?_some hfind
    exact if_neg (hd h (hn ▸ hfind))
  next => rfl

/-- What DONE does where its core issues it. -/
theorem exec_done {i : Issue} {f : FmtT} {s : State} (hgd : f.gd.toNat % 4 = 0) (h0 : f.gd ≠ 0) (hres : f.reserved = 0) (hpd : f.pd = 0)
    (h : Ready s i 4 [.g f.gd, .g (f.gd + 1), .g (f.gd + 2), .g (f.gd + 3)]) (hs : s.spells i (.done i f) = true) :
    ∃ ib, exec (.done i f) s = .next ((s.setCore i.core { s.core i.core with ibuf := ib }).orPlotNone i.core (fun s => s.orGangFault i.core (fun s =>
      ((s.doneRecord i.core (BitVec.ofNat 128 ((s.core i.core).quad f.gd))).modCore i.core (fun k => k.retire 4)).settle i.core))) := by
  obtain ⟨ib, hib⟩ := s.noteFetch_eq i 4
  refine ⟨ib, (State.asSpelled_of_spells hs).trans (congrArg _ ?_)⟩
  have hbad : (fmtTBad f || f.pd != 0) = false := by rw [fmtTBad_of hgd h0 hres, hpd]; rfl
  rw [hbad, ← hib]
  exact issue_of_ready h _

section
variable {s : State} {c : CoreId} {d : BitVec 128}

/-- A record that DONE clears where nothing is added to a mark. -/
theorem done_clears {h : Held} (hrels : (s.core c).rels = [])
    (hfind : (s.parcel (coreParcel c)).held.find? (fun q => decide (q.1 = c.core)) = some (c.core, h)) (hd : h.desc = d)
    (hfirst : h.first = none) (haudit : h.audit = none) (hdm : d.getLsbD 107 = false) :
    ((s.doneRecord c d).modCore c (fun k => k.retire 4)).settle c =
      (s.modParcel (coreParcel c) (fun v => v.letGo c.core)).setCore c ((s.core c).retire 4) := by
  rw [doneRecord_found hfind hd, doneMatch_plain hfirst haudit, doneMark_none (hd ▸ hdm), State.modCore_eq,
    State.settle_of_no_wait (by rw [State.core_setCore_self]; exact hrels) (by rw [State.core_setCore_self]; rfl)]
  rfl

/-- The state in which a DONE has cleared its record and an addition is due. -/
def State.afterDone (s : State) (c : CoreId) (r : HeldRel) : State :=
  (s.modParcel (coreParcel c) (fun v => v.letGo c.core)).setCore c { (s.core c).retire 4 with rels := [r] }

theorem done_owes {h : Held} {p : ParcelId} (hset : Settled s c)
    (hfind : (s.parcel (coreParcel c)).held.find? (fun q => decide (q.1 = c.core)) = some (c.core, h)) (hd : h.desc = d)
    (hfirst : h.first = none) (haudit : h.audit = none) (hdm : d.getLsbD 107 = true) (htract : p.tract = c.tract)
    (hp : p.parcel.val = bitsOf d.toNat 106 96) :
    (s.doneRecord c d).modCore c (fun k => k.retire 4) = s.afterDone c ⟨⟨[], []⟩, p, d.extractLsb' 112 10, 1⟩ := by
  rw [doneRecord_found hfind hd, doneMatch_plain hfirst haudit, hd, doneMark_home hdm htract hp hset]
  exact State.setCore_modCore (s.modParcel (coreParcel c) (fun v => v.letGo c.core)) c { s.core c with rels := [⟨⟨[], []⟩, p, d.extractLsb' 112 10, 1⟩] } _

theorem counts_afterDone {p : ParcelId} {n : BitVec 10} {r : HeldRel} (h : Counts s p n) : Counts (s.afterDone c r) p n := by
  obtain ⟨hbar, hfrozen, hdamaged⟩ := h
  refine ⟨hbar, ?_, hdamaged⟩
  rw [State.afterDone, State.parcel_setCore, State.parcel_modParcel]
  split
  next hq => subst hq; exact hfrozen
  next => exact hfrozen

/-- A record that DONE clears with an addition to a mark that counts. -/
theorem done_marks {h : Held} {p : ParcelId} (hset : Settled s c)
    (hfind : (s.parcel (coreParcel c)).held.find? (fun q => decide (q.1 = c.core)) = some (c.core, h)) (hd : h.desc = d)
    (hfirst : h.first = none) (haudit : h.audit = none) (hdm : d.getLsbD 107 = true) (htract : p.tract = c.tract)
    (hp : p.parcel.val = bitsOf d.toNat 106 96) (hcounts : Counts s p (d.extractLsb' 112 10)) :
    (((s.doneRecord c d).modCore c (fun k => k.retire 4)).settle c).holds c = false ∧
      (((s.doneRecord c d).modCore c (fun k => k.retire 4)).settle c).mem =
        (s.putMem (markKey p (d.extractLsb' 112 10)) (natLe 4 (wordAt s (markKey p (d.extractLsb' 112 10)) + 1).toNat)).mem ∧
      (((s.doneRecord c d).modCore c (fun k => k.retire 4)).settle c).core c = { (s.core c).retire 4 with rels := [] } := by
  rw [done_owes hset hfind hd hfirst haudit hdm htract hp]
  generalize hr : (⟨⟨[], []⟩, p, d.extractLsb' 112 10, 1⟩ : HeldRel) = r
  obtain ⟨hbar, hfrozen, hdamaged⟩ : Counts (s.afterDone c r) r.parcel r.mark := counts_afterDone (by rw [← hr]; exact hcounts)
  have hcore : (s.afterDone c r).core c = { (s.core c).retire 4 with rels := [r] } := State.core_setCore_self ..
  have hneeds : (s.afterDone c r).needsOpen c r.needs = false := by rw [← hr]; simp [State.needsOpen]
  have hrels : ((s.afterDone c r).core c).rels = [r] := by rw [hcore]
  have hwait : ((s.afterDone c r).core c).wait = none := by rw [hcore]; rfl
  obtain ⟨hmem, hcore'⟩ := State.settle_one hrels hneeds hwait hbar hfrozen hdamaged
  refine ⟨(holds_congr (State.settle_one_held hrels hneeds hwait hbar hfrozen hdamaged _)).trans (holds_letGo s c), ?_, hcore'.trans (by rw [hcore])⟩
  rw [hmem, ← hr]
  rfl

/-- A DONE whose descriptor is not the held record's is reported, and clears nothing. -/
theorem done_reports (hrels : (s.core c).rels = [])
    (hd : ∀ h : Held, (s.parcel (coreParcel c)).held.find? (fun q => decide (q.1 = c.core)) = some (c.core, h) → h.desc ≠ d)
    (hcol : (s.fab c.tract).collector = []) (hrest : s.up.restore = .idle) :
    ∃ errs, ((s.doneRecord c d).modCore c (fun k => k.retire 4)).settle c =
      ({ s.modFab c.tract (fun f => { f with collector := [s.recordC .tileDoneBad 5 c] }) with errs := errs } : State).setCore c ((s.core c).retire 4) := by
  obtain ⟨errs, hemit⟩ := State.emit_quiet (r := s.recordC .tileDoneBad 5 c) rfl (by decide : 5 < 14) hcol hrest
  refine ⟨errs, ?_⟩
  rw [doneRecord_other hd, hemit, State.modCore_eq,
    State.settle_of_no_wait (by rw [State.core_setCore_self]; exact hrels) (by rw [State.core_setCore_self]; rfl)]
  rfl

end

theorem exec_done_plot {i : Issue} {f : FmtT} {s : State} (hgd : f.gd.toNat % 4 = 0) (h0 : f.gd ≠ 0) (hres : f.reserved = 0) (hpd : f.pd = 0)
    (h : Ready s i 4 [.g f.gd, .g (f.gd + 1), .g (f.gd + 2), .g (f.gd + 3)]) (hs : s.spells i (.done i f) = true)
    (hplot : (s.parcel (coreParcel i.core)).plot ≠ none) (hfault : (s.core i.core).arr.fault = none) :
    ∃ ib, exec (.done i f) s = .next ((((s.setCore i.core { s.core i.core with ibuf := ib }).doneRecord i.core
      ((s.core i.core).getG (f.gd + 3) ++ (s.core i.core).getG (f.gd + 2) ++ (s.core i.core).getG (f.gd + 1) ++ (s.core i.core).getG f.gd)).modCore i.core
        (fun k => k.retire 4)).settle i.core) := by
  obtain ⟨ib, hexec⟩ := exec_done hgd h0 hres hpd h hs
  have hfault' : ((s.setCore i.core { s.core i.core with ibuf := ib }).core i.core).arr.fault = none := by rw [State.core_setCore_self]; exact hfault
  refine ⟨ib, hexec.trans (congrArg _ ?_)⟩
  rw [State.orPlotNone_of_plot (s := s.setCore i.core { s.core i.core with ibuf := ib }) hplot, State.orGangFault_of_none hfault', State.core_setCore_self,
    Core.quad_eq, BitVec.ofNat_toNat, BitVec.setWidth_eq]
  rfl

theorem plotNone_raised {s t : State} {c : CoreId} {ib : List (Nat × Word)} {act : State → State} (hplot : (s.parcel (coreParcel c)).plot = none)
    (hquiet : Quietly s c) (ht : (s.setCore c { s.core c with ibuf := ib }).orPlotNone c act = t) : Raised s t c 11 := by
  have hnone : ((s.setCore c { s.core c with ibuf := ib }).parcel (coreParcel c)).plot.isNone = true := by
    rw [State.parcel_setCore, hplot]
    rfl
  rw [← ht, State.orPlotNone, if_pos hnone]
  exact raised_of_fetched (raiseAt_raised (e := { cause := .plotNone }) (quietly_fetched hquiet ib) rfl)

/-- Settles O21. -/
theorem doneClearsTheRecord : Obligations.DoneClearsTheRecord := by
  intro i f s hgd h0 hres
  refine ⟨fun d hpd hplot h hfault hrels hs hd => ⟨fun hh hfind hdesc hfirst haudit => ⟨fun hdm => ?_, fun hdm p htract hp hset hwf hcounts => ?_⟩,
    fun hother hcol hrest => ?_⟩, fun hplot h hsteal hs => ?_, fun hplot hquiet => ⟨fun h c hc hs => ?_, fun hpd h hs => ?_⟩⟩
  · obtain ⟨ib, hexec⟩ := exec_done_plot hgd h0 hres hpd h hs hplot hfault
    rw [← hd, done_clears (s := s.setCore i.core { s.core i.core with ibuf := ib }) (by rw [State.core_setCore_self]; exact hrels) hfind hdesc hfirst haudit hdm] at hexec
    refine ⟨_, hexec, holds_letGo s i.core, ?_, ?_, rfl, rfl, rfl, fun c' hc' => ?_⟩
    · rw [State.core_setCore_self, State.core_setCore_self]
      rfl
    · rw [State.core_setCore_self, State.core_setCore_self]
      refine ⟨?_, ?_, ?_, ?_⟩ <;> and_intros <;> rfl
    · rw [State.core_setCore, if_neg hc']
      exact (State.core_setCore ..).trans (if_neg hc')
  · obtain ⟨ib, hexec⟩ := exec_done_plot hgd h0 hres hpd h hs hplot hfault
    obtain ⟨hholds, hmem, hcore⟩ := done_marks (s := s.setCore i.core { s.core i.core with ibuf := ib }) (c := i.core) (d := d) (p := p)
      (by rw [Settled, State.core_setCore_self]; exact hset) hfind hdesc hfirst haudit hdm htract hp hcounts
    rw [← hd] at hexec
    refine ⟨_, hexec, hholds, ?_, ?_, ?_, ?_, ?_⟩
    · rw [hcore, State.core_setCore_self]
      rfl
    · rw [Stored, hmem]
      exact putMem_stored hwf
    · rw [hcore, State.core_setCore_self]
      rfl
    · rw [hcore, State.core_setCore_self]
      rfl
    · rw [hcore]
  · obtain ⟨ib, hexec⟩ := exec_done_plot hgd h0 hres hpd h hs hplot hfault
    obtain ⟨errs, hdone⟩ := done_reports (s := s.setCore i.core { s.core i.core with ibuf := ib }) (c := i.core) (d := d)
      (by rw [State.core_setCore_self]; exact hrels) hother hcol hrest
    rw [← hd, hdone] at hexec
    refine ⟨_, (s.setCore i.core { s.core i.core with ibuf := ib }).recordC .tileDoneBad 5 i.core, hexec, rfl, rfl, ?_, ?_, rfl⟩
    · rw [State.core_setCore_self, State.core_setCore_self]
      rfl
    · show ((State.modFab (s.setCore i.core { s.core i.core with ibuf := ib }) i.core.tract (fun f => { f with collector := [_] })).fab i.core.tract).collector = _
      rw [State.fab_modFab, if_pos rfl]
  · obtain ⟨ib, hexec⟩ := exec_steal hgd h0 hres h hs hplot
    rw [hsteal, if_neg Bool.false_ne_true] at hexec
    refine ⟨_, hexec, ?_⟩
    rw [State.tileNone, State.setCore_modCore]
    exact wroteP_setCore ..
  · obtain ⟨ib, hib⟩ := s.noteFetch_eq i 4
    have hissue (act : State → State) : s.issue i 4 (fmtTBad f) [] act = act (s.setCore i.core { s.core i.core with ibuf := ib }) := by
      rw [fmtTBad_of hgd h0 hres, ← hib]
      exact issue_of_ready h _
    rcases List.mem_pair.mp hc with rfl | rfl
    · exact ⟨_, (State.asSpelled_of_spells hs).trans (congrArg _ (hissue _)), plotNone_raised hplot hquiet rfl⟩
    · exact ⟨_, (State.asSpelled_of_spells hs).trans (congrArg _ (hissue _)), plotNone_raised hplot hquiet rfl⟩
  · obtain ⟨ib, hexec⟩ := exec_done hgd h0 hres hpd h hs
    exact ⟨_, hexec, plotNone_raised hplot hquiet rfl⟩

end Sys2Proof.Machine
end

section
/-!
PROOFS (O27). The watchdog of a core that stalls: which stalls it finds open, and what its record says (R27, R299 to R301).
-/
namespace Sys2Proof.Machine
open Sys2Proof.Claims

/-- The wait code of a WATCHDOG record (R301). -/
def Wait.watchCode : Wait → Nat
  | .mwait _ _ => 1
  | .mbar _ _ _ _ => 2
  | .cwait _ _ => 3
  | .sleep _ _ _ => 4
  | .fence _ => 5
  | .tile _ _ _ => 6
  | .operand _ _ _ => 7
  | .resource _ | .agent _ => 8
  | .halt => 9
  | .arrayGang => 10
  | .astat _ => 11
  | .remoteWait _ _ _ bar => if bar then 2 else 1

theorem Wait.watchCode_lt (w : Wait) : w.watchCode < 256 := by
  cases w with
  | remoteWait gen addr opd bar => cases bar <;> simp [Wait.watchCode]
  | _ => simp [Wait.watchCode]

/-- Whether a wait is for an operation at another mark unit. -/
def Wait.remote : Wait → Bool
  | .remoteWait _ _ _ _ => true
  | _ => false

section
variable {s : State} {c : CoreId} {w : Wait}

theorem watchdogInfo_sub (s : State) (c : CoreId) (w : Wait) : (s.watchdogInfo c w).sub = w.watchCode := by
  cases w with
  | remoteWait gen addr opd bar => cases bar <;> rfl
  | _ => rfl

theorem watchdogInfo_cause (s : State) (c : CoreId) (w : Wait) : (s.watchdogInfo c w).cause = .watchdog := by
  cases w with
  | remoteWait gen addr opd bar => cases bar <;> rfl
  | _ => rfl

/-- The withdrawal of a wait at a mark of the core's parcel changes the parcels alone. -/
theorem withdraw_frame (h : w.remote = false) : s.withdraw c w = { s with parcels := (s.withdraw c w).parcels } := by
  cases w with
  | remoteWait gen addr opd bar => cases h
  | mbar n opd st nd => cases st <;> rfl
  | _ => rfl

/-- The items of a record of an exception in DETAIL (R301, R413). -/
theorem faultDetail_items (s : State) (c : CoreId) (pc : Nat) (e : ExcInfo) (hcause : e.cause ≠ .coreParity) :
    fieldAt (s.faultRecord c pc e).detail 1 1 = e.sub % 256 ∧ fieldAt (s.faultRecord c pc e).detail 2 1 = e.code % 256 ∧
      fieldAt (s.faultRecord c pc e).detail 8 4 = e.w2 % 2 ^ 32 ∧ fieldAt (s.faultRecord c pc e).detail 12 4 = e.w3 % 2 ^ 32 := by
  obtain ⟨-, -, -, -, -, hdetail⟩ := s.faultRecord_spec c pc e hcause
  rw [hdetail]
  exact ⟨leNat_natLe 1 _, leNat_natLe 1 _, leNat_natLe 4 _, leNat_natLe 4 _⟩

/-- The watchdog of a core that stalls stops it, with one record. -/
theorem watchdog_stops (hrun : (s.core c).run = .running) (hwait : (s.core c).wait = some w) (hquiet : Quietly s c) (hopen : s.stallOpen c w = true)
    (hremote : w.remote = false) : ∃ t d, exec (.watchdog c) s = .next t ∧ Raised s t c 13 ∧ (t.core c).wait = none ∧
      (t.fab c.tract).collector = [d] ∧ t.parcels = (s.withdraw c w).parcels ∧ fieldAt d.detail 1 1 = w.watchCode ∧
      fieldAt d.detail 2 1 = (s.watchdogInfo c w).code % 256 ∧ fieldAt d.detail 8 4 = (s.watchdogInfo c w).w2 % 2 ^ 32 ∧
      fieldAt d.detail 12 4 = (s.watchdogInfo c w).w3 % 2 ^ 32 := by
  have hframe := withdraw_frame (s := s) (c := c) hremote
  have hcause := watchdogInfo_cause s c w
  have hret : (s.watchdogInfo c w).cause.retryable = false := by rw [hcause]; rfl
  have hpar : (s.watchdogInfo c w).cause ≠ .coreParity := by rw [hcause]; decide
  have hquiet' : Quietly (s.withdraw c w) c := by rw [hframe]; exact hquiet
  have hraised : Raised s ((s.withdraw c w).raiseAt c (s.watchdogInfo c w)).takeFree c 13 := by
    have h := raiseAt_raised hquiet' hret
    rw [hcause] at h
    rw [hframe] at h ⊢
    exact h
  obtain ⟨errs, ht⟩ := State.exception_quiet hquiet' hret ((s.withdraw c w).core c).pc.toNat
  obtain ⟨hsub, hcode, hw2, hw3⟩ := faultDetail_items (s.withdraw c w) c ((s.withdraw c w).core c).pc.toNat (s.watchdogInfo c w) hpar
  rw [watchdogInfo_sub, Nat.mod_eq_of_lt w.watchCode_lt] at hsub
  have hexec : exec (.watchdog c) s = .next ((s.withdraw c w).raiseAt c (s.watchdogInfo c w)).takeFree := by
    refine congrArg Host.Outcome.next ?_
    rw [hwait]
    dsimp only
    rw [hrun, hopen]
    rfl
  refine ⟨_, _, hexec, hraised, ?_, ?_, ?_, hsub, hcode, hw2, hw3⟩
  · rw [State.raiseAt, ht]
    exact congrArg Core.wait (State.stoppedWith_core_self _ _ _ errs)
  · rw [State.raiseAt, ht]
    exact State.stoppedWith_collector _ _ _ errs
  · rw [State.raiseAt, ht]
    rfl

/-- A stall that is over, and a core that does not run or does not wait, give the watchdog nothing to do. -/
theorem watchdog_idle (h : ∀ w, (s.core c).wait = some w → (s.core c).run = .running → s.stallOpen c w = false) : exec (.watchdog c) s = .next s := by
  refine congrArg Host.Outcome.next ?_
  split
  next w hw =>
    refine if_neg fun hgo => ?_
    obtain ⟨hrun, hopen⟩ := (Bool.and_eq_true ..).mp hgo
    rw [h w hw (of_decide_eq_true hrun)] at hopen
    cases hopen
  next => rfl

/-- The held arrival of a barrier is no longer held at its mark unit (R300). -/
theorem withdraw_held {n : BitVec 10} {o : Word} {nd : Needs} :
    ∀ h ∈ ((s.withdraw c (.mbar n o .held nd)).parcel (coreParcel c)).heldArr, ¬(h.mark = n ∧ h.src = .core c.core) := by
  rw [State.withdraw, State.parcel_modParcel, if_pos rfl]
  rintro h hmem ⟨hmark, hsrc⟩
  obtain ⟨-, hkeep⟩ := List.mem_filter.mp hmem
  simp [hmark, hsrc] at hkeep

end

/-- Settles O27. -/
theorem watchdogStops : Obligations.WatchdogStops := by
  intro c w s hrun hwait hquiet
  refine ⟨fun code hw => ?_, fun hw hlen => ?_, fun hw hready => ?_, fun s' h => ?_⟩
  · have hcode : w.watchCode = code ∧ s.stallOpen c w = true ∧ w.remote = false := by
      rcases hw with ⟨n, thr, rfl, rfl⟩ | ⟨ac, x, rfl, rfl⟩ | ⟨g, m, thr, rfl, rfl⟩ | ⟨m, rfl, rfl⟩ | ⟨st, gd, pd, rfl, rfl⟩ | ⟨rfl, hready, rfl⟩ |
        ⟨rfl, hlen, rfl⟩ | ⟨rfl, hlen, rfl⟩ | ⟨a, pc, r, l, rfl, hl, ha, hpc, rfl⟩ | ⟨pc, e, rfl, he, hpc, rfl⟩ | ⟨rfl, hlen, rfl⟩ | ⟨rfl, hlen, rfl⟩ |
        ⟨n, o, nd, rfl, rfl⟩
      · exact ⟨rfl, rfl, rfl⟩
      · exact ⟨rfl, rfl, rfl⟩
      · exact ⟨rfl, rfl, rfl⟩
      · exact ⟨rfl, rfl, rfl⟩
      · exact ⟨rfl, rfl, rfl⟩
      · exact ⟨rfl, by rw [State.stallOpen, hready]; rfl, rfl⟩
      · exact ⟨rfl, decide_eq_true hlen, rfl⟩
      · exact ⟨rfl, decide_eq_true hlen, rfl⟩
      · exact ⟨rfl, List.any_eq_true.mpr ⟨l, hl, by simp [ha, hpc]⟩, rfl⟩
      · exact ⟨rfl, List.any_eq_true.mpr ⟨e, he, by simp [hpc]⟩, rfl⟩
      · exact ⟨rfl, decide_eq_true hlen, rfl⟩
      · exact ⟨rfl, decide_eq_true hlen, rfl⟩
      · exact ⟨rfl, rfl, rfl⟩
    obtain ⟨hcode, hopen, hremote⟩ := hcode
    obtain ⟨t, d, hexec, hraised, hwait', hcol, hparcels, hsub, hitem, hw2, hw3⟩ := watchdog_stops hrun hwait hquiet hopen hremote
    refine ⟨t, d, hexec, hraised, hwait', hcol, hsub.trans hcode, ?_, ?_, ?_, ?_, ?_⟩
    · rintro n thr rfl
      exact ⟨hw2.trans (Nat.mod_eq_of_lt thr.isLt), hw3.trans (Nat.mod_eq_of_lt (BitVec.isLt _))⟩
    · rintro g m thr rfl
      exact hw2.trans (Nat.mod_eq_of_lt m.isLt)
    · rintro ac x rfl
      have hac := ac.isLt
      have hx := x.isLt
      have hv := ((s.core c).getAc ac).isLt
      refine ⟨hw2.trans (Nat.mod_eq_of_lt (show ac.toNat < _ by omega)), hw3.trans ?_⟩
      show (x.toNat + ((s.core c).getAc ac).toNat * 2 ^ 16) % 2 ^ 32 = _
      omega
    · rintro rfl
      refine ⟨hw2, hw3.trans ?_⟩
      show (s.storesOpen c + (s.core c).arr.queue.length * 2 ^ 16) % 2 ^ 32 = _
      rw [Nat.mul_comm]
    · rintro n o nd rfl
      refine ⟨hitem.trans ?_, ?_⟩
      · show (if barKind o = 2 then 3 else 1) % 256 = _
        split_ifs <;> rfl
      · rw [State.parcel, hparcels]
        exact withdraw_held
  · refine watchdog_idle fun w' hw' _ => ?_
    obtain rfl : w' = .resource 2 := by rw [hwait, hw] at hw'; exact (Option.some.inj hw').symm
    exact decide_eq_false (by omega)
  · refine watchdog_idle fun w' hw' _ => ?_
    obtain rfl : w' = .halt := by rw [hwait, hw] at hw'; exact (Option.some.inj hw').symm
    rw [State.stallOpen, hready]
    rfl
  · refine watchdog_idle fun w' hw' hrun' => ?_
    rcases h with h | h
    · rw [h] at hw'
      cases hw'
    · exact absurd hrun' h

end Sys2Proof.Machine
end

section
/-!
PROOFS (O12). Operations that enter a tract's request agent: what an entry keeps on its way, and what it leaves alone (R254 to R266, R274).
-/
namespace Sys2Proof.Machine
open Sys2Proof.Claims

/-! What leaves the request agents as they are. -/

/-- Memory, the cores and every request agent are as they were. -/
def State.SparesAgents (s t : State) : Prop :=
  t.mem = s.mem ∧ t.cores = s.cores ∧ t.up.badUnits = s.up.badUnits ∧
    ∀ tr, (t.fab tr).ra = (s.fab tr).ra ∧ (t.fab tr).nextGen = (s.fab tr).nextGen

section
variable {s t u : State}

theorem State.SparesAgents.refl (s : State) : s.SparesAgents s := ⟨rfl, rfl, rfl, fun _ => ⟨rfl, rfl⟩⟩

theorem State.SparesAgents.trans (h : s.SparesAgents t) (h' : t.SparesAgents u) : s.SparesAgents u := by
  obtain ⟨hmem, hcores, hbad, hfab⟩ := h
  obtain ⟨hmem', hcores', hbad', hfab'⟩ := h'
  exact ⟨hmem'.trans hmem, hcores'.trans hcores, hbad'.trans hbad, fun tr => ⟨(hfab' tr).1.trans (hfab tr).1, (hfab' tr).2.trans (hfab tr).2⟩⟩

theorem State.OnlyTraffic.sparesAgents (h : s.OnlyTraffic t) : s.SparesAgents t := by
  obtain ⟨regs, links, host, out, rfl⟩ := h
  exact ⟨rfl, rfl, rfl, fun _ => ⟨rfl, rfl⟩⟩

/-- A change of a tract's fabric that keeps the entries of its request agent. -/
theorem State.modFab_sparesAgents (tr : Tract) (f : TractFab → TractFab) (hra : (f (s.fab tr)).ra = (s.fab tr).ra)
    (hgen : (f (s.fab tr)).nextGen = (s.fab tr).nextGen) : s.SparesAgents (s.modFab tr f) := by
  refine ⟨rfl, rfl, rfl, fun tr' => ?_⟩
  rw [State.fab_modFab]
  split
  next h => subst h; exact ⟨hra, hgen⟩
  next => exact ⟨rfl, rfl⟩

theorem State.countLost_sparesAgents (s : State) : s.SparesAgents s.countLost := ⟨rfl, rfl, rfl, fun _ => ⟨rfl, rfl⟩⟩

theorem State.queueRec_sparesAgents (s : State) (r : ErrRec) : s.SparesAgents (s.queueRec r) := by
  have hcd : s.SparesAgents (s.emitCd r) := by
    unfold State.emitCd
    dsimp only
    split
    · exact ⟨rfl, rfl, rfl, fun _ => ⟨rfl, rfl⟩⟩
    · exact ⟨rfl, rfl, rfl, fun _ => ⟨rfl, rfl⟩⟩
  have htract (tr : Tract) : s.SparesAgents (s.emitTract tr r) := by
    unfold State.emitTract
    dsimp only
    split
    · exact (State.modFab_sparesAgents tr _ rfl rfl).trans (State.countLost_sparesAgents _)
    · exact State.modFab_sparesAgents tr _ rfl rfl
  unfold State.queueRec
  split
  · split
    · exact hcd
    · exact htract _
  · exact hcd

theorem State.restoreFail_sparesAgents (s : State) (cause : Nat) (more : List Nat) : s.SparesAgents (s.restoreFail cause more) := by
  unfold State.restoreFail
  dsimp only
  generalize hr : ({ State.recordM _ RecClass.restoreFail with sev := _, detail := _ } : ErrRec) = r
  refine State.SparesAgents.trans ?_ (State.queueRec_sparesAgents _ r)
  exact ⟨rfl, rfl, rfl, fun _ => ⟨rfl, rfl⟩⟩

/-- A record joins its queue, and no request agent sees it. -/
theorem State.emit_sparesAgents (s : State) (r : ErrRec) : s.SparesAgents (s.emit r) := by
  have hnote : s.SparesAgents (s.noteAbort r) := by
    unfold State.noteAbort
    split
    · exact ⟨rfl, rfl, rfl, fun _ => ⟨rfl, rfl⟩⟩
    · exact .refl s
  have hqueue := hnote.trans (State.queueRec_sparesAgents _ r)
  unfold State.emit
  dsimp only
  split
  · exact hqueue.trans (State.restoreFail_sparesAgents ..)
  · exact hqueue

theorem State.sendRouted_traffic (s : State) (m : MemMsg) : s.OnlyTraffic (s.sendRouted m) := by
  unfold State.sendRouted
  split
  · split
    · exact State.send_traffic ..
    · exact .refl s
  · exact .refl s

end

/-! Entries on their way. -/

/-- What of an entry stays while it is in the request agent. -/
def RaEntry.Same (x y : RaEntry) : Prop := y.gen = x.gen ∧ y.src = x.src ∧ y.addr = x.addr ∧ y.op = x.op ∧ y.posted = x.posted

theorem RaEntry.Same.refl (x : RaEntry) : x.Same x := ⟨rfl, rfl, rfl, rfl, rfl⟩

theorem RaEntry.Same.trans {x y z : RaEntry} (h : x.Same y) (h' : y.Same z) : x.Same z := by
  obtain ⟨h1, h2, h3, h4, h5⟩ := h
  obtain ⟨h1', h2', h3', h4', h5'⟩ := h'
  exact ⟨h1'.trans h1, h2'.trans h2, h3'.trans h3, h4'.trans h4, h5'.trans h5⟩

/-- The entries of a tract's request agent have gone on, and memory and the cores are as they were. -/
def State.EntriesGoOn (s t : State) (tr : Tract) : Prop :=
  t.mem = s.mem ∧ t.cores = s.cores ∧ t.up.badUnits = s.up.badUnits ∧ (t.fab tr).nextGen = (s.fab tr).nextGen ∧
    ∃ f : RaEntry → RaEntry, (∀ x : RaEntry, x.Same (f x)) ∧ (t.fab tr).ra = (s.fab tr).ra.map f

section
variable {s t u : State} {tr : Tract}

theorem State.SparesAgents.goOn (h : s.SparesAgents t) : s.EntriesGoOn t tr := by
  obtain ⟨hmem, hcores, hbad, hfab⟩ := h
  exact ⟨hmem, hcores, hbad, (hfab tr).2, id, RaEntry.Same.refl, by rw [(hfab tr).1, List.map_id]⟩

theorem State.EntriesGoOn.trans (h : s.EntriesGoOn t tr) (h' : t.EntriesGoOn u tr) : s.EntriesGoOn u tr := by
  obtain ⟨hmem, hcores, hbad, hgen, f, hf, hra⟩ := h
  obtain ⟨hmem', hcores', hbad', hgen', f', hf', hra'⟩ := h'
  exact ⟨hmem'.trans hmem, hcores'.trans hcores, hbad'.trans hbad, hgen'.trans hgen, f' ∘ f, fun x => (hf x).trans (hf' (f x)), by
    rw [hra', hra, List.map_map]⟩

/-- A change of one entry, as a change of each. -/
def atGen (gen : Nat) (f : RaEntry → RaEntry) (e : RaEntry) : RaEntry := if e.gen = gen then f e else e

theorem setEntry_ra (s : State) (tr : Tract) (gen : Nat) (f : RaEntry → RaEntry) :
    ((s.setEntry tr gen f).fab tr).ra = (s.fab tr).ra.map (atGen gen f) := by
  rw [State.setEntry, State.fab_modFab, if_pos rfl]
  rfl

theorem setEntry_goOn (s : State) (tr : Tract) (gen : Nat) (f : RaEntry → RaEntry) (hf : ∀ x : RaEntry, x.Same (f x)) :
    s.EntriesGoOn (s.setEntry tr gen f) tr := by
  refine ⟨rfl, rfl, rfl, ?_, atGen gen f, fun x => ?_, setEntry_ra ..⟩
  · rw [State.setEntry, State.fab_modFab, if_pos rfl]
  · unfold atGen
    split
    · exact hf x
    · exact .refl x

/-- An entry that goes on keeps what it is, whatever becomes of it (R31, R154, R255, R256, R274). -/
theorem raSend_goOn (s : State) (tr : Tract) (e : RaEntry) : s.EntriesGoOn (s.raSend tr e) tr := by
  have hset (f : RaEntry → RaEntry) (hf : ∀ x : RaEntry, x.Same (f x)) (s : State) : s.EntriesGoOn (s.setEntry tr e.gen f) tr := setEntry_goOn s tr e.gen f hf
  have hstage (st : RaStage) (s : State) : s.EntriesGoOn (s.setEntry tr e.gen (fun e => { e with stage := st })) tr :=
    hset (fun e => { e with stage := st }) (fun x => ⟨rfl, rfl, rfl, rfl, rfl⟩) s
  have hepoch (st : RaStage) (n : Nat) (s : State) : s.EntriesGoOn (s.setEntry tr e.gen (fun e => { e with stage := st, epoch := n })) tr :=
    hset (fun e => { e with stage := st, epoch := n }) (fun x => ⟨rfl, rfl, rfl, rfl, rfl⟩) s
  have hdata : s.EntriesGoOn (s.raSendData tr e) tr := by
    unfold State.raSendData
    dsimp only
    split
    · exact hstage _ s
    · split
      · exact hstage _ s
      · split
        · exact hepoch _ _ s
        · refine State.EntriesGoOn.trans ?_ (State.OnlyTraffic.foldl (fun s q => State.sendRouted_traffic s _) _ _).sparesAgents.goOn
          exact hepoch _ _ s
  have hown (n : Nat) : s.EntriesGoOn (if n ≠ 0 && s.inReplica (e.addr % 2 ^ 52) n then
      (s.replicaRecord tr (e.addr % 2 ^ 52)).setEntry tr e.gen (fun e => { e with stage := .answered (statusResponse 3) })
      else s.setEntry tr e.gen (fun e => { e with stage := .ready })) tr := by
    split
    · exact (State.emit_sparesAgents s _).goOn.trans (hstage _ _)
    · exact hstage _ s
  unfold State.raSend
  dsimp only
  split
  · exact hdata
  · split
    · exact hstage _ s
    · split
      · split
        · exact hown _
        · exact hown _
        · exact hown _
      · split
        · exact hstage _ s
        · exact (hepoch _ _ s).trans (State.sendRouted_traffic ..).sparesAgents.goOn

end

/-! An operation of a core enters its request agent (R254, R277). -/

/-- An operation at an address that an access or one end of a copy makes. -/
def FabOp.fits (addr : Nat) : FabOp → Prop
  | .store d => d.length ≤ 16
  | .copyEnd rs _ => ∀ q ∈ rs, q.1 = addr
  | .engine _ _ _ _ => False
  | _ => True

section
variable {s : State} {tr : Tract} {c : CoreId}

theorem inReplica_mono {key n m : Nat} (h : n ≤ m) (hm : s.inReplica key m = false) : s.inReplica key n = false := by
  rw [State.inReplica, List.any_eq_false] at hm ⊢
  intro i hi
  have hi' := hm i hi
  split at hi'
  next r hr =>
    simp only [Bool.and_eq_true, decide_eq_true_eq, not_and] at hi' ⊢
    exact fun ht hlo hhi => hi' ht hlo (by omega)
  next hr => exact Bool.false_ne_true

/-- The replica regions are read from their own registers. -/
theorem inReplica_setReg {k : RegKey} (v : Nat) (hk : k.r = .fabCl) (key n : Nat) : (s.setReg k v).inReplica key n = s.inReplica key n := by
  have hregion (i : Nat) : (s.setReg k v).replRegion i = s.replRegion i := by
    have hreg (r : RegName) (hr : r ≠ .fabCl) : (s.setReg k v).reg (modRegI r i) = s.reg (modRegI r i) := by
      rw [State.reg_setReg, if_neg]
      exact fun e => hr (by rw [← hk, ← e]; rfl)
    simp only [State.replRegion, hreg .replCtl (by decide), hreg .replRloc (by decide), hreg .replHome (by decide)]
  simp only [State.inReplica, hregion]

theorem raForeign_own {e : RaEntry} (hown : s.isOwn e.addr = true) (hfits : e.op.fits e.addr) : s.raForeign e = false := by
  rw [State.raForeign]
  cases hop : e.op with
  | copyEnd rs w =>
    rw [hop] at hfits
    refine (if_pos rfl).trans (List.any_eq_false.mpr fun q hq => ?_)
    rw [hfits q hq, hown]
    simp
  | engine en d rs w => rw [hop] at hfits; exact hfits.elim
  | _ =>
    refine (if_neg Bool.false_ne_true).trans ?_
    rw [hown]
    rfl

/-- An entry for this module that nothing holds awaits its home agent. -/
theorem raSend_ready {e : RaEntry} (hfail : e.failed = false) (hown : s.isOwn e.addr = true) (hfits : e.op.fits e.addr)
    (hrepl : s.inReplica (e.addr % 2 ^ 52) 16 = false) : s.raSend tr e = s.setEntry tr e.gen (fun e => { e with stage := .ready }) := by
  have hwrites (n : Nat) (hn : n ≤ 16) : (decide (n ≠ 0) && s.inReplica (e.addr % 2 ^ 52) n) = false := by
    rw [inReplica_mono hn hrepl, Bool.and_false]
  have hstay : (e.flag && e.failed) = false := by rw [hfail, Bool.and_false]
  cases hop : e.op with
  | copyEnd rs w =>
    rw [hop] at hfits
    have hlines : s.foreignLines rs = [] := by
      rw [State.foreignLines, List.filter_eq_nil_iff.mpr fun q hq => by rw [hfits q hq, hown]; simp]
      rfl
    simp only [State.raSend, hop, FabOp.isData, if_true, State.raSendData, FabOp.runs, hlines, List.map_nil, List.findSome?_nil, List.isEmpty_nil]
  | engine en d rs w => rw [hop] at hfits; exact hfits.elim
  | store d =>
    rw [hop] at hfits
    simp only [State.raSend, hop, FabOp.isData, hstay, hown, hwrites d.length hfits, Bool.false_eq_true, if_false, if_true]
  | atom op w64 opd cmp =>
    have hsize : atomSize w64 ≤ 16 := by cases w64 <;> decide
    simp only [State.raSend, hop, FabOp.isData, hstay, hown, hwrites _ hsize, Bool.false_eq_true, if_false, if_true]
  | _ => simp [State.raSend, hop, FabOp.isData, hstay, hown]

/-- The entry with which an operation enters a request agent. -/
def raEntry (s : State) (tr : Tract) (src : RaSrc) (cls addr : Nat) (op : FabOp) (posted : Bool) (nd : Needs) : RaEntry :=
  { tag := freeTag (s.fab tr).ra, gen := (s.fab tr).nextGen, src := src, cls := cls, addr := addr, op := op, posted := posted,
    flag := s.isFlag cls op, preds := nd.gens, arrs := nd.arrs, failed := false, epoch := s.fabric.epoch,
    stage := .held, stamp := s.fabric.stamp }

/-- The state in which the entry has joined its agent and is counted. -/
def State.joined (s : State) (tr : Tract) (e : RaEntry) : State :=
  (({ s with fabric := { s.fabric with stamp := s.fabric.stamp + 1 } } : State).setFab tr
    { s.fab tr with ra := (s.fab tr).ra ++ [e], nextGen := (s.fab tr).nextGen + 1 }).bumpReg (tractReg .fabCl tr) 31 0 1

theorem checkUnit_of_none (hbad : s.up.badUnits = []) (tr : Tract) (u : Checked) : s.checkUnit tr u = s := by
  rw [State.checkUnit, hbad]
  rfl

theorem raIssue_eq (hbad : s.up.badUnits = []) (src : RaSrc) (cls addr : Nat) (op : FabOp) (posted : Bool) (nd : Needs) :
    s.raIssue tr src cls addr op posted nd = (if (s.joined tr (raEntry s tr src cls addr op posted nd)).raHeld tr (raEntry s tr src cls addr op posted nd)
      then s.joined tr (raEntry s tr src cls addr op posted nd)
      else (s.joined tr (raEntry s tr src cls addr op posted nd)).raSend tr (raEntry s tr src cls addr op posted nd), (s.fab tr).nextGen) := by
  have hcheck (b : Bool) : (if b then s.joined tr (raEntry s tr src cls addr op posted nd)
      else (s.joined tr (raEntry s tr src cls addr op posted nd)).checkUnit tr .mesh) = s.joined tr (raEntry s tr src cls addr op posted nd) := by
    rw [checkUnit_of_none (s := s.joined tr (raEntry s tr src cls addr op posted nd)) hbad, ite_self]
  exact congrArg (fun S : State => (if S.raHeld tr (raEntry s tr src cls addr op posted nd) then S
    else S.raSend tr (raEntry s tr src cls addr op posted nd), (s.fab tr).nextGen)) (hcheck _)

end

/-- An operation of a core has entered its tract's request agent: its entry and the older ones may have gone on, memory and the cores are as they
were. -/
def State.Entered (s t : State) (c : CoreId) (addr : Nat) (op : FabOp) (posted : Bool) : Prop :=
  t.mem = s.mem ∧ t.cores = s.cores ∧ t.up.badUnits = s.up.badUnits ∧ (t.fab c.tract).nextGen = (s.fab c.tract).nextGen + 1 ∧
    ∃ (f : RaEntry → RaEntry) (e : RaEntry), (∀ x : RaEntry, x.Same (f x)) ∧ (t.fab c.tract).ra = ((s.fab c.tract).ra ++ [e]).map f ∧
      e.src = .core c ∧ e.addr = addr ∧ e.op = op ∧ e.posted = posted ∧ e.gen = (s.fab c.tract).nextGen ∧
      ((s.fab c.tract).ra = [] → (s.core c).arr.queue = [] → s.isOwn addr = true → s.inReplica (addr % 2 ^ 52) 16 = false → (f e).stage = .ready)

section
variable {s : State} {c : CoreId} {addr : Nat} {op : FabOp} {posted : Bool}

theorem joined_ra (tr : Tract) (e : RaEntry) : ((s.joined tr e).fab tr).ra = (s.fab tr).ra ++ [e] ∧ ((s.joined tr e).fab tr).nextGen = (s.fab tr).nextGen + 1 := by
  have hfab : (s.joined tr e).fab tr = { s.fab tr with ra := (s.fab tr).ra ++ [e], nextGen := (s.fab tr).nextGen + 1 } := by
    refine (AMap.get_put _ _ _ _ _).trans ?_
    rw [if_pos rfl]
  rw [hfab]
  exact ⟨rfl, rfl⟩

/-- With an empty agent and array queue an operation waits for nothing. -/
theorem raNeeds_empty (cls : Nat) (hra : (s.fab c.tract).ra = []) (hqueue : (s.core c).arr.queue = []) : s.raNeeds c cls op = ⟨[], []⟩ := by
  have hgens : s.storeGens c.tract (.core c) = [] := by rw [State.storeGens, hra]; rfl
  cases op with
  | mark m => cases m <;> simp [State.raNeeds, hgens, hqueue]
  | atom op w64 opd cmp => simp [State.raNeeds, hgens]
  | _ => rfl

theorem coreIssue_entered (hbad : s.up.badUnits = []) (hfits : op.fits addr) :
    s.Entered (s.coreIssue c addr op posted).1 c addr op posted ∧ (s.coreIssue c addr op posted).2 = (s.fab c.tract).nextGen := by
  rw [State.coreIssue]
  generalize s.queueClass (coreParcel c) = cls
  rw [raIssue_eq hbad]
  refine ⟨?_, rfl⟩
  generalize he : raEntry s c.tract (.core c) cls addr op posted (s.raNeeds c cls op) = e
  obtain ⟨hra, hgen⟩ := joined_ra (s := s) c.tract e
  have hmem : (s.joined c.tract e).mem = s.mem := rfl
  have hcores : (s.joined c.tract e).cores = s.cores := rfl
  have hfields : e.src = .core c ∧ e.addr = addr ∧ e.op = op ∧ e.posted = posted ∧ e.gen = (s.fab c.tract).nextGen := by
    rw [← he]
    exact ⟨rfl, rfl, rfl, rfl, rfl⟩
  obtain ⟨hsrc, haddr, hop, hposted, hegen⟩ := hfields
  have hready (hempty : (s.fab c.tract).ra = []) (hqueue : (s.core c).arr.queue = []) (hown : s.isOwn addr = true) (hrepl : s.inReplica (addr % 2 ^ 52) 16 = false) :
      (s.joined c.tract e).raHeld c.tract e = false ∧
        (s.joined c.tract e).raSend c.tract e = (s.joined c.tract e).setEntry c.tract e.gen (fun e => { e with stage := .ready }) := by
    have hown' : (s.joined c.tract e).isOwn e.addr = true := by rw [haddr]; exact hown
    have hfits' : e.op.fits e.addr := by rw [hop, haddr]; exact hfits
    have hpreds : e.preds = [] ∧ e.arrs = [] ∧ e.failed = false := by
      rw [← he, raNeeds_empty cls hempty hqueue]
      exact ⟨rfl, rfl, rfl⟩
    obtain ⟨hpreds, harrs, hfail⟩ := hpreds
    refine ⟨?_, raSend_ready hfail hown' hfits' ?_⟩
    · rw [State.raHeld, State.raBehind, raForeign_own hown' hfits', hpreds, hsrc, harrs]
      rfl
    · rw [haddr, ← hrepl]
      exact inReplica_setReg _ rfl _ _
  by_cases hheld : (s.joined c.tract e).raHeld c.tract e = true
  · rw [if_pos hheld]
    refine ⟨hmem, hcores, rfl, hgen, id, e, RaEntry.Same.refl, by rw [hra, List.map_id], hsrc, haddr, hop, hposted, hegen, ?_⟩
    intro hempty hqueue hown hrepl
    rw [(hready hempty hqueue hown hrepl).1] at hheld
    cases hheld
  · rw [if_neg hheld]
    by_cases hall : (s.fab c.tract).ra = [] ∧ (s.core c).arr.queue = [] ∧ s.isOwn addr = true ∧ s.inReplica (addr % 2 ^ 52) 16 = false
    · obtain ⟨hempty, hqueue, hown, hrepl⟩ := hall
      rw [(hready hempty hqueue hown hrepl).2]
      obtain ⟨hmem', hcores', hbad', hgen', -⟩ := setEntry_goOn (s.joined c.tract e) c.tract e.gen (fun e => { e with stage := .ready })
        (fun x => ⟨rfl, rfl, rfl, rfl, rfl⟩)
      refine ⟨hmem', hcores', hbad', hgen'.trans hgen, atGen e.gen (fun e => { e with stage := .ready }), e, fun x => ?_, (setEntry_ra ..).trans (by rw [hra]),
        hsrc, haddr, hop, hposted, hegen, fun _ _ _ _ => ?_⟩
      · unfold atGen
        split
        · exact ⟨rfl, rfl, rfl, rfl, rfl⟩
        · exact .refl x
      · rw [atGen, if_pos rfl]
    · obtain ⟨hmem', hcores', hbad', hgen', f, hf, hra'⟩ := raSend_goOn (s.joined c.tract e) c.tract e
      refine ⟨hmem', hcores', hbad', hgen'.trans hgen, f, e, hf, by rw [hra', hra], hsrc, haddr, hop, hposted, hegen, fun h1 h2 h3 h4 => ?_⟩
      exact absurd ⟨h1, h2, h3, h4⟩ hall

theorem inReplica_setCore (k : Core) (key n : Nat) : (s.setCore c k).inReplica key n = s.inReplica key n := by
  have h : (s.setCore c k).replRegion = s.replRegion := rfl
  unfold State.inReplica
  rw [h]

/-- What an instruction leaves that has entered an operation: the core's change comes after. -/
theorem enters_of {t : State} {k0 k : Core} {n : Nat} (h : (s.setCore c k0).Entered t c addr op posted) (hqueue : k0.arr.queue = (s.core c).arr.queue)
    (hg : k.g = (s.core c).g) (ha : k.a = (s.core c).a) (hp : k.p = (s.core c).p) (hpc : k.pc = (s.core c).pc + BitVec.ofNat 18 n)
    (hwait : k.wait = none) : EntersAgent s (t.setCore c k) c addr op posted n := by
  obtain ⟨hmem, hcores, -, hgen, f, e, hf, hra, hsrc, haddr, hop, hposted, hegen, hready⟩ := h
  obtain ⟨hfgen, hfsrc, hfaddr, hfop, hfposted⟩ := hf e
  refine ⟨⟨f e, ?_, hfsrc.trans hsrc, hfaddr.trans haddr, hfop.trans hop, hfposted.trans hposted, hfgen.trans hegen, fun h1 h2 h3 h4 => ?_⟩, ?_, hmem,
    fun c' hc' => ?_, ?_⟩
  · show f e ∈ (t.fab c.tract).ra
    rw [hra]
    exact List.mem_map_of_mem (List.mem_append_right _ (List.mem_singleton.mpr rfl))
  · refine hready h1 ?_ h3 ((inReplica_setCore ..).trans h4)
    rw [State.core_setCore_self, hqueue]
    exact h2
  · show (t.fab c.tract).ra.length = _
    rw [hra, List.length_map, List.length_append]
    rfl
  · rw [State.core_setCore, if_neg hc', State.core, hcores]
    exact (State.core_setCore ..).trans (if_neg hc')
  · rw [State.core_setCore_self]
    exact ⟨hg, ha, hp, hpc, hwait⟩

end

/-! Loads that become outstanding (R42, R26). -/

section
variable {s : State} {c : CoreId} {off size n : Nat} {parts : List LoadPart}

theorem raFull_of_room {tr : Tract} (h : s.raShort tr 2 = false) : s.raFull tr = false := by
  rw [State.raShort, decide_eq_false_iff_not] at h
  rw [State.raFull, decide_eq_false_iff_not]
  omega

theorem accessFault_global {write : Bool} (halign : off % size = 0) (hga : gaBad off = false) : s.accessFault c 3 off size write = none := by
  rw [State.accessFault, if_neg (by simpa using halign), if_pos rfl, hga]
  rfl

theorem loadStall_none {space : BitVec 2} (h0 : space ≠ 0) (hopen : (s.core c).loadsOpen < 8) (hroom : space = 3 → s.raFull c.tract = false) :
    s.loadStall c space = none := by
  have hfull : ¬(decide (space = 3) && s.raFull c.tract) = true := by
    rw [Bool.and_eq_true, decide_eq_true_eq]
    rintro ⟨h3, hfull⟩
    rw [hroom h3] at hfull
    cases hfull
  rw [State.loadStall, if_neg h0, if_neg (by omega), if_neg hfull]

/-- The load that an access leaves outstanding. -/
def accessLoad (s : State) (c : CoreId) (space : BitVec 2) (off size : Nat) (parts : List LoadPart) (gen : Option Nat) (r : Option Response) : OutLoad :=
  { parts := parts, space := space.toNat, pc := (s.core c).pc.toNat, addr := s.spaceAddr c space off, size := size, gen := gen, resp := r, atom := false, stopped := none }

/-- A load from the commons or the slice joins the outstanding loads with its answer (R42). -/
theorem loadAct_outstanding {space : BitVec 2} (hspace : space = 1 ∨ space = 2) (halign : off % size = 0) (hrange : off + size ≤ spaceSize space)
    (hopen : (s.core c).loadsOpen < 8) : s.loadAct c space off size n parts =
      (s.touch (spaceKey c space off) size).setCore c ((s.core c).awaiting (accessLoad s c space off size parts none
        (some { status := 0, data := s.peek (spaceKey c space off) size, poison := s.poisonMask (spaceKey c space off) size })) n) := by
  have h3 : space ≠ 3 := by rcases hspace with h | h <;> rw [h] <;> decide
  have h0 : space ≠ 0 := by rcases hspace with h | h <;> rw [h] <;> decide
  rw [State.loadAct, accessFault_none halign h3 hrange (fun h => absurd h (by decide)), loadStall_none h0 hopen (fun h => absurd h h3)]
  dsimp only
  rw [if_neg h0, if_neg h3, State.modCore_eq, State.core, State.touch_cores]
  rfl

/-- A load of space GL enters the request agent and is outstanding under its entry's number (R42, R254). -/
theorem loadAct_global (halign : off % size = 0) (hga : gaBad off = false) (hopen : (s.core c).loadsOpen < 8) (hroom : s.raShort c.tract 2 = false)
    (hbad : s.up.badUnits = []) : ∃ t : State, s.Entered t c off (.load size) false ∧ s.loadAct c 3 off size n parts =
      t.setCore c ((s.core c).awaiting (accessLoad s c 3 off size parts (some (s.fab c.tract).nextGen) none) n) := by
  obtain ⟨hentered, hgen⟩ := coreIssue_entered (c := c) (addr := off) (op := .load size) (posted := false) hbad trivial
  obtain ⟨-, hcores, -⟩ := id hentered
  refine ⟨_, hentered, ?_⟩
  rw [State.loadAct, accessFault_global halign hga, loadStall_none (by decide) hopen (fun _ => raFull_of_room hroom)]
  dsimp only
  rw [if_neg (by decide), if_pos rfl, State.modCore_eq, hgen, State.core, hcores]
  rfl

theorem awaiting_frame (k : Core) (l : OutLoad) (n : Nat) :
    (k.awaiting l n).g = k.g ∧ (k.awaiting l n).a = k.a ∧ (k.awaiting l n).p = k.p ∧ (k.awaiting l n).pc = k.pc + BitVec.ofNat 18 n ∧
      (k.awaiting l n).wait = none ∧ (k.awaiting l n).loads.length = k.loads.length + 1 ∧ (k.awaiting l n).loads.getLast? = some l := by
  obtain ⟨ls, ar, h, hlen⟩ := awaiting_eq k l n
  rw [h]
  exact ⟨rfl, rfl, rfl, rfl, rfl, (List.length_append ..).trans (by rw [hlen]; rfl), List.getLast?_concat⟩

end

theorem quadParts_regs (r : BitVec 5) : (quadParts r).map (fun x => x.reg) = [.g r, .g (r + 1), .g (r + 2), .g (r + 3)] := by
  show [CReg.g (r + 0#5), .g (r + 1), .g (r + 2), .g (r + 3)] = _
  rw [BitVec.add_zero]

/-- The loads of one, two and four words, and the registers they fill (R42). -/
theorem exec_load {i : Issue} {f : FmtM} {s : State} {ins : Issue → FmtM → Instr} {n : Nat} {regs : List CReg}
    (hins : (∃ q ∈ loadOps, ins = q.1 ∧ n = q.2.1 ∧ regs = [.g f.rt]) ∨ (f.rt.toNat < 16 ∧ ins = .lda ∧ n = 8 ∧ regs = [.a (f.rt.setWidth 4)]) ∨
      (f.rt.toNat % 4 = 0 ∧ f.rt ≠ 0 ∧ ins = .ldq ∧ n = 16 ∧ regs = [.g f.rt, .g (f.rt + 1), .g (f.rt + 2), .g (f.rt + 3)]))
    (hs : s.spells i (ins i f) = true) : ∃ parts bad, bad = false ∧ exec (ins i f) s = loadM i f n bad parts s ∧ parts.map (fun x => x.reg) = regs := by
  rcases hins with ⟨q, hq, rfl, rfl, rfl⟩ | ⟨hrt, rfl, rfl, rfl⟩ | ⟨hquad, h0, rfl, rfl, rfl⟩
  · obtain ⟨sext, hexec, -⟩ := exec_loadOps q hq hs
    exact ⟨_, _, rfl, hexec, rfl⟩
  · exact ⟨_, slotABad f.rt, by simp [slotABad]; omega, State.asSpelled_of_spells hs, rfl⟩
  · exact ⟨_, quadBad f.rt, by simp [quadBad, hquad]; exact fun e => h0 (BitVec.eq_of_toNat_eq e), State.asSpelled_of_spells hs, quadParts_regs f.rt⟩

/-! Stores and atomics of space GL (R42, R43). -/

section
variable {s : State} {c : CoreId} {off n : Nat}

theorem storeStall_room {space : BitVec 2} (h0 : space ≠ 0) (huse : s.storesUse c < 16) (hfull : s.raFull c.tract = false) : s.storeStall c space = none := by
  rw [State.storeStall, if_neg h0, if_neg (by omega), hfull, Bool.and_false]
  rfl

/-- What a write of a core adds to its TSIG is all that signing it changes (R424). -/
theorem sign_eq (s : State) (c : CoreId) (addr : Nat) (bs : List Byte) : ∃ w, s.sign c addr bs = s.setCore c { s.core c with tsig := w } ∨ s.sign c addr bs = s := by
  unfold State.sign
  split
  · exact ⟨_, .inl rfl⟩
  · exact ⟨0, .inr rfl⟩

/-- A store of space GL enters the request agent and the core goes on. -/
theorem storeAct_global {data : List Byte} (hlen : data.length ≤ 16) (halign : off % data.length = 0) (hga : gaBad off = false) (huse : s.storesUse c < 16)
    (hroom : s.raShort c.tract 2 = false) (hbad : s.up.badUnits = []) :
    ∃ u t : State, (u = s ∨ ∃ w, u = s.setCore c { s.core c with tsig := w }) ∧ u.Entered t c off (.store data) true ∧
      s.storeAct c 3 off n data = t.setCore c ((u.core c).retire n) := by
  obtain ⟨w, hsign⟩ := sign_eq s c (s.spaceAddr c 3 off) data
  have hu : (s.sign c (s.spaceAddr c 3 off) data).up.badUnits = [] := by rcases hsign with h | h <;> rw [h] <;> exact hbad
  obtain ⟨hentered, -⟩ := coreIssue_entered (s := s.sign c (s.spaceAddr c 3 off) data) (c := c) (addr := off) (op := .store data) (posted := true) hu hlen
  obtain ⟨-, hcores, -⟩ := id hentered
  refine ⟨_, _, ?_, hentered, ?_⟩
  · rcases hsign with h | h
    · exact .inr ⟨w, h⟩
    · exact .inl h
  · rw [State.storeAct, accessFault_global halign hga, storeStall_room (by decide) huse (raFull_of_room hroom)]
    dsimp only
    rw [if_neg (show ¬(3 : BitVec 2) = 0 by decide), if_pos rfl, State.modCore_eq, State.core, hcores]
    rfl

/-- An atomic of space GL enters the request agent; with a register to fill it is outstanding under its entry's number (R43). -/
theorem atomAct_global {f : FmtA} {op opd cmp : Nat} (hspace : f.space = 3) (halign : ((s.core c).getA f.ab).toNat % atomSize f.size = 0)
    (hga : gaBad ((s.core c).getA f.ab).toNat = false) (huse : s.storesUse c < 16) (hroom : s.raShort c.tract 2 = false) (hbad : s.up.badUnits = []) :
    ∃ t : State, s.Entered t c ((s.core c).getA f.ab).toNat (.atom op f.size opd cmp) (f.rd == 0) ∧
      s.atomAct c f op n opd cmp = t.setCore c ((s.core c).afterAtom f (atomLoad s c f (some (s.fab c.tract).nextGen) none) n) := by
  obtain ⟨hentered, hgen⟩ := coreIssue_entered (c := c) (addr := ((s.core c).getA f.ab).toNat) (op := .atom op f.size opd cmp) (posted := f.rd == 0) hbad trivial
  obtain ⟨-, hcores, -⟩ := id hentered
  have hcore : (s.coreIssue c ((s.core c).getA f.ab).toNat (.atom op f.size opd cmp) (f.rd == 0)).1.core c = s.core c := by
    rw [State.core, hcores]
    rfl
  refine ⟨_, hentered, ?_⟩
  rw [State.atomAct, hspace, accessFault_global halign hga, storeStall_room (by decide) huse (raFull_of_room hroom)]
  dsimp only
  rw [if_pos rfl, State.modCore_eq, State.modCore_eq, hgen, hcore]
  unfold Core.afterAtom atomLoad
  rw [hspace]
  split <;> rfl

end

/-! Copies with a global end (R44, R254). -/

section
variable {s : State} {c : CoreId} {f : FmtCpy} {n : Nat}

theorem copyRange_none {space : BitVec 2} {off len : Nat} {write : Bool} (hrange : space ≠ 3 → off + len ≤ spaceSize space)
    (hown : write = true → space = 1 → s.cmOwned c.tract (off + len - 1) = false) : s.copyRange c space off len write = none := by
  have hprotect : ¬(write && space == 1 && s.cmOwned c.tract (off + len - 1)) = true := by
    simp only [Bool.and_eq_true, beq_iff_eq, not_and, Bool.not_eq_true]
    exact fun h => hown h.1 h.2
  rw [State.copyRange]
  by_cases h3 : space = 3
  · rw [if_pos h3]
  · rw [if_neg h3, if_neg (by have := hrange h3; omega), if_neg hprotect]

theorem copyFault_none {src dst len : Nat} (hlen4 : len % 4 = 0) (hlo : 4 ≤ len) (hhi : len ≤ 1048576) (hsrc4 : src % 4 = 0) (hdst4 : dst % 4 = 0)
    (hgs : f.sspace = 3 → gaBad src = false) (hgd : f.dspace = 3 → gaBad dst = false) (hrs : s.copyRange c f.sspace src len false = none)
    (hrd : s.copyRange c f.dspace dst len true = none) : s.copyFault c f src dst len = none := by
  have hga {space : BitVec 2} {a : Nat} (h : space = 3 → gaBad a = false) : ¬(decide (space = 3) && gaBad a) = true := by
    rw [Bool.and_eq_true, decide_eq_true_eq]
    rintro ⟨h3, hb⟩
    rw [h h3] at hb
    cases hb
  have hbad : ¬(decide (len % 4 ≠ 0) || decide (len < 4) || decide (1048576 < len) || decide (src % 4 ≠ 0) || decide (dst % 4 ≠ 0)) = true := by
    simp only [Bool.or_eq_true, decide_eq_true_eq]
    omega
  rw [State.copyFault, if_neg hbad, if_neg (hga hgs), if_neg (hga hgd), hrs, hrd]

theorem copyStall_none (hcopies : (s.core c).copies.length < 32) (hastat : (s.core c).astatQueued = none) (hroom : s.raShort c.tract 2 = false) :
    s.copyStall c f = none := by
  have hshort (m : Nat) (hm : m ≤ 2) : s.raShort c.tract m = false := by
    rw [State.raShort, decide_eq_false_iff_not] at hroom ⊢
    omega
  have hn : b2n (f.sspace == 3) + b2n (f.dspace == 3) ≤ 2 := by
    cases f.sspace == 3 <;> cases f.dspace == 3 <;> decide
  rw [State.copyStall, hastat, ite_self]
  dsimp only
  rw [if_neg (by omega), hshort _ hn, Bool.and_false]
  rfl

/-- A copy that joins those in flight. -/
def copyJob (k : Core) (f : FmtCpy) (gs gd : Option Nat) (after : List Nat) : CopyJob :=
  { sspace := f.sspace.toNat, src := (k.getA f.as_).toNat, dspace := f.dspace.toNat, dst := (k.getA f.ad).toNat, len := (k.getG f.gl).toNat, ac := f.ac,
    mark := none, genS := gs, genD := gd, after := after, stage := .flight }

/-- What a core is left with when a copy has started. -/
def Core.copying (k : Core) (j : CopyJob) (n : Nat) : Core := Core.retire { k with copies := k.copies ++ [j] } n

/-- A copy that nothing refuses or holds: its ends enter the request agent one after the other. -/
theorem copyAct_eq (hfault : s.copyFault c f ((s.core c).getA f.as_).toNat ((s.core c).getA f.ad).toNat ((s.core c).getG f.gl).toNat = none)
    (hstall : s.copyStall c f = none) : ∃ after, s.copyAct c f none n =
      ((s.copyEnd c f.sspace ((s.core c).getA f.as_).toNat ((s.core c).getG f.gl).toNat false).1.copyEnd c f.dspace ((s.core c).getA f.ad).toNat
        ((s.core c).getG f.gl).toNat true).1.modCore c (fun k => k.copying (copyJob (s.core c) f
          (s.copyEnd c f.sspace ((s.core c).getA f.as_).toNat ((s.core c).getG f.gl).toNat false).2
          ((s.copyEnd c f.sspace ((s.core c).getA f.as_).toNat ((s.core c).getG f.gl).toNat false).1.copyEnd c f.dspace ((s.core c).getA f.ad).toNat
            ((s.core c).getG f.gl).toNat true).2 after) n) := by
  refine ⟨if f.sspace = 3 then s.storeGens c.tract (.core c) else [], ?_⟩
  rw [State.copyAct, hfault, hstall]
  rfl

theorem copyEnd_local {space : BitVec 2} (h : space ≠ 3) (addr len : Nat) (write : Bool) : s.copyEnd c space addr len write = (s, none) := if_neg h

theorem copyEnd_global (hbad : s.up.badUnits = []) (addr len : Nat) (write : Bool) :
    s.Entered (s.copyEnd c 3 addr len write).1 c addr (.copyEnd [(addr, len)] write) false ∧
      (s.copyEnd c 3 addr len write).2 = some (s.fab c.tract).nextGen := by
  obtain ⟨hentered, hgen⟩ := coreIssue_entered (s := s) (c := c) (addr := addr) (op := .copyEnd [(addr, len)] write) (posted := false) hbad
    (fun q hq => by rw [List.mem_singleton.mp hq])
  exact ⟨hentered, congrArg some hgen⟩

theorem Entered.core {t : State} {addr : Nat} {op : FabOp} {posted : Bool} (h : s.Entered t c addr op posted) (c' : CoreId) : t.core c' = s.core c' := by
  obtain ⟨-, hcores, -⟩ := h
  rw [State.core, hcores]
  rfl

end

/-! Mark operations at a remote mark (R50, R294). -/

section
variable {s : State} {c : CoreId} {f : FmtK}

theorem remoteMarkFault_none {addr : Nat} (halign : addr % 4 = 0) (hga : gaBad addr = false) : remoteMarkFault addr = none := by
  rw [remoteMarkFault, if_neg (by simpa using halign), hga]
  rfl

theorem remoteMark_enters {addr : Nat} {op : MarkOp} {posted : Bool} (next : Nat → Core → Core) (halign : addr % 4 = 0) (hga : gaBad addr = false)
    (hfault : (s.core c).arr.fault = none) (hroom : s.raShort c.tract 2 = false) (hbad : s.up.badUnits = []) :
    ∃ t : State, s.Entered t c addr (.mark op) posted ∧
      s.remoteMark c addr op posted next = t.setCore c (next (s.fab c.tract).nextGen (s.core c)) := by
  obtain ⟨hentered, hgen⟩ := coreIssue_entered (c := c) (addr := addr) (op := .mark op) (posted := posted) hbad trivial
  refine ⟨_, hentered, ?_⟩
  rw [State.remoteMark, remoteMarkFault_none halign hga]
  dsimp only
  rw [State.orGangFault_of_none hfault, raFull_of_room hroom, if_neg Bool.false_ne_true, State.modCore_eq, hgen, Entered.core hentered]

theorem mwaitAct_remote (hremote : f.remote = true) (halign : ((s.core c).getA f.ab).toNat % 4 = 0) (hga : gaBad ((s.core c).getA f.ab).toNat = false)
    (hroom : s.raShort c.tract 2 = false) (hbad : s.up.badUnits = []) :
    ∃ t : State, s.Entered t c ((s.core c).getA f.ab).toNat (.mark (.wait ((s.core c).getG f.g))) false ∧
      s.mwaitAct c f = t.setCore c { s.core c with wait := some (.remoteWait (s.fab c.tract).nextGen ((s.core c).getA f.ab).toNat ((s.core c).getG f.g) false) } := by
  obtain ⟨hentered, hgen⟩ := coreIssue_entered (c := c) (addr := ((s.core c).getA f.ab).toNat) (op := .mark (.wait ((s.core c).getG f.g))) (posted := false) hbad trivial
  refine ⟨_, hentered, ?_⟩
  rw [State.mwaitAct, hremote, if_pos rfl]
  dsimp only
  rw [remoteMarkFault_none halign hga]
  dsimp only
  rw [raFull_of_room hroom, if_neg Bool.false_ne_true, State.modCore_eq, hgen, Entered.core hentered]

theorem fmtKBad_remote (hremote : f.remote = true) (hmark : f.mark = 0) : fmtKBad f = false := by
  rw [fmtKBad, hremote, if_pos rfl, hmark]
  rfl

end

/-! The instructions, at a core that is ready for them. -/

section
variable {s : State} {i : Issue}

theorem raShort_fetched (ib : List (Nat × Word)) (tr : Tract) (n : Nat) :
    (s.setCore i.core { s.core i.core with ibuf := ib }).raShort tr n = s.raShort tr n := rfl

/-- What a read of a local space returns does not depend on a core. -/
theorem peek_setCore {c : CoreId} {space : BitVec 2} {off n : Nat} (h : off + n ≤ spaceSize space) (c' : CoreId) (k : Core) :
    (s.setCore c' k).peek (spaceKey c space off) n = s.peek (spaceKey c space off) n := by
  refine List.map_congr_left fun i hi => ?_
  have hi' := List.mem_range.mp hi
  have hw := windowOf_spaceKey (c := c) (space := space) (off := off + i) (by omega)
  have hp := keyParcel_spaceKey (c := c) (space := space) (off := off + i) (by omega)
  have htile : (s.setCore c' k).cmTile (coreParcel c) (off + i) = s.cmTile (coreParcel c) (off + i) := rfl
  rw [spaceKey_add, State.peekByte, State.peekByte, hw, hp]
  split_ifs with h0 h1
  · rfl
  · dsimp only
    rw [htile]
    rfl
  · rfl

/-- A load from the commons or the slice (R42). -/
theorem load_outstanding {f : FmtM} {n : Nat} {parts : List LoadPart} {bad : Bool} (hspace : f.space = 1 ∨ f.space = 2) (hext : f.ext.isSome = true → f.off8 = 0)
    (hopen : (s.core i.core).loadsOpen < 8) (h : Ready s i (extLen f.ext) [.a f.ab]) (hbad : bad = false)
    (halign : fmtMOffset (s.core i.core) f n % n = 0) (hrange : fmtMOffset (s.core i.core) f n + n ≤ spaceSize f.space) :
    ∃ t l r, loadM i f n bad parts s = .next t ∧ (t.core i.core).g = (s.core i.core).g ∧ (t.core i.core).a = (s.core i.core).a ∧
      (t.core i.core).p = (s.core i.core).p ∧ (∀ c', c' ≠ i.core → t.core c' = s.core c') ∧
      (t.core i.core).pc = (s.core i.core).pc + BitVec.ofNat 18 (extLen f.ext) ∧ (t.core i.core).wait = none ∧ t.mem.bytes = s.mem.bytes ∧
      (t.core i.core).loads.length = (s.core i.core).loads.length + 1 ∧ (t.core i.core).loads.getLast? = some l ∧
      l.pc = (s.core i.core).pc.toNat ∧ l.size = n ∧ l.parts = parts ∧ l.resp = some r ∧ r.status = 0 ∧
      r.data = s.peek (spaceKey i.core f.space (fmtMOffset (s.core i.core) f n)) n := by
  obtain ⟨ib, hexec⟩ := loadM_of_ready hext hbad h (size := n) (parts := parts)
  rw [loadAct_outstanding (s := s.setCore i.core { s.core i.core with ibuf := ib }) hspace halign hrange (by rw [State.core_setCore_self]; exact hopen)] at hexec
  generalize hl : accessLoad _ _ _ _ _ _ _ _ = l at hexec
  obtain ⟨hg, ha, hp, hpc, hwait, hlen, hlast⟩ := awaiting_frame ((s.setCore i.core { s.core i.core with ibuf := ib }).core i.core) l (extLen f.ext)
  refine ⟨_, l, ⟨0, (s.setCore i.core { s.core i.core with ibuf := ib }).peek (spaceKey i.core f.space (fmtMOffset (s.core i.core) f n)) n,
    (s.setCore i.core { s.core i.core with ibuf := ib }).poisonMask (spaceKey i.core f.space (fmtMOffset (s.core i.core) f n)) n⟩, hexec, ?_⟩
  rw [State.core_setCore_self]
  rw [State.core_setCore_self] at hg ha hp hpc hwait hlen hlast ⊢
  refine ⟨hg, ha, hp, fun c' hc' => ?_, hpc, hwait, ?_, hlen, hlast, ?_⟩
  · rw [State.core_setCore, if_neg hc', State.core, State.touch_cores]
    exact (State.core_setCore ..).trans (if_neg hc')
  · exact State.touch_bytes ..
  · rw [← hl]
    refine ⟨?_, rfl, rfl, rfl, rfl, peek_setCore hrange ..⟩
    have hcore := congrArg (fun k : Core => k.pc.toNat) (State.core_setCore_self s i.core { s.core i.core with ibuf := ib })
    exact hcore

/-- A load of space GL (R42, R254). -/
theorem load_global {f : FmtM} {n : Nat} {parts : List LoadPart} {bad : Bool} (hspace : f.space = 3) (hext : f.ext.isSome = true → f.off8 = 0)
    (hroom : s.raShort i.core.tract 2 = false) (hunits : s.up.badUnits = []) (hopen : (s.core i.core).loadsOpen < 8)
    (h : Ready s i (extLen f.ext) [.a f.ab]) (hbad : bad = false)
    (halign : fmtMOffset (s.core i.core) f n % n = 0) (hga : gaBad (fmtMOffset (s.core i.core) f n) = false) :
    ∃ t : State, loadM i f n bad parts s = .next t ∧ EntersAgent s t i.core (fmtMOffset (s.core i.core) f n) (.load n) false (extLen f.ext) ∧
      AwaitsLoad s t i.core (fmtMOffset (s.core i.core) f n) n (parts.map (fun x => x.reg)) := by
  obtain ⟨ib, hexec⟩ := loadM_of_ready hext hbad h (size := n) (parts := parts)
  obtain ⟨t, hentered, hact⟩ := loadAct_global (s := s.setCore i.core { s.core i.core with ibuf := ib }) (c := i.core) (n := extLen f.ext) (parts := parts)
    halign hga (by rw [State.core_setCore_self]; exact hopen) hroom hunits
  rw [hspace, hact] at hexec
  generalize hl : accessLoad _ _ _ _ _ _ _ _ = l at hexec
  obtain ⟨hg, ha, hp, hpc, hwait, hlen, hlast⟩ := awaiting_frame ((s.setCore i.core { s.core i.core with ibuf := ib }).core i.core) l (extLen f.ext)
  refine ⟨_, hexec, ?_⟩
  rw [State.core_setCore_self] at hg ha hp hpc hwait hlen hlast ⊢
  refine ⟨enters_of hentered rfl hg ha hp hpc hwait, l, ?_⟩
  rw [State.core_setCore_self]
  refine ⟨hlast, hlen, ?_⟩
  rw [← hl]
  exact ⟨rfl, rfl, rfl, rfl, rfl, rfl⟩

/-- A store of space GL (R42, R254). -/
theorem store_global {f : FmtM} (hspace : f.space = 3) (hext : f.ext.isSome = true → f.off8 = 0) (hroom : s.raShort i.core.tract 2 = false)
    (hunits : s.up.badUnits = [])
    (q : (Issue → FmtM → Instr) × Nat × (BitVec 5 → Bool) × (BitVec 5 → List CReg) × (Core → BitVec 5 → Nat)) (hq : q ∈ storeOps)
    (hrt : q.2.2.1 f.rt = true) (h : Ready s i (extLen f.ext) (.a f.ab :: q.2.2.2.1 f.rt)) (huse : s.storesUse i.core < 16)
    (halign : fmtMOffset (s.core i.core) f q.2.1 % q.2.1 = 0) (hga : gaBad (fmtMOffset (s.core i.core) f q.2.1) = false) (hs : s.spells i (q.1 i f) = true) :
    ∃ t : State, exec (q.1 i f) s = .next t ∧ EntersAgent s t i.core (fmtMOffset (s.core i.core) f q.2.1)
      (.store (natLe q.2.1 (q.2.2.2.2 (s.core i.core) f.rt))) true (extLen f.ext) := by
  obtain ⟨ib, hexec⟩ := exec_storeOps hext q hq hrt h hs
  have hsize : q.2.1 ≤ 16 := by
    simp only [storeOps, List.mem_cons, List.not_mem_nil, or_false] at hq
    rcases hq with rfl | rfl | rfl | rfl | rfl <;> decide
  have hlen : (natLe q.2.1 (q.2.2.2.2 (s.core i.core) f.rt)).length = q.2.1 := natLe_length ..
  have huse' : (s.setCore i.core { s.core i.core with ibuf := ib }).storesUse i.core < 16 := by
    have : (s.setCore i.core { s.core i.core with ibuf := ib }).storesUse i.core = s.storesUse i.core := by
      rw [State.storesUse, State.core_setCore_self]
      rfl
    omega
  obtain ⟨u, t, hu, hentered, hact⟩ := storeAct_global (s := s.setCore i.core { s.core i.core with ibuf := ib }) (c := i.core) (n := extLen f.ext)
    (data := natLe q.2.1 (q.2.2.2.2 (s.core i.core) f.rt)) (hlen.le.trans hsize) (by rw [hlen]; exact halign) hga huse' hroom hunits
  rw [hspace, hact] at hexec
  refine ⟨_, hexec, ?_⟩
  rcases hu with rfl | ⟨w, rfl⟩
  · rw [State.core_setCore_self]
    exact enters_of hentered rfl rfl rfl rfl rfl rfl
  · rw [State.core_setCore_self, State.setCore_setCore] at hentered
    rw [State.core_setCore_self, State.core_setCore_self]
    exact enters_of hentered rfl rfl rfl rfl rfl rfl

/-- An atomic of space GL, at a core that has fetched it (R43, R254). -/
theorem atom_global {f : FmtA} {op n opd cmp : Nat} {ib : List (Nat × Word)} (hspace : f.space = 3) (hroom : s.raShort i.core.tract 2 = false)
    (hunits : s.up.badUnits = []) (huse : s.storesUse i.core < 16) (halign : ((s.core i.core).getA f.ab).toNat % atomSize f.size = 0)
    (hga : gaBad ((s.core i.core).getA f.ab).toNat = false) :
    EntersAgent s ((s.setCore i.core { s.core i.core with ibuf := ib }).atomAct i.core f op n opd cmp) i.core ((s.core i.core).getA f.ab).toNat
        (.atom op f.size opd cmp) (f.rd == 0) n ∧
      (f.rd ≠ 0 → AwaitsLoad s ((s.setCore i.core { s.core i.core with ibuf := ib }).atomAct i.core f op n opd cmp) i.core ((s.core i.core).getA f.ab).toNat
        (atomSize f.size) (pairOf f.size f.rd)) := by
  have hget : ((s.setCore i.core { s.core i.core with ibuf := ib }).core i.core).getA f.ab = (s.core i.core).getA f.ab := by
    rw [State.core_setCore_self]
    rfl
  have huse' : (s.setCore i.core { s.core i.core with ibuf := ib }).storesUse i.core < 16 := by
    have : (s.setCore i.core { s.core i.core with ibuf := ib }).storesUse i.core = s.storesUse i.core := by
      rw [State.storesUse, State.core_setCore_self]
      rfl
    omega
  obtain ⟨t, hentered, hact⟩ := atomAct_global (s := s.setCore i.core { s.core i.core with ibuf := ib }) (c := i.core) (n := n) (op := op) (opd := opd)
    (cmp := cmp) hspace (by rw [hget]; exact halign) (by rw [hget]; exact hga) huse' hroom hunits
  rw [hget] at hentered
  rw [hact]
  generalize hl : atomLoad _ _ _ _ _ = l
  obtain ⟨hg, ha, hp, hpc, hwait, -, hloads⟩ := afterAtom_frame ((s.setCore i.core { s.core i.core with ibuf := ib }).core i.core) f l n
  rw [State.core_setCore_self] at hg ha hp hpc hwait hloads ⊢
  refine ⟨enters_of hentered rfl hg ha hp hpc hwait, fun hrd => ⟨l, ?_⟩⟩
  rw [State.core_setCore_self]
  obtain ⟨hlast, hlen⟩ := hloads hrd
  refine ⟨hlast, hlen, ?_⟩
  rw [← hl, ← atomParts_regs]
  refine ⟨?_, rfl, congrArg BitVec.toNat hspace, rfl, rfl, rfl⟩
  exact (if_pos hspace).trans (by rw [hget])

end

section
variable {s : State} {i : Issue}

/-- A copy of which one end lies in space GL, or both do (R44, R254). -/
theorem cpy_global {f : FmtCpy} {len : Nat} (hres : f.reserved = 0) (hlen : len = ((s.core i.core).getG f.gl).toNat) (hlen4 : len % 4 = 0) (hlo : 4 ≤ len)
    (hhi : len ≤ 1048576) (hsrc4 : ((s.core i.core).getA f.as_).toNat % 4 = 0) (hdst4 : ((s.core i.core).getA f.ad).toNat % 4 = 0)
    (hcopies : (s.core i.core).copies.length < 32) (hastat : (s.core i.core).astatQueued = none) (h : Ready s i 4 [.a f.as_, .a f.ad, .g f.gl])
    (hs : s.spells i (.cpy i f) = true) (hroom : s.raShort i.core.tract 2 = false)
    (hgs : f.sspace = 3 → gaBad ((s.core i.core).getA f.as_).toNat = false) (hgd : f.dspace = 3 → gaBad ((s.core i.core).getA f.ad).toNat = false)
    (hsrc : f.sspace ≠ 3 → ((s.core i.core).getA f.as_).toNat + len ≤ spaceSize f.sspace)
    (hdst : f.dspace ≠ 3 → ((s.core i.core).getA f.ad).toNat + len ≤ spaceSize f.dspace)
    (hown : f.dspace = 1 → s.cmOwned i.core.tract (((s.core i.core).getA f.ad).toNat + len - 1) = false) :
    ∃ (k : Core) (after : List Nat), k.g = (s.core i.core).g ∧ k.a = (s.core i.core).a ∧ k.p = (s.core i.core).p ∧ k.arr = (s.core i.core).arr ∧
      SameRegs (s.core i.core) k ∧ k.copies = (s.core i.core).copies ∧ k.pc = (s.core i.core).pc ∧
      exec (.cpy i f) s = .next ((((s.setCore i.core k).copyEnd i.core f.sspace ((s.core i.core).getA f.as_).toNat len false).1.copyEnd i.core f.dspace
        ((s.core i.core).getA f.ad).toNat len true).1.modCore i.core (fun k' => k'.copying (copyJob k f
          ((s.setCore i.core k).copyEnd i.core f.sspace ((s.core i.core).getA f.as_).toNat len false).2
          (((s.setCore i.core k).copyEnd i.core f.sspace ((s.core i.core).getA f.as_).toNat len false).1.copyEnd i.core f.dspace
            ((s.core i.core).getA f.ad).toNat len true).2 after) 4)) := by
  obtain ⟨ib, hib⟩ := s.noteFetch_eq i 4
  have hcore : (s.setCore i.core { s.core i.core with ibuf := ib }).core i.core = { s.core i.core with ibuf := ib } := State.core_setCore_self ..
  have hfault : (s.setCore i.core { s.core i.core with ibuf := ib }).copyFault i.core f ((s.core i.core).getA f.as_).toNat ((s.core i.core).getA f.ad).toNat len = none :=
    copyFault_none hlen4 hlo hhi hsrc4 hdst4 hgs hgd (copyRange_none hsrc (fun h => absurd h (by decide))) (copyRange_none hdst (fun _ => hown))
  have hstall : (s.setCore i.core { s.core i.core with ibuf := ib }).copyStall i.core f = none :=
    copyStall_none (by rw [hcore]; exact hcopies) (by rw [hcore]; exact hastat) hroom
  obtain ⟨after, hact⟩ := copyAct_eq (s := s.setCore i.core { s.core i.core with ibuf := ib }) (c := i.core) (f := f) (n := 4)
    (by rw [hcore, hlen] at *; exact hfault) hstall
  have hexec : exec (.cpy i f) s = .next ((s.setCore i.core { s.core i.core with ibuf := ib }).copyAct i.core f none 4) := by
    refine (State.asSpelled_of_spells hs).trans (congrArg _ ?_)
    rw [show (f.reserved != 0) = false by simp [hres]]
    exact (issue_of_ready h _).trans (by rw [hib])
  rw [hact, hcore] at hexec
  subst hlen
  refine ⟨{ s.core i.core with ibuf := ib }, after, rfl, rfl, rfl, rfl, ?_, rfl, rfl, hexec⟩
  and_intros <;> rfl

/-- MADD and MSUB with REMOTE 1 (R50, R51). -/
theorem markAdd_global {f : FmtK} (hremote : f.remote = true) (hmark : f.mark = 0) (h : Ready s i 4 [.g f.g, .a f.ab])
    (hfault : (s.core i.core).arr.fault = none) (halign : ((s.core i.core).getA f.ab).toNat % 4 = 0) (hga : gaBad ((s.core i.core).getA f.ab).toNat = false)
    (hroom : s.raShort i.core.tract 2 = false) (hunits : s.up.badUnits = []) (sub : Bool) :
    ∃ t : State, EntersAgent s t i.core ((s.core i.core).getA f.ab).toNat
        (.mark (if sub then .sub ((s.core i.core).getG f.g) else .add ((s.core i.core).getG f.g))) true 4 ∧
      s.issue i 4 (fmtKBad f) (fmtKReads f) (fun s => s.markAddAct i.core f sub) = t := by
  obtain ⟨ib, hib⟩ := s.noteFetch_eq i 4
  have hcore : (s.setCore i.core { s.core i.core with ibuf := ib }).core i.core = { s.core i.core with ibuf := ib } := State.core_setCore_self ..
  obtain ⟨t, hentered, hact⟩ := remoteMark_enters (s := s.setCore i.core { s.core i.core with ibuf := ib }) (c := i.core) (posted := true)
    (addr := ((s.core i.core).getA f.ab).toNat) (op := if sub then .sub ((s.core i.core).getG f.g) else .add ((s.core i.core).getG f.g))
    (fun _ k => k.retire 4) halign hga (by rw [hcore]; exact hfault) hroom hunits
  refine ⟨_, enters_of hentered rfl (k := Core.retire { s.core i.core with ibuf := ib } 4) rfl rfl rfl rfl rfl, ?_⟩
  rw [fmtKBad_remote hremote hmark, fmtKReads, hremote, if_pos rfl]
  refine (issue_of_ready h _).trans ?_
  rw [hib, State.markAddAct, hremote, if_pos rfl, hcore]
  exact hact.trans (by rw [hcore])

end

/-- Settles O12. -/
theorem loadsElsewhereWait : Obligations.LoadsElsewhereWait := by
  constructor
  · intro i f s hspace hext hopen h ins n regs hins halign hrange hs
    obtain ⟨parts, bad, hbad, hexec, hregs⟩ := exec_load hins hs
    obtain ⟨t, l, r, ht, hg, ha, hp, hother, hpc, hwait, hmem, hlen, hlast, hlpc, hsize, hparts, hresp, hstatus, hdata⟩ :=
      load_outstanding (parts := parts) hspace hext hopen h hbad halign hrange
    exact ⟨t, l, r, hexec.trans ht, hg, ha, hp, hother, hpc, hwait, hmem, hlen, hlast, hlpc, hsize, by rw [hparts, hregs], hresp, hstatus, hdata⟩
  · intro i s hroom hunits
    refine ⟨fun f hspace hext => ⟨fun h hopen ins n regs hins halign hga hs => ?_, fun q hq hrt h huse halign hga hs => ?_⟩,
      fun f hspace huse heven halign hga => ⟨fun q hq h hs => ?_, fun rc hrc h hs => ?_⟩,
      fun f len hres hlen hlen4 hlo hhi hsrc4 hdst4 hcopies hastat h hs => ⟨fun hs3 hd3 hgs hdst hown => ?_, fun hs3 hd3 hgd hsrc => ?_, fun hs3 hd3 hgs hgd => ?_⟩,
      fun f hremote hmark h hfault halign hga => ⟨fun hs => ?_, fun hs => ?_, fun hs => ?_⟩⟩
    · obtain ⟨parts, bad, hbad, hexec, hregs⟩ := exec_load hins hs
      obtain ⟨t, ht, henters, hawaits⟩ := load_global (parts := parts) hspace hext hroom hunits hopen h hbad halign hga
      exact ⟨t, hexec.trans ht, henters, hregs ▸ hawaits⟩
    · exact store_global hspace hext hroom hunits q hq hrt h huse halign hga hs
    · obtain ⟨ib, hib⟩ := s.noteFetch_eq i 4
      have hexec : exec (q.1.1 i f) s = .next ((s.setCore i.core { s.core i.core with ibuf := ib }).atomAct i.core f q.2 4
          (atomOpd (s.core i.core) f.size f.rs).toNat 0) := by
        refine (exec_atomOps q hq hs).trans (congrArg Host.Outcome.next ?_)
        rw [atomBad_of_even (by rw [hspace]; decide) heven]
        refine (issue_of_ready h _).trans ?_
        dsimp only
        rw [hib, State.core_setCore_self, ← atomOperand_eq]
        rfl
      exact ⟨_, hexec, atom_global hspace hroom hunits huse halign hga⟩
    · obtain ⟨ib, hib⟩ := s.noteFetch_eq i 8
      have hext : (rc.setWidth 32).setWidth 5 = rc := BitVec.setWidth_setWidth_of_le rc (by decide) |>.trans (BitVec.setWidth_eq rc)
      have hlt : ¬ (rc.setWidth 32).toNat ≥ 32 := by
        have := rc.isLt
        rw [BitVec.toNat_setWidth]
        omega
      have hbad : (atomBad f || decide ((rc.setWidth 32).toNat ≥ 32) || (f.size && oddReg ((rc.setWidth 32).setWidth 5))) = false := by
        rw [atomBad_of_even (by rw [hspace]; decide) heven, hext, decide_eq_false hlt, Bool.false_or, Bool.false_or]
        cases hsize : f.size
        · rfl
        · simp [oddReg, hrc hsize]
      have hexec : exec (.cas i f (rc.setWidth 32)) s = .next ((s.setCore i.core { s.core i.core with ibuf := ib }).atomAct i.core f 9 8
          (atomOpd (s.core i.core) f.size f.rs).toNat (atomOpd (s.core i.core) f.size rc).toNat) := by
        refine (State.asSpelled_of_spells hs).trans (congrArg Host.Outcome.next ?_)
        rw [hbad, hext]
        refine (issue_of_ready h _).trans ?_
        dsimp only
        rw [hib, State.core_setCore_self, ← atomOperand_eq, ← atomOperand_eq]
        rfl
      exact ⟨_, hexec, atom_global hspace hroom hunits huse halign hga⟩
    · obtain ⟨k, after, hg, ha, hp, harr, -, hcop, hpc, hexec⟩ := cpy_global hres hlen hlen4 hlo hhi hsrc4 hdst4 hcopies hastat h hs hroom (fun _ => hgs)
        (fun h => absurd h hd3) (fun h => absurd hs3 h) (fun _ => hdst) hown
      obtain ⟨hentered, hgen⟩ := copyEnd_global (s := s.setCore i.core k) (c := i.core) hunits ((s.core i.core).getA f.as_).toNat len false
      rw [hs3, copyEnd_local hd3, hgen, State.modCore_eq, Entered.core hentered, State.core_setCore_self] at hexec
      refine ⟨_, copyJob k f (some (s.fab i.core.tract).nextGen) none after, hexec, enters_of hentered (by rw [harr]) hg ha hp
        (by rw [← hpc]; rfl) rfl, ?_, rfl, rfl, rfl⟩
      rw [State.core_setCore_self, ← hcop]
      rfl
    · obtain ⟨k, after, hg, ha, hp, harr, -, hcop, hpc, hexec⟩ := cpy_global hres hlen hlen4 hlo hhi hsrc4 hdst4 hcopies hastat h hs hroom (fun h => absurd h hs3)
        (fun _ => hgd) (fun _ => hsrc) (fun h => absurd hd3 h) (fun h => absurd (hd3 ▸ h) (by decide))
      obtain ⟨hentered, hgen⟩ := copyEnd_global (s := s.setCore i.core k) (c := i.core) hunits ((s.core i.core).getA f.ad).toNat len true
      rw [hd3, copyEnd_local hs3, hgen, State.modCore_eq, Entered.core hentered, State.core_setCore_self] at hexec
      refine ⟨_, copyJob k f none (some (s.fab i.core.tract).nextGen) after, hexec, enters_of hentered (by rw [harr]) hg ha hp
        (by rw [← hpc]; rfl) rfl, ?_, rfl, rfl, rfl⟩
      rw [State.core_setCore_self, ← hcop]
      rfl
    · obtain ⟨k, after, -, -, -, -, hregs, hcop, hpc, hexec⟩ := cpy_global hres hlen hlen4 hlo hhi hsrc4 hdst4 hcopies hastat h hs hroom (fun _ => hgs)
        (fun _ => hgd) (fun h => absurd hs3 h) (fun h => absurd hd3 h) (fun h => absurd (hd3 ▸ h) (by decide))
      obtain ⟨hentered, hgen⟩ := copyEnd_global (s := s.setCore i.core k) (c := i.core) hunits ((s.core i.core).getA f.as_).toNat len false
      have hunits' := hentered.2.2.1.trans hunits
      obtain ⟨hentered', hgen'⟩ := copyEnd_global (c := i.core) hunits' ((s.core i.core).getA f.ad).toNat len true
      have hcore (c' : CoreId) := (Entered.core hentered' c').trans (Entered.core hentered c')
      rw [hs3, hd3, hgen, hgen', State.modCore_eq, hcore, State.core_setCore_self] at hexec
      obtain ⟨hmem, -, -, hnext, f1, e1, hf1, hra1, -, -, hop1, -, hgen1, -⟩ := hentered
      obtain ⟨hmem', -, -, -, f2, e2, hf2, hra2, -, -, hop2, -, hgen2, -⟩ := hentered'
      obtain ⟨hg1, -, -, ho1, -⟩ := (hf1 e1).trans (hf2 (f1 e1))
      obtain ⟨hg2, -, -, ho2, -⟩ := hf2 e2
      refine ⟨_, copyJob k f (some (s.fab i.core.tract).nextGen)
        (some (((s.setCore i.core k).copyEnd i.core 3 ((s.core i.core).getA f.as_).toNat len false).1.fab i.core.tract).nextGen) after, f2 (f1 e1), f2 e2, hexec, ?_, ?_, ho1.trans hop1, ho2.trans hop2, ?_, ?_, ?_, rfl,
        hmem'.trans hmem, ?_, ?_⟩
      · refine hra2 ▸ List.mem_map_of_mem (List.mem_append_left _ ?_)
        exact hra1 ▸ List.mem_map_of_mem (List.mem_append_right _ (List.mem_singleton.mpr rfl))
      · exact hra2 ▸ List.mem_map_of_mem (List.mem_append_right _ (List.mem_singleton.mpr rfl))
      · rw [State.core_setCore_self, ← hcop]
        rfl
      · exact congrArg some (hg1.trans hgen1).symm
      · exact congrArg some (hg2.trans hgen2).symm
      · rw [State.core_setCore_self]
        exact hregs
      · rw [State.core_setCore_self, ← hpc]
        rfl
    · obtain ⟨t, henters, hexec⟩ := markAdd_global hremote hmark h hfault halign hga hroom hunits false
      exact ⟨t, (State.asSpelled_of_spells hs).trans (congrArg _ hexec), henters⟩
    · obtain ⟨t, henters, hexec⟩ := markAdd_global hremote hmark h hfault halign hga hroom hunits true
      exact ⟨t, (State.asSpelled_of_spells hs).trans (congrArg _ hexec), henters⟩
    · obtain ⟨ib, hib⟩ := s.noteFetch_eq i 4
      have hcore : (s.setCore i.core { s.core i.core with ibuf := ib }).core i.core = { s.core i.core with ibuf := ib } := State.core_setCore_self ..
      obtain ⟨t, hentered, hact⟩ := mwaitAct_remote (s := s.setCore i.core { s.core i.core with ibuf := ib }) (c := i.core) hremote
        (by rw [hcore]; exact halign) (by rw [hcore]; exact hga) hroom hunits
      have hexec : exec (.mwait i f) s = .next ((s.setCore i.core { s.core i.core with ibuf := ib }).mwaitAct i.core f) := by
        refine (State.asSpelled_of_spells hs).trans (congrArg Host.Outcome.next ?_)
        rw [fmtKBad_remote hremote hmark, fmtKReads, hremote, if_pos rfl, ← hib]
        exact issue_of_ready h _
      rw [hact] at hexec
      obtain ⟨hmem, -, -, -, g, e, hg, hra, -, haddr, hop, hposted, hegen, -⟩ := hentered
      obtain ⟨hggen, -, hgaddr, hgop, hgposted⟩ := hg e
      refine ⟨_, g e, hexec, hra ▸ List.mem_map_of_mem (List.mem_append_right _ (List.mem_singleton.mpr rfl)), ?_, ?_, hgposted.trans hposted, ?_, ?_, ?_, hmem⟩
      · rw [hgaddr, haddr, hcore]
        rfl
      · rw [hgop, hop, hcore]
        rfl
      · rw [State.core_setCore_self, hggen, hegen, hgaddr, haddr, hcore]
        rfl
      · rw [State.core_setCore_self, hcore]
      · rw [State.core_setCore_self, hcore]
        and_intros <;> rfl

end Sys2Proof.Machine
end

section
/-!
PROOFS (O32). The queues of the engines: an entry that starts, one that leaves and one that faults; the cores a START starts (R17 to R20, R185, R370).
-/
namespace Sys2Proof.Machine
open Sys2Proof.Claims

/-! A record in an empty collector. -/

theorem State.emitCd_fabs (s : State) (r : ErrRec) : (s.emitCd r).fabs = s.fabs := by
  unfold State.emitCd
  dsimp only
  split <;> rfl

theorem State.queueRec_cd {s : State} {r : ErrRec} (h : ¬r.tract < 12) : s.queueRec r = s.emitCd r := dif_neg h

/-- A record of a tract's unit joins its empty collector, whatever a restore does (R416, R439). -/
theorem State.emit_collector {s : State} {t : Tract} {r : ErrRec} (htract : r.tract = t.val) (hunit : r.unit < 14) (hcol : (s.fab t).collector = []) :
    ((s.emit r).fab t).collector = [r] := by
  have hnote : ((s.noteAbort r).fab t).collector = [] := by
    unfold State.noteAbort
    split <;> exact hcol
  have ht : r.tract < 12 := htract ▸ t.isLt
  have hfin : (⟨r.tract, ht⟩ : Tract) = t := Fin.ext htract
  have hu : (r.unit == 14 || r.unit == 15 || r.unit == 17) = false := by
    simp only [Bool.or_eq_false_iff, beq_eq_false_iff_ne]
    omega
  have hqueue : (((s.noteAbort r).queueRec r).fab t).collector = [r] := by
    rw [State.queueRec, dif_pos ht, hu, hfin, if_neg Bool.false_ne_true, State.emitTract, hnote]
    show (((s.noteAbort r).modFab t (fun f => { f with collector := [r], lost := f.lost + b2n false })).fab t).collector = [r]
    rw [State.fab_modFab, if_pos rfl]
  have hfail (u : State) (n : Nat) (l : List Nat) : (u.restoreFail n l).fab t = u.fab t := by
    have hcd : u.restoreFail n l = State.emitCd _ _ := State.queueRec_cd (show ¬15 < 12 by decide)
    rw [hcd, State.fab, State.emitCd_fabs]
    rfl
  unfold State.emit
  dsimp only
  split
  · rw [hfail]
    exact hqueue
  · exact hqueue

/-! Entries of a queue. -/

section
variable {s : State} {q : QueueId} {e : QEntry}

theorem State.queue_modQueue_self (s : State) (q : QueueId) (f : QueueState → QueueState) : (s.modQueue q f).queue q = f (s.queue q) :=
  (State.queue_modQueue ..).trans (if_pos rfl)

/-- Nothing in a queue stands at its head: what may start has started. -/
theorem armHead_of_none (h : (s.queue q).headEntry = none) : s.armHead q = s := by
  rw [State.armHead, h]
  split <;> rfl

theorem armHead_of_stopped (h : (s.queue q).stopped = true) : s.armHead q = s := by
  rw [State.armHead, if_pos h]

/-- A queue's record with one entry in progress. -/
def QueueState.inProgress (v : QueueState) (e : QEntry) : QueueState :=
  { v with entries := [e], last := match v.last with
      | some l => some (if l.before e.pt then e.pt else l)
      | none => some e.pt }

/-- The state in which the engine has started the one entry of its queue (R18). -/
def State.begun (s : State) (q : QueueId) (e : QEntry) : State :=
  { s.modQueue q (fun v => v.inProgress { e with started := true }) with engWaits := s.engWaits.erase q }

theorem begun_queue (s : State) (q : QueueId) (e : QEntry) : (s.begun q e).queue q = (s.queue q).inProgress { e with started := true } := by
  exact State.queue_modQueue_self s q (fun v => v.inProgress { e with started := true })

theorem startEntry_eq (h : (s.queue q).entries = [e]) : s.startEntry q e = s.begun q e := by
  have hleave : s.startEntry q e = (s.begun q e).armHead q := by
    simp only [State.startEntry, State.leaveEntry, State.modQueue, h, List.map_cons, List.map_nil, if_true]
    rfl
  rw [hleave]
  exact armHead_of_none (by rw [begun_queue]; rfl)

/-- The state in which a queue's entries are gone. -/
def State.drained (s : State) (q : QueueId) : State := s.modQueue q (fun v => { v with entries := [] })

theorem drained_queue (s : State) (q : QueueId) : (s.drained q).queue q = { s.queue q with entries := [] } := by
  exact State.queue_modQueue_self ..

theorem filtered_drained {x : QEntry} (h : (s.queue q).entries = [x]) (hid : x.id = e.id) :
    s.modQueue q (fun v => { v with entries := v.entries.filter (fun x => x.id ≠ e.id) }) = s.drained q := by
  rw [State.drained, State.modQueue, State.modQueue, h, List.filter_cons_of_neg (by simp [hid]), List.filter_nil]

/-- A quiet entry leaves its queue, and nothing else changes (R369). -/
theorem finishEntry_ok {x : QEntry} (h : (s.queue q).entries = [x]) (hid : x.id = e.id) (hquiet : Quiet s q e) (st : Nat) :
    s.finishEntry q e st false = s.drained q := by
  obtain ⟨hsga, hcpl, hhold⟩ := hquiet
  have hsignal : (s.drained q).signal q e = s.drained q := by rw [State.signal, if_pos hsga]
  unfold State.finishEntry State.completeEntry State.completeWith
  rw [filtered_drained h hid]
  simp only [Bool.false_eq_true, if_false, Option.map_none, Option.isSome_none, hcpl, Bool.or_self, hsignal, drained_queue, hhold]
  exact armHead_of_none (by rw [drained_queue]; rfl)

/-- What a completion record leaves alone: the queue's entries and its stop, and all but messages, queues and host memory. -/
theorem putCpl_frame (s : State) (q : QueueId) (bs : List Byte) (irq : Bool) :
    (s.putCpl q bs irq).mem = s.mem ∧ (s.putCpl q bs irq).cores = s.cores ∧ (s.putCpl q bs irq).parcels = s.parcels ∧ (s.putCpl q bs irq).fabs = s.fabs ∧
      ((s.putCpl q bs irq).queue q).entries = (s.queue q).entries ∧ ((s.putCpl q bs irq).queue q).stopped = (s.queue q).stopped ∧
      ((s.putCpl q bs irq).queue q).hold = (s.queue q).hold := by
  have htraffic {u v : State} (h : u.OnlyTraffic v) : v.mem = u.mem ∧ v.cores = u.cores ∧ v.parcels = u.parcels ∧ v.fabs = u.fabs ∧ v.queue q = u.queue q := by
    have hq := h.queue q
    obtain ⟨_, _, _, _, rfl⟩ := h
    exact ⟨rfl, rfl, rfl, rfl, hq⟩
  unfold State.putCpl
  dsimp only
  split
  · rw [State.queue_modQueue_self]
    exact ⟨rfl, rfl, rfl, rfl, rfl, rfl, rfl⟩
  · generalize hu : s.modQueue q (fun v => { v with records := v.records + 1 }) = u
    have hframe : u.mem = s.mem ∧ u.cores = s.cores ∧ u.parcels = s.parcels ∧ u.fabs = s.fabs ∧ (u.queue q).entries = (s.queue q).entries ∧
        (u.queue q).stopped = (s.queue q).stopped ∧ (u.queue q).hold = (s.queue q).hold := by
      rw [← hu, State.queue_modQueue_self]
      exact ⟨rfl, rfl, rfl, rfl, rfl, rfl, rfl⟩
    obtain ⟨hmem, hcores, hparcels, hfabs, hentries, hstopped, hhold⟩ := hframe
    have hgoal {v : State} (h : u.OnlyTraffic v) : v.mem = s.mem ∧ v.cores = s.cores ∧ v.parcels = s.parcels ∧ v.fabs = s.fabs ∧
        (v.queue q).entries = (s.queue q).entries ∧ (v.queue q).stopped = (s.queue q).stopped ∧ (v.queue q).hold = (s.queue q).hold := by
      obtain ⟨hm, hc, hp, hf, hq⟩ := htraffic h
      rw [hq]
      exact ⟨hm.trans hmem, hc.trans hcores, hp.trans hparcels, hf.trans hfabs, hentries, hstopped, hhold⟩
    split
    · exact hgoal ((State.hostWrite_traffic ..).trans (State.msix_traffic ..))
    · exact hgoal (State.hostWrite_traffic ..)

/-- A queue that runs stops at a fault of its engine, its entries gone (R370). -/
theorem stopQueue_frame (hstopped : (s.queue q).stopped = false) (hentries : (s.queue q).entries = []) (cause : Nat) (pt : QPoint) :
    (s.stopQueue q cause pt).mem = s.mem ∧ (s.stopQueue q cause pt).cores = s.cores ∧ (s.stopQueue q cause pt).parcels = s.parcels ∧
      (s.stopQueue q cause pt).fabs = s.fabs ∧ ((s.stopQueue q cause pt).queue q).entries = [] ∧ ((s.stopQueue q cause pt).queue q).stopped = true ∧
      ((s.stopQueue q cause pt).queue q).cause = cause ∧ ((s.stopQueue q cause pt).queue q).hold = (s.queue q).hold := by
  rw [State.stopQueue, hstopped, if_neg Bool.false_ne_true]
  dsimp only
  have hqueue := State.queue_modQueue_self s q (fun v => { v with
      stopped := true, cause := cause, fault := some pt, entries := v.entries.filter (fun e => e.started || e.waiting), chain := none, slot := pt.slot })
  rw [hentries] at hqueue
  generalize hu : s.modQueue q _ = u at hqueue
  have hframe : u.mem = s.mem ∧ u.cores = s.cores ∧ u.parcels = s.parcels ∧ u.fabs = s.fabs := by
    rw [← hu]
    exact ⟨rfl, rfl, rfl, rfl⟩
  obtain ⟨hmem, hcores, hparcels, hfabs⟩ := hframe
  have ht := State.msix_traffic { u with engWaits := u.engWaits.erase q } (queueNum q)
  have hq := (ht.queue q).trans hqueue
  obtain ⟨_, _, _, _, ht⟩ := ht
  rw [hq, ht]
  exact ⟨hmem, hcores, hparcels, hfabs, rfl, rfl, rfl, rfl⟩

end

section
variable {s : State} {q : QueueId} {e : QEntry}

theorem engineUnit_lt (e : Engine) : engineUnit e < 14 := by cases e <;> decide

/-- An entry that faults leaves its queue, the queue stops, and one record says why (R20, R370, R413). -/
theorem finishEntry_fault {x : QEntry} {st : Nat} (h : (s.queue q).entries = [x]) (hid : x.id = e.id) (hhold : (s.queue q).hold = none)
    (hstopped : (s.queue q).stopped = false) (hcol : (s.fab q.tract).collector = []) (hst : st < 256) :
    Faulted (s.finishEntry q e st true) q (engineFault q.engine) st ∧ (s.finishEntry q e st true).mem = s.mem ∧
      (s.finishEntry q e st true).cores = s.cores ∧ (s.finishEntry q e st true).parcels = s.parcels := by
  unfold State.finishEntry State.completeEntry State.completeWith
  rw [filtered_drained h hid]
  simp only [if_true, Option.map_some, Option.isSome_some, Bool.or_true]
  generalize hr : ({ s.recordQ (engineFault q.engine) (engineUnit q.engine) q with detail := _ } : ErrRec) = r
  have hdrained := drained_queue s q
  have hemit : ((s.drained q).emit r).mem = s.mem ∧ ((s.drained q).emit r).cores = s.cores ∧ ((s.drained q).emit r).parcels = s.parcels ∧
      ((s.drained q).emit r).queue q = { s.queue q with entries := [] } := by
    obtain ⟨_, _, _, _, he⟩ := (s.drained q).emit_only r
    rw [he]
    exact ⟨rfl, rfl, rfl, hdrained⟩
  have hcollector : (((s.drained q).emit r).fab q.tract).collector = [r] :=
    State.emit_collector (by rw [← hr]; rfl) (by rw [← hr]; exact engineUnit_lt q.engine) hcol
  obtain ⟨hmem, hcores, hparcels, hqueue⟩ := hemit
  generalize (s.drained q).emit r = u at *
  obtain ⟨hmem', hcores', hparcels', hfabs', hentries', hstopped', hhold'⟩ := putCpl_frame u q (u.cplBytes e.tag st e.pt.slot) e.irq
  rw [hqueue] at hentries' hstopped' hhold'
  generalize u.putCpl q (u.cplBytes e.tag st e.pt.slot) e.irq = v at *
  obtain ⟨hmem'', hcores'', hparcels'', hfabs'', hentries'', hstopped'', hcause'', hhold''⟩ := stopQueue_frame (hstopped'.trans hstopped) hentries' 3 e.pt
  rw [hhold'', hhold', hhold]
  dsimp only
  rw [armHead_of_stopped hstopped'']
  refine ⟨⟨hentries'', hstopped'', hcause'', r, ?_, ?_, ?_⟩, (hmem''.trans hmem').trans hmem, (hcores''.trans hcores').trans hcores, (hparcels''.trans hparcels').trans hparcels⟩
  · rw [State.fab, hfabs'', hfabs']
    exact hcollector
  · rw [← hr]
    rfl
  · rw [← hr]
    exact (leNat_natLe 1 st).trans (Nat.mod_eq_of_lt hst)

end

/-! The cores of a START (R28, R185). -/

section
variable {s : State} {c : CoreId} {e : QEntry}

/-- What a core is started with. -/
def Core.programmed (k : Core) (c : CoreId) (e : QEntry) : Core := { k with
    g := Vector.replicate 32 0, a := Vector.replicate 16 0, p := Vector.replicate 8 false, ac := Vector.replicate 8 0
    pc := BitVec.ofNat 18 (e.body 113 96), progBase := BitVec.ofNat 18 (e.body 145 128)
    progLimit := BitVec.ofNat 18 (e.body 177 160), arg0 := BitVec.ofNat 64 (e.body 319 256)
    arg1 := BitVec.ofNat 64 (e.body 383 320), run := .running, pwr := .run, ibuf := [], wait := none, land := false, arrive := false
    loads := k.loads.map (fun l => { l with parts := [], stopped := some (l.stopped.getD k.pc.toNat) })
    steal := BitVec.ofNat 2 c.core.val
    arr := { k.arr with queue := k.arr.queue.map (fun x => match x.op with
      | .astat _ clr => { x with op := .astat 0 clr }
      | _ => x) } }

theorem reclaim_queues (s : State) (t : Tract) : (s.reclaim t).queues = s.queues := by
  unfold State.reclaim
  dsimp only
  split <;> rfl

/-- A program starts on a core whose array no gang holds. -/
theorem programStart_frame (hcfg : (s.core c).arr.cfg = none) :
    (s.programStart c e).mem = s.mem ∧ (s.programStart c e).core c = (s.core c).programmed c e ∧ (∀ d, d ≠ c → (s.programStart c e).core d = s.core d) ∧
      (s.programStart c e).queues = s.queues := by
  have hstart : s.programStart c e = (s.setCore c ((s.core c).programmed c e)).reclaim c.tract := by
    obtain ⟨hcores, -⟩ := State.reclaim_frame (s.setCore c ((s.core c).programmed c e)) c.tract
    refine State.breakGang_of_no_config (s := (s.setCore c ((s.core c).programmed c e)).reclaim c.tract) ?_ .broken
    rw [State.core, hcores]
    exact (congrArg (fun k : Core => k.arr.cfg) (State.core_setCore_self ..)).trans hcfg
  obtain ⟨hcores, hmem, -⟩ := State.reclaim_frame (s.setCore c ((s.core c).programmed c e)) c.tract
  have hcore (d : CoreId) : (s.programStart c e).core d = (s.setCore c ((s.core c).programmed c e)).core d := by
    rw [hstart, State.core, hcores]
    rfl
  refine ⟨by rw [hstart, hmem]; rfl, (hcore c).trans (State.core_setCore_self ..), fun d hd => (hcore d).trans ((State.core_setCore ..).trans (if_neg hd)), ?_⟩
  rw [hstart, reclaim_queues]
  rfl

theorem starting_of_work {l : List CoreId} (h : e.work = .starting l) : e.starting = l := by
  rw [QEntry.starting, h]

theorem setWork_entries {q : QueueId} {w : EngWork} (h : (s.queue q).entries = [e]) : ((s.setWork q e.id w).queue q).entries = [{ e with work := w }] := by
  rw [State.setWork, State.queue_modQueue_self]
  simp only [h, List.map_cons, List.map_nil, if_true]

end

/-- Settles O32. -/
theorem coresAreStarted : Obligations.CoresAreStarted := by
  intro c e l s hentries hwork hc hquiet
  have hstarting := starting_of_work hwork
  refine ⟨fun hrun hengines hcfg => ?_, fun hstopped hcol => ?_⟩
  · obtain ⟨hmem, hcore, hother, hqueues⟩ := programStart_frame (e := e) hcfg
    have hqueue : (s.programStart c e).queue (engQueue c.tract .dispatcher) = s.queue (engQueue c.tract .dispatcher) := by
      rw [State.queue, hqueues]
      rfl
    have hentries' : ((s.programStart c e).queue (engQueue c.tract .dispatcher)).entries = [e] := by rw [hqueue, hentries]
    have hquiet' : Quiet (s.programStart c e) (engQueue c.tract .dispatcher) e := by rw [Quiet, hqueue]; exact hquiet
    have hexec : ∃ f, exec (.dispatcherCoreStart c) s = .next ((s.programStart c e).modQueue (engQueue c.tract .dispatcher) f) ∧
        ((∀ d ∈ l, d = c) → f = fun v => { v with entries := [] }) ∧
        ((∃ d ∈ l, d ≠ c) → (((s.programStart c e).modQueue (engQueue c.tract .dispatcher) f).queue (engQueue c.tract .dispatcher)).entries =
          [{ e with work := .starting (l.filter (fun d => decide (d ≠ c))) }]) := by
      have hgo : exec (.dispatcherCoreStart c) s = .next (if (l.filter (fun d => decide (d ≠ c))).isEmpty
          then (s.programStart c e).finishEntry (engQueue c.tract .dispatcher) e 0 false
          else (s.programStart c e).setWork (engQueue c.tract .dispatcher) e.id (.starting (l.filter (fun d => decide (d ≠ c))))) := by
        have hfind : (s.queue (engQueue c.tract .dispatcher)).entries.find? (fun e => e.starting.contains c) = some e := by
          rw [hentries]
          exact List.find?_cons_of_pos (by rw [hstarting]; simpa using hc)
        have hno : ((s.core c).run == .running || !s.enginesRun) = false := by
          rw [hengines, beq_eq_false_iff_ne.mpr hrun]
          rfl
        refine congrArg Host.Outcome.next ?_
        dsimp only
        rw [hfind]
        dsimp only
        rw [hno, hstarting]
        rfl
      by_cases hall : ∀ d ∈ l, d = c
      · have hempty : l.filter (fun d => decide (d ≠ c)) = [] := List.filter_eq_nil_iff.mpr fun d hd => by simp [hall d hd]
        rw [hempty, if_pos (show ([] : List CoreId).isEmpty = true from rfl), finishEntry_ok hentries' rfl hquiet'] at hgo
        exact ⟨_, hgo, fun _ => rfl, fun ⟨d, hd, hne⟩ => absurd (hall d hd) hne⟩
      · have hleft : (l.filter (fun d => decide (d ≠ c))).isEmpty = false := by
          rw [List.isEmpty_eq_false_iff]
          intro h
          exact hall fun d hd => by simpa using List.filter_eq_nil_iff.mp h d hd
        rw [hleft, if_neg Bool.false_ne_true] at hgo
        exact ⟨_, hgo, fun h => absurd h hall, fun _ => setWork_entries hentries'⟩
    obtain ⟨f, hexec, hlast, hmore⟩ := hexec
    have hcore' : ((s.programStart c e).modQueue (engQueue c.tract .dispatcher) f).core c = (s.core c).programmed c e := hcore
    refine ⟨_, hexec, ?_⟩
    rw [hcore']
    refine ⟨rfl, rfl, fun n => ?_, rfl, rfl, rfl, rfl, rfl, rfl, rfl, rfl, rfl, rfl, rfl, rfl, fun x hx => ?_, List.length_map .., ?_, rfl, rfl, rfl, rfl,
      hother, hmem, fun hall => ?_, hmore⟩
    · rw [Core.getP, Core.programmed, Vector.getElem_replicate]
      by_cases h : n = 0 <;> simp [h]
    · obtain ⟨y, -, rfl⟩ := List.mem_map.mp hx
      rfl
    · exact BitVec.toNat_ofNat ..
    · rw [Left, State.queue_modQueue_self, hlast hall, hqueue]
      exact ⟨rfl, rfl⟩
  · have hfind : (s.queue (engQueue c.tract .dispatcher)).entries.find? (fun e => !e.starting.isEmpty) = some e := by
      rw [hentries]
      refine List.find?_cons_of_pos ?_
      rw [hstarting]
      cases l with
      | nil => cases hc
      | cons d l => rfl
    have hexec : exec (.startTimeout c.tract) s = .next (s.finishEntry (engQueue c.tract .dispatcher) e 7 true) := by
      refine congrArg Host.Outcome.next ?_
      rw [hfind]
      rfl
    obtain ⟨-, -, hhold⟩ := hquiet
    obtain ⟨hfaulted, hmem, hcores, -⟩ := finishEntry_fault (q := engQueue c.tract .dispatcher) hentries rfl hhold hstopped hcol (show 7 < 256 by decide)
    exact ⟨_, hexec, hfaulted, hcores, hmem⟩

end Sys2Proof.Machine
end

section
/-!
PROOFS (O38). What a home agent does with a request on sound memory: windows, the bytes it reads and writes, the answers it gives (R149, R254 to R277).
-/
namespace Sys2Proof.Machine
open Sys2Proof.Claims

/-! A run that lies in one window (R149). -/

section
variable {s : State} {key n i : Nat} {w : Bool}

theorem gaOffset_eq_mod (a : Nat) : gaOffset a = a % 137438953472 := by simp [gaOffset, bitsOf]

/-- Offsets run on within a parcel. -/
theorem gaOffset_add (h : gaOffset key + i < 2 ^ 37) : gaOffset (key + i) = gaOffset key + i := by
  rw [gaOffset_eq_mod] at h
  rw [gaOffset_eq_mod, gaOffset_eq_mod]
  omega

theorem keyParcel_add (h : gaOffset key + i < 2 ^ 37) : keyParcel (key + i) = keyParcel key := by
  have ht : gaTract (key + i) = gaTract key := by
    rw [gaOffset_eq_mod] at h
    simp [gaTract, bitsOf]
    omega
  have hp : gaParcel (key + i) = gaParcel key := by
    rw [gaOffset_eq_mod] at h
    simp [gaParcel, bitsOf]
    omega
  simp only [keyParcel, ht, hp]

/-- The three windows that hold memory. -/
inductive Window.Holds : Window → Window → Prop where
  | slice (a b : Nat) : Holds (.slice a) (.slice b)
  | commons (a b : Nat) : Holds (.commons a) (.commons b)
  | store (c a b : Nat) : Holds (.store c a) (.store c b)

/-- A run that its window permits lies in one window of memory, or in a control window. -/
theorem holds_of_windowStatus (h : s.windowStatus key n w = 0) (hctl : ∀ off, windowOf (gaOffset key) ≠ .control off) :
    Window.Holds (windowOf (gaOffset key)) (windowOf (gaOffset key + n - 1)) := by
  unfold State.windowStatus at h
  split at h
  · cases h
  · split at h
    next hlo hhi => rw [hlo, hhi]; exact .slice ..
    next hlo hhi => rw [hlo, hhi]; exact .commons ..
    next c a c' b hlo hhi =>
      split at h
      next hc => subst hc; rw [hlo, hhi]; exact .store ..
      next => cases h
    next hlo hhi => exact absurd hlo (hctl _)
    next => cases h

theorem not_control_of_write (h : s.windowStatus key n true = 0) (off : Nat) : windowOf (gaOffset key) ≠ .control off := by
  intro hc
  unfold State.windowStatus at h
  split at h
  · cases h
  · rw [hc] at h
    split at h
    next hlo _ => cases hlo
    next hlo _ => cases hlo
    next hlo _ => cases hlo
    next => cases h
    next => cases h

end

/-- Between two offsets of one local store lies the store alone. -/
theorem storeOffset_between {lo x hi c : Nat} (hlo : lo / 0x1_0000 = c) (hhi : hi / 0x1_0000 = c) (hmod : hi % 0x1_0000 < 0x6000) (hlx : lo ≤ x)
    (hxh : x ≤ hi) : x / 0x1_0000 = c ∧ x % 0x1_0000 < 0x6000 := by
  omega

/-- Between two offsets of one window of memory lies the window alone. -/
theorem windowOf_between {lo hi x : Nat} (h : Window.Holds (windowOf lo) (windowOf hi)) (hlx : lo ≤ x) (hxh : x ≤ hi) :
    x < 2 ^ 37 ∧ Window.Holds (windowOf lo) (windowOf x) ∧ ∀ c, windowOf x = .commons c → ∃ d, windowOf hi = .commons d ∧ c ≤ d := by
  generalize hL : windowOf lo = L at h
  generalize hH : windowOf hi = H at h
  unfold windowOf at hL hH
  simp only [Bool.and_eq_true, decide_eq_true_eq] at hL hH
  cases h with
  | slice a b =>
    split_ifs at hL hH
    have hx : windowOf x = .slice x := by rw [windowOf, if_pos (by omega)]
    rw [hx]
    exact ⟨by omega, .slice .., fun c hc => Window.noConfusion hc⟩
  | commons a b =>
    split_ifs at hL hH
    have hx : windowOf x = .commons (x - 0x10_0000_0000) := by rw [windowOf, if_neg (by omega), if_pos (by simp; omega)]
    rw [hx]
    injection hH with hH
    refine ⟨by omega, .commons .., fun c hc => ⟨_, rfl, ?_⟩⟩
    injection hc with hc
    omega
  | store c a b =>
    split_ifs at hL hH
    injection hL with hc ha
    injection hH with hc' hb
    obtain ⟨hdiv, hmod⟩ := storeOffset_between (x := x - 0x14_0000_0000) hc hc' (by omega) (by omega) (by omega)
    have hx : windowOf x = .store c ((x - 0x14_0000_0000) % 0x1_0000) := by
      rw [windowOf, if_neg (by omega), if_neg (by simp; omega), if_pos (by simp; omega)]
      simp only [hdiv]
      rw [if_pos hmod]
    rw [hx]
    exact ⟨by omega, .store .., fun c hc => Window.noConfusion hc⟩

section
variable {s : State} {key n i : Nat} {w : Bool}

theorem holds_at (h : Window.Holds (windowOf (gaOffset key)) (windowOf (gaOffset key + n - 1))) (hi : i < n) :
    gaOffset (key + i) = gaOffset key + i ∧ keyParcel (key + i) = keyParcel key ∧ Window.Holds (windowOf (gaOffset key)) (windowOf (gaOffset (key + i))) := by
  obtain ⟨hlt, hx, -⟩ := windowOf_between (x := gaOffset key + i) h (by omega) (by omega)
  have hoff := gaOffset_add hlt
  exact ⟨hoff, keyParcel_add hlt, by rw [hoff]; exact hx⟩

theorem oneSize_of_holds (h : Window.Holds (windowOf (gaOffset key)) (windowOf (gaOffset key + n - 1))) : OneSize key n := by
  intro i hi
  obtain ⟨-, -, hx⟩ := holds_at h hi
  unfold unitSize
  generalize windowOf (gaOffset key) = L at hx
  generalize windowOf (gaOffset (key + i)) = H at hx
  cases hx with
  | slice a b => rfl
  | commons a b => rfl
  | store c a b => rfl

/-- Where a write is permitted, a read returns what memory holds: the tile list region is not software's to write. -/
theorem peek_of_writable (h : s.windowStatus key n true = 0) : s.peek key n = s.mem.read key n := by
  have hrun := holds_of_windowStatus h (not_control_of_write h)
  refine peek_of_plain fun i hi => ?_
  obtain ⟨hoff, hp, hx⟩ := holds_at hrun hi
  obtain ⟨-, -, hle⟩ := windowOf_between (x := gaOffset key + i) hrun (by omega) (by omega)
  rw [State.peekByte, hp]
  rw [← hoff] at hle
  generalize hL : windowOf (gaOffset key) = L at hx
  generalize hH : windowOf (gaOffset (key + i)) = H at hx hle
  cases hx with
  | slice a b => rfl
  | store c a b => rfl
  | commons a b =>
    obtain ⟨d, hd, hbd⟩ := hle b rfl
    cases hq : keyParcel key with
    | none => rfl
    | some p =>
      have hown : s.cmOwned p.tract d = false := by
        unfold State.windowStatus at h
        split at h
        · cases h
        · rw [hL, hd] at h
          simp only [hq, Bool.true_and] at h
          by_contra hc
          rw [Bool.not_eq_false] at hc
          rw [hc] at h
          cases h
      have htile : s.cmTile p b = false := by
        have hbase : vectorBase (s.layout p.tract) ≤ tileBase (s.layout p.tract) := by unfold vectorBase stagingBase; omega
        have hlt : d < vectorBase (s.layout p.tract) := by simpa [State.cmOwned] using hown
        simp only [State.cmTile, Bool.and_eq_false_iff, decide_eq_false_iff_not]
        omega
      simp [htile]

end

/-! What counts a request, and what an access at its home depends on. -/

/-- Memory, cores, parcels and every register but the home agents' counts are as they were. -/
def State.HomeAlike (s t : State) : Prop :=
  t.mem = s.mem ∧ t.cores = s.cores ∧ t.parcel = s.parcel ∧ t.free = s.free ∧ ∀ k : RegKey, k.r ≠ .fabHcl → t.reg k = s.reg k

section
variable {s t u : State} {key n : Nat}

theorem State.HomeAlike.trans (h : s.HomeAlike t) (h' : t.HomeAlike u) : s.HomeAlike u := by
  obtain ⟨hmem, hcores, hparcel, hfree, hreg⟩ := h
  obtain ⟨hmem', hcores', hparcel', hfree', hreg'⟩ := h'
  exact ⟨hmem'.trans hmem, hcores'.trans hcores, hparcel'.trans hparcel, hfree'.trans hfree, fun k hk => (hreg' k hk).trans (hreg k hk)⟩

theorem modFab_homeAlike (s : State) (tr : Tract) (f : TractFab → TractFab) : s.HomeAlike (s.modFab tr f) := ⟨rfl, rfl, rfl, rfl, fun _ _ => rfl⟩

theorem homeCount_homeAlike (s : State) (tr : Tract) : s.HomeAlike (s.homeCount tr) := by
  refine ⟨rfl, rfl, rfl, rfl, fun k hk => ?_⟩
  rw [State.homeCount, State.bumpReg, State.reg_setRegBits, if_neg]
  · rfl
  · rintro rfl
    exact hk rfl

theorem layout_alike (h : s.HomeAlike t) (tr : Tract) : t.layout tr = s.layout tr :=
  h.2.2.2.2 _ (RegName.noConfusion : RegName.cmLayout ≠ .fabHcl)

theorem windowStatus_alike (h : s.HomeAlike t) (key n : Nat) (w : Bool) : t.windowStatus key n w = s.windowStatus key n w := by
  have hown (tr : Tract) (off : Nat) : t.cmOwned tr off = s.cmOwned tr off := by rw [State.cmOwned, layout_alike h, State.cmOwned]
  unfold State.windowStatus
  simp only [hown]

theorem replRegion_alike (h : s.HomeAlike t) : t.replRegion = s.replRegion := by
  obtain ⟨-, -, -, -, hreg⟩ := h
  funext i
  have hmod (r : RegName) (hr : r ≠ .fabHcl) : t.reg (modRegI r i) = s.reg (modRegI r i) := hreg _ hr
  simp only [State.replRegion, hmod .replCtl (by decide), hmod .replRloc (by decide), hmod .replHome (by decide)]

theorem regionLines_alike (h : s.HomeAlike t) (key n : Nat) : t.regionLines key n = s.regionLines key n := by
  unfold State.regionLines
  rw [replRegion_alike h]

theorem homeWriteStatus_alike (h : s.HomeAlike t) (key n : Nat) (isAtom : Bool) : t.homeWriteStatus key n isAtom = s.homeWriteStatus key n isAtom := by
  have hrep : t.inReplica key n = s.inReplica key n := by
    unfold State.inReplica
    rw [replRegion_alike h]
  unfold State.homeWriteStatus
  rw [windowStatus_alike h, hrep]

theorem barrierN_alike (h : s.HomeAlike t) (p : ParcelId) (m : BitVec 10) : t.barrierN p m = s.barrierN p m := by
  obtain ⟨-, -, -, -, hreg⟩ := h
  have hcfg (b : Nat) : t.reg (parcelRegI .markBcfg p b) = s.reg (parcelRegI .markBcfg p b) := hreg _ (by simp [parcelRegI])
  unfold State.barrierN
  simp only [hcfg]

theorem clean_alike (h : s.HomeAlike t) (hc : Clean s key n) : Clean t key n := by
  obtain ⟨hmem, -⟩ := h
  unfold Clean
  rw [hmem]
  exact hc

theorem counts_alike (h : s.HomeAlike t) {p : ParcelId} {m : BitVec 10} (hc : Counts s p m) : Counts t p m := by
  obtain ⟨hbar, hfrozen, hdamaged⟩ := hc
  refine ⟨(barrierN_alike h p m).trans hbar, ?_, ?_⟩
  · rw [h.2.2.1]
    exact hfrozen
  · rw [State.markDamaged, h.1]
    exact hdamaged

/-- A byte outside the control windows. -/
theorem peek_alike (h : s.HomeAlike t) (hctl : ∀ i, i < n → ∀ off, windowOf (gaOffset (key + i)) ≠ .control off) : t.peek key n = s.peek key n := by
  have hlayout := layout_alike h
  obtain ⟨hmem, -, hparcel, hfree, -⟩ := h
  refine List.map_congr_left fun i hi => ?_
  have hc := hctl i (List.mem_range.1 hi)
  unfold State.peekByte
  split
  next off p hw _ => exact absurd hw (hc off)
  next off p hw hp =>
    have htile : t.cmTile p off = s.cmTile p off := by rw [State.cmTile, hlayout, hparcel, State.cmTile]
    rw [htile, hfree, hmem]
  next => rw [hmem]

theorem not_control_of_holds (h : Window.Holds (windowOf (gaOffset key)) (windowOf (gaOffset key + n - 1))) (i : Nat) (hi : i < n) (off : Nat) :
    windowOf (gaOffset (key + i)) ≠ .control off := by
  obtain ⟨-, -, hx⟩ := holds_at h hi
  generalize windowOf (gaOffset key) = L at hx
  intro hc
  rw [hc] at hx
  cases hx

end

/-! Answers, and the entries they reach (R258). -/

/-- A request agent holds an entry of a number. -/
def State.HasEntry (s : State) (tr : Tract) (gen : Nat) : Prop := ∃ x ∈ (s.fab tr).ra, x.gen = gen

section
variable {s t : State} {tr : Tract} {gen : Nat}

theorem hasEntry_congr (h : t.fabs = s.fabs) (he : s.HasEntry tr gen) : t.HasEntry tr gen := by
  unfold State.HasEntry State.fab
  rw [h]
  exact he

theorem hasEntry_modFab {tr' : Tract} {f : TractFab → TractFab} {g : RaEntry → RaEntry} (hra : (f (s.fab tr')).ra = (s.fab tr').ra.map g)
    (hg : ∀ x : RaEntry, (g x).gen = x.gen) (he : s.HasEntry tr gen) : (s.modFab tr' f).HasEntry tr gen := by
  obtain ⟨x, hx, hgen⟩ := he
  unfold State.HasEntry
  rw [State.fab_modFab]
  split
  next h =>
    subst h
    rw [hra]
    exact ⟨g x, List.mem_map_of_mem hx, (hg x).trans hgen⟩
  next => exact ⟨x, hx, hgen⟩

theorem hasEntry_setEntry {tr' : Tract} {gen' : Nat} (f : RaEntry → RaEntry) (hf : ∀ x : RaEntry, (f x).gen = x.gen) (he : s.HasEntry tr gen) :
    (s.setEntry tr' gen' f).HasEntry tr gen := by
  refine hasEntry_modFab (g := atGen gen' f) rfl (fun x => ?_) he
  unfold atGen
  split
  · exact hf x
  · rfl

theorem hasEntry_homeCount (tr' : Tract) (he : s.HasEntry tr gen) : (s.homeCount tr').HasEntry tr gen :=
  hasEntry_congr (s := s.modFab tr' (fun f => { f with turns := f.turns + 1 })) rfl (hasEntry_modFab (g := id) (List.map_id _).symm (fun _ => rfl) he)

/-- What a home agent does for others leaves memory and the entries of every agent. -/
def State.KeepsEntry (s t : State) (tr : Tract) (gen : Nat) : Prop := t.mem = s.mem ∧ (s.HasEntry tr gen → t.HasEntry tr gen)

theorem State.KeepsEntry.refl (s : State) : s.KeepsEntry s tr gen := ⟨rfl, id⟩

theorem State.KeepsEntry.trans {u : State} (h : s.KeepsEntry t tr gen) (h' : t.KeepsEntry u tr gen) : s.KeepsEntry u tr gen :=
  ⟨h'.1.trans h.1, h'.2 ∘ h.2⟩

theorem State.KeepsEntry.foldl {α : Type} {f : State → α → State} (hf : ∀ (s : State) x, s.KeepsEntry (f s x) tr gen) (l : List α) (s : State) :
    s.KeepsEntry (l.foldl f s) tr gen :=
  List.foldlRecOn (motive := fun t => s.KeepsEntry t tr gen) l f (.refl s) (fun _ ht x _ => ht.trans (hf _ x))

theorem keepsEntry_of_fabs (hmem : t.mem = s.mem) (hfabs : t.fabs = s.fabs) : s.KeepsEntry t tr gen := ⟨hmem, hasEntry_congr hfabs⟩

theorem answer_keepsEntry (s : State) (src : RemoteSrc) (r : Response) : s.KeepsEntry (s.answer src r) tr gen := by
  cases src with
  | agent t' gen' =>
    refine ⟨rfl, hasEntry_modFab (g := atGen gen' (fun e => { e with stage := .answered r })) rfl fun x => ?_⟩
    unfold atGen
    split <;> rfl
  | link m p =>
    obtain ⟨regs, links, host, out, h⟩ := State.sendResponse_traffic s p (rspMsg m r)
    change s.KeepsEntry (s.sendResponse p (rspMsg m r)) tr gen
    rw [h]
    exact keepsEntry_of_fabs rfl rfl

theorem sleepCheck_keepsEntry (s : State) (c : CoreId) : s.KeepsEntry (s.sleepCheck c) tr gen := by
  unfold State.sleepCheck
  split
  · dsimp only
    split
    · exact .refl s
    · exact keepsEntry_of_fabs rfl rfl
  · exact .refl s

/-- The release of a mark's waiters leaves memory, and takes no entry from an agent (R284). -/
theorem releaseWaiters_keepsEntry (s : State) (p : ParcelId) (n : BitVec 10) : s.KeepsEntry (s.releaseWaiters p n) tr gen := by
  unfold State.releaseWaiters
  dsimp only
  generalize hF : List.foldl _ s (s.coresOf p) = F
  have hcores : s.KeepsEntry F tr gen := by
    rw [← hF]
    refine State.KeepsEntry.foldl (fun t c => ?_) _ _
    have h1 : t.KeepsEntry (t.modCore c (fun k => k.markRelease n (s.markWord p n) (s.barrierN p n).isSome)) tr gen := keepsEntry_of_fabs rfl rfl
    split
    · split
      · exact h1.trans (sleepCheck_keepsEntry ..)
      · exact h1
    · exact h1
  have hparcel (f : Parcel → Parcel) : F.KeepsEntry (F.modParcel p f) tr gen := keepsEntry_of_fabs rfl rfl
  have hanswer {G : State} {rs : List RemoteWait} : G.KeepsEntry (rs.foldl (fun s r => s.answer r.src okResponse) G) tr gen :=
    State.KeepsEntry.foldl (fun u r => answer_keepsEntry ..) _ _
  exact ((hcores.trans (hparcel _)).trans hanswer).trans ⟨rfl, id⟩

/-- An entry that is there is answered. -/
theorem answered_of_hasEntry (r : Response) (he : s.HasEntry tr gen) : Answered (s.answer (.agent tr gen) r) tr gen r := by
  obtain ⟨x, hx, hgen⟩ := he
  have hra : ((s.answer (.agent tr gen) r).fab tr).ra = (s.fab tr).ra.map (atGen gen (fun e => { e with stage := .answered r })) := by
    change ((s.modFab tr _).fab tr).ra = _
    rw [State.fab_modFab, if_pos rfl]
    rfl
  have hsome : (((s.fab tr).ra.map (atGen gen (fun e => { e with stage := .answered r }))).find? (fun x => decide (x.gen = gen))).isSome := by
    rw [List.find?_isSome]
    refine ⟨_, List.mem_map_of_mem hx, ?_⟩
    rw [atGen, if_pos hgen]
    exact decide_eq_true hgen
  obtain ⟨y, hy⟩ := Option.isSome_iff_exists.1 hsome
  refine ⟨y, by rw [hra]; exact hy, ?_⟩
  obtain ⟨z, -, hz⟩ := List.mem_map.1 (List.mem_of_find?_eq_some hy)
  have hyg : y.gen = gen := by simpa using List.find?_some hy
  rw [atGen] at hz
  split at hz
  · rw [← hz]
  next hne => exact absurd (by rw [hz]; exact hyg) hne

end

/-! What a home agent does (R268, R269, R277). -/

section
variable {s : State} {t : Tract} {src : RemoteSrc} {key n : Nat}

theorem homeLoad_eq (hst : s.windowStatus key n false = 0) (hctl : ∀ off, windowOf (gaOffset key) ≠ .control off) (hclean : Clean s key n) :
    s.homeLoad src key n = s.takeFree.answer src { status := 0, data := s.peek key n, poison := 0 } := by
  have hone := oneSize_of_holds (holds_of_windowStatus hst hctl)
  unfold State.homeLoad
  split
  next off p hw _ => exact absurd hw (hctl off)
  next =>
    rw [hst, touch_of_clean hclean, poisonMask_of_clean hclean hone]
    rfl

theorem windowStatus_of_homeWriteStatus {isAtom : Bool} (h : s.homeWriteStatus key n isAtom = 0) : s.windowStatus key n true = 0 := by
  unfold State.homeWriteStatus at h
  generalize s.windowStatus key n true = st at h ⊢
  cases st with
  | zero => rfl
  | succ m => exact h

theorem oneSize_of_homeWriteStatus {isAtom : Bool} (h : s.homeWriteStatus key n isAtom = 0) : OneSize key n :=
  oneSize_of_holds (holds_of_windowStatus (windowStatus_of_homeWriteStatus h) (not_control_of_write (windowStatus_of_homeWriteStatus h)))

theorem mdata_sound (bs : List Byte) : mdata (sound bs) = bs := by
  rw [mdata, sound, List.map_map]
  exact List.map_id _

theorem mbad_sound (bs : List Byte) : mbad (sound bs) = false := by simp [mbad, sound]

theorem sound_length (bs : List Byte) : (sound bs).length = bs.length := by simp [sound]

/-- A store's data at its home falls into the pieces that a copy's does. -/
theorem mpieces_sound (fuel : Nat) : ∀ (a : Nat) (bs : List Byte), mpieces fuel a (sound bs) = (pieces 16 fuel a bs).map (fun q => (q.1, sound q.2)) := by
  induction fuel with
  | zero => intro a bs; rfl
  | succ fuel ih =>
    intro a bs
    cases bs with
    | nil => rfl
    | cons b bs =>
      have htake (m : Nat) : (sound (b :: bs)).take m = sound ((b :: bs).take m) := (List.map_take ..).symm
      have hdrop (m : Nat) : (sound (b :: bs)).drop m = sound ((b :: bs).drop m) := (List.map_drop ..).symm
      have hunfold : mpieces (fuel + 1) a (sound (b :: bs)) =
          (a, (sound (b :: bs)).take (16 - a % 16)) :: mpieces fuel (a + (16 - a % 16)) ((sound (b :: bs)).drop (16 - a % 16)) := rfl
      rw [hunfold, htake, hdrop, ih]
      rfl

/-- A copy of sound bytes as a source. -/
def soundCopy : CopyData := { status := 0, data := [], bad := fun _ _ => false }

theorem mstorePieces_sound (ps : List (Nat × List Byte)) : ∀ (s : State) (i : Nat),
    (ps.map (fun q => (q.1, sound q.2))).foldl State.mstorePiece s = s.copyUnits soundCopy i ps := by
  induction ps with
  | nil => intro s i; rfl
  | cons q ps ih =>
    intro s i
    have hpiece : s.mstorePiece (q.1, sound q.2) = s.store q.1 q.2 := by
      rw [State.mstorePiece, mbad_sound, mdata_sound]
      rfl
    rw [List.map_cons, List.foldl_cons, hpiece, ih _ (i + q.2.length)]
    rfl

/-- A store of sound bytes puts them where they go, and is answered (R268). -/
theorem homeStore_eq {bs : List Byte} (hst : s.homeWriteStatus key bs.length false = 0) (hclean : Clean s key bs.length)
    (hlines : s.regionLines key bs.length = []) : s.homeStore t src key (sound bs) = (s.putMem key bs).answer src okResponse := by
  have hone := oneSize_of_homeWriteStatus hst
  have hput : (mpieces bs.length key (sound bs)).foldl State.mstorePiece s = s.putMem key bs := by
    rw [mpieces_sound, mstorePieces_sound _ s 0]
    exact (copyUnits_of_clean (d := soundCopy) (a := key) (n := bs.length) (fun _ _ _ => rfl) bs.length s key bs 0 (Nat.le_refl _) (Nat.le_refl _)
      (Nat.le_refl _) (by omega) hone hclean).1
  have hnone : (s.putMem key bs).regionLines key bs.length = [] := hlines
  rw [State.homeStore, sound_length, hst]
  change ((mpieces bs.length key (sound bs)).foldl State.mstorePiece s).homeWritten t src key bs.length okResponse = _
  rw [hput, State.homeWritten, hnone]
  rfl

/-- An atomic writes its new value where the old one was, and answers with the old one (R43). -/
theorem homeAtom_eq {op opd cmp : Nat} {w64 : Bool} (hst : s.homeWriteStatus key (atomSize w64) true = 0) (hclean : Clean s key (atomSize w64))
    (hlines : s.regionLines key (atomSize w64) = []) : s.homeAtom t src key op w64 opd cmp =
      (s.takeFree.putMem key (natLe (atomSize w64) (atomNew op w64 (leNat (s.peek key (atomSize w64))) opd cmp))).answer src
        { status := 0, data := s.peek key (atomSize w64), poison := 0 } := by
  have hone := oneSize_of_homeWriteStatus hst
  have hlen (v : Nat) : (natLe (atomSize w64) v).length = atomSize w64 := natLe_length ..
  have hstore (v : Nat) : s.takeFree.store key (natLe (atomSize w64) v) = s.takeFree.putMem key (natLe (atomSize w64) v) :=
    store_of_clean (by rw [hlen]; exact hclean) (by rw [hlen]; exact hone)
  have hnone (bs : List Byte) : (s.takeFree.putMem key bs).regionLines key (atomSize w64) = [] := hlines
  rw [State.homeAtom]
  dsimp only
  rw [hst, touch_of_clean hclean, poisonMask_of_clean hclean hone, hstore]
  change State.homeWritten _ t src key _ _ = _
  rw [State.homeWritten, hnone]
  rfl

/-- An addition to a mark that counts and is sound (R282). -/
theorem homeMark_add {addr : Nat} {p : ParcelId} {v : Word} (hst : s.markStatus addr = 0) (hp : keyParcel addr = some p)
    (hc : Counts s p (addrMark addr)) : s.homeMark src addr (.add v) =
      ((s.putMem (markKey p (addrMark addr)) (natLe 4 (s.markWord p (addrMark addr) + v).toNat)).releaseWaiters p (addrMark addr)).answer src okResponse := by
  obtain ⟨hbar, hfrozen, hdamaged⟩ := hc
  simp only [State.homeMark, hst, hp, hbar]
  rw [State.markUpdate, hfrozen, hdamaged, if_neg (by simp)]
  rfl

/-- A request that does not combine, where no entry combines, is applied at once (R269). -/
theorem homeServe_eq {addr : Nat} {op : HomeOp} {posted : Bool} (hcomb : (s.fab t).comb = []) (hnone : ∀ key, (s.homeCount t).combinable key op posted = none) :
    s.homeServe t src addr op posted = (s.homeCount t).homeApply t src addr op := by
  have hclose : (s.homeCount t).closeLine t addr (fun _ => false) = s.homeCount t := by
    have hfab : ((s.homeCount t).fab t).comb = [] := by
      change ((s.modFab t (fun f => { f with turns := f.turns + 1 })).fab t).comb = []
      rw [State.fab_modFab, if_pos rfl]
      exact hcomb
    rw [State.closeLine, hfab]
    rfl
  rw [State.homeServe]
  dsimp only
  rw [hnone]
  dsimp only
  rw [hclose]

end

/-! Entries of the module's request agents at their home (R262, R266, R268). -/

section
variable {s : State} {t src : Tract} {tag : Nat} {e : RaEntry}

/-- An entry that a home agent may take is applied in a state that is alike, and still waits for its answer. -/
theorem homeAgentRequest_applies {op : HomeOp} (h : MayServe s t src tag e) (hop : e.op.home = some op) (hclaim : isClaim e.addr op = false)
    (hnone : ∀ (u : State) key, u.combinable key op e.posted = none) :
    ∃ u : State, s.HomeAlike u ∧ u.HasEntry src e.gen ∧ exec (.homeAgentRequest t (.tract src tag)) s = .next (u.homeApply t (.agent src e.gen) e.addr op) := by
  obtain ⟨hready, hblocked, hrepl, hbad, htract, hdead, hmay, hcomb⟩ := h
  have hhas : s.HasEntry src e.gen := ⟨e, List.mem_of_find?_eq_some hready, rfl⟩
  have hcomb' : ((s.setEntry src e.gen (fun e => { e with stage := .home })).fab t).comb = [] := by
    rw [State.setEntry, State.fab_modFab]
    split
    next ht => subst ht; exact hcomb
    next => exact hcomb
  refine ⟨(s.setEntry src e.gen (fun e => { e with stage := .home })).homeCount t, (modFab_homeAlike ..).trans (homeCount_homeAlike ..),
    hasEntry_homeCount t (hasEntry_setEntry _ (fun _ => rfl) hhas), ?_⟩
  have htake : s.haTake t src e = (s.setEntry src e.gen (fun e => { e with stage := .home })).homeServe t (.agent src e.gen) e.addr op e.posted := by
    simp only [State.haTake, hop, hrepl, Option.isSome_none, hblocked, hclaim, Bool.or_self, Bool.false_eq_true, if_false, hbad, htract, if_true]
  have hexec : exec (.homeAgentRequest t (.tract src tag)) s = .next (s.haTake t src e) := by
    refine congrArg Host.Outcome.next ?_
    dsimp only
    rw [hdead, hready]
    dsimp only
    rw [hmay]
    rfl
  rw [hexec, htake, homeServe_eq hcomb' (fun key => hnone _ key)]

theorem home_load (h : MayServe s t src tag e) (hclaim : isClaim e.addr (e.op.home.getD (.load 0)) = false) {n : Nat} (hop : e.op = .load n)
    (hst : s.windowStatus (e.addr % 2 ^ 52) n false = 0) (hctl : ∀ off, windowOf (gaOffset (e.addr % 2 ^ 52)) ≠ .control off)
    (hclean : Clean s (e.addr % 2 ^ 52) n) :
    ∃ u : State, exec (.homeAgentRequest t (.tract src tag)) s = .next u ∧
      Answered u src e.gen { status := 0, data := s.peek (e.addr % 2 ^ 52) n, poison := 0 } ∧ u.mem = s.mem ∧ u.cores = s.cores := by
  rw [hop] at hclaim
  obtain ⟨u, hal, hhas, hexec⟩ := homeAgentRequest_applies h (op := .load n) (by rw [hop]; rfl) hclaim (fun _ _ => rfl)
  have hpeek := peek_alike hal (not_control_of_holds (holds_of_windowStatus hst hctl))
  have happly : u.homeApply t (.agent src e.gen) e.addr (.load n) = _ :=
    homeLoad_eq (src := .agent src e.gen) ((windowStatus_alike hal ..).trans hst) hctl (clean_alike hal hclean)
  rw [hpeek] at happly
  exact ⟨_, hexec.trans (congrArg _ happly), answered_of_hasEntry _ (hasEntry_congr (s := u) rfl hhas), hal.1, hal.2.1⟩

theorem home_store (hwf : s.mem.wf = true) (h : MayServe s t src tag e) (hclaim : isClaim e.addr (e.op.home.getD (.load 0)) = false) {d : List Byte}
    (hop : e.op = .store d) (hst : s.homeWriteStatus (e.addr % 2 ^ 52) d.length false = 0) (hclean : Clean s (e.addr % 2 ^ 52) d.length)
    (hlines : s.regionLines (e.addr % 2 ^ 52) d.length = []) :
    ∃ u : State, exec (.homeAgentRequest t (.tract src tag)) s = .next u ∧ Answered u src e.gen okResponse ∧ Stored s u (e.addr % 2 ^ 52) d ∧
      u.cores = s.cores := by
  rw [hop] at hclaim
  obtain ⟨u, hal, hhas, hexec⟩ := homeAgentRequest_applies h (op := .store (sound d)) (by rw [hop]; rfl) hclaim (fun _ _ => rfl)
  have happly : u.homeApply t (.agent src e.gen) e.addr (.store (sound d)) = (u.putMem (e.addr % 2 ^ 52) d).answer (.agent src e.gen) okResponse :=
    homeStore_eq ((homeWriteStatus_alike hal ..).trans hst) (clean_alike hal hclean) ((regionLines_alike hal ..).trans hlines)
  refine ⟨_, hexec.trans (congrArg _ happly), answered_of_hasEntry _ (hasEntry_congr (s := u) rfl hhas), fun x => ?_, hal.2.1⟩
  have hput := putMem_stored (s := u) (a := e.addr % 2 ^ 52) (bs := d) (by rw [hal.1]; exact hwf) x
  rw [hal.1] at hput
  exact hput

theorem home_atom (hwf : s.mem.wf = true) (h : MayServe s t src tag e) (hclaim : isClaim e.addr (e.op.home.getD (.load 0)) = false) {op opd cmp : Nat}
    {w64 : Bool} (hop : e.op = .atom op w64 opd cmp) (hposted : e.posted = false) (hst : s.homeWriteStatus (e.addr % 2 ^ 52) (atomSize w64) true = 0)
    (hclean : Clean s (e.addr % 2 ^ 52) (atomSize w64)) (hlines : s.regionLines (e.addr % 2 ^ 52) (atomSize w64) = []) :
    ∃ u : State, exec (.homeAgentRequest t (.tract src tag)) s = .next u ∧
      Answered u src e.gen { status := 0, data := s.peek (e.addr % 2 ^ 52) (atomSize w64), poison := 0 } ∧
      Stored s u (e.addr % 2 ^ 52) (natLe (atomSize w64) (atomNew op w64 (leNat (s.peek (e.addr % 2 ^ 52) (atomSize w64))) opd cmp)) ∧
      u.cores = s.cores := by
  rw [hop] at hclaim
  obtain ⟨u, hal, hhas, hexec⟩ := homeAgentRequest_applies h (op := .atom op w64 opd cmp) (by rw [hop]; rfl) hclaim
    (fun _ _ => by rw [State.combinable, hposted]; rfl)
  have hwin := windowStatus_of_homeWriteStatus hst
  have hpeek := peek_alike hal (not_control_of_holds (holds_of_windowStatus hwin (not_control_of_write hwin)))
  have happly : u.homeApply t (.agent src e.gen) e.addr (.atom op w64 opd cmp) = _ :=
    homeAtom_eq (t := t) (src := .agent src e.gen) (op := op) (opd := opd) (cmp := cmp) ((homeWriteStatus_alike hal ..).trans hst)
      (clean_alike hal hclean) ((regionLines_alike hal ..).trans hlines)
  rw [hpeek] at happly
  refine ⟨_, hexec.trans (congrArg _ happly), answered_of_hasEntry _ (hasEntry_congr (s := u) rfl hhas), fun x => ?_, hal.2.1⟩
  have hput := putMem_stored (s := u) (a := e.addr % 2 ^ 52)
    (bs := natLe (atomSize w64) (atomNew op w64 (leNat (s.peek (e.addr % 2 ^ 52) (atomSize w64))) opd cmp)) (by rw [hal.1]; exact hwf) x
  rw [hal.1] at hput
  exact hput

/-- What has just been put in memory is read back. -/
theorem read_putMem (hwf : s.mem.wf = true) {a n : Nat} {bs : List Byte} (hlen : bs.length = n) : (s.putMem a bs).mem.read a n = bs := by
  refine List.ext_getElem (by rw [read_length, hlen]) fun i h1 h2 => ?_
  have hi : byteAt (s.putMem a bs).mem.bytes (a + i) = bs.getD i 0 := by
    rw [putMem_stored hwf, if_pos ⟨by omega, by omega⟩, Nat.add_sub_cancel_left]
  rw [List.getD_eq_getElem _ _ h2] at hi
  rw [← hi]
  simp [Mem.read, tabulate]

/-- The word of a mark that has just been written. -/
theorem markWord_putMem (hwf : s.mem.wf = true) (p : ParcelId) (n : BitVec 10) (w : Word) :
    (s.putMem (markKey p n) (natLe 4 w.toNat)).markWord p n = w := by
  rw [State.markWord, read_putMem hwf (natLe_length ..), leNat_natLe]
  exact BitVec.eq_of_toNat_eq (by simpa using w.isLt)

theorem home_mark (hwf : s.mem.wf = true) (h : MayServe s t src tag e) (hclaim : isClaim e.addr (e.op.home.getD (.load 0)) = false) {p : ParcelId} {v : Word}
    (hop : e.op = .mark (.add v)) (hst : s.markStatus e.addr = 0) (hp : keyParcel e.addr = some p) (hc : Counts s p (addrMark e.addr)) :
    ∃ u : State, exec (.homeAgentRequest t (.tract src tag)) s = .next u ∧ Answered u src e.gen okResponse ∧
      u.markWord p (addrMark e.addr) = s.markWord p (addrMark e.addr) + v := by
  rw [hop] at hclaim
  obtain ⟨u, hal, hhas, hexec⟩ := homeAgentRequest_applies h (op := .mark (.add v)) (by rw [hop]; rfl) hclaim (fun _ _ => rfl)
  have hword : u.markWord p (addrMark e.addr) = s.markWord p (addrMark e.addr) := by
    rw [State.markWord, hal.1]
    rfl
  have happly : u.homeApply t (.agent src e.gen) e.addr (.mark (.add v)) = _ := homeMark_add (src := .agent src e.gen) hst hp (counts_alike hal hc)
  rw [hword] at happly
  obtain ⟨hmem, hkeep⟩ := releaseWaiters_keepsEntry (tr := src) (gen := e.gen)
    (u.putMem (markKey p (addrMark e.addr)) (natLe 4 (s.markWord p (addrMark e.addr) + v).toNat)) p (addrMark e.addr)
  refine ⟨_, hexec.trans (congrArg _ happly), answered_of_hasEntry _ (hkeep (hasEntry_congr (s := u) rfl hhas)), ?_⟩
  have hput := markWord_putMem (s := u) (by rw [hal.1]; exact hwf) p (addrMark e.addr) (s.markWord p (addrMark e.addr) + v)
  rw [State.markWord] at hput ⊢
  rw [← hmem] at hput
  exact hput

end

/-! Requests that links have brought (R255, R267, R275). -/

/-- All that decides where a message for another module leaves is as it was. -/
def State.RouteAlike (s t : State) : Prop :=
  t.fabric = s.fabric ∧ (∀ p : Port, (t.link p).failed = (s.link p).failed) ∧ t.job = s.job ∧ t.out = s.out ∧
    t.reg (modReg .fabCtl) = s.reg (modReg .fabCtl) ∧ ∀ p, t.portState p = s.portState p

section
variable {s u v : State} {t : Tract}

theorem State.RouteAlike.trans (h : s.RouteAlike u) (h' : u.RouteAlike v) : s.RouteAlike v := by
  obtain ⟨hfab, hlink, hjob, hout, hctl, hport⟩ := h
  obtain ⟨hfab', hlink', hjob', hout', hctl', hport'⟩ := h'
  exact ⟨hfab'.trans hfab, fun p => (hlink' p).trans (hlink p), hjob'.trans hjob, hout'.trans hout, hctl'.trans hctl, fun p => (hport' p).trans (hport p)⟩

theorem route_alike (h : s.RouteAlike u) (dmod hashIn : Nat) : u.route dmod hashIn = s.route dmod hashIn := by
  obtain ⟨hfab, hlink, -, -, hctl, hport⟩ := h
  have hroute : u.routePort dmod hashIn = s.routePort dmod hashIn := by
    unfold State.routePort State.regBits
    rw [hfab, hctl]
  unfold State.route
  rw [hroute]
  simp only [hlink, hport]

theorem homeCount_routeAlike (s : State) (t : Tract) : s.RouteAlike (s.homeCount t) := by
  have hreg (k : RegKey) (hk : k.r ≠ .fabHcl) : (s.homeCount t).reg k = s.reg k := (homeCount_homeAlike s t).2.2.2.2 k hk
  refine ⟨rfl, fun _ => rfl, rfl, rfl, hreg _ (by decide), fun p => ?_⟩
  rw [State.portState, State.regBits, hreg _ (RegName.noConfusion : RegName.linkStat ≠ .fabHcl)]
  rfl

theorem link_modLink (s : State) (p p' : Port) (f : LinkPort → LinkPort) : (s.modLink p f).link p' = if p' = p then f (s.link p) else s.link p' :=
  AMap.get_put ..

/-- Credits that go back to a partner. -/
theorem giveUnits_alike (s : State) (p : Port) (vc n : Nat) : s.HomeAlike (s.giveUnits p vc n) ∧ s.RouteAlike (s.giveUnits p vc n) ∧
    (s.giveUnits p vc n).fabs = s.fabs := by
  refine ⟨⟨rfl, rfl, rfl, rfl, fun _ _ => rfl⟩, ⟨rfl, fun p' => ?_, rfl, rfl, rfl, fun _ => rfl⟩, rfl⟩
  unfold State.giveUnits
  rw [link_modLink]
  split
  next h => subst h; rfl
  next => rfl

/-- What a response's message becomes on its way out. -/
theorem sendResponse_out {o p : Port} {m : MemMsg} (h : s.route m.smod (msgHash m) = .inl o.val) : (s.sendResponse p m).out = s.out ++ [.memory o m] := by
  have hport : (if h : o.val < 16 then (⟨o.val, h⟩ : Port) else p) = o := by rw [dif_pos o.isLt]
  rw [State.sendResponse, State.sendResponseFrom, h]
  dsimp only
  rw [hport, State.sendFrom]
  dsimp only
  split <;> rfl

/-- A load that a link has brought is answered by the route to the module that sent it (R258, R267, R275). -/
theorem link_load {p o : Port} {m : MemMsg} {n : Nat} {b : Bool} {rest : List InReq} (hdead : s.dead t.val = false)
    (hinbox : (s.fab t).inbox = { port := p, msg := m, credit := b, stamp := n } :: rest) (hmay : s.haMay t n true = true) (hepoch : m.epoch = s.fabric.epoch)
    (hroute : s.route m.smod (msgHash m) = .inl o.val) (hmt : m.mt = 1) (hcomb : (s.fab t).comb = []) (hclaim : isClaim m.addr (.load m.len) = false)
    (hst : s.windowStatus (m.addr % 2 ^ 52) m.len false = 0) (hctl : ∀ off, windowOf (gaOffset (m.addr % 2 ^ 52)) ≠ .control off)
    (hclean : Clean s (m.addr % 2 ^ 52) m.len) :
    ∃ u : State, exec (.homeAgentRequest t .link) s = .next u ∧ (u.fab t).inbox = rest ∧ u.mem = s.mem ∧
      u.out = s.out ++ [.memory o (rspMsg m { status := 0, data := s.peek (m.addr % 2 ^ 52) m.len, poison := 0 })] := by
  have hop : msgHomeOp m = .load m.len := by
    rw [msgHomeOp, hmt]
    rfl
  have hleft (a : State) : a.HomeAlike (a.leaveInbox [{ port := p, msg := m, credit := b, stamp := n }]) ∧
      a.RouteAlike (a.leaveInbox [{ port := p, msg := m, credit := b, stamp := n }]) ∧
      (a.leaveInbox [{ port := p, msg := m, credit := b, stamp := n }]).fabs = a.fabs := by
    cases b
    · exact ⟨⟨rfl, rfl, rfl, rfl, fun _ _ => rfl⟩, ⟨rfl, fun _ => rfl, rfl, rfl, rfl, fun _ => rfl⟩, rfl⟩
    · exact giveUnits_alike ..
  obtain ⟨hhome, hway, hfabs⟩ := hleft (s.modFab t (fun f => { f with inbox := rest }))
  have hexec : exec (.homeAgentRequest t .link) s = .next (((s.modFab t (fun f => { f with inbox := rest })).leaveInbox
      [{ port := p, msg := m, credit := b, stamp := n }]).haServeLink t { port := p, msg := m, credit := b, stamp := n }) := by
    refine congrArg Host.Outcome.next ?_
    dsimp only
    rw [hdead, hinbox]
    dsimp only
    rw [hmay]
    rfl
  generalize ((s.modFab t (fun f => { f with inbox := rest })).leaveInbox [{ port := p, msg := m, credit := b, stamp := n }]) = a at hexec hhome hway hfabs
  have hfab : a.fab t = { s.fab t with inbox := rest } := by
    rw [State.fab, hfabs]
    exact (State.fab_modFab ..).trans (if_pos rfl)
  have hcomb' : (a.fab t).comb = [] := by rw [hfab]; exact hcomb
  have hal : s.HomeAlike (a.homeCount t) := ((modFab_homeAlike s t _).trans hhome).trans (homeCount_homeAlike ..)
  have hrt : s.RouteAlike (a.homeCount t) := by
    refine State.RouteAlike.trans (State.RouteAlike.trans ?_ hway) (homeCount_routeAlike ..)
    exact ⟨rfl, fun _ => rfl, rfl, rfl, rfl, fun _ => rfl⟩
  have hserve : a.haServeLink t { port := p, msg := m, credit := b, stamp := n } = (a.homeCount t).takeFree.sendResponse p
      (rspMsg m { status := 0, data := s.peek (m.addr % 2 ^ 52) m.len, poison := 0 }) := by
    have hload := homeLoad_eq (src := .link m p) ((windowStatus_alike hal ..).trans hst) hctl (clean_alike hal hclean)
    rw [peek_alike hal (not_control_of_holds (holds_of_windowStatus hst hctl))] at hload
    rw [State.haServeLink]
    dsimp only
    have hfabric : a.fabric = s.fabric := hway.1
    rw [if_neg (by rw [hepoch, hfabric]; exact fun h => h rfl), hop, hclaim, if_neg Bool.false_ne_true, homeServe_eq hcomb' (fun _ => rfl)]
    exact hload
  refine ⟨_, hexec.trans (congrArg _ hserve), ?_, ?_, ?_⟩
  · obtain ⟨regs, links, host, out, h⟩ := State.sendResponse_traffic (a.homeCount t).takeFree p
      (rspMsg m { status := 0, data := s.peek (m.addr % 2 ^ 52) m.len, poison := 0 })
    rw [h]
    change ((a.modFab t (fun f => { f with turns := f.turns + 1 })).fab t).inbox = rest
    rw [State.fab_modFab, if_pos rfl, hfab]
  · exact (State.sendResponse_traffic ..).mem.trans hal.1
  · rw [sendResponse_out (o := o) ?_]
    · exact congrArg (· ++ _) hrt.2.2.2.1
    · exact (route_alike (s := s) (u := (a.homeCount t).takeFree) hrt ..).trans hroute

end

/-! The turn of a combining entry (R269). -/

section
variable {s : State} {t : Tract} {key n : Nat}

theorem answer_comb (s : State) (src : RemoteSrc) (r : Response) (t : Tract) : ((s.answer src r).fab t).comb = (s.fab t).comb := by
  cases src with
  | agent t' gen =>
    change ((s.modFab t' _).fab t).comb = _
    rw [State.fab_modFab]
    split
    next h => subst h; rfl
    next => rfl
  | link m p =>
    obtain ⟨regs, links, host, out, h⟩ := State.sendResponse_traffic s p (rspMsg m r)
    change ((s.sendResponse p (rspMsg m r)).fab t).comb = _
    rw [h]
    rfl

theorem answers_comb (srcs : List RemoteSrc) (r : Response) : ∀ s : State, ((srcs.foldl (fun s src => s.answer src r) s).fab t).comb = (s.fab t).comb := by
  induction srcs with
  | nil => intro s; rfl
  | cons src srcs ih => intro s; rw [List.foldl_cons, ih, answer_comb]

/-- A combining entry that is applied changes its word alone, and is gone. -/
theorem applyComb_stored (hwf : s.mem.wf = true) (c : CombEntry) (hst : s.homeWriteStatus (c.addr % 2 ^ 52) (atomSize c.w64) true = 0)
    (hclean : Clean s (c.addr % 2 ^ 52) (atomSize c.w64)) :
    ((s.applyComb t c).fab t).comb = (s.fab t).comb.filter (fun x => decide (x.id ≠ c.id)) ∧
      Stored s (s.applyComb t c) (c.addr % 2 ^ 52) (natLe (atomSize c.w64)
        (atomNew (b2n c.orOp) c.w64 (leNat (s.peek (c.addr % 2 ^ 52) (atomSize c.w64))) c.opd 0)) := by
  have hwin := windowStatus_of_homeWriteStatus hst
  generalize hu : s.modFab t (fun f => { f with comb := f.comb.filter (fun x => x.id ≠ c.id) }) = u
  have hal : s.HomeAlike u := by rw [← hu]; exact modFab_homeAlike ..
  have hclean' := clean_alike hal hclean
  have hpeek : u.takeFree.peek (c.addr % 2 ^ 52) (atomSize c.w64) = s.peek (c.addr % 2 ^ 52) (atomSize c.w64) := by
    have hwin' : u.takeFree.windowStatus (c.addr % 2 ^ 52) (atomSize c.w64) true = 0 := (windowStatus_alike hal ..).trans hwin
    rw [peek_of_writable hwin', peek_of_writable hwin]
    exact congrArg (fun m => Mem.read m _ _) hal.1
  have hstore (v : Nat) : u.takeFree.store (c.addr % 2 ^ 52) (natLe (atomSize c.w64) v) = u.takeFree.putMem (c.addr % 2 ^ 52) (natLe (atomSize c.w64) v) :=
    store_of_clean (by rw [natLe_length]; exact hclean') (by rw [natLe_length]; exact oneSize_of_homeWriteStatus hst)
  have happly : s.applyComb t c = c.srcs.foldl (fun s src => s.answer src okResponse) (u.takeFree.putMem (c.addr % 2 ^ 52)
      (natLe (atomSize c.w64) (atomNew (b2n c.orOp) c.w64 (leNat (s.peek (c.addr % 2 ^ 52) (atomSize c.w64))) c.opd 0))) := by
    rw [State.applyComb, hu, touch_of_clean hclean', hpeek, hstore]
  refine ⟨?_, fun x => ?_⟩
  · rw [happly, answers_comb]
    change (u.fab t).comb = _
    rw [← hu, State.fab_modFab, if_pos rfl]
  · have hput := putMem_stored (s := u.takeFree) (a := c.addr % 2 ^ 52) (bs := natLe (atomSize c.w64)
      (atomNew (b2n c.orOp) c.w64 (leNat (s.peek (c.addr % 2 ^ 52) (atomSize c.w64))) c.opd 0)) (by change u.mem.wf = true; rw [hal.1]; exact hwf) x
    have hmem : u.takeFree.mem = s.mem := hal.1
    rw [hmem] at hput
    rw [happly, (State.KeepsEntry.foldl (tr := t) (gen := 0) (fun s src => answer_keepsEntry s src okResponse) c.srcs _).1]
    exact hput

end

/-! Completions at the request agent (R258, R260, R277). -/

/-- Memory, the cores and the count of completions are as they were, and the agent has no entry of a number that it had not. -/
def State.PumpsOn (s u : State) (t : Tract) (gen : Nat) : Prop :=
  u.mem = s.mem ∧ u.cores = s.cores ∧ u.reg (tractReg .fabCl t) = s.reg (tractReg .fabCl t) ∧
    ((∀ x ∈ (s.fab t).ra, x.gen ≠ gen) → ∀ x ∈ (u.fab t).ra, x.gen ≠ gen)

section
variable {s u v : State} {t : Tract} {gen : Nat} {e : RaEntry}

theorem State.PumpsOn.refl (s : State) : s.PumpsOn s t gen := ⟨rfl, rfl, rfl, id⟩

theorem State.PumpsOn.trans (h : s.PumpsOn u t gen) (h' : u.PumpsOn v t gen) : s.PumpsOn v t gen := by
  obtain ⟨hmem, hcores, hreg, hgen⟩ := h
  obtain ⟨hmem', hcores', hreg', hgen'⟩ := h'
  exact ⟨hmem'.trans hmem, hcores'.trans hcores, hreg'.trans hreg, hgen' ∘ hgen⟩

theorem pumpsOn_of_goOn (h : s.EntriesGoOn u t) (hreg : u.reg (tractReg .fabCl t) = s.reg (tractReg .fabCl t)) : s.PumpsOn u t gen := by
  obtain ⟨hmem, hcores, -, -, f, hf, hra⟩ := h
  refine ⟨hmem, hcores, hreg, fun hnone y hy => ?_⟩
  rw [hra] at hy
  obtain ⟨x, hx, rfl⟩ := List.mem_map.1 hy
  rw [(hf x).1]
  exact hnone x hx

theorem sendRouted_reg (s : State) (m : MemMsg) (k : RegKey) : (s.sendRouted m).reg k = s.reg k := by
  unfold State.sendRouted
  split
  · split
    · unfold State.send State.sendFrom
      dsimp only
      split <;> rfl
    · rfl
  · rfl

theorem emit_reg_fabCl (s : State) (r : ErrRec) (t : Tract) : (s.emit r).reg (tractReg .fabCl t) = s.reg (tractReg .fabCl t) :=
  State.emit_reg (fun h => RegName.noConfusion (congrArg RegKey.r h)) (fun h => RegName.noConfusion (congrArg RegKey.r h)) s r

/-- An entry that goes on completes nothing. -/
theorem raSend_reg (s : State) (e : RaEntry) (t : Tract) : (s.raSend t e).reg (tractReg .fabCl t) = s.reg (tractReg .fabCl t) := by
  have hfold (l : List (Nat × Nat)) : ∀ u : State, (l.foldl (fun s q => s.sendRouted (s.lineMsg t e q.1 q.2 none)) u).reg (tractReg .fabCl t) = u.reg (tractReg .fabCl t) := by
    induction l with
    | nil => intro u; rfl
    | cons q l ih => intro u; rw [List.foldl_cons, ih, sendRouted_reg]
  have hdata : (s.raSendData t e).reg (tractReg .fabCl t) = s.reg (tractReg .fabCl t) := by
    unfold State.raSendData
    dsimp only
    split
    · rfl
    · split
      · rfl
      · split
        · rfl
        · rw [hfold]
          rfl
  have hown (n : Nat) : (if n ≠ 0 && s.inReplica (e.addr % 2 ^ 52) n then
      (s.replicaRecord t (e.addr % 2 ^ 52)).setEntry t e.gen (fun e => { e with stage := .answered (statusResponse 3) })
      else s.setEntry t e.gen (fun e => { e with stage := .ready })).reg (tractReg .fabCl t) = s.reg (tractReg .fabCl t) := by
    split
    · exact emit_reg_fabCl ..
    · rfl
  unfold State.raSend
  dsimp only
  split
  · exact hdata
  · split
    · rfl
    · split
      · split
        · exact hown _
        · exact hown _
        · exact hown _
      · split
        · rfl
        · rw [sendRouted_reg]
          rfl

theorem raPump_pumpsOn (s : State) : s.PumpsOn (s.raPump t) t gen := by
  unfold State.raPump
  refine List.foldlRecOn (motive := fun u => s.PumpsOn u t gen) _ _ (.refl s) fun u hu e _ => hu.trans ?_
  split
  · split
    · exact .refl u
    · exact pumpsOn_of_goOn (raSend_goOn ..) (raSend_reg ..)
  · exact .refl u

/-- What a completion leaves at its request agent. -/
theorem raFinish_ok (s : State) (t : Tract) (gen : Nat) : (s.raFinish t gen 0).mem = s.mem ∧ (s.raFinish t gen 0).cores = s.cores ∧
    (s.raFinish t gen 0).reg (tractReg .fabCl t) = setBits (s.reg (tractReg .fabCl t)) 63 32 (s.regBits (tractReg .fabCl t) 63 32 + 1) ∧
    ∀ x ∈ ((s.raFinish t gen 0).fab t).ra, x.gen ≠ gen := by
  refine ⟨rfl, rfl, ?_, ?_⟩
  · change (State.setRegBits _ _ _ _ _).reg _ = _
    rw [State.reg_setRegBits, if_pos rfl]
    rfl
  · intro x hx
    have hra : ((s.raFinish t gen 0).fab t).ra = ((s.modFab t (fun f => { f with ra := (f.ra.filter (fun e => e.gen ≠ gen)).map (fun e =>
        if (0 : Nat) ≠ 0 && e.preds.contains gen then { e with failed := true } else e) })).fab t).ra := rfl
    rw [State.fab_modFab, if_pos rfl] at hra
    rw [hra] at hx
    obtain ⟨y, hy, rfl⟩ := List.mem_map.1 hx
    have hne : y.gen ≠ gen := of_decide_eq_true (List.mem_filter.1 hy).2
    exact hne

theorem raCheck_pumpsOn (s : State) : s.PumpsOn (s.raCheck t) t gen := by
  unfold State.raCheck
  dsimp only
  split
  · exact .refl s
  · exact pumpsOn_of_goOn (State.emit_sparesAgents ..).goOn (emit_reg_fabCl ..)

/-- The answer of an operation of a core that waits for nothing else (R258, R277). -/
theorem completion_core {tag : Nat} {r : Response} {c : CoreId} (hfind : (s.fab t).ra.find? (fun x => decide (x.tag = tag)) = some e)
    (hdata : e.op.isData = false) (hstage : e.stage = .answered r) (hok : r.status = 0) (hsrc : e.src = .core c) (hwait : (s.core c).wait = none)
    (hrels : (s.core c).rels = []) :
    ∃ u : State, exec (.fabricCompletion t tag) s = .next u ∧
      ((s.setCore c ((s.core c).takeAnswer e.gen r)).raFinish t e.gen 0).PumpsOn u t e.gen := by
  have hwaits : (s.modCore c (fun k => k.takeAnswer e.gen r)).waitAnswer c e.gen r = s.setCore c ((s.core c).takeAnswer e.gen r) := by
    rw [State.waitAnswer, State.modCore_eq, State.core_setCore_self]
    have hw : ((s.core c).takeAnswer e.gen r).wait = none := hwait
    rw [hw]
  have hpump := raPump_pumpsOn (t := t) (gen := e.gen) ((s.setCore c ((s.core c).takeAnswer e.gen r)).raFinish t e.gen 0)
  have hcore : ((((s.setCore c ((s.core c).takeAnswer e.gen r)).raFinish t e.gen 0).raPump t).core c) = (s.core c).takeAnswer e.gen r := by
    rw [State.core, hpump.2.1]
    exact State.core_setCore_self ..
  have hcomplete : s.complete t e r = ((s.setCore c ((s.core c).takeAnswer e.gen r)).raFinish t e.gen 0).raPump t := by
    rw [State.complete, hsrc]
    dsimp only
    rw [hwaits, hok]
    simp only [bne_self_eq_false, Bool.and_false, Bool.false_eq_true, if_false]
    exact State.settle_of_no_wait (by rw [hcore]; exact hrels) (by rw [hcore]; exact hwait)
  refine ⟨(s.complete t e r).raCheck t, ?_, by rw [hcomplete]; exact hpump.trans (raCheck_pumpsOn _)⟩
  refine congrArg Host.Outcome.next ?_
  rw [hfind]
  dsimp only
  rw [hstage]
  cases hop : e.op with
  | copyEnd rs w => rw [hop] at hdata; cases hdata
  | _ => rfl

end

/-- Settles O38: a request's turn at its home comes to one access of sound memory and its answer; what is left to show is that
counting the turn, and what the pumps do for other entries, touch nothing that the statement names. -/
theorem homeAgentServes : Obligations.HomeAgentServes := by
  intro t src tag e s hwf
  refine ⟨fun h hclaim => ⟨fun n hop hst hctl hclean => home_load h hclaim hop hst hctl hclean,
    fun d hop hst hclean hlines => home_store hwf h hclaim hop hst hclean hlines,
    fun op w64 opd cmp hop hposted hst hclean hlines => home_atom hwf h hclaim hop hposted hst hclean hlines,
    fun p v hop hst hp hc => home_mark hwf h hclaim hop hst hp hc⟩,
    fun p o m n b rest hdead hinbox hmay hepoch hroute hmt hcomb hclaim hst hctl hclean =>
      link_load hdead hinbox hmay hepoch hroute hmt hcomb hclaim hst hctl hclean,
    fun c hdead hc hst hclean => ⟨s.applyComb t c, ?_, applyComb_stored hwf c hst hclean⟩,
    fun r c hfind hdata hstage hok hsrc hwait hrels => ?_⟩
  · refine congrArg Host.Outcome.next ?_
    rw [hc]
    dsimp only
    rw [hdead]
    rfl
  · obtain ⟨u, hexec, hmem, hcores, hreg, hgen⟩ := completion_core hfind hdata hstage hok hsrc hwait hrels
    obtain ⟨hmem', hcores', hreg', hgen'⟩ := raFinish_ok (s.setCore c ((s.core c).takeAnswer e.gen r)) t e.gen
    have hcore : u.core c = (s.core c).takeAnswer e.gen r := by
      rw [State.core, hcores, hcores']
      exact State.core_setCore_self ..
    refine ⟨u, hexec, hgen hgen', hmem.trans hmem', ?_, ?_, ?_, ?_⟩
    · rw [State.regBits, hreg, hreg', bitsOf_setBits_same]
      rfl
    · rw [hcore]
      rfl
    · rw [hcore]
      rfl
    · rw [hcore]
      rfl

end Sys2Proof.Machine
end

section
/-!
PROOFS (O31). A Dispatcher entry whose read reports a failed check of its mesh (R183, R410, R417).
-/
namespace Sys2Proof.Machine
open Sys2Proof.Claims

/-- The bytes of TMPL_SET: one template, for the last place, at offset 0x100 of the first slice of tract 1 (R183). -/
def tmplSetBytes : List Byte :=
  List.replicate 32 0 ++ [3, 0, 0, 1023, 0, 0, 0, 0, 0, 0, 0, 0, 0x100, 0x10000, 1].flatMap (natLe 4) ++ List.replicate 36 0

def tmplSetEntry : QEntry :=
  { id := 0, pt := chainPoint 0 0x1000 0, kind := .entry, bytes := tmplSetBytes, started := false, work := .none }

/-- A record that merges with none that the mesh gives. -/
def oldRecord : ErrRec := State.reset.record .tileParity 5 0

/-- A module OWNED whose Dispatcher of tract 0 may start that entry; the check of the tract's mesh fails, and its collector is full. -/
def meshFails : State :=
  { State.reset with
    job := { Job.reset with state := .owned }, queues := [(engQueue 0 .dispatcher, { QueueState.reset with entries := [tmplSetEntry] })]
    mem := { Mem.reset with bytes := [(0x1_0000_0000_0102, 1), (0x1_0000_0000_0103, 1), (0x1_0000_0000_0106, 1)] }
    fabs := [(0, { TractFab.reset with collector := List.replicate 64 oldRecord })], up := { State.reset.up with badUnits := [(0, .mesh)] } }

set_option exponentiation.threshold 1024 in
theorem meshFails_begins : Begins meshFails (engQueue 0 .dispatcher) tmplSetEntry := by
  unfold Begins
  decide +kernel

theorem meshFails_reads : DispatcherReads meshFails 0 0x1_0000_0000_0100 16 := by
  refine ⟨by decide +kernel, by decide +kernel, by decide +kernel, fun _ u _ => ⟨List.not_mem_nil, List.not_mem_nil, List.not_mem_nil, rfl⟩, ?_⟩
  have hnone : meshFails.foreignLines [(0x1_0000_0000_0100, 16)] = [] := by decide +kernel
  rw [hnone]
  exact fun q hq => absurd hq List.not_mem_nil

/-- What a register holds behind a command. -/
def regBehind (o : Result) (k : RegKey) : Nat :=
  match o with
  | .next u => u.reg k
  | _ => 0

theorem meshFails_errStat : regBehind (exec (.tmplSet 0 []) meshFails) (modReg .errStat) = 0x10001 := by
  decide +kernel

/-- What the Dispatcher reads there. -/
theorem meshFails_fetch : meshFails.engineFetch 0x1_0000_0000_0100 16 [] = some [0, 0, 1, 1, 0, 0, 1, 0, 0, 0, 0, 0, 0, 0, 0, 0] := by
  decide +kernel

/-- It is one template, and valid. -/
theorem meshFails_template : ∀ d ∈ records16 [0, 0, 1, 1, 0, 0, 1, 0, 0, 0, 0, 0, 0, 0, 0, 0], tmValid d.toNat = true := by
  have hrecord : records16 [0, 0, 1, 1, 0, 0, 1, 0, 0, 0, 0, 0, 0, 0, 0, 0] = [0x1_0000_0101_0000] := by decide +kernel
  have hvalid : tmValid 0x1_0000_0101_0000 = true := by decide +kernel
  intro d hd
  rw [hrecord, List.mem_singleton] at hd
  rw [hd]
  exact hvalid

/-- The entry asks for nothing reserved. -/
theorem tmplSetEntry_fields : tmplSetEntry.dispOp = 3 ∧ tmplSetEntry.bodyClean [(3, 0), (105, 96), (447, 384), (479, 448)] = true ∧
    tmplSetEntry.body 479 448 = 1 ∧ tmplSetEntry.body 105 96 = 1023 ∧ tmplSetEntry.body 447 384 = 0x1_0000_0000_0100 := by
  decide +kernel

/-- Refutes O31: it says that TMPL_SET sets no register but the templates and the counts of the fabric. The read that it makes of another tract crosses the
mesh, whose failed check is recorded (R410); where the tract's collector is full a record is lost, which ERR_STAT counts (R417). -/
theorem not_dispatcherEntries : ¬ Obligations.DispatcherEntries := by
  intro h
  obtain ⟨hop, hclean, hcount, hfirst, haddr⟩ := tmplSetEntry_fields
  obtain ⟨-, -, -, htmpl, -⟩ := h 0 tmplSetEntry meshFails meshFails_begins (by unfold Quiet; decide +kernel)
  obtain ⟨u, hexec, -, -, -, -, hkept⟩ := htmpl [] _ hop hclean (by rw [hcount]) (by rw [hcount, hfirst]) (by rw [haddr])
    (by rw [haddr, hcount]; exact meshFails_fetch) (by rw [haddr, hcount]; exact meshFails_reads) meshFails_template
  have hstat : u.reg (modReg .errStat) = meshFails.reg (modReg .errStat) := hkept _ (by decide) (by decide) (by decide) (fun j _ => by simp [modReg, tractRegI])
  have hcounted := meshFails_errStat
  rw [hexec] at hcounted
  have hlost : u.reg (modReg .errStat) = 0x10001 := hcounted
  rw [hlost] at hstat
  exact absurd hstat (by decide +kernel)

end Sys2Proof.Machine
end

section
/-!
PROOFS (O34). A credit unit from a tract that the model lists twice for one exchange (R222, R245).
-/
namespace Sys2Proof.Machine
open Sys2Proof.Claims

/-- The exchange of the example: a forward DISPATCH of layer 0 and micro-batch 0. -/
def twiceKey : XKey := { xk := 0, layer := 0, mb := 0, cid := 0 }

/-- A segment of that exchange from tract 1 to tract 0, without rows. -/
def twiceSeg : Segment :=
  { hdr := { type := 1, xk := 0, layer := 0, mb := 0, smod := 0, stract := 1, dmod := 0, dtract := 0, expert := 0, count := 0, mbase := 0, novf := 0,
             status := 0, cid := 0, uoff := 0, srank := 0 }
    rows := [] }

/-- It has two units still to land, one of them with a credit. -/
def twiceItem : XItem := { seg := twiceSeg, units := 2, flight := 1, port := none }

/-- Tract 0 runs the exchange; tract 1 is listed with it twice, waiting for no item and for one. -/
def listedTwice : State :=
  { State.reset with
    xfer := { State.reset.xfer with
      exch := [newExch 0 0 twiceKey [] 0, newExch 1 0 twiceKey [] 0, { newExch 1 0 twiceKey [] 0 with want := 1 }]
      paths := [((0, .tract 1), [twiceItem])] } }

/-- What the exchanges wait for behind a command. -/
def wantsBehind (o : Result) : List Nat :=
  match o with
  | .next u => u.xfer.exch.map (fun x => x.want)
  | _ => []

/-- That tract 1 is heard of rewrites both its places in the list with the first of them. -/
theorem listedTwice_wants : wantsBehind (exec (.creditUnit 0 (.tract 1)) listedTwice) = [0, 0, 0] := by
  decide +kernel

/-- Refutes O34: it says that a credit unit that is not the last leaves every exchange as it was but for the peers heard of. The state may list one exchange
of the sending tract twice, which no premise excludes, and the note that a credit has come from its peer then makes both places alike. -/
theorem not_exchangeEntries : ¬ Obligations.ExchangeEntries := by
  intro h
  obtain ⟨-, hcredit, -⟩ := h 0 tmplSetEntry listedTwice (by decide +kernel) rfl
  obtain ⟨hmore, -⟩ := hcredit (.tract 1) twiceItem [] (by decide +kernel) rfl (by decide +kernel) (.inl (by decide +kernel))
  obtain ⟨u, i, rest, hexec, -, -, -, -, hexch, -⟩ := hmore (by decide +kernel)
  have hwants : u.xfer.exch.map (fun x => x.want) = listedTwice.xfer.exch.map (fun x => x.want) := by
    have := congrArg (List.map (fun x : Exch => x.want)) hexch
    rw [List.map_map, List.map_map] at this
    exact this
  have hbehind := listedTwice_wants
  rw [hexec] at hbehind
  exact absurd (hwants.symm.trans hbehind) (by decide +kernel)

end Sys2Proof.Machine
end

section
/-!
PROOFS (O2). Every step keeps the bounds of O2. `State.Bounded bd s` says that a bound bd holds of a state. One lemma per function of the model
says what it does to that: a function that leaves the counted lists and CM_LAYOUT alone has the form (`↔`), one that shortens a list, or lets it
grow under the guard of its own stall, keeps the bound (an implication). An instruction's lemma follows from those of the functions it calls, and
the step's from the instructions'. The lemmas go through the model in its own order, as those of O60 do.

The lemmas on what is read of a key or a core are proved by `(rfl)` and not by `rfl`: they serve in side conditions of other lemmas, where simp has
to answer with a proof.
-/
namespace Sys2Proof.Machine

/-- The four limits of O2: entries of an array queue, copies in flight, loads outstanding, entries of a tile list. -/
inductive Limit where
  | queue | copies | loads | tiles

/-- What the lemmas below bound: what O2 limits, and that a parcel's list has room for n more entries. The second is what an operation that
appends to a list has seen before it does other things first. -/
inductive Bound where
  | limit (l : Limit)
  | room (p : ParcelId) (n : Nat)

/-- What a bound counts of these lists of a core. -/
def Bound.size : Bound → List ArrEntry → List CopyJob → List OutLoad → Nat
  | .limit .queue, es, _, _ => es.length
  | .limit .copies, _, js, _ => js.length
  | .limit .loads, _, _, ls => (ls.filter (fun l => !l.atom)).length
  | .limit .tiles, _, _, _ => 0
  | .room _ _, _, _, _ => 0

/-- What a bound counts of a core. -/
def Core.count (bd : Bound) (k : Core) : Nat := bd.size k.arr.queue k.copies k.loads

/-- The most that a core may have of it (R26, R78). -/
def Bound.cap : Bound → Nat
  | .limit .queue => 8
  | .limit .copies => 32
  | .limit .loads => 8
  | .limit .tiles => 0
  | .room _ _ => 0

/-- How many more entries a parcel's list has room for under a bound, where the bound speaks of the list. -/
def Bound.spare : Bound → ParcelId → Option Nat
  | .limit .tiles, _ => some 0
  | .limit _, _ => none
  | .room p n, q => if q = p then some n else none

/-- The capacity that CM_LAYOUT gives a tract's tile lists (R138, R169). -/
def regsTileCap (regs : AMap RegKey Nat) (t : Tract) : Nat :=
  bitsOf (regs.get (tractReg .cmLayout t) RegName.cmLayout.resetValue) 3 0 * 1024

/-- A bound holds of these cores, parcels and registers. -/
def Bound.holds (bd : Bound) (cores : AMap CoreId Core) (parcels : AMap ParcelId Parcel) (regs : AMap RegKey Nat) : Prop :=
  (∀ c, (cores.get c Core.reset).count bd ≤ bd.cap) ∧
    ∀ p n, bd.spare p = some n → (parcels.get p Parcel.reset).tiles.length + n ≤ regsTileCap regs p.tract

/-- A bound holds of a state. -/
def State.Bounded (bd : Bound) (s : State) : Prop := bd.holds s.cores s.parcels s.regs

/-- A bound holds of the state in an outcome, where there is one. -/
def Result.Bounded (bd : Bound) (r : Result) : Prop := ∀ t, r = .next t → t.Bounded bd

variable {bd : Bound} {lim : Limit}

@[simp] theorem State.bounded_fields (s : State) : bd.holds s.cores s.parcels s.regs ↔ s.Bounded bd := ⟨id, id⟩

/-- Only the fields cores, parcels and regs of a state count. -/
@[simp] theorem State.bounded_mk (pending free ticks aoTime mtime mem cores parcels fabs fabric engWaits queues seqrs host regs job errs plan xfer
    links relayed meridian up out) :
    (State.mk pending free ticks aoTime mtime mem cores parcels fabs fabric engWaits queues seqrs host regs job errs plan xfer links relayed
      meridian up out).Bounded bd ↔ bd.holds cores parcels regs := ⟨id, id⟩

@[simp] theorem State.bounded_ite (c : Prop) [Decidable c] (s t : State) :
    (if c then s else t).Bounded bd ↔ if c then s.Bounded bd else t.Bounded bd := by
  split
  · exact Iff.rfl
  · exact Iff.rfl

/-- A fold of steps that leave what is counted alone. -/
theorem State.foldl_bounded_iff {α : Type} {f : State → α → State} (hf : ∀ s x, (f s x).Bounded bd ↔ s.Bounded bd) (l : List α) (s : State) :
    (l.foldl f s).Bounded bd ↔ s.Bounded bd := by
  induction l generalizing s with
  | nil => exact Iff.rfl
  | cons x l ih => exact (ih (f s x)).trans (hf s x)

/-- A fold of steps that keep a bound. -/
theorem State.foldl_bounded {α : Type} {f : State → α → State} (hf : ∀ s x, s.Bounded bd → (f s x).Bounded bd) {l : List α} {s : State}
    (h : s.Bounded bd) : (l.foldl f s).Bounded bd := by
  induction l generalizing s with
  | nil => exact h
  | cons x l ih => exact ih (hf s x h)

@[simp] theorem Result.bounded_next (s : State) : Result.Bounded bd (.next s) ↔ s.Bounded bd :=
  ⟨fun h => h s rfl, fun h t e => by cases e; exact h⟩

/-! What is counted of a core. -/

@[simp] theorem Core.count_fields (k : Core) : bd.size k.arr.queue k.copies k.loads = k.count bd := (rfl)

/-- Only the array's queue, the copies and the loads of a core count. -/
@[simp] theorem Core.count_mk (g a p pc ac progBase progLimit arg0 arg1 arriveSt run pwr land arrive ibuf wait loads rels copies steal tsig arr) :
    (Core.mk g a p pc ac progBase progLimit arg0 arg1 arriveSt run pwr land arrive ibuf wait loads rels copies steal tsig arr).count bd =
      bd.size arr.queue copies loads := (rfl)

@[simp] theorem Core.count_ite (c : Prop) [Decidable c] (k k' : Core) :
    (if c then k else k').count bd = if c then k.count bd else k'.count bd := by
  split
  · rfl
  · rfl

/-- A fold of changes that leave the count alone. -/
theorem Core.foldl_count {α : Type} {f : Core → α → Core} (hf : ∀ k x, (f k x).count bd = k.count bd) (l : List α) (k : Core) :
    (l.foldl f k).count bd = k.count bd := by
  induction l generalizing k with
  | nil => rfl
  | cons x l ih => exact (ih (f k x)).trans (hf k x)

/-- Only the lengths of the lists count, and which loads are atomics. -/
theorem Bound.size_le {es es' : List ArrEntry} {js js' : List CopyJob} {ls ls' : List OutLoad} (he : es'.length ≤ es.length)
    (hj : js'.length ≤ js.length) (hl : (ls'.filter (fun l => !l.atom)).length ≤ (ls.filter (fun l => !l.atom)).length) :
    bd.size es' js' ls' ≤ bd.size es js ls := by
  rcases bd with (_ | _ | _ | _) | ⟨_, _⟩
  · exact he
  · exact hj
  · exact hl
  · exact Nat.le_refl 0
  · exact Nat.le_refl 0

/-- Changes of the entries that keep their number. -/
theorem Bound.size_congr {es es' : List ArrEntry} {js js' : List CopyJob} {ls ls' : List OutLoad} (he : es'.length = es.length)
    (hj : js'.length = js.length) (hl : ls'.map (fun l => l.atom) = ls.map (fun l => l.atom)) :
    bd.size es' js' ls' = bd.size es js ls := by
  have hatom (l : List OutLoad) : (l.filter (fun l => !l.atom)).length = ((l.map (fun l => l.atom)).filter (fun b => !b)).length := by
    rw [List.filter_map, List.length_map]; rfl
  rcases bd with (_ | _ | _ | _) | ⟨_, _⟩
  · exact he
  · exact hj
  · exact (hatom ls').trans ((congrArg (fun l => (l.filter (fun b => !b)).length) hl).trans (hatom ls).symm)
  · rfl
  · rfl

@[simp] theorem Core.count_reset : Core.reset.count bd = 0 := by rcases bd with (_ | _ | _ | _) | ⟨_, _⟩ <;> rfl

@[simp] theorem Core.count_setG (k : Core) (n : BitVec 5) (v : Word) : (k.setG n v).count bd = k.count bd := by
  simp [Core.setG]

@[simp] theorem Core.count_setA (k : Core) (n : BitVec 4) (v : DWord) : (k.setA n v).count bd = k.count bd := by
  simp [Core.setA]

@[simp] theorem Core.count_setP (k : Core) (n : BitVec 3) (v : Bool) : (k.setP n v).count bd = k.count bd := by
  simp [Core.setP]

@[simp] theorem Core.count_setAc (k : Core) (n : BitVec 3) (v : BitVec 16) : (k.setAc n v).count bd = k.count bd := by
  simp [Core.setAc]

@[simp] theorem Core.count_supersede (k : Core) (r : CReg) : (k.supersede r).count bd = k.count bd := by
  refine Bound.size_congr ?_ rfl ?_
  · simp [Core.supersede]
  · simp [Core.supersede]

@[simp] theorem Core.count_putG (k : Core) (n : BitVec 5) (v : Word) : (k.putG n v).count bd = k.count bd := by
  simp [Core.putG]

@[simp] theorem Core.count_putA (k : Core) (n : BitVec 4) (v : DWord) : (k.putA n v).count bd = k.count bd := by
  simp [Core.putA]

@[simp] theorem Core.count_retire (k : Core) (n : Nat) : (k.retire n).count bd = k.count bd := by
  simp [Core.retire]

/-! What is kept of the lists. -/

/-- A core set to one that has no more than is allowed. -/
theorem Bound.holds_putCore {cores : AMap CoreId Core} {parcels : AMap ParcelId Parcel} {regs : AMap RegKey Nat} {c : CoreId} {v : Core}
    (h : bd.holds cores parcels regs) (hv : v.count bd ≤ bd.cap) : bd.holds (AMap.put cores c v) parcels regs := by
  refine ⟨fun c' => ?_, h.2⟩
  rw [AMap.get_put]
  split
  · exact hv
  · exact h.1 c'

/-- A parcel set to one whose list is no longer than the bound allows. -/
theorem Bound.holds_putParcel {cores : AMap CoreId Core} {parcels : AMap ParcelId Parcel} {regs : AMap RegKey Nat} {p : ParcelId} {v : Parcel}
    (h : bd.holds cores parcels regs) (hv : ∀ n, bd.spare p = some n → v.tiles.length + n ≤ regsTileCap regs p.tract) :
    bd.holds cores (AMap.put parcels p v) regs := by
  refine ⟨h.1, fun p' n hn => ?_⟩
  rw [AMap.get_put]
  split
  · subst p'; exact hv n hn
  · exact h.2 p' n hn

theorem regsTileCap_put {regs : AMap RegKey Nat} {k : RegKey} {v : Nat} (hk : k.r ≠ .cmLayout) (t : Tract) :
    regsTileCap (AMap.put regs k v) t = regsTileCap regs t := by
  have hne : tractReg .cmLayout t ≠ k := fun e => hk (congrArg RegKey.r e).symm
  unfold regsTileCap
  rw [AMap.get_put_ne _ _ _ _ _ hne]

/-- A register other than CM_LAYOUT counts for no bound. -/
@[simp] theorem Bound.holds_putReg {cores : AMap CoreId Core} {parcels : AMap ParcelId Parcel} {regs : AMap RegKey Nat} {k : RegKey} {v : Nat}
    (hk : k.r ≠ .cmLayout) : bd.holds cores parcels (AMap.put regs k v) ↔ bd.holds cores parcels regs := by
  unfold Bound.holds
  simp only [regsTileCap_put hk]

/-- What a map's values keep when each is changed in place. -/
theorem AMap.get_map_rel {κ υ : Type} [DecidableEq κ] {m : AMap κ υ} {F : κ × υ → κ × υ} {R : υ → υ → Prop} {k : κ} {d : υ}
    (hkey : ∀ q, (F q).1 = q.1) (hval : ∀ q, R (F q).2 q.2) (hd : R d d) : R (AMap.get (m.map F) k d) (AMap.get m k d) := by
  induction m with
  | nil => exact hd
  | cons q m ih =>
    simp only [List.map_cons, AMap.get, hkey]
    split
    · exact hval q
    · exact ih

theorem AMap.get_filter {κ υ : Type} [DecidableEq κ] {m : AMap κ υ} {g : κ × υ → Bool} {k : κ} {d : υ} (hg : ∀ q : κ × υ, q.1 = k → g q = true) :
    AMap.get (m.filter g) k d = AMap.get m k d := by
  induction m with
  | nil => rfl
  | cons q m ih =>
    by_cases hq : g q = true
    · simp only [List.filter_cons_of_pos hq, AMap.get, ih]
    · have hne : q.1 ≠ k := fun e => hq (hg q e)
      simp only [List.filter_cons_of_neg hq, AMap.get, hne, if_false, ih]

/-- Cores changed each in place, none to one that counts more. -/
theorem Bound.holds_mapCores {cores : AMap CoreId Core} {parcels : AMap ParcelId Parcel} {regs : AMap RegKey Nat} {F : CoreId × Core → CoreId × Core}
    (h : bd.holds cores parcels regs) (hkey : ∀ q, (F q).1 = q.1) (hval : ∀ q, (F q).2.count bd ≤ q.2.count bd) :
    bd.holds (List.map F cores) parcels regs :=
  ⟨fun c => Nat.le_trans (AMap.get_map_rel (R := fun k k' => k.count bd ≤ k'.count bd) hkey hval (Nat.le_refl _)) (h.1 c), h.2⟩

/-- Cores changed each in place, to ones that count the same. -/
@[simp] theorem Bound.holds_mapCores_iff {cores : AMap CoreId Core} {parcels : AMap ParcelId Parcel} {regs : AMap RegKey Nat}
    {F : CoreId × Core → CoreId × Core} (hkey : ∀ q, (F q).1 = q.1) (hval : ∀ q, (F q).2.count bd = q.2.count bd) :
    bd.holds (List.map F cores) parcels regs ↔ bd.holds cores parcels regs := by
  have heq (c : CoreId) : (AMap.get (List.map F cores) c Core.reset).count bd = (AMap.get cores c Core.reset).count bd :=
    AMap.get_map_rel (R := fun k k' => k.count bd = k'.count bd) hkey hval rfl
  unfold Bound.holds
  simp only [heq]

/-- Parcels changed each in place, none to one with a longer list. -/
theorem Bound.holds_mapParcels {cores : AMap CoreId Core} {parcels : AMap ParcelId Parcel} {regs : AMap RegKey Nat}
    {F : ParcelId × Parcel → ParcelId × Parcel} (h : bd.holds cores parcels regs) (hkey : ∀ q, (F q).1 = q.1)
    (hval : ∀ q, (F q).2.tiles.length ≤ q.2.tiles.length) : bd.holds cores (List.map F parcels) regs := by
  refine ⟨h.1, fun p n hn => Nat.le_trans (Nat.add_le_add_right ?_ n) (h.2 p n hn)⟩
  exact AMap.get_map_rel (R := fun v v' : Parcel => v.tiles.length ≤ v'.tiles.length) hkey hval (Nat.le_refl _)

/-- Parcels changed each in place, with lists as long as before. -/
@[simp] theorem Bound.holds_mapParcels_iff {cores : AMap CoreId Core} {parcels : AMap ParcelId Parcel} {regs : AMap RegKey Nat}
    {F : ParcelId × Parcel → ParcelId × Parcel} (hkey : ∀ q, (F q).1 = q.1) (hval : ∀ q, (F q).2.tiles.length = q.2.tiles.length) :
    bd.holds cores (List.map F parcels) regs ↔ bd.holds cores parcels regs := by
  have heq (p : ParcelId) : (AMap.get (List.map F parcels) p Parcel.reset).tiles.length = (AMap.get parcels p Parcel.reset).tiles.length :=
    AMap.get_map_rel (R := fun v v' : Parcel => v.tiles.length = v'.tiles.length) hkey hval rfl
  unfold Bound.holds
  simp only [heq]

/-- Registers other than CM_LAYOUT back at their reset values. -/
theorem Bound.holds_filterRegs {cores : AMap CoreId Core} {parcels : AMap ParcelId Parcel} {regs : AMap RegKey Nat} {g : RegKey × Nat → Bool}
    (hg : ∀ q : RegKey × Nat, q.1.r = .cmLayout → g q = true) : bd.holds cores parcels (List.filter g regs) ↔ bd.holds cores parcels regs := by
  have heq (t : Tract) : regsTileCap (List.filter g regs) t = regsTileCap regs t := by
    unfold regsTileCap
    rw [AMap.get_filter (fun q hq => hg q (congrArg RegKey.r hq))]
  unfold Bound.holds
  simp only [heq]

/-- Where every list is empty and every core counts nothing, the four limits hold. -/
theorem Bound.holds_of_empty {cores : AMap CoreId Core} {parcels : AMap ParcelId Parcel} {regs : AMap RegKey Nat}
    (hcores : ∀ c, (AMap.get cores c Core.reset).count (.limit lim) = 0) (hparcels : ∀ p, (AMap.get parcels p Parcel.reset).tiles = []) :
    (Bound.limit lim).holds cores parcels regs := by
  refine ⟨fun c => Nat.le_trans (Nat.le_of_eq (hcores c)) (Nat.zero_le _), fun p n hn => ?_⟩
  cases lim
  case tiles =>
    cases hn
    rw [hparcels p]
    exact Nat.zero_le _
  all_goals cases hn

/-! Of Sys2Proof/Machine/Regs.lean. -/

@[simp] theorem modReg_r (r : RegName) : (modReg r).r = r := (rfl)
@[simp] theorem modRegI_r (r : RegName) (i : Nat) : (modRegI r i).r = r := (rfl)
@[simp] theorem tractReg_r (r : RegName) (t : Tract) : (tractReg r t).r = r := (rfl)
@[simp] theorem tractRegI_r (r : RegName) (t : Tract) (i : Nat) : (tractRegI r t i).r = r := (rfl)
@[simp] theorem parcelReg_r (r : RegName) (p : ParcelId) : (parcelReg r p).r = r := (rfl)
@[simp] theorem parcelRegI_r (r : RegName) (p : ParcelId) (i : Nat) : (parcelRegI r p i).r = r := (rfl)
@[simp] theorem queueReg_r (r : RegName) (q : QueueId) : (queueReg r q).r = r := (rfl)

@[simp] theorem xsReg_r (p : Port) : (xsReg p).r = .xsPort := (rfl)
@[simp] theorem linkStatR_r (p : Port) : (linkStatR p).r = .linkStat := (rfl)
@[simp] theorem linkCtlR_r (p : Port) : (linkCtlR p).r = .linkCtl := (rfl)
@[simp] theorem merCtl_r : merCtl.r = .merCtl := (rfl)
@[simp] theorem merStat_r : merStat.r = .merStat := (rfl)
@[simp] theorem bootStat_r : bootStat.r = .bootStat := (rfl)
@[simp] theorem tractPwrR_r (t : Tract) : (tractPwrR t).r = .tractPwr := (rfl)
@[simp] theorem clkStat_r : clkStat.r = .clkStat := (rfl)
@[simp] theorem pinStat_r : pinStat.r = .pinStat := (rfl)
@[simp] theorem pwrCtl_r : pwrCtl.r = .pwrCtl := (rfl)
@[simp] theorem pwrStat_r : pwrStat.r = .pwrStat := (rfl)
@[simp] theorem dramTherm_r (t : Tract) : (dramTherm t).r = .dramTherm := (rfl)
@[simp] theorem updCtl_r : updCtl.r = .updCtl := (rfl)
@[simp] theorem secStat_r : secStat.r = .secStat := (rfl)

@[simp] theorem State.setReg_bounded (s : State) {k : RegKey} (v : Nat) (hk : k.r ≠ .cmLayout) : (s.setReg k v).Bounded bd ↔ s.Bounded bd := by
  simp [State.setReg, hk]

@[simp] theorem State.setRegBits_bounded (s : State) {k : RegKey} (hi lo v : Nat) (hk : k.r ≠ .cmLayout) :
    (s.setRegBits k hi lo v).Bounded bd ↔ s.Bounded bd := by
  simp [State.setRegBits, hk]

@[simp] theorem State.raise_bounded (s : State) {k : RegKey} (b : Nat) (hk : k.r ≠ .cmLayout) : (s.raise k b).Bounded bd ↔ s.Bounded bd := by
  simp [State.raise, hk]

@[simp] theorem State.bumpReg_bounded (s : State) {k : RegKey} (hi lo n : Nat) (hk : k.r ≠ .cmLayout) :
    (s.bumpReg k hi lo n).Bounded bd ↔ s.Bounded bd := by
  simp [State.bumpReg, hk]

/-! Of Sys2Proof/Machine/ParcelRegs.lean. -/

theorem State.Bounded.core {s : State} (h : s.Bounded bd) (c : CoreId) : (s.core c).count bd ≤ bd.cap := h.1 c

theorem State.setCore_bounded {s : State} {c : CoreId} {v : Core} (h : s.Bounded bd) (hv : v.count bd ≤ bd.cap) : (s.setCore c v).Bounded bd :=
  Bound.holds_putCore h hv

/-- A change of a core that counts no more than the core did. -/
theorem State.modCore_bounded {s : State} {c : CoreId} {f : Core → Core} (h : s.Bounded bd) (hf : (f (s.core c)).count bd ≤ (s.core c).count bd) :
    (s.modCore c f).Bounded bd :=
  State.setCore_bounded h (Nat.le_trans hf (h.core c))

/-- A change of a core that leaves alone what is counted. -/
@[simp] theorem State.modCore_bounded_iff (s : State) (c : CoreId) {f : Core → Core} (hf : ∀ k, (f k).count bd = k.count bd) :
    (s.modCore c f).Bounded bd ↔ s.Bounded bd := by
  refine ⟨fun h => ⟨fun c' => ?_, h.2⟩, fun h => State.modCore_bounded h (Nat.le_of_eq (hf _))⟩
  have hc := h.core c'
  rw [State.core_modCore] at hc
  split at hc
  · subst c'; exact hf (s.core c) ▸ hc
  · exact hc

theorem State.Bounded.tiles {s : State} (h : s.Bounded bd) {p : ParcelId} {n : Nat} (hn : bd.spare p = some n) :
    (s.parcel p).tiles.length + n ≤ s.tileCap p.tract := h.2 p n hn

theorem State.setParcel_bounded {s : State} {p : ParcelId} {v : Parcel} (h : s.Bounded bd)
    (hv : ∀ n, bd.spare p = some n → v.tiles.length + n ≤ s.tileCap p.tract) : (s.setParcel p v).Bounded bd :=
  Bound.holds_putParcel h hv

/-- A change of a parcel whose list does not grow. -/
theorem State.modParcel_bounded {s : State} {p : ParcelId} {f : Parcel → Parcel} (h : s.Bounded bd)
    (hf : (f (s.parcel p)).tiles.length ≤ (s.parcel p).tiles.length) : (s.modParcel p f).Bounded bd :=
  State.setParcel_bounded h (fun n hn => Nat.le_trans (Nat.add_le_add_right hf n) (h.tiles hn))

/-- A change of a parcel that keeps the length of its list. -/
@[simp] theorem State.modParcel_bounded_iff (s : State) (p : ParcelId) {f : Parcel → Parcel} (hf : ∀ v, (f v).tiles.length = v.tiles.length) :
    (s.modParcel p f).Bounded bd ↔ s.Bounded bd := by
  refine ⟨fun h => ⟨h.1, fun p' n hn => ?_⟩, fun h => State.modParcel_bounded h (Nat.le_of_eq (hf _))⟩
  have hp : ((s.modParcel p f).parcel p').tiles.length + n ≤ s.tileCap p'.tract := h.2 p' n hn
  rw [State.parcel_modParcel] at hp
  split at hp
  · subst p'; exact hf (s.parcel p) ▸ hp
  · exact hp

@[simp] theorem State.setFab_bounded (s : State) (t : Tract) (v : TractFab) : (s.setFab t v).Bounded bd ↔ s.Bounded bd := by
  simp [State.setFab]

@[simp] theorem State.modFab_bounded (s : State) (t : Tract) (f : TractFab → TractFab) : (s.modFab t f).Bounded bd ↔ s.Bounded bd := by
  simp [State.modFab]

@[simp] theorem State.modHealth_bounded (s : State) (p : ParcelId) (f : ParcelHealth → ParcelHealth) :
    (s.modHealth p f).Bounded bd ↔ s.Bounded bd := by
  simp [State.modHealth]

@[simp] theorem State.modTpwr_bounded (s : State) (t : Tract) (f : TractPower → TractPower) : (s.modTpwr t f).Bounded bd ↔ s.Bounded bd := by
  simp [State.modTpwr]

/-! Of Sys2Proof/Machine/Clock.lean. -/

@[simp] theorem State.tick_bounded (s : State) : (s.tick).Bounded bd ↔ s.Bounded bd := by
  simp [State.tick]

/-! Of Sys2Proof/Machine/Ops.lean. -/

@[simp] theorem State.takeFree_bounded (s : State) : (s.takeFree).Bounded bd ↔ s.Bounded bd := by
  simp [State.takeFree]

@[simp] theorem State.modLink_bounded (s : State) (p : Port) (f : LinkPort → LinkPort) : (s.modLink p f).Bounded bd ↔ s.Bounded bd := by
  simp [State.modLink]

@[simp] theorem State.sendFrom_bounded (s : State) (via : Option Port) (m : OutMsg) : (s.sendFrom via m).Bounded bd ↔ s.Bounded bd := by
  unfold State.sendFrom
  extract_lets s1
  have hs1 : s1.Bounded bd ↔ s.Bounded bd := by simp [s1]
  split <;> simp [hs1]

@[simp] theorem State.send_bounded (s : State) (m : OutMsg) : (s.send m).Bounded bd ↔ s.Bounded bd := by
  simp [State.send]

@[simp] theorem State.giveUnits_bounded (s : State) (p : Port) (vc n : Nat) : (s.giveUnits p vc n).Bounded bd ↔ s.Bounded bd := by
  simp [State.giveUnits]

@[simp] theorem State.leaveBuffers_bounded (s : State) (vc : Nat) (ms : List TxMsg) : (s.leaveBuffers vc ms).Bounded bd ↔ s.Bounded bd := by
  unfold State.leaveBuffers
  refine State.foldl_bounded_iff (fun s1 x => ?_) _ _
  split <;> simp

@[simp] theorem State.countLost_bounded (s : State) : (s.countLost).Bounded bd ↔ s.Bounded bd := by
  simp [State.countLost]

@[simp] theorem State.emitCd_bounded (s : State) (r : ErrRec) : (s.emitCd r).Bounded bd ↔ s.Bounded bd := by
  simp [State.emitCd]

@[simp] theorem State.emitTract_bounded (s : State) (t : Tract) (r : ErrRec) : (s.emitTract t r).Bounded bd ↔ s.Bounded bd := by
  simp [State.emitTract]

@[simp] theorem State.noteAbort_bounded (s : State) (r : ErrRec) : (s.noteAbort r).Bounded bd ↔ s.Bounded bd := by
  simp [State.noteAbort]

@[simp] theorem State.queueRec_bounded (s : State) (r : ErrRec) : (s.queueRec r).Bounded bd ↔ s.Bounded bd := by
  unfold State.queueRec
  split <;> simp

@[simp] theorem State.restoreFail_bounded (s : State) (cause : Nat) (more : List Nat) : (s.restoreFail cause more).Bounded bd ↔ s.Bounded bd := by
  simp [State.restoreFail]

@[simp] theorem State.emit_bounded (s : State) (r : ErrRec) : (s.emit r).Bounded bd ↔ s.Bounded bd := by
  simp [State.emit]

@[simp] theorem State.checkUnit_bounded (s : State) (t : Tract) (u : Checked) : (s.checkUnit t u).Bounded bd ↔ s.Bounded bd := by
  simp [State.checkUnit]

@[simp] theorem State.retire_bounded (s : State) (p : ParcelId) : (s.retire p).Bounded bd ↔ s.Bounded bd := by
  simp [State.retire]

@[simp] theorem State.suspect_bounded (s : State) (p : ParcelId) : (s.suspect p).Bounded bd ↔ s.Bounded bd := by
  simp [State.suspect]

@[simp] theorem State.transient_bounded (s : State) (p : ParcelId) : (s.transient p).Bounded bd ↔ s.Bounded bd := by
  simp [State.transient]

@[simp] theorem State.dropLine_bounded (s : State) (t : Tract) (l : Nat × Nat) : (s.dropLine t l).Bounded bd ↔ s.Bounded bd := by
  simp [State.dropLine]

@[simp] theorem State.countLsce_bounded (s : State) (p : ParcelId) : (s.countLsce p).Bounded bd ↔ s.Bounded bd := by
  simp [State.countLsce]

@[simp] theorem State.dramUe_bounded (s : State) (p : ParcelId) (u : Nat) : (s.dramUe p u).Bounded bd ↔ s.Bounded bd := by
  unfold State.dramUe
  dsimp only
  cases s.replicaLine u with
  | none => simp
  | some l => simp

@[simp] theorem State.touchUnit_bounded (s : State) (u : Nat) : (s.touchUnit u).Bounded bd ↔ s.Bounded bd := by
  unfold State.touchUnit
  split <;> simp

@[simp] theorem State.touch_bounded (s : State) (a n : Nat) : (s.touch a n).Bounded bd ↔ s.Bounded bd := by
  unfold State.touch
  rw [State.takeFree_bounded]
  exact State.foldl_bounded_iff (fun s u => s.touchUnit_bounded u) _ s

@[simp] theorem State.rmwRecord_bounded (s : State) (a : Nat) : (s.rmwRecord a).Bounded bd ↔ s.Bounded bd := by
  unfold State.rmwRecord
  split
  · exact Iff.rfl
  · split <;> simp

@[simp] theorem State.touchPart_bounded (s : State) (a n : Nat) : (s.touchPart a n).Bounded bd ↔ s.Bounded bd := by
  unfold State.touchPart
  split <;> simp

@[simp] theorem State.storePiece_bounded (s : State) (q : Nat × List Byte) : (s.storePiece q).Bounded bd ↔ s.Bounded bd := by
  simp [State.storePiece]

@[simp] theorem State.store_bounded (s : State) (a : Nat) (bs : List Byte) : (s.store a bs).Bounded bd ↔ s.Bounded bd :=
  State.foldl_bounded_iff (fun s q => s.storePiece_bounded q) _ s

@[simp] theorem State.storePoison_bounded (s : State) (a n : Nat) : (s.storePoison a n).Bounded bd ↔ s.Bounded bd := by
  simp [State.storePoison]

@[simp] theorem State.storeMaybe_bounded (s : State) (a : Nat) (bs : List Byte) (bad : Bool) :
    (s.storeMaybe a bs bad).Bounded bd ↔ s.Bounded bd := by
  unfold State.storeMaybe
  split <;> simp

@[simp] theorem State.badValue_bounded (s : State) (k : RegKey) (value size : Nat) : (s.badValue k value size).Bounded bd ↔ s.Bounded bd := by
  simp [State.badValue]

/-- A write to any register but CM_LAYOUT. -/
@[simp] theorem State.regWrite_bounded (s : State) {k : RegKey} (v size : Nat) (check : Nat → Bool) (hk : k.r ≠ .cmLayout) :
    (s.regWrite k v size check).Bounded bd ↔ s.Bounded bd := by
  simp [State.regWrite, hk]

@[simp] theorem State.hostWin_bounded (s : State) (bar off : Nat) (write : Bool) (size : Nat) (bad : Bool) :
    (s.hostWin bar off write size bad).Bounded bd ↔ s.Bounded bd := by
  simp [State.hostWin]

theorem State.atReg_bounded {s : State} {k : RegKey} {size : Nat} {act : State → State} (h : s.Bounded bd)
    (hact : ∀ t, t.Bounded bd → (act t).Bounded bd) :
    (s.atReg k size act).Bounded bd := by
  simp [State.atReg, h, hact]

/-! Of Sys2Proof/Machine/CoreOps.lean. -/

@[simp] theorem State.retryHeld_bounded (s : State) (c : CoreId) : (s.retryHeld c).Bounded bd ↔ s.Bounded bd := by
  unfold State.retryHeld
  extract_lets p s1
  have hs1 : s1.Bounded bd ↔ s.Bounded bd := by simp [s1]
  split
  · exact Iff.rfl
  · split <;> simp [hs1]

@[simp] theorem State.stopOn_bounded (s : State) (c : CoreId) (pc : Nat) (i : ExcInfo) : (s.stopOn c pc i).Bounded bd ↔ s.Bounded bd := by
  simp [State.stopOn]

@[simp] theorem State.gangStop_bounded (s : State) (c : CoreId) (f : GangFault) : (s.gangStop c f).Bounded bd ↔ s.Bounded bd := by
  simp [State.gangStop]

theorem Core.count_breakArray (k : Core) (f : GangFault) : (k.breakArray f).count bd ≤ k.count bd := by
  unfold Core.breakArray
  extract_lets k1
  have hk1 : k1.count bd = k.count bd := Core.foldl_count (fun k e => by split <;> simp) _ k
  rw [← hk1]
  exact Bound.size_le (Nat.zero_le _) (Nat.le_refl _) (Nat.le_refl _)

theorem State.breakMembers_bounded {s : State} {ms : List CoreId} {f : GangFault} (h : s.Bounded bd) : (s.breakMembers ms f).Bounded bd := by
  unfold State.breakMembers
  refine State.foldl_bounded (fun s1 m hs => ?_) (State.foldl_bounded (fun s1 m hs => ?_) h)
  · split <;> simp [hs]
  · exact State.modCore_bounded hs (Core.count_breakArray _ f)

@[simp] theorem State.breakGang_bounded {s : State} {c : CoreId} {f : GangFault} (h : s.Bounded bd) : (s.breakGang c f).Bounded bd := by
  unfold State.breakGang
  split <;> simp [h, State.breakMembers_bounded]

@[simp] theorem State.exception_bounded {s : State} {c : CoreId} {pc : Nat} {i : ExcInfo} (h : s.Bounded bd) : (s.exception c pc i).Bounded bd := by
  simp [State.exception, h]

@[simp] theorem State.raiseAt_bounded {s : State} {c : CoreId} {i : ExcInfo} (h : s.Bounded bd) : (s.raiseAt c i).Bounded bd := by
  simp [State.raiseAt, h]

@[simp] theorem State.deferred_bounded {s : State} {c : CoreId} {pc : Nat} {i : ExcInfo} (h : s.Bounded bd) : (s.deferred c pc i).Bounded bd := by
  simp [State.deferred, h]

theorem State.orGangFault_bounded {s : State} {c : CoreId} {act : State → State} (h : s.Bounded bd) (hact : ∀ t, t.Bounded bd → (act t).Bounded bd) :
    (s.orGangFault c act).Bounded bd := by
  unfold State.orGangFault
  split <;> simp [h, hact]

@[simp] theorem State.noteFetch_bounded (s : State) (i : Issue) (n : Nat) : (s.noteFetch i n).Bounded bd ↔ s.Bounded bd := by
  simp [State.noteFetch]

theorem State.issue_bounded {s : State} {i : Issue} {n : Nat} {bad : Bool} {reads : List CReg} {act : State → State} (h : s.Bounded bd)
    (hact : ∀ t, t.Bounded bd → (act t).Bounded bd) :
    (s.issue i n bad reads act).Bounded bd := by
  unfold State.issue
  extract_lets k s1
  have hs1 : s1.Bounded bd := by
    unfold s1
    refine State.foldl_bounded (fun s2 x hs => ?_) ?_
    · simp [hs]
    · exact h
  split <;> simp [h, hact, hs1]

theorem State.asSpelled_bounded {s : State} {i : Issue} {ins : Instr} {act : Result} (h : s.Bounded bd) (hact : act.Bounded bd) :
    Result.Bounded bd (s.asSpelled i ins act) := by
  unfold State.asSpelled
  extract_lets k pc w
  split
  · exact hact
  · split
    · rw [Result.bounded_next]
      exact State.issue_bounded h (fun _ hs => hs)
    · exact (Result.bounded_next s).2 h

@[simp] theorem State.issueRegs_bounded {s : State} {i : Issue} {n : Nat} {bad : Bool} {reads : List CReg} {f : Core → Core} (h : s.Bounded bd)
    (hf : ∀ k, (f k).count bd = k.count bd) : (s.issueRegs i n bad reads f).Bounded bd := by
  unfold State.issueRegs
  refine State.issue_bounded h (fun s1 hs => ?_)
  simp [hs, hf]

@[simp] theorem State.stallAt_bounded (s : State) (c : CoreId) (w : Wait) : (s.stallAt c w).Bounded bd ↔ s.Bounded bd := by
  simp [State.stallAt]

/-! Of Sys2Proof/Machine/Marks.lean. -/

@[simp] theorem State.markParity_bounded (s : State) (p : ParcelId) (n : BitVec 10) : (s.markParity p n).Bounded bd ↔ s.Bounded bd := by
  simp [State.markParity]

@[simp] theorem State.freeze_bounded (s : State) (p : ParcelId) (n : BitVec 10) : (s.freeze p n).Bounded bd ↔ s.Bounded bd := by
  simp [State.freeze]

@[simp] theorem State.putMark_bounded (s : State) (p : ParcelId) (n : BitVec 10) (w : Word) : (s.putMark p n w).Bounded bd ↔ s.Bounded bd := by
  simp [State.putMark]

@[simp] theorem State.sendResponseFrom_bounded (s : State) (via : Option Port) (p : Port) (m : MemMsg) :
    (s.sendResponseFrom via p m).Bounded bd ↔ s.Bounded bd := by
  unfold State.sendResponseFrom
  split <;> simp

@[simp] theorem State.sendResponse_bounded (s : State) (p : Port) (m : MemMsg) : (s.sendResponse p m).Bounded bd ↔ s.Bounded bd := by
  simp [State.sendResponse]

@[simp] theorem State.answer_bounded (s : State) (src : RemoteSrc) (r : Response) : (s.answer src r).Bounded bd ↔ s.Bounded bd := by
  unfold State.answer
  split <;> simp

@[simp] theorem Core.count_sleepReturn (k : Core) (dst : BitVec 5) (held : Word) : (k.sleepReturn dst held).count bd = k.count bd := by
  simp [Core.sleepReturn]

@[simp] theorem State.sleepCheck_bounded (s : State) (c : CoreId) : (s.sleepCheck c).Bounded bd ↔ s.Bounded bd := by
  unfold State.sleepCheck
  split <;> simp

@[simp] theorem State.noteLand_bounded (s : State) (p : ParcelId) : (s.noteLand p).Bounded bd ↔ s.Bounded bd := by
  unfold State.noteLand
  refine State.foldl_bounded_iff (fun s1 x => ?_) _ _
  simp

@[simp] theorem State.reclaim_bounded (s : State) (t : Tract) : (s.reclaim t).Bounded bd ↔ s.Bounded bd := by
  simp [State.reclaim]

@[simp] theorem Core.count_markRelease (k : Core) (n : BitVec 10) (w : Word) (barrier : Bool) : (k.markRelease n w barrier).count bd = k.count bd := by
  unfold Core.markRelease
  split <;> simp

@[simp] theorem State.releaseWaiters_bounded (s : State) (p : ParcelId) (n : BitVec 10) : (s.releaseWaiters p n).Bounded bd ↔ s.Bounded bd := by
  unfold State.releaseWaiters
  extract_lets w bar s1 out s2 s3
  have hs1 : s1.Bounded bd ↔ s.Bounded bd := by
    unfold s1
    refine State.foldl_bounded_iff (fun s4 x => ?_) _ _
    dsimp only
    split <;> simp
  have hs2 : s2.Bounded bd ↔ s.Bounded bd := by simp [s2, hs1]
  have hs3 : s3.Bounded bd ↔ s.Bounded bd := by
    unfold s3
    refine (State.foldl_bounded_iff (fun s4 x => ?_) _ _).trans ?_
    · simp
    · exact hs2
  simp [hs3]

@[simp] theorem State.markUpdate_bounded {s : State} {p : ParcelId} {n : BitVec 10} {f : Word → Word} (h : s.Bounded bd) :
    (s.markUpdate p n f).Bounded bd := by
  simp [State.markUpdate, h]

@[simp] theorem State.typeError_bounded (s : State) (p : ParcelId) : (s.typeError p).Bounded bd ↔ s.Bounded bd := by
  simp [State.typeError]

@[simp] theorem State.markAdd_bounded {s : State} {p : ParcelId} {n : BitVec 10} {v : Word} (h : s.Bounded bd) : (s.markAdd p n v).Bounded bd := by
  simp [State.markAdd, h]

@[simp] theorem State.barRelease_bounded {s : State} {p : ParcelId} {n : BitVec 10} {parts fuel : Nat} (h : s.Bounded bd) :
    (s.barRelease p n parts fuel).1.Bounded bd := by
  induction fuel generalizing s with
  | zero => exact h
  | succ fuel ih =>
    unfold State.barRelease
    extract_lets w s1
    split
    · exact ih (by simp [s1, h])
    · exact h

@[simp] theorem State.arrivalCounted_bounded (s : State) (p : ParcelId) (h : HeldArrival) : (s.arrivalCounted p h).Bounded bd ↔ s.Bounded bd := by
  unfold State.arrivalCounted
  extract_lets w
  split
  · refine State.modCore_bounded_iff s _ (fun k => ?_)
    split
    · simp
    · rfl
  · simp

@[simp] theorem State.arrivalRefused_bounded {s : State} {p : ParcelId} {h : HeldArrival} (hs : s.Bounded bd) :
    (s.arrivalRefused p h).Bounded bd := by
  unfold State.arrivalRefused
  split <;> simp [hs]

@[simp] theorem State.barSettle_bounded {s : State} {p : ParcelId} {n : BitVec 10} {parts fuel : Nat} (h : s.Bounded bd) :
    (s.barSettle p n parts fuel).Bounded bd := by
  induction fuel generalizing s with
  | zero => exact h
  | succ fuel ih =>
    unfold State.barSettle
    extract_lets s1
    have hs1 : s1.Bounded bd := State.barRelease_bounded h
    split
    · exact hs1
    · split
      · exact ih (by simp [hs1])
      · exact ih (by simp [hs1])
      · exact hs1

@[simp] theorem State.arrive_bounded {s : State} {p : ParcelId} {h : HeldArrival} (hs : s.Bounded bd) : (s.arrive p h).Bounded bd := by
  unfold State.arrive
  extract_lets s1
  have hs1 : s1.Bounded bd := by simp [s1, hs]
  split
  · simp [hs]
  · split
    · simp [hs]
    · split
      · simp [hs]
      · split
        · exact (State.modCore_bounded_iff s1 _ (fun k => by split <;> simp)).2 hs1
        · exact hs1
      · simp [hs]

@[simp] theorem State.mbarAct_bounded {s : State} {c : CoreId} {n : BitVec 10} {opd : Word} {nd : Needs} (h : s.Bounded bd) :
    (s.mbarAct c n opd nd).Bounded bd := by
  simp [State.mbarAct, h]

@[simp] theorem State.settleRels_bounded {s : State} {c : CoreId} {rs : List HeldRel} (h : s.Bounded bd) : (s.settleRels c rs).Bounded bd := by
  induction rs generalizing s with
  | nil => exact h
  | cons r rs ih => exact ih (by simp [h])

@[simp] theorem Core.count_fenceDone (k : Core) (mask : BitVec 8) : (k.fenceDone mask).count bd = k.count bd := by
  simp [Core.fenceDone]

@[simp] theorem State.settle_bounded {s : State} {c : CoreId} (h : s.Bounded bd) : (s.settle c).Bounded bd := by
  unfold State.settle
  extract_lets s1
  have hs1 : s1.Bounded bd := by simp [s1, h]
  split <;> simp [hs1]


end Sys2Proof.Machine
end

section
/-!
PROOFS (O2). The bounds of O2 in the request agent, the mark instructions, the array and the MEMORY class. An array queue and the outstanding
loads grow here, each under the guard of its own stall (R26, R78).
-/
namespace Sys2Proof.Machine

variable {bd : Bound}

/-! Of Sys2Proof/Machine/Agent.lean. -/

@[simp] theorem State.staleLines_bounded (s : State) (key n : Nat) : (s.staleLines key n).Bounded bd ↔ s.Bounded bd := by
  unfold State.staleLines
  split <;> simp

@[simp] theorem State.replicaRecord_bounded (s : State) (t : Tract) (key : Nat) : (s.replicaRecord t key).Bounded bd ↔ s.Bounded bd := by
  simp [State.replicaRecord]

@[simp] theorem State.haProtect_bounded (s : State) (t : Tract) (key : Nat) : (s.haProtect t key).Bounded bd ↔ s.Bounded bd := by
  simp [State.haProtect]

@[simp] theorem State.setEntry_bounded (s : State) (t : Tract) (gen : Nat) (f : RaEntry → RaEntry) :
    (s.setEntry t gen f).Bounded bd ↔ s.Bounded bd := by
  simp [State.setEntry]

@[simp] theorem State.sendRouted_bounded (s : State) (m : MemMsg) : (s.sendRouted m).Bounded bd ↔ s.Bounded bd := by
  unfold State.sendRouted
  split
  · split <;> simp
  · exact Iff.rfl

@[simp] theorem State.raSendData_bounded (s : State) (t : Tract) (e : RaEntry) : (s.raSendData t e).Bounded bd ↔ s.Bounded bd := by
  unfold State.raSendData
  split
  · extract_lets lines ways ports s1
    have hs1 : s1.Bounded bd ↔ s.Bounded bd := by simp [s1]
    split <;> simp [hs1]
  · dsimp only
    split
    · simp
    · split
      · simp
      · refine State.foldl_bounded_iff (fun s1 x => ?_) _ _
        simp

@[simp] theorem State.raSend_bounded (s : State) (t : Tract) (e : RaEntry) : (s.raSend t e).Bounded bd ↔ s.Bounded bd := by
  unfold State.raSend
  extract_lets done writes
  split
  · simp
  · split
    · simp [done]
    · split
      · simp [done]
      · split <;> simp [done]

@[simp] theorem State.raPump_bounded (s : State) (t : Tract) : (s.raPump t).Bounded bd ↔ s.Bounded bd := by
  unfold State.raPump
  refine State.foldl_bounded_iff (fun s1 x => ?_) _ _
  split <;> simp

@[simp] theorem State.raIssue_bounded (s : State) (t : Tract) (src : RaSrc) (cls addr : Nat) (op : FabOp) (posted : Bool) (nd : Needs) :
    (s.raIssue t src cls addr op posted nd).1.Bounded bd ↔ s.Bounded bd := by
  simp [State.raIssue]

@[simp] theorem State.raFinish_bounded (s : State) (t : Tract) (gen status : Nat) : (s.raFinish t gen status).Bounded bd ↔ s.Bounded bd := by
  simp [State.raFinish]

@[simp] theorem State.homeCount_bounded (s : State) (t : Tract) : (s.homeCount t).Bounded bd ↔ s.Bounded bd := by
  simp [State.homeCount]

@[simp] theorem State.homeTake_bounded (s : State) (t : Tract) (gen : Nat) : (s.homeTake t gen).Bounded bd ↔ s.Bounded bd := by
  unfold State.homeTake
  split
  · exact Iff.rfl
  · split <;> simp

@[simp] theorem State.giveCredit_bounded (s : State) (p : Port) (m : MemMsg) : (s.giveCredit p m).Bounded bd ↔ s.Bounded bd := by
  simp [State.giveCredit]

@[simp] theorem State.leaveInbox_bounded (s : State) (ms : List InReq) : (s.leaveInbox ms).Bounded bd ↔ s.Bounded bd := by
  unfold State.leaveInbox
  refine State.foldl_bounded_iff (fun s1 x => ?_) _ _
  simp

@[simp] theorem State.applyComb_bounded {s : State} {t : Tract} {c : CombEntry} (h : s.Bounded bd) : (s.applyComb t c).Bounded bd := by
  unfold State.applyComb
  extract_lets s1 key n s2 s3
  have hs1 : s1.Bounded bd := by simp [s1, h]
  have hs2 : s2.Bounded bd := by simp [s2, hs1]
  have hs3 : s3.Bounded bd := by simp [s3, hs2]
  refine State.foldl_bounded (fun s4 x hs => ?_) ?_
  · simp [hs]
  · exact hs3

@[simp] theorem State.closeLine_bounded {s : State} {t : Tract} {addr : Nat} {keep : CombEntry → Bool} (h : s.Bounded bd) :
    (s.closeLine t addr keep).Bounded bd := by
  unfold State.closeLine
  refine State.foldl_bounded (fun s1 x hs => ?_) ?_
  · simp [hs]
  · exact h

@[simp] theorem State.closeRun_bounded {s : State} {key n : Nat} (h : s.Bounded bd) : (s.closeRun key n).Bounded bd := by
  unfold State.closeRun
  split
  · extract_lets t
    refine State.foldl_bounded (fun s1 x hs => ?_) ?_
    · simp [hs]
    · exact h
  · exact h

@[simp] theorem State.touchVia_bounded {s : State} {t : Tract} {key n : Nat} (h : s.Bounded bd) : (s.touchVia t key n).Bounded bd := by
  unfold State.touchVia
  split
  · simp [h]
  · refine State.foldl_bounded (fun s1 x hs => ?_) ?_
    · split <;> simp [hs]
    · exact h

@[simp] theorem State.sendStores_bounded (s : State) (t : Tract) (e : RaEntry) (ga : Nat) (bs : List (Byte × Bool)) :
    (s.sendStores t e ga bs).Bounded bd ↔ s.Bounded bd := by
  unfold State.sendStores
  refine State.foldl_bounded_iff (fun s1 x => ?_) _ _
  simp

@[simp] theorem State.postedRecord_bounded (s : State) (t : Tract) (src : Option CoreId) (addr status : Nat) :
    (s.postedRecord t src addr status).Bounded bd ↔ s.Bounded bd := by
  simp [State.postedRecord]

@[simp] theorem State.coreIssue_bounded (s : State) (c : CoreId) (addr : Nat) (op : FabOp) (posted : Bool) :
    (s.coreIssue c addr op posted).1.Bounded bd ↔ s.Bounded bd := by
  simp [State.coreIssue]

/-! Of Sys2Proof/Machine/Operands.lean. -/

@[simp] theorem State.sign_bounded (s : State) (c : CoreId) (addr : Nat) (bs : List Byte) : (s.sign c addr bs).Bounded bd ↔ s.Bounded bd := by
  simp [State.sign]

/-! Of Sys2Proof/Machine/MarkIns.lean. -/

/-- A fold that carries a core first. -/
theorem Core.foldl_fst_count {α β : Type} {f : Core × β → α → Core × β} (hf : ∀ q x, (f q x).1.count bd = q.1.count bd) (l : List α)
    (q : Core × β) : (l.foldl f q).1.count bd = q.1.count bd := by
  induction l generalizing q with
  | nil => rfl
  | cons x l ih => exact (ih (f q x)).trans (hf q x)

/-- What the request agent takes leaves the cores alone. -/
theorem State.coreIssue_cores (s : State) (c : CoreId) (addr : Nat) (op : FabOp) (posted : Bool) :
    (s.coreIssue c addr op posted).1.cores = s.cores := by
  unfold State.coreIssue State.raIssue
  extract_lets cls f e fabric s1 s2 s3 s4
  have hs4 : s4.cores = s.cores := by
    unfold s4
    split
    · rfl
    · rw [State.checkUnit]
      split
      · exact State.emit_cores _ _
      · rfl
  dsimp only
  split
  · exact hs4
  · exact (raSend_goOn s4 _ _).2.1.trans hs4

@[simp] theorem State.remoteMark_bounded {s : State} {c : CoreId} {addr : Nat} {op : MarkOp} {posted : Bool} {next : Nat → Core → Core}
    (h : s.Bounded bd) (hnext : ∀ n k, (next n k).count bd = k.count bd) :
    (s.remoteMark c addr op posted next).Bounded bd := by
  unfold State.remoteMark
  split
  · simp [h]
  · refine State.orGangFault_bounded h (fun s1 hs => ?_)
    simp [hs, hnext]

@[simp] theorem State.markAddAct_bounded {s : State} {c : CoreId} {f : FmtK} {sub : Bool} (h : s.Bounded bd) :
    (s.markAddAct c f sub).Bounded bd := by
  unfold State.markAddAct
  extract_lets k v
  split
  · simp [h]
  · split
    · simp [h]
    · refine State.orGangFault_bounded h (fun s1 hs => ?_)
      simp [hs]

@[simp] theorem execMadd_bounded {i : Issue} {f : FmtK} {s : State} (h : s.Bounded bd) : Result.Bounded bd (execMadd i f s) := by
  unfold execMadd
  refine State.asSpelled_bounded h ?_
  rw [Result.bounded_next]
  refine State.issue_bounded h (fun s1 hs => ?_)
  simp [hs]

@[simp] theorem execMsub_bounded {i : Issue} {f : FmtK} {s : State} (h : s.Bounded bd) : Result.Bounded bd (execMsub i f s) := by
  unfold execMsub
  refine State.asSpelled_bounded h ?_
  rw [Result.bounded_next]
  refine State.issue_bounded h (fun s1 hs => ?_)
  simp [hs]

@[simp] theorem State.mwaitAct_bounded {s : State} {c : CoreId} {f : FmtK} (h : s.Bounded bd) : (s.mwaitAct c f).Bounded bd := by
  unfold State.mwaitAct
  extract_lets k p thr addr
  split <;> split <;> simp [h]

@[simp] theorem execMwait_bounded {i : Issue} {f : FmtK} {s : State} (h : s.Bounded bd) : Result.Bounded bd (execMwait i f s) := by
  unfold execMwait
  refine State.asSpelled_bounded h ?_
  rw [Result.bounded_next]
  refine State.issue_bounded h (fun s1 hs => ?_)
  simp [hs]

@[simp] theorem State.mbarIssue_bounded {s : State} {c : CoreId} {f : FmtK} (h : s.Bounded bd) : (s.mbarIssue c f).Bounded bd := by
  unfold State.mbarIssue
  extract_lets k opd tag addr op
  split
  · simp [h]
  · split
    · simp [h]
    · split
      · simp [h]
      · refine State.orGangFault_bounded h (fun s1 hs => ?_)
        simp [hs]

@[simp] theorem execMbar_bounded {i : Issue} {f : FmtK} {s : State} (h : s.Bounded bd) : Result.Bounded bd (execMbar i f s) := by
  unfold execMbar
  refine State.asSpelled_bounded h ?_
  rw [Result.bounded_next]
  refine State.issue_bounded h (fun s1 hs => ?_)
  simp [hs]

/-! Of Sys2Proof/Machine/ArrayView.lean. -/

@[simp] theorem State.arrFault_bounded {s : State} {c : CoreId} {f : ArrFault} (h : s.Bounded bd) : (s.arrFault c f).Bounded bd := by
  simp [State.arrFault, h]

/-- The array queue of a core that may take one more entry: k' is the core k with registers written. -/
theorem Core.size_enqueue {k k' : Core} {e : ArrEntry} (hk : k'.count bd = k.count bd) (hc : k.count bd ≤ bd.cap)
    (hq : k.arr.queue.length < 8) : bd.size (k'.arr.queue ++ [e]) k'.copies k'.loads ≤ bd.cap := by
  rcases bd with (_ | _ | _ | _) | ⟨_, _⟩
  case limit.queue =>
    have hlen : k'.arr.queue.length = k.arr.queue.length := hk
    show (k'.arr.queue ++ [e]).length ≤ 8
    rw [List.length_append, List.length_singleton, hlen]
    exact hq
  all_goals exact Nat.le_trans (Nat.le_of_eq hk) hc

/-- A full queue takes no instruction (R26, R78). -/
@[simp] theorem State.arrEnqueue_bounded {s : State} {c : CoreId} {op : ArrOp} {n : Nat} {v : ArrView} {f : Core → Core} (h : s.Bounded bd)
    (hf : ∀ k, (f k).count bd = k.count bd) : (s.arrEnqueue c op n v f).Bounded bd := by
  unfold State.arrEnqueue
  extract_lets k
  split
  · simp [h]
  · rename_i hfull
    refine State.setCore_bounded h ?_
    simp only [Core.count_retire, Core.count_mk]
    exact Core.size_enqueue (hf k) (h.core c) (Nat.lt_of_not_le hfull)

theorem State.orUnconfigured_bounded {s : State} {c : CoreId} {act : ArrCfg → ArrView → State → State} (h : s.Bounded bd)
    (hact : ∀ x y t, t.Bounded bd → (act x y t).Bounded bd) :
    (s.orUnconfigured c act).Bounded bd := by
  unfold State.orUnconfigured
  split
  · simp [h]
  · refine State.orGangFault_bounded h (fun s1 hs => ?_)
    simp [hact, hs]

theorem State.orAbsent_bounded {s : State} {c : CoreId} {g : ArrCfg} {i : Fin 4} {act : Nat → Nat → State → State} (h : s.Bounded bd)
    (hact : ∀ x y t, t.Bounded bd → (act x y t).Bounded bd) :
    (s.orAbsent c g i act).Bounded bd := by
  unfold State.orAbsent
  split <;> simp [h, hact]

@[simp] theorem execAmode_bounded {i : Issue} {f : FmtAmode} {s : State} (h : s.Bounded bd) : Result.Bounded bd (execAmode i f s) := by
  unfold execAmode
  extract_lets g old
  refine State.asSpelled_bounded h ?_
  rw [Result.bounded_next]
  refine State.issue_bounded h (fun s1 hs => ?_)
  refine State.orGangFault_bounded hs (fun s2 hs1 => ?_)
  simp [hs1]

@[simp] theorem State.awloadAct_bounded {s : State} {c : CoreId} {f : FmtArr} {ext : Word} (h : s.Bounded bd) :
    (s.awloadAct c f ext).Bounded bd := by
  unfold State.awloadAct
  extract_lets i turn q
  refine State.orUnconfigured_bounded h (fun x y s1 hs => ?_)
  extract_lets kpos cs mx old
  refine State.orAbsent_bounded hs (fun x1 y1 s2 hs1 => ?_)
  simp [hs1]

@[simp] theorem execAwload_bounded {i : Issue} {f : FmtArr} {ext : Word} {s : State} (h : s.Bounded bd) :
    Result.Bounded bd (execAwload i f ext s) := by
  unfold execAwload
  refine State.asSpelled_bounded h ?_
  rw [Result.bounded_next]
  refine State.issue_bounded h (fun s1 hs => ?_)
  simp [hs]

@[simp] theorem State.astreamAct_bounded {s : State} {c : CoreId} {f : FmtArr} (h : s.Bounded bd) : (s.astreamAct c f).Bounded bd := by
  unfold State.astreamAct
  extract_lets i
  refine State.orUnconfigured_bounded h (fun x y s1 hs => ?_)
  extract_lets mx
  refine State.orAbsent_bounded hs (fun x1 y1 s2 hs1 => ?_)
  extract_lets k w1 m sb turn reuse rs2
  split
  · simp [hs1]
  · split
    · simp [hs1]
    · split
      · simp [hs1]
      · split
        · simp [hs1]
        · split <;> simp [hs1]

@[simp] theorem execAstream_bounded {i : Issue} {f : FmtArr} {s : State} (h : s.Bounded bd) : Result.Bounded bd (execAstream i f s) := by
  unfold execAstream
  refine State.asSpelled_bounded h ?_
  rw [Result.bounded_next]
  refine State.issue_bounded h (fun s1 hs => ?_)
  simp [hs]

@[simp] theorem State.adrainAct_bounded {s : State} {c : CoreId} {f : FmtArr} (h : s.Bounded bd) : (s.adrainAct c f).Bounded bd := by
  unfold State.adrainAct
  extract_lets i
  refine State.orUnconfigured_bounded h (fun x y s1 hs => ?_)
  extract_lets bottom
  refine State.orAbsent_bounded hs (fun x1 y1 s2 hs1 => ?_)
  simp [hs1]

@[simp] theorem execAdrain_bounded {i : Issue} {f : FmtArr} {s : State} (h : s.Bounded bd) : Result.Bounded bd (execAdrain i f s) := by
  unfold execAdrain
  refine State.asSpelled_bounded h ?_
  rw [Result.bounded_next]
  refine State.issue_bounded h (fun s1 hs => ?_)
  simp [hs]

@[simp] theorem State.aclearAct_bounded {s : State} {c : CoreId} {f : FmtAclear} (h : s.Bounded bd) : (s.aclearAct c f).Bounded bd := by
  unfold State.aclearAct
  extract_lets cnt
  refine State.orUnconfigured_bounded h (fun x y s1 hs => ?_)
  refine State.orAbsent_bounded hs (fun x1 y1 s2 hs1 => ?_)
  simp [hs1]

@[simp] theorem execAclear_bounded {i : Issue} {f : FmtAclear} {s : State} (h : s.Bounded bd) : Result.Bounded bd (execAclear i f s) := by
  unfold execAclear
  refine State.asSpelled_bounded h ?_
  rw [Result.bounded_next]
  refine State.issue_bounded h (fun s1 hs => ?_)
  simp [hs]

@[simp] theorem execAstat_bounded {i : Issue} {f : FmtAstat} {s : State} (h : s.Bounded bd) : Result.Bounded bd (execAstat i f s) := by
  unfold execAstat
  refine State.asSpelled_bounded h ?_
  rw [Result.bounded_next]
  refine State.issue_bounded h (fun s1 hs => ?_)
  refine State.orUnconfigured_bounded hs (fun x y s2 hs1 => ?_)
  simp [hs1]

/-! Of Sys2Proof/Machine/ArrayRun.lean. -/

@[simp] theorem State.arrFlags_bounded (s : State) (c : CoreId) (i : Fin 4) (fl : FlagSet) : (s.arrFlags c i fl).Bounded bd ↔ s.Bounded bd := by
  simp [State.arrFlags]

@[simp] theorem State.arrPoison_bounded (s : State) (c : CoreId) (i : Fin 4) (mask : Nat) : (s.arrPoison c i mask).Bounded bd ↔ s.Bounded bd := by
  simp [State.arrPoison]

@[simp] theorem State.touchRegions_bounded {s : State} {c : CoreId} {rs : List Region} (h : s.Bounded bd) : (s.touchRegions c rs).Bounded bd := by
  unfold State.touchRegions
  refine State.foldl_bounded (fun s1 x hs => ?_) ?_
  · simp [hs]
  · exact h

@[simp] theorem Core.count_setSlot (k : Core) (col n : Nat) (v : Slot) : (k.setSlot col n v).count bd = k.count bd := by
  simp [Core.setSlot]

@[simp] theorem Core.count_emptySlot (k : Core) (col n : Nat) : (k.emptySlot col n).count bd = k.count bd := by
  simp [Core.emptySlot]

theorem streamColumn_count (g : ArrCfg) (i sb col kpos : Nat) (rows : List (List Elem)) (ws : List Elem) (k : Core) :
    (streamColumn g i sb col kpos rows ws k).1.count bd = k.count bd :=
  Core.foldl_fst_count (fun q m => by simp) _ (k, _)

theorem foldSlots_count (g : ArrCfg) (i lo w sb n : Nat) (k : Core) : (foldSlots g i lo w sb n k).1.count bd = k.count bd := by
  refine Core.foldl_fst_count (fun q _ => Core.foldl_fst_count (fun q _ => ?_) _ q) _ (k, _)
  dsimp only
  split <;> simp

/-- The slots of a drain or a clear, emptied. -/
theorem Core.count_emptySlots (k : Core) (cols slots : List Nat) (lo sb : Nat) :
    (cols.foldl (fun k x => slots.foldl (fun k m => k.emptySlot (lo + x) (sb + m)) k) k).count bd = k.count bd :=
  Core.foldl_count (fun k _ => Core.foldl_count (fun k _ => k.count_emptySlot _ _) slots k) cols k

@[simp] theorem Core.count_clearSlots (k : Core) (g : ArrCfg) (i : Fin 4) (sb cnt : Nat) (krst : Bool) :
    (k.clearSlots g i sb cnt krst).count bd = k.count bd := by
  simp [Core.clearSlots, Core.count_emptySlots]

@[simp] theorem Core.count_statResult (k : Core) (g : BitVec 5) (clr : Bool) : (k.statResult g clr).count bd = k.count bd := by
  simp [Core.statResult]

@[simp] theorem Core.count_configure (k : Core) (g : ArrCfg) : (k.configure g).count bd = k.count bd := by
  simp [Core.configure]

theorem Core.count_popArr (k : Core) : k.popArr.count bd ≤ k.count bd := by
  refine Bound.size_le ?_ (Nat.le_refl _) (Nat.le_refl _)
  show (k.arr.queue.drop 1).length ≤ k.arr.queue.length
  simp

/-- A core set to one that counts the same. -/
theorem State.setCore_bounded_of_eq {s : State} {c : CoreId} {v : Core} (h : s.Bounded bd) (hv : v.count bd = (s.core c).count bd) :
    (s.setCore c v).Bounded bd :=
  State.setCore_bounded h (hv ▸ h.core c)

@[simp] theorem State.runAwload_bounded {s : State} {c : CoreId} {g : ArrCfg} {i : Fin 4} {src : Source} {q : WSeqShape} (h : s.Bounded bd) :
    (s.runAwload c g i src q).Bounded bd := by
  simp [State.runAwload, h]

@[simp] theorem State.runAstream_bounded {s : State} {ms : List CoreId} {g : ArrCfg} {i : Fin 4} {m sb : Nat} {reuse : Bool} {nch : Nat}
    (h : s.Bounded bd) :
    (s.runAstream ms g i m sb reuse nch).Bounded bd := by
  unfold State.runAstream
  extract_lets gz west bottom use kc refs weights refs1 first rows s1
  have hs1 : s1.Bounded bd := by
    unfold s1
    refine State.foldl_bounded (fun s2 x hs => ?_) ?_
    · split <;> simp [hs]
    · exact h
  split
  · extract_lets s2
    have hs2 : s2.Bounded bd := by
      unfold s2
      refine State.foldl_bounded (fun s3 x hs => ?_) hs1
      split
      · exact hs
      · simp only [State.arrPoison_bounded, State.arrFlags_bounded]
        refine State.setCore_bounded_of_eq hs ?_
        refine Core.foldl_fst_count (fun q j => Core.foldl_fst_count (fun q n => ?_) _ q) _ _
        exact streamColumn_count ..
    refine State.foldl_bounded (fun s3 x hs => ?_) ?_
    · simp [hs]
    · exact hs2

@[simp] theorem State.writeDrainRow_bounded {s : State} {c : CoreId} {bits off : Nat} {row : DrainRow} (h : s.Bounded bd) :
    (s.writeDrainRow c bits off row).Bounded bd := by
  unfold State.writeDrainRow
  extract_lets v s1
  have hs1 : s1.Bounded bd := by simp [s1, h]
  refine State.foldl_bounded (fun s2 x hs => ?_) ?_
  · simp [hs]
  · exact hs1

@[simp] theorem State.runAdrain_bounded {s : State} {bottom : List CoreId} {g : ArrCfg} {i : Fin 4} (h : s.Bounded bd) :
    (s.runAdrain bottom g i).Bounded bd := by
  unfold State.runAdrain
  extract_lets opOf
  split
  · extract_lets s1 elems whole
    have hs1 : s1.Bounded bd := by
      unfold s1
      refine State.foldl_bounded (fun s2 x hs => ?_) h
      simp only [State.arrFlags_bounded]
      exact State.setCore_bounded_of_eq hs (foldSlots_count ..)
    refine State.foldl_bounded (fun s2 x hs => ?_) ?_
    · extract_lets own
      split
      · extract_lets s3
        have hs3 : s3.Bounded bd := by simp [s3, hs]
        split
        · extract_lets s4 s5 s6 s7
          have hs4 : s4.Bounded bd := by
            unfold s4
            refine State.foldl_bounded (fun s8 x1 hs2 => ?_) ?_
            · simp [hs2]
            · exact hs3
          have hs5 : s5.Bounded bd := by
            unfold s5
            refine State.foldl_bounded (fun s8 x1 hs2 => ?_) ?_
            · simp [hs2]
            · exact hs4
          have hs6 : s6.Bounded bd := by simp [s6, hs5]
          have hs7 : s7.Bounded bd := by simp [s7, hs6]
          simp [hs7, Core.count_emptySlots]
    · exact hs1

@[simp] theorem State.runArr_bounded {s : State} {ms : List CoreId} {g : ArrCfg} {op : ArrOp} (h : s.Bounded bd) :
    (s.runArr ms g op).Bounded bd := by
  unfold State.runArr
  split
  · dsimp only
    refine State.foldl_bounded (fun s1 x hs => ?_) ?_
    · split
      · split <;> simp [hs]
      · exact hs
    · exact h
  · dsimp only
    refine State.foldl_bounded (fun s1 x hs => ?_) ?_
    · split
      · split <;> simp [hs]
      · exact hs
    · exact h
  · simp [h]
  · simp [h]
  · dsimp only
    refine State.foldl_bounded (fun s1 x hs => ?_) ?_
    · split <;> simp [hs]
    · exact h
  · dsimp only
    refine State.foldl_bounded (fun s1 x hs => ?_) ?_
    · split
      · split <;> simp [hs]
      · exact hs
    · exact h

@[simp] theorem execArrayEntryComplete_bounded {c : CoreId} {s : State} (h : s.Bounded bd) : Result.Bounded bd (execArrayEntryComplete c s) := by
  unfold execArrayEntryComplete
  extract_lets formed
  rw [Result.bounded_next]
  split
  · exact h
  · split
    · exact h
    · extract_lets ms heads faults g s1 s2
      have hs1 : s1.Bounded bd := by simp [s1, h]
      have hs2 : s2.Bounded bd := by
        unfold s2
        exact State.foldl_bounded (fun s3 m hs => State.modCore_bounded hs (Core.count_popArr _)) hs1
      split
      · exact h
      · split
        · rw [State.raPump_bounded]
          refine State.foldl_bounded (fun s3 x hs => ?_) ?_
          · simp [hs]
          · exact h
        · split
          · rw [State.raPump_bounded]
            refine State.foldl_bounded (fun s3 x hs => ?_) ?_
            · simp [hs]
            · exact hs2
          · simp [h, State.breakMembers_bounded]

/-! Of Sys2Proof/Machine/Memory.lean. -/

@[simp] theorem Core.count_writeParts (k : Core) (parts : List LoadPart) (data : List Byte) : (k.writeParts parts data).count bd = k.count bd :=
  Core.foldl_count (fun k q => by split <;> simp) parts k

@[simp] theorem Core.count_supersedes (k : Core) (parts : List LoadPart) :
    (parts.foldl (fun k q => k.supersede q.reg) k).count bd = k.count bd :=
  Core.foldl_count (fun k q => k.count_supersede q.reg) parts k

/-- The loads of a core that may have one more outstanding: k' is the core k with earlier loads superseded. -/
theorem Core.size_addLoad {k k' : Core} {l : OutLoad} (hk : k'.count bd = k.count bd) (hc : k.count bd ≤ bd.cap)
    (hl : l.atom = true ∨ k.loadsOpen < 8) : bd.size k'.arr.queue k'.copies (k'.loads ++ [l]) ≤ bd.cap := by
  rcases bd with (_ | _ | _ | _) | ⟨_, _⟩
  case limit.loads =>
    have hopen : k'.loadsOpen = k.loadsOpen := hk
    have hcap : k.loadsOpen ≤ 8 := hc
    show ((k'.loads ++ [l]).filter (fun l => !l.atom)).length ≤ 8
    rw [List.filter_append, List.length_append]
    change k'.loadsOpen + _ ≤ 8
    rcases hl with hatom | hroom
    · simpa [hatom, hopen] using hcap
    · have hone : ([l].filter (fun l => !l.atom)).length ≤ 1 := List.length_filter_le _ [l]
      omega
  all_goals exact Nat.le_trans (Nat.le_of_eq hk) hc

/-- A load or an atomic becomes outstanding. -/
theorem State.addLoad_bounded {s : State} {c : CoreId} {parts : List LoadPart} {l : OutLoad} {n : Nat} (h : s.Bounded bd)
    (hl : l.atom = true ∨ (s.core c).loadsOpen < 8) :
    (s.modCore c (fun k =>
      let k := parts.foldl (fun k q => k.supersede q.reg) k
      Core.retire { k with loads := k.loads ++ [l] } n)).Bounded bd := by
  refine State.setCore_bounded h ?_
  simp only [Core.count_retire, Core.count_mk]
  exact Core.size_addLoad (Core.count_supersedes _ parts) (h.core c) hl

/-- A load outside the local store that does not stall has room among the core's loads (R26). -/
theorem State.loadsOpen_lt_of_loadStall {s : State} {c : CoreId} {space : BitVec 2} (hstall : s.loadStall c space = none) (hs : space ≠ 0) :
    (s.core c).loadsOpen < 8 := by
  unfold State.loadStall at hstall
  rw [if_neg hs] at hstall
  by_contra hfull
  simp [Nat.le_of_not_lt hfull] at hstall

@[simp] theorem State.loadAct_bounded {s : State} {c : CoreId} {space : BitVec 2} {off size n : Nat} {parts : List LoadPart} (h : s.Bounded bd) :
    (s.loadAct c space off size n parts).Bounded bd := by
  unfold State.loadAct
  extract_lets pc addr outstanding key data key1 r
  split
  · simp [h]
  · split
    · simp [h]
    · rename_i hstall
      split
      · simp [h]
      · rename_i hspace
        have hroom := State.loadsOpen_lt_of_loadStall hstall hspace
        split
        · refine State.addLoad_bounded (by simp [h]) (.inr ?_)
          have hcores := s.coreIssue_cores c off (.load size) false
          exact (congrArg (fun m => (AMap.get m c Core.reset).loadsOpen) hcores).trans_lt hroom
        · refine State.addLoad_bounded (by simp [h]) (.inr ?_)
          rw [State.core, State.touch_cores]
          exact hroom

theorem loadM_bounded {i : Issue} {f : FmtM} {size : Nat} {bad : Bool} {parts : List LoadPart} {s : State} (h : s.Bounded bd) :
    Result.Bounded bd (loadM i f size bad parts s) := by
  unfold loadM
  rw [Result.bounded_next]
  refine State.issue_bounded h (fun s1 hs => ?_)
  simp [hs]

theorem loadG_bounded {i : Issue} {f : FmtM} {size : Nat} {sext : Bool} {s : State} (h : s.Bounded bd) :
    Result.Bounded bd (loadG i f size sext s) := by
  unfold loadG
  exact loadM_bounded h

@[simp] theorem execLdb_bounded {i : Issue} {f : FmtM} {s : State} (h : s.Bounded bd) : Result.Bounded bd (execLdb i f s) :=
  State.asSpelled_bounded h (loadG_bounded h)

@[simp] theorem execLdbs_bounded {i : Issue} {f : FmtM} {s : State} (h : s.Bounded bd) : Result.Bounded bd (execLdbs i f s) :=
  State.asSpelled_bounded h (loadG_bounded h)

@[simp] theorem execLdh_bounded {i : Issue} {f : FmtM} {s : State} (h : s.Bounded bd) : Result.Bounded bd (execLdh i f s) :=
  State.asSpelled_bounded h (loadG_bounded h)

@[simp] theorem execLdhs_bounded {i : Issue} {f : FmtM} {s : State} (h : s.Bounded bd) : Result.Bounded bd (execLdhs i f s) :=
  State.asSpelled_bounded h (loadG_bounded h)

@[simp] theorem execLdw_bounded {i : Issue} {f : FmtM} {s : State} (h : s.Bounded bd) : Result.Bounded bd (execLdw i f s) :=
  State.asSpelled_bounded h (loadG_bounded h)

@[simp] theorem execLda_bounded {i : Issue} {f : FmtM} {s : State} (h : s.Bounded bd) : Result.Bounded bd (execLda i f s) :=
  State.asSpelled_bounded h (loadM_bounded h)

@[simp] theorem execLdq_bounded {i : Issue} {f : FmtM} {s : State} (h : s.Bounded bd) : Result.Bounded bd (execLdq i f s) :=
  State.asSpelled_bounded h (loadM_bounded h)

@[simp] theorem State.storeAct_bounded {s : State} {c : CoreId} {space : BitVec 2} {off n : Nat} {data : List Byte} (h : s.Bounded bd) :
    (s.storeAct c space off n data).Bounded bd := by
  unfold State.storeAct
  extract_lets s1 key s2
  have hs1 : s1.Bounded bd := by simp [s1, h]
  have hs2 : s2.Bounded bd := by simp [s2, hs1]
  split
  · simp [h]
  · split <;> simp [h, hs2]

theorem storeM_bounded {i : Issue} {f : FmtM} {size : Nat} {bad : Bool} {reads : List CReg} {data : Core → Nat} {s : State} (h : s.Bounded bd) :
    Result.Bounded bd (storeM i f size bad reads data s) := by
  unfold storeM
  rw [Result.bounded_next]
  refine State.issue_bounded h (fun s1 hs => ?_)
  simp [hs]

theorem storeG_bounded {i : Issue} {f : FmtM} {size : Nat} {s : State} (h : s.Bounded bd) : Result.Bounded bd (storeG i f size s) := by
  unfold storeG
  exact storeM_bounded h

@[simp] theorem execStb_bounded {i : Issue} {f : FmtM} {s : State} (h : s.Bounded bd) : Result.Bounded bd (execStb i f s) :=
  State.asSpelled_bounded h (storeG_bounded h)

@[simp] theorem execSth_bounded {i : Issue} {f : FmtM} {s : State} (h : s.Bounded bd) : Result.Bounded bd (execSth i f s) :=
  State.asSpelled_bounded h (storeG_bounded h)

@[simp] theorem execStw_bounded {i : Issue} {f : FmtM} {s : State} (h : s.Bounded bd) : Result.Bounded bd (execStw i f s) :=
  State.asSpelled_bounded h (storeG_bounded h)

@[simp] theorem execSta_bounded {i : Issue} {f : FmtM} {s : State} (h : s.Bounded bd) : Result.Bounded bd (execSta i f s) :=
  State.asSpelled_bounded h (storeM_bounded h)

@[simp] theorem execStq_bounded {i : Issue} {f : FmtM} {s : State} (h : s.Bounded bd) : Result.Bounded bd (execStq i f s) :=
  State.asSpelled_bounded h (storeM_bounded h)

@[simp] theorem State.atomAct_bounded {s : State} {c : CoreId} {f : FmtA} {op n opd cmp : Nat} (h : s.Bounded bd) :
    (s.atomAct c f op n opd cmp).Bounded bd := by
  unfold State.atomAct
  extract_lets off size posted pc addr back key old bad s1
  have hback (s' : State) (gen r) (hs : s'.Bounded bd) : (back s' gen r).Bounded bd := by
    unfold back
    split
    · simp [hs]
    · exact State.addLoad_bounded hs (.inl rfl)
  have hs1 : s1.Bounded bd := by simp [s1, h]
  split
  · simp [h]
  · split
    · simp [h]
    · split
      · exact hback _ _ _ (by simp [h])
      · split
        · exact hback _ _ _ (by simp [h])
        · exact hback _ _ _ (by simp [hs1])

theorem atomic_bounded {i : Issue} {f : FmtA} {op : Nat} {s : State} (h : s.Bounded bd) : Result.Bounded bd (atomic i f op s) := by
  unfold atomic
  rw [Result.bounded_next]
  refine State.issue_bounded h (fun s1 hs => ?_)
  simp [hs]

@[simp] theorem execAtomAdd_bounded {i : Issue} {f : FmtA} {s : State} (h : s.Bounded bd) : Result.Bounded bd (execAtomAdd i f s) :=
  State.asSpelled_bounded h (atomic_bounded h)

@[simp] theorem execAtomOr_bounded {i : Issue} {f : FmtA} {s : State} (h : s.Bounded bd) : Result.Bounded bd (execAtomOr i f s) :=
  State.asSpelled_bounded h (atomic_bounded h)

@[simp] theorem execAtomAnd_bounded {i : Issue} {f : FmtA} {s : State} (h : s.Bounded bd) : Result.Bounded bd (execAtomAnd i f s) :=
  State.asSpelled_bounded h (atomic_bounded h)

@[simp] theorem execAtomXor_bounded {i : Issue} {f : FmtA} {s : State} (h : s.Bounded bd) : Result.Bounded bd (execAtomXor i f s) :=
  State.asSpelled_bounded h (atomic_bounded h)

@[simp] theorem execAtomMaxu_bounded {i : Issue} {f : FmtA} {s : State} (h : s.Bounded bd) : Result.Bounded bd (execAtomMaxu i f s) :=
  State.asSpelled_bounded h (atomic_bounded h)

@[simp] theorem execAtomMinu_bounded {i : Issue} {f : FmtA} {s : State} (h : s.Bounded bd) : Result.Bounded bd (execAtomMinu i f s) :=
  State.asSpelled_bounded h (atomic_bounded h)

@[simp] theorem execAtomMax_bounded {i : Issue} {f : FmtA} {s : State} (h : s.Bounded bd) : Result.Bounded bd (execAtomMax i f s) :=
  State.asSpelled_bounded h (atomic_bounded h)

@[simp] theorem execAtomMin_bounded {i : Issue} {f : FmtA} {s : State} (h : s.Bounded bd) : Result.Bounded bd (execAtomMin i f s) :=
  State.asSpelled_bounded h (atomic_bounded h)

@[simp] theorem execAtomXchg_bounded {i : Issue} {f : FmtA} {s : State} (h : s.Bounded bd) : Result.Bounded bd (execAtomXchg i f s) :=
  State.asSpelled_bounded h (atomic_bounded h)

@[simp] theorem execCas_bounded {i : Issue} {f : FmtA} {ext : Word} {s : State} (h : s.Bounded bd) : Result.Bounded bd (execCas i f ext s) := by
  unfold execCas
  extract_lets rc
  refine State.asSpelled_bounded h ?_
  rw [Result.bounded_next]
  refine State.issue_bounded h (fun s1 hs => ?_)
  simp [hs]


end Sys2Proof.Machine
end

section
/-!
PROOFS (O2). The bounds of O2 in the tile lists, the CONTROL and COPY classes, the engines' queues and the Dispatcher. The copies grow here under
their stall (R26), and the tile lists in STEAL, in the push and in TLOAD: each looks at the free entries first and does other things before it
appends, which `Bound.room` carries over (R169 to R174, R184).
-/
namespace Sys2Proof.Machine

variable {bd : Bound} {lim : Limit}

/-! Of Sys2Proof/Machine/Tiles.lean. -/

@[simp] theorem State.wakeSleepers_bounded (s : State) (p : ParcelId) : (s.wakeSleepers p).Bounded bd ↔ s.Bounded bd := by
  unfold State.wakeSleepers
  refine State.foldl_bounded_iff (fun s1 x => ?_) _ _
  simp

/-- A parcel's list has room for n more entries. -/
theorem State.bounded_room_iff (s : State) (p : ParcelId) (n : Nat) :
    s.Bounded (.room p n) ↔ (s.parcel p).tiles.length + n ≤ s.tileCap p.tract := by
  refine ⟨fun h => h.tiles (if_pos rfl), fun h => ⟨fun c => Nat.le_refl 0, fun p' n' hn => ?_⟩⟩
  obtain ⟨rfl, rfl⟩ : p' = p ∧ n = n' := by simpa [Bound.spare] using hn
  exact h

/-- As many entries as the list unit counts free have room (R169). -/
theorem State.room_of_tileFree {s : State} {p : ParcelId} {n : Nat} (h : s.Bounded (.limit .tiles)) (hn : n ≤ s.tileFree p) :
    s.Bounded (.room p n) := by
  rw [State.bounded_room_iff]
  have hlen : (s.parcel p).tiles.length ≤ s.tileCap p.tract := h.tiles rfl
  unfold State.tileFree at hn
  split at hn
  · omega
  · omega

/-- Entries for which the list has room. -/
theorem State.tileAppend_bounded {s : State} {p : ParcelId} {es : List TileEntry} (h : s.Bounded (.limit lim))
    (hroom : lim = .tiles → s.Bounded (.room p es.length)) : (s.tileAppend p es).Bounded (.limit lim) := by
  rw [State.tileAppend, State.wakeSleepers_bounded]
  refine State.setParcel_bounded h (fun n hn => ?_)
  cases lim
  case tiles =>
    cases hn
    have hle := (State.bounded_room_iff ..).1 (hroom rfl)
    simpa using hle
  all_goals cases hn

/-- A list keeps its room while entries join another. -/
theorem State.tileAppend_room {s : State} {p q : ParcelId} {n : Nat} {es : List TileEntry} (h : s.Bounded (.room q n)) (hne : q ≠ p) :
    (s.tileAppend p es).Bounded (.room q n) := by
  rw [State.tileAppend, State.wakeSleepers_bounded]
  exact State.setParcel_bounded h (fun n hn => absurd (Option.isSome_iff_exists.2 ⟨n, hn⟩) (by simp [Bound.spare, Ne.symm hne]))

/-- Entries appended to several parcels' lists, each of which has room for its own. -/
theorem State.tileAppends_bounded {s : State} {ps : List ParcelId} {es : ParcelId → List TileEntry} (hps : ps.Nodup)
    (h : s.Bounded (.limit lim)) (hroom : lim = .tiles → ∀ p ∈ ps, s.Bounded (.room p (es p).length)) :
    (ps.foldl (fun s p => if (es p).isEmpty then s else s.tileAppend p (es p)) s).Bounded (.limit lim) := by
  induction ps generalizing s with
  | nil => exact h
  | cons p ps ih =>
    obtain ⟨hp, hps⟩ := List.nodup_cons.1 hps
    rw [List.foldl_cons]
    split
    · exact ih hps h (fun hl q hq => hroom hl q (List.mem_cons_of_mem p hq))
    · refine ih hps (State.tileAppend_bounded h (fun hl => hroom hl p List.mem_cons_self)) (fun hl q hq => ?_)
      exact State.tileAppend_room (hroom hl q (List.mem_cons_of_mem p hq)) (fun e => hp (e ▸ hq))

@[simp] theorem State.tileParity_bounded (s : State) (p : ParcelId) : (s.tileParity p).Bounded bd ↔ s.Bounded bd := by
  simp [State.tileParity]

@[simp] theorem State.tileParities_bounded (s : State) (p : ParcelId) (n : Nat) : (s.tileParities p n).Bounded bd ↔ s.Bounded bd := by
  induction n generalizing s with
  | zero => exact Iff.rfl
  | succ n ih => exact (ih _).trans (by simp)

@[simp] theorem State.setHeld_bounded (s : State) (c : CoreId) (h : Held) : (s.setHeld c h).Bounded bd ↔ s.Bounded bd := by
  simp [State.setHeld]

@[simp] theorem State.auditTake_bounded (s : State) (c : CoreId) (d : BitVec 128) : (s.auditTake c d).1.Bounded bd ↔ s.Bounded bd := by
  unfold State.auditTake
  extract_lets p id e
  split
  · exact Iff.rfl
  · split
    · simp
    · split <;> simp

@[simp] theorem State.tileReturn_bounded (s : State) (c : CoreId) (gd : BitVec 5) (pd : BitVec 3) (h : Held) :
    (s.tileReturn c gd pd h).Bounded bd ↔ s.Bounded bd := by
  unfold State.tileReturn
  extract_lets s1
  rw [State.modCore_bounded_iff s1 c (fun k => by simp [Core.foldl_count])]
  simp [s1]

@[simp] theorem State.tileNone_bounded (s : State) (c : CoreId) (pd : BitVec 3) : (s.tileNone c pd).Bounded bd ↔ s.Bounded bd := by
  simp [State.tileNone]

theorem State.takeRetry_bounded {s t : State} {c : CoreId} {h : Held} (e : s.takeRetry c = some (h, t)) : t.Bounded bd ↔ s.Bounded bd := by
  unfold State.takeRetry at e
  extract_lets p at e
  split at e
  · cases e; simp
  · split at e
    · cases e; simp
    · cases e

theorem takeHead_length (es : List TileEntry) (n : Nat) : (takeHead es n).2.1.length ≤ es.length := by
  induction es generalizing n with
  | nil => exact Nat.le_refl 0
  | cons e es ih =>
    unfold takeHead
    split
    · exact Nat.le_succ_of_le (ih (n + 1))
    · exact Nat.le_succ es.length

@[simp] theorem State.takeOp_bounded {s : State} {c : CoreId} {gd : BitVec 5} {pd : BitVec 3} (h : s.Bounded bd) : (s.takeOp c gd pd).Bounded bd := by
  unfold State.takeOp
  split
  · rename_i t e
    simp [State.takeRetry_bounded e, h]
  · have hs := State.modParcel_bounded (f := fun v => { v with tiles := (takeHead (s.parcel (coreParcel c)).tiles 0).2.1 }) h
      (takeHead_length (s.parcel (coreParcel c)).tiles 0)
    dsimp only
    split <;> simp [hs]

@[simp] theorem State.moveTail_bounded {s : State} {v : ParcelId} {h : Nat} (hs : s.Bounded bd) : (s.moveTail v h).1.Bounded bd := by
  simp only [State.moveTail, State.tileParities_bounded]
  exact State.modParcel_bounded hs (by simp)

theorem State.moveTail_length (s : State) (v : ParcelId) (h : Nat) : (s.moveTail v h).2.length ≤ h := by
  refine Nat.le_trans (List.length_filter_le _ _) ?_
  rw [List.length_drop]
  omega

@[simp] theorem State.stealOp_bounded {s : State} {c : CoreId} {gd : BitVec 5} {pd : BitVec 3} {dir : BitVec 2} {n : Nat}
    (h : s.Bounded (.limit lim)) : (s.stealOp c gd pd dir n).Bounded (.limit lim) := by
  induction n generalizing s dir with
  | zero => simp [State.stealOp, h]
  | succ n ih =>
    unfold State.stealOp
    extract_lets p
    split
    · exact ih h
    · rename_i v _
      extract_lets len taken
      split
      · exact ih h
      · have hs := State.moveTail_bounded (v := v) (h := taken) h
        have hlen := s.moveTail_length v taken
        dsimp only
        split
        · exact ih hs
        · rename_i e rest hes
          refine State.tileAppend_bounded (by simpa using hs) (fun hl => ?_)
          subst hl
          have hrest : rest.length ≤ s.tileFree p := by
            rw [hes, List.length_cons] at hlen
            have htaken : taken ≤ s.tileFree p + 1 := Nat.min_le_right _ _
            omega
          have hroom := State.moveTail_bounded (v := v) (h := taken) (State.room_of_tileFree h hrest)
          simpa using hroom

theorem State.orPlotNone_bounded {s : State} {c : CoreId} {act : State → State} (h : s.Bounded bd) (hact : ∀ t, t.Bounded bd → (act t).Bounded bd) :
    (s.orPlotNone c act).Bounded bd := by
  simp [State.orPlotNone, h, hact]

@[simp] theorem execTake_bounded {i : Issue} {f : FmtT} {s : State} (h : s.Bounded bd) : Result.Bounded bd (execTake i f s) := by
  unfold execTake
  refine State.asSpelled_bounded h ?_
  rw [Result.bounded_next]
  refine State.issue_bounded h (fun s1 hs => ?_)
  refine State.orPlotNone_bounded hs (fun s2 hs1 => ?_)
  simp [hs1]

@[simp] theorem execSteal_bounded {i : Issue} {f : FmtT} {s : State} (h : s.Bounded bd) : Result.Bounded bd (execSteal i f s) := by
  unfold execSteal
  refine State.asSpelled_bounded h ?_
  rw [Result.bounded_next]
  refine State.issue_bounded h (fun s1 hs => ?_)
  refine State.orPlotNone_bounded hs (fun s2 hs1 => ?_)
  simp [hs1]

@[simp] theorem execTileListOperation_bounded {c : CoreId} {s : State} (h : s.Bounded (.limit lim)) :
    Result.Bounded (.limit lim) (execTileListOperation c s) := by
  unfold execTileListOperation
  rw [Result.bounded_next]
  split <;> simp [h]

@[simp] theorem State.doneMark_bounded (s : State) (c : CoreId) (d : BitVec 128) : (s.doneMark c d).Bounded bd ↔ s.Bounded bd := by
  unfold State.doneMark
  split
  · split <;> simp
  · exact Iff.rfl

@[simp] theorem State.auditDone_bounded (s : State) (c : CoreId) (e : AuditEntry) : (s.auditDone c e).Bounded bd ↔ s.Bounded bd := by
  unfold State.auditDone
  dsimp only
  split <;> simp

@[simp] theorem State.doneMatch_bounded (s : State) (c : CoreId) (h : Held) : (s.doneMatch c h).Bounded bd ↔ s.Bounded bd := by
  unfold State.doneMatch
  extract_lets p s1 s2
  have hs1 : s1.Bounded bd ↔ s.Bounded bd := by
    unfold s1
    split <;> simp
  have hs2 : s2.Bounded bd ↔ s.Bounded bd := by
    unfold s2
    split <;> simp [hs1]
  simp [hs2]

@[simp] theorem execDone_bounded {i : Issue} {f : FmtT} {s : State} (h : s.Bounded bd) : Result.Bounded bd (execDone i f s) := by
  unfold execDone
  extract_lets c
  refine State.asSpelled_bounded h ?_
  rw [Result.bounded_next]
  refine State.issue_bounded h (fun s1 hs => ?_)
  refine State.orPlotNone_bounded hs (fun s2 hs1 => ?_)
  refine State.orGangFault_bounded hs1 (fun s3 hs2 => ?_)
  extract_lets d s4
  have hs4 : s4.Bounded bd := by
    unfold s4
    split <;> simp [hs2]
  simp [hs4]

@[simp] theorem execTilePush_bounded {p : ParcelId} {s : State} (h : s.Bounded (.limit lim)) : Result.Bounded (.limit lim) (execTilePush p s) := by
  unfold execTilePush
  extract_lets cfg len
  rw [Result.bounded_next]
  split
  · exact h
  · split
    · exact h
    · refine State.tileAppend_bounded (State.moveTail_bounded h) (fun hl => ?_)
      subst hl
      refine State.moveTail_bounded (State.room_of_tileFree h ?_)
      exact Nat.le_trans (s.moveTail_length ..) (Nat.min_le_right _ _)

/-! Of Sys2Proof/Machine/Control.lean. -/

@[simp] theorem State.sleepAct_bounded {s : State} {c : CoreId} {f : FmtZ} (h : s.Bounded bd) : (s.sleepAct c f).Bounded bd := by
  unfold State.sleepAct
  extract_lets k mask mark
  split
  · simp [h]
  · split
    · simp [h]
    · split <;> simp [h]

@[simp] theorem execSleep_bounded {i : Issue} {f : FmtZ} {s : State} (h : s.Bounded bd) : Result.Bounded bd (execSleep i f s) := by
  unfold execSleep
  refine State.asSpelled_bounded h ?_
  rw [Result.bounded_next]
  refine State.issue_bounded h (fun s1 hs => ?_)
  simp [hs]

@[simp] theorem execHalt_bounded {i : Issue} {f : FmtZ} {s : State} (h : s.Bounded bd) : Result.Bounded bd (execHalt i f s) := by
  unfold execHalt
  refine State.asSpelled_bounded h ?_
  rw [Result.bounded_next]
  refine State.issue_bounded h (fun s1 hs => ?_)
  refine State.orGangFault_bounded hs (fun s2 hs1 => ?_)
  simp [hs1]

@[simp] theorem execTrap_bounded {i : Issue} {f : FmtZ} {s : State} (h : s.Bounded bd) : Result.Bounded bd (execTrap i f s) := by
  unfold execTrap
  refine State.asSpelled_bounded h ?_
  rw [Result.bounded_next]
  refine State.issue_bounded h (fun s1 hs => ?_)
  simp [hs]

@[simp] theorem execFence_bounded {i : Issue} {f : FmtZ} {s : State} (h : s.Bounded bd) : Result.Bounded bd (execFence i f s) := by
  unfold execFence
  extract_lets act
  refine State.asSpelled_bounded h ?_
  rw [Result.bounded_next]
  refine State.issue_bounded h (fun s1 hs => ?_)
  split
  · refine State.orGangFault_bounded hs (fun s2 hs1 => ?_)
    simp [act, hs1]
  · simp [act, hs]

@[simp] theorem execHaltComplete_bounded {c : CoreId} {s : State} (h : s.Bounded bd) : Result.Bounded bd (execHaltComplete c s) := by
  unfold execHaltComplete
  rw [Result.bounded_next]
  split <;> simp [h]

/-! Of Sys2Proof/Machine/CopyUnit.lean. -/

@[simp] theorem State.copyEnd_bounded (s : State) (c : CoreId) (space : BitVec 2) (addr len : Nat) (write : Bool) :
    (s.copyEnd c space addr len write).1.Bounded bd ↔ s.Bounded bd := by
  unfold State.copyEnd
  split <;> simp

theorem State.copyEnd_cores (s : State) (c : CoreId) (space : BitVec 2) (addr len : Nat) (write : Bool) :
    (s.copyEnd c space addr len write).1.cores = s.cores := by
  unfold State.copyEnd
  split
  · exact s.coreIssue_cores ..
  · rfl

/-- A copy that does not stall has room among the core's copies (R26). -/
theorem State.copies_lt_of_copyStall {s : State} {c : CoreId} {f : FmtCpy} (hstall : s.copyStall c f = none) : (s.core c).copies.length < 32 := by
  unfold State.copyStall at hstall
  by_contra hfull
  dsimp only at hstall
  split at hstall
  · cases hstall
  · simp [Nat.le_of_not_lt hfull] at hstall

/-- The copies of a core that may have one more in flight. -/
theorem Core.size_addCopy {k : Core} {j : CopyJob} (hc : k.count bd ≤ bd.cap) (hroom : k.copies.length < 32) :
    bd.size k.arr.queue (k.copies ++ [j]) k.loads ≤ bd.cap := by
  rcases bd with (_ | _ | _ | _) | ⟨_, _⟩
  case limit.copies =>
    show (k.copies ++ [j]).length ≤ 32
    simpa using hroom
  all_goals exact hc

@[simp] theorem State.copyAct_bounded {s : State} {c : CoreId} {f : FmtCpy} {mark : Option (Bool × BitVec 10)} {n : Nat} (h : s.Bounded bd) :
    (s.copyAct c f mark n).Bounded bd := by
  unfold State.copyAct
  extract_lets k src dst len after
  split
  · simp [h]
  · split
    · simp [h]
    · rename_i hstall
      have hcores := (State.copyEnd_cores _ c f.dspace dst len true).trans (s.copyEnd_cores c f.sspace src len false)
      have hcore := congrArg (fun m => AMap.get m c Core.reset) hcores
      have hends : ((s.copyEnd c f.sspace src len false).1.copyEnd c f.dspace dst len true).1.Bounded bd := by simp [h]
      refine State.setCore_bounded hends ?_
      simp only [Core.count_retire, Core.count_mk]
      refine Core.size_addCopy (Nat.le_trans (Nat.le_of_eq (congrArg (Core.count bd) hcore)) (h.core c)) ?_
      exact Nat.lt_of_le_of_lt (Nat.le_of_eq (congrArg (fun k => k.copies.length) hcore)) (State.copies_lt_of_copyStall hstall)

@[simp] theorem execCpy_bounded {i : Issue} {f : FmtCpy} {s : State} (h : s.Bounded bd) : Result.Bounded bd (execCpy i f s) := by
  unfold execCpy
  refine State.asSpelled_bounded h ?_
  rw [Result.bounded_next]
  refine State.issue_bounded h (fun s1 hs => ?_)
  simp [hs]

@[simp] theorem execCpym_bounded {i : Issue} {f : FmtCpy} {ext : Word} {s : State} (h : s.Bounded bd) : Result.Bounded bd (execCpym i f ext s) := by
  unfold execCpym
  extract_lets remote
  refine State.asSpelled_bounded h ?_
  rw [Result.bounded_next]
  refine State.issue_bounded h (fun s1 hs => ?_)
  simp [hs]

@[simp] theorem execCset_bounded {i : Issue} {f : FmtN} {s : State} (h : s.Bounded bd) : Result.Bounded bd (execCset i f s) := by
  unfold execCset
  refine State.asSpelled_bounded h ?_
  simp [h]

@[simp] theorem execCget_bounded {i : Issue} {f : FmtN} {s : State} (h : s.Bounded bd) : Result.Bounded bd (execCget i f s) := by
  unfold execCget
  refine State.asSpelled_bounded h ?_
  simp [h]

@[simp] theorem execCwait_bounded {i : Issue} {f : FmtN} {s : State} (h : s.Bounded bd) : Result.Bounded bd (execCwait i f s) := by
  unfold execCwait
  refine State.asSpelled_bounded h ?_
  rw [Result.bounded_next]
  refine State.issue_bounded h (fun s1 hs => ?_)
  simp [hs]

@[simp] theorem State.copyUnits_bounded {s : State} {d : CopyData} {i : Nat} {l : List (Nat × List Byte)} (h : s.Bounded bd) :
    (s.copyUnits d i l).Bounded bd := by
  induction l generalizing s i with
  | nil => exact h
  | cons q l ih =>
    refine ih ?_
    split <;> simp [h]

@[simp] theorem State.copyWrite_bounded {s : State} {c : CoreId} {j : CopyJob} {d : CopyData} (h : s.Bounded bd) :
    (s.copyWrite c j d).1.Bounded bd := by
  unfold State.copyWrite
  split
  · dsimp only
    split <;> simp [h]
  · split
    · exact h
    · split
      · split
        · dsimp only
          split
          · simp [h]
          · split
            · exact h
            · split <;> simp [h]
        · dsimp only
          split
          · exact h
          · split
            · exact h
            · split <;> simp [h]
      · extract_lets own
        split <;> simp [h]

@[simp] theorem State.copyEndDone_bounded (s : State) (c : CoreId) (gen : Option Nat) (addr status : Nat) :
    (s.copyEndDone c gen addr status).Bounded bd ↔ s.Bounded bd := by
  unfold State.copyEndDone
  extract_lets s1
  have hs1 : s1.Bounded bd ↔ s.Bounded bd := by simp [s1]
  split <;> simp [hs1]

@[simp] theorem State.copyMark_bounded {s : State} {c : CoreId} {j : CopyJob} (h : s.Bounded bd) : (s.copyMark c j).1.Bounded bd := by
  unfold State.copyMark
  split
  · exact h
  · simp [h]
  · extract_lets addr
    split
    · split <;> simp [h]
    · simp [h]

theorem modifyIdx_length {α : Type} (f : α → α) (xs : List α) (n : Nat) : (modifyIdx f xs n).length = xs.length := by
  induction xs generalizing n with
  | nil => rfl
  | cons x xs ih =>
    cases n with
    | zero => rfl
    | succ n => exact congrArg (· + 1) (ih n)

theorem dropIdx_length {α : Type} (xs : List α) (n : Nat) : (dropIdx xs n).length ≤ xs.length := by
  induction xs generalizing n with
  | nil => exact Nat.le_refl 0
  | cons x xs ih =>
    cases n with
    | zero => exact Nat.le_succ xs.length
    | succ n => exact Nat.succ_le_succ (ih n)

@[simp] theorem State.setStage_bounded (s : State) (c : CoreId) (n : Nat) (g : CopyStage) : (s.setStage c n g).Bounded bd ↔ s.Bounded bd :=
  State.modCore_bounded_iff s c (fun k => Bound.size_congr rfl (modifyIdx_length _ k.copies n) rfl)

@[simp] theorem Core.count_countLanding (k : Core) (ac : BitVec 3) (err : Bool) : (k.countLanding ac err).count bd = k.count bd := by
  simp [Core.countLanding]

@[simp] theorem State.copyCount_bounded {s : State} {c : CoreId} {n : Nat} {j : CopyJob} {err : Bool} (h : s.Bounded bd) :
    (s.copyCount c n j err).Bounded bd := by
  have hdrop := State.modCore_bounded (c := c) (f := fun k => { k with copies := dropIdx k.copies n }) h
    (Bound.size_le (Nat.le_refl _) (dropIdx_length _ n) (Nat.le_refl _))
  simp [State.copyCount, hdrop]

@[simp] theorem State.copyEnds_bounded {s : State} {c : CoreId} {n : Nat} {j : CopyJob} {st : Nat} {err : Bool} (h : s.Bounded bd) :
    (s.copyEnds c n j st err).Bounded bd := by
  have hm : ((s.copyEndDone c j.genD j.dst st).copyMark c j).1.Bounded bd := State.copyMark_bounded (by simpa using h)
  unfold State.copyEnds
  split
  all_goals
    rename_i e
    rw [e] at hm
    simp [hm]

@[simp] theorem State.copyMove_bounded {s : State} {c : CoreId} {n : Nat} {j : CopyJob} {net : Option NetReply} (h : s.Bounded bd) :
    (s.copyMove c n j net).Bounded bd := by
  unfold State.copyMove
  extract_lets take close s1 d s2 s3
  have htake : ∀ (s : State) (g : Option Nat), s.Bounded bd → (take s g).Bounded bd := by
    intro s g hs
    cases g <;> simp [take, hs]
  have hclose : ∀ (s : State) (space addr : Nat), s.Bounded bd → (close s space addr).Bounded bd := by
    intro s space addr hs
    simp [close, hs]
  have hs1 : s1.Bounded bd := hclose _ _ _ (hclose _ _ _ (htake _ _ (htake _ _ h)))
  have hs2 : s2.Bounded bd := by simp [s2, hs1]
  have hs3 : s3.Bounded bd := by simp [s3, hs2]
  dsimp only
  split <;> simp [hs3]

@[simp] theorem execCopyLanding_bounded {c : CoreId} {n : Nat} {net : List NetReply} {s : State} (h : s.Bounded bd) :
    Result.Bounded bd (execCopyLanding c n net s) := by
  unfold execCopyLanding
  rw [Result.bounded_next]
  split
  · exact h
  · extract_lets srcAway waits
    split
    · simp [h]
    · split <;> simp [h]
    · simp [h]

/-! Of Sys2Proof/Machine/EngOps.lean. -/

@[simp] theorem State.engOne_bounded {s : State} {t : Tract} {g : Engine} {id : Nat} {write : Bool} {rs : List (Nat × Nat)} (h : s.Bounded bd) :
    (s.engOne t g id write rs).Bounded bd := by
  unfold State.engOne
  split
  · exact h
  · dsimp only
    refine State.foldl_bounded (fun s1 x hs => ?_) ?_
    · simp [hs]
    · simp [h]

@[simp] theorem State.engIssue_bounded {s : State} {t : Tract} {g : Engine} {id : Nat} {rs : List (Nat × Nat)} {write : Bool} (h : s.Bounded bd) :
    (s.engIssue t g id rs write).Bounded bd := by
  unfold State.engIssue
  refine State.foldl_bounded (fun s1 x hs => ?_) ?_
  · simp [hs]
  · exact h

@[simp] theorem State.engEnter_bounded {s : State} {t : Tract} {g : Engine} {id : Nat} {reads writes : List (Nat × Nat)} (h : s.Bounded bd) :
    (s.engEnter t g id reads writes).Bounded bd := by
  simp [State.engEnter, h]

@[simp] theorem State.engAnswered_bounded (s : State) (t : Tract) (g : Engine) (id : Nat) (write : Bool) (ga : Nat) (reply : Option NetReply) :
    (s.engAnswered t g id write ga reply).Bounded bd ↔ s.Bounded bd := by
  unfold State.engAnswered
  split
  · exact Iff.rfl
  · split <;> simp
  · exact Iff.rfl

@[simp] theorem State.engReplies_bounded (s : State) (t : Tract) (g : Engine) (id : Nat) (rs : List (Nat × Nat)) (net : List NetReply) :
    (s.engReplies t g id rs net).Bounded bd ↔ s.Bounded bd := by
  unfold State.engReplies
  refine State.foldl_bounded_iff (fun s1 x => ?_) _ _
  simp

@[simp] theorem State.engFinish_bounded (s : State) (t : Tract) (xs : List RaEntry) : (s.engFinish t xs).1.Bounded bd ↔ s.Bounded bd := by
  unfold State.engFinish
  dsimp only
  rw [State.raPump_bounded]
  refine State.foldl_bounded_iff (fun s1 x => ?_) _ _
  simp

@[simp] theorem State.engClose_bounded (s : State) (t : Tract) (g : Engine) (id : Nat) : (s.engClose t g id).1.Bounded bd ↔ s.Bounded bd := by
  simp [State.engClose]

/-! Of Sys2Proof/Machine/Queues.lean. -/

@[simp] theorem State.setQueue_bounded (s : State) (q : QueueId) (v : QueueState) : (s.setQueue q v).Bounded bd ↔ s.Bounded bd := by
  simp [State.setQueue]

@[simp] theorem State.modQueue_bounded (s : State) (q : QueueId) (f : QueueState → QueueState) : (s.modQueue q f).Bounded bd ↔ s.Bounded bd := by
  simp [State.modQueue]

@[simp] theorem State.hostWrite_bounded (s : State) (addr : Nat) (data : List Byte) : (s.hostWrite addr data).Bounded bd ↔ s.Bounded bd := by
  simp [State.hostWrite]

@[simp] theorem State.msix_bounded (s : State) (v : Nat) : (s.msix v).Bounded bd ↔ s.Bounded bd := by
  simp [State.msix]

@[simp] theorem State.chainFault_bounded (s : State) (q : QueueId) (cause slot third addr : Nat) :
    (s.chainFault q cause slot third addr).Bounded bd ↔ s.Bounded bd := by
  simp [State.chainFault]

@[simp] theorem State.putCpl_bounded (s : State) (q : QueueId) (rec_ : List Byte) (irq : Bool) :
    (s.putCpl q rec_ irq).Bounded bd ↔ s.Bounded bd := by
  simp [State.putCpl]

@[simp] theorem State.drainCpl_bounded (s : State) (q : QueueId) : (s.drainCpl q).Bounded bd ↔ s.Bounded bd := by
  unfold State.drainCpl
  extract_lets l
  refine State.foldl_bounded_iff (fun s1 x => ?_) _ _
  simp

@[simp] theorem State.stopQueue_bounded (s : State) (q : QueueId) (cause : Nat) (pt : QPoint) :
    (s.stopQueue q cause pt).Bounded bd ↔ s.Bounded bd := by
  simp [State.stopQueue]

@[simp] theorem State.stopAtHead_bounded (s : State) (q : QueueId) (e : QEntry) (cause : Nat) (barrier : Bool) :
    (s.stopAtHead q e cause barrier).Bounded bd ↔ s.Bounded bd := by
  simp [State.stopAtHead]

@[simp] theorem State.armHead_bounded (s : State) (q : QueueId) : (s.armHead q).Bounded bd ↔ s.Bounded bd := by
  unfold State.armHead
  split
  · exact Iff.rfl
  · split
    · exact Iff.rfl
    · split
      · simp
      · simp
      · split
        · exact Iff.rfl
        · split <;> simp

@[simp] theorem State.sigPump_bounded (s : State) (q : QueueId) : (s.sigPump q).Bounded bd ↔ s.Bounded bd := by
  unfold State.sigPump
  split <;> simp

@[simp] theorem execSequencerTurn_bounded {t : Tract} {s : State} (h : s.Bounded bd) : Result.Bounded bd (execSequencerTurn t s) := by
  unfold execSequencerTurn
  extract_lets s1 v
  have hs1 : s1.Bounded bd := by simp [s1, h]
  rw [Result.bounded_next]
  split <;> simp [hs1]

@[simp] theorem State.engineTouch_bounded {s : State} {ga n : Nat} (h : s.Bounded bd) : (s.engineTouch ga n).Bounded bd := by
  simp [State.engineTouch, h]

@[simp] theorem State.fetchRead_bounded {s : State} {q : QueueId} {addr : Nat} (h : s.Bounded bd) : (s.fetchRead q addr).Bounded bd := by
  simp [State.fetchRead, h]

@[simp] theorem State.fetchEntry_bounded {s : State} {q : QueueId} {addr : Nat} {nsp : Bool} {pos : Nat} {reply : HostReply} (h : s.Bounded bd) :
    (s.fetchEntry q addr nsp pos reply).Bounded bd := by
  simp [State.fetchEntry, h]

@[simp] theorem execChainEntryFetch_bounded {q : QueueId} {slot entry : HostReply} {s : State} (h : s.Bounded bd) :
    Result.Bounded bd (execChainEntryFetch q slot entry s) := by
  unfold execChainEntryFetch
  extract_lets sq s1 v pt s2
  have hs1 : s1.Bounded bd := by simp [s1, h]
  have hs2 : s2.Bounded bd := by
    unfold s2
    split
    · simp [hs1]
    · split <;> simp [hs1]
  simp [h, hs2]

@[simp] theorem State.qTailPut_bounded (s : State) (q : QueueId) (tail : Nat) : (s.qTailPut q tail).Bounded bd ↔ s.Bounded bd := by
  simp [State.qTailPut]

@[simp] theorem execDoorbell_bounded {q : QueueId} {tail : Word} {s : State} (h : s.Bounded bd) : Result.Bounded bd (execDoorbell q tail s) := by
  unfold execDoorbell
  rw [Result.bounded_next]
  refine State.atReg_bounded h (fun s1 hs => ?_)
  simp [hs]

@[simp] theorem State.qRestartPut_bounded (s : State) (q : QueueId) (v size : Nat) : (s.qRestartPut q v size).Bounded bd ↔ s.Bounded bd := by
  simp [State.qRestartPut]

@[simp] theorem execQRestart_bounded {q : QueueId} {action : BitVec 2} {s : State} (h : s.Bounded bd) :
    Result.Bounded bd (execQRestart q action s) := by
  unfold execQRestart
  rw [Result.bounded_next]
  refine State.atReg_bounded h (fun s1 hs => ?_)
  simp [hs]

@[simp] theorem execCplFull_bounded {q : QueueId} {s : State} (h : s.Bounded bd) : Result.Bounded bd (execCplFull q s) := by
  simp [execCplFull, h]

@[simp] theorem execEngMarkWait_bounded {q : QueueId} {s : State} (h : s.Bounded bd) : Result.Bounded bd (execEngMarkWait q s) := by
  unfold execEngMarkWait
  rw [Result.bounded_next]
  split <;> simp [h]

@[simp] theorem State.leaveEntry_bounded (s : State) (q : QueueId) (e : QEntry) (f : QEntry → QEntry) :
    (s.leaveEntry q e f).Bounded bd ↔ s.Bounded bd := by
  simp [State.leaveEntry]

@[simp] theorem State.startEntry_bounded (s : State) (q : QueueId) (e : QEntry) : (s.startEntry q e).Bounded bd ↔ s.Bounded bd := by
  simp [State.startEntry]

@[simp] theorem State.startPassed_bounded (s : State) (q : QueueId) (e : QEntry) : (s.startPassed q e).Bounded bd ↔ s.Bounded bd := by
  simp [State.startPassed]

@[simp] theorem State.setWork_bounded (s : State) (q : QueueId) (id : Nat) (w : EngWork) : (s.setWork q id w).Bounded bd ↔ s.Bounded bd := by
  simp [State.setWork]

@[simp] theorem State.signal_bounded {s : State} {q : QueueId} {e : QEntry} (h : s.Bounded bd) : (s.signal q e).Bounded bd := by
  unfold State.signal
  extract_lets fail
  split
  · exact h
  · split
    · split <;> simp [fail, h]
    · simp [h]

@[simp] theorem State.completeWith_bounded {s : State} {q : QueueId} {e : QEntry} {status : Nat} {fault : Option ErrRec} (h : s.Bounded bd) :
    (s.completeWith q e status fault).Bounded bd := by
  unfold State.completeWith
  extract_lets s1 s2 s3 s4 v
  have hs1 : s1.Bounded bd := by simp [s1, h]
  have hs2 : s2.Bounded bd := by
    unfold s2
    split <;> simp [hs1]
  have hs3 : s3.Bounded bd := by simp [s3, hs2]
  have hs4 : s4.Bounded bd := by simp [s4, hs3]
  split <;> simp [hs4]

@[simp] theorem State.completeEntry_bounded {s : State} {q : QueueId} {e : QEntry} {status : Nat} {fault : Option ErrRec} (h : s.Bounded bd) :
    (s.completeEntry q e status fault).Bounded bd := by
  simp [State.completeEntry, h]

@[simp] theorem State.finishEntry_bounded {s : State} {q : QueueId} {e : QEntry} {status : Nat} {isFault : Bool} (h : s.Bounded bd) :
    (s.finishEntry q e status isFault).Bounded bd := by
  simp [State.finishEntry, h]

/-! Of Sys2Proof/Machine/Dispatcher.lean. -/

@[simp] theorem State.dispDone_bounded {s : State} {t : Tract} {e : QEntry} {st : DispStatus} (h : s.Bounded bd) :
    (s.dispDone t e st).Bounded bd := by
  simp [State.dispDone, h]

theorem State.dispStart_bounded {s : State} {t : Tract} {op : Nat} {act : State → QEntry → State} {may : QEntry → Bool} (h : s.Bounded bd)
    (hact : ∀ t x, t.Bounded bd → (act t x).Bounded bd) :
    (s.dispStart t op act may).Bounded bd := by
  unfold State.dispStart
  split <;> simp [h, hact]

@[simp] theorem State.countPlot_bounded (s : State) (t : Tract) (n : BitVec 8) : (s.countPlot t n).Bounded bd ↔ s.Bounded bd := by
  simp [State.countPlot]

@[simp] theorem State.ledgerReset_bounded (s : State) (p : ParcelId) : (s.ledgerReset p).Bounded bd ↔ s.Bounded bd := by
  simp [State.ledgerReset]

@[simp] theorem State.movePlot_bounded (s : State) (p : ParcelId) (n : Option (BitVec 8)) : (s.movePlot p n).Bounded bd ↔ s.Bounded bd := by
  unfold State.movePlot
  split
  · exact Iff.rfl
  · dsimp only
    split <;> simp

@[simp] theorem State.plotSetAct_bounded {s : State} {t : Tract} {e : QEntry} (h : s.Bounded bd) : (s.plotSetAct t e).Bounded bd := by
  unfold State.plotSetAct
  extract_lets none_ n p0 np bad ps s1 k s2
  have hs1 : s1.Bounded bd := by
    unfold s1
    refine State.foldl_bounded (fun s3 x hs => ?_) ?_
    · simp [hs]
    · exact h
  have hk : k.r ≠ .cmLayout := by simp [k]
  have hs2 : s2.Bounded bd := by simp [s2, hs1, hk]
  simp [h, hs2]

@[simp] theorem execPlotSet_bounded {t : Tract} {s : State} (h : s.Bounded bd) : Result.Bounded bd (execPlotSet t s) := by
  unfold execPlotSet
  rw [Result.bounded_next]
  refine State.dispStart_bounded h (fun s1 x hs => ?_)
  simp [hs]

@[simp] theorem State.programStart_bounded {s : State} {c : CoreId} {e : QEntry} (h : s.Bounded bd) : (s.programStart c e).Bounded bd := by
  unfold State.programStart
  extract_lets s1
  have hs1 : s1.Bounded bd := by
    refine (State.modCore_bounded_iff s c (fun k => ?_)).2 h
    refine Bound.size_congr ?_ rfl ?_
    · simp
    · simp
  simp [hs1]

@[simp] theorem State.startAct_bounded {s : State} {t : Tract} {e : QEntry} (h : s.Bounded bd) : (s.startAct t e).Bounded bd := by
  simp [State.startAct, h]

@[simp] theorem execStart_bounded {t : Tract} {s : State} (h : s.Bounded bd) : Result.Bounded bd (execStart t s) := by
  unfold execStart
  rw [Result.bounded_next]
  refine State.dispStart_bounded h (fun s1 x hs => ?_)
  simp [hs]

@[simp] theorem execDispatcherCoreStart_bounded {c : CoreId} {s : State} (h : s.Bounded bd) : Result.Bounded bd (execDispatcherCoreStart c s) := by
  unfold execDispatcherCoreStart
  extract_lets q
  rw [Result.bounded_next]
  split <;> simp [h]

@[simp] theorem execStartTimeout_bounded {t : Tract} {s : State} (h : s.Bounded bd) : Result.Bounded bd (execStartTimeout t s) := by
  unfold execStartTimeout
  rw [Result.bounded_next]
  split <;> simp [h]

theorem State.dispRead_bounded {s : State} {t : Tract} {e : QEntry} {src n : Nat} {net : List NetReply}
    {act : State → Option (List Byte) → State} (h : s.Bounded bd) (hact : ∀ t x, t.Bounded bd → (act t x).Bounded bd) :
    (s.dispRead t e src n net act).Bounded bd := by
  simp [State.dispRead, h, hact]

/-- A plot's parcels, each once. -/
theorem State.plotParcels_nodup (s : State) (t : Tract) (n : BitVec 8) : (s.plotParcels t n).Nodup := by
  have hpos (i : Nat) (p : ParcelId) (hi : i ∈ List.range 1360) (hp : keyParcel (keyOf t.val i 0) = some p) : p.parcel.val = i := by
    have hkey := keyParcel_keyOf { tract := t, parcel := ⟨i, List.mem_range.1 hi⟩ } (off := 0) (by decide)
    obtain rfl := Option.some.inj (hp.symm.trans hkey)
    rfl
  have hsome (i : Nat) (p : ParcelId) (hi : (match keyParcel (keyOf t.val i 0) with
      | some p => if (s.parcel p).plot == some n then some p else none
      | none => none) = some p) : keyParcel (keyOf t.val i 0) = some p := by
    split at hi
    · rename_i p' hp'
      rw [hp']
      split at hi
      · exact hi
      · cases hi
    · cases hi
  refine List.pairwise_filterMap.2 (List.nodup_range.imp_of_mem (fun {i i'} hi hi' hne p hp p' hp' e => hne ?_))
  rw [← hpos i p hi (hsome i p hp), ← hpos i' p' hi' (hsome i' p' hp'), e]

@[simp] theorem State.tloadAct_bounded {s : State} {t : Tract} {e : QEntry} {net : List NetReply} (h : s.Bounded (.limit lim)) :
    (s.tloadAct t e net).Bounded (.limit lim) := by
  unfold State.tloadAct
  extract_lets n deal src cnt bad
  split
  · simp [h]
  · split
    · simp [h]
    · refine State.dispRead_bounded h (fun s1 x hs => ?_)
      extract_lets ps target
      split
      · simp [hs]
      · extract_lets ds plan s2
        split
        · simp [hs]
        · split
          · simp [hs]
          · split
            · simp [hs]
            · rename_i hfull
              have hs2 : s2.Bounded (.limit lim) := by
                refine State.tileAppends_bounded (s1.plotParcels_nodup t n) hs (fun hl p hp => ?_)
                subst hl
                refine State.room_of_tileFree hs ?_
                have hfree := mt (List.any_eq_true.2 ⟨p, hp, ·⟩) hfull
                simpa using hfree
              simp [hs2]

@[simp] theorem execTload_bounded {t : Tract} {net : List NetReply} {s : State} (h : s.Bounded (.limit lim)) :
    Result.Bounded (.limit lim) (execTload t net s) := by
  unfold execTload
  rw [Result.bounded_next]
  refine State.dispStart_bounded h (fun s1 x hs => ?_)
  simp [hs]

@[simp] theorem State.tmplSetAct_bounded {s : State} {t : Tract} {e : QEntry} {net : List NetReply} (h : s.Bounded bd) :
    (s.tmplSetAct t e net).Bounded bd := by
  unfold State.tmplSetAct
  extract_lets src cnt i0 bad
  split
  · simp [h]
  · refine State.dispRead_bounded h (fun s1 x hs => ?_)
    split
    · simp [hs]
    · extract_lets ts
      split
      · simp [hs]
      · refine State.dispDone_bounded ?_
        refine State.foldl_bounded (fun s2 x hs1 => ?_) ?_
        · simp [hs1]
        · exact hs

@[simp] theorem execTmplSet_bounded {t : Tract} {net : List NetReply} {s : State} (h : s.Bounded bd) : Result.Bounded bd (execTmplSet t net s) := by
  unfold execTmplSet
  rw [Result.bounded_next]
  refine State.dispStart_bounded h (fun s1 x hs => ?_)
  simp [hs]

@[simp] theorem execTclear_bounded {t : Tract} {s : State} (h : s.Bounded bd) : Result.Bounded bd (execTclear t s) := by
  unfold execTclear
  rw [Result.bounded_next]
  refine State.dispStart_bounded h (fun s1 x hs => ?_)
  extract_lets n
  split
  · simp [hs]
  · split
    · simp [hs]
    · refine State.dispDone_bounded ?_
      exact State.foldl_bounded (fun s2 p hs => State.modParcel_bounded hs (Nat.zero_le _)) hs


end Sys2Proof.Machine
end

section
/-!
PROOFS (O2). The bounds of O2 in the engines' data, the plan and the routing entries.
-/
namespace Sys2Proof.Machine

variable {bd : Bound} {lim : Limit}

/-! Of Sys2Proof/Machine/EngData.lean. -/

@[simp] theorem State.touchAt_bounded {s : State} {t : Tract} {ga n : Nat} (h : s.Bounded bd) : (s.touchAt t ga n).Bounded bd := by
  simp [State.touchAt, h]

@[simp] theorem State.mstorePiece_bounded {s : State} {q : Nat × List MByte} (h : s.Bounded bd) : (s.mstorePiece q).Bounded bd := by
  simp [State.mstorePiece, h]

@[simp] theorem State.mstore_bounded {s : State} {key : Nat} {bs : List MByte} (h : s.Bounded bd) : (s.mstore key bs).Bounded bd := by
  unfold State.mstore
  rw [State.staleLines_bounded]
  refine State.foldl_bounded (fun s1 x hs => ?_) ?_
  · simp [hs]
  · exact h

@[simp] theorem State.engWrite_bounded {s : State} {t : Tract} {g : Engine} {id ga : Nat} {bs : List MByte} {net : List NetReply}
    (h : s.Bounded bd) :
    (s.engWrite t g id ga bs net).1.Bounded bd := by
  unfold State.engWrite
  split
  · exact h
  · split
    · exact h
    · split
      · simp [h]
      · split
        · split <;> simp [h]
        · exact h

@[simp] theorem State.tractFlags_bounded (s : State) (t : Tract) (group : Nat) (fl : FlagSet) :
    (s.tractFlags t group fl).Bounded bd ↔ s.Bounded bd := by
  simp [State.tractFlags]

@[simp] theorem State.convFlags_bounded (s : State) (t : Tract) (fl : FlagSet) : (s.convFlags t fl).Bounded bd ↔ s.Bounded bd := by
  simp [State.convFlags]

@[simp] theorem State.redFlags_bounded (s : State) (t : Tract) (fl : FlagSet) : (s.redFlags t fl).Bounded bd ↔ s.Bounded bd := by
  simp [State.redFlags]

/-! Of Sys2Proof/Machine/Plan.lean. -/

@[simp] theorem State.touchCad_bounded {s : State} {l : LayerRec} {es : List Nat} (h : s.Bounded bd) : (s.touchCad l es).Bounded bd := by
  unfold State.touchCad
  refine State.foldl_bounded (fun s1 x hs => ?_) ?_
  · simp [hs]
  · exact h

@[simp] theorem State.touchPlan_bounded {s : State} {p : PlanImage} (h : s.Bounded bd) : (s.touchPlan p).Bounded bd := by
  unfold State.touchPlan
  extract_lets n
  refine State.foldl_bounded (fun s1 x hs => ?_) ?_
  · simp [hs]
  · exact h

@[simp] theorem State.planReject_bounded (s : State) (off table state : Nat) : (s.planReject off table state).Bounded bd ↔ s.Bounded bd := by
  simp [State.planReject]

@[simp] theorem State.touchChecked_bounded {s : State} {p : PlanImage} (h : s.Bounded bd) : (s.touchChecked p).Bounded bd := by
  simp [State.touchChecked, h]

@[simp] theorem State.planDecide_bounded (s : State) (p : PlanImage) (v : PlanVerdict) : (s.planDecide p v).Bounded bd ↔ s.Bounded bd := by
  unfold State.planDecide
  extract_lets old
  split <;> simp

@[simp] theorem State.planDbPut_bounded (s : State) : (s.planDbPut).Bounded bd ↔ s.Bounded bd := by
  simp [State.planDbPut]

@[simp] theorem execPlanDb_bounded {_value : Word} {s : State} (h : s.Bounded bd) : Result.Bounded bd (execPlanDb _value s) := by
  unfold execPlanDb
  rw [Result.bounded_next]
  refine State.atReg_bounded h (fun s1 hs => ?_)
  simp [hs]

@[simp] theorem execPlanValidated_bounded {r : PlanFetch} {s : State} (h : s.Bounded bd) : Result.Bounded bd (execPlanValidated r s) := by
  unfold execPlanValidated
  extract_lets old s1
  have hs1 : s1.Bounded bd := by simp [s1, h]
  rw [Result.bounded_next]
  split
  · exact h
  · split
    · simp [hs1]
    · split
      · simp [hs1]
      · extract_lets p
        split <;> simp [hs1]
      · extract_lets p
        split <;> simp [hs1]

/-! Of Sys2Proof/Machine/Route.lean. -/

@[simp] theorem State.routeDone_bounded {s : State} {t : Tract} {id st : Nat} (h : s.Bounded bd) : (s.routeDone t id st).Bounded bd := by
  unfold State.routeDone
  extract_lets q
  split <;> simp [h]

theorem State.routeStart_bounded {s : State} {t : Tract} {e : QEntry} {act : State → RouteEntry → LayerRec → State} (h : s.Bounded bd)
    (hact : ∀ t x y, t.Bounded bd → (act t x y).Bounded bd) :
    (s.routeStart t e act).Bounded bd := by
  unfold State.routeStart
  extract_lets r
  split
  · simp [h]
  · split <;> simp [h, hact]

theorem State.xferStart_bounded {s : State} {t : Tract} {op : Nat} {blocked : State → QEntry → Bool} {act : State → QEntry → State}
    (h : s.Bounded bd) (hact : ∀ t x, t.Bounded bd → (act t x).Bounded bd) :
    (s.xferStart t op blocked act).Bounded bd := by
  unfold State.xferStart
  extract_lets q
  split <;> simp [h, hact]

@[simp] theorem State.xstore_bounded {s : State} {p : ParcelId} {off : Nat} {bs : List MByte} (h : s.Bounded bd) :
    (s.xstore p off bs).Bounded bd := by
  simp [State.xstore, h]

@[simp] theorem State.xland_bounded {s : State} {p : ParcelId} {off : Nat} {bs : List MByte} (h : s.Bounded bd) :
    (s.xland p off bs).Bounded bd := by
  simp [State.xland, h]

@[simp] theorem State.touchSlice_bounded {s : State} {p : ParcelId} {off n : Nat} (h : s.Bounded bd) : (s.touchSlice p off n).Bounded bd := by
  simp [State.touchSlice, h]

@[simp] theorem State.touchToken_bounded {s : State} {p : ParcelId} {r : RouteEntry} {l : LayerRec} {i : Nat} {x : Selected} (h : s.Bounded bd) :
    (s.touchToken p r l i x).Bounded bd := by
  unfold State.touchToken
  refine State.foldl_bounded (fun s1 x1 hs => ?_) ?_
  · simp [hs]
  · simp [h]

@[simp] theorem State.selectAct_bounded {s : State} {t : Tract} {e : QEntry} {r : RouteEntry} {l : LayerRec} (h : s.Bounded bd) :
    (s.selectAct t e r l).Bounded bd := by
  unfold State.selectAct
  extract_lets s1 ps toks res s2 s3 s4
  have hs1 : s1.Bounded bd := by simp [s1, h]
  have hs2 : s2.Bounded bd := by
    unfold s2
    refine State.foldl_bounded (fun s5 x hs => ?_) ?_
    · simp [hs]
    · exact hs1
  have hs3 : s3.Bounded bd := by
    unfold s3
    refine State.foldl_bounded (fun s5 x hs => ?_) ?_
    · simp [hs]
    · exact hs2
  have hs4 : s4.Bounded bd := by simp [s4, hs3]
  simp [hs4]

@[simp] theorem execSelect_bounded {t : Tract} {s : State} (h : s.Bounded bd) : Result.Bounded bd (execSelect t s) := by
  unfold execSelect
  rw [Result.bounded_next]
  refine State.xferStart_bounded h (fun s1 x hs => ?_)
  refine State.routeStart_bounded hs (fun s2 x1 y hs1 => ?_)
  simp [hs1]

@[simp] theorem State.touchTokens_bounded {s : State} {t : Tract} {plot selOff k ntok : Nat} {empty : Bool} (h : s.Bounded bd) :
    (s.touchTokens t plot selOff k ntok empty).Bounded bd := by
  unfold State.touchTokens
  split
  · exact h
  · refine State.foldl_bounded (fun s1 x hs => ?_) ?_
    · refine State.foldl_bounded (fun s2 x1 hs1 => ?_) ?_
      · simp [hs1]
      · exact hs
    · exact h

@[simp] theorem State.modTxfer_bounded (s : State) (t : Tract) (f : TractXfer → TractXfer) : (s.modTxfer t f).Bounded bd ↔ s.Bounded bd := by
  simp [State.modTxfer]

@[simp] theorem State.grantCredits_bounded (s : State) (dst : Tract) : (s.grantCredits dst).Bounded bd ↔ s.Bounded bd := by
  unfold State.grantCredits
  refine State.foldl_bounded_iff (fun s1 x => ?_) _ _
  simp

@[simp] theorem State.pushPath_bounded (s : State) (dst : Tract) (src : CreditSrc) (g : Segment) (port : Option (Nat × Nat)) :
    (s.pushPath dst src g port).Bounded bd ↔ s.Bounded bd := by
  simp [State.pushPath]

@[simp] theorem State.setExch_bounded (s : State) (x : Exch) : (s.setExch x).Bounded bd ↔ s.Bounded bd := by
  simp [State.setExch]

@[simp] theorem State.dropExch_bounded (s : State) (t : Tract) (k : XKey) : (s.dropExch t k).Bounded bd ↔ s.Bounded bd := by
  simp [State.dropExch]

@[simp] theorem State.takeKeys_bounded {s : State} {t : Tract} {layer mb : Nat} {ks : List (List Byte)} (h : s.Bounded bd) :
    (s.takeKeys t layer mb ks).Bounded bd := by
  unfold State.takeKeys
  obtain ⟨place, hplace⟩ : ∃ f, LayerRec.keyPlace = f := ⟨_, rfl⟩
  rw [hplace]
  split
  · exact h
  · split
    · extract_lets room s1
      have hs1 : s1.Bounded bd := State.foldl_bounded (fun s x hs => by simp [hs]) h
      simp [hs1]
    · exact h

@[simp] theorem State.sendSegs_bounded (s : State) (t : Tract) (k : XKey) (gs : List Segment) : (s.sendSegs t k gs).Bounded bd ↔ s.Bounded bd := by
  unfold State.sendSegs
  refine State.foldl_bounded_iff (fun s1 x => ?_) _ _
  split <;> split <;> simp

@[simp] theorem State.rankAct_bounded {s : State} {t : Tract} {e : QEntry} {r : RouteEntry} {l : LayerRec} (h : s.Bounded bd) :
    (s.rankAct t e r l).Bounded bd := by
  unfold State.rankAct
  dsimp only
  split
  · refine State.routeDone_bounded ?_
    simp [h]
  · refine State.foldl_bounded (fun s1 x hs => ?_) ?_
    · split
      · exact State.takeKeys_bounded hs
      · simp [hs]
    · simp [h]

@[simp] theorem execRank_bounded {t : Tract} {s : State} (h : s.Bounded bd) : Result.Bounded bd (execRank t s) := by
  unfold execRank
  rw [Result.bounded_next]
  refine State.xferStart_bounded h (fun s1 x hs => ?_)
  refine State.routeStart_bounded hs (fun s2 x1 y hs1 => ?_)
  simp [hs1]

@[simp] theorem State.tallyPut_bounded {s : State} {l : LayerRec} {e : Nat} {f : List Byte → List Byte} (h : s.Bounded bd) :
    (s.tallyPut l e f).Bounded bd := by
  unfold State.tallyPut
  extract_lets key s1 bad
  have hs1 : s1.Bounded bd := by
    unfold s1
    split <;> simp [h]
  simp [hs1]

@[simp] theorem State.tally_bounded {s : State} {l : LayerRec} {e routed acc ovf : Nat} (h : s.Bounded bd) :
    (s.tally l e routed acc ovf).Bounded bd := by
  simp [State.tally, h]

@[simp] theorem State.tallyMove_bounded {s : State} {l : LayerRec} {e n : Nat} (h : s.Bounded bd) : (s.tallyMove l e n).Bounded bd := by
  simp [State.tallyMove, h]

@[simp] theorem State.rankToken_bounded {s : State} {r : RouteEntry} {k : Nat} {cuts : List (Nat × Nat × Nat)} {x : Token} (h : s.Bounded bd) :
    (s.rankToken r k cuts x).Bounded bd := by
  unfold State.rankToken
  refine State.foldl_bounded (fun s1 x1 hs => ?_) ?_
  · simp [hs]
  · exact h

@[simp] theorem State.rankEnd_bounded {s : State} {t : Tract} {r : RankRun} {st : Nat} (h : s.Bounded bd) : (s.rankEnd t r st).Bounded bd := by
  simp [State.rankEnd, h]

@[simp] theorem State.setCutRun_bounded (s : State) (c : CutRun) : (s.setCutRun c).Bounded bd ↔ s.Bounded bd := by
  simp [State.setCutRun]

@[simp] theorem State.rankOwners_bounded {s : State} {l : LayerRec} {mb : Nat} (h : s.Bounded bd) : (s.rankOwners l mb).Bounded bd := by
  unfold State.rankOwners
  extract_lets own c st cuts s1 s2 k
  have hs1 : s1.Bounded bd := by
    unfold s1
    refine State.foldl_bounded (fun s3 x hs => ?_) ?_
    · split <;> simp [hs]
    · simp [h]
  have hs2 : s2.Bounded bd := by simp [s2, hs1]
  refine State.foldl_bounded (fun s3 x hs => ?_) ?_
  · extract_lets s4 old mine
    have hs4 : s4.Bounded bd := by simp [s4, hs]
    split
    · exact hs
    · extract_lets old1 s5
      have hs5 : s5.Bounded bd := by simp [s5, hs4]
      refine State.foldl_bounded (fun s6 x1 hs3 => ?_) ?_
      · simp [hs3]
      · exact hs5
  · exact hs2

@[simp] theorem State.rankFinish_bounded {s : State} {l : LayerRec} {mb : Nat} (h : s.Bounded bd) : (s.rankFinish l mb).Bounded bd := by
  unfold State.rankFinish
  extract_lets c runs s1 s2 s3 s4 old s5
  have hs1 : s1.Bounded bd := by
    unfold s1
    refine State.foldl_bounded (fun s6 x hs => ?_) ?_
    · simp [hs]
    · exact h
  have hs2 : s2.Bounded bd := by
    unfold s2
    refine State.foldl_bounded (fun s6 x hs => ?_) ?_
    · extract_lets r s7
      have hs7 : s7.Bounded bd := by simp [s7, hs]
      refine State.foldl_bounded (fun s8 x1 hs2 => ?_) ?_
      · simp [hs2]
      · exact hs7
    · exact hs1
  have hs3 : s3.Bounded bd := by
    unfold s3
    refine State.foldl_bounded (fun s6 x hs => ?_) ?_
    · extract_lets ks
      refine State.foldl_bounded (fun s7 x1 hs3 => ?_) ?_
      · simp [hs3]
      · exact hs
    · exact hs2
  have hs4 : s4.Bounded bd := by
    unfold s4
    split
    · exact h
    · refine State.foldl_bounded (fun s6 x hs => ?_) ?_
      · simp [hs]
      · exact hs3
  have hs5 : s5.Bounded bd := by simp [s5, hs4]
  refine State.foldl_bounded (fun s6 x hs => ?_) ?_
  · simp [hs]
  · exact hs5

@[simp] theorem execRankComplete_bounded {layer mb : Nat} {s : State} (h : s.Bounded bd) : Result.Bounded bd (execRankComplete layer mb s) := by
  unfold execRankComplete
  extract_lets inUse
  rw [Result.bounded_next]
  split <;> simp [h]

@[simp] theorem State.sortTract_bounded {s : State} {t : Tract} {w : SortWait} {l : LayerRec} {rows : List SortRow} {total : Nat → Nat}
    {poison : Bool} (h : s.Bounded bd) :
    (s.sortTract t w l rows total poison).Bounded bd := by
  unfold State.sortTract
  extract_lets r rs experts body s1 s2 s3 run s4
  have hs1 : s1.Bounded bd := by
    unfold s1
    refine State.foldl_bounded (fun s5 x hs => ?_) ?_
    · simp [hs]
    · exact h
  have hs2 : s2.Bounded bd := by
    unfold s2
    refine State.foldl_bounded (fun s5 x hs => ?_) ?_
    · split <;> simp [hs]
    · exact hs1
  have hs3 : s3.Bounded bd := by
    unfold s3
    refine State.foldl_bounded (fun s5 x hs => ?_) ?_
    · extract_lets first
      split <;> simp [hs]
    · exact hs2
  have hs4 : s4.Bounded bd := by simp [s4, hs3]
  simp [h, hs4]

@[simp] theorem State.sortAll_bounded {s : State} {l : LayerRec} {ws : List (Tract × SortWait)} (h : s.Bounded bd) :
    (s.sortAll l ws).Bounded bd := by
  unfold State.sortAll
  extract_lets s1 toks rows s2 s3 numbered good total
  have hs1 : s1.Bounded bd := by
    unfold s1
    refine State.foldl_bounded (fun s4 x hs => ?_) ?_
    · simp [hs]
    · exact h
  have hs2 : s2.Bounded bd := by
    unfold s2
    refine State.foldl_bounded (fun s4 x hs => ?_) ?_
    · simp [hs]
    · exact hs1
  have hs3 : s3.Bounded bd := by simp [s3, hs2]
  split
  · refine State.foldl_bounded (fun s4 x hs => ?_) ?_
    · simp [hs]
    · exact hs3
  · refine State.foldl_bounded (fun s4 x hs => ?_) ?_
    · simp [hs]
    · exact hs3

@[simp] theorem State.sortAct_bounded {s : State} {t : Tract} {e : QEntry} {r : RouteEntry} {l : LayerRec} (h : s.Bounded bd) :
    (s.sortAct t e r l).Bounded bd := by
  simp [State.sortAct, h]

@[simp] theorem execSort_bounded {t : Tract} {s : State} (h : s.Bounded bd) : Result.Bounded bd (execSort t s) := by
  unfold execSort
  rw [Result.bounded_next]
  refine State.xferStart_bounded h (fun s1 x hs => ?_)
  refine State.routeStart_bounded hs (fun s2 x1 y hs1 => ?_)
  simp [hs1]

@[simp] theorem execScanTreeTimeout_bounded {t : Tract} {s : State} (h : s.Bounded bd) : Result.Bounded bd (execScanTreeTimeout t s) := by
  unfold execScanTreeTimeout
  rw [Result.bounded_next]
  split <;> simp [h]


end Sys2Proof.Machine
end

section
/-!
PROOFS (O2). The bounds of O2 in the landing of rows, the Transit engine, the slots, the links, the ring and the host's marks. The Transit engine
appends the entries of a row group, as many as there is room for (R180).
-/
namespace Sys2Proof.Machine

variable {bd : Bound} {lim : Limit}

/-! Of Sys2Proof/Machine/Landing.lean. -/

@[simp] theorem State.countCl_bounded (s : State) (t : Tract) {r : RegName} (high : Bool) (n : Nat) (hr : r ≠ .cmLayout) :
    (s.countCl t r high n).Bounded bd ↔ s.Bounded bd := by
  simp [State.countCl, hr]

@[simp] theorem State.closureRaise_bounded (s : State) (t : Tract) (k : XKey) (peer : Nat × Nat) (cause want had : Nat) (boundary : Bool) :
    (s.closureRaise t k peer cause want had boundary).Bounded bd ↔ s.Bounded bd := by
  simp [State.closureRaise]

@[simp] theorem State.xferDrop_bounded (s : State) (x : Exch) : (s.xferDrop x).Bounded bd ↔ s.Bounded bd := by
  simp [State.xferDrop]

@[simp] theorem State.xferComplete_bounded {s : State} {t : Tract} {id st : Nat} (h : s.Bounded bd) : (s.xferComplete t id st).Bounded bd := by
  unfold State.xferComplete
  extract_lets q
  split <;> simp [h]

@[simp] theorem State.xferEnd_bounded {s : State} {x : Exch} {st : Nat} (h : s.Bounded bd) : (s.xferEnd x st).Bounded bd := by
  simp [State.xferEnd, h]

@[simp] theorem State.excess_bounded {s : State} {x : Exch} {peer : Nat × Nat} (h : s.Bounded bd) : (s.excess x peer).Bounded bd := by
  simp [State.excess, h]

@[simp] theorem State.fillPosition_bounded {s : State} {x : Exch} {l : LayerRec} {e q : Nat} {row : List MByte} {isNull : Bool} (h : s.Bounded bd) :
    (s.fillPosition x l e q row isNull).Bounded bd := by
  unfold State.fillPosition
  extract_lets f s1 s2
  have hs1 : s1.Bounded bd := by
    unfold s1
    split <;> simp [h]
  have hs2 : s2.Bounded bd := by simp [s2, hs1]
  simp [hs2]

@[simp] theorem State.landDispatch_bounded {s : State} {t : Tract} {k : XKey} {l : LayerRec} {h : SegHdr} {n : Nat} {row : List MByte}
    {isNull : Bool} (hs : s.Bounded bd) :
    (s.landDispatch t k l h n row isNull).Bounded bd := by
  unfold State.landDispatch
  split
  · exact hs
  · split <;> simp [hs]

@[simp] theorem State.landDispatchSeg_bounded {s : State} {t : Tract} {k : XKey} {l : LayerRec} {g : Segment} (h : s.Bounded bd) :
    (s.landDispatchSeg t k l g).Bounded bd := by
  unfold State.landDispatchSeg
  extract_lets s1
  have hs1 : s1.Bounded bd := by simp [s1, h]
  split
  · refine State.foldl_bounded (fun s2 x hs => ?_) ?_
    · simp [hs]
    · exact hs1
  · refine State.foldl_bounded (fun s2 x hs => ?_) ?_
    · simp [hs]
    · exact h

@[simp] theorem State.landReturn_bounded {s : State} {t : Tract} {k : XKey} {l : LayerRec} {h : SegHdr} {row : List MByte} (hs : s.Bounded bd) :
    (s.landReturn t k l h row).Bounded bd := by
  unfold State.landReturn
  extract_lets tag pos
  split
  · exact hs
  · extract_lets f expected s1 s2
    have hs1 : s1.Bounded bd := by
      unfold s1
      split <;> simp [hs]
    have hs2 : s2.Bounded bd := by simp [s2, hs1]
    simp [hs, hs2]

@[simp] theorem State.landUnits_bounded {s : State} {t : Tract} {k : XKey} {g : Segment} (h : s.Bounded bd) : (s.landUnits t k g).Bounded bd := by
  unfold State.landUnits
  extract_lets bs lo
  split <;> simp [h]

@[simp] theorem State.rankClosure_bounded {s : State} {t : Tract} {layer mb : Nat} (h : s.Bounded bd) : (s.rankClosure t layer mb).Bounded bd := by
  unfold State.rankClosure
  extract_lets s1
  have hs1 : s1.Bounded bd := by simp [s1, h]
  split <;> simp [h, hs1]

@[simp] theorem State.landCuts_bounded {s : State} {t : Tract} {l : LayerRec} {g : Segment} (h : s.Bounded bd) :
    (s.landCuts t l g).Bounded bd := by
  simp [State.landCuts, h]

@[simp] theorem State.hear_bounded (s : State) (t : Tract) (k : XKey) (peer : Nat × Nat) : (s.hear t k peer).Bounded bd ↔ s.Bounded bd := by
  unfold State.hear
  split <;> simp

@[simp] theorem State.landSegment_bounded {s : State} {t : Tract} {g : Segment} (h : s.Bounded bd) : (s.landSegment t g).Bounded bd := by
  unfold State.landSegment
  extract_lets k s1
  have hs1 : s1.Bounded bd := by simp [s1, h]
  split
  · simp [hs1]
  · split
    · exact hs1
    · split
      · simp [hs1]
      · simp [hs1]
      · refine State.foldl_bounded (fun s2 x hs => ?_) ?_
        · simp [hs]
        · exact hs1
      · refine State.foldl_bounded (fun s2 x hs => ?_) ?_
        · simp [hs]
        · exact hs1
      · exact State.takeKeys_bounded hs1
      · simp [hs1]

@[simp] theorem State.delivered_bounded (s : State) (t : Tract) (g : Segment) : (s.delivered t g).Bounded bd ↔ s.Bounded bd := by
  unfold State.delivered
  extract_lets s1
  have hs1 : s1.Bounded bd ↔ s.Bounded bd := by simp [s1]
  split
  · exact Iff.rfl
  · split <;> simp [hs1]

@[simp] theorem State.combineFinish_bounded {s : State} {x : Exch} {l : LayerRec} (h : s.Bounded bd) : (s.combineFinish x l).Bounded bd := by
  unfold State.combineFinish
  extract_lets f toks rows s1 s2 s3 s4
  have hs1 : s1.Bounded bd := by simp [s1, h]
  have hs2 : s2.Bounded bd := by
    unfold s2
    refine State.foldl_bounded (fun s5 x1 hs => ?_) ?_
    · split
      · exact hs
      · refine State.foldl_bounded (fun s6 x2 hs2 => ?_) ?_
        · simp [hs2]
        · exact hs
    · exact hs1
  have hs3 : s3.Bounded bd := by
    unfold s3
    refine State.foldl_bounded (fun s5 x1 hs => ?_) ?_
    · simp [hs]
    · exact hs2
  have hs4 : s4.Bounded bd := by simp [s4, hs3]
  simp [hs4]

@[simp] theorem State.dispatchFinish_bounded {s : State} {x : Exch} (h : s.Bounded bd) : (s.dispatchFinish x).Bounded bd := by
  simp [State.dispatchFinish, h]

@[simp] theorem State.collFinish_bounded {s : State} {x : Exch} {c : CollEntry} {m : Nat} (h : s.Bounded bd) :
    (s.collFinish x c m).Bounded bd := by
  unfold State.collFinish
  extract_lets dst
  split
  · extract_lets s1 s2
    have hs1 : s1.Bounded bd := by
      unfold s1
      refine State.foldl_bounded (fun s3 x1 hs => ?_) ?_
      · extract_lets key
        split
        · simp [hs]
        · split <;> simp [hs]
      · exact h
    have hs2 : s2.Bounded bd := by simp [s2, hs1]
    simp [hs2]

@[simp] theorem State.xferFinish_bounded {s : State} {x : Exch} (h : s.Bounded bd) : (s.xferFinish x).Bounded bd := by
  unfold State.xferFinish
  extract_lets c
  split
  · simp [h]
  · simp [h]
  · split <;> simp [h]
  · split <;> simp [h]
  · simp [h]
  · exact h

@[simp] theorem State.xferCheck_bounded {s : State} {t : Tract} {k : XKey} (h : s.Bounded bd) : (s.xferCheck t k).Bounded bd := by
  unfold State.xferCheck
  split
  · exact h
  · split
    · exact h
    · split
      · simp [h]
      · split <;> simp [h]

/-! Of Sys2Proof/Machine/Transit.lean. -/

@[simp] theorem State.xferFail_bounded {s : State} {t : Tract} {id st : Nat} (h : s.Bounded bd) : (s.xferFail t id st).Bounded bd := by
  unfold State.xferFail
  extract_lets q
  split <;> simp [h]

@[simp] theorem State.beginExch_bounded (s : State) (x : Exch) : (s.beginExch x).Bounded bd ↔ s.Bounded bd := by
  simp [State.beginExch]

@[simp] theorem State.attempt_bounded {s : State} {t : Tract} {k : XKey} {g : Segment} (h : s.Bounded bd) : (s.attempt t k g).Bounded bd := by
  unfold State.attempt
  extract_lets n s1 s2
  have hs1 : s1.Bounded bd := by simp [s1, h]
  have hs2 : s2.Bounded bd := by
    unfold s2
    split <;> simp [hs1]
  simp [hs2]

@[simp] theorem State.touchSend_bounded {s : State} {t : Tract} {r : SortRun} {rowb : Nat} (h : s.Bounded bd) :
    (s.touchSend t r rowb).Bounded bd := by
  unfold State.touchSend
  refine State.foldl_bounded (fun s1 x hs => ?_) ?_
  · extract_lets at_ d
    refine State.foldl_bounded (fun s2 x1 hs1 => ?_) ?_
    · extract_lets n
      split <;> simp [hs1]
    · simp [hs]
  · exact h

@[simp] theorem State.touchBases_bounded {s : State} {t : Tract} {l : LayerRec} {f : XferEntry} {keys held : Nat} {bases : List BaseEnt}
    (h : s.Bounded bd) : (s.touchBases t l f keys held bases).Bounded bd := by
  obtain ⟨g, hg⟩ : ∃ g, @State.touchBases = g := ⟨_, rfl⟩
  obtain ⟨place, hplace⟩ : ∃ f, LayerRec.keyPlace = f := ⟨_, rfl⟩
  rw [hg]
  delta State.touchBases at hg
  rw [hplace] at hg
  subst hg
  dsimp only
  split
  · exact h
  · split
    · refine State.foldl_bounded (fun s1 x hs => ?_) (by simp [h])
      split
      · exact hs
      · refine State.foldl_bounded (fun s2 x1 hs1 => ?_) hs
        split <;> simp [hs1]
    · exact State.foldl_bounded (fun s1 x hs => by simp [hs]) (by simp [h])

@[simp] theorem State.dispatchAct_bounded {s : State} {t : Tract} {e : QEntry} (h : s.Bounded bd) : (s.dispatchAct t e).Bounded bd := by
  unfold State.dispatchAct
  extract_lets f run keys held k old
  split
  · simp [h]
  · extract_lets bases segs want nulls s1 s2 s3 s4 s5 s6 s7
    have hs1 : s1.Bounded bd := by
      unfold s1
      exact State.touchBases_bounded h
    have hs2 : s2.Bounded bd := by
      unfold s2
      split <;> simp [hs1]
    have hs3 : s3.Bounded bd := by simp [s3, hs2]
    have hs4 : s4.Bounded bd := by
      unfold s4
      split
      · exact hs2
      · split
        · refine State.foldl_bounded (fun s8 x hs => ?_) ?_
          · simp [hs]
          · exact hs3
        · exact hs3
    have hs5 : s5.Bounded bd := by simp [s5, hs4]
    have hs6 : s6.Bounded bd := by simp [s6, hs5]
    have hs7 : s7.Bounded bd := by
      unfold s7
      refine State.foldl_bounded (fun s8 x hs => ?_) ?_
      · split <;> simp [hs]
      · exact hs6
    split
    · simp [h]
    · split
      · refine State.xferCheck_bounded ?_
        refine State.foldl_bounded (fun s8 x hs => ?_) ?_
        · simp [hs]
        · exact hs7
      · simp [h]

@[simp] theorem execDispatch_bounded {t : Tract} {s : State} (h : s.Bounded bd) : Result.Bounded bd (execDispatch t s) := by
  unfold execDispatch
  rw [Result.bounded_next]
  refine State.xferStart_bounded h (fun s1 x hs => ?_)
  simp [hs]

@[simp] theorem State.touchReturns_bounded {s : State} {t : Tract} {f : XferEntry} {l : LayerRec} {bases : List BaseEnt} {spread : Nat}
    (h : s.Bounded bd) :
    (s.touchReturns t f l bases spread).Bounded bd := by
  unfold State.touchReturns
  extract_lets s1
  have hs1 : s1.Bounded bd := by
    unfold s1
    split <;> simp [h]
  refine State.foldl_bounded (fun s2 x hs => ?_) ?_
  · split
    · exact hs
    · refine State.foldl_bounded (fun s3 x1 hs2 => ?_) ?_
      · split <;> simp [hs2]
      · exact hs
  · exact hs1

@[simp] theorem State.combineAct_bounded {s : State} {t : Tract} {e : QEntry} (h : s.Bounded bd) : (s.combineAct t e).Bounded bd := by
  unfold State.combineAct
  extract_lets f k old
  split
  · simp [h]
  · extract_lets want
    split
    · simp [h]
    · split
      · simp [h]
      · split
        · simp [h]
        · extract_lets bases rows s1 s2 s3 dests
          have hs1 : s1.Bounded bd := by simp [s1, h]
          have hs2 : s2.Bounded bd := by simp [s2, hs1]
          have hs3 : s3.Bounded bd := by simp [s3, hs2]
          split
          · simp [h]
          · split
            · simp [h]
            · refine State.xferCheck_bounded ?_
              refine State.foldl_bounded (fun s4 x hs => ?_) ?_
              · refine State.foldl_bounded (fun s5 x1 hs4 => ?_) ?_
                · simp [hs4]
                · exact hs
              · exact hs3

@[simp] theorem execCombine_bounded {t : Tract} {s : State} (h : s.Bounded bd) : Result.Bounded bd (execCombine t s) := by
  unfold execCombine
  rw [Result.bounded_next]
  refine State.xferStart_bounded h (fun s1 x hs => ?_)
  simp [hs]

@[simp] theorem State.collAct_bounded {s : State} {t : Tract} {e : QEntry} (h : s.Bounded bd) : (s.collAct t e).Bounded bd := by
  unfold State.collAct
  extract_lets c own ms m rank src sends k input s1 old s2 s3 own_ s4 s5
  have hs1 : s1.Bounded bd := by simp [s1, h]
  have hs2 : s2.Bounded bd := by simp [s2, hs1]
  have hs3 : s3.Bounded bd := by simp [s3, hs2]
  have hs4 : s4.Bounded bd := by simp [s4, hs3]
  have hs5 : s5.Bounded bd := by
    unfold s5
    split
    · exact hs4
    · refine State.foldl_bounded (fun s6 x hs => ?_) ?_
      · extract_lets old1 h1
        refine State.foldl_bounded (fun s7 x1 hs5 => ?_) ?_
        · simp [hs5]
        · exact hs
      · exact hs4
  simp [h, hs5]

@[simp] theorem State.collStart_bounded {s : State} {t : Tract} {op : Nat} (h : s.Bounded bd) : (s.collStart t op).Bounded bd := by
  unfold State.collStart
  refine State.xferStart_bounded h (fun s1 x hs => ?_)
  simp [hs]

@[simp] theorem execRscat_bounded {t : Tract} {s : State} (h : s.Bounded bd) : Result.Bounded bd (execRscat t s) := by
  simp [execRscat, h]

@[simp] theorem execAgath_bounded {t : Tract} {s : State} (h : s.Bounded bd) : Result.Bounded bd (execAgath t s) := by
  simp [execAgath, h]

@[simp] theorem execBcast_bounded {t : Tract} {s : State} (h : s.Bounded bd) : Result.Bounded bd (execBcast t s) := by
  simp [execBcast, h]

@[simp] theorem execGnorm_bounded {t : Tract} {s : State} (h : s.Bounded bd) : Result.Bounded bd (execGnorm t s) := by
  simp [execGnorm, h]

@[simp] theorem execCreditUnit_bounded {dst : Tract} {src : CreditSrc} {s : State} (h : s.Bounded bd) :
    Result.Bounded bd (execCreditUnit dst src s) := by
  unfold execCreditUnit
  extract_lets s1 l put
  have hs1 : s1.Bounded bd := by simp [s1, h]
  rw [Result.bounded_next]
  split
  · exact hs1
  · extract_lets n k s2 s3 s4
    have hs2 : s2.Bounded bd := by
      unfold s2
      split <;> simp [hs1]
    have hs3 : s3.Bounded bd := by simp [s3, put, hs2]
    have hs4 : s4.Bounded bd := by
      unfold s4
      split <;> simp [hs3]
    simp [put, hs2, hs4]

@[simp] theorem execTileEntryWrite_bounded {p : ParcelId} {s : State} (h : s.Bounded (.limit lim)) :
    Result.Bounded (.limit lim) (execTileEntryWrite p s) := by
  unfold execTileEntryWrite
  extract_lets room
  rw [Result.bounded_next]
  split
  · exact h
  · rename_i x g _
    extract_lets es s1 others s2
    have hs1 : s1.Bounded (.limit lim) := by
      refine State.tileAppend_bounded h (fun hl => ?_)
      subst hl
      refine State.room_of_tileFree h ?_
      rw [List.length_map]
      exact List.length_take_le _ _
    simp [s2, hs1]

@[simp] theorem execTileOverflow_bounded {p : ParcelId} {s : State} (h : s.Bounded bd) : Result.Bounded bd (execTileOverflow p s) := by
  unfold execTileOverflow
  rw [Result.bounded_next]
  split <;> simp [h]

@[simp] theorem execExchangeTimeout_bounded {t : Tract} {k : Nat} {s : State} (h : s.Bounded bd) : Result.Bounded bd (execExchangeTimeout t k s) := by
  unfold execExchangeTimeout
  extract_lets q d
  rw [Result.bounded_next]
  split
  · exact h
  · split
    · extract_lets r
      split <;> simp [h]
    · simp [h]

@[simp] theorem execRankPeerTimeout_bounded {t : Tract} {layer mb : Nat} {s : State} (h : s.Bounded bd) :
    Result.Bounded bd (execRankPeerTimeout t layer mb s) := by
  unfold execRankPeerTimeout
  rw [Result.bounded_next]
  split
  · exact h
  · split <;> simp [h]

/-! Of Sys2Proof/Machine/Slots.lean. -/

@[simp] theorem State.setSends_bounded (s : State) (p : Port) (l : List SlotSend) : (s.setSends p l).Bounded bd ↔ s.Bounded bd := by
  simp [State.setSends]

@[simp] theorem State.dropSend_bounded (s : State) (p : Port) (inst : Nat) : (s.dropSend p inst).Bounded bd ↔ s.Bounded bd := by
  simp [State.dropSend]

@[simp] theorem State.putSend_bounded (s : State) (p : Port) (w : SlotSend) : (s.putSend p w).Bounded bd ↔ s.Bounded bd := by
  simp [State.putSend]

@[simp] theorem State.modSeen_bounded (s : State) (p : Port) (f : SlotSeen → SlotSeen) : (s.modSeen p f).Bounded bd ↔ s.Bounded bd := by
  simp [State.modSeen]

@[simp] theorem State.setRelays_bounded (s : State) (d : Fin 8) (l : List RelayItem) : (s.setRelays d l).Bounded bd ↔ s.Bounded bd := by
  simp [State.setRelays]

@[simp] theorem execSlotStage_bounded {p : Port} {inst : Nat} {s : State} (h : s.Bounded bd) : Result.Bounded bd (execSlotStage p inst s) := by
  unfold execSlotStage
  extract_lets l
  rw [Result.bounded_next]
  split
  · exact h
  · split
    · exact h
    · extract_lets base i
      split
      · split
        · exact h
        · split <;> simp [h]
      · split
        · exact h
        · split
          · exact h
          · split
            split <;> simp [h]

@[simp] theorem State.overflowSeg_bounded {s : State} {t : Tract} {k : XKey} {g : Segment} (h : s.Bounded bd) :
    (s.overflowSeg t k g).Bounded bd := by
  unfold State.overflowSeg
  obtain ⟨parcelOf, hparcel⟩ : ∃ f, keyParcel = f := ⟨_, rfl⟩
  rw [hparcel]
  split
  · extract_lets f s1 n s2
    have hs1 : s1.Bounded bd := by
      refine State.foldl_bounded (fun s3 x hs => ?_) h
      extract_lets pc
      split <;> simp [hs]
    have hs2 : s2.Bounded bd := by simp [s2, hs1]
    split <;> simp [hs2]
  · exact h

@[simp] theorem State.overflowRows_bounded {s : State} {t : Tract} {k : XKey} {dmod : Nat} (h : s.Bounded bd) :
    (s.overflowRows t k dmod).Bounded bd := by
  unfold State.overflowRows
  extract_lets hit
  split
  · exact h
  · extract_lets s1
    have hs1 : s1.Bounded bd := by simp [s1, h]
    refine State.xferCheck_bounded ?_
    refine State.foldl_bounded (fun s2 x hs => ?_) ?_
    · exact State.overflowSeg_bounded hs
    · exact hs1

@[simp] theorem State.returnContent_bounded {s : State} {p : Port} {w : SlotSend} (h : s.Bounded bd) : (s.returnContent p w).Bounded bd := by
  unfold State.returnContent
  extract_lets s1
  have hs1 : s1.Bounded bd := by simp [s1, h]
  split
  · simp [hs1]
  · split <;> simp [hs1]

@[simp] theorem State.slackEnds_bounded {s : State} {p : Port} {inst : Nat} (h : s.Bounded bd) : (s.slackEnds p inst).Bounded bd := by
  unfold State.slackEnds
  refine State.foldl_bounded (fun s1 x hs => ?_) ?_
  · split <;> simp [hs]
  · exact h

@[simp] theorem execSlotFreeze_bounded {p : Port} {inst : Nat} {staged : Bool} {s : State} (h : s.Bounded bd) :
    Result.Bounded bd (execSlotFreeze p inst staged s) := by
  unfold execSlotFreeze
  extract_lets up
  rw [Result.bounded_next]
  split
  · exact h
  · extract_lets mark
    split <;> simp [mark, h]

@[simp] theorem execSlotTransmit_bounded {p : Port} {inst : Nat} {s : State} (h : s.Bounded bd) : Result.Bounded bd (execSlotTransmit p inst s) := by
  unfold execSlotTransmit
  extract_lets up
  rw [Result.bounded_next]
  split
  · exact h
  · split <;> simp [h]

@[simp] theorem execContentFrame_bounded {p : Port} {h : FrameHdr} {segs : List Segment} {s : State} (hs : s.Bounded bd) :
    Result.Bounded bd (execContentFrame p h segs s) := by
  unfold execContentFrame
  rw [Result.bounded_next]
  split
  · exact hs
  · split
    · split
      · simp [hs]
      · extract_lets s1
        have hs1 : s1.Bounded bd := by
          unfold s1
          split
          · simp [hs]
          · refine State.foldl_bounded (fun s2 x hs1 => ?_) ?_
            · split <;> simp [hs1]
            · exact hs
        simp [hs1]

@[simp] theorem execEmptyFrame_bounded {p : Port} {f : FrameHdr} {s : State} (h : s.Bounded bd) : Result.Bounded bd (execEmptyFrame p f s) := by
  simp [execEmptyFrame, h]

@[simp] theorem State.ackContent_bounded {s : State} {w : SlotSend} (h : s.Bounded bd) : (s.ackContent w).Bounded bd := by
  unfold State.ackContent
  split
  · exact h
  · extract_lets s1
    have hs1 : s1.Bounded bd := by
      unfold s1
      refine State.foldl_bounded (fun s2 x hs => ?_) ?_
      · simp [hs]
      · exact h
    simp [hs1]

@[simp] theorem execSack_bounded {p : Port} {table inst step code : Nat} {s : State} (h : s.Bounded bd) :
    Result.Bounded bd (execSack p table inst step code s) := by
  unfold execSack
  rw [Result.bounded_next]
  split
  · exact h
  · extract_lets s1 s2 old
    have hs1 : s1.Bounded bd := by
      unfold s1
      split
      · refine State.foldl_bounded (fun s3 x hs => ?_) ?_
        · simp [hs]
        · exact h
      · exact h
    have hs2 : s2.Bounded bd := by simp [s2, hs1]
    simp [h, hs2]

@[simp] theorem State.linkFaultOf_bounded {s : State} {t : Tract} {k : XKey} (h : s.Bounded bd) : (s.linkFaultOf t k).Bounded bd := by
  unfold State.linkFaultOf
  extract_lets q
  split
  · exact h
  · extract_lets s1
    have hs1 : s1.Bounded bd := by simp [s1, h]
    split
    · simp [h]
    · split <;> simp [hs1]

@[simp] theorem State.linkFaults_bounded {s : State} {p : Port} (h : s.Bounded bd) : (s.linkFaults p).Bounded bd := by
  unfold State.linkFaults
  extract_lets l s1
  have hs1 : s1.Bounded bd := by simp [s1, h]
  refine State.foldl_bounded (fun s2 x hs => ?_) ?_
  · split <;> simp [hs]
  · exact hs1

/-! Of Sys2Proof/Machine/Links.lean. -/

@[simp] theorem State.setPort_bounded (s : State) (p : Port) (st : Nat) : (s.setPort p st).Bounded bd ↔ s.Bounded bd := by
  simp [State.setPort]

@[simp] theorem State.judgePort_bounded (s : State) (p : Port) (m : ParamMsg) : (s.judgePort p m).Bounded bd ↔ s.Bounded bd := by
  simp [State.judgePort]

@[simp] theorem State.linksReeval_bounded (s : State) : (s.linksReeval).Bounded bd ↔ s.Bounded bd := by
  unfold State.linksReeval
  refine State.foldl_bounded_iff (fun s1 x => ?_) _ _
  split
  · exact Iff.rfl
  · dsimp only
    split <;> simp

@[simp] theorem State.trainTo_bounded (s : State) (p : Port) (n : Nat) : (s.trainTo p n).Bounded bd ↔ s.Bounded bd := by
  simp [State.trainTo]

@[simp] theorem execLinkDetect_bounded {p : Port} {s : State} (h : s.Bounded bd) : Result.Bounded bd (execLinkDetect p s) := by
  simp [execLinkDetect, h]

@[simp] theorem execLinkUp_bounded {p : Port} {m : ParamMsg} {s : State} (h : s.Bounded bd) : Result.Bounded bd (execLinkUp p m s) := by
  simp [execLinkUp, h]

@[simp] theorem State.forgetBuffer_bounded (s : State) (p : Port) : (s.forgetBuffer p).Bounded bd ↔ s.Bounded bd := by
  simp [State.forgetBuffer]

@[simp] theorem State.memLost_bounded (s : State) (p : Port) : (s.memLost p).Bounded bd ↔ s.Bounded bd := by
  unfold State.memLost
  extract_lets own s1 lost s2 s3 old
  have hs1 : s1.Bounded bd ↔ s.Bounded bd := by
    unfold s1
    refine State.foldl_bounded_iff (fun s4 x => ?_) _ _
    simp
  have hs2 : s2.Bounded bd ↔ s.Bounded bd := by simp [s2, hs1]
  have hs3 : s3.Bounded bd ↔ s.Bounded bd := by
    unfold s3
    refine (State.foldl_bounded_iff (fun s4 x => ?_) _ _).trans ?_
    · split <;> simp
    · exact hs2
  simp [hs3]

@[simp] theorem State.dropPort_bounded {s : State} {p : Port} {cause : Nat} (h : s.Bounded bd) : (s.dropPort p cause).Bounded bd := by
  unfold State.dropPort
  extract_lets auto s1 s2 s3 s4 old s5 old1
  have hs1 : s1.Bounded bd := by simp [s1, h]
  have hs2 : s2.Bounded bd := by simp [s2, hs1]
  have hs3 : s3.Bounded bd := by simp [s3, hs2]
  have hs4 : s4.Bounded bd := by
    unfold s4
    refine State.foldl_bounded (fun s6 x hs => ?_) ?_
    · simp [hs]
    · exact hs3
  have hs5 : s5.Bounded bd := by simp [s5, hs4]
  simp [hs5]

@[simp] theorem State.takeDown_bounded {s : State} {p : Port} {cause : Nat} (h : s.Bounded bd) : (s.takeDown p cause).Bounded bd := by
  simp [State.takeDown, h]

@[simp] theorem execPortDown_bounded {p : Port} {s : State} (h : s.Bounded bd) : Result.Bounded bd (execPortDown p s) := by
  simp [execPortDown, h]

@[simp] theorem execResendLimit_bounded {p : Port} {seq : Nat} {s : State} (h : s.Bounded bd) : Result.Bounded bd (execResendLimit p seq s) := by
  simp [execResendLimit, h]

@[simp] theorem execAckProgressTimeout_bounded {p : Port} {s : State} (h : s.Bounded bd) : Result.Bounded bd (execAckProgressTimeout p s) := by
  simp [execAckProgressTimeout, h]

@[simp] theorem execWindowFullTimeout_bounded {p : Port} {s : State} (h : s.Bounded bd) : Result.Bounded bd (execWindowFullTimeout p s) := by
  simp [execWindowFullTimeout, h]

@[simp] theorem execSlotAckTimeout_bounded {p : Port} {inst : Nat} {s : State} (h : s.Bounded bd) :
    Result.Bounded bd (execSlotAckTimeout p inst s) := by
  unfold execSlotAckTimeout
  rw [Result.bounded_next]
  split <;> simp [h]

@[simp] theorem execFrameIncompleteTimeout_bounded {p : Port} {inst : Nat} {s : State} (h : s.Bounded bd) :
    Result.Bounded bd (execFrameIncompleteTimeout p inst s) := by
  simp [execFrameIncompleteTimeout, h]

@[simp] theorem State.relayMgmt_bounded (s : State) (p : Port) (m : List Byte) : (s.relayMgmt p m).Bounded bd ↔ s.Bounded bd := by
  unfold State.relayMgmt
  extract_lets dmod bits taken
  have htaken : taken.Bounded bd ↔ s.Bounded bd := by simp [taken]
  split
  · exact htaken
  · split <;> simp [htaken]

@[simp] theorem execFlitReceive_bounded {p : Port} {f : Flit} {s : State} (h : s.Bounded bd) : Result.Bounded bd (execFlitReceive p f s) := by
  unfold execFlitReceive
  extract_lets w seq vc l r
  rw [Result.bounded_next]
  split
  · exact h
  · split
    · simp [h]
    · split
      · exact h
      · split
        · exact h
        · split
          · exact h
          · refine State.foldl_bounded (fun s1 x hs => ?_) ?_
            · simp [hs]
            · simp [h]

@[simp] theorem execCtrlFlit_bounded {p : Port} {f : CtrlFlit} {s : State} (h : s.Bounded bd) : Result.Bounded bd (execCtrlFlit p f s) := by
  simp [execCtrlFlit, h]

@[simp] theorem execFlitSend_bounded {p : Port} {s : State} (h : s.Bounded bd) : Result.Bounded bd (execFlitSend p s) := by
  unfold execFlitSend
  extract_lets l ctrl has
  have hctrl : ctrl.Bounded bd := by simp [ctrl, h]
  rw [Result.bounded_next]
  split
  · exact h
  · split
    · exact hctrl
    · split
      · simp [h]
      · split
        · exact hctrl
        · split <;> simp [h, hctrl]

@[simp] theorem execParam_bounded {p : Port} {m : ParamMsg} {s : State} (h : s.Bounded bd) : Result.Bounded bd (execParam p m s) := by
  simp [execParam, h]

@[simp] theorem execDownreq_bounded {p : Port} {s : State} (h : s.Bounded bd) : Result.Bounded bd (execDownreq p s) := by
  simp [execDownreq, h]

@[simp] theorem State.linkDownPut_bounded {s : State} {p : Port} (h : s.Bounded bd) : (s.linkDownPut p).Bounded bd := by
  simp [State.linkDownPut, h]

@[simp] theorem execLinkCtlDown_bounded {p : Port} {s : State} (h : s.Bounded bd) : Result.Bounded bd (execLinkCtlDown p s) := by
  unfold execLinkCtlDown
  rw [Result.bounded_next]
  refine State.atReg_bounded h (fun s1 hs => ?_)
  simp [hs]

@[simp] theorem execAbortNotice_bounded {smod seq : Nat} {s : State} (h : s.Bounded bd) : Result.Bounded bd (execAbortNotice smod seq s) := by
  simp [execAbortNotice, h]

/-! Of Sys2Proof/Machine/Ring.lean. -/

@[simp] theorem State.setRing_bounded (s : State) (st : Nat) : (s.setRing st).Bounded bd ↔ s.Bounded bd := by
  simp [State.setRing]

@[simp] theorem State.forwardTime_bounded (s : State) (f : TimeFrame) : (s.forwardTime f).Bounded bd ↔ s.Bounded bd := by
  simp [State.forwardTime]

@[simp] theorem State.takeTime_bounded (s : State) (f : TimeFrame) : (s.takeTime f).Bounded bd ↔ s.Bounded bd := by
  simp [State.takeTime]

@[simp] theorem execTimeFrame_bounded {f : TimeFrame} {s : State} (h : s.Bounded bd) : Result.Bounded bd (execTimeFrame f s) := by
  unfold execTimeFrame
  extract_lets home
  have hhome : home.Bounded bd := by simp [home, h]
  rw [Result.bounded_next]
  split
  · simp [h]
  · split
    · simp [h, hhome]
    · split <;> simp [h]

@[simp] theorem execSideFrame_bounded {f : SideFrame} {s : State} (h : s.Bounded bd) : Result.Bounded bd (execSideFrame f s) := by
  simp [execSideFrame, h]

@[simp] theorem execMasterTimeSend_bounded {s : State} (h : s.Bounded bd) : Result.Bounded bd (execMasterTimeSend s) := by
  simp [execMasterTimeSend, h]

@[simp] theorem execTimexferPeriod_bounded {s : State} (h : s.Bounded bd) : Result.Bounded bd (execTimexferPeriod s) := by
  simp [execTimexferPeriod, h]

@[simp] theorem execTimexfer_bounded {p : Port} {m : TimeXfer} {s : State} (h : s.Bounded bd) : Result.Bounded bd (execTimexfer p m s) := by
  unfold execTimexfer
  extract_lets mine old s1 d
  have hs1 : s1.Bounded bd := by simp [s1, h]
  rw [Result.bounded_next]
  split
  · exact h
  · split <;> simp [h, hs1]

@[simp] theorem execHoldover_bounded {s : State} (h : s.Bounded bd) : Result.Bounded bd (execHoldover s) := by
  simp [execHoldover, h]

@[simp] theorem execTimeLost_bounded {s : State} (h : s.Bounded bd) : Result.Bounded bd (execTimeLost s) := by
  simp [execTimeLost, h]

/-! Of Sys2Proof/Machine/MarkHost.lean. -/

@[simp] theorem State.rewriteMark_bounded {s : State} {p : ParcelId} {n : BitVec 10} {w : Word} (h : s.Bounded bd) :
    (s.rewriteMark p n w).Bounded bd := by
  unfold State.rewriteMark
  extract_lets u others s1 m s2
  have hs1 : s1.Bounded bd := (State.foldl_bounded_iff (fun s x => State.freeze_bounded s p x) _ s).2 h
  have hs2 : s2.Bounded bd := by simp [s2, m, hs1]
  simp [hs2]

@[simp] theorem State.markHwrAct_bounded {s : State} {p : ParcelId} {value : DWord} (h : s.Bounded bd) : (s.markHwrAct p value).Bounded bd := by
  unfold State.markHwrAct
  extract_lets n v s'
  have hs' : s'.Bounded bd := by simp [s', h]
  split
  · simp [h]
  · split <;> simp [hs']

@[simp] theorem State.markHwrPut_bounded {s : State} {p : ParcelId} {value : DWord} {size : Nat} (h : s.Bounded bd) :
    (s.markHwrPut p value size).Bounded bd := by
  simp [State.markHwrPut, h]

@[simp] theorem execMarkHwr_bounded {p : ParcelId} {value : DWord} {s : State} (h : s.Bounded bd) : Result.Bounded bd (execMarkHwr p value s) := by
  unfold execMarkHwr
  rw [Result.bounded_next]
  refine State.atReg_bounded h (fun s1 hs => ?_)
  simp [hs]

@[simp] theorem State.markBcfgPut_bounded {s : State} {p : ParcelId} {b v size : Nat} (h : s.Bounded bd) :
    (s.markBcfgPut p b v size).Bounded bd := by
  simp [State.markBcfgPut, h]

@[simp] theorem execMarkBcfgWrite_bounded {p : ParcelId} {b : Fin 32} {value : DWord} {s : State} (h : s.Bounded bd) :
    Result.Bounded bd (execMarkBcfgWrite p b value s) := by
  unfold execMarkBcfgWrite
  rw [Result.bounded_next]
  refine State.atReg_bounded h (fun s1 hs => ?_)
  simp [hs]


end Sys2Proof.Machine
end

section
/-!
PROOFS (O2). The bounds of O2 in the scalar instructions, snapshots, step boundaries, home agents, errors and boot. Cores and lists are emptied
here; after a module reset the four limits hold whatever held before.
-/
namespace Sys2Proof.Machine

variable {bd : Bound} {lim : Limit}

/-! Of Sys2Proof/Machine/Scalar.lean. -/

theorem scalarR_bounded {i : Issue} {f : FmtR} {op : Word → Word → Word} {s : State} (h : s.Bounded bd) :
    Result.Bounded bd (scalarR i f op s) := by
  simp [scalarR, h]

theorem scalarR1_bounded {i : Issue} {f : FmtR} {op : Word → Word} {s : State} (h : s.Bounded bd) : Result.Bounded bd (scalarR1 i f op s) := by
  simp [scalarR1, h]

theorem scalarI_bounded {i : Issue} {f : FmtI} {bad : Bool} {op : Word → BitVec 8 → Word} {s : State} (h : s.Bounded bd) :
    Result.Bounded bd (scalarI i f bad op s) := by
  simp [scalarI, h]

theorem scalarIX_bounded {i : Issue} {f : FmtIX} {op : Word → Word → Word} {s : State} (h : s.Bounded bd) :
    Result.Bounded bd (scalarIX i f op s) := by
  simp [scalarIX, h]

@[simp] theorem execAdd_bounded {i : Issue} {f : FmtR} {s : State} (h : s.Bounded bd) : Result.Bounded bd (execAdd i f s) :=
  State.asSpelled_bounded h (scalarR_bounded h)

@[simp] theorem execSub_bounded {i : Issue} {f : FmtR} {s : State} (h : s.Bounded bd) : Result.Bounded bd (execSub i f s) :=
  State.asSpelled_bounded h (scalarR_bounded h)

@[simp] theorem execAnd_bounded {i : Issue} {f : FmtR} {s : State} (h : s.Bounded bd) : Result.Bounded bd (execAnd i f s) :=
  State.asSpelled_bounded h (scalarR_bounded h)

@[simp] theorem execOr_bounded {i : Issue} {f : FmtR} {s : State} (h : s.Bounded bd) : Result.Bounded bd (execOr i f s) :=
  State.asSpelled_bounded h (scalarR_bounded h)

@[simp] theorem execXor_bounded {i : Issue} {f : FmtR} {s : State} (h : s.Bounded bd) : Result.Bounded bd (execXor i f s) :=
  State.asSpelled_bounded h (scalarR_bounded h)

@[simp] theorem execShl_bounded {i : Issue} {f : FmtR} {s : State} (h : s.Bounded bd) : Result.Bounded bd (execShl i f s) :=
  State.asSpelled_bounded h (scalarR_bounded h)

@[simp] theorem execShr_bounded {i : Issue} {f : FmtR} {s : State} (h : s.Bounded bd) : Result.Bounded bd (execShr i f s) :=
  State.asSpelled_bounded h (scalarR_bounded h)

@[simp] theorem execSra_bounded {i : Issue} {f : FmtR} {s : State} (h : s.Bounded bd) : Result.Bounded bd (execSra i f s) :=
  State.asSpelled_bounded h (scalarR_bounded h)

@[simp] theorem execMul_bounded {i : Issue} {f : FmtR} {s : State} (h : s.Bounded bd) : Result.Bounded bd (execMul i f s) :=
  State.asSpelled_bounded h (scalarR_bounded h)

@[simp] theorem execMulhu_bounded {i : Issue} {f : FmtR} {s : State} (h : s.Bounded bd) : Result.Bounded bd (execMulhu i f s) :=
  State.asSpelled_bounded h (scalarR_bounded h)

@[simp] theorem execMulhs_bounded {i : Issue} {f : FmtR} {s : State} (h : s.Bounded bd) : Result.Bounded bd (execMulhs i f s) :=
  State.asSpelled_bounded h (scalarR_bounded h)

@[simp] theorem execMin_bounded {i : Issue} {f : FmtR} {s : State} (h : s.Bounded bd) : Result.Bounded bd (execMin i f s) :=
  State.asSpelled_bounded h (scalarR_bounded h)

@[simp] theorem execMax_bounded {i : Issue} {f : FmtR} {s : State} (h : s.Bounded bd) : Result.Bounded bd (execMax i f s) :=
  State.asSpelled_bounded h (scalarR_bounded h)

@[simp] theorem execMinu_bounded {i : Issue} {f : FmtR} {s : State} (h : s.Bounded bd) : Result.Bounded bd (execMinu i f s) :=
  State.asSpelled_bounded h (scalarR_bounded h)

@[simp] theorem execMaxu_bounded {i : Issue} {f : FmtR} {s : State} (h : s.Bounded bd) : Result.Bounded bd (execMaxu i f s) :=
  State.asSpelled_bounded h (scalarR_bounded h)

@[simp] theorem execClz_bounded {i : Issue} {f : FmtR} {s : State} (h : s.Bounded bd) : Result.Bounded bd (execClz i f s) :=
  State.asSpelled_bounded h (scalarR1_bounded h)

@[simp] theorem execPopc_bounded {i : Issue} {f : FmtR} {s : State} (h : s.Bounded bd) : Result.Bounded bd (execPopc i f s) :=
  State.asSpelled_bounded h (scalarR1_bounded h)

@[simp] theorem execExtu_bounded {i : Issue} {f : FmtR} {s : State} (h : s.Bounded bd) : Result.Bounded bd (execExtu i f s) :=
  State.asSpelled_bounded h (scalarR_bounded h)

@[simp] theorem execAddi_bounded {i : Issue} {f : FmtI} {s : State} (h : s.Bounded bd) : Result.Bounded bd (execAddi i f s) :=
  State.asSpelled_bounded h (scalarI_bounded h)

@[simp] theorem execAndi_bounded {i : Issue} {f : FmtI} {s : State} (h : s.Bounded bd) : Result.Bounded bd (execAndi i f s) :=
  State.asSpelled_bounded h (scalarI_bounded h)

@[simp] theorem execOri_bounded {i : Issue} {f : FmtI} {s : State} (h : s.Bounded bd) : Result.Bounded bd (execOri i f s) :=
  State.asSpelled_bounded h (scalarI_bounded h)

@[simp] theorem execXori_bounded {i : Issue} {f : FmtI} {s : State} (h : s.Bounded bd) : Result.Bounded bd (execXori i f s) :=
  State.asSpelled_bounded h (scalarI_bounded h)

@[simp] theorem execShli_bounded {i : Issue} {f : FmtI} {s : State} (h : s.Bounded bd) : Result.Bounded bd (execShli i f s) :=
  State.asSpelled_bounded h (scalarI_bounded h)

@[simp] theorem execShri_bounded {i : Issue} {f : FmtI} {s : State} (h : s.Bounded bd) : Result.Bounded bd (execShri i f s) :=
  State.asSpelled_bounded h (scalarI_bounded h)

@[simp] theorem execSrai_bounded {i : Issue} {f : FmtI} {s : State} (h : s.Bounded bd) : Result.Bounded bd (execSrai i f s) :=
  State.asSpelled_bounded h (scalarI_bounded h)

@[simp] theorem execMuli_bounded {i : Issue} {f : FmtI} {s : State} (h : s.Bounded bd) : Result.Bounded bd (execMuli i f s) :=
  State.asSpelled_bounded h (scalarI_bounded h)

@[simp] theorem execAddi32_bounded {i : Issue} {f : FmtIX} {s : State} (h : s.Bounded bd) : Result.Bounded bd (execAddi32 i f s) :=
  State.asSpelled_bounded h (scalarIX_bounded h)

@[simp] theorem execAndi32_bounded {i : Issue} {f : FmtIX} {s : State} (h : s.Bounded bd) : Result.Bounded bd (execAndi32 i f s) :=
  State.asSpelled_bounded h (scalarIX_bounded h)

@[simp] theorem execOri32_bounded {i : Issue} {f : FmtIX} {s : State} (h : s.Bounded bd) : Result.Bounded bd (execOri32 i f s) :=
  State.asSpelled_bounded h (scalarIX_bounded h)

@[simp] theorem execXori32_bounded {i : Issue} {f : FmtIX} {s : State} (h : s.Bounded bd) : Result.Bounded bd (execXori32 i f s) :=
  State.asSpelled_bounded h (scalarIX_bounded h)

@[simp] theorem execMuli32_bounded {i : Issue} {f : FmtIX} {s : State} (h : s.Bounded bd) : Result.Bounded bd (execMuli32 i f s) :=
  State.asSpelled_bounded h (scalarIX_bounded h)

@[simp] theorem execLi_bounded {i : Issue} {f : FmtIX} {s : State} (h : s.Bounded bd) : Result.Bounded bd (execLi i f s) := by
  unfold execLi
  refine State.asSpelled_bounded h ?_
  simp [h]

theorem compare_bounded {i : Issue} {f : FmtC} {op : Word → Word → Bool} {s : State} (h : s.Bounded bd) :
    Result.Bounded bd (compare i f op s) := by
  unfold compare
  split <;> simp [h]

@[simp] theorem execCeq_bounded {i : Issue} {f : FmtC} {s : State} (h : s.Bounded bd) : Result.Bounded bd (execCeq i f s) :=
  State.asSpelled_bounded h (compare_bounded h)

@[simp] theorem execCne_bounded {i : Issue} {f : FmtC} {s : State} (h : s.Bounded bd) : Result.Bounded bd (execCne i f s) :=
  State.asSpelled_bounded h (compare_bounded h)

@[simp] theorem execClt_bounded {i : Issue} {f : FmtC} {s : State} (h : s.Bounded bd) : Result.Bounded bd (execClt i f s) :=
  State.asSpelled_bounded h (compare_bounded h)

@[simp] theorem execCltu_bounded {i : Issue} {f : FmtC} {s : State} (h : s.Bounded bd) : Result.Bounded bd (execCltu i f s) :=
  State.asSpelled_bounded h (compare_bounded h)

@[simp] theorem execCge_bounded {i : Issue} {f : FmtC} {s : State} (h : s.Bounded bd) : Result.Bounded bd (execCge i f s) :=
  State.asSpelled_bounded h (compare_bounded h)

@[simp] theorem execCgeu_bounded {i : Issue} {f : FmtC} {s : State} (h : s.Bounded bd) : Result.Bounded bd (execCgeu i f s) :=
  State.asSpelled_bounded h (compare_bounded h)

theorem predOp_bounded {i : Issue} {f : FmtR} {op : Bool → Bool → Bool} {s : State} (h : s.Bounded bd) : Result.Bounded bd (predOp i f op s) := by
  simp [predOp, h]

@[simp] theorem execPand_bounded {i : Issue} {f : FmtR} {s : State} (h : s.Bounded bd) : Result.Bounded bd (execPand i f s) :=
  State.asSpelled_bounded h (predOp_bounded h)

@[simp] theorem execPor_bounded {i : Issue} {f : FmtR} {s : State} (h : s.Bounded bd) : Result.Bounded bd (execPor i f s) :=
  State.asSpelled_bounded h (predOp_bounded h)

@[simp] theorem execPxor_bounded {i : Issue} {f : FmtR} {s : State} (h : s.Bounded bd) : Result.Bounded bd (execPxor i f s) :=
  State.asSpelled_bounded h (predOp_bounded h)

@[simp] theorem execPnot_bounded {i : Issue} {f : FmtR} {s : State} (h : s.Bounded bd) : Result.Bounded bd (execPnot i f s) := by
  unfold execPnot
  refine State.asSpelled_bounded h ?_
  simp [h]

@[simp] theorem execBr_bounded {i : Issue} {off : BitVec 22} {s : State} (h : s.Bounded bd) : Result.Bounded bd (execBr i off s) := by
  unfold execBr
  refine State.asSpelled_bounded h ?_
  rw [Result.bounded_next]
  refine State.issue_bounded h (fun s1 hs => ?_)
  simp [hs]

@[simp] theorem execCall_bounded {i : Issue} {off : BitVec 22} {s : State} (h : s.Bounded bd) : Result.Bounded bd (execCall i off s) := by
  unfold execCall
  refine State.asSpelled_bounded h ?_
  rw [Result.bounded_next]
  refine State.issue_bounded h (fun s1 hs => ?_)
  simp [hs]

theorem addrOp_bounded {i : Issue} {bad : Bool} {reads : List CReg} {f : Core → Core} {s : State} (h : s.Bounded bd)
    (hf : ∀ k, (f k).count bd = k.count bd) : Result.Bounded bd (addrOp i bad reads f s) := by
  simp [addrOp, h, hf]

@[simp] theorem execAadd_bounded {i : Issue} {f : FmtR} {s : State} (h : s.Bounded bd) : Result.Bounded bd (execAadd i f s) :=
  State.asSpelled_bounded h (addrOp_bounded h (fun k => by simp))

@[simp] theorem execAaddu_bounded {i : Issue} {f : FmtR} {s : State} (h : s.Bounded bd) : Result.Bounded bd (execAaddu i f s) :=
  State.asSpelled_bounded h (addrOp_bounded h (fun k => by simp))

@[simp] theorem execAmov_bounded {i : Issue} {f : FmtR} {s : State} (h : s.Bounded bd) : Result.Bounded bd (execAmov i f s) :=
  State.asSpelled_bounded h (addrOp_bounded h (fun k => by simp))

@[simp] theorem execAfromg_bounded {i : Issue} {f : FmtR} {s : State} (h : s.Bounded bd) : Result.Bounded bd (execAfromg i f s) :=
  State.asSpelled_bounded h (addrOp_bounded h (fun k => by simp))

@[simp] theorem execAlog_bounded {i : Issue} {f : FmtR} {s : State} (h : s.Bounded bd) : Result.Bounded bd (execAlog i f s) :=
  State.asSpelled_bounded h (addrOp_bounded h (fun k => by simp))

@[simp] theorem execAhig_bounded {i : Issue} {f : FmtR} {s : State} (h : s.Bounded bd) : Result.Bounded bd (execAhig i f s) :=
  State.asSpelled_bounded h (addrOp_bounded h (fun k => by simp))

@[simp] theorem execAsethi_bounded {i : Issue} {f : FmtR} {s : State} (h : s.Bounded bd) : Result.Bounded bd (execAsethi i f s) :=
  State.asSpelled_bounded h (addrOp_bounded h (fun k => by simp))

@[simp] theorem execAshl_bounded {i : Issue} {f : FmtR} {s : State} (h : s.Bounded bd) : Result.Bounded bd (execAshl i f s) :=
  State.asSpelled_bounded h (addrOp_bounded h (fun k => by simp))

@[simp] theorem execGets_bounded {i : Issue} {f : FmtR} {s : State} (h : s.Bounded bd) : Result.Bounded bd (execGets i f s) := by
  unfold execGets
  extract_lets v
  refine State.asSpelled_bounded h ?_
  simp [h]

@[simp] theorem execGetsa_bounded {i : Issue} {f : FmtR} {s : State} (h : s.Bounded bd) : Result.Bounded bd (execGetsa i f s) := by
  unfold execGetsa
  extract_lets v
  refine State.asSpelled_bounded h ?_
  simp [h]

@[simp] theorem execPuts_bounded {i : Issue} {f : FmtR} {s : State} (h : s.Bounded bd) : Result.Bounded bd (execPuts i f s) := by
  unfold execPuts
  refine State.asSpelled_bounded h ?_
  simp [h]

@[simp] theorem execJmp_bounded {i : Issue} {f : FmtR} {s : State} (h : s.Bounded bd) : Result.Bounded bd (execJmp i f s) := by
  unfold execJmp
  extract_lets rsv
  refine State.asSpelled_bounded h ?_
  rw [Result.bounded_next]
  refine State.issue_bounded h (fun s1 hs => ?_)
  simp [hs]

@[simp] theorem execAaddi_bounded {i : Issue} {f : FmtRX} {s : State} (h : s.Bounded bd) : Result.Bounded bd (execAaddi i f s) := by
  unfold execAaddi
  refine State.asSpelled_bounded h ?_
  simp [h]

@[simp] theorem execAlo_bounded {i : Issue} {f : FmtRX} {s : State} (h : s.Bounded bd) : Result.Bounded bd (execAlo i f s) := by
  unfold execAlo
  refine State.asSpelled_bounded h ?_
  simp [h]

@[simp] theorem execAhi_bounded {i : Issue} {f : FmtRX} {s : State} (h : s.Bounded bd) : Result.Bounded bd (execAhi i f s) := by
  unfold execAhi
  refine State.asSpelled_bounded h ?_
  simp [h]

/-! Of Sys2Proof/Machine/Snapshot.lean. -/

@[simp] theorem State.buddyWrite_bounded (s : State) (ga : Nat) (bs : List Byte) : (s.buddyWrite ga bs).Bounded bd ↔ s.Bounded bd := by
  unfold State.buddyWrite
  refine State.foldl_bounded_iff (fun s1 x => ?_) _ _
  simp

@[simp] theorem State.snapWrite_bounded {s : State} {p : PlanImage} {off : Nat} {bs : List Byte} (h : s.Bounded bd) :
    (s.snapWrite p off bs).Bounded bd := by
  simp [State.snapWrite, h]

@[simp] theorem State.snapWrites_bounded {s : State} {p : PlanImage} (h : s.Bounded bd) : (s.snapWrites p).Bounded bd := by
  unfold State.snapWrites
  extract_lets rs base s'
  have hs' : s'.Bounded bd := by
    unfold s'
    refine State.foldl_bounded (fun s1 x hs => ?_) ?_
    · simp [hs]
    · exact h
  simp [hs']

@[simp] theorem State.setAdvice_bounded (s : State) : (s.setAdvice).Bounded bd ↔ s.Bounded bd := by
  simp [State.setAdvice]

@[simp] theorem State.setStep_bounded (s : State) (p : ParcelId) (n : Nat) : (s.setStep p n).Bounded bd ↔ s.Bounded bd := by
  simp [State.setStep]

@[simp] theorem State.replanParcel_bounded (s : State) (p : ParcelId) : (s.replanParcel p).Bounded bd ↔ s.Bounded bd := by
  unfold State.replanParcel
  extract_lets s1 s2 h
  have hs1 : s1.Bounded bd ↔ s.Bounded bd := by
    unfold s1
    refine State.foldl_bounded_iff (fun s3 x => ?_) _ _
    simp
  have hs2 : s2.Bounded bd ↔ s.Bounded bd := by simp [s2, hs1]
  simp [hs2]

@[simp] theorem State.ageReplan_bounded (s : State) : (s.ageReplan).Bounded bd ↔ s.Bounded bd := by
  unfold State.ageReplan
  extract_lets s1 old
  have hs1 : s1.Bounded bd ↔ s.Bounded bd := by
    unfold s1
    refine State.foldl_bounded_iff (fun s2 x => ?_) _ _
    simp
  simp [hs1]

theorem Core.count_screened (k : Core) : k.screened.count bd ≤ k.count bd := by
  unfold Core.screened
  exact Bound.size_le (Nat.zero_le _) (Nat.le_refl _) (Nat.le_refl _)

@[simp] theorem State.screen_bounded {s : State} {p : ParcelId} (h : s.Bounded bd) : (s.screen p).Bounded bd := by
  unfold State.screen
  exact State.foldl_bounded (fun s1 c hs => State.modCore_bounded hs (Core.count_screened _)) (by simp [h])

@[simp] theorem State.screenFailed_bounded (s : State) (p : ParcelId) : (s.screenFailed p).Bounded bd ↔ s.Bounded bd := by
  simp [State.screenFailed]

/-! Of Sys2Proof/Machine/Boundary.lean. -/

@[simp] theorem State.modBnd_bounded (s : State) (f : Boundary → Boundary) : (s.modBnd f).Bounded bd ↔ s.Bounded bd := by
  simp [State.modBnd]

@[simp] theorem State.bndBreak_bounded (s : State) : (s.bndBreak).Bounded bd ↔ s.Bounded bd := by
  simp [State.bndBreak]

@[simp] theorem State.sendBoundary_bounded (s : State) (dst : Nat) (m : BoundaryMsg) : (s.sendBoundary dst m).Bounded bd ↔ s.Bounded bd := by
  unfold State.sendBoundary
  split <;> simp

@[simp] theorem State.applyChanges_bounded {s : State} {p : PlanImage} (h : s.Bounded bd) : (s.applyChanges p).Bounded bd := by
  unfold State.applyChanges
  refine State.foldl_bounded (fun s1 x hs => ?_) ?_
  · extract_lets o
    split <;> simp [hs]
  · exact h

@[simp] theorem State.ownTallies_bounded {s : State} {p : PlanImage} (h : s.Bounded bd) : (s.ownTallies p).Bounded bd := by
  unfold State.ownTallies
  refine State.foldl_bounded (fun s1 x hs => ?_) ?_
  · refine State.foldl_bounded (fun s2 x1 hs1 => ?_) ?_
    · refine State.foldl_bounded (fun s3 x2 hs2 => ?_) ?_
      · simp [hs2]
      · exact hs1
    · exact hs
  · exact h

@[simp] theorem State.agreed_bounded (s : State) (m : BoundaryMsg) : (s.agreed m).Bounded bd ↔ s.Bounded bd := by
  simp [State.agreed]

@[simp] theorem State.voted_bounded {s : State} {m : BoundaryMsg} (h : s.Bounded bd) : (s.voted m).Bounded bd := by
  unfold State.voted
  extract_lets left old s1 old1 s2 old2
  have hs1 : s1.Bounded bd := by simp [s1, h]
  have hs2 : s2.Bounded bd := by simp [s2, hs1]
  split <;> simp [h, hs2]

@[simp] theorem State.bndResult_bounded {s : State} {m : BoundaryMsg} (h : s.Bounded bd) : (s.bndResult m).Bounded bd := by
  unfold State.bndResult
  dsimp only
  split
  · rw [State.agreed_bounded]
    rw [State.modBnd_bounded]
    refine State.foldl_bounded (fun s1 x hs => ?_) ?_
    · simp [hs]
    · exact h
  · refine State.voted_bounded ?_
    rw [State.modBnd_bounded]
    refine State.foldl_bounded (fun s1 x hs => ?_) ?_
    · simp [hs]
    · exact h
  · rw [State.modBnd_bounded]
    refine State.foldl_bounded (fun s1 x hs => ?_) ?_
    · simp [hs]
    · exact h

@[simp] theorem State.bndPump_bounded {s : State} (h : s.Bounded bd) : (s.bndPump).Bounded bd := by
  unfold State.bndPump
  extract_lets b
  split
  · exact h
  · extract_lets all
    split
    · split <;> simp [h]
    · exact h

@[simp] theorem State.beginAgree_bounded {s : State} (h : s.Bounded bd) : (s.beginAgree).Bounded bd := by
  simp [State.beginAgree, h]

@[simp] theorem State.closureCheck_bounded (s : State) : (s.closureCheck).1.Bounded bd ↔ s.Bounded bd := by
  unfold State.closureCheck
  dsimp only
  refine (State.foldl_bounded_iff (fun s1 x => ?_) _ _).trans ?_
  · simp
  · refine State.foldl_bounded_iff (fun s1 x => ?_) _ _
    simp

@[simp] theorem State.postTally_bounded {s : State} {p : PlanImage} {i : Nat} {l : LayerRec} {e : Nat} (h : s.Bounded bd) :
    (s.postTally p i l e).Bounded bd := by
  simp [State.postTally, h]

@[simp] theorem State.postTallies_bounded {s : State} (h : s.Bounded bd) : (s.postTallies).Bounded bd := by
  unfold State.postTallies
  split
  · exact h
  · refine State.foldl_bounded (fun s1 x hs => ?_) ?_
    · refine State.foldl_bounded (fun s2 x1 hs1 => ?_) ?_
      · split <;> simp [hs1]
      · exact hs
    · exact h

@[simp] theorem execStepEnd_bounded {s : State} (h : s.Bounded bd) : Result.Bounded bd (execStepEnd s) := by
  unfold execStepEnd
  rw [Result.bounded_next]
  split
  · exact h
  · dsimp only
    split
    · simp [h]
    · split <;> simp [h]

@[simp] theorem execSnapshotDone_bounded {r : SnapResult} {s : State} (h : s.Bounded bd) : Result.Bounded bd (execSnapshotDone r s) := by
  unfold execSnapshotDone
  extract_lets s1
  have hs1 : s1.Bounded bd := by simp [s1, h]
  rw [Result.bounded_next]
  split
  · extract_lets failed
    have hfailed : failed.Bounded bd := by simp [failed, hs1]
    split
    · exact h
    · split
      · exact hfailed
      · extract_lets s2 old s3 old1 s4 on now s5 bad
        have hs2 : s2.Bounded bd := by simp [s2, hs1]
        have hs3 : s3.Bounded bd := by simp [s3, hs2]
        have hs4 : s4.Bounded bd := by simp [s4, hs3]
        have hs5 : s5.Bounded bd := by
          unfold s5
          refine State.foldl_bounded (fun s6 x hs => ?_) ?_
          · simp [hs]
          · exact hs4
        split
        · exact hfailed
        · split
          · exact h
          · split
            · simp [hs5]
            · rw [State.bndBreak_bounded]
              refine State.foldl_bounded (fun s6 x hs => ?_) ?_
              · simp [hs]
              · exact hs5
  · exact h

@[simp] theorem execBoundary_bounded {m : BoundaryMsg} {s : State} (h : s.Bounded bd) : Result.Bounded bd (execBoundary m s) := by
  simp [execBoundary, h]

@[simp] theorem execPlanVote_bounded {s : State} (h : s.Bounded bd) : Result.Bounded bd (execPlanVote s) := by
  simp [execPlanVote, h]

@[simp] theorem State.staleStart_bounded (s : State) : (s.staleStart).Bounded bd ↔ s.Bounded bd := by
  simp [State.staleStart]

@[simp] theorem execStepStart_bounded {s : State} (h : s.Bounded bd) : Result.Bounded bd (execStepStart s) := by
  unfold execStepStart
  extract_lets s1 old s2 s3 base s4 old1 old2 old3 old4
  have hs1 : s1.Bounded bd := by simp [s1, h]
  have hs2 : s2.Bounded bd := by simp [s2, hs1]
  have hs3 : s3.Bounded bd := by simp [s3, hs2]
  have hs4 : s4.Bounded bd := by
    unfold s4
    refine State.foldl_bounded (fun s5 x hs => ?_) ?_
    · simp [hs]
    · exact hs3
  simp [h, hs4]

@[simp] theorem execBoundaryTimeout_bounded {s : State} (h : s.Bounded bd) : Result.Bounded bd (execBoundaryTimeout s) := by
  simp [execBoundaryTimeout, h]

/-! Of Sys2Proof/Machine/Home.lean. -/

@[simp] theorem State.refuseWrite_bounded (s : State) (t : Tract) (src : RemoteSrc) (key st : Nat) :
    (s.refuseWrite t src key st).Bounded bd ↔ s.Bounded bd := by
  unfold State.refuseWrite
  extract_lets s1
  have hs1 : s1.Bounded bd ↔ s.Bounded bd := by
    unfold s1
    split <;> simp
  simp [hs1]

@[simp] theorem State.homeWritten_bounded (s : State) (t : Tract) (src : RemoteSrc) (key n : Nat) (r : Response) :
    (s.homeWritten t src key n r).Bounded bd ↔ s.Bounded bd := by
  simp [State.homeWritten]

@[simp] theorem State.homeLoad_bounded {s : State} {src : RemoteSrc} {key n : Nat} (h : s.Bounded bd) : (s.homeLoad src key n).Bounded bd := by
  unfold State.homeLoad
  split
  · simp [h]
  · split <;> simp [h]

@[simp] theorem State.homeStore_bounded {s : State} {t : Tract} {src : RemoteSrc} {key : Nat} {bs : List MByte} (h : s.Bounded bd) :
    (s.homeStore t src key bs).Bounded bd := by
  unfold State.homeStore
  split
  · rw [State.homeWritten_bounded]
    refine State.foldl_bounded (fun s1 x hs => ?_) ?_
    · simp [hs]
    · exact h
  · simp [h]

@[simp] theorem State.homeAtom_bounded {s : State} {t : Tract} {src : RemoteSrc} {key op : Nat} {w64 : Bool} {opd cmp : Nat} (h : s.Bounded bd) :
    (s.homeAtom t src key op w64 opd cmp).Bounded bd := by
  unfold State.homeAtom
  extract_lets n old bad s1
  have hs1 : s1.Bounded bd := by simp [s1, h]
  split <;> simp [h, hs1]

@[simp] theorem State.homeMark_bounded {s : State} {src : RemoteSrc} {addr : Nat} {op : MarkOp} (h : s.Bounded bd) :
    (s.homeMark src addr op).Bounded bd := by
  unfold State.homeMark
  extract_lets n
  split
  · extract_lets frozen next wait
    split <;> simp [next, wait, h]
  · simp [h]
  · simp [h]

@[simp] theorem State.homeApply_bounded {s : State} {t : Tract} {src : RemoteSrc} {addr : Nat} {op : HomeOp} (h : s.Bounded bd) :
    (s.homeApply t src addr op).Bounded bd := by
  unfold State.homeApply
  extract_lets key
  split <;> simp [h]

@[simp] theorem State.homeServe_bounded {s : State} {t : Tract} {src : RemoteSrc} {addr : Nat} {op : HomeOp} {posted : Bool} (h : s.Bounded bd) :
    (s.homeServe t src addr op posted).Bounded bd := by
  unfold State.homeServe
  extract_lets s1
  have hs1 : s1.Bounded bd := by simp [s1, h]
  split <;> simp [hs1]

@[simp] theorem State.replicaLoad_bounded {s : State} {t : Tract} {src : RemoteSrc} {key n i : Nat} {r : ReplRegion} (h : s.Bounded bd) :
    (s.replicaLoad t src key n i r).Bounded bd := by
  simp [State.replicaLoad, h]

@[simp] theorem State.claim_bounded (s : State) (p : ParcelId) (off : Nat) : (s.claim p off).1.Bounded bd ↔ s.Bounded bd := by
  unfold State.claim
  extract_lets k n v cfg l full s1 old at_
  have hs1 : s1.Bounded bd ↔ s.Bounded bd := by simp [s1]
  split
  · exact Iff.rfl
  · split
    · exact Iff.rfl
    · split <;> simp [hs1]

@[simp] theorem State.claimAnswer_bounded (s : State) (src : RemoteSrc) (addr : Nat) : (s.claimAnswer src addr).Bounded bd ↔ s.Bounded bd := by
  unfold State.claimAnswer
  split <;> simp

@[simp] theorem State.haTake_bounded {s : State} {t st : Tract} {e : RaEntry} (h : s.Bounded bd) : (s.haTake t st e).Bounded bd := by
  unfold State.haTake
  extract_lets key home repl
  have hhome : home.Bounded bd := by simp [home, h]
  split
  · exact h
  · split
    · exact h
    · split <;> simp [h, hhome]

@[simp] theorem State.haServeLink_bounded {s : State} {t : Tract} {q : InReq} (h : s.Bounded bd) : (s.haServeLink t q).Bounded bd := by
  simp [State.haServeLink, h]

@[simp] theorem execHomeAgentRequest_bounded {t : Tract} {src : HaSource} {s : State} (h : s.Bounded bd) :
    Result.Bounded bd (execHomeAgentRequest t src s) := by
  unfold execHomeAgentRequest
  rw [Result.bounded_next]
  split
  · exact h
  · split <;> split <;> simp [h]

@[simp] theorem execCombiningEntryApply_bounded {t : Tract} {k : Nat} {s : State} (h : s.Bounded bd) :
    Result.Bounded bd (execCombiningEntryApply t k s) := by
  unfold execCombiningEntryApply
  rw [Result.bounded_next]
  split <;> simp [h]

@[simp] theorem execStashClaim_bounded {p : ParcelId} {src : Tract} {tag : Nat} {s : State} (h : s.Bounded bd) :
    Result.Bounded bd (execStashClaim p src tag s) := by
  unfold execStashClaim
  rw [Result.bounded_next]
  split
  · exact h
  · split <;> simp [h]

@[simp] theorem Core.count_takeAnswer (k : Core) (gen : Nat) (r : Response) : (k.takeAnswer gen r).count bd = k.count bd := by
  refine Bound.size_congr rfl rfl ?_
  simp only [Core.takeAnswer, List.map_map]
  refine List.map_congr_left (fun l _ => ?_)
  dsimp only [Function.comp]
  split <;> rfl

@[simp] theorem State.waitAnswer_bounded {s : State} {c : CoreId} {gen : Nat} {r : Response} (h : s.Bounded bd) :
    (s.waitAnswer c gen r).Bounded bd := by
  unfold State.waitAnswer
  extract_lets pc s1
  have hs1 : s1.Bounded bd := by simp [s1, h]
  split <;> simp [h, hs1]

@[simp] theorem State.signalAnswer_bounded (s : State) (q : QueueId) (gen addr status : Nat) :
    (s.signalAnswer q gen addr status).Bounded bd ↔ s.Bounded bd := by
  unfold State.signalAnswer
  extract_lets s1
  have hs1 : s1.Bounded bd ↔ s.Bounded bd := by simp [s1]
  split <;> simp [hs1]

@[simp] theorem State.engFailed_bounded {s : State} {t : Tract} {g : Engine} {id : Nat} {write : Bool} {addr status : Nat} (h : s.Bounded bd) :
    (s.engFailed t g id write addr status).Bounded bd := by
  unfold State.engFailed
  extract_lets q
  split
  · exact h
  · split
    · extract_lets code
      split <;> simp [code, h]
    · extract_lets code
      split <;> simp [code, h]

@[simp] theorem State.complete_bounded {s : State} {t : Tract} {e : RaEntry} {r : Response} (h : s.Bounded bd) :
    (s.complete t e r).Bounded bd := by
  unfold State.complete
  extract_lets s1 s2
  have hs1 : s1.Bounded bd := by
    unfold s1
    split <;> simp [h]
  have hs2 : s2.Bounded bd := by simp [s2, hs1]
  split <;> simp [hs2]

@[simp] theorem State.raCheck_bounded (s : State) (t : Tract) : (s.raCheck t).Bounded bd ↔ s.Bounded bd := by
  simp [State.raCheck]

@[simp] theorem execFabricCompletion_bounded {t : Tract} {tag : Nat} {s : State} (h : s.Bounded bd) :
    Result.Bounded bd (execFabricCompletion t tag s) := by
  unfold execFabricCompletion
  rw [Result.bounded_next]
  split
  · exact h
  · split <;> simp [h]

@[simp] theorem execEngineOperationTimeout_bounded {t : Tract} {tag : Nat} {s : State} (h : s.Bounded bd) :
    Result.Bounded bd (execEngineOperationTimeout t tag s) := by
  unfold execEngineOperationTimeout
  rw [Result.bounded_next]
  split
  · exact h
  · split <;> simp [h]

@[simp] theorem State.relay_bounded (s : State) (p : Port) (m : MemMsg) : (s.relay p m).Bounded bd ↔ s.Bounded bd := by
  unfold State.relay
  extract_lets refuse
  split
  · simp [refuse]
  · split
    · simp [refuse]
    · split
      · simp [refuse]
      · split <;> simp

@[simp] theorem State.takeIn_bounded (s : State) (p : Port) (m : MemMsg) : (s.takeIn p m).Bounded bd ↔ s.Bounded bd := by
  unfold State.takeIn
  extract_lets refuse old
  split
  · simp [refuse]
  · split
    · simp [refuse]
    · split <;> simp

@[simp] theorem State.takeResponse_bounded (s : State) (p : Port) (m : MemMsg) : (s.takeResponse p m).Bounded bd ↔ s.Bounded bd := by
  unfold State.takeResponse
  extract_lets s1 same back s2
  have hs1 : s1.Bounded bd ↔ s.Bounded bd := by simp [s1]
  have hs2 : s2.Bounded bd ↔ s.Bounded bd := by simp [s2]
  split
  · split <;> simp [hs1]
  · split
    · simp [hs2]
    · split <;> simp [hs2]

@[simp] theorem execMemoryMessage_bounded {p : Port} {m : MemMsg} {s : State} (h : s.Bounded bd) : Result.Bounded bd (execMemoryMessage p m s) := by
  simp [execMemoryMessage, h]

@[simp] theorem State.rtabRecord_bounded (s : State) : (s.rtabRecord).Bounded bd ↔ s.Bounded bd := by
  simp [State.rtabRecord]

@[simp] theorem State.advancePut_bounded (s : State) : (s.advancePut).Bounded bd ↔ s.Bounded bd := by
  simp [State.advancePut]

@[simp] theorem execEpochAdvance_bounded {s : State} (h : s.Bounded bd) : Result.Bounded bd (execEpochAdvance s) := by
  unfold execEpochAdvance
  rw [Result.bounded_next]
  refine State.atReg_bounded h (fun s1 hs => ?_)
  simp [hs]

@[simp] theorem State.drainAway_bounded (s : State) : (s.drainAway).Bounded bd ↔ s.Bounded bd := by
  simp [State.drainAway]

@[simp] theorem execEpochDrainEnd_bounded {s : State} (h : s.Bounded bd) : Result.Bounded bd (execEpochDrainEnd s) := by
  unfold execEpochDrainEnd
  extract_lets s1 old s2 s3 old1 s4
  have hs1 : s1.Bounded bd := by simp [s1, h]
  have hs2 : s2.Bounded bd := by
    unfold s2
    split
    · exact hs1
    · split <;> simp [hs1]
  have hs3 : s3.Bounded bd := by simp [s3, hs2]
  have hs4 : s4.Bounded bd := by simp [s4, hs3]
  rw [Result.bounded_next]
  split
  · exact h
  · refine State.foldl_bounded (fun s5 x hs => ?_) ?_
    · simp [hs]
    · exact hs4

@[simp] theorem execFabStall_bounded {t : Tract} {s : State} (h : s.Bounded bd) : Result.Bounded bd (execFabStall t s) := by
  simp [execFabStall, h]

/-! Of Sys2Proof/Machine/Errors.lean. -/

@[simp] theorem State.writeRecord_bounded (s : State) (r : ErrRec) : (s.writeRecord r).Bounded bd ↔ s.Bounded bd := by
  simp [State.writeRecord]

@[simp] theorem State.cdLostNote_bounded (s : State) : (s.cdLostNote).Bounded bd ↔ s.Bounded bd := by
  simp [State.cdLostNote]

@[simp] theorem State.cdForward_bounded (s : State) : (s.cdForward).Bounded bd ↔ s.Bounded bd := by
  unfold State.cdForward
  extract_lets old
  split <;> simp

@[simp] theorem State.tractLostNote_bounded (s : State) (t : Tract) : (s.tractLostNote t).Bounded bd ↔ s.Bounded bd := by
  simp [State.tractLostNote]

@[simp] theorem State.tractForward_bounded (s : State) (t : Tract) : (s.tractForward t).Bounded bd ↔ s.Bounded bd := by
  unfold State.tractForward
  split <;> simp

@[simp] theorem execErrorRecordForward_bounded {c : CollectorId} {s : State} (h : s.Bounded bd) : Result.Bounded bd (execErrorRecordForward c s) := by
  unfold execErrorRecordForward
  rw [Result.bounded_next]
  split <;> simp [h]

@[simp] theorem State.evrCfgPut_bounded (s : State) (v size : Nat) : (s.evrCfgPut v size).Bounded bd ↔ s.Bounded bd := by
  simp [State.evrCfgPut]

@[simp] theorem execEvrCfgWrite_bounded {value : Word} {s : State} (h : s.Bounded bd) : Result.Bounded bd (execEvrCfgWrite value s) := by
  unfold execEvrCfgWrite
  rw [Result.bounded_next]
  refine State.atReg_bounded h (fun s1 hs => ?_)
  simp [hs]

theorem Core.count_endProgram (k : Core) : k.endProgram.count bd ≤ k.count bd := by
  unfold Core.endProgram
  exact Bound.size_le (Nat.le_refl _) (Nat.zero_le _) (Nat.zero_le _)

@[simp] theorem State.endPrograms_bounded {s : State} (h : s.Bounded bd) : (s.endPrograms).Bounded bd := by
  unfold State.endPrograms
  extract_lets s1 s2
  have hs1 : s1.Bounded bd := Bound.holds_mapCores h (fun _ => rfl) (fun q => q.2.count_endProgram)
  have hs2 : s2.Bounded bd := State.foldl_bounded (fun s3 c hs => State.breakGang_bounded hs) hs1
  exact Bound.holds_mapCores hs2 (fun _ => rfl) (fun q => Bound.size_le (Nat.zero_le _) (Nat.le_refl _) (Nat.le_refl _))

@[simp] theorem State.returnBuffers_bounded (s : State) : (s.returnBuffers).Bounded bd ↔ s.Bounded bd := by
  unfold State.returnBuffers
  dsimp only
  refine (State.foldl_bounded_iff (fun s1 x => ?_) _ _).trans ?_
  · simp
  · refine State.foldl_bounded_iff (fun s1 x => ?_) _ _
    simp

@[simp] theorem State.clearCounters_bounded (s : State) : (s.clearCounters).Bounded bd ↔ s.Bounded bd := by
  unfold State.clearCounters
  refine State.foldl_bounded_iff (fun s1 x => ?_) _ _
  simp

@[simp] theorem State.drainCollector_bounded (s : State) (t : Tract) : (s.drainCollector t).Bounded bd ↔ s.Bounded bd := by
  unfold State.drainCollector
  extract_lets f s1
  have hs1 : s1.Bounded bd ↔ s.Bounded bd := by
    unfold s1
    refine State.foldl_bounded_iff (fun s2 x => ?_) _ _
    simp
  simp [hs1]

@[simp] theorem Parcel.endStep_tiles (v : Parcel) : v.endStep.tiles = v.tiles := (rfl)

@[simp] theorem State.flush_bounded {s : State} (h : s.Bounded bd) : (s.flush).Bounded bd := by
  unfold State.flush
  dsimp only
  refine State.foldl_bounded (fun s1 x hs => ?_) ?_
  · simp [hs]
  · rw [State.clearCounters_bounded]
    refine State.foldl_bounded (fun s1 x hs => ?_) ?_
    · simp [hs]
    · simp [h]

@[simp] theorem State.sendNotices_bounded (s : State) (seq : Nat) : (s.sendNotices seq).Bounded bd ↔ s.Bounded bd := by
  unfold State.sendNotices
  refine State.foldl_bounded_iff (fun s1 x => ?_) _ _
  split <;> simp

@[simp] theorem State.abortEnd_bounded {s : State} {detail : List Nat} (h : s.Bounded bd) : (s.abortEnd detail).Bounded bd := by
  simp [State.abortEnd, h]

@[simp] theorem execStepAbort_bounded {s : State} (h : s.Bounded bd) : Result.Bounded bd (execStepAbort s) := by
  unfold execStepAbort
  extract_lets s1
  have hs1 : s1.Bounded bd := by simp [s1, h]
  rw [Result.bounded_next]
  split <;> simp [h, hs1]

@[simp] theorem State.bringIn_bounded (s : State) (ps : List ParcelId) : (s.bringIn ps).1.Bounded bd ↔ s.Bounded bd := by
  induction ps generalizing s with
  | nil => exact Iff.rfl
  | cons p ps ih =>
    unfold State.bringIn
    split
    · exact (ih _).trans (by simp)
    · exact Iff.rfl

theorem State.emptyWork_bounded {s : State} (h : s.Bounded bd) : (s.emptyWork).Bounded bd :=
  Bound.holds_mapParcels
    (Bound.holds_mapCores h (fun _ => rfl) (fun _ => Bound.size_le (Nat.zero_le _) (Nat.le_refl _) (Nat.le_refl _)))
    (fun _ => rfl) (fun _ => Nat.zero_le _)

@[simp] theorem State.setSnapState_bounded (s : State) (n : Nat) : (s.setSnapState n).Bounded bd ↔ s.Bounded bd := by
  simp [State.setSnapState]

@[simp] theorem State.restoreBusy_bounded (s : State) : (s.restoreBusy).Bounded bd ↔ s.Bounded bd := by
  simp [State.restoreBusy]

@[simp] theorem State.bringSpares_bounded {s : State} (h : s.Bounded bd) : s.bringSpares.1.Bounded bd := by
  have hb : (s.bringIn s.retiredParcels).1.Bounded bd := (State.bringIn_bounded s _).2 h
  unfold State.bringSpares
  extract_lets old
  generalize s.bringIn old = r at hb ⊢
  refine Bound.holds_mapParcels hb (fun q => ?_) (fun q => ?_)
  · dsimp only
    split <;> rfl
  · dsimp only
    split <;> exact Nat.le_refl _

@[simp] theorem State.restoreBegin_bounded {s : State} {run : RestoreRun} (h : s.Bounded bd) : (s.restoreBegin run).Bounded bd := by
  unfold State.restoreBegin
  extract_lets s1
  have hs1 : s1.Bounded bd := by simp [s1, h, State.emptyWork_bounded]
  have hb : ({ s1 with up := { s1.up with restore := run } } : State).bringSpares.1.Bounded bd := State.bringSpares_bounded (by simp [hs1])
  generalize ({ s1 with up := { s1.up with restore := run } } : State).bringSpares = r at hb ⊢
  obtain ⟨t, ok⟩ := r
  dsimp only at hb ⊢
  split
  · simp [hb]
  · split
    · exact hb
    · exact hb

@[simp] theorem State.askRestore_bounded {s : State} (h : s.Bounded bd) : (s.askRestore).Bounded bd := by
  simp [State.askRestore, h]

@[simp] theorem execRestore_bounded {s : State} (h : s.Bounded bd) : Result.Bounded bd (execRestore s) := by
  unfold execRestore
  rw [Result.bounded_next]
  refine State.atReg_bounded h (fun s1 hs => ?_)
  simp [hs]

@[simp] theorem State.askRemap_bounded {s : State} (h : s.Bounded bd) : (s.askRemap).Bounded bd := by
  simp [State.askRemap, h]

@[simp] theorem execRemap_bounded {s : State} (h : s.Bounded bd) : Result.Bounded bd (execRemap s) := by
  unfold execRemap
  rw [Result.bounded_next]
  refine State.atReg_bounded h (fun s1 hs => ?_)
  simp [hs]

@[simp] theorem State.restoreEnd_bounded (s : State) (word : Nat) : (s.restoreEnd word).Bounded bd ↔ s.Bounded bd := by
  simp [State.restoreEnd]

@[simp] theorem State.clearMarks_bounded {s : State} (h : s.Bounded bd) : s.clearMarks.Bounded bd :=
  Bound.holds_mapParcels ((Bound.holds_filterRegs (fun q hq => by simp [hq])).2 h) (fun _ => rfl) (fun q => Nat.le_refl _)

@[simp] theorem State.putMarks_bounded {s : State} {bs : List Byte} (h : s.Bounded bd) : (s.putMarks bs).Bounded bd := by
  unfold State.putMarks
  refine State.foldl_bounded (fun s1 x hs => ?_) ?_
  · extract_lets b
    refine State.foldl_bounded (fun s2 x1 hs1 => ?_) ?_
    · simp [hs1]
    · simp [hs]
  · exact h

@[simp] theorem State.clearFlags_bounded (s : State) : (s.clearFlags).Bounded bd ↔ s.Bounded bd := by
  refine (State.bounded_mk ..).trans (Iff.trans (Bound.holds_mapCores_iff ?_ ?_) (Iff.trans (Bound.holds_mapParcels_iff ?_ ?_) ?_))
  · exact fun _ => rfl
  · exact fun q => by simp
  · exact fun _ => rfl
  · exact fun _ => rfl
  · exact Bound.holds_filterRegs (fun q hq => by simp [hq])

@[simp] theorem State.putPieces_bounded {s : State} {ps : List (Option Nat × Nat)} {bs : List Byte} (h : s.Bounded bd) :
    (s.putPieces ps bs).Bounded bd := by
  induction ps generalizing s bs with
  | nil => exact h
  | cons q ps ih =>
    refine ih ?_
    split <;> simp [h]

@[simp] theorem State.restoreMarks_bounded {s : State} {m : List Byte} {regions : List (List Byte)} (h : s.Bounded bd) :
    (s.restoreMarks m regions).Bounded bd := by
  simp [State.restoreMarks, h]

@[simp] theorem State.restoreImage_bounded {s : State} {manifest : List Byte} {regions : List (List Byte)} (h : s.Bounded bd) :
    (s.restoreImage manifest regions).Bounded bd := by
  unfold State.restoreImage
  extract_lets nreg m
  split
  · simp [h]
  · obtain ⟨⟨body, cause, k⟩, hr⟩ : ∃ r, readRegions m nreg 0 regions = r := ⟨_, rfl⟩
    rw [hr]
    have hs1 : (s.putPieces (s.imagePlan body).pieces body).Bounded bd := State.putPieces_bounded h
    by_cases hc : cause = 0
    · simp [hc, hs1]
    · simp [hc, hs1]

@[simp] theorem execRestored_bounded {r : RestoreImage} {s : State} (h : s.Bounded bd) : Result.Bounded bd (execRestored r s) := by
  unfold execRestored
  rw [Result.bounded_next]
  split <;> simp [h]

/-! Of Sys2Proof/Machine/Identity.lean. -/

@[simp] theorem State.modSec_bounded (s : State) (f : Security → Security) : (s.modSec f).Bounded bd ↔ s.Bounded bd := by
  simp [State.modSec]

@[simp] theorem State.modBoot_bounded (s : State) (f : Boot → Boot) : (s.modBoot f).Bounded bd ↔ s.Bounded bd := by
  simp [State.modBoot]

@[simp] theorem State.modPins_bounded (s : State) (f : Pins → Pins) : (s.modPins f).Bounded bd ↔ s.Bounded bd := by
  simp [State.modPins]

@[simp] theorem State.leafFlags_bounded (s : State) : (s.leafFlags).Bounded bd ↔ s.Bounded bd := by
  simp [State.leafFlags]

@[simp] theorem State.journalFails_bounded (s : State) : (s.journalFails).Bounded bd ↔ s.Bounded bd := by
  simp [State.journalFails]

@[simp] theorem State.bootIdentity_bounded (s : State) : (s.bootIdentity).Bounded bd ↔ s.Bounded bd := by
  simp [State.bootIdentity]

/-! Of Sys2Proof/Machine/Boot.lean. -/

@[simp] theorem State.setPhase_bounded (s : State) (n : Nat) : (s.setPhase n).Bounded bd ↔ s.Bounded bd := by
  simp [State.setPhase]

/-- After a module reset nothing waits in any core or list. -/
@[simp] theorem State.moduleReset_bounded (s : State) (cause : Nat) (hold : ResetHold) : (s.moduleReset cause hold).Bounded (.limit lim) :=
  Bound.holds_of_empty (fun _ => Core.count_reset)
    (fun _ => AMap.get_map_rel (m := s.parcels) (R := fun v _ => v.tiles = []) (fun _ => rfl) (fun _ => rfl) rfl)

@[simp] theorem State.powerOn_bounded (s : State) : s.powerOn.Bounded (.limit lim) :=
  Bound.holds_of_empty (fun _ => Core.count_reset)
    (fun _ => AMap.get_map_rel (m := s.parcels) (R := fun v _ => v.tiles = []) (fun _ => rfl) (fun _ => rfl) rfl)

@[simp] theorem execPowerOn_bounded (s : State) : Result.Bounded (.limit lim) (execPowerOn s) := by
  simp [execPowerOn]

@[simp] theorem execResetNLow_bounded (s : State) : Result.Bounded (.limit lim) (execResetNLow s) := by
  simp [execResetNLow]

@[simp] theorem State.startBoot_bounded (s : State) : (s.startBoot).Bounded bd ↔ s.Bounded bd := by
  simp [State.startBoot]

@[simp] theorem execResetNRise_bounded {x : Straps} {s : State} (h : s.Bounded bd) : Result.Bounded bd (execResetNRise x s) := by
  simp [execResetNRise, h]

@[simp] theorem State.rstReqPut_bounded {s : State} {key size : Nat} (h : s.Bounded (.limit lim)) : (s.rstReqPut key size).Bounded (.limit lim) := by
  simp [State.rstReqPut, h]

@[simp] theorem execRstReq_bounded {key : BitVec 16} {s : State} (h : s.Bounded (.limit lim)) : Result.Bounded (.limit lim) (execRstReq key s) := by
  simp [execRstReq, h]

@[simp] theorem execLockstepMismatch_bounded (s : State) : Result.Bounded (.limit lim) (execLockstepMismatch s) := by
  simp [execLockstepMismatch]

@[simp] theorem execInternalResetEnd_bounded {s : State} (h : s.Bounded bd) : Result.Bounded bd (execInternalResetEnd s) := by
  simp [execInternalResetEnd, h]

@[simp] theorem execOscWaitEnd_bounded {s : State} (h : s.Bounded bd) : Result.Bounded bd (execOscWaitEnd s) := by
  simp [execOscWaitEnd, h]

@[simp] theorem execPllLockRetry_bounded {s : State} (h : s.Bounded bd) : Result.Bounded bd (execPllLockRetry s) := by
  simp [execPllLockRetry, h]

@[simp] theorem State.setLocks_bounded (s : State) (on : Bool) : (s.setLocks on).Bounded bd ↔ s.Bounded bd := by
  simp [State.setLocks]

@[simp] theorem State.bootFails_bounded (s : State) (ps : List ParcelId) : (s.bootFails ps).Bounded bd ↔ s.Bounded bd := by
  induction ps generalizing s with
  | nil => exact Iff.rfl
  | cons p ps ih => exact (ih _).trans (by simp)

@[simp] theorem State.enterReady_bounded (s : State) : (s.enterReady).Bounded bd ↔ s.Bounded bd := by
  simp [State.enterReady]

@[simp] theorem State.enterRecovery_bounded (s : State) (check : Nat) : (s.enterRecovery check).Bounded bd ↔ s.Bounded bd := by
  simp [State.enterRecovery]

@[simp] theorem State.bootStep_bounded (s : State) : (s.bootStep).Bounded bd ↔ s.Bounded bd := by
  unfold State.bootStep
  split
  · simp
  · split
    · split <;> simp
    · simp
  · simp
  · simp

@[simp] theorem execBootPhaseDone_bounded {r : BootResult} {s : State} (h : s.Bounded bd) : Result.Bounded bd (execBootPhaseDone r s) := by
  unfold execBootPhaseDone
  rw [Result.bounded_next]
  split
  · exact h
  · split <;> simp [h]

@[simp] theorem execBootOverrun_bounded {s : State} (h : s.Bounded bd) : Result.Bounded bd (execBootOverrun s) := by
  simp [execBootOverrun, h]

@[simp] theorem execArbCommit_bounded {s : State} (h : s.Bounded bd) : Result.Bounded bd (execArbCommit s) := by
  unfold execArbCommit
  rw [Result.bounded_next]
  split <;> simp [h]

/-! Of Sys2Proof/Machine/CoreEvents.lean. -/

theorem filter_dropIdx_length {α : Type} (p : α → Bool) (xs : List α) (n : Nat) :
    ((dropIdx xs n).filter p).length ≤ (xs.filter p).length := by
  induction xs generalizing n with
  | nil => exact Nat.le_refl 0
  | cons x xs ih =>
    cases n with
    | zero => simp [dropIdx, List.filter_cons]; split <;> simp
    | succ n =>
      have hle := ih n
      simp only [dropIdx, List.filter_cons]
      split
      · exact Nat.succ_le_succ hle
      · exact hle

@[simp] theorem execLoadResponse_bounded {c : CoreId} {n : Nat} {s : State} (h : s.Bounded bd) : Result.Bounded bd (execLoadResponse c n s) := by
  unfold execLoadResponse
  extract_lets s1
  have hs1 : s1.Bounded bd :=
    State.modCore_bounded h (Bound.size_le (Nat.le_refl _) (Nat.le_refl _) (filter_dropIdx_length _ _ n))
  rw [Result.bounded_next]
  split
  · exact h
  · split
    · exact h
    · split <;> simp [hs1]

@[simp] theorem State.withdraw_bounded (s : State) (c : CoreId) (w : Wait) : (s.withdraw c w).Bounded bd ↔ s.Bounded bd := by
  unfold State.withdraw
  split
  · simp
  · split
    · simp
    · split <;> simp
  · exact Iff.rfl

@[simp] theorem execWatchdog_bounded {c : CoreId} {s : State} (h : s.Bounded bd) : Result.Bounded bd (execWatchdog c s) := by
  unfold execWatchdog
  rw [Result.bounded_next]
  split <;> simp [h]

@[simp] theorem execCoreEnterSleep_bounded {c : CoreId} {s : State} (h : s.Bounded bd) : Result.Bounded bd (execCoreEnterSleep c s) := by
  simp [execCoreEnterSleep, h]

@[simp] theorem execCoreEnterDeep_bounded {c : CoreId} {s : State} (h : s.Bounded bd) : Result.Bounded bd (execCoreEnterDeep c s) := by
  simp [execCoreEnterDeep, h]

@[simp] theorem execCoreWake_bounded {c : CoreId} {s : State} (h : s.Bounded bd) : Result.Bounded bd (execCoreWake c s) := by
  simp [execCoreWake, h]


end Sys2Proof.Machine
end

section
/-!
PROOFS (O2). The bounds of O2 in power, DRAM, job control, security and the writes of registers. CM_LAYOUT changes only while its tract's lists are
empty (R138).
-/
namespace Sys2Proof.Machine

variable {bd : Bound} {lim : Limit}

/-! Of Sys2Proof/Machine/Power.lean. -/

@[simp] theorem State.dropPorts_bounded {s : State} {ps : List Port} (h : s.Bounded bd) : (s.dropPorts ps).Bounded bd := by
  unfold State.dropPorts
  refine State.foldl_bounded (fun s1 x hs => ?_) ?_
  · simp [hs]
  · exact h

@[simp] theorem execReferenceLost_bounded {s : State} (h : s.Bounded bd) : Result.Bounded bd (execReferenceLost s) := by
  simp [execReferenceLost, h]

@[simp] theorem execReferenceRestored_bounded {s : State} (h : s.Bounded bd) : Result.Bounded bd (execReferenceRestored s) := by
  simp [execReferenceRestored, h]

@[simp] theorem execClkobsCtlWrite_bounded {value : Word} {s : State} (h : s.Bounded bd) : Result.Bounded bd (execClkobsCtlWrite value s) := by
  unfold execClkobsCtlWrite
  rw [Result.bounded_next]
  refine State.atReg_bounded h (fun s1 hs => ?_)
  simp [hs]

@[simp] theorem State.applyGrant_bounded (s : State) (t : Tract) (k : Nat) : (s.applyGrant t k).Bounded bd ↔ s.Bounded bd := by
  unfold State.applyGrant
  refine State.foldl_bounded_iff (fun s1 x => ?_) _ _
  simp

@[simp] theorem State.setRail_bounded (s : State) (t : Tract) (mv : Nat) : (s.setRail t mv).Bounded bd ↔ s.Bounded bd := by
  simp [State.setRail]

@[simp] theorem State.railFollow_bounded (s : State) (t : Tract) : (s.railFollow t).Bounded bd ↔ s.Bounded bd := by
  simp [State.railFollow]

@[simp] theorem State.grant_bounded (s : State) (t : Tract) (k : Nat) : (s.grant t k).Bounded bd ↔ s.Bounded bd := by
  simp [State.grant]

@[simp] theorem State.planTract_bounded (s : State) (t : Tract) (budget share keep : Nat) :
    (s.planTract t budget share keep).Bounded bd ↔ s.Bounded bd := by
  simp [State.planTract]

@[simp] theorem execPowerBudgetPlan_bounded {s : State} (h : s.Bounded bd) : Result.Bounded bd (execPowerBudgetPlan s) := by
  unfold execPowerBudgetPlan
  extract_lets limit fixed s1 keep s2 share ests s3
  have hs1 : s1.Bounded bd := by simp [s1, h]
  have hs2 : s2.Bounded bd := by simp [s2, hs1]
  have hs3 : s3.Bounded bd := by simp [s3, hs2]
  rw [Result.bounded_next]
  split
  · exact h
  · refine State.foldl_bounded (fun s4 x hs => ?_) ?_
    · simp [hs]
    · exact hs3

@[simp] theorem execParcelEstimate_bounded {p : ParcelId} {count : Nat} {s : State} (h : s.Bounded bd) :
    Result.Bounded bd (execParcelEstimate p count s) := by
  simp [execParcelEstimate, h]

@[simp] theorem State.setLimiting_bounded (s : State) : (s.setLimiting).Bounded bd ↔ s.Bounded bd := by
  simp [State.setLimiting]

@[simp] theorem State.limitDown_bounded (s : State) (t : Tract) : (s.limitDown t).Bounded bd ↔ s.Bounded bd := by
  unfold State.limitDown
  extract_lets ps boosted down
  refine State.foldl_bounded_iff (fun s1 x => ?_) _ _
  simp

@[simp] theorem execLimiterWindow_bounded {t : Tract} {s : State} (h : s.Bounded bd) : Result.Bounded bd (execLimiterWindow t s) := by
  simp [execLimiterWindow, h]

@[simp] theorem execCoefficientCorrection_bounded {p : ParcelId} {coeff : Nat} {s : State} (h : s.Bounded bd) :
    Result.Bounded bd (execCoefficientCorrection p coeff s) := by
  simp [execCoefficientCorrection, h]

@[simp] theorem State.stepZero_bounded (s : State) (t : Tract) : (s.stepZero t).Bounded bd ↔ s.Bounded bd := by
  unfold State.stepZero
  refine State.foldl_bounded_iff (fun s1 x => ?_) _ _
  simp

@[simp] theorem State.thermTrip_bounded {s : State} (h : s.Bounded (.limit lim)) : (s.thermTrip).Bounded (.limit lim) := by
  simp [State.thermTrip, h]

@[simp] theorem State.junctionRules_bounded (s : State) (t : Tract) (tj : Nat) : (s.junctionRules t tj).Bounded bd ↔ s.Bounded bd := by
  unfold State.junctionRules
  extract_lets k w s1 s2 s3 s4 s5
  have hk : k.r ≠ .cmLayout := by simp [k]
  have hs1 : s1.Bounded bd ↔ s.Bounded bd := by simp [s1, hk]
  have hs2 : s2.Bounded bd ↔ s.Bounded bd := by simp [s2, hs1, hk]
  have hs3 : s3.Bounded bd ↔ s.Bounded bd := by simp [s3, hs1, hs2]
  have hs4 : s4.Bounded bd ↔ s.Bounded bd := by simp [s4, hs3, hk]
  have hs5 : s5.Bounded bd ↔ s.Bounded bd := by simp [s5, hs4]
  simp [hs3, hs5]

@[simp] theorem execJunctionSample_bounded {t : Tract} {readings : List (Option Nat)} {s : State} (h : s.Bounded (.limit lim)) :
    Result.Bounded (.limit lim) (execJunctionSample t readings s) := by
  simp [execJunctionSample, h]

@[simp] theorem State.dramRules_bounded (s : State) (t : Tract) (tm : Nat) : (s.dramRules t tm).Bounded bd ↔ s.Bounded bd := by
  unfold State.dramRules
  extract_lets w s1
  have hs1 : s1.Bounded bd ↔ s.Bounded bd := by simp [s1]
  simp [hs1]

@[simp] theorem State.plotPwrPut_bounded (s : State) (t : Tract) (n v size : Nat) : (s.plotPwrPut t n v size).Bounded bd ↔ s.Bounded bd := by
  unfold State.plotPwrPut
  dsimp only
  refine (State.foldl_bounded_iff (fun s1 x => ?_) _ _).trans ?_
  · simp
  · simp

@[simp] theorem execPlotPwrWrite_bounded {t : Tract} {n : Fin 256} {value : Word} {s : State} (h : s.Bounded bd) :
    Result.Bounded bd (execPlotPwrWrite t n value s) := by
  unfold execPlotPwrWrite
  rw [Result.bounded_next]
  refine State.atReg_bounded h (fun s1 hs => ?_)
  simp [hs]

@[simp] theorem execAvsCurrentRead_bounded {t : Tract} {amps : Nat} {s : State} (h : s.Bounded bd) :
    Result.Bounded bd (execAvsCurrentRead t amps s) := by
  simp [execAvsCurrentRead, h]

@[simp] theorem State.regulatorFault_bounded (s : State) (r : Rail) : (s.regulatorFault r).Bounded bd ↔ s.Bounded bd := by
  unfold State.regulatorFault
  extract_lets old s1
  have hs1 : s1.Bounded bd ↔ s.Bounded bd := by simp [s1]
  split
  · exact Iff.rfl
  · split <;> simp [hs1]

@[simp] theorem State.regulatorGood_bounded (s : State) (r : Rail) : (s.regulatorGood r).Bounded bd ↔ s.Bounded bd := by
  simp [State.regulatorGood]

@[simp] theorem State.markRail_bounded (s : State) (r : Rail) : (s.markRail r).Bounded bd ↔ s.Bounded bd := by
  simp [State.markRail]

@[simp] theorem State.sideLost_bounded {s : State} {west : Bool} (h : s.Bounded bd) : (s.sideLost west).Bounded bd := by
  simp [State.sideLost, h]

@[simp] theorem State.railReading_bounded {s : State} {r : Rail} {mv : Nat} (h : s.Bounded bd) : (s.railReading r mv).Bounded bd := by
  unfold State.railReading
  extract_lets old old1 s1
  have hs1 : s1.Bounded bd := by simp [s1, h]
  split <;> simp [hs1]

@[simp] theorem execPmbusPoll_bounded {r : Rail} {fault : Bool} {mv : Nat} {s : State} (h : s.Bounded bd) :
    Result.Bounded bd (execPmbusPoll r fault mv s) := by
  simp [execPmbusPoll, h]

@[simp] theorem execPmbAlertN_bounded {faults : List Rail} {s : State} (h : s.Bounded bd) : Result.Bounded bd (execPmbAlertN faults s) := by
  unfold execPmbAlertN
  extract_lets s1
  have hs1 : s1.Bounded bd := by simp [s1, h]
  rw [Result.bounded_next]
  split
  · refine State.foldl_bounded (fun s2 x hs => ?_) ?_
    · simp [hs]
    · refine State.foldl_bounded (fun s2 x hs => ?_) ?_
      · simp [hs]
      · exact hs1
  · exact hs1

@[simp] theorem execAlertStuck_bounded {s : State} (h : s.Bounded bd) : Result.Bounded bd (execAlertStuck s) := by
  simp [execAlertStuck, h]

@[simp] theorem execRegulatorTimeout_bounded {r : Rail} {s : State} (h : s.Bounded bd) : Result.Bounded bd (execRegulatorTimeout r s) := by
  simp [execRegulatorTimeout, h]

@[simp] theorem execRailFault_bounded {r : Rail} {s : State} (h : s.Bounded (.limit lim)) : Result.Bounded (.limit lim) (execRailFault r s) := by
  unfold execRailFault
  rw [Result.bounded_next]
  split <;> simp [h]

@[simp] theorem execRailRestored_bounded {r : Rail} {s : State} (h : s.Bounded bd) : Result.Bounded bd (execRailRestored r s) := by
  unfold execRailRestored
  extract_lets s1
  have hs1 : s1.Bounded bd := by simp [s1, h]
  rw [Result.bounded_next]
  split <;> simp [hs1]

@[simp] theorem execNewVoltageReported_bounded {t : Tract} {mv : Nat} {s : State} (h : s.Bounded bd) :
    Result.Bounded bd (execNewVoltageReported t mv s) := by
  unfold execNewVoltageReported
  extract_lets s1
  have hs1 : s1.Bounded bd := by simp [s1, h]
  rw [Result.bounded_next]
  split
  · exact h
  · split <;> simp [hs1]

@[simp] theorem execThrottleN_bounded {high fast : Bool} {s : State} (h : s.Bounded bd) : Result.Bounded bd (execThrottleN high fast s) := by
  simp [execThrottleN, h]

@[simp] theorem execThrottleNHoldEnd_bounded {s : State} (h : s.Bounded bd) : Result.Bounded bd (execThrottleNHoldEnd s) := by
  simp [execThrottleNHoldEnd, h]

@[simp] theorem execThrotStuck_bounded {s : State} (h : s.Bounded bd) : Result.Bounded bd (execThrotStuck s) := by
  simp [execThrotStuck, h]

@[simp] theorem execPathDelayReport_bounded {p : ParcelId} {slackPermille : Nat} {s : State} (h : s.Bounded bd) :
    Result.Bounded bd (execPathDelayReport p slackPermille s) := by
  simp [execPathDelayReport, h]

@[simp] theorem execScreenDue_bounded {s : State} (h : s.Bounded bd) : Result.Bounded bd (execScreenDue s) := by
  unfold execScreenDue
  extract_lets old s1
  have hs1 : s1.Bounded bd := by simp [s1, h]
  rw [Result.bounded_next]
  split
  · exact h
  · refine State.foldl_bounded (fun s2 x hs => ?_) ?_
    · simp [hs]
    · exact hs1

/-! Of Sys2Proof/Machine/Dram.lean. -/

@[simp] theorem State.refreshRule_bounded (s : State) (t : Tract) (tm : Nat) : (s.refreshRule t tm).Bounded bd ↔ s.Bounded bd := by
  unfold State.refreshRule
  extract_lets k cur
  have hk : k.r ≠ .cmLayout := by simp [k]
  split
  · simp [hk]
  · split
    · simp
    · split <;> simp [hk]

@[simp] theorem State.overtemp_bounded (s : State) (t : Tract) (tm : Nat) (was : Bool) (failed : List Nat) :
    (s.overtemp t tm was failed).Bounded bd ↔ s.Bounded bd := by
  unfold State.overtemp
  extract_lets k s1 s2 new s3 s4
  have hk : k.r ≠ .cmLayout := by simp [k]
  have hs2 : s2.Bounded bd ↔ s.Bounded bd := by simp [s2, s1, hk]
  have hs4 : s4.Bounded bd ↔ s.Bounded bd := by simp [s4, s3, hs2, hk]
  exact (State.foldl_bounded_iff (fun s _ => State.emit_bounded s _) new s4).trans hs4

@[simp] theorem execDramTempSample_bounded {t : Tract} {readings : List (Option Nat)} {s : State} (h : s.Bounded (.limit lim)) :
    Result.Bounded (.limit lim) (execDramTempSample t readings s) := by
  simp [execDramTempSample, h]

@[simp] theorem execCatchupEnd_bounded {t : Tract} {s : State} (h : s.Bounded bd) : Result.Bounded bd (execCatchupEnd t s) := by
  simp [execCatchupEnd, h]

@[simp] theorem execDramRefresh_bounded {_p : ParcelId} {_layer : Fin 3} {_bank : Fin 16} {s : State} (h : s.Bounded bd) :
    Result.Bounded bd (execDramRefresh _p _layer _bank s) := by
  simp [execDramRefresh, h]

@[simp] theorem State.scrubUe_bounded {s : State} {p : ParcelId} {off : Nat} (h : s.Bounded bd) : (s.scrubUe p off).Bounded bd := by
  unfold State.scrubUe
  extract_lets u line s1
  have hs1 : s1.Bounded bd := by
    unfold s1
    cases line with
    | none => exact h
    | some l => simp [h]
  simp [hs1]

@[simp] theorem execPatrolScrub_bounded {p : ParcelId} {word : Nat} {found : EccFinding} {s : State} (h : s.Bounded bd) :
    Result.Bounded bd (execPatrolScrub p word found s) := by
  unfold execPatrolScrub
  extract_lets u
  rw [Result.bounded_next]
  split
  · exact h
  · split
    · simp [h]
    · split
      · simp [h]
      · exact h

@[simp] theorem State.leaveTiles_bounded {s : State} {p : ParcelId} {base : Nat} (h : s.Bounded bd) : (s.leaveTiles p base).Bounded bd := by
  unfold State.leaveTiles
  extract_lets low left
  split
  · simp [h]
  · exact h

theorem AMap.get_of_all {κ υ : Type} [DecidableEq κ] {m : AMap κ υ} {P : υ → Prop} {k : κ} {d : υ} (hm : ∀ q ∈ m, q.1 = k → P q.2) (hd : P d) :
    P (AMap.get m k d) := by
  induction m with
  | nil => exact hd
  | cons q m ih =>
    unfold AMap.get
    split
    · rename_i hq
      exact hm q List.mem_cons_self hq
    · exact ih (fun q' hq' => hm q' (List.mem_cons_of_mem q hq'))

/-- A tract at rest has no entry in any list (R138). -/
theorem State.tiles_of_layoutIdle {s : State} {t : Tract} (h : s.layoutIdle t = true) {p : ParcelId} (hp : p.tract = t) : (s.parcel p).tiles = [] := by
  unfold State.layoutIdle at h
  rw [Bool.and_eq_true, List.all_eq_true] at h
  refine AMap.get_of_all (P := fun v : Parcel => v.tiles = []) (fun q hq e => ?_) rfl
  have hlist := h.1 q hq
  simpa [e, hp] using hlist

/-- CM_LAYOUT of a tract set to a value that leaves room for the lists of its parcels. -/
theorem State.setLayout_bounded {s : State} {t : Tract} {v : Nat} (h : s.Bounded (.limit lim))
    (hv : lim = .tiles → ∀ p : ParcelId, p.tract = t → (s.parcel p).tiles.length ≤ bitsOf v 3 0 * 1024) :
    (s.setReg (tractReg .cmLayout t) v).Bounded (.limit lim) := by
  refine ⟨h.1, fun p n hn => ?_⟩
  have hcap : regsTileCap (AMap.put s.regs (tractReg .cmLayout t) v) p.tract = if p.tract = t then bitsOf v 3 0 * 1024 else s.tileCap p.tract := by
    unfold regsTileCap
    rw [AMap.get_put]
    by_cases hp : p.tract = t
    · rw [if_pos hp, if_pos (congrArg _ hp)]
    · rw [if_neg hp, if_neg (fun e => hp (Fin.ext (congrArg RegKey.t e)))]
      rfl
  show (s.parcel p).tiles.length + n ≤ regsTileCap (AMap.put s.regs (tractReg .cmLayout t) v) p.tract
  rw [hcap]
  split
  · rename_i hp
    cases lim
    case tiles => cases hn; exact hv rfl p hp
    all_goals cases hn
  · exact h.tiles hn

/-- A locked CM_LAYOUT keeps its value: each of its fields is RWL (R5). -/
theorem State.writeResult_layout_locked {s : State} (hlock : s.rwlLocked = true) (t : Tract) (v : Nat) :
    (s.writeResult (tractReg .cmLayout t) v).1 = s.reg (tractReg .cmLayout t) := by
  have hfields : (tractReg .cmLayout t).r.row.fields = [fld 3 0 .rwl 2, fld 9 4 .rwl 8, fld 15 10 .rwl 8] := rfl
  unfold State.writeResult
  rw [hfields]
  simp [fld, hlock]

/-- A write of CM_LAYOUT that is not refused keeps the value, is discarded, or finds the tract's lists empty (R7, R138). -/
theorem State.layoutWrite_bounded {s : State} {t : Tract} {v size : Nat} (h : s.Bounded (.limit lim))
    (hok : (s.writeResult (tractReg .cmLayout t) v).1 = s.reg (tractReg .cmLayout t) ∨
      cmLayoutOk (s.writeResult (tractReg .cmLayout t) v).1 = false ∨ s.layoutIdle t = true) :
    (s.regWrite (tractReg .cmLayout t) v size cmLayoutOk).Bounded (.limit lim) := by
  obtain ⟨⟨r, locked⟩, hr⟩ : ∃ x, s.writeResult (tractReg .cmLayout t) v = x := ⟨_, rfl⟩
  unfold State.regWrite
  rw [hr] at hok ⊢
  dsimp only at hok ⊢
  obtain ⟨s', hs'⟩ : ∃ s', (if locked = true then s.emit (s.regRecord .regLocked (tractReg .cmLayout t) v size) else s) = s' := ⟨_, rfl⟩
  rw [hs']
  have hb : s'.Bounded (.limit lim) := by
    subst hs'
    simp [h]
  have hparcels : s'.parcels = s.parcels := by
    subst hs'
    split
    · exact State.emit_parcels _ _
    · rfl
  split
  · rename_i hcheck
    refine State.setLayout_bounded hb (fun hl p hp => ?_)
    subst hl
    have htiles : (s'.parcel p).tiles = (s.parcel p).tiles := congrArg (fun m => (AMap.get m p Parcel.reset).tiles) hparcels
    rw [htiles]
    rcases hok with hsame | hbad | hidle
    · rw [hsame, ← hp]
      exact h.tiles (p := p) rfl
    · rw [hbad] at hcheck
      cases hcheck
    · rw [State.tiles_of_layoutIdle hidle hp]
      exact Nat.zero_le _
  · simp [hb]

@[simp] theorem State.cmLayoutPut_bounded {s : State} {t : Tract} {v size : Nat} (h : s.Bounded (.limit lim)) :
    (s.cmLayoutPut t v size).Bounded (.limit lim) := by
  unfold State.cmLayoutPut
  extract_lets k r s1 base
  split
  · simp [h]
  · rename_i hgo
    have hs1 : s1.Bounded (.limit lim) := by
      refine State.layoutWrite_bounded h ?_
      by_cases hlock : s.rwlLocked = true
      · exact .inl (State.writeResult_layout_locked hlock t v)
      · have hcases : cmLayoutOk r = true → r = s.reg k ∨ s.layoutIdle t = true := by
          intro hok
          by_contra hne
          rw [not_or] at hne
          exact hgo (by simp [hlock, hok, hne.1, hne.2])
        by_cases hok : cmLayoutOk r = true
        · exact (hcases hok).imp_right .inr
        · exact .inr (.inl (Bool.eq_false_iff.2 hok))
    split
    · exact hs1
    · rw [State.takeFree_bounded]
      refine State.foldl_bounded (fun s2 x hs => ?_) ?_
      · simp [hs]
      · exact hs1

@[simp] theorem execCmLayoutWrite_bounded {t : Tract} {value : Word} {s : State} (h : s.Bounded (.limit lim)) :
    Result.Bounded (.limit lim) (execCmLayoutWrite t value s) := by
  unfold execCmLayoutWrite
  rw [Result.bounded_next]
  refine State.atReg_bounded h (fun s1 hs => ?_)
  simp [hs]

@[simp] theorem State.dropRegion_bounded (s : State) (i : Nat) : (s.dropRegion i).Bounded bd ↔ s.Bounded bd := by
  simp [State.dropRegion]

@[simp] theorem State.replPut_bounded (s : State) (i : Nat) {k : RegKey} (v size : Nat) (hk : k.r ≠ .cmLayout) :
    (s.replPut i k v size).Bounded bd ↔ s.Bounded bd := by
  simp [State.replPut, hk]

@[simp] theorem execReplCtlWrite_bounded {i : Fin 16} {value : Word} {s : State} (h : s.Bounded bd) :
    Result.Bounded bd (execReplCtlWrite i value s) := by
  unfold execReplCtlWrite
  rw [Result.bounded_next]
  refine State.atReg_bounded h (fun s1 hs => ?_)
  simp [hs]

@[simp] theorem execReplicaRefill_bounded {t : Tract} {i : Fin 16} {line : Nat} {s : State} (h : s.Bounded bd) :
    Result.Bounded bd (execReplicaRefill t i line s) := by
  unfold execReplicaRefill
  extract_lets l pending
  rw [Result.bounded_next]
  split
  · exact h
  · extract_lets src dst s1 s2
    have hs1 : s1.Bounded bd := by simp [s1, h]
    have hs2 : s2.Bounded bd := by
      unfold s2
      refine State.foldl_bounded (fun s3 x hs => ?_) ?_
      · simp [hs]
      · exact hs1
    simp [h, hs2]

@[simp] theorem execReplicaWriteApplied_bounded {t : Tract} {tag : Nat} {s : State} (h : s.Bounded bd) :
    Result.Bounded bd (execReplicaWriteApplied t tag s) := by
  unfold execReplicaWriteApplied
  rw [Result.bounded_next]
  split <;> simp [h]

/-! Of Sys2Proof/Machine/Job.lean. -/

@[simp] theorem State.jobBusy_bounded (s : State) (value : Nat) : (s.jobBusy value).Bounded bd ↔ s.Bounded bd := by
  simp [State.jobBusy]

@[simp] theorem State.bindJob_bounded (s : State) (modnum : BitVec 12) (value : Nat) : (s.bindJob modnum value).Bounded bd ↔ s.Bounded bd := by
  simp [State.bindJob]

@[simp] theorem State.armJob_bounded (s : State) (value : Nat) : (s.armJob value).Bounded bd ↔ s.Bounded bd := by
  simp [State.armJob]

@[simp] theorem State.beginRelease_bounded (s : State) : (s.beginRelease).Bounded bd ↔ s.Bounded bd := by
  simp [State.beginRelease]

@[simp] theorem State.releaseJob_bounded (s : State) (value : Nat) : (s.releaseJob value).Bounded bd ↔ s.Bounded bd := by
  simp [State.releaseJob]

@[simp] theorem execBind_bounded {modnum : BitVec 12} {s : State} (h : s.Bounded bd) : Result.Bounded bd (execBind modnum s) := by
  simp [execBind, h]

@[simp] theorem execArm_bounded {s : State} (h : s.Bounded bd) : Result.Bounded bd (execArm s) := by
  simp [execArm, h]

@[simp] theorem execRelease_bounded {s : State} (h : s.Bounded bd) : Result.Bounded bd (execRelease s) := by
  simp [execRelease, h]

@[simp] theorem State.jobCtlPut_bounded (s : State) (v size : Nat) : (s.jobCtlPut v size).Bounded bd ↔ s.Bounded bd := by
  unfold State.jobCtlPut
  split <;> simp

@[simp] theorem execFlr_bounded {s : State} (h : s.Bounded bd) : Result.Bounded bd (execFlr s) := by
  simp [execFlr, h]

@[simp] theorem State.armReject_bounded (s : State) (f : Nat × Nat × Option ParcelId × Nat) : (s.armReject f).Bounded bd ↔ s.Bounded bd := by
  simp [State.armReject]

@[simp] theorem execArmValidated_bounded {s : State} (h : s.Bounded bd) : Result.Bounded bd (execArmValidated s) := by
  unfold execArmValidated
  extract_lets old s1 old1 old2 s2
  have hs1 : s1.Bounded bd := by simp [s1, h]
  have hs2 : s2.Bounded bd := by simp [s2, hs1]
  rw [Result.bounded_next]
  split
  · exact h
  · split <;> simp [hs1, hs2]

@[simp] theorem State.abortEntries_bounded (s : State) (q : QueueId) : (s.abortEntries q).Bounded bd ↔ s.Bounded bd := by
  unfold State.abortEntries
  refine State.foldl_bounded_iff (fun s1 x => ?_) _ _
  simp

@[simp] theorem execReleaseDrainTimeout_bounded {s : State} (h : s.Bounded bd) : Result.Bounded bd (execReleaseDrainTimeout s) := by
  unfold execReleaseDrainTimeout
  rw [Result.bounded_next]
  split
  · refine State.foldl_bounded (fun s1 x hs => ?_) ?_
    · simp [hs]
    · exact h
  · exact h

/-- After a release nothing waits in any core or list. -/
@[simp] theorem State.scrub_bounded (s : State) : s.scrub.Bounded (.limit lim) := by
  refine Bound.holds_of_empty (fun c => ?_) (fun p => ?_)
  · exact AMap.get_map_rel (m := s.returnBuffers.cores) (R := fun k _ => k.count (.limit lim) = 0) (fun _ => rfl) (fun _ => Core.count_reset)
      Core.count_reset
  · exact AMap.get_map_rel (m := s.returnBuffers.parcels) (R := fun v _ => v.tiles = []) (fun _ => rfl) (fun _ => rfl) rfl

@[simp] theorem execReleaseScrubDone_bounded {s : State} (h : s.Bounded (.limit lim)) : Result.Bounded (.limit lim) (execReleaseScrubDone s) := by
  simp [execReleaseScrubDone, h]

/-! Of Sys2Proof/Machine/Security.lean. -/

@[simp] theorem State.goPut_bounded (s : State) : (s.goPut).Bounded bd ↔ s.Bounded bd := by
  simp [State.goPut]

@[simp] theorem execGo_bounded {s : State} (h : s.Bounded bd) : Result.Bounded bd (execGo s) := by
  simp [execGo, h]

@[simp] theorem State.updateFailed_bounded (s : State) (check : Nat) : (s.updateFailed check).Bounded bd ↔ s.Bounded bd := by
  simp [State.updateFailed]

@[simp] theorem execUpdateVerifyDone_bounded {failedCheck : Nat} {s : State} (h : s.Bounded bd) :
    Result.Bounded bd (execUpdateVerifyDone failedCheck s) := by
  unfold execUpdateVerifyDone
  extract_lets im s1 s2
  have hs1 : s1.Bounded bd := by simp [s1, h]
  have hs2 : s2.Bounded bd := by simp [s2, hs1]
  rw [Result.bounded_next]
  split
  · exact h
  · split <;> simp [hs1, hs2]

@[simp] theorem State.stagingPut_bounded (s : State) (off : Nat) (data : List Byte) : (s.stagingPut off data).Bounded bd ↔ s.Bounded bd := by
  simp [State.stagingPut]

@[simp] theorem execStagingWrite_bounded {offset : Nat} {data : List Byte} {s : State} (h : s.Bounded bd) :
    Result.Bounded bd (execStagingWrite offset data s) := by
  simp [execStagingWrite, h]

@[simp] theorem State.newNonce_bounded (s : State) : (s.newNonce).Bounded bd ↔ s.Bounded bd := by
  simp [State.newNonce]

@[simp] theorem State.unlockToken_bounded (s : State) (tok : Sys2Proof.Token) : (s.unlockToken tok).Bounded bd ↔ s.Bounded bd := by
  simp [State.unlockToken]

@[simp] theorem State.putToken_bounded (s : State) (tok : Sys2Proof.Token) : (s.putToken tok).Bounded bd ↔ s.Bounded bd := by
  simp [State.putToken]

@[simp] theorem execUnlock_bounded {tok : Sys2Proof.Token} {s : State} (h : s.Bounded bd) : Result.Bounded bd (execUnlock tok s) := by
  unfold execUnlock
  rw [Result.bounded_next]
  refine State.atReg_bounded h (fun s1 hs => ?_)
  simp [hs]

@[simp] theorem execDbgNonceRead_bounded {offset size : Nat} {s : State} (h : s.Bounded bd) : Result.Bounded bd (execDbgNonceRead offset size s) := by
  simp [execDbgNonceRead, h]

@[simp] theorem State.modSpdm_bounded (s : State) (f : Spdm → Spdm) : (s.modSpdm f).Bounded bd ↔ s.Bounded bd := by
  simp [State.modSpdm]

@[simp] theorem State.spdmError_bounded (s : State) (code : Nat) : (s.spdmError code).Bounded bd ↔ s.Bounded bd := by
  simp [State.spdmError]

theorem State.spdmServe_bounded {s : State} {r : SpdmReq} {ready : Spdm → Bool} {act : State → State} (h : s.Bounded bd)
    (hact : ∀ t, t.Bounded bd → (act t).Bounded bd) :
    (s.spdmServe r ready act).Bounded bd := by
  simp [State.spdmServe, h, hact]

@[simp] theorem State.spdmSigned_bounded (s : State) (r : SpdmReq) (code : Nat) (body : List Byte) :
    (s.spdmSigned r code body).Bounded bd ↔ s.Bounded bd := by
  simp [State.spdmSigned]

@[simp] theorem execGetVersion_bounded {r : SpdmReq} {s : State} (h : s.Bounded bd) : Result.Bounded bd (execGetVersion r s) := by
  unfold execGetVersion
  extract_lets old
  rw [Result.bounded_next]
  refine State.spdmServe_bounded h (fun s1 hs => ?_)
  simp [hs]

@[simp] theorem execGetCapabilities_bounded {r : SpdmReq} {s : State} (h : s.Bounded bd) : Result.Bounded bd (execGetCapabilities r s) := by
  unfold execGetCapabilities
  rw [Result.bounded_next]
  refine State.spdmServe_bounded h (fun s1 hs => ?_)
  simp [hs]

@[simp] theorem execNegotiateAlgorithms_bounded {r : SpdmReq} {s : State} (h : s.Bounded bd) : Result.Bounded bd (execNegotiateAlgorithms r s) := by
  unfold execNegotiateAlgorithms
  rw [Result.bounded_next]
  refine State.spdmServe_bounded h (fun s1 hs => ?_)
  simp [hs]

@[simp] theorem execGetDigests_bounded {r : SpdmReq} {s : State} (h : s.Bounded bd) : Result.Bounded bd (execGetDigests r s) := by
  unfold execGetDigests
  rw [Result.bounded_next]
  refine State.spdmServe_bounded h (fun s1 hs => ?_)
  simp [hs]

@[simp] theorem execGetCertificate_bounded {r : SpdmReq} {s : State} (h : s.Bounded bd) : Result.Bounded bd (execGetCertificate r s) := by
  unfold execGetCertificate
  rw [Result.bounded_next]
  refine State.spdmServe_bounded h (fun s1 hs => ?_)
  simp [hs]

@[simp] theorem execChallenge_bounded {r : SpdmReq} {s : State} (h : s.Bounded bd) : Result.Bounded bd (execChallenge r s) := by
  unfold execChallenge
  rw [Result.bounded_next]
  refine State.spdmServe_bounded h (fun s1 hs => ?_)
  simp [hs]

@[simp] theorem execGetMeasurements_bounded {r : SpdmReq} {s : State} (h : s.Bounded bd) : Result.Bounded bd (execGetMeasurements r s) := by
  unfold execGetMeasurements
  rw [Result.bounded_next]
  refine State.spdmServe_bounded h (fun s1 hs => ?_)
  split
  · simp [hs]
  · split
    · simp [hs]
    · split
      · dsimp only
        split <;> simp [hs]
      · dsimp only
        split <;> simp [hs]

@[simp] theorem execKeyExchange_bounded {r : SpdmReq} {s : State} (h : s.Bounded bd) : Result.Bounded bd (execKeyExchange r s) := by
  unfold execKeyExchange
  rw [Result.bounded_next]
  refine State.spdmServe_bounded h (fun s1 hs => ?_)
  simp [hs]

@[simp] theorem execFinish_bounded {r : SpdmReq} {s : State} (h : s.Bounded bd) : Result.Bounded bd (execFinish r s) := by
  unfold execFinish
  rw [Result.bounded_next]
  refine State.spdmServe_bounded h (fun s1 hs => ?_)
  simp [hs]

@[simp] theorem execHeartbeat_bounded {r : SpdmReq} {s : State} (h : s.Bounded bd) : Result.Bounded bd (execHeartbeat r s) := by
  unfold execHeartbeat
  rw [Result.bounded_next]
  refine State.spdmServe_bounded h (fun s1 hs => ?_)
  simp [hs]

@[simp] theorem execEndSession_bounded {r : SpdmReq} {s : State} (h : s.Bounded bd) : Result.Bounded bd (execEndSession r s) := by
  unfold execEndSession
  rw [Result.bounded_next]
  refine State.spdmServe_bounded h (fun s1 hs => ?_)
  simp [hs]

/-! Of Sys2Proof/Machine/Stash.lean. -/

@[simp] theorem State.stashCfgPut_bounded (s : State) (t : Tract) (n v size : Nat) : (s.stashCfgPut t n v size).Bounded bd ↔ s.Bounded bd := by
  unfold State.stashCfgPut
  dsimp only
  split
  · refine (State.foldl_bounded_iff (fun s1 x => ?_) _ _).trans ?_
    · simp
    · simp
  · simp

@[simp] theorem execStashRst_bounded {p : ParcelId} {s : State} (h : s.Bounded bd) : Result.Bounded bd (execStashRst p s) := by
  unfold execStashRst
  rw [Result.bounded_next]
  refine State.atReg_bounded h (fun s1 hs => ?_)
  simp [hs]

@[simp] theorem execStashCfgWrite_bounded {t : Tract} {n : Fin 256} {value : DWord} {s : State} (h : s.Bounded bd) :
    Result.Bounded bd (execStashCfgWrite t n value s) := by
  unfold execStashCfgWrite
  rw [Result.bounded_next]
  refine State.atReg_bounded h (fun s1 hs => ?_)
  simp [hs]

/-! Of Sys2Proof/Machine/TestPort.lean. -/

@[simp] theorem execTestmuxSelWrite_bounded {value : Word} {s : State} (h : s.Bounded bd) : Result.Bounded bd (execTestmuxSelWrite value s) := by
  unfold execTestmuxSelWrite
  rw [Result.bounded_next]
  refine State.atReg_bounded h (fun s1 hs => ?_)
  simp [hs]

@[simp] theorem State.tapTake_bounded (s : State) (ok : Bool) (i : TapInstr) : (s.tapTake ok i).Bounded bd ↔ s.Bounded bd := by
  simp [State.tapTake]

@[simp] theorem execIdcode_bounded {s : State} (h : s.Bounded bd) : Result.Bounded bd (execIdcode s) := by
  simp [execIdcode, h]

@[simp] theorem State.capture_bounded (s : State) : (s.capture).Bounded bd ↔ s.Bounded bd := by
  simp [State.capture]

@[simp] theorem execSamplePreload_bounded {s : State} (h : s.Bounded bd) : Result.Bounded bd (execSamplePreload s) := by
  simp [execSamplePreload, h]

@[simp] theorem execExtest_bounded {s : State} (h : s.Bounded bd) : Result.Bounded bd (execExtest s) := by
  simp [execExtest, h]

@[simp] theorem execClamp_bounded {s : State} (h : s.Bounded bd) : Result.Bounded bd (execClamp s) := by
  simp [execClamp, h]

@[simp] theorem execHighz_bounded {s : State} (h : s.Bounded bd) : Result.Bounded bd (execHighz s) := by
  simp [execHighz, h]

@[simp] theorem execPrivateInstruction_bounded {code : BitVec 8} {s : State} (h : s.Bounded bd) :
    Result.Bounded bd (execPrivateInstruction code s) := by
  simp [execPrivateInstruction, h]

@[simp] theorem execBypass_bounded {s : State} (h : s.Bounded bd) : Result.Bounded bd (execBypass s) := by
  simp [execBypass, h]

@[simp] theorem execTapReset_bounded {s : State} (h : s.Bounded bd) : Result.Bounded bd (execTapReset s) := by
  simp [execTapReset, h]

/-! Of Sys2Proof/Machine/RegWrite.lean. -/

@[simp] theorem State.ringTurn_bounded (s : State) (was : Nat) : (s.ringTurn was).Bounded bd ↔ s.Bounded bd := by
  simp [State.ringTurn]

@[simp] theorem State.linkCtlPut_bounded {s : State} {k : RegKey} {v size : Nat} (h : s.Bounded bd) (hk : k.r ≠ .cmLayout) :
    (s.linkCtlPut k v size).Bounded bd := by
  simp [State.linkCtlPut, h, hk]

@[simp] theorem State.snapCtlPut_bounded {s : State} {k : RegKey} {v size : Nat} (h : s.Bounded bd) (hk : k.r ≠ .cmLayout) :
    (s.snapCtlPut k v size).Bounded bd := by
  unfold State.snapCtlPut
  extract_lets ok s1 s2
  have hs1 : s1.Bounded bd := by simp [s1, h, hk]
  have hs2 : s2.Bounded bd := by simp [s2, hs1]
  split
  · exact State.askRemap_bounded hs2
  · exact hs2

@[simp] theorem State.parcelPut_bounded {s : State} {k : RegKey} {p : ParcelId} {v size : Nat} (h : s.Bounded bd) (hk : k.r ≠ .cmLayout) :
    (s.parcelPut k p v size).Bounded bd := by
  unfold State.parcelPut
  extract_lets s1
  have hs1 : s1.Bounded bd := by simp [s1, h, hk]
  split <;> simp [h, hs1, hk]

@[simp] theorem State.queuePut_bounded (s : State) {k : RegKey} (q : QueueId) (v size : Nat) (hk : k.r ≠ .cmLayout) :
    (s.queuePut k q v size).Bounded bd ↔ s.Bounded bd := by
  unfold State.queuePut
  split <;> simp [hk]

@[simp] theorem State.tractPut_bounded {s : State} {k : RegKey} {t : Tract} {v size : Nat} (h : s.Bounded (.limit lim)) :
    (s.tractPut k t v size).Bounded (.limit lim) := by
  unfold State.tractPut
  split
  · simp [h]
  · simp [h]
  · simp [h]
  · rename_i hk _ _
    exact (State.regWrite_bounded s v size _ hk).2 h

@[simp] theorem State.modulePut_bounded {s : State} {k : RegKey} {v size : Nat} (h : s.Bounded (.limit lim)) (hk : k.r ≠ .cmLayout) :
    (s.modulePut k v size).Bounded (.limit lim) := by
  unfold State.modulePut
  extract_lets s' s'1 s1 s2 was ok s3
  have hs' : s'.Bounded (.limit lim) := by simp [s', h, hk]
  have hs'1 : s'1.Bounded (.limit lim) := hs'
  have hs1 : s1.Bounded (.limit lim) := hs'1
  have hs2 : s2.Bounded (.limit lim) := hs1
  have hs3 : s3.Bounded (.limit lim) := by simp [s3, h, hk]
  split <;> simp [h, hs', hs'1, hs1, hs2, hs3, hk]

@[simp] theorem State.regPut_bounded {s : State} {k : RegKey} {v size : Nat} (h : s.Bounded (.limit lim)) : (s.regPut k v size).Bounded (.limit lim) := by
  have hk : k.r.row.scope ≠ .tract → k.r ≠ .cmLayout := fun hne e => hne (by rw [e]; rfl)
  unfold State.regPut
  generalize k.r.row.scope = scope at hk ⊢
  cases scope with
  | module => simp [h, hk]
  | tract =>
    generalize k.tract = t
    cases t <;> simp [h]
  | queue =>
    generalize k.queue = q
    cases q <;> simp [h, hk]
  | parcel =>
    generalize k.parcel = p
    cases p <;> simp [h, hk]

@[simp] theorem State.slotPut_bounded {s : State} {k : RegKey} {byte size v : Nat} (h : s.Bounded (.limit lim)) : (s.slotPut k byte size v).Bounded (.limit lim) := by
  unfold State.slotPut
  split
  · exact State.regPut_bounded h
  · split
    · split
      · split <;> simp [h]
      · split <;> exact State.regPut_bounded h
    · exact h

@[simp] theorem State.barRefuse_bounded (s : State) (bar off size : Nat) : (s.barRefuse bar off size).Bounded (.limit lim) ↔ s.Bounded (.limit lim) := by
  simp [State.barRefuse]

@[simp] theorem State.wordPut_bounded {s : State} {place : Nat → BarPlace} {bar off size v : Nat} (h : s.Bounded (.limit lim)) :
    (s.wordPut place bar off size v).Bounded (.limit lim) := by
  unfold State.wordPut
  split
  · extract_lets second
    split <;> simp [second, h]
  · extract_lets second
    split <;> simp [second, h]

@[simp] theorem State.narrowPut_bounded {s : State} {place : Nat → BarPlace} {bar off size v : Nat} (h : s.Bounded (.limit lim)) :
    (s.narrowPut place bar off size v).Bounded (.limit lim) := by
  unfold State.narrowPut
  extract_lets old
  split <;> simp [h]

@[simp] theorem State.barWrite_bounded {s : State} {place : Nat → BarPlace} {bar off size v : Nat} (h : s.Bounded (.limit lim)) :
    (s.barWrite place bar off size v).Bounded (.limit lim) := by
  simp [State.barWrite, h]

@[simp] theorem execRegisterWrite_bounded {a : RegAccess} {s : State} (h : s.Bounded (.limit lim)) : Result.Bounded (.limit lim) (execRegisterWrite a s) := by
  simp [execRegisterWrite, h]


end Sys2Proof.Machine
end

section
/-!
PROOFS (O2). The bounds of O2 in the host's accesses, audits, the Mover, the vector engine and the optimizer; then the step.
-/
namespace Sys2Proof.Machine

variable {bd : Bound} {lim : Limit}

/-! Of Sys2Proof/Machine/BarRead.lean. -/

@[simp] theorem State.latch_bounded (s : State) (place : BarPlace) (size : Nat) : (s.latch place size).Bounded bd ↔ s.Bounded bd := by
  unfold State.latch
  extract_lets without old
  split <;> simp

@[simp] theorem State.hostBarRead_bounded (s : State) (off size : Nat) : (s.hostBarRead off size).Bounded bd ↔ s.Bounded bd := by
  unfold State.hostBarRead
  extract_lets fresh s1
  have hs1 : s1.Bounded bd ↔ s.Bounded bd := by simp [s1]
  split
  · exact Iff.rfl
  · split <;> simp [hs1]

/-! Of Sys2Proof/Machine/Host.lean. -/

@[simp] theorem State.configRead_bounded (s : State) (off n : Nat) : (s.configRead off n).Bounded bd ↔ s.Bounded bd := by
  simp [State.configRead]

@[simp] theorem State.bar2Size_bounded (s : State) (k : Nat) : (s.bar2Size k).Bounded bd ↔ s.Bounded bd := by
  simp [State.bar2Size]

@[simp] theorem State.apertureRefuse_bounded (s : State) (off n : Nat) (write bad : Bool) :
    (s.apertureRefuse off n write bad).Bounded bd ↔ s.Bounded bd := by
  simp [State.apertureRefuse]

@[simp] theorem State.apertureRead_bounded {s : State} {off n : Nat} (h : s.Bounded bd) : (s.apertureRead off n).Bounded bd := by
  unfold State.apertureRead
  extract_lets ps bs s1
  have hs1 : s1.Bounded bd := by
    unfold s1
    refine State.foldl_bounded (fun s2 x hs => ?_) ?_
    · split
      · extract_lets s3
        have hs3 : s3.Bounded bd := by simp [s3, hs]
        split <;> simp [hs3]
      · exact hs
    · exact h
  simp [h, hs1]

@[simp] theorem State.pieceWrite_bounded {s : State} {off : Nat} {data : List Byte} {q : Option Nat × Nat × Nat} (h : s.Bounded (.limit lim)) :
    (s.pieceWrite off data q).Bounded (.limit lim) := by
  unfold State.pieceWrite
  extract_lets bs
  split
  · simp [h]
  · split <;> simp [h]
  · split <;> simp [h]
  · split <;> simp [h]
  · exact h

@[simp] theorem State.apertureWrite_bounded {s : State} {off : Nat} {data : List Byte} {bad : Bool} (h : s.Bounded (.limit lim)) :
    (s.apertureWrite off data bad).Bounded (.limit lim) := by
  unfold State.apertureWrite
  extract_lets ps
  split
  · simp [h]
  · refine State.foldl_bounded (fun s1 x hs => ?_) ?_
    · simp [hs]
    · exact h

@[simp] theorem execHostApertureAccess_bounded {a : HostAccess} {s : State} (h : s.Bounded (.limit lim)) : Result.Bounded (.limit lim) (execHostApertureAccess a s) := by
  unfold execHostApertureAccess
  rw [Result.bounded_next]
  split <;> simp [h]

@[simp] theorem State.linkLost_bounded (s : State) : (s.linkLost).Bounded (.limit lim) ↔ s.Bounded (.limit lim) := by
  simp [State.linkLost]

@[simp] theorem execPcieLinkDown_bounded {s : State} (h : s.Bounded (.limit lim)) : Result.Bounded (.limit lim) (execPcieLinkDown s) := by
  simp [execPcieLinkDown, h]

@[simp] theorem execPcieLinkUp_bounded {s : State} (h : s.Bounded (.limit lim)) : Result.Bounded (.limit lim) (execPcieLinkUp s) := by
  simp [execPcieLinkUp, h]

@[simp] theorem execPerstN_bounded {high fast : Bool} {s : State} (h : s.Bounded (.limit lim)) : Result.Bounded (.limit lim) (execPerstN high fast s) := by
  simp [execPerstN, h]

@[simp] theorem execPerstNHoldEnd_bounded {s : State} (h : s.Bounded (.limit lim)) : Result.Bounded (.limit lim) (execPerstNHoldEnd s) := by
  simp [execPerstNHoldEnd, h]

/-! Of Sys2Proof/Machine/Audit.lean. -/

@[simp] theorem State.laneReport_bounded (s : State) (p : ParcelId) (found : List Nat) : (s.laneReport p found).Bounded bd ↔ s.Bounded bd := by
  unfold State.laneReport
  refine (State.foldl_bounded_iff (fun s1 x => ?_) _ _).trans ?_
  · split <;> simp
  · simp

@[simp] theorem State.channelRun_bounded (s : State) (t : Tract) (ga : Nat) (bs : List MByte) :
    (s.channelRun t ga bs).1.Bounded bd ↔ s.Bounded bd := by
  unfold State.channelRun
  extract_lets first err picks out
  split
  · exact Iff.rfl
  · dsimp only
    refine State.foldl_bounded_iff (fun s1 x => ?_) _ _
    split <;> simp

/-! Of Sys2Proof/Machine/Mover.lean. -/

@[simp] theorem MovRun.put_bounded {r : MovRun} {keep : Bool} {ga : Nat} {bs : List MByte} (hr : r.s.Bounded bd) :
    (r.put keep ga bs).s.Bounded bd := by
  unfold MovRun.put
  split <;> simp [hr]

/-- The runs of an entry, written in order. -/
theorem MovRun.foldl_bounded {α : Type} {f : MovRun → α → MovRun} (hf : ∀ r x, r.s.Bounded bd → (f r x).s.Bounded bd) {l : List α} {r : MovRun}
    (h : r.s.Bounded bd) : (l.foldl f r).s.Bounded bd :=
  List.foldlRecOn (motive := fun r => r.s.Bounded bd) l f h (fun r hr x _ => hf r x hr)

@[simp] theorem State.movPerform_bounded {s : State} {t : Tract} {id : Nat} {e : MovEntry} {net : List NetReply} (h : s.Bounded bd) :
    (s.movPerform t id e net).1.Bounded bd := by
  unfold State.movPerform
  extract_lets byIdx s1
  have hs1 : s1.Bounded bd := by simp [s1, h]
  split
  rename_i il net0 hread
  have hs2 : (if byIdx then s1.touchAt t e.idx (4 * e.idxcnt) else s1).Bounded bd := by simp [hs1]
  split
  · exact hs2
  · extract_lets idx runs s3
    have hs3 : s3.Bounded bd := (State.engReplies_bounded _ _ _ _ _ _).2 hs2
    split
    rename_i away came net1 hfetch
    refine (State.convFlags_bounded _ _ _).2 (MovRun.foldl_bounded (fun r x hr => MovRun.put_bounded hr) ?_)
    refine (State.takeFree_bounded _).2 (State.foldl_bounded (fun s x hs => ?_) ?_)
    · simp [hs]
    · exact hs3

@[simp] theorem State.movReplica_bounded (s : State) (t : Tract) (e : MovEntry) : (s.movReplica t e).Bounded bd ↔ s.Bounded bd := by
  unfold State.movReplica
  split <;> simp

@[simp] theorem State.movStart_bounded {s : State} {t : Tract} {op : Nat} {net : List NetReply} (h : s.Bounded bd) :
    (s.movStart t op net).Bounded bd := by
  unfold State.movStart
  extract_lets q busy
  split <;> simp [h]

@[simp] theorem execCopy_bounded {t : Tract} {net : List NetReply} {s : State} (h : s.Bounded bd) : Result.Bounded bd (execCopy t net s) := by
  simp [execCopy, h]

@[simp] theorem execFill_bounded {t : Tract} {net : List NetReply} {s : State} (h : s.Bounded bd) : Result.Bounded bd (execFill t net s) := by
  simp [execFill, h]

@[simp] theorem execGather_bounded {t : Tract} {net : List NetReply} {s : State} (h : s.Bounded bd) : Result.Bounded bd (execGather t net s) := by
  simp [execGather, h]

@[simp] theorem execScatter_bounded {t : Tract} {net : List NetReply} {s : State} (h : s.Bounded bd) : Result.Bounded bd (execScatter t net s) := by
  simp [execScatter, h]

@[simp] theorem execTranspose_bounded {t : Tract} {net : List NetReply} {s : State} (h : s.Bounded bd) :
    Result.Bounded bd (execTranspose t net s) := by
  simp [execTranspose, h]

@[simp] theorem execSkew_bounded {t : Tract} {net : List NetReply} {s : State} (h : s.Bounded bd) : Result.Bounded bd (execSkew t net s) := by
  simp [execSkew, h]

@[simp] theorem execReblock_bounded {t : Tract} {net : List NetReply} {s : State} (h : s.Bounded bd) : Result.Bounded bd (execReblock t net s) := by
  simp [execReblock, h]

@[simp] theorem execMoverEntryComplete_bounded {t : Tract} {k : Nat} {s : State} (h : s.Bounded bd) :
    Result.Bounded bd (execMoverEntryComplete t k s) := by
  unfold execMoverEntryComplete
  extract_lets q
  rw [Result.bounded_next]
  split <;> simp [h]

/-! Of Sys2Proof/Machine/Vector.lean. -/

@[simp] theorem State.touchList_bounded {s : State} {p : ParcelId} {list size cap : Nat} (h : s.Bounded bd) :
    (s.touchList p list size cap).Bounded bd := by
  simp [State.touchList, h]

@[simp] theorem State.vecReplica_bounded (s : State) (t : Tract) (st : Nat) (ws : List (Nat × Nat)) :
    (s.vecReplica t st ws).Bounded bd ↔ s.Bounded bd := by
  unfold State.vecReplica
  split <;> simp

@[simp] theorem State.vecFlags_bounded (s : State) (p : ParcelId) (fl : FlagSet) : (s.vecFlags p fl).Bounded bd ↔ s.Bounded bd := by
  simp [State.vecFlags]

@[simp] theorem VDesc.group_bounded {d : VDesc} {old : State} {draw : Nat} {p : ParcelId} {fix : Nat → Nat → Nat} {r : VRun} {g : Nat × Nat}
    (hr : r.s.Bounded bd) : (d.group old draw p fix r g).s.Bounded bd := by
  simp [VDesc.group, hr]

@[simp] theorem State.vecDotRun_bounded (s : State) (p : ParcelId) (acc : Option Word) (ps : List (Num × Num)) :
    (s.vecDotRun p acc ps).1.Bounded bd ↔ s.Bounded bd := by
  unfold State.vecDotRun
  extract_lets l old
  split <;> simp

@[simp] theorem State.vecScalar_bounded {s : State} {key : Nat} {w : Word} {bad : Bool} (h : s.Bounded bd) :
    (s.vecScalar key w bad).Bounded bd := by
  simp [State.vecScalar, h]

/-- The results of a descriptor, written group by group. -/
theorem VRun.foldl_bounded {α : Type} {f : VRun → α → VRun} (hf : ∀ r x, r.s.Bounded bd → (f r x).s.Bounded bd) {l : List α} {r : VRun}
    (h : r.s.Bounded bd) : (l.foldl f r).s.Bounded bd :=
  List.foldlRecOn (motive := fun r => r.s.Bounded bd) l f h (fun r hr x _ => hf r x hr)

/-- What is done to the parcel's vector engine does not reach its list. -/
theorem State.modVec_bounded (s : State) (p : ParcelId) (f : Parcel → VecEngine) :
    (s.modParcel p (fun v => { v with vec := f v })).Bounded bd ↔ s.Bounded bd :=
  State.modParcel_bounded_iff s p (fun _ => rfl)

@[simp] theorem State.vecRun_bounded {s : State} {p : ParcelId} {d : VDesc} (h : s.Bounded bd) : (s.vecRun p d).1.Bounded bd := by
  unfold State.vecRun
  extract_lets s1 draw s2 elems nums l r0 r
  have hs1 : s1.Bounded bd := State.foldl_bounded (fun s x hs => by simp [hs]) h
  have hs2 : s2.Bounded bd := by simp [s2, hs1]
  have hr0 : r0.s.Bounded bd := VRun.foldl_bounded (fun r x hr => VDesc.group_bounded hr) hs2
  have hr : r.s.Bounded bd := by simp [r, hr0]
  split
  · split
    · simp [hr]
    · exact hr
  · split
    · simp [hs2]
    · split
      · simp [hs2]
      · split
        · refine (State.bounded_ite _ _ _).2 ?_
          split
          · exact (State.modVec_bounded _ _ (fun v => { v.vec with flags := 0 })).2 (State.vecScalar_bounded hs2)
          · exact State.vecScalar_bounded hs2
        · exact hs2

@[simp] theorem State.vecStep_bounded {s : State} {p : ParcelId} {vop : Nat} (h : s.Bounded bd) : (s.vecStep p vop).Bounded bd := by
  unfold State.vecStep
  split <;> simp [h]

@[simp] theorem execVnop_bounded {p : ParcelId} {s : State} (h : s.Bounded bd) : Result.Bounded bd (execVnop p s) := by
  simp [execVnop, h]

@[simp] theorem execVadd_bounded {p : ParcelId} {s : State} (h : s.Bounded bd) : Result.Bounded bd (execVadd p s) := by
  simp [execVadd, h]

@[simp] theorem execVsub_bounded {p : ParcelId} {s : State} (h : s.Bounded bd) : Result.Bounded bd (execVsub p s) := by
  simp [execVsub, h]

@[simp] theorem execVmul_bounded {p : ParcelId} {s : State} (h : s.Bounded bd) : Result.Bounded bd (execVmul p s) := by
  simp [execVmul, h]

@[simp] theorem execVfma_bounded {p : ParcelId} {s : State} (h : s.Bounded bd) : Result.Bounded bd (execVfma p s) := by
  simp [execVfma, h]

@[simp] theorem execVaxpy_bounded {p : ParcelId} {s : State} (h : s.Bounded bd) : Result.Bounded bd (execVaxpy p s) := by
  simp [execVaxpy, h]

@[simp] theorem execVdiv_bounded {p : ParcelId} {s : State} (h : s.Bounded bd) : Result.Bounded bd (execVdiv p s) := by
  simp [execVdiv, h]

@[simp] theorem execVsqrt_bounded {p : ParcelId} {s : State} (h : s.Bounded bd) : Result.Bounded bd (execVsqrt p s) := by
  simp [execVsqrt, h]

@[simp] theorem execVmin_bounded {p : ParcelId} {s : State} (h : s.Bounded bd) : Result.Bounded bd (execVmin p s) := by
  simp [execVmin, h]

@[simp] theorem execVmax_bounded {p : ParcelId} {s : State} (h : s.Bounded bd) : Result.Bounded bd (execVmax p s) := by
  simp [execVmax, h]

@[simp] theorem execVcmp_bounded {p : ParcelId} {s : State} (h : s.Bounded bd) : Result.Bounded bd (execVcmp p s) := by
  simp [execVcmp, h]

@[simp] theorem execVcvt_bounded {p : ParcelId} {s : State} (h : s.Bounded bd) : Result.Bounded bd (execVcvt p s) := by
  simp [execVcvt, h]

@[simp] theorem execVexp_bounded {p : ParcelId} {s : State} (h : s.Bounded bd) : Result.Bounded bd (execVexp p s) := by
  simp [execVexp, h]

@[simp] theorem execVlog_bounded {p : ParcelId} {s : State} (h : s.Bounded bd) : Result.Bounded bd (execVlog p s) := by
  simp [execVlog, h]

@[simp] theorem execVtanh_bounded {p : ParcelId} {s : State} (h : s.Bounded bd) : Result.Bounded bd (execVtanh p s) := by
  simp [execVtanh, h]

@[simp] theorem execVrsqrt_bounded {p : ParcelId} {s : State} (h : s.Bounded bd) : Result.Bounded bd (execVrsqrt p s) := by
  simp [execVrsqrt, h]

@[simp] theorem execVdot_bounded {p : ParcelId} {s : State} (h : s.Bounded bd) : Result.Bounded bd (execVdot p s) := by
  simp [execVdot, h]

@[simp] theorem execVrmax_bounded {p : ParcelId} {s : State} (h : s.Bounded bd) : Result.Bounded bd (execVrmax p s) := by
  simp [execVrmax, h]

@[simp] theorem execVtree_bounded {p : ParcelId} {s : State} (h : s.Bounded bd) : Result.Bounded bd (execVtree p s) := by
  simp [execVtree, h]

@[simp] theorem execVfin_bounded {p : ParcelId} {s : State} (h : s.Bounded bd) : Result.Bounded bd (execVfin p s) := by
  simp [execVfin, h]

@[simp] theorem execVflg_bounded {p : ParcelId} {s : State} (h : s.Bounded bd) : Result.Bounded bd (execVflg p s) := by
  simp [execVflg, h]

theorem State.vecStart_bounded {s : State} {t : Tract} {op : Nat} {act : State → QEntry → State} {may : QEntry → Bool} (h : s.Bounded bd)
    (hact : ∀ t x, t.Bounded bd → (act t x).Bounded bd) :
    (s.vecStart t op act may).Bounded bd := by
  unfold State.vecStart
  extract_lets q
  split <;> simp [h, hact]

@[simp] theorem State.vrunAct_bounded {s : State} {t : Tract} {e : QEntry} (h : s.Bounded bd) : (s.vrunAct t e).Bounded bd := by
  obtain ⟨g, hg⟩ : ∃ g, @State.vrunAct = g := ⟨_, rfl⟩
  obtain ⟨least, hleast⟩ : ∃ f, minStatus = f := ⟨_, rfl⟩
  rw [hg]
  delta State.vrunAct at hg
  rw [hleast] at hg
  subst hg
  beta_reduce
  extract_lets q ps s1 lists st early
  have hs1 : s1.Bounded bd := State.foldl_bounded (fun s x hs => by simp [hs]) h
  split
  · refine (State.setWork_bounded _ _ _ _).2 (State.foldl_bounded (fun s x hs => ?_) hs1)
    split <;> simp [hs]
  · simp [hs1]

@[simp] theorem execVrun_bounded {t : Tract} {s : State} (h : s.Bounded bd) : Result.Bounded bd (execVrun t s) := by
  unfold execVrun
  rw [Result.bounded_next]
  refine State.vecStart_bounded h (fun s1 x hs => ?_)
  exact State.vrunAct_bounded hs

@[simp] theorem State.vecClose_bounded (s : State) (t : Tract) (id : Nat) : (s.vecClose t id).Bounded bd ↔ s.Bounded bd := by
  unfold State.vecClose
  extract_lets xs s1
  have hs1 : s1.Bounded bd ↔ s.Bounded bd := by
    unfold s1
    refine State.foldl_bounded_iff (fun s2 x => ?_) _ _
    simp
  simp [hs1]

@[simp] theorem execVectorEntryComplete_bounded {t : Tract} {k : Nat} {s : State} (h : s.Bounded bd) :
    Result.Bounded bd (execVectorEntryComplete t k s) := by
  unfold execVectorEntryComplete
  extract_lets q
  rw [Result.bounded_next]
  split
  · exact h
  · extract_lets free s1
    have hs1 : s1.Bounded bd := by
      unfold s1
      refine State.foldl_bounded (fun s2 x hs => ?_) ?_
      · simp [hs]
      · exact h
    split <;> simp [h, hs1]

/-! Of Sys2Proof/Machine/Optimizer.lean. -/

@[simp] theorem State.optGroup_bounded {h : Hyper} {clip : Word} {p : ParcelId} {r : ShardRec} {zero bad : Bool} {fix : Nat → Nat → Nat}
    {o : OptRun} {i0 : Nat} (ho : o.s.Bounded bd) :
    (State.optGroup h clip p r zero bad fix o i0).s.Bounded bd := by
  unfold State.optGroup
  extract_lets n at_ num one es col s s1 s2 s3
  have hs : s.Bounded bd := by simp [s, col, ho]
  have hs1 : s1.Bounded bd := by simp [s1, col, hs]
  have hs2 : s2.Bounded bd := by simp [s2, col, hs1]
  have hs3 : s3.Bounded bd := by simp [s3, col, hs2]
  exact hs3

@[simp] theorem State.workRow_bounded {s : State} {t : Tract} {id : Nat} {r : ShardRec} {q : Nat} {ws : List (Nat × Bool)}
    {net : List NetReply} (h : s.Bounded bd) :
    (s.workRow t id r q ws net).1.Bounded bd := by
  simp [State.workRow, h]

/-- The groups of a shard, updated in order. -/
theorem OptRun.foldl_bounded {α : Type} {f : OptRun → α → OptRun} (hf : ∀ o x, o.s.Bounded bd → (f o x).s.Bounded bd) {l : List α} {o : OptRun}
    (h : o.s.Bounded bd) : (l.foldl f o).s.Bounded bd :=
  List.foldlRecOn (motive := fun o => o.s.Bounded bd) l f h (fun o ho x _ => hf o x ho)

/-- A fold whose accumulator carries the state first. -/
theorem State.foldl_fst_bounded {α β : Type} {f : State × β → α → State × β} (hf : ∀ q x, q.1.Bounded bd → (f q x).1.Bounded bd) {l : List α}
    {q : State × β} (h : q.1.Bounded bd) : (l.foldl f q).1.Bounded bd :=
  List.foldlRecOn (motive := fun q => q.1.Bounded bd) l f h (fun q hq x _ => hf q x hq)

@[simp] theorem State.optShard_bounded {h : Hyper} {clip : Word} {id : Nat} {p : ParcelId} {bad : Bool} {q : State × Bool × List NetReply}
    {r : ShardRec} (hq : q.1.Bounded bd) : (State.optShard h clip id p bad q r).1.Bounded bd := by
  unfold State.optShard
  extract_lets s s1 l o0 o
  have hs1 : s1.Bounded bd := State.foldl_bounded (fun s x hs => by simp [hs]) hq
  have ho0 : o0.s.Bounded bd := OptRun.foldl_bounded (fun o x ho => State.optGroup_bounded ho) hs1
  have ho : o.s.Bounded bd := by simp [o, ho0]
  split
  · exact hq
  · split
    · exact (State.bumpReg_bounded _ _ _ _ (by simp)).2 hq
    · refine (State.vecFlags_bounded _ _ _).2 ?_
      split
      · exact ho
      · refine State.foldl_fst_bounded (fun a x ha => ?_) ho
        show (a.1.workRow p.tract id r x.2 x.1 a.2.2).1.Bounded bd
        exact State.workRow_bounded ha

theorem State.bounded_fst {β : Type} {s : State} (b : β) (h : s.Bounded bd) : (s, b).1.Bounded bd := h

@[simp] theorem State.optPass_bounded {s : State} {t : Tract} {e : QEntry} {h : Hyper} {total : Word} {bad : Bool} {net : List NetReply}
    (hs : s.Bounded bd) : (s.optPass t e h total bad net).Bounded bd := by
  obtain ⟨g, hg⟩ : ∃ g, @State.optPass = g := ⟨_, rfl⟩
  obtain ⟨clipOf, hclip⟩ : ∃ f, clipFactor = f := ⟨_, rfl⟩
  obtain ⟨shard, hshard⟩ : ∃ f, State.optShard = f := ⟨_, rfl⟩
  obtain ⟨recsOf, hrecs⟩ : ∃ f, State.optRecs = f := ⟨_, rfl⟩
  have hcan : ∀ h clip id p bad q r, q.1.Bounded bd → (shard h clip id p bad q r).1.Bounded bd := by
    rw [← hshard]
    exact fun h clip id p bad q r => State.optShard_bounded
  rw [hg]
  delta State.optPass at hg
  rw [hclip, hshard, hrecs] at hg
  subst hg
  beta_reduce
  extract_lets s1
  have hs1 : s1.Bounded bd := by simp [s1, hs]
  split
  rename_i clip fl _
  extract_lets s2
  have hs2 : s2.Bounded bd := (State.foldl_bounded_iff (fun s p => by simp) _ s1).2 hs1
  split
  rename_i s3 poisoned net1 hfold
  refine (State.setWork_bounded _ _ _ _).2 ?_
  have hstep : ∀ (a : State × Bool × List NetReply) (r : ParcelId × ShardRec), a.1.Bounded bd → (shard h clip e.id r.1 bad a r.2).1.Bounded bd :=
    fun a r ha => hcan h clip e.id r.1 bad a r.2 ha
  have hall := State.foldl_fst_bounded hstep (l := recsOf s1 t e) (State.bounded_fst (false, net) hs2)
  exact (congrArg (fun q => q.1.Bounded bd) hfold).mp hall

@[simp] theorem State.optAct_bounded {s : State} {t : Tract} {e : QEntry} {net : List NetReply} (h : s.Bounded bd) :
    (s.optAct t e net).Bounded bd := by
  unfold State.optAct
  extract_lets q s1 st reads s2 s3
  have hs1 : s1.Bounded bd := by
    unfold s1
    refine State.foldl_bounded (fun s4 x hs => ?_) ?_
    · simp [hs]
    · exact h
  have hs2 : s2.Bounded bd := by simp [s2, hs1]
  have hs3 : s3.Bounded bd := by
    unfold s3
    refine State.foldl_bounded (fun s4 x hs => ?_) ?_
    · simp [hs]
    · exact hs2
  simp [hs1, hs3]

@[simp] theorem execOpt_bounded {t : Tract} {net : List NetReply} {s : State} (h : s.Bounded bd) : Result.Bounded bd (execOpt t net s) := by
  unfold execOpt
  rw [Result.bounded_next]
  refine State.vecStart_bounded h (fun s1 x hs => ?_)
  simp [hs]

/-! The step. -/

/-- Every instruction keeps each of the four limits, by its own lemma. -/
theorem exec_bounded (i : Instr) {s : State} (h : s.Bounded (.limit lim)) : Result.Bounded (.limit lim) (exec i s) := by
  cases i <;> simp [exec, h]

theorem step_bounded {s : State} (h : s.Bounded (.limit lim)) : Result.Bounded (.limit lim) (step s) := by
  unfold step
  split
  · simp [h]
  · exact exec_bounded _ (by simp [h])

/-! What the four limits say. -/

theorem State.bounded_queue_iff (s : State) : s.Bounded (.limit .queue) ↔ ∀ c, (s.core c).arr.queue.length ≤ 8 :=
  ⟨fun h => h.1, fun h => ⟨h, fun _ _ hn => nomatch hn⟩⟩

theorem State.bounded_copies_iff (s : State) : s.Bounded (.limit .copies) ↔ ∀ c, (s.core c).copies.length ≤ 32 :=
  ⟨fun h => h.1, fun h => ⟨h, fun _ _ hn => nomatch hn⟩⟩

theorem State.bounded_loads_iff (s : State) : s.Bounded (.limit .loads) ↔ ∀ c, (s.core c).loadsOpen ≤ 8 :=
  ⟨fun h => h.1, fun h => ⟨h, fun _ _ hn => nomatch hn⟩⟩

theorem State.bounded_tiles_iff (s : State) : s.Bounded (.limit .tiles) ↔ ∀ p, (s.parcel p).tiles.length ≤ s.tileCap p.tract :=
  ⟨fun h p => h.tiles rfl, fun h => ⟨fun _ => Nat.le_refl 0, fun p _ hn => by cases hn; exact h p⟩⟩

/-- Settles O2: each limit is kept by the step, whatever command stands at the front of the queue. -/
theorem stepKeepsBounds : Obligations.StepKeepsBounds := by
  intro s t ht
  have hkeep (lim : Limit) (h : s.Bounded (.limit lim)) : t.Bounded (.limit lim) := step_bounded h t ht
  refine ⟨fun h => ?_, fun h => ?_, fun h => ?_, fun h => ?_⟩
  · exact t.bounded_queue_iff.1 (hkeep .queue (s.bounded_queue_iff.2 h))
  · exact t.bounded_copies_iff.1 (hkeep .copies (s.bounded_copies_iff.2 h))
  · exact t.bounded_loads_iff.1 (hkeep .loads (s.bounded_loads_iff.2 h))
  · exact t.bounded_tiles_iff.1 (hkeep .tiles (s.bounded_tiles_iff.2 h))

end Sys2Proof.Machine
end

section
/-!
PROOFS (O28). The cell array's instructions as they issue: each joins the queue with its operands as they are at issue (R87, R90 to R95).
-/
namespace Sys2Proof.Machine
open Sys2Proof.Claims

/-! The words that the operands come packed in (R87, R90, R91). -/

theorem bitOf_toNat {n : Nat} (x : BitVec n) (j : Nat) : bitOf x.toNat j = x.getLsbD j := by
  rw [BitVec.getLsbD, Nat.testBit_eq_decide_div_mod_eq, bitOf]
  by_cases h : x.toNat / 2 ^ j % 2 = 1 <;> simp [h]

/-- The second word of AWLOAD: the sequence it names. -/
theorem awloadWord_fields (v : Nat) :
    bitsOf v 7 0 = v % 256 ∧ bitsOf v 13 8 = v / 256 % 64 ∧ bitsOf v 19 14 = v / 2 ^ 14 % 64 := by
  simp [bitsOf]

/-- The operand word of ASTREAM. -/
theorem astreamWord_fields {v m sb nch : Nat} {turn reuse : Bool} (hv : v = m + 128 * sb + 8192 * b2n turn + 16384 * b2n reuse + 65536 * nch)
    (hm : m ≤ 64) (hsb : sb < 64) (hnch : nch < 256) :
    bitsOf v 6 0 = m ∧ bitsOf v 12 7 = sb ∧ bitOf v 13 = turn ∧ bitOf v 14 = reuse ∧ bitOf v 15 = false ∧ bitsOf v 23 16 = nch ∧
      bitsOf v 31 24 = 0 := by
  subst hv
  cases turn <;> cases reuse <;> simp only [bitsOf, bitOf, b2n, Bool.false_eq_true, if_false, if_true, beq_iff_eq, beq_eq_false_iff_ne] <;> omega

/-- The operand word of ADRAIN. -/
theorem adrainWord_fields {v sb cnt rs : Nat} {keep : Bool} (hv : v = sb + 64 * cnt + 8192 * b2n keep + 65536 * rs) (hsb : sb < 64) (hcnt : cnt ≤ 64)
    (hrs : rs < 65536) : bitsOf v 5 0 = sb ∧ bitsOf v 12 6 = cnt ∧ bitOf v 13 = keep ∧ bitsOf v 15 14 = 0 ∧ bitsOf v 31 16 = rs := by
  subst hv
  cases keep <;> simp only [bitsOf, bitOf, b2n, Bool.false_eq_true, if_false, if_true, beq_iff_eq, beq_eq_false_iff_ne] <;> omega

/-! The checks that the operands of one instruction pass (R94), as the model writes them. -/

/-- TURN on MX elements asks for a wide strip. -/
theorem turnWide_ok {turn mx wide : Bool} (h : turn = true → mx = true → wide = true) : ¬(turn && mx && !wide) = true := by
  simpa [and_imp] using h

/-- The rows and the stride of ASTREAM. -/
theorem streamRows_ok {m rs : Nat} {turn : Bool} (hm1 : 1 ≤ m) (hm : m ≤ 64) (hrs : turn = true → rs < 65536) :
    ¬(decide (m = 0) || decide (64 < m) || false || (0 : Nat) != 0 || (turn && decide (65536 ≤ rs))) = true := by
  simp only [Bool.or_eq_true, Bool.and_eq_true, decide_eq_true_eq, bne_self_eq_false, Bool.false_eq_true, or_false]
  rintro ((h | h) | ⟨ht, h⟩)
  · omega
  · omega
  · exact Nat.not_lt.2 h (hrs ht)

/-- The rows of ADRAIN. -/
theorem drainRows_ok {cnt : Nat} (hcnt1 : 1 ≤ cnt) (hcnt : cnt ≤ 64) : ¬(decide (cnt = 0) || decide (64 < cnt) || (0 : Nat) != 0) = true := by
  simp only [Bool.or_eq_true, decide_eq_true_eq, bne_self_eq_false, Bool.false_eq_true, or_false]
  omega

/-! What every array instruction passes (R74, R78, R94), and the queue (R95). -/

section
variable {s r : State} {c : CoreId} {g : ArrCfg}

theorem orUnconfigured_of_view (hview : (r.core c).arr.view.cfg = some g) (hfault : (r.core c).arr.fault = none)
    (act : ArrCfg → ArrView → State → State) : r.orUnconfigured c act = act g (r.core c).arr.view r := by
  rw [State.orUnconfigured, hview]
  exact State.orGangFault_of_none hfault

theorem orAbsent_of_cols {i : Fin 4} {lo w : Nat} (hcols : g.cols i.val = some (lo, w)) (act : Nat → Nat → State → State) :
    r.orAbsent c g i act = act lo w r := by
  rw [State.orAbsent, hcols]

theorem State.touch_core (s : State) (a n : Nat) : (s.touch a n).core = s.core := by
  unfold State.core
  rw [State.touch_cores]

/-- An instruction that joins a queue with room, at a core whose issue has noted its words: it leaves the view given. What f does on the way
(the register of an ASTAT) is to the loads and the queue alone. -/
theorem arrEnqueue_queued {ib : List (Nat × Word)} {loads : List OutLoad} {queue : List ArrEntry} {f : Core → Core} {op : ArrOp} {n : Nat} {v : ArrView}
    (hcore : r.core = (s.setCore c { s.core c with ibuf := ib }).core) (hbytes : r.mem.bytes = s.mem.bytes)
    (hroom : (s.core c).arr.queue.length < 8)
    (hf : f { s.core c with ibuf := ib } = { s.core c with ibuf := ib, loads := loads, arr := { (s.core c).arr with queue := queue } }) :
    Queued s (r.arrEnqueue c op n v f) c queue op n ∧ ((r.arrEnqueue c op n v f).core c).arr.view = v := by
  have hself : r.core c = { s.core c with ibuf := ib } := by rw [hcore, State.core_setCore_self]
  have hother (c' : CoreId) (hne : c' ≠ c) : r.core c' = s.core c' := by rw [hcore, State.core_setCore, if_neg hne]
  have henq : r.arrEnqueue c op n v f = r.modCore c (fun k =>
      Core.retire { f k with arr := { (f k).arr with queue := (f k).arr.queue ++ [{ id := k.arr.nextId, pc := k.pc.toNat, op := op }],
                                                      nextId := k.arr.nextId + 1, view := v } } n) := by
    rw [State.arrEnqueue, hself]
    exact if_neg (Nat.not_le.2 hroom)
  rw [henq]
  unfold Queued
  rw [State.core_modCore, if_pos rfl, hself, hf]
  refine ⟨⟨rfl, rfl, rfl, rfl, rfl, rfl, rfl, rfl, hbytes, ?_, fun c' hne => ?_⟩, rfl⟩
  · and_intros <;> rfl
  · rw [State.core_modCore, if_neg hne, hother c' hne]

/-- An instruction, at a core that is ready for it, whose own checks let it join the queue, with what they read of memory touched. -/
theorem issue_queued {i : Issue} {n : Nat} {bad : Bool} {reads : List CReg} {act : State → State} {loads : List OutLoad} {queue : List ArrEntry}
    {f : Core → Core} {op : ArrOp} {v : List (Nat × Word) → ArrView} (h : Ready s i n reads) (hbad : bad = false)
    (hroom : (s.core i.core).arr.queue.length < 8)
    (hact : ∀ ib, ∃ r : State, act (s.setCore i.core { s.core i.core with ibuf := ib }) = r.arrEnqueue i.core op n (v ib) f ∧
      r.core = (s.setCore i.core { s.core i.core with ibuf := ib }).core ∧ r.mem.bytes = s.mem.bytes)
    (hf : ∀ ib, f { s.core i.core with ibuf := ib } =
      { s.core i.core with ibuf := ib, loads := loads, arr := { (s.core i.core).arr with queue := queue } }) :
    Queued s (s.issue i n bad reads act) i.core queue op n ∧ ∃ ib, ((s.issue i n bad reads act).core i.core).arr.view = v ib := by
  obtain ⟨ib, hib⟩ := s.noteFetch_eq i n
  obtain ⟨r, hjoin, hcore, hbytes⟩ := hact ib
  rw [hbad, issue_of_ready h, hib, hjoin]
  obtain ⟨hqueued, hview⟩ := arrEnqueue_queued hcore hbytes hroom (hf ib)
  exact ⟨hqueued, ib, hview⟩

end

/-! The checks of R94, instruction by instruction: k is the core as the issue leaves it. -/

section
variable {r : State} {c : CoreId} {k : Core} {g : ArrCfg} (hk : r.core c = k) (hview : k.arr.view.cfg = some g) (hfault : k.arr.fault = none)
include hk hview hfault

theorem aclearAct_enqueues {f : FmtAclear} {lo w : Nat} (hcols : g.cols f.strip.toNat = some (lo, w))
    (hslots : f.sb.toNat + f.cntM1.toNat + 1 ≤ g.slotLimit f.strip.toNat) :
    r.aclearAct c f = r.arrEnqueue c (.aclear f.strip.toFin f.sb.toNat (f.cntM1.toNat + 1) f.krst) 4
      (if f.krst then k.arr.view.setStrip f.strip.toFin StripView.empty else k.arr.view) id := by
  subst hk
  rw [State.aclearAct, orUnconfigured_of_view hview hfault, orAbsent_of_cols (i := stripIdx f.strip) hcols]
  exact if_neg (Nat.not_lt.2 hslots)

variable {f : FmtArr} {lo w : Nat} (hcols : g.cols f.strip.toNat = some (lo, w))
include hcols

theorem awloadAct_enqueues {ext : Word} {q : WSeqShape} {src : Source}
    (hq : q = { nch := ext.toNat % 256 + 1, kc := ext.toNat / 256 % 64 + 1, kcl := ext.toNat / 2 ^ 14 % 64 + 1, next := 0 })
    (hsrc : src = { addr := (k.getA f.a1).toNat, scale := (k.getA f.a2).toNat, rs := (k.getG f.g).toNat, turn := ext.getLsbD 20, m := 0, kc := q.kc })
    (hrs : src.rs < 65536) (hwide : src.turn = true → fmtIsMx (g.fmt f.strip.toNat) = true → g.wide f.strip.toNat = true)
    (hkc : q.kc ≤ g.kw f.strip.toNat) (hkcl : q.kcl ≤ g.kw f.strip.toNat)
    (hok : (chunkRefs q (k.arr.view.strips[f.strip.toFin]).kpos 0 q.nch).all ChunkRef.ok = true)
    (halign : src.aligned (fmtIsMx (g.fmt f.strip.toNat)) true = true)
    (hin : (weightRegions g f.strip.toNat g.grow.toNat w src (k.arr.view.strips[f.strip.toFin]).kpos
      (chunkRefs q (k.arr.view.strips[f.strip.toFin]).kpos 0 q.nch)).all Region.inStore = true) :
    r.awloadAct c f ext = r.arrEnqueue c (.awload f.strip.toFin src.addr src.scale src.rs q.nch q.kc q.kcl src.turn) 8
      (k.arr.view.setStrip f.strip.toFin { k.arr.view.strips[f.strip.toFin] with seq := some q }) id := by
  have hcross : ¬(decide (g.kw f.strip.toNat < q.kc) || decide (g.kw f.strip.toNat < q.kcl) ||
      !(chunkRefs q (k.arr.view.strips[f.strip.toFin]).kpos 0 q.nch).all ChunkRef.ok) = true := by
    simp only [Nat.not_lt.2 hkc, Nat.not_lt.2 hkcl, hok, decide_false, Bool.or_false, Bool.not_true, Bool.false_eq_true, not_false_eq_true]
  have hrange : ¬(!src.aligned (fmtIsMx (g.fmt f.strip.toNat)) true || !(weightRegions g f.strip.toNat g.grow.toNat w src
      (k.arr.view.strips[f.strip.toFin]).kpos (chunkRefs q (k.arr.view.strips[f.strip.toFin]).kpos 0 q.nch)).all Region.inStore) = true := by
    simp only [halign, hin, Bool.not_true, Bool.or_false, Bool.false_eq_true, not_false_eq_true]
  subst hk hq hsrc
  obtain ⟨hnch, hkcw, hkclw⟩ := awloadWord_fields ext.toNat
  rw [State.awloadAct, orUnconfigured_of_view hview hfault, orAbsent_of_cols (i := stripIdx f.strip) hcols]
  simp only [hnch, hkcw, hkclw, bitOf_toNat]
  exact (if_neg (Nat.not_le.2 hrs)).trans ((if_neg (turnWide_ok hwide)).trans ((if_neg hcross).trans (if_neg hrange)))

theorem astreamAct_enqueues {m sb nch kc : Nat} {turn reuse : Bool} {cs : List ChunkRef} {x : StripView} {src : Source}
    (hw1 : (k.getG f.g).toNat = m + 128 * sb + 8192 * b2n turn + 16384 * b2n reuse + 65536 * nch) (hm1 : 1 ≤ m) (hm : m ≤ 64) (hsb : sb < 64)
    (hnch : nch < 256) (hslots : sb + m ≤ g.slotLimit f.strip.toNat)
    (hturn : turn = true → k.operandWait [.g (f.g + 1)] = none ∧ (k.getG (f.g + 1)).toNat < 65536 ∧
      (fmtIsMx (g.fmt f.strip.toNat) = true → g.wide f.strip.toNat = true))
    (hconsume : (k.arr.view.strips[f.strip.toFin]).consume reuse (nch + 1) = some (cs, kc, x))
    (hsrc : src = { addr := (k.getA f.a1).toNat, scale := (k.getA f.a2).toNat, rs := (k.getG (f.g + 1)).toNat, turn := turn, m := m, kc := kc })
    (hin : g.gcol = 0 → src.aligned (fmtIsMx (g.fmt f.strip.toNat)) turn = true ∧
      (streamRegions g f.strip.toNat g.grow.toNat src ((cs.head?.map (fun r => r.kpos)).getD 0) cs).all Region.inStore = true) :
    r.astreamAct c f = r.arrEnqueue c (.astream f.strip.toFin src.addr src.scale m sb turn reuse (nch + 1) (if turn then src.rs else 0)) 4
      (k.arr.view.setStrip f.strip.toFin x) id := by
  have hwait : (if turn then k.operandWait [.g (f.g + 1)] else none) = none := by
    cases turn
    · rfl
    · exact (hturn rfl).1
  have hrange : ¬(decide (g.gcol = 0) && (!src.aligned (fmtIsMx (g.fmt f.strip.toNat)) turn || !(streamRegions g f.strip.toNat g.grow.toNat src
      ((cs.head?.map (fun r => r.kpos)).getD 0) cs).all Region.inStore)) = true := by
    intro h
    obtain ⟨hcol, hbad⟩ := Bool.and_eq_true_iff.1 h
    obtain ⟨halign, hall⟩ := hin (of_decide_eq_true hcol)
    rw [halign, hall] at hbad
    exact Bool.false_ne_true hbad
  subst hk hsrc
  obtain ⟨hmw, hsbw, hturnw, hreusew, hbit, hnchw, hhigh⟩ := astreamWord_fields hw1 hm hsb hnch
  rw [State.astreamAct, orUnconfigured_of_view hview hfault, orAbsent_of_cols (i := stripIdx f.strip) hcols]
  simp only [hmw, hsbw, hturnw, hreusew, hbit, hnchw, hhigh, hwait]
  refine (if_neg (streamRows_ok hm1 hm fun ht => (hturn ht).2.1)).trans ((if_neg (Nat.not_lt.2 hslots)).trans
    ((if_neg (turnWide_ok fun ht => (hturn ht).2.2)).trans ?_))
  rw [show ((r.core c).arr.view.strips[stripIdx f.strip]).consume reuse (nch + 1) = some (cs, kc, x) from hconsume]
  exact if_neg hrange

variable {sb cnt rs : Nat} {keep : Bool} (hw1 : (k.getG f.g).toNat = sb + 64 * cnt + 8192 * b2n keep + 65536 * rs) (hsb : sb < 64)
  (hcnt1 : 1 ≤ cnt) (hcnt : cnt ≤ 64) (hrs : rs < 65536) (hslots : sb + cnt ≤ g.slotLimit f.strip.toNat)
include hw1 hsb hcnt1 hcnt hrs hslots

/-- A member above the bottom row of its gang drains nothing and reads no descriptor (R76). -/
theorem adrainAct_enqueues_above (habove : g.grow.toNat + 1 ≠ g.size) :
    r.adrainAct c f = r.arrEnqueue c (.adrain f.strip.toFin (k.getA f.a1).toNat (List.replicate 32 0) sb cnt keep rs) 4 k.arr.view id := by
  subst hk
  obtain ⟨hsbw, hcntw, hkeepw, hrsv, hrsw⟩ := adrainWord_fields hw1 hsb hcnt hrs
  rw [State.adrainAct, orUnconfigured_of_view hview hfault, orAbsent_of_cols (i := stripIdx f.strip) hcols]
  simp only [hsbw, hcntw, hkeepw, hrsv, hrsw, decide_eq_false habove, Bool.false_and, Bool.not_false, Bool.false_eq_true, if_false, if_true]
  exact (if_neg (drainRows_ok hcnt1 hcnt)).trans (if_neg (Nat.not_lt.2 hslots))

/-- At a member of the bottom row the descriptor is read, and so touched, at issue. -/
theorem adrainAct_enqueues_bottom {bs : List Byte} (hbottom : g.grow.toNat + 1 = g.size) (hap : (k.getA f.a2).toNat % 32 = 0)
    (hapin : (k.getA f.a2).toNat + 32 ≤ 0x6000) (hbs : bs = r.peek (storeKey c (k.getA f.a2).toNat) 32)
    (hsound : r.poisoned (storeKey c (k.getA f.a2).toNat) 32 = false) (hgather : sb + cnt * gatherGroups g (drainDesc bs) ≤ g.slotLimit f.strip.toNat)
    (had : (k.getA f.a1).toNat % 4 = 0) (hrs4 : rs % 4 = 0) (hgood : drainBad g f.strip.toNat cnt (drainDesc bs) = false)
    (hbias : (drainDesc bs).bias = true → (drainDesc bs).baddr % 4 = 0)
    (hin : (drainRegions g w (k.getA f.a1).toNat rs cnt (drainDesc bs)).all Region.inStore = true) :
    r.adrainAct c f = (r.touch (storeKey c (k.getA f.a2).toNat) 32).arrEnqueue c
      (.adrain f.strip.toFin (k.getA f.a1).toNat bs sb cnt keep rs) 4 k.arr.view id := by
  have hapOk : (decide ((k.getA f.a2).toNat % 32 = 0) && decide ((k.getA f.a2).toNat + 32 ≤ 0x6000)) = true := by
    rw [decide_eq_true hap, decide_eq_true hapin, Bool.and_self]
  have hgathered : ¬decide (g.slotLimit f.strip.toNat < sb + cnt * gatherGroups g (drainDesc bs)) = true := by
    rw [decide_eq_true_eq]
    exact Nat.not_lt.2 hgather
  have haligned : ¬(decide ((k.getA f.a1).toNat % 4 ≠ 0) || decide (rs % 4 ≠ 0)) = true := by
    simp only [had, hrs4, ne_eq, not_true_eq_false, decide_false, Bool.or_self, Bool.false_eq_true, not_false_eq_true]
  have hrange : ¬((drainDesc bs).bias && (drainDesc bs).baddr % 4 != 0 ||
      !(drainRegions g w (k.getA f.a1).toNat rs cnt (drainDesc bs)).all Region.inStore) = true := by
    rw [hin]
    cases hb : (drainDesc bs).bias
    · exact Bool.false_ne_true
    · rw [hbias hb]
      exact Bool.false_ne_true
  subst hk hbs
  obtain ⟨hsbw, hcntw, hkeepw, hrsv, hrsw⟩ := adrainWord_fields hw1 hsb hcnt hrs
  rw [State.adrainAct, orUnconfigured_of_view hview hfault, orAbsent_of_cols (i := stripIdx f.strip) hcols]
  simp only [hsbw, hcntw, hkeepw, hrsv, hrsw, decide_eq_true hbottom, hapOk, hsound, Bool.and_true, Bool.and_false, Bool.not_true, Bool.not_false,
    Bool.false_eq_true, if_false, if_true, Bool.true_and, Bool.false_or]
  exact (if_neg (drainRows_ok hcnt1 hcnt)).trans ((if_neg (Nat.not_lt.2 hslots)).trans ((if_neg hgathered).trans ((if_neg haligned).trans
    ((if_neg (fun h => Bool.false_ne_true (hgood.symm.trans h))).trans (if_neg hrange)))))

end

/-- Settles O28: each instruction's checks let it pass, and the queue then takes it. -/
theorem arrayInstructionsQueue : Obligations.ArrayInstructionsQueue := by
  intro i s hroom hfault
  have hself (ib : List (Nat × Word)) : (s.setCore i.core { s.core i.core with ibuf := ib }).core i.core = { s.core i.core with ibuf := ib } :=
    State.core_setCore_self ..
  refine ⟨fun f g hres h hg hbad hwide hs => ?amode, fun g hview => ⟨fun f lo w hres h hcols hslots hs => ?aclear, fun f hres h hs => ?astat,
    fun f lo w hres hcols => ⟨fun ext q src hext h hq hsrc hrs hwide hkc hkcl hok halign hin hs => ?awload,
      fun m sb nch kc turn reuse cs x src h heven hw1 hm1 hm hsb hnch hslots hturn hconsume hsrc hin hs => ?astream,
      fun sb cnt rs keep bs h hw1 hsb hcnt1 hcnt hrs hslots hdesc hs => ?adrain⟩⟩⟩
  case amode =>
    subst hg
    refine ⟨_, State.asSpelled_of_spells hs, And.imp_right ?_ (issue_queued h (by simp [hres]) hroom (fun ib =>
      ⟨_, (State.orGangFault_of_none (by rw [hself]; exact hfault)).trans ((if_neg (ne_true_of_eq_false hbad)).trans
        (if_neg (ne_true_of_eq_false hwide))), rfl, rfl⟩) (fun ib => rfl))⟩
    rintro ⟨ib, hview⟩
    rw [hview]
    exact ⟨rfl, rfl⟩
  case aclear =>
    exact ⟨_, State.asSpelled_of_spells hs, (issue_queued h (by simp [hres]) hroom (fun ib =>
      ⟨_, aclearAct_enqueues (hself ib) hview hfault hcols hslots, rfl, rfl⟩) (fun ib => rfl)).1⟩
  case astat =>
    exact ⟨_, State.asSpelled_of_spells hs, (issue_queued (loads := ((s.core i.core).supersede (.g f.g)).loads) h (by simp [hres]) hroom (fun ib =>
      ⟨_, orUnconfigured_of_view (by rw [hself]; exact hview) (by rw [hself]; exact hfault) _, rfl, rfl⟩) (fun ib => rfl)).1⟩
  case awload =>
    exact ⟨_, State.asSpelled_of_spells hs, (issue_queued h (by simpa [hres] using hext) hroom (fun ib =>
      ⟨_, awloadAct_enqueues (hself ib) hview hfault hcols hq hsrc hrs hwide hkc hkcl hok halign hin, rfl, rfl⟩) (fun ib => rfl)).1⟩
  case astream =>
    exact ⟨_, State.asSpelled_of_spells hs, (issue_queued h (by simp [hres, oddReg, heven]) hroom (fun ib =>
      ⟨_, astreamAct_enqueues (hself ib) hview hfault hcols hw1 hm1 hm hsb hnch hslots hturn hconsume hsrc hin, rfl, rfl⟩) (fun ib => rfl)).1⟩
  case adrain =>
    obtain ⟨habove, rfl⟩ | ⟨hbottom, hap, hapin, hbs, hsound, hgather, had, hrs4, hgood, hbias, hin⟩ := hdesc
    · exact ⟨_, State.asSpelled_of_spells hs, (issue_queued h (by simp [hres]) hroom (fun ib =>
        ⟨_, adrainAct_enqueues_above (hself ib) hview hfault hcols hw1 hsb hcnt1 hcnt hrs hslots habove, rfl, rfl⟩) (fun ib => rfl)).1⟩
    · have hpeek (k : Core) : bs = (s.setCore i.core k).peek (storeKey i.core ((s.core i.core).getA f.a2).toNat) 32 :=
        hbs.trans (peek_setCore (space := 0) hapin i.core k).symm
      exact ⟨_, State.asSpelled_of_spells hs, (issue_queued (f := id) h (by simp [hres]) hroom (fun ib =>
        ⟨_, adrainAct_enqueues_bottom (hself ib) hview hfault hcols hw1 hsb hcnt1 hcnt hrs hslots hbottom hap hapin (hpeek _) hsound hgather had hrs4
          hgood hbias hin, State.touch_core _ _ 32, State.touch_bytes _ _ 32⟩) (fun ib => rfl)).1⟩

end Sys2Proof.Machine
end

section
/-!
PROOFS (O29). An ASTREAM whose strip's K position stands at 2^32, which the 32-bit counter of R70 never does.
-/
namespace Sys2Proof.Machine
open Sys2Proof.Claims

/-- One strip of MXFP8, no gang. -/
def mxLone : ArrCfg := { mode := 0, layout := 0, gang := 0, grow := 0, gcol := 0, ord6 := false, fmts := 4 }

/-- Eight columns of eight weights 1.0. -/
def onesChunk : WChunk := List.replicate 8 (List.replicate 8 { code := 0x38, scale := 127, bad := false })

/-- Five such chunks, the first at K position 2^32: the fifth lies in the next datum block. -/
def stripPastEnd : Strip :=
  { kpos := 2 ^ 32, seq := some { nch := 5, kc := 8, kcl := 8, next := 0 }, chunks := List.replicate 5 onesChunk, last := none }

/-- One row streams through all five into slot 0, its elements from 0x400 of the local store, their scales from 0x200. -/
def streamFive : ArrOp := .astream 0 0x400 0x200 1 0 false false 5 0

def streamingCore : CoreId := { tract := 0, parcel := 0, core := 0 }

/-- The core stands at that instruction. Of its stream only the first element of the fifth chunk is not zero; the scale row of the second datum block, 64
bytes behind that of the first (R88), begins with the code of 1.0, that of the first with the code of 2^-127. -/
def streamPastEnd : State :=
  { State.reset with
    mem := { Mem.reset with bytes := [(storeKey streamingCore 0x240, 127), (storeKey streamingCore 0x500, 0x38)] }
    cores := [(streamingCore, { Core.reset with arr := { ArrState.reset with
      cfg := some mxLone, formed := true, strips := Vector.replicate 4 stripPastEnd, queue := [{ id := 0, pc := 0, op := streamFive }] } })] }

theorem streamPastEnd_team : TeamAt streamPastEnd streamingCore 1 (fun _ _ => mxLone) (fun _ _ => streamFive) := by
  refine ⟨rfl, rfl, rfl, rfl, rfl, rfl, by decide, fun r q hr hq => ?_⟩
  obtain rfl := Nat.lt_one_iff.1 hr
  obtain rfl := Nat.lt_one_iff.1 hq
  decide +kernel

/-- The K positions of the chunks, counted modulo 2^32. -/
def chunkStarts : List Nat := (List.range 5).map (fun j => (2 ^ 32 + j * 8) % 2 ^ 32)

/-- What the statement has slot 0 of the first column hold: each chunk's elements, read with the block of 2^32 as the first. -/
def statedSlot : Slot :=
  (List.range 5).foldl (fun sl j => (sl.row mxLone 0
    ((List.range 1).flatMap (fun gr => (List.range (((stripPastEnd.chunks).getD j []).getD 0 []).length).map (fun k =>
      (streamAt streamPastEnd (memberAt streamingCore 1 gr 0) mxLone 0 0x400 0x200 1 0 8 false (2 ^ 32) (chunkStarts.getD j 0) j
        (8 * mxLone.perCell 0 * gr + k) 0,
       (((stripPastEnd.chunks).getD j []).getD 0 []).getD k { code := 0, scale := 0, bad := false },
       (chunkStarts.getD j 0 + 8 * mxLone.perCell 0 * gr + k) % 2 ^ 32))))).1)
    ((streamPastEnd.core (memberAt streamingCore 1 0 0)).slot 0 0)

/-- The sum that the statement has pending there is 2^-127: the fifth chunk's block, counted from 2^32, comes to the first. -/
theorem statedSlot_pend : statedSlot.pend.bind (fun b => b.val) = some (.fin false 4096 (-139)) := by
  decide +kernel

/-- A slot behind a command. -/
def slotBehind (o : Result) (c : CoreId) (col n : Nat) : Slot :=
  match o with
  | .next u => (u.core c).slot col n
  | _ => Slot.empty

/-- The sum that the entry leaves pending there is 1: it counts the blocks from K position 0. -/
theorem streamPastEnd_pend :
    (slotBehind (exec (.arrayEntryComplete streamingCore) streamPastEnd) (memberAt streamingCore 1 0 0) 0 0).pend.bind (fun b => b.val) =
      some (.fin false 4096 (-12)) := by
  decide +kernel

/-- Refutes O29: what it says of ASTREAM it says of every K position that a strip may list, also of one that does not fit the 32 bits of its counter (R70).
The entry takes its first chunk at that position modulo 2^32 and counts the rows of scales from the block there; the statement counts them from the
position itself. -/
theorem not_arrayEntriesComplete : ¬ Obligations.ArrayEntriesComplete := by
  intro h
  obtain ⟨-, hgang, -⟩ := h
  obtain ⟨-, hstream, -⟩ := hgang streamingCore 1 (fun _ _ => mxLone) (fun _ _ => streamFive) 0 0 8 streamPastEnd (by decide) (by decide)
    streamPastEnd_team (by decide)
  have hstrip (r q : Nat) (hr : r < 1) (hq : q < 1) :
      ((streamPastEnd.core (memberAt streamingCore 1 r q)).arr.strips[(0 : Fin 4)]) = stripPastEnd := by
    obtain rfl := Nat.lt_one_iff.1 hr
    obtain rfl := Nat.lt_one_iff.1 hq
    decide +kernel
  have hchunk (j : Nat) (hj : j < 5) : stripPastEnd.chunks[j]? = some onesChunk := List.getElem?_replicate_of_lt hj
  obtain ⟨t, hexec, -, hslots, -⟩ := hstream (fun _ _ => 0x400) (fun _ _ => 0x200) (fun _ _ => 0) 1 0 5 8 5 (2 ^ 32) false false chunkStarts
    (fun _ _ => stripPastEnd.chunks) (fun _ _ => rfl) (by decide)
    (fun r q hr hq => by
      rw [hstrip r q hr hq]
      exact ⟨_, rfl, rfl, nofun, fun _ => ⟨rfl, by decide, rfl, rfl, rfl⟩⟩)
    (fun r q j hr _ hj => ⟨onesChunk, hchunk j hj, by decide, fun col hcol => by
      obtain rfl := List.eq_of_mem_replicate hcol
      exact ⟨_, onesChunk, hchunk j hj, rfl, rfl, by decide, fun hnext => by omega⟩⟩)
  have hstated : (t.core (memberAt streamingCore 1 0 0)).slot 0 0 = statedSlot := hslots 0 0 0 (by decide) (by decide) (by decide)
  have hleft := streamPastEnd_pend
  rw [hexec] at hleft
  have hpend := congrArg (fun sl => sl.pend.bind (fun b => b.val)) hstated
  exact absurd (hleft.symm.trans (hpend.trans statedSlot_pend)) (by decide)

end Sys2Proof.Machine
end
